-- ==== Sys2Proof/Word.lean ====
section
/-!
DEFINITION. Word.lean: the words of the Yolligus Y8. A register is 32 bits wide (R4); a byte is 8 bits.
-/

namespace Sys2Proof

/-- A register word: every register is 32 bits wide and little-endian (R4). -/
abbrev Word := BitVec 32

/-- A byte of a memory, a frame or a record. -/
abbrev Byte := BitVec 8

/-- A SHA-384 digest (R67, R68, R406). -/
abbrev Digest := BitVec 384

/-- A sparse table: an index and what is held there. One canonical form (Machine/Tab.lean): indexes strictly
rising, and no entry equal to what an unlisted index reads as. -/
abbrev Tab (α : Type) := List (Nat × α)

end Sys2Proof
end

