-- ==== Sys2Proof/Data.lean ====
section
/-!
DEFINITION. Data.lean: what the commands carry and the non-volatile memories hold: local time values, the Tvedod
configuration image and its sections, Dorelo program images, PTP data sets, authorisations. Plain data only.
The spec gives no byte layout for the sections EARLY_IO, MACHINE, TIME, CAMERA, POWER and PEER: an image is the record of
their fields (DESIGN CHOICE, assumption 5). The SHA-384 of a section's bytes, which the record does not hold, is a datum of it (DESIGN
CHOICE, assumption 4).
-/

namespace Sys2Proof

/-- A local time value (R84, R86): seconds, nanoseconds, and the fraction in units of 2^-40 ns, of which FRAC is the top
16 bits. -/
structure LTime where
  sec  : BitVec 48 := 0
  ns   : BitVec 30 := 0
  frac : BitVec 40 := 0
  deriving DecidableEq, Repr, Inhabited

/-- The two serial NOR slots (R65). -/
inductive Slot where
  | a | b
  deriving DecidableEq, Repr, Inhabited

/-- The items a partial reset can name (R79, R81). -/
inductive ItemKind where
  | tiller | intake | sheaf | awn
  deriving DecidableEq, Repr, Inhabited

/-- One encoder channel's settings from EARLY_IO (R104 to R112; register tables ENC_CFG and ENC_PARAM). -/
structure EncCfg where
  mode       : Nat := 0
  se24       : Bool := false
  term       : Bool := false
  invert     : Bool := false
  zmode      : Nat := 0
  filt       : Nat := 0
  spdWinLog2 : Nat := 3
  stillMs    : Nat := 100
  refCount   : Nat := 0
  bits       : Nat := 0
  clk100k    : Nat := 0
  deriving DecidableEq, Repr, Inhabited

/-- The EARLY_IO section (R69). `reservedZero`: every reserved field is 0 (check 5 of R70). -/
structure EarlyIo where
  enc          : List EncCfg := []
  wbEn         : BitVec 24 := 0
  reservedZero : Bool := true
  deriving DecidableEq, Repr, Inhabited

/-- The MACHINE section (R69, and the registers each chapter loads from MACHINE). -/
structure MachineSec where
  s           : Nat := 64
  freeRun     : Bool := false
  periodNs    : Nat := 0
  masterEnc   : Nat := 0
  pitch       : Nat := 0
  vMaxCps     : Nat := 0
  holdMs      : Nat := 20
  defaultAct  : Nat := 0
  voidAct     : Nat := 0
  overflowAct : Nat := 0
  inhibitDi   : Nat := 31
  sendAhead   : Nat := 10
  learn       : Bool := false
  doMode      : List Nat := []
  doSrc       : List Nat := []
  conn8       : Bool := true
  maxSwaths   : Nat := 4
  cropPad     : Nat := 0
  steerMargin : Nat := 0
  steerKib    : Nat := 0
  minArea     : Nat := 1
  quarRate    : Nat := 16
  autoReturn  : Bool := true
  hostCtxMask : BitVec 16 := 0
  chaffWrite  : Bool := false
  recordAct   : BitVec 4 := 2
  recordErr   : Bool := true
  budget      : Nat := 16
  deriving DecidableEq, Repr, Inhabited

/-- One PTP domain's settings from TIME (register tables TIM_SERVO_A_CTRL and TIM_SERVO_A_GAIN; R88, R92). -/
structure DomCfg where
  enable    : Bool := false
  pdOneStep : Bool := false
  p2p       : Bool := false
  l2        : Bool := false
  port      : Nat := 0
  domainNum : Nat := 0
  kp        : Nat := 0
  ki        : Nat := 0
  deriving DecidableEq, Repr, Inhabited

/-- The TIME section (R69, R88, R93, R94, R96, R99). -/
structure TimeSec where
  domA       : DomCfg := {}
  domB       : DomCfg := {}
  reqDomain  : Bool := false
  autoSwitch : Bool := false
  revert     : Bool := false
  lockNs     : Nat := 1000
  stepNs     : Nat := 100000
  outlierNs  : Nat := 50000
  holdS      : Nat := 10
  required   : Bool := false
  rxLat0     : Nat := 0
  txLat0     : Nat := 0
  rxLat1     : Nat := 0
  txLat1     : Nat := 0
  deriving DecidableEq, Repr, Inhabited

/-- What a Sheaf port is assigned to (SHF_PHY_CTRL.MODE). -/
inductive PortMode where
  | unassigned | camera | peer
  deriving DecidableEq, Repr, Inhabited

/-- One port's settings from CAMERA (register tables INT_PORT_CFG, INT_PORT_GEOM, INT_PORT_FILL, CHF_PORT_CH,
CHF_PORT_LSB; R165 to R182, R209). `width` and `mult` are coded as the register codes them. -/
structure CamPort where
  mode      : PortMode := .unassigned
  pixels    : Nat := 0
  bands     : Nat := 0
  width     : Nat := 0
  mult      : Nat := 0
  fill      : Nat := 0
  fillConst : Nat := 0
  minPeriod : Nat := 0
  mirror    : Bool := false
  group     : Nat := 0
  refBand   : Nat := 0
  lineOfs   : Int := 0
  pixOfs    : Int := 0
  chaffEn   : Bool := false
  split     : Nat := 0
  ch        : List Nat := []
  lsb       : List Nat := []
  context   : Nat := 0
  deriving DecidableEq, Repr, Inhabited

/-- The CAMERA section. -/
structure CameraSec where
  ports         : List CamPort := []
  alignTimeoutS : Nat := 60
  deriving DecidableEq, Repr, Inhabited

/-- The ISP section (R203): its header, its length, and the parameter window's words (R201), by word address. -/
structure IspSec where
  setId     : Word := 0
  hostWrite : Bool := false
  hdrZero   : Bool := true
  portMask  : BitVec 16 := 0
  length    : Nat := 16
  words     : Tab Word := []
  deriving DecidableEq, Repr, Inhabited

/-- One map-port entry of the VALVE section (R375). -/
structure MapPort where
  dist : List Nat := []
  lead : Nat := 0
  trail : Nat := 0
  widen : Nat := 0
  deriving DecidableEq, Repr, Inhabited

/-- One valve entry of the VALVE section (R375). -/
structure ValveCfg where
  line    : Nat := 0
  port    : Nat := 0
  colLo   : Nat := 0
  colHi   : Nat := 0
  lOnSeed : Nat := 0
  lOff    : Nat := 0
  deriving DecidableEq, Repr, Inhabited

/-- The VALVE section (R375): valves by number, 0 to 2,063. -/
structure ValveSec where
  boardMask : List (BitVec 8) := []
  minOnUs   : Nat := 20
  minOffUs  : Nat := 0
  maxOnMs   : Nat := 1
  airNs     : List Nat := []
  mapPorts  : List MapPort := []
  valves    : Tab ValveCfg := []
  deriving DecidableEq, Repr, Inhabited

/-- The POWER section (register table PWR_CFG; R434). -/
structure PowerSec where
  capW   : Nat := 350
  order  : Nat := 0
  wakeDi : Nat := 31
  gateUs : Nat := 200
  deriving DecidableEq, Repr, Inhabited

/-- The header of a STEM_FW section (R467). -/
structure StemFw where
  magic        : Word := 0x4D455453
  format       : Nat := 1
  libVer       : Nat := 0
  fwVer        : Word := 0
  reservedZero : Bool := true
  deriving DecidableEq, Repr, Inhabited

/-- One step of a static schedule (R310). -/
structure SchedStep where
  first     : Nat := 0
  count     : Nat := 0
  perBatch  : Bool := false
  waitT     : Nat := 255
  waitS     : Nat := 0
  peerWait  : Nat := 255
  replicaOf : Nat := 255
  wcCycles  : Nat := 0
  deriving DecidableEq, Repr, Inhabited

/-- One BINS entry (R309). -/
structure BinDecl where
  ltiller  : Nat := 0
  handle   : Nat := 0
  space    : Nat := 0
  narrow   : Bool := false
  acc      : Bool := false
  input    : Bool := false
  decision : Bool := false
  perBatch : Bool := false
  rotate   : Nat := 0
  sizeKib  : Nat := 0
  stride   : Nat := 0
  init     : Nat := 0xFFFFFFFF
  reservedZero : Bool := true
  deriving DecidableEq, Repr, Inhabited

/-- One QUEUES entry (R466). -/
structure QueDecl where
  queue    : Nat := 0
  cls      : Nat := 0
  ltiller  : Nat := 0
  log2Size : Nat := 4
  cr       : Nat := 0
  flags    : BitVec 8 := 0
  reservedZero : Bool := true
  deriving DecidableEq, Repr, Inhabited

/-- One logical peer window of the PEER section (R325). -/
structure PeerDecl where
  window  : Nat := 0
  owner   : Nat := 0
  ltiller : Nat := 0
  granary : Bool := false
  handle  : Nat := 0
  port    : Nat := 0
  halfKib : Nat := 1
  perTick : Nat := 0
  deriving DecidableEq, Repr, Inhabited

/-- The DECIDE section (R369). -/
structure DecideSec where
  nclass    : Nat := 1
  noclass   : Nat := 0
  chaffAct  : List Nat := []
  classAct  : List Nat := []
  deriving DecidableEq, Repr, Inhabited

/-- A Dorelo program image (R307 to R310, R466, R325, R369). `hash` is the program hash, `hashOk` whether the image's own
bytes hash to it. -/
structure Program where
  magic       : Word := 0x4F4C5244
  format      : Nat := 1
  /-- SECTIONS: TYPE and OFFSET of entries 0 to NSECT − 1. -/
  sects       : List (Nat × Nat) := []
  length      : Nat := 256
  hash        : Digest := 0
  hashOk      : Bool := true
  libMin      : Nat := 0
  ar          : Nat := 0
  exact       : Bool := false
  dlbAllowed  : Bool := false
  tick        : Bool := false
  split       : Bool := false
  logical     : Nat := 1
  modules     : Nat := 1
  moduleIndex : Nat := 0
  ejectModule : Nat := 0
  clockMhz    : Nat := 1600
  priority    : Nat := 0
  hIn         : Nat := 0
  wIn         : Nat := 0
  channels    : Nat := 0
  outType     : Nat := 0
  resize      : Nat := 0
  packW       : Nat := 0
  gap         : Nat := 0
  batch       : Nat := 0
  roiMax      : Nat := 0
  stageLines  : Nat := 0
  reservedZero : Bool := true
  sched       : List (List SchedStep) := []
  cmds        : List (BitVec 512) := []
  bins        : List BinDecl := []
  weights     : List Byte := []
  queues      : List QueDecl := []
  peer        : List PeerDecl := []
  decide      : Option DecideSec := none
  deriving DecidableEq, Repr, Inhabited

/-- One section table entry (R68) as Machine/Image.lean reads it from its 64 bytes. `actual` is the SHA-384 of the section's bytes as they
stand in the NOR. -/
structure SectEntry where
  type     : Nat := 0
  context  : Nat := 0
  offset   : Nat := 0
  length   : Nat := 0
  digest   : Digest := 0
  actual   : Digest := 0
  reservedZero : Bool := true
  deriving DecidableEq, Repr, Inhabited

/-- A Tvedod image in a slot (R67 to R69): the bytes of its header region in their parts, of which those not listed are 0 (Machine/Image.lean
reads them), and the fields of its sections. `actual` is the SHA-384 of each section's bytes as they stand in the NOR, a datum (assumption
4). -/
structure Image where
  /-- R67: bytes 0x0000 to 0x001F. -/
  head         : List Byte := []
  /-- R67: OWNER_PUB, bytes 0x0020 to 0x007F. -/
  ownerPub     : List Byte := []
  /-- R67, R68: SECTIONS, bytes 0x0080 to 0x107F, entry by entry. -/
  table        : List (List Byte) := []
  /-- R67: SIG, bytes 0x1080 to 0x10DF. -/
  sig          : List Byte := []
  /-- R67: the reserved bytes from 0x10E0. -/
  rest         : List Byte := []
  actual       : List Digest := []
  early        : EarlyIo := {}
  machine      : MachineSec := {}
  time         : TimeSec := {}
  camera       : CameraSec := {}
  isp          : IspSec := {}
  chaff        : Tab Byte := []
  valve        : ValveSec := {}
  power        : PowerSec := {}
  stem         : StemFw := {}
  programs     : List (Nat × Program) := []
  deriving DecidableEq, Repr, Inhabited

/-- What every PTP message carries: the Ethernet port it came in on, its transport (Layer 2, else UDP over IPv4), its
domainNumber and its sender's sourcePortIdentity (R88). -/
structure PtpHead where
  eth    : Fin 2 := 0
  l2     : Bool := false
  domNum : Nat := 0
  sender : BitVec 80 := 0
  deriving DecidableEq, Repr, Inhabited

/-- An Announce message's data set (R88: the dataset comparison of IEEE 1588-2019). -/
structure Announce where
  priority1 : Nat := 128
  clockClass : Nat := 248
  accuracy  : Nat := 254
  variance  : Nat := 65535
  priority2 : Nat := 128
  gmId      : BitVec 64 := 0
  steps     : Nat := 0
  sender    : BitVec 80 := 0
  deriving DecidableEq, Repr, Inhabited

/-- An authorisation block of 264 bytes (R424). `pub` is no part of it: the public key of the owner or of the vendor that Glume verifies SIG
under. The fuses and the boot ROM hold only its hash, and R424 does not say where Glume takes the key from (DESIGN CHOICE, assumption 4). -/
structure Auth where
  magic     : Word := 0x54554147
  op        : Nat := 0
  keySlot   : Nat := 0
  /-- Bytes 6 and 7. -/
  reserved  : List Byte := []
  device    : Digest := 0
  nonce     : BitVec 128 := 0
  arg       : List Byte := []
  sig       : List Byte := []
  pub       : List Byte := []
  deriving DecidableEq, Repr, Inhabited

/-- Stored data that a command reads (R357): weights or INIT contents, activations, or an entry of the HBM page map. -/
inductive DataKind where
  | weights | activations | map
  deriving DecidableEq, Repr, Inhabited

/-- What a check did while a command ran (R350, R357): nothing; a residue, duplicate, Rachis, Flail or Stem memory check fired; a read of
stored data failed and its repeat passed; or it failed twice. `good`: a source still holds the data good; `bin`, `ofs`: the handle and the
offset at which the bad word was read. -/
inductive CheckIn where
  | pass
  | fired (source : Nat)
  | repeated (source : Nat)
  | badData (source : Nat) (good : Bool) (kind : DataKind) (bin ofs : Nat)
  deriving DecidableEq, Repr, Inhabited

/-- What a pattern checker's lane received (R142): the bits it may seed itself from, then a longer stretch by its length and the places,
rising, of the bits in it that are wrong. -/
structure LaneRun where
  seen  : List Bool := []
  total : Nat := 0
  wrong : List Nat := []
  deriving DecidableEq, Repr, Inhabited

/-- What a receiver measured of one lane during training (R133, R135; register table SHF_RX_STAT), and the TAP_REQ that it asks of the
partner's transmitter (R132). -/
structure RxMeas where
  inverted : Bool := false
  skewUi   : Nat := 0
  eyeMv    : Nat := 0
  ctle     : Nat := 0
  rtUi     : Nat := 0
  tapReq   : BitVec 4 := 0
  deriving DecidableEq, Repr, Inhabited

/-- The image data a LOAD reads (R341, R415): a plain image, or a wrapped one: its IV, its ciphertext and its tag. `program` is the image, of a
wrapped one what its plaintext spells (assumption 5). -/
structure LoadData where
  program : Program := {}
  wrapped : Bool := false
  iv      : List Byte := []
  text    : List Byte := []
  tag     : List Byte := []
  deriving DecidableEq, Repr, Inhabited

/-- What the power controller measured over one control period (R434, R435, R438, R442). -/
structure PowerMeas where
  /-- R438: the input power M, in 1/8 W. -/
  inputEighthW : Nat := 0
  /-- R435: activity of each Tiller, in 1/1000. -/
  activity     : List Nat := []
  /-- R438: the activity counters' estimate of the links, W; and what of it is never throttled. -/
  linksW       : Nat := 0
  linksFloorW  : Nat := 0
  /-- R438: the activity counters' estimate of memory, W; and what of it is never throttled. -/
  memoryW      : Nat := 0
  memoryFloorW : Nat := 0
  /-- R442: degrees C: compute die 0, compute die 1, intake die, IO die, HBM 0, HBM 1, coolant inlet. -/
  temps        : List Nat := []
  /-- R442: degrees C: the Tillers' own sensors. -/
  tillerTemps  : List Nat := []
  deriving DecidableEq, Repr, Inhabited

/-- How a program of the NAND ends (R393). -/
inductive NandResult where
  | done
  /-- The program fails. -/
  | programFails
  /-- The program succeeds; the erase of the block that it has freed fails. -/
  | eraseFails
  deriving DecidableEq, Repr, Inhabited

/-- An instruction shifted into the JTAG port of J8 (R42). -/
inductive JtagIr where
  | idcode | bypass
  | other (code : Nat)
  deriving DecidableEq, Repr, Inhabited

/-- What one field input shows at the end of a sampling window (R55): terminal voltage in mV, current in µA. -/
structure DiSample where
  mv : Nat := 0
  ua : Nat := 0
  deriving DecidableEq, Repr, Inhabited

end Sys2Proof
end

