-- ==== Sys2Proof/Syntax.lean ====
section
/-!
DEFINITION. Syntax.lean: the commands of the Yolligus Y8, one constructor per row of spec/opcode_table.json, in the
table's order. The row's rule stands with each.
-/

namespace Sys2Proof

/-- A command: what the environment does to the module, or a step the module takes by itself that the table names. -/
inductive Instr where
  /-- POWER_GOOD (R73). -/
  | powerGood
  /-- FUNCTION_READY (R74). -/
  | functionReady
  /-- CONFIGURATION_REQUEST (R74). -/
  | configurationRequest
  /-- MACHINE_READY_ENTRY (R76). -/
  | machineReadyEntry
  /-- SWATH_TICK (R15). -/
  | swathTick
  /-- SUPPLY_EXCURSION_START (R49). -/
  | supplyExcursionStart
  /-- SUPPLY_DIP (R49). -/
  | supplyDip
  /-- SUPPLY_FAULT (R49). -/
  | supplyFault
  /-- POWER_GOOD_LOST (R50). -/
  | powerGoodLost
  /-- HOLDUP_EXPIRY (R50). -/
  | holdupExpiry
  /-- MODULE_RESET (R79). -/
  | moduleReset (key : BitVec 8)
  /-- WARM_RESET (R79). -/
  | warmReset (key : BitVec 8)
  /-- TILLER_PARTIAL_RESET (R81). -/
  | tillerPartialReset (key : BitVec 8) (target : BitVec 4)
  /-- INTAKE_PORT_PARTIAL_RESET (R81). -/
  | intakePortPartialReset (key : BitVec 8) (target : BitVec 4)
  /-- SHEAF_PORT_PARTIAL_RESET (R81). -/
  | sheafPortPartialReset (key : BitVec 8) (target : BitVec 4)
  /-- AWN_PORT_PARTIAL_RESET (R81). -/
  | awnPortPartialReset (key : BitVec 8) (target : BitVec 4)
  /-- PARTIAL_RESET_TAKES_EFFECT (R81). -/
  | partialResetTakesEffect (kind : ItemKind) (n : Fin 16)
  /-- PARTIAL_RESET_COMPLETE (R81). -/
  | partialResetComplete (kind : ItemKind) (n : Fin 16)
  /-- ITEM_RETURNS_TO_SERVICE (R81). -/
  | itemReturnsToService (kind : ItemKind) (n : Fin 16)
  /-- STEM_WATCHDOG_EXPIRY (R79). -/
  | stemWatchdogExpiry
  /-- GLUME_INTEGRITY_FAILURE (R23). -/
  | glumeIntegrityFailure
  /-- DEBUG_HEADER_RESET (R79). -/
  | debugHeaderReset
  /-- PCIE_RESET (R79). -/
  | pcieReset
  /-- FUNCTION_LEVEL_RESET (R445). -/
  | functionLevelReset
  /-- POWER_MANAGEMENT_STATE_CHANGE (R445). -/
  | powerManagementStateChange (d3hot : Bool)
  /-- PTP_SYNC (R92). -/
  | ptpSync (h : PtpHead) (vlan : Option Nat) (corr : Int) (origin : Option LTime)
  /-- PTP_FOLLOW_UP (R88). -/
  | ptpFollowUp (h : PtpHead) (corr : Int) (origin : LTime)
  /-- PTP_ANNOUNCE (R88). -/
  | ptpAnnounce (h : PtpHead) (msg : Announce)
  /-- DELAY_REQ_TRANSMIT (R88). -/
  | delayReqTransmit (dom : Fin 2)
  /-- PTP_DELAY_RESP (R88). -/
  | ptpDelayResp (h : PtpHead) (corr : Int) (rx : LTime)
  /-- PTP_PDELAY_REQ (R88). -/
  | ptpPdelayReq (h : PtpHead)
  /-- PTP_PDELAY_RESP (R88). -/
  | ptpPdelayResp (h : PtpHead) (corr : Int) (t2 : LTime) (t3 : LTime)
  /-- PTP_UNSUPPORTED_MESSAGE (R88). -/
  | ptpUnsupportedMessage (h : PtpHead)
  /-- MASTER_LOST (R93). -/
  | masterLost (dom : Fin 2)
  /-- REQ_DOMAIN_WRITE (R97). -/
  | reqDomainWrite (v : Word)
  /-- REVERT_TIMER (R97). -/
  | revertTimer
  /-- SLEW_END (R95). -/
  | slewEnd
  /-- HOLD_EXPIRED (R100). -/
  | holdExpired
  /-- TIM_NOW_READ (R103). -/
  | timNowRead
  /-- LOW_REGISTER_READ (R7). -/
  | lowRegisterRead (addr : Nat) (be : BitVec 4)
  /-- RC_REGISTER_READ (R5). -/
  | rcRegisterRead (addr : Nat) (be : BitVec 4)
  /-- REGISTER_WRITE (R5). -/
  | registerWrite (addr : Nat) (be : BitVec 4) (v : Word)
  /-- ENCODER_EDGE (R107). -/
  | encoderEdge (ch : Fin 4) (a : Bool) (b : Bool) (run : Nat)
  /-- INDEX (R108). -/
  | index (ch : Fin 4) (run : Nat)
  /-- TOOTH (R109). -/
  | tooth (ch : Fin 4) (run : Nat)
  /-- SSI_READ_START (R110). -/
  | ssiReadStart (ch : Fin 4) (dataHigh : Bool)
  /-- SSI_WORD (R111). -/
  | ssiWord (ch : Fin 4) (pos : BitVec 40) (err : Bool) (crc : BitVec 6)
  /-- SSI_TIMEOUT (R111). -/
  | ssiTimeout (ch : Fin 4)
  /-- LOSS_OF_SIGNAL (R106). -/
  | lossOfSignal (ch : Fin 4)
  /-- LOS_CLEAR (R106). -/
  | losClear (ch : Fin 4)
  /-- STANDSTILL (R113). -/
  | standstill (ch : Fin 4)
  /-- MASTER_HOLDOVER_EXPIRED (R117). -/
  | masterHoldoverExpired
  /-- TRIGGER_ISSUE (R120). -/
  | triggerIssue (port : Fin 16) (boundary : LTime)
  /-- PARTNER_CK_DETECTED (R133). -/
  | partnerCkDetected (port : Fin 16)
  /-- TRAINING_FRAME (R132). -/
  | trainingFrame (port : Fin 16) (lane : Fin 4) (frame : BitVec 128) (meas : RxMeas)
  /-- TRAIN_FAIL (R133). -/
  | trainFail (port : Fin 16)
  /-- TRAIN_BACKOFF_END (R133). -/
  | trainBackoffEnd (port : Fin 16)
  /-- FAST_RETRAIN_TIMEOUT (R136). -/
  | fastRetrainTimeout (port : Fin 16)
  /-- CLK_LOSS (R137). -/
  | clkLoss (port : Fin 16)
  /-- DESKEW_ERR (R137). -/
  | deskewErr (port : Fin 16)
  /-- RETRAIN (R136). -/
  | retrain (port : Fin 16)
  /-- LP_REQ_L0 (R139). -/
  | lpReqL0 (port : Fin 16)
  /-- LP_REQ_QUIET (R139). -/
  | lpReqQuiet (port : Fin 16)
  /-- LP_REQ_DEEP (R139). -/
  | lpReqDeep (port : Fin 16)
  /-- QUIET_IDLE_TIMEOUT (R139). -/
  | quietIdleTimeout (port : Fin 16)
  /-- QUIET_EXIT (R138). -/
  | quietExit (port : Fin 16)
  /-- LOW_POWER_ENTRY (R162). -/
  | lowPowerEntry (port : Fin 16)
  /-- TEST_WRITE (R144). -/
  | testWrite (port : Fin 16) (on : Bool)
  /-- CHECKER_ENABLE (R142). -/
  | checkerEnable (port : Fin 16) (rx : List (List Bool))
  /-- INJ_ONE (R143). -/
  | injOne (port : Fin 16)
  /-- PATTERN_WINDOW_END (R142). -/
  | patternWindowEnd (port : Fin 16) (runs : List LaneRun)
  /-- FLIT_RECEIVED (R150). -/
  | flitReceived (port : Fin 16) (flit : BitVec 256)
  /-- LCTL (R148). -/
  | lctl (port : Fin 16) (flit : BitVec 256)
  /-- REPLAY_TIMEOUT (R150). -/
  | replayTimeout (port : Fin 16)
  /-- LINK_DOWN (R152). -/
  | linkDown (port : Fin 16)
  /-- REMOTE_WRITE (R157). -/
  | remoteWrite (port : Fin 16)
  /-- WR_RSP (R158). -/
  | wrRsp (port : Fin 16)
  /-- WR_TIMEOUT (R159). -/
  | wrTimeout (port : Fin 16) (tag : Nat)
  /-- WINDOW_OPEN (R160). -/
  | windowOpen (idx : Fin 4096) (owner : Fin 16) (port : Fin 16) (granary : Bool) (tiller : Fin 8) (baseKib : Nat) (sizeKib : Nat)
  /-- WINDOW_CLOSE (R161). -/
  | windowClose (idx : Fin 4096)
  /-- LINE_PACKET (R171). -/
  | linePacket (port : Fin 16)
  /-- LINE_DEADLINE (R172). -/
  | lineDeadline (port : Fin 16) (line : BitVec 32)
  /-- ALIGNMENT_START (R184). -/
  | alignmentStart (v : Word)
  /-- REALIGN_TAKES_EFFECT (R184). -/
  | realignTakesEffect
  /-- ALIGNMENT_PASS_COMPLETE (R184). -/
  | alignmentPassComplete
  /-- ALIGNMENT_TIMEOUT (R185). -/
  | alignmentTimeout
  /-- PREPARE_LINE (R177). -/
  | prepareLine (parity : List (Nat × Nat)) (buf : Fin 3) (par : Fin 3)
  /-- ISP_DATA_WRITE (R205). -/
  | ispDataWrite (v : Word)
  /-- ISP_DATA_READ (R205). -/
  | ispDataRead
  /-- ISP_SWAP (R206). -/
  | ispSwap
  /-- ISP_SWAP_CHECK_COMPLETE (R206). -/
  | ispSwapCheckComplete
  /-- ISP_SWAP_TAKES_EFFECT (R206). -/
  | ispSwapTakesEffect
  /-- ISP_COPY_COMPLETE (R206). -/
  | ispCopyComplete
  /-- PROBE_ARM (R208). -/
  | probeArm (v : Word)
  /-- PROBE_CAPTURE (R208). -/
  | probeCapture
  /-- SHADOW_LOAD (R214). -/
  | shadowLoad (v : Word)
  /-- LOAD_DONE (R214). -/
  | loadDone (data : Option (List Byte))
  /-- CHAFF_SWAP (R215). -/
  | chaffSwap
  /-- CHAFF_COPY_COMPLETE (R215). -/
  | chaffCopyComplete (bad : Option (Fin 4096))
  /-- CHAFF_SWAP_TAKES_EFFECT (R215). -/
  | chaffSwapTakesEffect
  /-- CHAFF_REFILL_COMPLETE (R215). -/
  | chaffRefillComplete
  /-- CHAFF_PEEK (R212). -/
  | chaffPeek (v : Word)
  /-- DOORBELL (R331). -/
  | doorbell (off : Nat) (size : Nat) (v : BitVec 64)
  /-- DESCRIPTOR_FETCH (R332). -/
  | descriptorFetch (queue : Nat) (desc : Option (BitVec 512))
  /-- STEP_ISSUE (R310). -/
  | stepIssue (ctx : Fin 16) (lt : Fin 8) (step : Nat) (rep : Nat) (bad : BitVec 64)
  /-- CONV (R293). -/
  | conv (queue : Nat) (seq : Nat) (chk : CheckIn)
  /-- GEMM (R255). -/
  | gemm (queue : Nat) (seq : Nat) (chk : CheckIn)
  /-- POOL (R300). -/
  | pool (queue : Nat) (seq : Nat) (chk : CheckIn)
  /-- ELTW (R256). -/
  | eltw (queue : Nat) (seq : Nat) (chk : CheckIn)
  /-- ARGMAX (R305). -/
  | argmax (queue : Nat) (seq : Nat) (chk : CheckIn)
  /-- COPY (R281). -/
  | copy (queue : Nat) (seq : Nat) (chk : CheckIn)
  /-- HUSK (R278). -/
  | husk (queue : Nat) (seq : Nat) (chk : CheckIn)
  /-- UNHUSK (R280). -/
  | unhusk (queue : Nat) (seq : Nat) (chk : CheckIn)
  /-- RESIZE (R257). -/
  | resize (queue : Nat) (seq : Nat) (chk : CheckIn)
  /-- BARRIER (R261). -/
  | barrier (queue : Nat) (seq : Nat)
  /-- COMMIT (R261). -/
  | commit (queue : Nat) (seq : Nat)
  /-- COMMAND_COMPLETE (R261). -/
  | commandComplete (queue : Nat) (seq : Nat)
  /-- REFETCH_COMPLETE (R357). -/
  | refetchComplete (queue : Nat) (seq : Nat) (page : Option Nat)
  /-- RACHIS_FLIT_CRC_FAIL (R351). -/
  | rachisFlitCrcFail (resends : Nat) (cmd : Option (Nat × Nat)) (retried : Bool) (read : Bool)
  /-- REPLACEMENT_LOADS_COMPLETE (R322). -/
  | replacementLoadsComplete (lost : BitVec 16)
  /-- PLACEMENT_TAKES_EFFECT (R322). -/
  | placementTakesEffect
  /-- SELFTEST_COMPLETE (R356). -/
  | selftestComplete (t : Fin 8) (pass : Bool)
  /-- INJECT_DISARM (R367). -/
  | injectDisarm (target : Fin 8)
  /-- INJECT_RESIDUE_ONCE (R367). -/
  | injectResidueOnce (target : Fin 8)
  /-- INJECT_RESIDUE_PERSISTENT (R367). -/
  | injectResiduePersistent (target : Fin 8)
  /-- INJECT_GRANARY_PARITY (R367). -/
  | injectGranaryParity (target : Fin 8)
  /-- INJECT_HBM_CRC (R367). -/
  | injectHbmCrc (target : Fin 8)
  /-- QUEUE_ENABLE (R329). -/
  | queueEnable
  /-- QUEUE_DISABLE (R339). -/
  | queueDisable
  /-- CR_CFG_WRITE (R337). -/
  | crCfgWrite (v : Word)
  /-- CR_HEAD_WRITE (R335). -/
  | crHeadWrite (v : Word)
  /-- COALESCING_TIMER (R337). -/
  | coalescingTimer (ring : Nat)
  /-- RING_FETCH_FAILURE (R339). -/
  | ringFetchFailure (queue : Nat)
  /-- COMPLETION_WRITE_FAILURE (R339). -/
  | completionWriteFailure (ring : Nat)
  /-- ADMIT (R341). -/
  | admitCtx (v : Word)
  /-- LOAD (R341). -/
  | load (data : Option LoadData)
  /-- UNLOAD (R341). -/
  | unload
  /-- RELEASE (R342). -/
  | release
  /-- SET_SHARE (R341). -/
  | setShare (v : Word)
  /-- SCRUB_COMPLETE (R418). -/
  | scrubComplete (ctx : Fin 16) (badPages : List Nat)
  /-- STATISTICS_WINDOW_END (R346). -/
  | statisticsWindowEnd
  /-- PLACEMENT_RECORD_READ (R321). -/
  | placementRecordRead
  /-- FIRE_SEND (R377). -/
  | fireSend (id : Nat)
  /-- FIRE_DEADLINE (R378). -/
  | fireDeadline (id : Nat)
  /-- FIRE_INTERVAL_END (R371). -/
  | fireIntervalEnd (id : Nat)
  /-- DIRECT_OUTPUT_SWITCH (R390). -/
  | directOutputSwitch (n : Fin 16) (on : Bool)
  /-- BEACON (R384). -/
  | beacon
  /-- AWN_STATUS (R385). -/
  | awnStatus (port : Fin 8) (frame : List Byte) (roundTripNs : Nat)
  /-- BOARD_LOST (R385). -/
  | boardLost (port : Fin 8) (board : Fin 8)
  /-- DI_SAMPLE (R55). -/
  | diSample (samples : List DiSample) (overload : Bool)
  /-- FIELD_SUPPLY_FAULT (R51). -/
  | fieldSupplyFault
  /-- FIELD_SUPPLY_RECOVERED (R51). -/
  | fieldSupplyRecovered
  /-- OUTPUT_CURRENT_LIMIT (R58). -/
  | outputCurrentLimit (n : Fin 16)
  /-- DO_HOST_SET (R390). -/
  | doHostSet (v : Word)
  /-- NAND_PROGRAM_COMPLETE (R395). -/
  | nandProgramComplete (res : NandResult)
  /-- BLOCK_REFRESH (R394). -/
  | blockRefresh (block : Nat) (weak : Bool) (eraseFail : Bool) (bad : List (Bool × Nat))
  /-- RETENTION_SCAN (R394). -/
  | retentionScan (flags : List Nat) (bad : List (Bool × Nat))
  /-- RECORD_READ (R403). -/
  | recordRead (v : Word)
  /-- READ_DONE (R403). -/
  | readDone (ok : Bool) (bad : List Nat)
  /-- RESTORE (R402). -/
  | restore (v : Word)
  /-- RESTORE_COMPLETE (R402). -/
  | restoreComplete
  /-- GET_VERSION (R408). -/
  | getVersion
  /-- GET_CAPABILITIES (R408). -/
  | getCapabilities
  /-- NEGOTIATE_ALGORITHMS (R408). -/
  | negotiateAlgorithms
  /-- GET_DIGESTS (R408). -/
  | getDigests
  /-- GET_CERTIFICATE (R404). -/
  | getCertificate (offset : Nat) (len : Nat)
  /-- CHALLENGE (R408). -/
  | challenge (nonce : List Byte)
  /-- GET_MEASUREMENTS (R407). -/
  | getMeasurements (idx : Nat) (nonce : List Byte)
  /-- KEY_EXCHANGE (R409). -/
  | keyExchange
  /-- FINISH (R408). -/
  | finish (id : Word)
  /-- END_SESSION (R409). -/
  | endSession (id : Word)
  /-- SPDM_UNSUPPORTED_REQUEST (R408). -/
  | spdmUnsupportedRequest (code : Nat)
  /-- STAGE (R410). -/
  | stage (v : Word) (image : Option Image)
  /-- STAGE_COMPLETE (R410). -/
  | stageComplete
  /-- ACTIVATE (R411). -/
  | activate
  /-- ABORT (R410). -/
  | abort
  /-- NONCE_READ (R424). -/
  | nonceRead
  /-- TAKE_OWNERSHIP (R425). -/
  | takeOwnership (block : Option Auth)
  /-- TRANSFER (R425). -/
  | transferAuth (block : Option Auth)
  /-- DEBUG (R429). -/
  | debugAuth (block : Option Auth)
  /-- RETURN (R423). -/
  | returnAuth (block : Option Auth)
  /-- RETIRE (R425). -/
  | retireAuth (block : Option Auth)
  /-- FUSE (R426). -/
  | fuseAuth (block : Option Auth)
  /-- DEBUG_GRANT_EXPIRY (R429). -/
  | debugGrantExpiry
  /-- CRYPTO_RESET (R412). -/
  | cryptoReset
  /-- CRYPTO_RESET_COMPLETE (R412). -/
  | cryptoResetComplete
  /-- STANDBY_REQUEST (R433). -/
  | standbyRequest
  /-- DORMANT_REQUEST (R433). -/
  | dormantRequest (scrub : Bool)
  /-- WAKE_REQUEST (R433). -/
  | wakeRequest
  /-- STANDBY_DRAIN_START (R26). -/
  | standbyDrainStart
  /-- DRAIN_COMPLETE (R26). -/
  | drainComplete
  /-- STANDBY_ENTRY_COMPLETE (R433). -/
  | standbyEntryComplete
  /-- DORMANT_ENTRY_COMPLETE (R433). -/
  | dormantEntryComplete
  /-- WAKE_COMPLETE (R433). -/
  | wakeComplete
  /-- POWER_CONTROL_PERIOD (R434). -/
  | powerControlPeriod (meas : PowerMeas)
  /-- TILLER_GATE (R432). -/
  | tillerGate (t : Fin 8)
  /-- DROOP (R439). -/
  | droop (t : Fin 8)
  /-- DROOP_RELEASE (R439). -/
  | droopRelease (t : Fin 8)
  /-- PLL_RELOCK_COMPLETE (R440). -/
  | pllRelockComplete (t : Fin 8)
  /-- TRIM_RAISE (R441). -/
  | trimRaise (die : Fin 4)
  /-- TRIM_LOWER (R441). -/
  | trimLower (die : Fin 4)
  /-- TRIM_SAVE (R441). -/
  | trimSave
  /-- THERMAL_WARN (R442). -/
  | thermalWarn (die : Fin 4) (temp : BitVec 8)
  /-- THERMAL_LIMIT (R442). -/
  | thermalLimit (die : Fin 4) (temp : BitVec 8)
  /-- THERMAL_QUAR (R442). -/
  | thermalQuar (t : Fin 8)
  /-- HBM_THERMAL (R442). -/
  | hbmThermal (stack : Fin 2) (temp : BitVec 8)
  /-- THERMAL_TRIP (R442). -/
  | thermalTrip
  /-- COOLANT_HIGH (R442). -/
  | coolantHigh (temp : BitVec 8)
  /-- GLEAN (R450). -/
  | glean (v : Word)
  /-- GLEAN_DONE (R450). -/
  | gleanDone (ok : Bool)
  /-- PDELAY_REQ_TRANSMIT (R88). -/
  | pdelayReqTransmit (dom : Fin 2)
  /-- PERST_DEASSERTION (R73). -/
  | perstDeassertion
  /-- JTAG_INSTRUCTION (R42). -/
  | jtagInstruction (ir : JtagIr)
  /-- UART_STATUS_LINE (R428). -/
  | uartStatusLine
  deriving DecidableEq, Repr

end Sys2Proof
end

