-- ==== Sys2Proof/Config.lean ====
section
/-!
DEFINITION. Config.lean: what the model leaves free. Every constant here is opaque: nothing in Lean can evaluate it, so a
claim holds whatever it is (assumptions 4, 7, 13).
-/

namespace Sys2Proof

/-- The free value drawn under a number (assumption 7). A user takes as many low bits as the value has. -/
opaque Config.free : Nat → Nat

/-- A value that the spec leaves open and that yet is the same for the same committed inputs (R364; assumption 7): of the arithmetic
revision and library version, the descriptor, the bytes read, and the value's number. -/
opaque Config.sameFree (ar lib : Nat) (desc : BitVec 512) (inputs : List Nat) (k : Nat) : Nat

/-- The digest of the Glume boot ROM (R406 block 0x01; assumption 4). -/
opaque Config.romDigest : Digest

/-- The bytes of the device's certificate slot 0 (R404; assumption 4). -/
opaque Config.certChain : List Byte

/-- Width and speed that PCI Express link training arrives at (R444, HST_LINK; assumption 7). -/
opaque Config.pcieWidth : Nat
opaque Config.pcieSpeed : Nat

/-- The device identification that JTAG's IDCODE shifts out (R42; assumption 7). -/
opaque Config.jtagIdcode : Word

/-- How many commands the DBG command trace buffer holds (R428; assumption 99). -/
opaque Config.traceDepth : Nat

/-- A probe holds DBG_PRESENT_N of J8 low (GLM_DEBUG.PROBE; R41): a pin that no command moves (assumption 71). -/
opaque Config.probePresent : Bool

/-- The turnaround of a port's echo, UI (R132, R135; assumption 7). -/
opaque Config.turnUi : Nat → BitVec 16

/-- The status line on the UART (R428), by a number drawn for it: its content is not stated (assumption 7). -/
opaque Config.uartLine : Nat → List Byte

end Sys2Proof
end

