-- ==== Sys2Proof/Machine/Bits.lean ====
section
/-!
DEFINITION. Machine/Bits.lean: byte order, bit fields of numbers, the CRCs of the spec, and the arithmetic of local time.
-/

namespace Sys2Proof.Machine

/-- Bits `lo` and up of a number, `w` of them. -/
def bits (n lo w : Nat) : Nat := (n >>> lo) % 2 ^ w

/-- A number less its bound: a saturating field of `w` bits. -/
def sat (w n : Nat) : Nat := min n (2 ^ w - 1)

/-- A number in two's complement of `w` bits. -/
def twos (w : Nat) (i : Int) : Nat := (i % (2 : Int) ^ w).toNat

/-- The integer that `w` bits stand for in two's complement. -/
def sext (w n : Nat) : Int := if n % 2 ^ w < 2 ^ (w - 1) then (n % 2 ^ w : Nat) else ((n % 2 ^ w : Nat) : Int) - (2 : Int) ^ w

/-- Upwards division. -/
def cdiv (a b : Nat) : Nat := (a + b - 1) / b

/-- Clamp to a signed range of `w` bits. -/
def clampS (w : Nat) (i : Int) : Int := max (-(2 : Int) ^ (w - 1)) (min i ((2 : Int) ^ (w - 1) - 1))

/-- Clamp an integer between bounds. -/
def clampI (lo hi i : Int) : Int := max lo (min i hi)

/-- Integer division rounded to nearest, ties away from zero. -/
def divNear (a : Int) (b : Nat) : Int :=
  if a < 0 then -((2 * (-a) + b) / (2 * b)) else (2 * a + b) / (2 * b)

/-- The low `n` bytes of a number, least significant first (R4). -/
def leBytes : Nat → Nat → List Byte
  | 0, _ => []
  | n + 1, v => BitVec.ofNat 8 v :: leBytes n (v / 256)

/-- The number that bytes spell, least significant first. -/
def leNat : List Byte → Nat
  | [] => 0
  | b :: bs => b.toNat + 256 * leNat bs

/-- `n` bytes of a list from a place on; bytes past its end read 0. -/
def slice (bs : List Byte) (at_ n : Nat) : List Byte :=
  let s := (bs.drop at_).take n
  s ++ List.replicate (n - s.length) 0

/-- The 48 bytes of a digest, first byte first: the first byte is the number's most significant. -/
def digestBytes (d : Digest) : List Byte := (leBytes 48 d.toNat).reverse

/-- The little-endian number of `n` bytes at a place. -/
def leAt (bs : List Byte) (at_ n : Nat) : Nat := leNat (slice bs at_ n)

/-- Put bytes over a list at a place. -/
def putAt (bs : List Byte) (at_ : Nat) (v : List Byte) : List Byte :=
  bs.take at_ ++ v ++ bs.drop (at_ + v.length)

/-- Is bit `i` of a number set? -/
def bitOf (n i : Nat) : Bool := n.testBit i

/-- A number from its bits, lowest first. -/
def ofBits : List Bool → Nat
  | [] => 0
  | b :: bs => (if b then 1 else 0) + 2 * ofBits bs

/-- A Boolean as a number. -/
def b2n (b : Bool) : Nat := if b then 1 else 0

/-- Eight steps of a reflected CRC. -/
def crcSteps (poly : Nat) : Nat → Nat → Nat
  | 0, c => c
  | n + 1, c => crcSteps poly n (if c % 2 = 1 then (c / 2) ^^^ poly else c / 2)

/-- CRC-32 of IEEE 802.3 (R66, R166, R336): reflected, all ones in, all ones out. -/
def crc32 (bs : List Byte) : Nat :=
  (bs.foldl (fun c b => crcSteps 0xEDB88320 8 (c ^^^ b.toNat)) 0xFFFFFFFF) ^^^ 0xFFFFFFFF

/-- Eight steps of an unreflected CRC of 16 bits. -/
def crc16Steps (poly : Nat) : Nat → Nat → Nat
  | 0, c => c
  | n + 1, c => crc16Steps poly n (if c ≥ 0x8000 then ((c * 2) % 0x10000) ^^^ poly else (c * 2) % 0x10000)

/-- A CRC of 16 bits over bytes, most significant bit first, with an initial value. -/
def crc16 (poly init : Nat) (bs : List Byte) : Nat :=
  bs.foldl (fun c b => crc16Steps poly 8 (c ^^^ (b.toNat * 256))) init

/-- 10^9. -/
def giga : Nat := 1000000000

/-- A local time in units of 2^-40 ns from SEC 0 (R84, R86). -/
def unitsOf (t : LTime) : Int := ((t.sec.toNat * giga + t.ns.toNat) * 2 ^ 40 + t.frac.toNat : Nat)

/-- 2^48 s in units of 2^-40 ns: SEC wraps there (R84). -/
def spanUnits : Int := (2 : Int) ^ 48 * giga * (2 : Int) ^ 40

/-- The local time of a number of units: SEC is modulo 2^48, above and below (R84). -/
def timeOf (u : Int) : LTime :=
  let n := (u % spanUnits).toNat
  let nsAll := n / 2 ^ 40
  { sec := BitVec.ofNat 48 (nsAll / giga), ns := BitVec.ofNat 30 (nsAll % giga), frac := BitVec.ofNat 40 (n % 2 ^ 40) }

/-- A local time in 2^-16 ns (R88, R465). -/
def fine (t : LTime) : Int := unitsOf t / 2 ^ 24

/-- The signed difference of two local times in units of 2^-40 ns: seconds signed modulo 2^48, as R85 takes it. -/
def udiff (a b : LTime) : Int :=
  ((a.sec - b.sec).toInt * giga + ((a.ns.toNat : Int) - b.ns.toNat)) * 2 ^ 40 + ((a.frac.toNat : Int) - b.frac.toNat)

/-- R85: a − b in units of 2^-16 ns. FRAC is the top 16 bits of the fraction. -/
def tdiff (a b : LTime) : Int :=
  ((a.sec - b.sec).toInt * giga + ((a.ns.toNat : Int) - b.ns.toNat)) * 65536
    + (((a.frac.toNat / 2 ^ 24 : Nat) : Int) - (b.frac.toNat / 2 ^ 24 : Nat))

/-- a − b in whole ns, by R85. -/
def nsDiff (a b : LTime) : Int := tdiff a b / 65536

/-- a is at or later than b (R85). -/
def atOrAfter (a b : LTime) : Bool := decide (tdiff a b ≥ 0)

/-- Less than `n` ns have passed from b to a (R85). -/
def lessSince (a b : LTime) (n : Nat) : Bool := decide (tdiff a b < (n : Int) * 65536)

/-- The signed difference of two counts of 2^-16 ns, modulo 2^48 s (R85). -/
def smod (d : Int) : Int :=
  let span := (2 : Int) ^ 48 * giga * 65536
  let r := d % span
  if r < span / 2 then r else r - span

/-- A local time in ns. -/
def nsOf (t : LTime) : Nat := t.sec.toNat * giga + t.ns.toNat

/-- A stamp in 2^-16 ns on the axis of the present time: differences of such figures are R85's. -/
def fineNear (now t : LTime) : Int := fine now + tdiff t now

/-- A kept count of 2^-16 ns brought to the axis of the present time (R85). -/
def nearBy (now : LTime) (x : Int) : Int := fine now + smod (x - fine now)

/-- The local time of a number of 2^-16 ns. -/
def timeOfFine (f : Int) : LTime := timeOf (f * 2 ^ 24)

/-- Add an amount, in 2^-40 ns, to a stamp (R84, R94). -/
def shiftBy (d : Int) (t : LTime) : LTime := timeOf (unitsOf t + d)

/-- Local time in µs, modulo 2^32 (R462). -/
def us32 (t : LTime) : BitVec 32 := BitVec.ofNat 32 (nsOf t / 1000)

end Sys2Proof.Machine
end

