-- ==== Sys2Proof/Machine/State.lean ====
section
/-!
DEFINITION. Machine/State.lean: everything the spec gives the module, as plain data, and the machine right after reset.
Software-visible register words stand in `Mach.regs`, one 32-bit word per register of the register index (R4), keyed by its
BAR0 address; an unlisted address reads as the register's reset value (Machine/RegMap.lean). What is wider than a register
or has no register stands in the typed fields. Where a register only shows a typed field, Machine/RegView.lean computes it,
so nothing is held twice.
-/

namespace Sys2Proof.Machine

/-- Module states (R22). -/
inductive ModState where
  | powering | booting | configured | machineReady | running | degraded | standby | dormant | fault
  deriving DecidableEq, Repr, Inhabited

/-- Lifecycle states (R422). -/
inductive Lifecycle where
  | blank | owned | returned | retired
  deriving DecidableEq, Repr, Inhabited

/-- Debug levels (R428). -/
inductive DebugLevel where
  | none | telemetry | trace | full
  deriving DecidableEq, Repr, Inhabited

/-- Where a partial reset stands (R81). -/
inductive ResetPhase where
  | requested | inReset | awaitTick | selfTest
  deriving DecidableEq, Repr, Inhabited

/-- A partial reset under way. -/
structure ResetItem where
  kind  : ItemKind
  item  : Nat
  phase : ResetPhase
  /-- R356: requested by the module itself after a quarantine, or due to a reset; else through GEN_RESET_CTRL. -/
  auto  : Bool := false
  /-- R81: local time and tick counter when this phase began. -/
  at_   : LTime := {}
  tick  : BitVec 48 := 0
  deriving DecidableEq, Repr, Inhabited

/-- A power request held until another entry or exit completes, or until alignment ends (R433). -/
inductive PowerReq where
  | standby | dormant (scrub : Bool) | wake
  deriving DecidableEq, Repr, Inhabited

/-- Module control: the state machine of R22 to R28, boot progress (R73), resets (R79 to R83). -/
structure Ctl where
  /-- R22, R23: GEN_STATE.STATE. Reset POWERING. -/
  st            : ModState := .powering
  /-- R22, R27: GEN_STATE.PREV_STATE. Reset POWERING (0x0). -/
  prev          : ModState := .powering
  /-- R48, R50: power-good. Reset 0. -/
  powerGood     : Bool := false
  /-- R49: the supply supervisor's filter runs. Reset 0. -/
  supplyOut     : Bool := false
  /-- R442: the hardware thermal trip has latched the module off. Reset 0. -/
  tripped       : Bool := false
  /-- R74: the PCI Express function is ready. Reset 0. -/
  fnReady       : Bool := false
  /-- R73: PERST# is deasserted. Reset 0. -/
  perstHigh     : Bool := false
  /-- R73: link training of the PCI Express port has started. Reset 0. -/
  linkTraining  : Bool := false
  /-- R445: the function is in D3hot. Reset 0 (D0). -/
  d3hot         : Bool := false
  /-- R73 step 3: EARLY_IO is applied. Reset 0. -/
  earlyApplied  : Bool := false
  /-- R73 step 7: TIME is applied. Reset 0. -/
  timeApplied   : Bool := false
  /-- R78, R134: CAMERA is applied. Reset 0. -/
  cameraApplied : Bool := false
  /-- R40: SFP+ TX_DISABLE is asserted. Reset 1. -/
  txDisable     : Bool := true
  /-- R71: the running slot, if an image runs. Reset none. -/
  runSlot       : Option Slot := none
  /-- R28: the tick counter. Reset 0. -/
  tickCount     : BitVec 48 := 0
  /-- R9, R13: the local time of the last tick (or of the entry to MACHINE_READY). Reset none. -/
  lastTick      : Option LTime := none
  /-- R26: drain ticks still to come. Reset 0. -/
  drainLeft     : Nat := 0
  /-- R26: GEN_STATE.DRAIN. Reset 0. -/
  drain         : Bool := false
  /-- R184: GEN_STATE.ALIGN. Reset 0. -/
  align         : Bool := false
  /-- R76, R185: the start-up alignment required by FLAGS[2] is still due. Reset 0. -/
  alignDue      : Bool := false
  /-- R184: a START written in RUNNING or DEGRADED waits for its tick boundary. Reset 0. -/
  realignDue    : Bool := false
  /-- R26, R27: tick counter at the power request being carried out, or at the START that waits. Reset 0. -/
  reqTick       : BitVec 48 := 0
  realignTick   : BitVec 48 := 0
  /-- R79: when a Stem watchdog last expired. Reset none. -/
  lastWatchdog  : Option LTime := none
  /-- R81: partial resets under way. Reset none. -/
  resets        : List ResetItem := []
  /-- R26, R433: the power request being carried out. Reset none. -/
  powerReq      : Option PowerReq := none
  /-- R433: power requests held, oldest first. Reset none. -/
  heldReqs      : List PowerReq := []
  /-- R433: a wake is in progress (PWR_STATE.WAKING). Reset 0. -/
  waking        : Bool := false
  /-- R80, R420: a warm reset waits for the scrubs of confidential contexts before the Stem cores restart. Reset 0. -/
  warmDue       : Bool := false
  deriving DecidableEq, Repr, Inhabited

/-- A fuse ledger entry (R427). -/
structure LedgerEntry where
  kind      : Nat
  recovered : Bool := false
  value     : Word
  sec       : BitVec 48
  deriving DecidableEq, Repr, Inhabited

/-- The fuses (R404, R422, R426, R427). They survive every reset (R79). -/
structure Fuses where
  /-- R422. Reset value: that of a module from manufacture, BLANK (DESIGN CHOICE, assumption 6). -/
  life      : Lifecycle := .blank
  /-- R70, R426: the programmed owner key hashes, slot 0 first. Reset none (assumption 6). -/
  ownerKeys : List Digest := []
  /-- R426: anti-rollback counter. Reset 0 (assumption 6). -/
  rollback  : Nat := 0
  /-- R426. Reset 0 (assumption 6). -/
  debugOff  : Bool := false
  /-- R426. Reset 0 (assumption 6). -/
  confOnly  : Bool := false
  /-- R426. Reset 0 (assumption 6). -/
  arLock    : Bool := false
  /-- R426: the fused arithmetic revision. Reset 0 (assumption 6). -/
  ar        : Nat := 0
  /-- R426: Tiller disable map. Reset 0 (assumption 6). -/
  tillerOff : BitVec 8 := 0
  /-- R427: up to 128 entries. Reset none (assumption 6). -/
  ledger    : List LedgerEntry := []
  /-- R427: a fuse programmed whose ledger entry was not yet written when power went. Reset none. -/
  unlogged  : Option LedgerEntry := none
  /-- R404: the private half of the device identity key. Only Glume reads it, and nothing shows it. Reset 1 (assumption 6). -/
  devKey    : Nat := 1
  /-- R423: the hash of the vendor's service key, in the boot ROM. Reset 0 (assumption 6). -/
  vendor    : Digest := 0
  deriving DecidableEq, Repr, Inhabited

/-- A boot control block copy (R66) as it stands: its sixteen bytes. -/
abbrev Bcb := List Byte

/-- The serial NOR (R65): two boot control block copies, two slots, factory data. -/
structure Nor where
  /-- R66. Reset erased, no bytes (assumption 6). -/
  bcb0  : Bcb := []
  /-- R66. Reset erased (assumption 6). -/
  bcb1  : Bcb := []
  /-- R65, R67. Reset erased (assumption 6). -/
  slotA : Option Image := none
  /-- R65, R67. Reset erased (assumption 6). -/
  slotB : Option Image := none
  /-- R2, GEN_VERSION.CODE: the ordering code of the factory data, 1 -S, 2 -W, 3 -O. Reset 1 (DESIGN CHOICE, assumption 6). -/
  code  : Nat := 1
  /-- GEN_VERSION.BOARD. Reset 0 (assumption 6). -/
  board : Nat := 0
  /-- GEN_SERIAL. Reset 0 (assumption 6). -/
  serial : BitVec 64 := 0
  deriving DecidableEq, Repr, Inhabited

/-- A PTP domain's state (R93). -/
inductive DomState where
  | disabled | listening | acquiring | locked | holdover
  deriving DecidableEq, Repr, Inhabited

/-- One tracked domain (R91 to R101). Reset: DISABLED, every figure 0 (assumption 3). -/
structure Domain where
  /-- R93. -/
  st        : DomState := .disabled
  /-- R88: data sets received, newest per sender and Ethernet port, with the port. -/
  foreign   : List (Nat × Announce) := []
  /-- R88, R101: the selected master. -/
  master    : Option Announce := none
  /-- R101: grandmaster identity of the last master selected. -/
  lastGm    : Option (BitVec 64) := none
  /-- R94: the domain has selected its first master as the active domain and the step it is due has not come. -/
  stepDue   : Bool := false
  /-- R88: Ethernet port on which the selected master's Announce came in. -/
  eth       : Nat := 0
  /-- R92: the integrator i_d, in 2^-32 ppb. -/
  integ     : Int := 0
  /-- R92: the servo output f_d, in 2^-32 ppb. -/
  freq      : Int := 0
  /-- R92: the last measured offset, in 2^-16 ns. -/
  theta     : Int := 0
  /-- R91: the domain offset O_d, in 2^-40 ns; of the active domain, what its slew has still to remove. -/
  offset    : Int := 0
  /-- R96: of the active domain, what its servo has still to remove of the phase by its own prediction, in 2^-40 ns. -/
  resid     : Int := 0
  /-- R96: a measurement has been completed, so that there is a prediction. -/
  measured  : Bool := false
  /-- R92: mean path delay, in 2^-16 ns. -/
  delay     : Int := 0
  /-- R92: a path delay has been measured. -/
  delayKnown : Bool := false
  /-- R93: consecutive Syncs within LOCK_NS. -/
  good      : Nat := 0
  /-- R93: consecutive Syncs beyond 4 times LOCK_NS. -/
  bad       : Nat := 0
  /-- R96: consecutive outliers. -/
  outliers  : Nat := 0
  /-- R88: receive stamp of a two-step Sync that waits for its Follow_Up, and its correction in 2^-16 ns. -/
  pendSync  : Option (LTime × Int) := none
  /-- R88: origin, in 2^-16 ns, and receive stamp of the last completed Sync. -/
  lastSync  : Option (Int × LTime) := none
  /-- R88: transmit stamp of the Delay_Req or Pdelay_Req in flight. -/
  reqSent   : Option LTime := none
  /-- R97: local time at which the domain reached LOCKED, while it is LOCKED. -/
  lockedAt  : Option LTime := none
  /-- R99: local time at which the domain entered HOLDOVER, while it is in it. -/
  heldAt    : Option LTime := none
  /-- R88: VLAN tag of the last Sync received. -/
  vlan      : Option Nat := none
  deriving DecidableEq, Repr, Inhabited

/-- The time base (R84 to R103). -/
structure TimeBase where
  /-- R84 to R86: the local time. Reset SEC 0, NS 0 (R85). -/
  now      : LTime := {}
  /-- R91: domain A. -/
  domA     : Domain := {}
  /-- R91: domain B. -/
  domB     : Domain := {}
  /-- R97: the active domain is B (TIM_STATUS.ACTIVE). Reset 0. -/
  activeB  : Bool := false
  /-- R97: a request naming a domain that is not LOCKED is held. Reset 0. -/
  reqHeld  : Bool := false
  /-- R95: a slew is in progress (TIM_STATUS.SLEWING). Reset 0. -/
  slew     : Bool := false
  /-- R95, R98: by how much the local frequency differs from the active domain's servo frequency, in 2^-32 ppb. Reset 0. -/
  slewFreq : Int := 0
  /-- R95: the slew raises the local time (20 ppm up), else it lowers it. Reset 0. -/
  slewUp   : Bool := false
  /-- R95: cycles left of the 1 ms over which a change of frequency spreads. Reset 0. -/
  rampLeft : Nat := 0
  /-- R95: the closing ramp runs. Reset 0. -/
  closing  : Bool := false
  /-- R102: local time at which DORMANT suspended the HOLD_S timer. Reset none. -/
  dormantAt : Option LTime := none
  /-- R22, R76: the active domain has been LOCKED and time has not been lost since. Reset 0. -/
  valid    : Bool := false
  deriving DecidableEq, Repr, Inhabited

/-- A speed: a difference of counts over a difference of times in 2^-16 ns (R113). -/
structure Speed where
  dc : Int := 0
  dt : Int := 1
  deriving DecidableEq, Repr, Inhabited

/-- One encoder channel (R104 to R117). Reset: not started, everything 0 (R75, assumption 3). -/
structure EncCh where
  /-- R75: the channel has started under EARLY_IO. -/
  started   : Bool := false
  /-- R113: the 48-bit signed count. -/
  count     : BitVec 48 := 0
  /-- R113: c_e and t_e: the count and the stamp of the last counting edge or good word. -/
  last      : Option (BitVec 48 × LTime) := none
  /-- R113: counts and stamps (in 2^-16 ns) of the edges or words of the speed window, newest first. -/
  hist      : List (BitVec 48 × Int) := []
  /-- R107: filtered level of A. -/
  lvA       : Bool := false
  /-- R107: filtered level of B. -/
  lvB       : Bool := false
  /-- R108, R109: count at the last index or reference. -/
  lastRef   : Option (BitVec 48) := none
  /-- R116: REF_ERR of the two most recent references, newest first. -/
  refErrs   : List Bool := []
  /-- R109: stamps of the most recent teeth, newest first. -/
  teeth     : List LTime := []
  /-- R111: position of the previous good word. -/
  ssiPrev   : Option Nat := none
  /-- R116: consecutive bad words. -/
  ssiBad    : Nat := 0
  /-- R110, R111: the latching clock edge of the read in progress. -/
  ssiRead   : Option LTime := none
  /-- R110: the latching clock edge of the last read begun, one every PERIOD_US. -/
  ssiFrom   : Option LTime := none
  /-- R116: stamps of the illegal transitions of the last 1 ms, newest first. -/
  illegal   : List LTime := []
  /-- R106. ENC_STATUS.LOS. -/
  los       : Bool := false
  /-- R106: local time of the last loss detected. -/
  losAt     : LTime := {}
  /-- R113. ENC_STATUS.STILL. -/
  still     : Bool := false
  /-- R109: an extra tooth has come since the last counting tooth. -/
  refGap    : Bool := false
  /-- R117: the count, stamp and speed that holdover extrapolates from; none: no holdover. -/
  held      : Option (BitVec 48 × LTime × Speed) := none
  /-- R117: local time at which the holdover began. -/
  heldFrom  : LTime := {}
  deriving DecidableEq, Repr, Inhabited

/-- Triggers and ticks (R118 to R124, R465). Reset 0 (assumption 3). -/
structure Trig where
  /-- R118: the origin O, in whole counts. -/
  origin   : Int := 0
  /-- R465: local time at which the virtual count was 0. -/
  start    : LTime := {}
  /-- R124: local time of the last tick boundary. -/
  t0       : LTime := {}
  /-- R119: the high-water position H, in 1/256 count from O. -/
  high     : Int := 0
  /-- R121, R124: H has passed the position of the next tick, at this local time; none: not yet. -/
  tickAt   : Option LTime := none
  /-- R119: a backward excursion of more than one count is in progress and counted. -/
  backward : Bool := false
  deriving DecidableEq, Repr, Inhabited

/-- Port states (R131). -/
inductive PhyState where
  | off | detect | clock | frame | eq | measure | hold | l0 | quiet | deep | wake | test
  deriving DecidableEq, Repr, Inhabited

/-- A low-power request (R139, R162). -/
inductive LpReq where
  | l0 | quiet | deep
  deriving DecidableEq, Repr, Inhabited

/-- A remote write that a command has sent or queued (R156, R158, R277). -/
structure OutWrite where
  tag    : Nat
  window : Nat
  gen    : Nat
  offset : Nat
  data   : List Byte
  queue  : Nat
  seq    : Nat
  sent   : Bool := false
  /-- R327: refused with this status and held for the new grant; 0 not held. -/
  held   : Nat := 0
  /-- R327: it has been sent again. -/
  again  : Bool := false
  /-- R327: the swath of its data, for a tick program's. -/
  tick   : Option (BitVec 48) := none
  deriving DecidableEq, Repr, Inhabited

/-- A remote write being received (R157): its header and the data flits that have come. -/
structure InWrite where
  window : Nat
  gen    : Nat
  offset : Nat
  length : Nat
  tag    : Nat
  data   : List Byte := []
  /-- R161: the header's checks 1 to 4, made when the WR_HDR arrived; 0 passed. -/
  result : Nat := 0
  late   : Bool := false
  /-- R161: the window's region and owner when the header passed its checks. -/
  owner   : Nat := 0
  granary : Bool := false
  tiller  : Nat := 0
  baseKib : Nat := 0
  sizeKib : Nat := 0
  deriving DecidableEq, Repr, Inhabited

/-- A lane's pattern checker (R142). -/
structure LaneChk where
  /-- Bits received while not locked, the latest first. -/
  seed     : List Bool := []
  /-- Error-free bits since it is seeded. -/
  good     : Nat := 0
  locked   : Bool := false
  /-- Bits compared since CHK_EN was written. -/
  compared : Nat := 0
  /-- The counts at which the latest wrong bits came, the latest first. -/
  recent   : List Nat := []
  /-- The window has ended. -/
  stopped  : Bool := false
  deriving DecidableEq, Repr, Inhabited

/-- One Sheaf port: lanes (R126 to R144) and link layer (R145 to R164). Reset: OFF, link state cleared (R131, R152). -/
structure SheafPort where
  /-- R131. SHF_PHY_STATUS.STATE. -/
  phy       : PhyState := .off
  /-- R136: saved lane settings exist. -/
  saved     : Bool := false
  /-- R136: the training in progress is fast. -/
  fast      : Bool := false
  /-- R133: electrical idle for 100 ms after a failed training. -/
  backoff   : Bool := false
  /-- R64, R81: held in partial reset, before its training starts again. -/
  dark      : Bool := false
  /-- R132, R133: lanes on which a good frame has been seen in this training. -/
  frameOk   : BitVec 4 := 0
  /-- R133: lanes that meet EQ_DONE here. -/
  eqHere    : BitVec 4 := 0
  /-- R133: lanes on which the partner set EQ_DONE. -/
  eqThere   : BitVec 4 := 0
  /-- R132, R133: TAP_REQ that we send in EQ, four bits a lane from lane 0 up. -/
  tapReq    : BitVec 16 := 0
  /-- R138: DETECT of an exit from DEEP; with saved settings WAKE follows. -/
  wake      : Bool := false
  /-- R143: lanes on which INJ_ONE flips a symbol of the next live flit. -/
  injNext   : BitVec 4 := 0
  /-- R141, R142: the lanes' pattern checkers, lane 0 first. -/
  checkers  : List LaneChk := [{}, {}, {}, {}]
  /-- R139, R140: a request that waits for L0. -/
  lpWait    : Option LpReq := none
  /-- R162: our own request is out. -/
  lpOut     : Option LpReq := none
  /-- R162: the partner's request, not answered until our replay buffer is empty. -/
  lpPeer    : Option LpReq := none
  /-- R162: the handshake is acknowledged; the state entered at the next flit boundary. -/
  lpAcked   : Option LpReq := none
  /-- R149: SEQ of the next sequenced flit. -/
  txSeq     : BitVec 12 := 0
  /-- R149: sequenced flits sent and not acknowledged, oldest first. -/
  replay    : List (BitVec 256) := []
  /-- R149: SEQ of the last sequenced flit received good and in order. -/
  rxAck     : BitVec 12 := 0xFFF
  /-- R150: a NAK has been sent for the gap waited on. -/
  nakSent   : Bool := false
  /-- R151: times that each flit of the replay buffer has been resent, oldest first. -/
  resends   : List Nat := []
  /-- R151: stamps of the CRC failures of the last 10 µs, newest first. -/
  crcTimes  : List LTime := []
  /-- R152: sequenced flits produced that could not be sent yet, oldest first. -/
  waiting   : List (BitVec 256) := []
  /-- R152: state was cleared; the next first LCTL carries FRESH. -/
  fresh     : Bool := true
  /-- R152: L0 was entered and the partner's first ACK_SEQ has not come. -/
  awaitAck  : Bool := false
  /-- R153: class W flits sent since the state was cleared. -/
  usedW     : BitVec 12 := 0
  /-- R153: class R flits sent since the state was cleared. -/
  usedR     : BitVec 12 := 0
  /-- R153: class W credit the partner has returned, cumulative. -/
  credW     : BitVec 12 := 0
  /-- R153: class R credit the partner has returned, cumulative. -/
  credR     : BitVec 12 := 0
  /-- R148, R153: class W flits freed here, cumulative. -/
  freedW    : BitVec 12 := 0
  /-- R148, R153: class R flits freed here, cumulative. -/
  freedR    : BitVec 12 := 0
  /-- R464: LINE flit payloads received and not yet framed, oldest first. -/
  rxLine    : List (List Byte) := []
  /-- R157: the remote write being received. -/
  rxHdr     : Option InWrite := none
  /-- R157: remote writes whose last data flit has arrived, oldest first. -/
  rxWrites  : List InWrite := []
  /-- R158: WR_RSP payloads received, oldest first. -/
  rxRsps    : List (List Byte) := []
  /-- R156: remote writes outstanding or waiting for credit, oldest first. -/
  outWrites : List OutWrite := []
  /-- R156: TAG of the next write. -/
  nextTag   : BitVec 16 := 0
  /-- R163: IDLE only; flits discarded since it began, class W and class R. -/
  scrubIdle : Bool := false
  dropW     : Nat := 0
  dropR     : Nat := 0
  deriving DecidableEq, Repr, Inhabited

/-- A peer window (R160). Reset: CLOSED, generation 0. -/
structure Window where
  isOpen  : Bool := false
  gen     : BitVec 16 := 0
  owner   : Nat := 0
  port    : Nat := 0
  granary : Bool := false
  tiller  : Nat := 0
  baseKib : Nat := 0
  sizeKib : Nat := 0
  /-- R160: local time of the last open. -/
  openedAt : Option LTime := none
  /-- R325: bytes landed in each half. -/
  landed0 : Nat := 0
  landed1 : Nat := 0
  deriving DecidableEq, Repr, Inhabited

/-- A line record's mark (R174). -/
inductive Mark where
  | good | bad | missing | outside
  deriving DecidableEq, Repr, Inhabited

/-- A line of a swath buffer: its line record (R174) and its bands (R175). -/
structure Line where
  lineNo   : BitVec 32 := 0
  count    : BitVec 48 := 0
  trigTime : LTime := {}
  mark     : Mark := .good
  /-- R174 FILLED: bit b set, band b was filled. -/
  filled   : BitVec 6 := 0
  /-- R171 check 3: bands received. -/
  got      : BitVec 6 := 0
  /-- R155, R171: a TRIG flit was sent for the line. -/
  sent     : Bool := true
  /-- R81: it fell while its port was in partial reset, or lost its data to one. -/
  inReset  : Bool := false
  /-- R172: its deadline has passed. -/
  closed   : Bool := false
  /-- R175: samples by band. -/
  bands    : List (List Nat) := []
  deriving DecidableEq, Repr, Inhabited

/-- A line of the Prepare stage: stage-6 values by channel, and Chaff entries by column (R198, R211). -/
structure PrepLine where
  line    : Line
  chans   : List (List Nat) := []
  entries : List Nat := []
  deriving DecidableEq, Repr, Inhabited

/-- One intake port (R165 to R191). Reset: no lines (assumption 3). -/
structure IntakePort where
  /-- R169: the line count L of the next line. -/
  lineCount : BitVec 48 := 0
  /-- R175: fill half, ascending. -/
  fill      : List Line := []
  /-- R175: drain half, lines not yet taken by an engine, ascending. -/
  drain     : List Line := []
  /-- R171: line numbers and counts of the swath before, for LATE_ARRIVED. -/
  recent    : List (BitVec 32) := []
  /-- R173: bands of the previous port line, as stored or filled. -/
  prevBands : List (List Nat) := []
  /-- R122: local time of the last symbol. -/
  lastTrig  : Option LTime := none
  /-- R122, R172: the trigger that is due waits for its spacing and has been counted in SPACED: the issue time that R120 or R124 gave it. -/
  spacing   : Option LTime := none
  /-- R464: a run of discarded flits is in progress. -/
  hdrRun    : Bool := false
  /-- R191: the temporal filter's previous output, by band. -/
  temporal  : List (List Nat) := []
  /-- R191: the line number with which the port starts; none once it has. -/
  startLine : Option (BitVec 32) := some 0
  /-- R187: lines processed for the swath in Prepare, ascending. -/
  prep      : List PrepLine := []
  /-- R81: out of service by a partial reset. -/
  inReset   : Bool := false
  /-- R170: trigger latency in force, ps. -/
  latencyPs : Nat := 96000
  /-- R170: latency measured at the last training, in force from the next tick boundary. -/
  nextLatPs : Nat := 96000
  deriving DecidableEq, Repr, Inhabited

/-- What one pass of the target gave on a port (R184). -/
structure PassRes where
  lineOfs : Int := 0
  pixOfs  : Int := 0
  deriving DecidableEq, Repr, Inhabited

/-- Alignment (R184, R185). -/
structure Align where
  /-- R184: selected group; 0 all. Reset 0. -/
  group  : Nat := 0
  /-- R184 step 7: apply the results on success. Reset 0. -/
  apply  : Bool := false
  /-- R184: it runs as the start-up alignment. Reset 0. -/
  startup : Bool := false
  /-- R184: results of the passes so far, by pass, then by port. Reset none. -/
  passes : List (Tab PassRes) := []
  /-- R184 step 2: it waits for a valid master to set its origin. Reset 0. -/
  waiting : Bool := false
  /-- R184 step 2: swaths closed since the alignment origin. Reset 0. -/
  ticks  : Nat := 0
  /-- R184 step 3: lines acquired in the present pass, by port. Reset none. -/
  lines  : Tab (List Line) := []
  deriving DecidableEq, Repr, Inhabited

/-- The image pipeline's parameter sets (R201 to R207) and the pixel probe (R208). Reset: empty (R207, assumption 3). -/
structure Isp where
  /-- R201: copy 0, words by window word address. -/
  set0     : Tab Word := []
  /-- R201: copy 1. -/
  set1     : Tab Word := []
  /-- R206: the active copy is 1 (INT_ISP_STATUS.ACTIVE_SET). -/
  active1  : Bool := false
  /-- R206: a consistency check is running. -/
  checking : Bool := false
  /-- R206: the tick count when the check of the pending set completed. -/
  pendTick : BitVec 48 := 0
  /-- R205, R357: the host has written the inactive set since the last swap. -/
  dirty    : Bool := false
  /-- R357: ports whose parameters are lost until the next swap. -/
  badPorts : List Nat := []
  /-- R208: the probe is armed for this port and column. -/
  probe    : Option (Nat × Nat) := none
  /-- R177: the port served last, round-robin. -/
  lastPort : Nat := 15
  deriving DecidableEq, Repr, Inhabited

/-- The Chaff storage (R212 to R217): tables by address, an unlisted entry 0. Reset: empty (assumption 3). -/
structure Chaff where
  /-- R212: the table of pair 0 (replicas 0 and 1). -/
  pair0    : Tab Byte := []
  /-- R212: the table of pair 1 (replicas 2 and 3). -/
  pair1    : Tab Byte := []
  /-- R212: the shadow. -/
  shadow   : Tab Byte := []
  /-- R213: words (address ÷ 4) that fail parity, with the replica. -/
  badWords : List (Nat × Nat) := []
  /-- R213: the shadow was written since the active table took effect. -/
  dirty    : Bool := false
  /-- R213: a swap is required before CHAFF_LOST may be cleared. -/
  needSwap : Bool := false
  /-- R216, R217: the refill in progress is not a completed swap's. -/
  failRefill : Bool := false
  /-- R213: the refill in progress is that of lost words. -/
  lostRefill : Bool := false
  /-- R214: PAGE and COUNT of the load that runs. -/
  loadPage : Nat := 0
  loadCount : Nat := 0
  /-- R215: the tick count when COPY ended. -/
  pendTick : BitVec 48 := 0
  /-- R216 CHF_STATUS.BAD_PAGE: the page that ended the last refused swap; the register table gives it no bits. -/
  badPage  : Nat := 0
  /-- CHF_OBJ_CNT1.LABEL_FULL counts in units of 256: pixels refused a label beyond the last whole unit. -/
  refused  : Nat := 0
  deriving DecidableEq, Repr, Inhabited

/-- A kept row of an object (R224): port, port line (its whole line count), lowest column, stage-6 values by channel. -/
structure KeptRow where
  port   : Nat
  line   : Nat
  col0   : Nat
  chans  : List (List Nat)
  deriving DecidableEq, Repr, Inhabited

/-- An object being followed (R219 to R225). -/
structure Obj where
  port      : Nat
  /-- Pixels: map-port line (its whole line count), column, class. -/
  pixels    : List (Nat × Nat × Nat) := []
  firstLine : Nat := 0
  lastLine  : Nat := 0
  leadCount : BitVec 48 := 0
  trailCount : BitVec 48 := 0
  /-- Swaths it has been open over (R220). -/
  swaths    : Nat := 1
  /-- R224: the window, once fixed. -/
  window    : Option (Nat × Nat) := none
  /-- R224: its rows in the open-object store. -/
  rows      : List KeptRow := []
  /-- R230 FLAGS. -/
  flags     : BitVec 16 := 0
  /-- R220: not an object: the last line's pixels of one closed with CUT, whose connected pixels start a new object. -/
  ghost     : Bool := false
  deriving DecidableEq, Repr, Inhabited

/-- An object record (R230) with its ROI and its result, as the stages pass it on. -/
structure ObjRec where
  tick      : BitVec 48 := 0
  index     : Nat := 0
  port      : Nat := 0
  group     : Nat := 0
  cls       : Nat := 0
  flags     : BitVec 16 := 0
  leadCount : BitVec 48 := 0
  trailCount : BitVec 48 := 0
  firstLine : BitVec 32 := 0
  lastLine  : BitVec 32 := 0
  colMin    : Nat := 0
  colMax    : Nat := 0
  centroid  : Nat := 0
  area      : Nat := 0
  batch     : Nat := 0xFFFF
  slot      : Nat := 0xFFFF
  cropH     : Nat := 0
  cropW     : Nat := 0
  context   : Nat := 0
  /-- R227: the ROI tensor's bytes; empty without an ROI. -/
  roi       : List Byte := []
  ispSet    : Word := 0
  chaffSet  : Word := 0
  /-- R397: HASH bytes 0 to 3 of the program that judges it. -/
  prog      : List Byte := []
  /-- R398: its context is confidential. -/
  conf      : Bool := false
  /-- R370: a status already decided (0x20, 0x21, 0x30, 0x31, 0x40); 0 none. -/
  status    : Nat := 0
  /-- R368: the network's RESULT, once read. -/
  result    : Option Nat := none
  deriving DecidableEq, Repr, Inhabited

/-- A batch of ROIs (R313). -/
structure Batch where
  context    : Nat := 0
  tick       : BitVec 48 := 0
  no         : Nat := 0
  filled     : Nat := 0
  firstIndex : Nat := 0
  packW      : Nat := 1
  fillMask   : BitVec 64 := 0
  voidMask   : BitVec 64 := 0
  /-- The slot tensors' bytes, each padded to a multiple of 64. -/
  tensors    : List (List Byte) := []
  /-- R323: the logical Tiller that it has been moved to; none: where R319 puts it. -/
  moved      : Option Nat := none
  /-- R323: its place among the moves of the tick. -/
  moveNo     : Nat := 0
  /-- R312: logical Tillers whose INPUT bin holds it. -/
  copied     : List Nat := []
  /-- R412: work of it has waited for the encryption engine. -/
  waited     : Bool := false
  /-- R359: abandoned with this status; 0 not. -/
  abandoned  : Nat := 0
  deriving DecidableEq, Repr, Inhabited

/-- Tiller states (TIL_STATUS.STATE). -/
inductive TilState where
  | fusedOff | idle | busy | gated | quarantined | reset
  deriving DecidableEq, Repr, Inhabited

/-- A line-mapped store: a Granary (R263, R264, R267, R268) or HBM (R271). Lines and pages are 4 KiB. -/
structure Store where
  /-- Bytes by physical address, in the canonical form of Machine/Tab.lean; an unlisted byte is 0. -/
  mem     : List Host.Cell := []
  /-- R264, R271: logical to physical line; none: a line that maps to itself. -/
  map     : Tab (Option Nat) := []
  /-- R267, R271: owner by physical line; unlisted 0. -/
  owner   : Tab Nat := []
  /-- R267: physical lines with UNWRITTEN 0. HBM has no such bit: every page counts as written. -/
  written : List Nat := []
  deriving DecidableEq, Repr, Inhabited

/-- An injection armed on a Tiller (R367). -/
structure Inject where
  once       : Bool := false
  persistent : Bool := false
  parity     : Bool := false
  hbmCrc     : Bool := false
  deriving DecidableEq, Repr, Inhabited

/-- One Tiller (R231, R258 to R262, R355, R432, R439, R440). Reset: RESET (register table TIL_STATUS). -/
structure Tiller where
  /-- TIL_STATUS.STATE. Reset 5 RESET. -/
  st         : TilState := .reset
  /-- R355: quarantined, its partial reset and self-test included, until it returns. -/
  quar       : Bool := false
  /-- Its Granary. -/
  granary    : Store := {}
  /-- R275: the logical lines of each context's staging pool. -/
  pools      : Tab (List Nat) := []
  /-- R343: the command that holds the grid, by queue and SEQ. -/
  grid       : Option (Nat × Nat) := none
  /-- The command that holds the Flail unit. -/
  flail      : Option (Nat × Nat) := none
  /-- The command that holds the Chute. -/
  chute      : Option (Nat × Nat) := none
  /-- R344: BE engine time by context in the current window, 2^-16 ns. -/
  winTime    : Tab Nat := []
  /-- R344: queue served last, by context. -/
  lastQueue  : Tab Nat := []
  /-- R355: detections in the current window. -/
  detections : Nat := 0
  /-- R356: local times of automatic returns of the last hour, newest first. -/
  returns    : List LTime := []
  /-- R442: quarantined by its own sensor: it returns only at 90 °C or less. -/
  thermQuar  : Bool := false
  /-- R356: the automatic request of this quarantine is spent. -/
  autoSpent  : Bool := false
  /-- R367. -/
  inject     : Inject := {}
  /-- R346, TIL_UTIL: for how long the grid was occupied in the current window, 2^-16 ns. -/
  winBusy    : Nat := 0
  /-- R346, TIL_UTIL: useful MACs of the current window, each command's in 1/65536 of a cycle at its format's peak. -/
  winMacs    : Nat := 0
  /-- R439: clock stretched. -/
  stretched  : Bool := false
  /-- R440: target clock of the relocking PLL, MHz. -/
  relock     : Option Nat := none
  /-- R440: the relock is complete and waits for the droop's release. -/
  locked     : Bool := false
  /-- R440: the clock, MHz, whose voltage on the fused curve its supply has; before a change the higher of both clocks. Reset 0. -/
  voltMhz    : Nat := 0
  /-- R442: thermal ceiling, MHz; 0 none. -/
  thermCeil  : Nat := 0
  /-- R442: its own sensor, degrees C. -/
  temp       : Nat := 0
  /-- R432: local time at which a command last came to it or left it. Reset none. -/
  lastCmd    : Option LTime := none
  deriving DecidableEq, Repr, Inhabited

/-- A Bin table entry (R272), with what each accumulator version carries (R241, R260, R293). -/
structure Bin where
  valid   : Bool := false
  space   : Nat := 0
  narrow  : Bool := false
  acc     : Bool := false
  cur     : Bool := false
  kind    : Nat := 0
  owner   : Nat := 0
  gen     : BitVec 16 := 0
  base    : Nat := 0
  size    : Nat := 0
  stride  : Nat := 0
  winGen  : Nat := 0
  winPort : Nat := 0
  window  : Nat := 0
  /-- R293: reduction length of the current version. -/
  redLen  : Nat := 0
  deriving DecidableEq, Repr, Inhabited

/-- Where a command in flight stands (R332, R333, R261). -/
inductive CmdPhase where
  | fetched | running | held | done
  deriving DecidableEq, Repr, Inhabited

/-- A command in flight (R332): its descriptor, where it runs, what its runs have done. -/
structure Cmd where
  queue    : Nat
  /-- R329: its SEQ, plus 2^32 times the era of its queue. -/
  seq      : Nat
  ctx      : Nat
  tiller   : Nat
  lc       : Bool
  /-- Its logical Tiller, and the descriptor as fetched, with logical handles (R320). -/
  lt       : Nat := 0
  raw      : BitVec 512 := 0
  /-- The descriptor with the handles of the Bin table. -/
  desc     : BitVec 512
  phase    : CmdPhase := .fetched
  /-- Status so far (R336). -/
  status   : Nat := 0
  killed   : Bool := false
  rechecked : Bool := false
  /-- R343: pre-emption kills. -/
  preKills : Nat := 0
  /-- R352: failed check runs on the present Tiller, and whether it is the second Tiller (R353). -/
  runs     : Nat := 0
  second   : Bool := false
  /-- R360 KILLS. -/
  kills    : Nat := 0
  /-- R335: engine time over its runs, 2^-16 ns. -/
  engine   : Nat := 0
  /-- R237 and its fellows: cycle figure of the command. -/
  cycles   : Nat := 0
  /-- R346: the Tiller's clock at its first issue, MHz; 0 before it. -/
  soloMhz  : Nat := 0
  /-- R333, R346: when it became ready first. -/
  readyAt  : Option LTime := none
  startAt  : LTime := {}
  /-- R357: since when the run is held for data; and how long it has been held before, ns. -/
  heldAt   : Option LTime := none
  heldNs   : Nat := 0
  /-- R358: the bad line that it waits for: space, Tiller, physical line. -/
  badLine  : Option (Nat × Nat × Nat) := none
  /-- R357: a re-run for bad activations of a command that has been reported: it is not reported again. -/
  silent   : Bool := false
  /-- R335: the tick count when it completed. -/
  doneTick : BitVec 48 := 0
  /-- R273: generations latched, by handle. -/
  gens     : List (Nat × BitVec 16) := []
  sat      : Nat := 0
  nanInt   : Nat := 0
  macs     : Nat := 0
  /-- R312, R328: batch the command belongs to, for LC work. -/
  batch    : Option Nat := none
  /-- Schedule step of LC work: logical Tiller and step number. -/
  step     : Option (Nat × Nat) := none
  /-- Its place in the step. -/
  ix       : Nat := 0
  tick     : BitVec 48 := 0
  /-- R277: remote writes still to be answered, and the first refusal. -/
  writesOut : Nat := 0
  committed : Bool := false
  /-- R260: the accumulator version it wrote: handle, kind, reduction length. -/
  accOut   : Option (Nat × Nat × Nat) := none
  /-- R258, R275: its staging: what it has written, as offsets in the region of the handle `dst` and bytes. -/
  dst      : Nat := 0xFF
  out      : List (Nat × List Byte) := []
  /-- R275, R277, R294: staging lines that it took at its first writes: space and destination line, and the pool's line; space 2: for data
  for a peer. -/
  taken    : List (Nat × Nat × Nat) := []
  deriving DecidableEq, Repr, Inhabited

/-- Queue states (QUE_Q_CFG.STATE). -/
inductive QueState where
  | disabled | enabled | stopped
  deriving DecidableEq, Repr, Inhabited

/-- One hardware queue (R328, R329). Reset: DISABLED, fields at their register reset values. -/
structure Queue where
  st       : QueState := .disabled
  lc       : Bool := false
  hbmRing  : Bool := false
  cr       : Nat := 0
  ordered  : Bool := false
  ltiller  : Nat := 0
  log2Size : Nat := 0
  base     : BitVec 64 := 0
  /-- R331: the producer count. -/
  pi       : BitVec 32 := 0
  /-- R331: the consumer count. -/
  ci       : BitVec 32 := 0
  /-- R336: how often SEQ has started again from 0, so that the commands in flight keep apart. -/
  era      : Nat := 0
  /-- R336: completions waiting for an earlier SEQ of an ordered queue, or for room in the ring. -/
  waiting  : List (List Byte) := []
  deriving DecidableEq, Repr, Inhabited

/-- One completion ring (R335 to R339). Reset: disabled, fields at their register reset values. -/
structure Ring where
  enable   : Bool := false
  coalUs   : Nat := 0
  vector   : Nat := 0
  coalN    : Nat := 0
  log2Size : Nat := 0
  base     : BitVec 64 := 0
  head     : BitVec 17 := 0
  tail     : BitVec 17 := 0
  /-- R335: PHASE of the present pass. -/
  phase    : Bool := true
  /-- R337: entries unsignalled. -/
  unsig    : Nat := 0
  /-- R337: local time of the first of them. Reset none. -/
  unsigAt  : Option LTime := none
  /-- R338: LC entries dropped since the last entry written. -/
  lost     : Bool := false
  deriving DecidableEq, Repr, Inhabited

/-- Context states (R340). -/
inductive CtxState where
  | free | admitted | loaded | sealed | scrubbing | module
  deriving DecidableEq, Repr, Inhabited

/-- A bin of a placement (R320, R321). -/
structure PlacedBin where
  ltiller : Nat
  handle  : Nat
  /-- The handle of the Bin table that the logical handle is bound to (assumption 23). -/
  phys    : Nat := 0
  tiller  : Nat
  base    : Nat
  size    : Nat
  stride  : Nat
  space   : Nat
  deriving DecidableEq, Repr, Inhabited

/-- One context (R340 to R346, R320, R321). Reset: FREE. -/
structure Ctx where
  st         : CtxState := .free
  conf       : Bool := false
  /-- R405, R414: the AES-256 key pair in this context's slot of the key store; none: no key. -/
  key        : Option (BitVec 512) := none
  share      : Nat := 0
  logical    : Nat := 0
  result     : Nat := 0
  program    : Option Program := none
  /-- R318: GEN_PROG_STATUS.STATE: 0 none, 1 placed, 2 unplaced, 3 refused. -/
  progState  : Nat := 0
  reason     : Nat := 0
  /-- R320: physical Tiller of each logical Tiller in the placement in effect; empty when not placed. -/
  map        : List Nat := []
  /-- R322: the Tillers on which its work runs: those of the coming placement once its bins are loaded. -/
  workMap    : List Nat := []
  /-- R355: LC commands of a quarantined Tiller, whose kills and checks go on with their re-run. R20: BE commands that a re-placement has
  taken out of flight and that are fetched again. -/
  carry      : List Cmd := []
  folded     : Bool := false
  bins       : List PlacedBin := []
  /-- R341: the program's decisions count from this swath. -/
  decideFrom : Option (BitVec 48) := none
  /-- R326: logical windows for which a grant is held, with window index, generation and owner's tick. -/
  grants     : List (Nat × Nat × Nat × Nat) := []
  /-- R325: window index opened for a logical window of ours. -/
  winOpen    : Tab Nat := []
  /-- R345: engine time, 2^-16 ns. -/
  time       : Nat := 0
  /-- R346: sums of the current window: latency in 2^-16 ns, solo in ns as a fraction's two parts, kills. -/
  winLat     : Nat := 0
  winSolo    : Nat × Nat := (0, 1)
  winKills   : Nat := 0
  /-- R346: QUE_CTX_SLOW of the last window: slow, kills. -/
  slow       : Nat := 0
  slowKills  : Nat := 0
  /-- R419: ports' objects take CONTEXT_SCRUBBED until a tick program is loaded. -/
  scrubbed   : Bool := false
  /-- R341: SESSION bound at the admission. -/
  session    : Word := 0
  /-- R310: steps of this tick's schedule issued: logical Tiller, step, batch (0 for a step once per tick). -/
  stepsIssued : List (Nat × Nat × Nat) := []
  /-- R310: steps of this tick's schedule committed, named in the same way. -/
  stepsDone  : List (Nat × Nat × Nat) := []
  /-- R357: of steps issued, named in the same way, the SEQ of the first command and the runs for bad activations. -/
  stepSeqs   : List ((Nat × Nat × Nat) × Nat × Nat) := []
  deriving DecidableEq, Repr, Inhabited

/-- A placement the Sower has prepared or that waits for its tick boundary (R322). -/
structure PendPlace where
  /-- By context: the physical Tiller of each logical Tiller; empty: unplaced. -/
  maps   : List (Nat × List Nat) := []
  /-- R322 step 2: the bins of the moved logical Tillers are loaded, and the tick counter at that moment. -/
  loaded : Bool := false
  tick   : BitVec 48 := 0
  /-- R322: it follows the return of a Tiller, so that nothing moves before the tick boundary. -/
  ret    : Bool := false
  /-- R322, R355: Tillers that have left service since the bins now bound were loaded. -/
  gone   : List Nat := []
  deriving DecidableEq, Repr, Inhabited

/-- The Tiller fabric's shared state. -/
structure Fabric where
  tillers  : Tab Tiller := []
  /-- R272: entries by Tiller × 1024 + context × 64 + handle. -/
  bins     : Tab Bin := []
  hbm      : Store := {}
  /-- R275: the logical pages of each context's HBM staging pool, by Tiller × 16 + context. -/
  hbmPools : Tab (List Nat) := []
  inflight : List Cmd := []
  queues   : Tab Queue := []
  rings    : Tab Ring := []
  ctxs     : Tab Ctx := []
  /-- R341: the context command that runs: context and OP. -/
  ctxRun   : Option (Nat × Nat) := none
  pend     : Option PendPlace := none
  /-- R322: prepared placements, by Tiller lost. -/
  prepared : Tab (List (Nat × List Nat)) := []
  /-- R322: placements computed before the losses that are still out: the Tillers then in service, and the maps. -/
  home     : List (List Nat × List (Nat × List Nat)) := []
  /-- R321: placement records, by context. -/
  records  : Tab (List Byte) := []
  /-- R316: Judge worst case by Tiller, ns; Prepare worst case, ns. -/
  judgeNs  : Tab Nat := []
  prepNs   : Nat := 0
  /-- R228, R312: the batch buffer of the swath in Judge. -/
  batches  : List Batch := []
  /-- R230: object records of the swath in Judge. -/
  judgeObjs : List ObjRec := []
  /-- R220: open objects. -/
  openObjs : List Obj := []
  /-- R213: ports whose swath met CHAFF_LOST. -/
  lostPorts : List Nat := []
  /-- R346: local time at which the current statistics window began. -/
  winFrom  : LTime := {}
  /-- R346: ticks of the current statistics window. -/
  winTicks : Nat := 0
  /-- R347: local time from which engine time counts: that at which CONF_PRESENT last returned to 0. -/
  countFrom : LTime := {}
  /-- R414, R428: the DBG command trace buffer: the commands that have started at TRACE or above, by queue and SEQ, newest first (assumption
  99). -/
  trace    : List (Nat × Nat) := []
  deriving DecidableEq, Repr, Inhabited

/-- A fire interval on a valve (R376 to R381, R388). Positions are in 1/256 count from the origin, times in 2^-16 ns. -/
structure Fire where
  id      : Nat
  valve   : Nat
  /-- R372, R377: the decisions it serves. -/
  decs    : List Nat
  /-- R377: P_on. -/
  posOn   : Int
  /-- R377: P_off. -/
  posOff  : Int
  /-- R377, R378: the switch-on time once it is fixed. -/
  tOn     : Option Int := none
  /-- R377: the switch-off time once it is fixed. -/
  tOff    : Option Int := none
  /-- R377: the command has been sent. -/
  sent    : Bool := false
  /-- R388: 4 ns units of a chain still to be sent, and the ON of the next entry. -/
  chain   : Nat := 0
  chainOn : Int := 0
  /-- R376: the run it was sent with. -/
  run     : Nat := 1
  deriving DecidableEq, Repr, Inhabited

/-- A decision that is not final (R371). -/
structure Decision where
  id       : Nat
  obj      : ObjRec
  /-- R370. -/
  action   : Nat := 0
  /-- R370, R378. -/
  status   : Nat := 0
  /-- R371: FLAGS. -/
  flags    : Nat := 0
  /-- R371: RESULT. -/
  result   : Nat := 0xFFFF
  /-- R371: valves fired, for FIRST_VALVE and RUN. -/
  fired    : List Nat := []
  /-- R371: ON_AT. -/
  onAt     : Option Nat := none
  /-- R371: DUR. -/
  dur      : Nat := 0
  deriving DecidableEq, Repr, Inhabited

/-- A driver board as the module knows it (R385, R387). -/
structure Board where
  /-- R385: it has answered since the last bus reset. -/
  seen    : Bool := false
  /-- R385: consecutive polls missed. -/
  missed  : Nat := 0
  /-- R385: it is lost. -/
  lost    : Bool := false
  /-- R385: the delay of the last CONFIG sent. -/
  sentNs  : Option Nat := none
  /-- R381, R385: the delay of a CONFIG that waits for room on the port. -/
  configDue : Option Nat := none
  /-- EJC_AWN_STATUS.FAULT: FLAGS of its last STATUS. -/
  flags   : Nat := 0
  /-- R386: NEXT_SEQ of its last STATUS. -/
  nextSeq : BitVec 8 := 0
  deriving DecidableEq, Repr, Inhabited

/-- A FIRE frame kept for resending (R387). -/
structure KeptFrame where
  seq   : BitVec 8
  data  : List Byte
  /-- Earliest and last ON, in 2^-16 ns. -/
  first : Int
  last  : Int
  deriving DecidableEq, Repr, Inhabited

/-- An Awn port (R382 to R388). -/
structure AwnPort where
  /-- R81: in partial reset. -/
  inReset : Bool := false
  /-- R384: SEQ of the next FIRE frame. -/
  nextSeq : BitVec 8 := 0
  /-- R387: FIRE frames kept, oldest first. -/
  frames  : List KeptFrame := []
  /-- R385: the board polled last. -/
  lastPoll : Nat := 7
  /-- R385: the last poll has not been answered. -/
  polled  : Bool := false
  /-- R385: its boards. -/
  boards  : Tab Board := []
  /-- R381: the 10 µs in which a frame was sent last, and the FIRE entries sent in it. Reset none, 0. -/
  slot    : Option LTime := none
  entries : Nat := 0
  deriving DecidableEq, Repr, Inhabited

/-- The Eject stage and the field I/O (R368 to R391, R51 to R58). Reset: nothing fired (assumption 3). -/
structure Eject where
  /-- R377 to R381: intervals unsent or unfinished. -/
  fires     : List Fire := []
  /-- R371: decisions that are not final, oldest first. -/
  decisions : List Decision := []
  /-- The number of the next interval or decision. -/
  nextId    : Nat := 0
  /-- R389: L_ON in use and samples taken, by valve; none: the seed. -/
  lOn       : Tab (Option (Nat × Nat)) := []
  /-- R382: the Awn ports. -/
  ports     : Tab AwnPort := []
  /-- R384: the local time of the last beacons. Reset none. -/
  beaconAt  : Option LTime := none
  /-- R51: 24V_F is out of range. -/
  fieldBad  : Bool := false
  /-- R55: inputs whose last result is a wire break. Reset 0. -/
  wireBreak : BitVec 24 := 0
  /-- R90: local time at the end of the last sampling window of the field inputs. Reset none. -/
  diAt      : Option LTime := none
  /-- R58: outputs switched off in current limit until their next on-edge. -/
  limited   : BitVec 16 := 0
  /-- R391: an output met its current limit since the last sample. -/
  limitNew  : Bool := false
  /-- R390 source 4: level of TICK. -/
  tickLevel : Bool := false
  /-- R390 mode 1: valve outputs switched on. -/
  valveOut  : BitVec 16 := 0
  deriving DecidableEq, Repr, Inhabited

/-- A read of records under way (R403): which region, the sequence numbers asked for when it started (from `first`, below `stop`), and
where to. -/
structure FlashRead where
  audit : Bool
  first : Nat
  stop  : Nat
  addr  : BitVec 64
  deriving DecidableEq, Repr, Inhabited

/-- What the flash programs at the moment (R395, R396). -/
inductive FlashWork where
  | system
  | audit
  | reject
  deriving DecidableEq, Repr, Inhabited

/-- The record storage (R392 to R403). It survives every reset but for the buffers; reset: nothing stored (assumption 6). -/
structure Flash where
  /-- R395: system entries that wait in the buffer. -/
  bufSys   : Nat := 0
  /-- R395: audit entries that wait in the buffer, oldest first. -/
  bufAudit : List (List Byte) := []
  /-- R395: reject records that wait in the buffer, oldest first. -/
  bufReject : List (List Byte) := []
  /-- R396: the program in progress. Reset none. -/
  inProg   : Option FlashWork := none
  /-- R392: system entries programmed since manufacture, each a page in both copies. -/
  sysSeq   : Nat := 0
  /-- R392, R402: backup generations written since manufacture. -/
  backupSeq : Nat := 0
  /-- R392: stored records lost to uncorrectable reads, by ASEQ and by RSEQ. -/
  lostAudit : List Nat := []
  lostReject : List Nat := []
  /-- R399: audit entries stored, oldest first. -/
  audit    : List (List Byte) := []
  /-- R397: reject records stored, oldest first. -/
  rejects  : List (List Byte) := []
  /-- R399: ASEQ of the next entry. -/
  aseq     : Nat := 0
  /-- R397: RSEQ of the next record. -/
  rseq     : Nat := 0
  /-- R399: H of the last entry. -/
  lastHash : Digest := 0
  /-- R395: LOST_BEFORE of the next stored record. -/
  lostBefore : Bool := false
  /-- R396: reject records dropped at the last close, to be written as RECORDS_LOST. -/
  dropped  : Nat := 0
  /-- R395: bytes the bucket of the write budget holds. -/
  bucket   : Nat := 67108864
  /-- R395: local time at which the bucket was filled last. -/
  bucketAt : LTime := {}
  /-- FLS_REC_RATE: local time and bytes of the reject records of the last second, newest first. -/
  recent   : List (LTime × Nat) := []
  /-- R402: backup generations, newest first. -/
  backups  : List Image := []
  /-- R402: a RESTORE runs: its GEN, and the generation that GEN named when it was written. -/
  restoring : Option (Nat × Image) := none
  /-- R393: erase counts by physical block. -/
  erases   : Tab Nat := []
  /-- R394: reads since the last program, by logical block. -/
  reads    : Tab Nat := []
  /-- R393: the region map: physical block plus 1 of each logical block written; 0 for one not written. -/
  regionOf : Tab Nat := []
  /-- R393: bad physical blocks. -/
  badBlocks : List Nat := []
  /-- R394: logical blocks that the last scan flagged. -/
  scanFlags : List Nat := []
  /-- R394: local time at which the last retention scan began; none: none since the flash was powered on. Reset none. -/
  scanAt : Option LTime := none
  /-- Bytes of reject records written since manufacture: the place of the ring's end. -/
  rejectEnd : Nat := 0
  /-- R441: trims saved: compute 0, compute 1, intake, IO. -/
  trims    : List Int := []
  /-- R358: physical HBM pages retired, oldest first. -/
  retired  : List Nat := []
  /-- R403: the read under way. -/
  reading  : Option FlashRead := none
  deriving DecidableEq, Repr, Inhabited

/-- An SPDM session (R409), with one of the four session-key sets of Glume's key store (R405). -/
structure Session where
  id   : Word
  isOpen : Bool := false
  /-- R405, R415: the export master secret; a free value (assumption 41). -/
  secret : Digest := 0
  /-- R405, R408: the AES-256-GCM keys and IVs of both directions; a free value (assumption 41). -/
  keys : BitVec 704 := 0
  deriving DecidableEq, Repr, Inhabited

/-- Glume (R404 to R430). Reset: empty, levels NONE. -/
structure Glume where
  /-- R409. -/
  sessions : List Session := []
  /-- R424: the nonce drawn last and when; none: none valid. -/
  nonce    : Option (BitVec 128 × LTime) := none
  /-- R424: the nonce words latched. -/
  nonceHeld : BitVec 128 := 0
  /-- R406: measurement blocks by index: type and value. -/
  meas     : List (Nat × Nat × List Byte) := []
  /-- R425, R429: GRANTED. -/
  granted  : DebugLevel := .none
  /-- R429: end of the grant; none until reset. -/
  grantEnd : Option LTime := none
  /-- R412: crypto reset in progress. -/
  cryptoBusy : Bool := false
  /-- R410: image being staged, and the slot STAGED holds. -/
  staging  : Option Image := none
  /-- R423: the wipe of RETURN is not finished. Non-volatile. -/
  wiping   : Bool := false
  /-- R418: contexts whose scrub is in progress or waits, ascending. -/
  scrubs   : List Nat := []
  /-- R430: the dormant request's scrub option is being carried out. -/
  dormScrub : Bool := false
  /-- R423: RETURN entered, its wipe waits for the scrubs. -/
  returnDue : Bool := false
  /-- R425, R430: RETIRE was carried out and its move waits for the scrubs. Kept like the wipe of RETURN. -/
  retireDue : Bool := false
  /-- R411: local time of the ACTIVATE that is being carried out. Reset none. -/
  activateAt : Option LTime := none
  deriving DecidableEq, Repr, Inhabited

/-- The power controller (R431 to R443). Reset 0. -/
structure Power where
  /-- R443: accumulated ns by reason. Restarts only at power-on. -/
  thrNs    : Tab Nat := []
  /-- R438: consecutive periods of mismatch, and of agreement. -/
  mismPeriods : Nat := 0
  /-- R438: consecutive periods within 0.10 while a mismatch is in force. -/
  agreePeriods : Nat := 0
  /-- R438: POWER_MODEL_MISMATCH is in force. -/
  mismatch : Bool := false
  /-- R443: since when a Tiller has been stretched, as far as it is not yet accumulated; none: no Tiller is. -/
  droopFrom : Option LTime := none
  /-- R442: refresh doubled, and BE limited, by stack. -/
  refresh2 : BitVec 2 := 0
  beLimit  : BitVec 2 := 0
  /-- R435: BE HBM traffic rate-limited, links throttled, by the cap. -/
  memLimited : Bool := false
  linkLimited : Bool := false
  /-- R441: local time at which the trim of a die changed last: compute 0, compute 1, intake, IO. Reset none. -/
  trimAt   : Tab (Option LTime) := []
  /-- R440: trim steps of a die that wait for its Tillers' frequency changes, up positive. Reset 0. -/
  trimHeld : Tab Int := []
  /-- R441: local time at which the trims were saved last. Reset none. -/
  savedAt  : Option LTime := none
  /-- R434: local time of the last control period. Reset none. -/
  periodAt : Option LTime := none
  deriving DecidableEq, Repr, Inhabited

/-- An event kept for GLEAN (R462). -/
structure EventRec where
  us       : BitVec 32
  vector   : Nat
  bit      : Nat
  inst     : Nat
  ctx      : Nat
  deriving DecidableEq, Repr, Inhabited

/-- The host interface (R7, R444 to R463). -/
structure HostIf where
  /-- R7, R125, R103: holding registers, by the BAR0 address of the register they stand behind. -/
  hold     : Tab (Option Word) := []
  /-- R7: what was written to the lower register of a pair and waits for its upper register, by address. -/
  wrHold   : Tab (Option Word) := []
  /-- R462: the last 64 events, oldest first. -/
  events   : List EventRec := []
  /-- R456: BOOT_ID. A free value (assumption 7); reset 0 before the first draw. -/
  bootId   : BitVec 64 := 0
  /-- R450: the record being written, and where to. -/
  glean    : List Byte := []
  gleanAddr : BitVec 64 := 0
  /-- R428: local time of the last UART status line. Reset none. -/
  uartAt   : Option LTime := none
  /-- R42: the instruction register of the J8 JTAG port holds IDCODE (else BYPASS). -/
  jtagId   : Bool := true
  deriving DecidableEq, Repr, Inhabited

/-- The capabilities in the function's lists (R444). Any other is absent. -/
inductive PciCap where
  | pciExpress
  | powerManagement
  | msix
  | aer
  | doe
  | serialNumber
  deriving DecidableEq, Repr, Inhabited

/-- R444, R446: what configuration reads of the function return. -/
structure CfgId where
  vendor    : BitVec 16
  device    : BitVec 16
  /-- 0x0001 SY8-M1600-S, 0x0002 SY8-M1400-W, 0x0003 SY8-M1600-O. -/
  subsystem : BitVec 16
  classCode : BitVec 24
  /-- The Device Serial Number capability, from GEN_SERIAL. -/
  serial    : BitVec 64
  /-- The capabilities that the lists name, and no others. -/
  caps      : List PciCap := [.pciExpress, .powerManagement, .msix, .aer, .doe, .serialNumber]
  /-- The highest link speed, MT/s, and the widths that the link trains to. -/
  topSpeed  : Nat := 32000
  widths    : List Nat := [1, 2, 4, 8]
  /-- The largest Max_Payload_Size and Max_Read_Request_Size, bytes; the smallest is 128. -/
  maxPayload : Nat := 512
  maxRead    : Nat := 4096
  /-- Bits of a tag, and non-posted requests that may be outstanding. -/
  tagBits    : Nat := 10
  maxTags    : Nat := 256
  /-- D3hot is the one power state beside D0; No_Soft_Reset; ASPM L1 and not L0s; Function Level Reset. -/
  d3hot      : Bool := true
  noSoftReset : Bool := true
  aspmL1     : Bool := true
  aspmL0s    : Bool := false
  flr        : Bool := true
  /-- R446: sizes of BAR0 and BAR2, each 64 bits and not prefetchable; there is no other. -/
  bars       : List (Nat × Nat) := [(0, 16777216), (2, 524288)]
  deriving DecidableEq, Repr, Inhabited

/-- What leaves the module: DMA writes, messages, flits, frames, pins. -/
inductive Output where
  | readData (w : Word)
  /-- R74: a memory read before the function is ready completes with Unsupported Request status. -/
  | unsupported
  | cfgRetry
  /-- R74, R444: a configuration request answered normally; what the function says of itself. -/
  | cfgOk (id : CfgId)
  | accessDenied
  | msix (vector : Nat)
  | dmaWrite (addr : BitVec 64) (data : List Byte)
  | dmaRead (addr : BitVec 64) (len : Nat)
  | flit (port : Nat) (f : BitVec 256)
  | train (port lane : Nat) (f : BitVec 128)
  | patternFlip (port : Nat) (lanes : BitVec 4)
  | awn (port : Nat) (data : List Byte)
  | ssiClock (ch pulses : Nat)
  | ptp (eth : Bool) (kind : Nat) (vlan : Option Nat)
  /-- R88, R90: a stamp that the Pdelay_Resp just sent, or its Follow_Up, carries: first t2, then t3. -/
  | ptpStamp (eth : Bool) (t : LTime)
  | spdm (code : Nat) (data : List Byte)
  /-- R408: an answer in a data object of type 2, secured SPDM, of a session; any other is one of type 1. -/
  | secured (session : Word) (code : Nat) (data : List Byte)
  | spdmError (code : Nat) (rdtExponent : Nat)
  | jtag (data : Word)
  | uart (data : List Byte)
  | linkDown
  deriving DecidableEq, Repr, Inhabited

/-- Everything but the queue of waiting commands. -/
structure Mach where
  /-- R4, R5: register words by BAR0 address; unlisted: the register's reset value. -/
  regs   : Tab Word := []
  ctl    : Ctl := {}
  fuses  : Fuses := {}
  nor    : Nor := {}
  /-- R79, R431: the applied configuration of the running image. -/
  cfg    : Image := {}
  time   : TimeBase := {}
  enc    : Tab EncCh := []
  trig   : Trig := {}
  sheaf  : Tab SheafPort := []
  wins   : Tab Window := []
  intake : Tab IntakePort := []
  align  : Align := {}
  isp    : Isp := {}
  chaff  : Chaff := {}
  fab    : Fabric := {}
  eject  : Eject := {}
  flash  : Flash := {}
  glume  : Glume := {}
  power  : Power := {}
  host   : HostIf := {}
  /-- The model's own: the number under which the next free value is drawn (assumption 7). -/
  draws  : Nat := 0
  /-- The model's own: what the last command sent out, in order (assumption 10). -/
  out    : List Output := []
  deriving DecidableEq, Repr, Inhabited

/-- The machine: what the spec gives it, and the commands that wait, first in, first out. -/
structure State where
  mach    : Mach := {}
  pending : List Instr := []
  deriving DecidableEq, Repr, Inhabited

/-- No command faults: the spec describes no stop of the module that is not a state of its own (FAULT is a state, R22).
Closed and empty of use; raised by nothing. Safe. -/
inductive Fault where
  /-- Raised by nothing. Safe: the model never stops with a fault. -/
  | none
  deriving DecidableEq, Repr

/-- Why a command has no meaning. -/
inductive Refusal where
  /-- The command is not modelled yet. Raised by Dispatch only. Safe: the machine stops. -/
  | notModelled (mnemonic : String)
  /-- A JTAG instruction other than IDCODE and BYPASS at debug level FULL (R42, R428): the spec names "every JTAG
  instruction" and gives none of them an effect. Raised by jtagInstruction. Safe: the machine stops. -/
  | jtagInstructionUndefined
  deriving DecidableEq, Repr

/-- The machine right after reset: POWERING (R79), every register at its reset value. -/
def State.reset : State := {}

end Sys2Proof.Machine
end

