-- ==== Sys2Proof/Machine/Lanes.lean ====
section
/-!
DEFINITION. Machine/Lanes.lean: what stands on the lanes of a Sheaf port: symbols and levels (R127), precoding (R128), training
frames (R132), a flit's symbols (R146), the pattern generators and checkers (R141 to R143), and transmitter settings (R130).
-/

namespace Sys2Proof.Machine

/-- The symbol value of a pair of bits, the first in time first (R127). -/
def symOf (first second : Bool) : Nat := if first then (if second then 2 else 3) else (if second then 1 else 0)

/-- The pair of bits of a symbol value (R127). -/
def pairOf (s : Nat) : Bool × Bool := (decide (s = 2 ∨ s = 3), decide (s = 1 ∨ s = 2))

/-- The level of a symbol value, in thirds of the outer amplitude (R127). -/
def symLevel (s : Nat) : Int := 2 * (s : Int) - 3

/-- PAM2: a 0 bit is −3, a 1 bit +3 (R127). -/
def pam2Level (b : Bool) : Int := if b then 3 else -3

/-- The transmitter's precoder from p(−1) on (R128). -/
def precode (p : Nat) : List Nat → List Nat
  | [] => []
  | s :: ss => (s + 4 - p % 4) % 4 :: precode ((s + 4 - p % 4) % 4) ss

/-- The receiver's decoder from p(−1) on (R128). -/
def unprecode (p : Nat) : List Nat → List Nat
  | [] => []
  | q :: qs => (q + p) % 4 :: unprecode q qs

/-- The 32 symbol values of a flit on a lane: bit pair j is symbol j / 4 of lane j mod 4 (R146). -/
def flitSymbols (f : BitVec 256) (lane : Nat) : List Nat :=
  (List.range 32).map (fun k => symOf (f.getLsbD (255 - 2 * (4 * k + lane))) (f.getLsbD (254 - 2 * (4 * k + lane))))

/-- The flit that four lanes' 32 symbol values spell (R146). -/
def flitOfSymbols (lanes : List (List Nat)) : BitVec 256 :=
  BitVec.ofNat 256 (ofBits ((List.range 256).map (fun i =>
    let j := (255 - i) / 2
    let b := pairOf ((lanes.getD (j % 4) []).getD (j / 4) 0)
    if i % 2 = 1 then b.1 else b.2)))

/-- What a lane sends of flits that follow one another from the first symbol of L0: precoding starts there with p(−1) = 0 (R128,
R146). -/
def l0Levels (precoded : Bool) (fs : List (BitVec 256)) (lane : Nat) : List Int :=
  let ss := fs.flatMap (fun f => flitSymbols f lane)
  (if precoded then precode 0 ss else ss).map symLevel

/-- The symbol values that a receiver reads from the levels on a lane since the first symbol of L0 (R127, R128). -/
def l0Read (precoded : Bool) (levels : List Int) : List Nat :=
  let ss := levels.map (fun l => ((l + 3) / 2).toNat)
  if precoded then unprecode 0 ss else ss

/-- CRC-16 of R468. -/
def crc468 (bs : List Byte) : Nat := crc16 0x1021 0xFFFF bs

/-- A training frame from its fields (R132). -/
def frameWord (phase flags turn lane tap : Nat) : BitVec 128 :=
  let n := 0x5AF0C30F * 2 ^ 80 + phase % 256 * 2 ^ 72 + flags % 256 * 2 ^ 64 + turn % 65536 * 2 ^ 48 + 2 * 2 ^ 40 + lane % 16 * 2 ^ 36
    + tap % 16 * 2 ^ 32
  BitVec.ofNat 128 (n * 65536 + crc468 ((leBytes 14 n).reverse))

/-- A training frame on the lane, bit 127 first, in PAM2 (R127, R132). -/
def frameLevels (f : BitVec 128) : List Int := (List.range 128).map (fun k => pam2Level (f.getLsbD (127 - k)))

/-- The frame that 128 levels spell, on a lane that may arrive inverted (R127, R129). -/
def frameOfLevels (inverted : Bool) (ls : List Int) : BitVec 128 :=
  BitVec.ofNat 128 (ofBits (ls.reverse.map (fun l => decide (l > 0) != inverted)))

/-- The bits back from the present one that the next bit of a pattern is the sum of (R141). -/
def patTaps (pat : Nat) : List Nat :=
  match pat with
  | 0 => [6, 7]
  | 1 => [1, 2, 12, 13]
  | _ => [28, 31]

/-- The degree of a pattern's polynomial (R141). -/
def patDegree (pat : Nat) : Nat :=
  match pat with
  | 0 => 7
  | 1 => 13
  | _ => 31

/-- Bits in a symbol of a pattern: PAM2 or PAM4 (R141). -/
def patBits (pat : Nat) : Nat := if pat = 0 then 1 else 2

/-- The next bit of a pattern after those given, the latest first (R141). -/
def nextBit (pat : Nat) (past : List Bool) : Bool := (patTaps pat).foldl (fun x k => x != past.getD (k - 1) false) false

/-- The next `n` bits of a pattern after those given, the latest first (R141). -/
def prbs (pat : Nat) : Nat → List Bool → List Bool
  | 0, _ => []
  | n + 1, past => nextBit pat past :: prbs pat n ((nextBit pat past :: past).take (patDegree pat))

/-- INJ_RATE = N flips one bit in every 2^(N + 10) of a generator's output, the last of each such run; 0 flips none (R143). -/
def injected (rate : Nat) (bs : List Bool) : List Bool :=
  (bs.zipIdx).map (fun b => b.1 != (rate != 0 && decide ((b.2 + 1) % 2 ^ (rate + 10) = 0)))

/-- The levels of a pattern's bits: PAM2, or pairs mapped by R127; never precoded (R128, R141). -/
def patLevels (pat : Nat) : List Bool → List Int
  | [] => []
  | b :: bs =>
    if pat = 0 then pam2Level b :: patLevels pat bs
    else match bs with
      | [] => []
      | c :: bs => symLevel (symOf b c) :: patLevels pat bs

/-- A checker seeds itself from the bits received and locks after 64 error-free symbols (R142). -/
def chkBit (pat : Nat) (c : LaneChk) (b : Bool) : LaneChk :=
  if c.locked || c.stopped then c
  else if c.seed.length < patDegree pat then { c with seed := b :: c.seed }
  else
    let good := if nextBit pat c.seed = b then c.good + 1 else 0
    if good ≥ 64 * patBits pat then { c with seed := [], good := 0, locked := true, recent := [] }
    else { c with seed := (b :: c.seed).take (patDegree pat), good := good }

/-- Bits that a checker takes to lock: its seed, and 64 symbols (R142). -/
def lockBits (pat : Nat) : Nat := patDegree pat + 64 * patBits pat

/-- `n` good bits pass a checker: locked it compares them, up to `lim` of the window; unlocked it locks first (R142). -/
def chkClean (pat lim : Nat) (c : LaneChk) (n : Nat) : LaneChk :=
  let skip := if c.locked then 0 else lockBits pat
  if c.stopped || decide (n < skip) then c
  else
    let k := c.compared + (n - skip)
    if lim ≠ 0 ∧ k ≥ lim then { c with locked := true, compared := lim, stopped := true } else { c with locked := true, compared := k }

/-- A wrong bit: counted once while locked; 32 of them within 64 symbols lose the lock (R142). -/
def chkWrong (pat lim : Nat) (c : LaneChk) : LaneChk × Nat :=
  if c.stopped || !c.locked then (c, 0)
  else
    let n := c.compared + 1
    let recent := (n :: c.recent).filter (fun k => decide (k + 64 * patBits pat > n))
    let lost := decide (recent.length ≥ 32)
    ({ c with compared := n, locked := !lost, recent := if lost then [] else recent, stopped := decide (lim ≠ 0 ∧ n ≥ lim) }, 1)

/-- A stretch of `total` bits of which those at the given places, rising, are wrong: the checker after it, and what it counts (R142). -/
def chkRun (pat lim : Nat) (c : LaneChk) (pos : Nat) (wrong : List Nat) (total : Nat) : LaneChk × Nat :=
  match wrong with
  | [] => (chkClean pat lim c (total - pos), 0)
  | w :: ws =>
    let r := chkWrong pat lim (chkClean pat lim c (w - pos))
    let q := chkRun pat lim r.1 (w + 1) ws total
    (q.1, r.2 + q.2)

/-- What a lane's transmitter sends (R131). -/
inductive LaneOut where
  /-- Electrical idle; an optical port is dark. -/
  | idle
  /-- Training frames (R132). -/
  | frames (f : BitVec 128)
  /-- Training frames alternating with PRBS13Q blocks of 4,096 symbols (R133). -/
  | framesPrbs (f : BitVec 128)
  /-- Link-layer flits, precoded or not (R128). -/
  | flits (precoded : Bool)
  /-- PRBS7 in PAM2 at half swing (R138). -/
  | quiet
  /-- A test pattern with an injection rate (R141, R143). -/
  | pattern (pat rate : Nat)
  /-- TEST with the generators off: the spec does not say what is sent. -/
  | unstated
  deriving DecidableEq, Repr

/-- Peak-to-peak swing of the outer levels, mV (R130, SHF_TX_EQ). -/
def swingMv (amp : Nat) : Nat := min 1100 (800 + 50 * amp)

/-- The three taps of the transmitter's equaliser in 32nds: pre-cursor, main, post-cursor (R130, SHF_TX_EQ). -/
def txTaps (pre post : Nat) : Int × Int × Int := (-(pre : Int), 32 - ((pre : Int) + post), -(post : Int))

/-- Half of the swing in QUIET (R138), mV. -/
def laneSwing (o : LaneOut) (amp : Nat) : Nat :=
  match o with
  | .quiet => swingMv amp / 2
  | .idle => 0
  | _ => swingMv amp

/-- The first `n` symbols' levels of a lane that sends a pattern from a seed, the latest seed bit first (R131, R133, R138, R141). -/
def laneLevels (o : LaneOut) (seed : List Bool) (n : Nat) : List Int :=
  match o with
  | .frames f => (frameLevels f).take n
  | .framesPrbs f => ((frameLevels f) ++ patLevels 1 (prbs 1 8192 seed)).take n
  | .quiet => patLevels 0 (prbs 0 n seed)
  | .pattern pat rate => patLevels pat (injected rate (prbs pat (n * patBits pat) seed))
  | _ => []

end Sys2Proof.Machine
end

