-- ==== Sys2Proof/Machine/Crypto.lean ====
section
/-!
DEFINITION. Machine/Crypto.lean: the algorithms that the spec names and that act on bits the model holds: SHA-384 (R68, R399, R404, R406), ECDSA
with P-384 (R67, R404, R424), HKDF-Expand and AES-256-GCM (R415), AES-256-XTS (R416). They are their public standards' (PRESUMED,
assumption 4): FIPS 180-4, FIPS 186-5, RFC 2104 and 5869, FIPS 197, SP 800-38D and IEEE 1619.
-/

namespace Sys2Proof.Machine

/-- A number is evaluated before it is passed on. -/
def forceNat {α : Type} (x : Nat) (f : Nat → α) : α :=
  match x with
  | 0 => f 0
  | n + 1 => f (n + 1)

/-- Numbers are evaluated one by one. -/
def forceList {α : Type} : List Nat → (List Nat → α) → α
  | [], f => f []
  | x :: xs, f => forceNat x (fun y => forceList xs (fun ys => f (y :: ys)))

/-- The number that bytes spell, most significant first, after those of `acc`. -/
def beFrom (acc : Nat) : List Byte → Nat
  | [] => acc
  | b :: bs => forceNat (acc * 256 + b.toNat) (fun a => beFrom a bs)

/-- The number that bytes spell, most significant first. -/
def beNat (bs : List Byte) : Nat := beFrom 0 bs

/-- The `n` bytes of a number, most significant first. -/
def beBytes (n v : Nat) : List Byte := (leBytes n v).reverse

/-! ### SHA-384 -/

/-- The round constants of SHA-384: the first 64 bits of the fractional parts of the cube roots of the first 80 primes. -/
def shaK : List Nat :=
  [0x428A2F98D728AE22, 0x7137449123EF65CD, 0xB5C0FBCFEC4D3B2F, 0xE9B5DBA58189DBBC,
   0x3956C25BF348B538, 0x59F111F1B605D019, 0x923F82A4AF194F9B, 0xAB1C5ED5DA6D8118,
   0xD807AA98A3030242, 0x12835B0145706FBE, 0x243185BE4EE4B28C, 0x550C7DC3D5FFB4E2,
   0x72BE5D74F27B896F, 0x80DEB1FE3B1696B1, 0x9BDC06A725C71235, 0xC19BF174CF692694] ++
  [0xE49B69C19EF14AD2, 0xEFBE4786384F25E3, 0x0FC19DC68B8CD5B5, 0x240CA1CC77AC9C65,
   0x2DE92C6F592B0275, 0x4A7484AA6EA6E483, 0x5CB0A9DCBD41FBD4, 0x76F988DA831153B5,
   0x983E5152EE66DFAB, 0xA831C66D2DB43210, 0xB00327C898FB213F, 0xBF597FC7BEEF0EE4,
   0xC6E00BF33DA88FC2, 0xD5A79147930AA725, 0x06CA6351E003826F, 0x142929670A0E6E70] ++
  [0x27B70A8546D22FFC, 0x2E1B21385C26C926, 0x4D2C6DFC5AC42AED, 0x53380D139D95B3DF,
   0x650A73548BAF63DE, 0x766A0ABB3C77B2A8, 0x81C2C92E47EDAEE6, 0x92722C851482353B,
   0xA2BFE8A14CF10364, 0xA81A664BBC423001, 0xC24B8B70D0F89791, 0xC76C51A30654BE30,
   0xD192E819D6EF5218, 0xD69906245565A910, 0xF40E35855771202A, 0x106AA07032BBD1B8] ++
  [0x19A4C116B8D2D0C8, 0x1E376C085141AB53, 0x2748774CDF8EEB99, 0x34B0BCB5E19B48A8,
   0x391C0CB3C5C95A63, 0x4ED8AA4AE3418ACB, 0x5B9CCA4F7763E373, 0x682E6FF3D6B2B8A3,
   0x748F82EE5DEFB2FC, 0x78A5636F43172F60, 0x84C87814A1F0AB72, 0x8CC702081A6439EC,
   0x90BEFFFA23631E28, 0xA4506CEBDE82BDE9, 0xBEF9A3F7B2C67915, 0xC67178F2E372532B] ++
  [0xCA273ECEEA26619C, 0xD186B8C721C0C207, 0xEADA7DD6CDE0EB1E, 0xF57D4F7FEE6ED178,
   0x06F067AA72176FBA, 0x0A637DC5A2C898A6, 0x113F9804BEF90DAE, 0x1B710B35131C471B,
   0x28DB77F523047D84, 0x32CAAB7B40C72493, 0x3C9EBE0A15C9BEBC, 0x431D67C49C100D4C,
   0x4CC5D4BECB3E42B6, 0x597F299CFC657E2A, 0x5FCB6FAB3AD6FAEC, 0x6C44198C4A475817]

/-- The initial hash value: those of the square roots of the 9th to the 16th prime. -/
def shaInit : List Nat :=
  [0xCBBB9D5DC1059ED8, 0x629A292A367CD507, 0x9159015A3070DD17, 0x152FECD8F70E5939,
   0x67332667FFC00B31, 0x8EB44A8768581511, 0xDB0C2E0D64F98FA7, 0x47B5481DBEFA4FA4]

/-- A word's values. -/
def w64 : Nat := 18446744073709551616

/-- Rotate a 64-bit word right. -/
def rotr64 (x n : Nat) : Nat := x >>> n ||| (x <<< (64 - n)) % w64

/-- The functions Σ, three rotations, and σ, two rotations and a shift. -/
def shaSigma (x a b c : Nat) : Nat := rotr64 x a ^^^ rotr64 x b ^^^ rotr64 x c
def shaLow (x a b c : Nat) : Nat := rotr64 x a ^^^ rotr64 x b ^^^ x >>> c

/-- The eight working variables. -/
structure Sha where
  a : Nat
  b : Nat
  c : Nat
  d : Nat
  e : Nat
  f : Nat
  g : Nat
  h : Nat

/-- The rounds of a block, one for each constant; the message schedule is a window of 16 words. -/
def shaRounds : List Nat → List Nat → Sha → Sha
  | [], _, s => s
  | _ :: _, [], s => s
  | k :: ks, w :: ws, s =>
    forceNat ((w + shaLow (ws.getD 0 0) 1 8 7 + ws.getD 8 0 + shaLow (ws.getD 13 0) 19 61 6) % w64) fun wn =>
    forceNat (s.h + shaSigma s.e 14 18 41 + ((s.e &&& s.f) ^^^ ((w64 - 1 - s.e) &&& s.g)) + k + w) fun t =>
    forceNat ((t + shaSigma s.a 28 34 39 + ((s.a &&& s.b) ^^^ (s.a &&& s.c) ^^^ (s.b &&& s.c))) % w64) fun a =>
    forceNat ((s.d + t) % w64) fun e =>
    shaRounds ks (ws ++ [wn]) ⟨a, s.a, s.b, s.c, e, s.e, s.f, s.g⟩

/-- One block of 16 words. -/
def shaBlock (hs w : List Nat) : List Nat :=
  let g := fun k => hs.getD k 0
  match shaRounds shaK w ⟨g 0, g 1, g 2, g 3, g 4, g 5, g 6, g 7⟩ with
  | ⟨a, b, c, d, e, f, h, i⟩ =>
    forceList [(g 0 + a) % w64, (g 1 + b) % w64, (g 2 + c) % w64, (g 3 + d) % w64, (g 4 + e) % w64, (g 5 + f) % w64, (g 6 + h) % w64,
      (g 7 + i) % w64] (fun xs => xs)

/-- `n` blocks of 128 bytes. -/
def shaBlocks : Nat → List Byte → List Nat → List Nat
  | 0, _, hs => hs
  | n + 1, bs, hs => forceNat (beNat (bs.take 128)) fun x =>
    shaBlocks n (bs.drop 128) (shaBlock hs ((List.range 16).map (fun k => x >>> (64 * (15 - k)) % w64)))

/-- The bytes that pad a message of `len` bytes to whole blocks: a one bit, zeros, and its length in bits. -/
def shaPad (len : Nat) : List Byte := 0x80 :: List.replicate ((len + 144) / 128 * 128 - len - 17) 0 ++ beBytes 16 (8 * len)

/-- SHA-384 (R68, R399, R406): the digest's most significant byte is its first. -/
def sha384 (bs : List Byte) : Digest :=
  BitVec.ofNat 384 (((shaBlocks ((bs.length + 144) / 128) (bs ++ shaPad bs.length) shaInit).take 6).foldl (fun a w => a * w64 + w) 0)

/-- HMAC with SHA-384, of a key of at most 128 bytes. -/
def hmac384 (key msg : List Byte) : Digest :=
  let pad := fun (b : Nat) => beBytes 128 (Nat.xor (beNat (slice key 0 128)) (beNat (List.replicate 128 (BitVec.ofNat 8 b))))
  sha384 (pad 0x5C ++ digestBytes (sha384 (pad 0x36 ++ msg)))

/-- HKDF-Expand of at most 48 bytes (R415). -/
def hkdfExpand (secret : Digest) (info : List Byte) (n : Nat) : List Byte :=
  (digestBytes (hmac384 (digestBytes secret) (info ++ [1]))).take n

/-! ### ECDSA with P-384 -/

/-- The field's prime, the order of the base point, and the curve's constant b; a is -3. -/
def p384 : Nat := 2 ^ 384 - 2 ^ 128 - 2 ^ 96 + 2 ^ 32 - 1
def p384n : Nat := 0xffffffffffffffffffffffffffffffffffffffffffffffffc7634d81f4372ddf581a0db248b0a77aecec196accc52973
def p384b : Nat := 0xb3312fa7e23ee7e4988e056be3f82d19181d9c6efe8141120314088f5013875ac656398d8a2ed19d2a85c8edd3ec2aef

/-- A power modulo m, by the exponent's low `n` bits from the highest down. -/
def powMod (m base e : Nat) : Nat → Nat → Nat
  | 0, acc => acc
  | n + 1, acc => forceNat (if e.testBit n then acc * acc % m * base % m else acc * acc % m) (powMod m base e n)

/-- The inverse modulo a prime. -/
def invMod (m x : Nat) : Nat := powMod m x (m - 2) 384 1

/-- A point in Jacobian coordinates; z = 0 is the point at infinity. -/
structure Pt where
  x : Nat
  y : Nat
  z : Nat

def mul384 (a b : Nat) : Nat := a * b % p384
def sub384 (a b : Nat) : Nat := (a + p384 - b) % p384

/-- Twice a point. -/
def ptDouble {α : Type} (a : Pt) (f : Pt → α) : α :=
  forceNat (mul384 a.z a.z) fun zz =>
  forceNat (mul384 a.y a.y) fun yy =>
  forceNat (mul384 a.x yy) fun b =>
  forceNat (3 * mul384 (sub384 a.x zz) (a.x + zz) % p384) fun al =>
  forceNat (sub384 (al * al % p384) (8 * b % p384)) fun x =>
  forceNat (mul384 (2 * a.y) a.z) fun z =>
  forceNat (sub384 (mul384 al (sub384 (4 * b % p384) x)) (8 * (yy * yy) % p384)) fun y =>
  f ⟨x, y, z⟩

/-- The sum of two points. -/
def ptAdd {α : Type} (a b : Pt) (f : Pt → α) : α :=
  if a.z = 0 then f b else if b.z = 0 then f a else
  forceNat (mul384 a.z a.z) fun z1 =>
  forceNat (mul384 b.z b.z) fun z2 =>
  forceNat (mul384 a.x z2) fun u1 =>
  forceNat (mul384 b.x z1) fun u2 =>
  forceNat (mul384 a.y (mul384 b.z z2)) fun s1 =>
  forceNat (mul384 b.y (mul384 a.z z1)) fun s2 =>
  if u1 = u2 then (if s1 = s2 then ptDouble a f else f ⟨1, 1, 0⟩) else
  forceNat (sub384 u2 u1) fun h =>
  forceNat (sub384 s2 s1) fun r =>
  forceNat (mul384 h h) fun hh =>
  forceNat (mul384 h hh) fun hhh =>
  forceNat (mul384 u1 hh) fun v =>
  forceNat (sub384 (sub384 (mul384 r r) hhh) (2 * v % p384)) fun x =>
  forceNat (sub384 (mul384 r (sub384 v x)) (mul384 s1 hhh)) fun y =>
  forceNat (mul384 h (mul384 a.z b.z)) fun z =>
  f ⟨x, y, z⟩

/-- k a + l b added to twice `acc` at each of the low `n` bits of k and l, from the highest down; `ab` is a + b. -/
def mulAdd (k l : Nat) (a b ab : Pt) : Nat → Pt → Pt
  | 0, acc => acc
  | n + 1, acc =>
    ptDouble acc fun d =>
      match k.testBit n, l.testBit n with
      | true, true => ptAdd d ab (mulAdd k l a b ab n)
      | true, false => ptAdd d a (mulAdd k l a b ab n)
      | false, true => ptAdd d b (mulAdd k l a b ab n)
      | false, false => mulAdd k l a b ab n d

/-- The base point. -/
def p384G : Pt := ⟨0xaa87ca22be8b05378eb1c71ef320ad746e1d3b628ba79b9859f741e082542a385502f25dbf55296c3a545e3872760ab7,
  0x3617de4a96262c6f5d9e98bf9292dc29f8f41dbd289a147ce9da3113b5f0b8c00a60b1ce1d7e819d7a431d7c90ea0e5f, 1⟩

/-- The affine coordinates of k a + l b, and whether it is a point at all. -/
def pointOf (k l : Nat) (a b : Pt) : Bool × Nat × Nat :=
  ptAdd a b fun ab =>
    match mulAdd k l a b ab 384 ⟨1, 1, 0⟩ with
    | ⟨x, y, z⟩ =>
      if z = 0 then (false, 0, 0)
      else forceNat (invMod p384 z) fun zi => forceNat (mul384 zi zi) fun zz =>
        forceNat (mul384 x zz) fun ax => forceNat (mul384 y (mul384 zz zi)) fun ay => (true, ax, ay)

/-- A public key of 96 bytes: X then Y, a point of the curve (R67). -/
def keyPoint (pub : List Byte) : Option Pt :=
  let x := beNat (pub.take 48)
  let y := beNat (pub.drop 48)
  if pub.length = 96 ∧ x < p384 ∧ y < p384 ∧ y * y % p384 = (x * x * x + (p384 - 3) * x + p384b) % p384 then some ⟨x, y, 1⟩ else none

/-- A signature of 96 bytes, r then s, verifies under a public key over a message (R67, R70, R424). -/
def ecdsaOk (pub sig msg : List Byte) : Bool :=
  match keyPoint pub with
  | none => false
  | some q =>
    forceNat (beNat (sig.take 48)) fun r => forceNat (beNat (sig.drop 48)) fun s =>
      if sig.length ≠ 96 ∨ r = 0 ∨ s = 0 ∨ p384n ≤ r ∨ p384n ≤ s then false
      else
        forceNat (invMod p384n s) fun w => forceNat ((sha384 msg).toNat * w % p384n) fun u => forceNat (r * w % p384n) fun v =>
          match pointOf u v p384G q with
          | (true, x, _) => x % p384n == r
          | (false, _, _) => false

/-- The public key of a private one (R404): 96 bytes, X then Y. -/
def ecdsaPub (d : Nat) : List Byte :=
  match pointOf (d % p384n) 0 p384G p384G with
  | (_, x, y) => beBytes 48 x ++ beBytes 48 y

/-- A signature under a private key, with the secret number k of this signature (R404). -/
def ecdsaSign (d k : Nat) (msg : List Byte) : List Byte :=
  let k := 1 + k % (p384n - 1)
  match pointOf k 0 p384G p384G with
  | (_, x, _) =>
    forceNat (x % p384n) fun r => forceNat (invMod p384n k * ((sha384 msg).toNat + r * (d % p384n)) % p384n) fun s =>
      beBytes 48 r ++ beBytes 48 s

/-! ### AES-256 -/

/-- The S-box: the byte of each value, the lowest first. -/
def aesSbox : Nat :=
  0x16bb54b00f2d99416842e6bf0d89a18cdf2855cee9871e9b948ed9691198f8e1 * 2 ^ 1792 +
  0x9e1dc186b95735610ef6034866b53e708a8bbd4b1f74dde8c6b4a61c2e2578ba * 2 ^ 1536 +
  0x08ae7a65eaf4566ca94ed58d6d37c8e779e4959162acd3c25c2406490a3a32e0 * 2 ^ 1280 +
  0xdb0b5ede14b8ee4688902a22dc4f816073195d643d7ea7c41744975fec130ccd * 2 ^ 1024 +
  0xd2f3ff1021dab6bcf5389d928f40a351a89f3c507f02f94585334d43fbaaefd0 * 2 ^ 768 +
  0xcf584c4a39becb6a5bb1fc20ed00d153842fe329b3d63b52a05a6e1b1a2c8309 * 2 ^ 512 +
  0x75b227ebe28012079a059618c323c7041531d871f1e5a534ccf73f362693fdb7 * 2 ^ 256 +
  0xc072a49cafa2d4adf04759fa7dc982ca76abd7fe2b670130c56f6bf27b777c63 * 2 ^ 0

/-- SubBytes of one byte. -/
def aesSub (x : Nat) : Nat := aesSbox >>> (8 * x) % 256

/-- Times 2 in the field of AES. -/
def aesTwice (x : Nat) : Nat := if x < 128 then 2 * x else (2 * x) ^^^ 0x11B

/-- The 4 bytes of a word, each through the S-box. -/
def aesSubWord (w : Nat) : Nat :=
  aesSub (w >>> 24 % 256) * 2 ^ 24 + aesSub (w >>> 16 % 256) * 2 ^ 16 + aesSub (w >>> 8 % 256) * 2 ^ 8 + aesSub (w % 256)

/-- The key schedule's words from the i-th on, newest first in `ws`. -/
def aesWords (i rc : Nat) : Nat → List Nat → List Nat
  | 0, ws => ws
  | n + 1, ws =>
    let t := ws.headD 0
    let u := if i % 8 = 0 then aesSubWord (t % 2 ^ 24 * 256 + t >>> 24) ^^^ rc * 2 ^ 24 else if i % 8 = 4 then aesSubWord t else t
    forceNat (ws.getD 7 0 ^^^ u) fun w => forceNat (if i % 8 = 0 then aesTwice rc else rc) fun rc => aesWords (i + 1) rc n (w :: ws)

/-- The 15 round keys of a 256-bit key, 128 bits each. -/
def aesKeys (key : Nat) : List Nat :=
  let ws := (aesWords 8 1 52 ((List.range 8).map (fun k => key >>> (32 * k) % 2 ^ 32))).reverse
  forceList ((List.range 15).map (fun r => ((List.range 4).map (fun k => ws.getD (4 * r + k) 0)).foldl (fun a w => a * 2 ^ 32 + w) 0)) (fun xs => xs)

/-- Byte i of a block, the first the most significant. -/
def blockByte (b i : Nat) : Nat := b >>> (8 * (15 - i)) % 256

/-- SubBytes, ShiftRows and, but for the last round, MixColumns. -/
def aesRound (last : Bool) (b : Nat) : Nat :=
  forceList ((List.range 16).map (fun i => aesSub (blockByte b (4 * ((i / 4 + i % 4) % 4) + i % 4)))) fun s =>
    let g := fun (c r : Nat) => s.getD (4 * c + r % 4) 0
    let mix := fun (i : Nat) =>
      let c := i / 4
      let r := i % 4
      if last then g c r else aesTwice (g c r) ^^^ aesTwice (g c (r + 1)) ^^^ g c (r + 1) ^^^ g c (r + 2) ^^^ g c (r + 3)
    forceList ((List.range 16).map mix) (fun xs => xs.foldl (fun a x => a * 256 + x) 0)

/-- The rounds after the first key, with the keys that are left. -/
def aesRounds : List Nat → Nat → Nat
  | [], b => b
  | k :: ks, b => forceNat (Nat.xor (aesRound ks.isEmpty b) k) (aesRounds ks)

/-- AES-256 of a block under the round keys. -/
def aesBlock (keys : List Nat) (b : Nat) : Nat := forceNat (Nat.xor b (keys.headD 0)) (aesRounds keys.tail)

/-- The product of GHASH: over the low `n` bits of x from the highest down. -/
def ghashMul (x : Nat) : Nat → Nat → Nat → Nat
  | 0, _, z => z
  | n + 1, v, z =>
    forceNat (if x.testBit n then Nat.xor z v else z) fun z =>
      forceNat (if v % 2 = 1 then Nat.xor (v / 2) (0xE1 * 2 ^ 120) else v / 2) fun v => ghashMul x n v z

/-- GHASH over the 16-byte blocks of a text, `n` of them. -/
def ghash (h : Nat) (text : List Byte) : Nat → Nat → Nat
  | 0, y => y
  | n + 1, y => forceNat (ghashMul (Nat.xor y (beNat (slice text 0 16))) 128 h 0) (ghash h (text.drop 16) n)

/-- The tag of AES-256-GCM over a ciphertext, with no further data (R415). -/
def gcmTag (key iv text : List Byte) : List Byte :=
  let ks := aesKeys (beNat key)
  let h := aesBlock ks 0
  let y := ghash h text (cdiv text.length 16) 0
  beBytes 16 (Nat.xor (ghashMul (Nat.xor y (8 * text.length)) 128 h 0) (aesBlock ks (beNat iv * 2 ^ 32 + 1)))

/-- The blocks of an XTS data unit, `n` of them, under the tweak's value t. -/
def xtsBlocks (ks : List Nat) (text : List Byte) : Nat → Nat → List Byte
  | 0, _ => []
  | n + 1, t =>
    let le := beNat (beBytes 16 t).reverse * 2
    let next := beNat (beBytes 16 (if le < 2 ^ 128 then le else Nat.xor (le % 2 ^ 128) 0x87)).reverse
    beBytes 16 (Nat.xor (aesBlock ks (Nat.xor (beNat (slice text 0 16)) t)) t) ++ forceNat next (xtsBlocks ks (text.drop 16) n)

/-- AES-256-XTS of a data unit under a key pair, both keys most significant first (R416). -/
def xts (key : BitVec 512) (tweak text : List Byte) : List Byte :=
  xtsBlocks (aesKeys (key.toNat / 2 ^ 256)) text (text.length / 16) (aesBlock (aesKeys (key.toNat % 2 ^ 256)) (beNat (slice tweak 0 16)))

end Sys2Proof.Machine
end

