-- ==== Sys2Proof/Machine/Image.lean ====
section
/-!
DEFINITION. Machine/Image.lean: the header region of a Tvedod image byte by byte (R67) and its section table (R68): what the checks
and the boot read there, and the bytes that given fields have.
-/

namespace Sys2Proof.Machine

/-- A digest from its 48 bytes, the first byte the most significant (R68, R406). -/
def digestOf (bs : List Byte) : Digest := BitVec.ofNat 384 (leNat bs.reverse)

/-- A section table entry from its 64 bytes (R68), with the SHA-384 of the section's bytes. -/
def readEntry (b : List Byte) (actual : Digest) : SectEntry :=
  { type := leAt b 0 2, context := leAt b 2 1, offset := leAt b 4 4, length := leAt b 8 4, digest := digestOf (slice b 16 48), actual := actual
    reservedZero := leAt b 3 1 == 0 && leAt b 12 4 == 0 }

/-- The 64 bytes of a section table entry (R68). -/
def sectBytes (e : SectEntry) : List Byte :=
  leBytes 2 e.type ++ leBytes 1 e.context ++ leBytes 1 0 ++ leBytes 4 e.offset ++ leBytes 4 e.length ++ leBytes 4 0 ++ digestBytes e.digest

/-- Bytes 0x0000 to 0x001F of the header region (R67). -/
def headBytes (nsect length rollback keySlot flags : Nat) : List Byte :=
  leBytes 4 0x44455654 ++ leBytes 2 1 ++ leBytes 2 nsect ++ leBytes 4 length ++ leBytes 4 rollback ++ leBytes 1 keySlot ++ leBytes 1 flags
    ++ leBytes 14 0

/-- The signed bytes 0x0000 to 0x107F, then SIG and the reserved bytes: the header region of 8 KiB (R67). -/
def regionBytes (i : Image) : List Byte :=
  slice i.head 0 32 ++ slice i.ownerPub 0 96 ++ ((List.range 64).map (fun k => slice (i.table.getD k []) 0 64)).flatten
    ++ slice i.sig 0 96 ++ slice i.rest 0 3872

end Sys2Proof.Machine

namespace Sys2Proof

open Machine

/-- R67 fields of the header region, at their offsets. -/
def Image.magic (i : Image) : Nat := leAt i.head 0 4
def Image.format (i : Image) : Nat := leAt i.head 4 2
def Image.nsect (i : Image) : Nat := leAt i.head 6 2
def Image.length (i : Image) : Nat := leAt i.head 8 4
def Image.rollback (i : Image) : Nat := leAt i.head 12 4
def Image.keySlot (i : Image) : Nat := leAt i.head 16 1
def Image.flags (i : Image) : BitVec 8 := BitVec.ofNat 8 (leAt i.head 17 1)

/-- The entries of the section table that NSECT counts (R67, R68). -/
def Image.sects (i : Image) : List SectEntry :=
  (List.range (min 64 i.nsect)).map (fun k => readEntry (i.table.getD k []) (i.actual.getD k 0))

/-- Every reserved byte of the header region is 0, the unused entries with them (R67). -/
def Image.reservedZero (i : Image) : Bool :=
  leAt i.head 18 14 == 0 && i.rest.all (· == 0) && (i.table.drop i.nsect).all (fun e => e.all (· == 0))

/-- R406 block 0x04: the SHA-384 of bytes 0x0000 to 0x10DF, header, section table and signature. -/
def Image.headerDigest (i : Image) : Digest := sha384 ((regionBytes i).take 0x10E0)

/-- The SHA-384 of OWNER_PUB (R70 check 2). -/
def Image.ownerHash (i : Image) : Digest := sha384 (slice i.ownerPub 0 96)

/-- SIG verifies under OWNER_PUB over bytes 0x0000 to 0x107F (R67, R70 check 3). -/
def Image.sigOk (i : Image) : Bool := ecdsaOk (slice i.ownerPub 0 96) (slice i.sig 0 96) ((regionBytes i).take 0x1080)

/-- The signed bytes 0 to 167 of an authorisation (R424). -/
def Auth.bytes (b : Auth) : List Byte :=
  leBytes 4 b.magic.toNat ++ leBytes 1 b.op ++ leBytes 1 b.keySlot ++ slice b.reserved 0 2 ++ digestBytes b.device ++ leBytes 16 b.nonce.toNat
    ++ slice b.arg 0 96

/-- SIG verifies under a public key (R424). -/
def Auth.signedBy (b : Auth) (pub : List Byte) : Bool := ecdsaOk pub (slice b.sig 0 96) b.bytes

/-- Byte 0 of ARG: a level, or the fuse (R425). -/
def Auth.arg0 (b : Auth) : Nat := leAt b.arg 0 1

/-- What follows it: a duration of two bytes, or the new AR (R425). -/
def Auth.arg1 (b : Auth) : Nat := if b.op = 3 then leAt b.arg 1 2 else leAt b.arg 1 1

/-- The SHA-384 of the public key in ARG (R425, R426). -/
def Auth.argHash (b : Auth) : Digest := sha384 (slice b.arg 0 96)

/-- The reserved bytes and the unused bytes of ARG are 0 (R424, R425). -/
def Auth.reservedZero (b : Auth) : Bool :=
  let used := match b.op with
    | 1 => 96
    | 2 => 96
    | 3 => 3
    | 6 => 2
    | _ => 0
  leAt b.reserved 0 2 == 0 && (b.arg.drop used).all (· == 0)

end Sys2Proof
end

