-- ==== Sys2Proof/Machine/RegMap.lean ====
section
/-!
DEFINITION. Machine/RegMap.lean: the registers of the spec's register tables (R4 to R6, R454): for every field of every
register its place, width and access, and the register's reset word. Numbers are BAR0 addresses. `F.<REGISTER>_<FIELD>` is
the field; `regTable` is the whole map, by block.
-/

namespace Sys2Proof.Machine

/-- Access types (R5). -/
inductive Acc where
  | ro | rw | wo | w1c | rc
  deriving DecidableEq, Repr, Inhabited

/-- One field of a register: where its register lies, the step between instances, the register's reset word, and the
field's lowest bit, width and access (R4, R5). -/
structure Fld where
  base   : Nat
  stride : Nat
  rst    : Word
  lo     : Nat
  w      : Nat
  acc    : Acc
  deriving DecidableEq, Repr, Inhabited

/-- One register: address of its first instance, step, number of instances, reset word, fields (lowest bit, width, access). -/
structure RegRow where
  base   : Nat
  stride : Nat
  count  : Nat
  rst    : Word
  fields : List (Nat × Nat × Acc)
  deriving DecidableEq, Repr, Inhabited

namespace F

def GEN_STATE_DEBUG_ON : Fld := ⟨0x10, 0, 0x0, 21, 1, .ro⟩
def GEN_STATE_CONF_PRESENT : Fld := ⟨0x10, 0, 0x0, 20, 1, .ro⟩
def GEN_STATE_PEER_SPLIT : Fld := ⟨0x10, 0, 0x0, 19, 1, .ro⟩
def GEN_STATE_EXACT : Fld := ⟨0x10, 0, 0x0, 18, 1, .ro⟩
def GEN_STATE_ALIGN : Fld := ⟨0x10, 0, 0x0, 17, 1, .ro⟩
def GEN_STATE_DRAIN : Fld := ⟨0x10, 0, 0x0, 16, 1, .ro⟩
def GEN_STATE_QUAR_MAP : Fld := ⟨0x10, 0, 0x0, 8, 8, .ro⟩
def GEN_STATE_PREV_STATE : Fld := ⟨0x10, 0, 0x0, 4, 4, .ro⟩
def GEN_STATE_STATE : Fld := ⟨0x10, 0, 0x0, 0, 4, .ro⟩
def GEN_TICK_PERIOD_PERIOD_NS : Fld := ⟨0x14, 0, 0x0, 0, 32, .ro⟩
def GEN_TICK_COUNT_LO_COUNT_LO : Fld := ⟨0x18, 0, 0x0, 0, 32, .ro⟩
def GEN_TICK_COUNT_HI_COUNT_HI : Fld := ⟨0x1c, 0, 0x0, 0, 16, .ro⟩
def GEN_TICK_CFG_FREE_RUN : Fld := ⟨0x20, 0, 0x40, 12, 1, .ro⟩
def GEN_TICK_CFG_MASTER_ENC : Fld := ⟨0x20, 0, 0x40, 10, 2, .ro⟩
def GEN_TICK_CFG_SWATH_LINES : Fld := ⟨0x20, 0, 0x40, 0, 10, .ro⟩
def GEN_BOOT_STATUS_REJECT : Fld := ⟨0x30, 0, 0x0, 16, 8, .ro⟩
def GEN_BOOT_STATUS_ROLLBACK : Fld := ⟨0x30, 0, 0x0, 8, 8, .ro⟩
def GEN_BOOT_STATUS_TRIAL : Fld := ⟨0x30, 0, 0x0, 4, 2, .ro⟩
def GEN_BOOT_STATUS_BC_DEFAULT : Fld := ⟨0x30, 0, 0x0, 3, 1, .ro⟩
def GEN_BOOT_STATUS_CONFIRMED : Fld := ⟨0x30, 0, 0x0, 2, 1, .ro⟩
def GEN_BOOT_STATUS_FALLBACK : Fld := ⟨0x30, 0, 0x0, 1, 1, .ro⟩
def GEN_BOOT_STATUS_SLOT : Fld := ⟨0x30, 0, 0x0, 0, 1, .ro⟩
def GEN_RESET_CAUSE_RESETS : Fld := ⟨0x34, 0, 0x0, 16, 16, .ro⟩
def GEN_RESET_CAUSE_IGNORED : Fld := ⟨0x34, 0, 0x0, 8, 8, .rc⟩
def GEN_RESET_CAUSE_CAUSE : Fld := ⟨0x34, 0, 0x0, 0, 4, .ro⟩
def GEN_RESET_CTRL_KEY : Fld := ⟨0x38, 0, 0x0, 24, 8, .wo⟩
def GEN_RESET_CTRL_TARGET : Fld := ⟨0x38, 0, 0x0, 16, 4, .wo⟩
def GEN_RESET_CTRL_TYPE : Fld := ⟨0x38, 0, 0x0, 4, 3, .wo⟩
def GEN_RESET_CTRL_BUSY : Fld := ⟨0x38, 0, 0x0, 0, 1, .ro⟩
def GEN_EARLY_DROP_DOORBELL : Fld := ⟨0x3c, 0, 0x0, 24, 8, .rc⟩
def GEN_EARLY_DROP_PTP : Fld := ⟨0x3c, 0, 0x0, 12, 12, .rc⟩
def GEN_EARLY_DROP_CAMERA : Fld := ⟨0x3c, 0, 0x0, 0, 12, .rc⟩
def TIM_NOW_FRAC_FRAC : Fld := ⟨0xc0000, 0, 0x0, 0, 16, .ro⟩
def TIM_NOW_NS_NS : Fld := ⟨0xc0004, 0, 0x0, 0, 30, .ro⟩
def TIM_NOW_SEC_LO_SEC_LO : Fld := ⟨0xc0008, 0, 0x0, 0, 32, .ro⟩
def TIM_NOW_SEC_HI_SEC_HI : Fld := ⟨0xc000c, 0, 0x0, 0, 16, .ro⟩
def TIM_CTRL_REVERT : Fld := ⟨0xc0010, 0, 0x0, 2, 1, .rw⟩
def TIM_CTRL_AUTO_SWITCH : Fld := ⟨0xc0010, 0, 0x0, 1, 1, .rw⟩
def TIM_CTRL_REQ_DOMAIN : Fld := ⟨0xc0010, 0, 0x0, 0, 1, .rw⟩
def TIM_STATUS_HOLDOVER : Fld := ⟨0xc0014, 0, 0x0, 9, 1, .ro⟩
def TIM_STATUS_VALID : Fld := ⟨0xc0014, 0, 0x0, 8, 1, .ro⟩
def TIM_STATUS_SLEWING : Fld := ⟨0xc0014, 0, 0x0, 7, 1, .ro⟩
def TIM_STATUS_ACTIVE : Fld := ⟨0xc0014, 0, 0x0, 6, 1, .ro⟩
def TIM_STATUS_B_STATE : Fld := ⟨0xc0014, 0, 0x0, 3, 3, .ro⟩
def TIM_STATUS_A_STATE : Fld := ⟨0xc0014, 0, 0x0, 0, 3, .ro⟩
def TIM_EVENT_STEP : Fld := ⟨0xc0018, 0, 0x0, 7, 1, .w1c⟩
def TIM_EVENT_OUTLIER : Fld := ⟨0xc0018, 0, 0x0, 6, 1, .w1c⟩
def TIM_EVENT_HOLD_EXPIRED : Fld := ⟨0xc0018, 0, 0x0, 5, 1, .w1c⟩
def TIM_EVENT_GM_CHANGE_B : Fld := ⟨0xc0018, 0, 0x0, 4, 1, .w1c⟩
def TIM_EVENT_GM_CHANGE_A : Fld := ⟨0xc0018, 0, 0x0, 3, 1, .w1c⟩
def TIM_EVENT_SWITCH : Fld := ⟨0xc0018, 0, 0x0, 2, 1, .w1c⟩
def TIM_EVENT_LOST : Fld := ⟨0xc0018, 0, 0x0, 1, 1, .w1c⟩
def TIM_EVENT_LOCKED : Fld := ⟨0xc0018, 0, 0x0, 0, 1, .w1c⟩
def TIM_SLEW_REMAIN_NS : Fld := ⟨0xc001c, 0, 0x0, 0, 32, .ro⟩
def TIM_SERVO_A_CTRL_ENABLE : Fld := ⟨0xc0020, 0, 0x0, 13, 1, .ro⟩
def TIM_SERVO_A_CTRL_PD_ONE_STEP : Fld := ⟨0xc0020, 0, 0x0, 12, 1, .ro⟩
def TIM_SERVO_A_CTRL_P2P : Fld := ⟨0xc0020, 0, 0x0, 11, 1, .ro⟩
def TIM_SERVO_A_CTRL_L2 : Fld := ⟨0xc0020, 0, 0x0, 10, 1, .ro⟩
def TIM_SERVO_A_CTRL_PORT : Fld := ⟨0xc0020, 0, 0x0, 8, 2, .ro⟩
def TIM_SERVO_A_CTRL_DOMAIN_NUM : Fld := ⟨0xc0020, 0, 0x0, 0, 7, .ro⟩
def TIM_SERVO_B_CTRL_ENABLE : Fld := ⟨0xc0040, 0, 0x0, 13, 1, .ro⟩
def TIM_SERVO_B_CTRL_PD_ONE_STEP : Fld := ⟨0xc0040, 0, 0x0, 12, 1, .ro⟩
def TIM_SERVO_B_CTRL_P2P : Fld := ⟨0xc0040, 0, 0x0, 11, 1, .ro⟩
def TIM_SERVO_B_CTRL_L2 : Fld := ⟨0xc0040, 0, 0x0, 10, 1, .ro⟩
def TIM_SERVO_B_CTRL_PORT : Fld := ⟨0xc0040, 0, 0x0, 8, 2, .ro⟩
def TIM_SERVO_B_CTRL_DOMAIN_NUM : Fld := ⟨0xc0040, 0, 0x0, 0, 7, .ro⟩
def TIM_SERVO_A_GAIN_KI : Fld := ⟨0xc0024, 0, 0x0, 16, 16, .ro⟩
def TIM_SERVO_A_GAIN_KP : Fld := ⟨0xc0024, 0, 0x0, 0, 16, .ro⟩
def TIM_SERVO_B_GAIN_KI : Fld := ⟨0xc0044, 0, 0x0, 16, 16, .ro⟩
def TIM_SERVO_B_GAIN_KP : Fld := ⟨0xc0044, 0, 0x0, 0, 16, .ro⟩
def TIM_SERVO_A_OFFSET_THETA : Fld := ⟨0xc0028, 0, 0x0, 0, 32, .ro⟩
def TIM_SERVO_B_OFFSET_THETA : Fld := ⟨0xc0048, 0, 0x0, 0, 32, .ro⟩
def TIM_SERVO_A_FREQ_F : Fld := ⟨0xc002c, 0, 0x0, 0, 32, .ro⟩
def TIM_SERVO_B_FREQ_F : Fld := ⟨0xc004c, 0, 0x0, 0, 32, .ro⟩
def TIM_SERVO_A_DELAY_DELAY_NS : Fld := ⟨0xc0030, 0, 0x0, 0, 32, .ro⟩
def TIM_SERVO_B_DELAY_DELAY_NS : Fld := ⟨0xc0050, 0, 0x0, 0, 32, .ro⟩
def TIM_SERVO_A_CNT_DISCARDED : Fld := ⟨0xc0034, 0, 0x0, 24, 8, .rc⟩
def TIM_SERVO_A_CNT_OUTLIERS : Fld := ⟨0xc0034, 0, 0x0, 16, 8, .rc⟩
def TIM_SERVO_A_CNT_SYNCS : Fld := ⟨0xc0034, 0, 0x0, 0, 16, .rc⟩
def TIM_SERVO_B_CNT_DISCARDED : Fld := ⟨0xc0054, 0, 0x0, 24, 8, .rc⟩
def TIM_SERVO_B_CNT_OUTLIERS : Fld := ⟨0xc0054, 0, 0x0, 16, 8, .rc⟩
def TIM_SERVO_B_CNT_SYNCS : Fld := ⟨0xc0054, 0, 0x0, 0, 16, .rc⟩
def TIM_LIMITS_REQUIRED : Fld := ⟨0xc0060, 0, 0xa, 16, 1, .ro⟩
def TIM_LIMITS_HOLD_S : Fld := ⟨0xc0060, 0, 0xa, 0, 16, .ro⟩
def TIM_ETH0_LAT_RX_LAT : Fld := ⟨0xc0064, 0, 0x0, 16, 16, .ro⟩
def TIM_ETH0_LAT_TX_LAT : Fld := ⟨0xc0064, 0, 0x0, 0, 16, .ro⟩
def TIM_ETH1_LAT_RX_LAT : Fld := ⟨0xc0068, 0, 0x0, 16, 16, .ro⟩
def TIM_ETH1_LAT_TX_LAT : Fld := ⟨0xc0068, 0, 0x0, 0, 16, .ro⟩
def ENC_CFG_STILL_MS : Fld := ⟨0xc8000, 64, 0x646000, 16, 8, .ro⟩
def ENC_CFG_SPD_WIN_LOG2 : Fld := ⟨0xc8000, 64, 0x646000, 13, 3, .ro⟩
def ENC_CFG_FILT : Fld := ⟨0xc8000, 64, 0x646000, 9, 4, .ro⟩
def ENC_CFG_ZMODE : Fld := ⟨0xc8000, 64, 0x646000, 7, 2, .ro⟩
def ENC_CFG_INVERT : Fld := ⟨0xc8000, 64, 0x646000, 6, 1, .ro⟩
def ENC_CFG_TERM : Fld := ⟨0xc8000, 64, 0x646000, 5, 1, .ro⟩
def ENC_CFG_SE24 : Fld := ⟨0xc8000, 64, 0x646000, 4, 1, .ro⟩
def ENC_CFG_MODE : Fld := ⟨0xc8000, 64, 0x646000, 0, 3, .ro⟩
def ENC_COUNT_LO_COUNT_LO : Fld := ⟨0xc8004, 64, 0x0, 0, 32, .ro⟩
def ENC_COUNT_HI_COUNT_HI : Fld := ⟨0xc8008, 64, 0x0, 0, 16, .ro⟩
def ENC_EDGE_NS_NS : Fld := ⟨0xc800c, 64, 0x0, 0, 30, .ro⟩
def ENC_EDGE_SEC_SEC_LO : Fld := ⟨0xc8010, 64, 0x0, 0, 32, .ro⟩
def ENC_SPEED_SPEED : Fld := ⟨0xc8014, 64, 0x0, 0, 32, .ro⟩
def ENC_REF_REF_LO : Fld := ⟨0xc8018, 64, 0x0, 0, 32, .ro⟩
def ENC_PARAM_CLK_100K : Fld := ⟨0xc801c, 64, 0x0, 24, 6, .ro⟩
def ENC_PARAM_BITS : Fld := ⟨0xc801c, 64, 0x0, 18, 6, .ro⟩
def ENC_PARAM_REF_COUNT : Fld := ⟨0xc801c, 64, 0x0, 0, 16, .ro⟩
def ENC_STATUS_LOS : Fld := ⟨0xc8020, 64, 0x0, 7, 1, .ro⟩
def ENC_STATUS_HOLDOVER : Fld := ⟨0xc8020, 64, 0x0, 6, 1, .ro⟩
def ENC_STATUS_STILL : Fld := ⟨0xc8020, 64, 0x0, 5, 1, .ro⟩
def ENC_STATUS_DIR : Fld := ⟨0xc8020, 64, 0x0, 4, 1, .ro⟩
def ENC_STATUS_REF_SEEN : Fld := ⟨0xc8020, 64, 0x0, 3, 1, .ro⟩
def ENC_STATUS_VALID : Fld := ⟨0xc8020, 64, 0x0, 2, 1, .ro⟩
def ENC_STATUS_MASTER : Fld := ⟨0xc8020, 64, 0x0, 1, 1, .ro⟩
def ENC_EVENT_LOST : Fld := ⟨0xc8024, 64, 0x0, 7, 1, .w1c⟩
def ENC_EVENT_HOLD_START : Fld := ⟨0xc8024, 64, 0x0, 6, 1, .w1c⟩
def ENC_EVENT_LOS : Fld := ⟨0xc8024, 64, 0x0, 5, 1, .w1c⟩
def ENC_EVENT_TIMEOUT : Fld := ⟨0xc8024, 64, 0x0, 4, 1, .w1c⟩
def ENC_EVENT_ERR_BIT : Fld := ⟨0xc8024, 64, 0x0, 3, 1, .w1c⟩
def ENC_EVENT_CRC : Fld := ⟨0xc8024, 64, 0x0, 2, 1, .w1c⟩
def ENC_EVENT_REF_ERR : Fld := ⟨0xc8024, 64, 0x0, 1, 1, .w1c⟩
def ENC_EVENT_ILLEGAL : Fld := ⟨0xc8024, 64, 0x0, 0, 1, .w1c⟩
def ENC_ERRCNT_ILLEGAL : Fld := ⟨0xc8028, 64, 0x0, 16, 16, .rc⟩
def ENC_ERRCNT_SSI_ERR : Fld := ⟨0xc8028, 64, 0x0, 8, 8, .rc⟩
def ENC_ERRCNT_REF_ERR : Fld := ⟨0xc8028, 64, 0x0, 0, 8, .rc⟩
def ENC_TRIG_CFG_HOLD_MS : Fld := ⟨0xc8100, 0, 0x140000, 16, 8, .ro⟩
def ENC_TRIG_CFG_PITCH : Fld := ⟨0xc8100, 0, 0x140000, 0, 16, .ro⟩
def ENC_TRIG_STAT_SPACED : Fld := ⟨0xc8104, 0, 0x0, 16, 16, .rc⟩
def ENC_TRIG_STAT_REVERSALS : Fld := ⟨0xc8104, 0, 0x0, 0, 16, .rc⟩
def SHF_PHY_CTRL_QUIET_US : Fld := ⟨0xb0000, 1024, 0x0, 24, 8, .rw⟩
def SHF_PHY_CTRL_LP_REQ : Fld := ⟨0xb0000, 1024, 0x0, 8, 2, .rw⟩
def SHF_PHY_CTRL_PRECODE_REQ : Fld := ⟨0xb0000, 1024, 0x0, 7, 1, .rw⟩
def SHF_PHY_CTRL_RETRAIN : Fld := ⟨0xb0000, 1024, 0x0, 6, 1, .wo⟩
def SHF_PHY_CTRL_TX_FIXED : Fld := ⟨0xb0000, 1024, 0x0, 5, 1, .rw⟩
def SHF_PHY_CTRL_MODE : Fld := ⟨0xb0000, 1024, 0x0, 2, 2, .ro⟩
def SHF_PHY_CTRL_TEST : Fld := ⟨0xb0000, 1024, 0x0, 1, 1, .rw⟩
def SHF_PHY_CTRL_ENABLE : Fld := ⟨0xb0000, 1024, 0x0, 0, 1, .ro⟩
def SHF_PHY_STATUS_LANE_POL : Fld := ⟨0xb0004, 1024, 0x0, 12, 4, .ro⟩
def SHF_PHY_STATUS_PRECODE_RX : Fld := ⟨0xb0004, 1024, 0x0, 11, 1, .ro⟩
def SHF_PHY_STATUS_PRECODE_TX : Fld := ⟨0xb0004, 1024, 0x0, 10, 1, .ro⟩
def SHF_PHY_STATUS_HOLD : Fld := ⟨0xb0004, 1024, 0x0, 9, 1, .ro⟩
def SHF_PHY_STATUS_CK_LOCK : Fld := ⟨0xb0004, 1024, 0x0, 8, 1, .ro⟩
def SHF_PHY_STATUS_LANE_OK : Fld := ⟨0xb0004, 1024, 0x0, 4, 4, .ro⟩
def SHF_PHY_STATUS_STATE : Fld := ⟨0xb0004, 1024, 0x0, 0, 4, .ro⟩
def SHF_PHY_EVENT_TRAIN_FAIL : Fld := ⟨0xb0008, 1024, 0x0, 7, 1, .w1c⟩
def SHF_PHY_EVENT_CLK_LOSS : Fld := ⟨0xb0008, 1024, 0x0, 6, 1, .w1c⟩
def SHF_PHY_EVENT_DESKEW_ERR : Fld := ⟨0xb0008, 1024, 0x0, 5, 1, .w1c⟩
def SHF_PHY_EVENT_RETRAIN : Fld := ⟨0xb0008, 1024, 0x0, 4, 1, .w1c⟩
def SHF_PHY_EVENT_LP_REFUSED : Fld := ⟨0xb0008, 1024, 0x0, 3, 1, .w1c⟩
def SHF_PHY_EVENT_DEEP : Fld := ⟨0xb0008, 1024, 0x0, 2, 1, .w1c⟩
def SHF_PHY_EVENT_QUIET : Fld := ⟨0xb0008, 1024, 0x0, 1, 1, .w1c⟩
def SHF_PHY_EVENT_UP : Fld := ⟨0xb0008, 1024, 0x0, 0, 1, .w1c⟩
def SHF_PHY_TIMING_CABLE_PS : Fld := ⟨0xb000c, 1024, 0x0, 0, 20, .ro⟩
def SHF_TX_EQ_0_PRE : Fld := ⟨0xb0010, 1024, 0x244, 8, 4, .rw⟩
def SHF_TX_EQ_0_POST : Fld := ⟨0xb0010, 1024, 0x244, 4, 4, .rw⟩
def SHF_TX_EQ_0_AMP : Fld := ⟨0xb0010, 1024, 0x244, 0, 3, .rw⟩
def SHF_TX_EQ_1_PRE : Fld := ⟨0xb0014, 1024, 0x244, 8, 4, .rw⟩
def SHF_TX_EQ_1_POST : Fld := ⟨0xb0014, 1024, 0x244, 4, 4, .rw⟩
def SHF_TX_EQ_1_AMP : Fld := ⟨0xb0014, 1024, 0x244, 0, 3, .rw⟩
def SHF_TX_EQ_2_PRE : Fld := ⟨0xb0018, 1024, 0x244, 8, 4, .rw⟩
def SHF_TX_EQ_2_POST : Fld := ⟨0xb0018, 1024, 0x244, 4, 4, .rw⟩
def SHF_TX_EQ_2_AMP : Fld := ⟨0xb0018, 1024, 0x244, 0, 3, .rw⟩
def SHF_TX_EQ_3_PRE : Fld := ⟨0xb001c, 1024, 0x244, 8, 4, .rw⟩
def SHF_TX_EQ_3_POST : Fld := ⟨0xb001c, 1024, 0x244, 4, 4, .rw⟩
def SHF_TX_EQ_3_AMP : Fld := ⟨0xb001c, 1024, 0x244, 0, 3, .rw⟩
def SHF_RX_STAT_0_EYE_MV : Fld := ⟨0xb0020, 1024, 0x0, 24, 8, .ro⟩
def SHF_RX_STAT_0_SKEW_UI : Fld := ⟨0xb0020, 1024, 0x0, 16, 6, .ro⟩
def SHF_RX_STAT_0_CTLE : Fld := ⟨0xb0020, 1024, 0x0, 0, 4, .ro⟩
def SHF_RX_STAT_1_EYE_MV : Fld := ⟨0xb0024, 1024, 0x0, 24, 8, .ro⟩
def SHF_RX_STAT_1_SKEW_UI : Fld := ⟨0xb0024, 1024, 0x0, 16, 6, .ro⟩
def SHF_RX_STAT_1_CTLE : Fld := ⟨0xb0024, 1024, 0x0, 0, 4, .ro⟩
def SHF_RX_STAT_2_EYE_MV : Fld := ⟨0xb0028, 1024, 0x0, 24, 8, .ro⟩
def SHF_RX_STAT_2_SKEW_UI : Fld := ⟨0xb0028, 1024, 0x0, 16, 6, .ro⟩
def SHF_RX_STAT_2_CTLE : Fld := ⟨0xb0028, 1024, 0x0, 0, 4, .ro⟩
def SHF_RX_STAT_3_EYE_MV : Fld := ⟨0xb002c, 1024, 0x0, 24, 8, .ro⟩
def SHF_RX_STAT_3_SKEW_UI : Fld := ⟨0xb002c, 1024, 0x0, 16, 6, .ro⟩
def SHF_RX_STAT_3_CTLE : Fld := ⟨0xb002c, 1024, 0x0, 0, 4, .ro⟩
def SHF_PAT_CTRL_INJ_RATE : Fld := ⟨0xb0030, 1024, 0x0, 20, 4, .rw⟩
def SHF_PAT_CTRL_WINDOW : Fld := ⟨0xb0030, 1024, 0x0, 16, 4, .rw⟩
def SHF_PAT_CTRL_INJ_LANES : Fld := ⟨0xb0030, 1024, 0x0, 12, 4, .rw⟩
def SHF_PAT_CTRL_INJ_ONE : Fld := ⟨0xb0030, 1024, 0x0, 11, 1, .wo⟩
def SHF_PAT_CTRL_CHK_LOCK : Fld := ⟨0xb0030, 1024, 0x0, 4, 4, .ro⟩
def SHF_PAT_CTRL_CHK_EN : Fld := ⟨0xb0030, 1024, 0x0, 3, 1, .rw⟩
def SHF_PAT_CTRL_GEN_EN : Fld := ⟨0xb0030, 1024, 0x0, 2, 1, .rw⟩
def SHF_PAT_CTRL_PATTERN : Fld := ⟨0xb0030, 1024, 0x0, 0, 2, .rw⟩
def SHF_PAT_ERR_0_BIT_ERR : Fld := ⟨0xb0040, 1024, 0x0, 0, 32, .rc⟩
def SHF_PAT_ERR_1_BIT_ERR : Fld := ⟨0xb0044, 1024, 0x0, 0, 32, .rc⟩
def SHF_PAT_ERR_2_BIT_ERR : Fld := ⟨0xb0048, 1024, 0x0, 0, 32, .rc⟩
def SHF_PAT_ERR_3_BIT_ERR : Fld := ⟨0xb004c, 1024, 0x0, 0, 32, .rc⟩
def SHF_PHY_CNT_RETRAINS : Fld := ⟨0xb0050, 1024, 0x0, 24, 8, .rc⟩
def SHF_PHY_CNT_CLK_LOSS : Fld := ⟨0xb0050, 1024, 0x0, 16, 8, .rc⟩
def SHF_PHY_CNT_TRAIN_FAIL : Fld := ⟨0xb0050, 1024, 0x0, 8, 8, .rc⟩
def SHF_PHY_CNT_DESKEW_ERR : Fld := ⟨0xb0050, 1024, 0x0, 0, 8, .rc⟩
def SHF_LNK_STATUS_REPLAY_USED : Fld := ⟨0xb0100, 1024, 0x0, 16, 12, .ro⟩
def SHF_LNK_STATUS_WR_OUT : Fld := ⟨0xb0100, 1024, 0x0, 5, 11, .ro⟩
def SHF_LNK_STATUS_SCRUB_IDLE : Fld := ⟨0xb0100, 1024, 0x0, 4, 1, .ro⟩
def SHF_LNK_STATUS_PM_PENDING : Fld := ⟨0xb0100, 1024, 0x0, 3, 1, .ro⟩
def SHF_LNK_STATUS_CREDIT_STALL : Fld := ⟨0xb0100, 1024, 0x0, 2, 1, .ro⟩
def SHF_LNK_STATUS_LINK_UP : Fld := ⟨0xb0100, 1024, 0x0, 1, 1, .ro⟩
def SHF_LNK_EVENT_LINK_DOWN : Fld := ⟨0xb0104, 1024, 0x0, 7, 1, .w1c⟩
def SHF_LNK_EVENT_WR_TIMEOUT : Fld := ⟨0xb0104, 1024, 0x0, 6, 1, .w1c⟩
def SHF_LNK_EVENT_LATE_WRITE : Fld := ⟨0xb0104, 1024, 0x0, 5, 1, .w1c⟩
def SHF_LNK_EVENT_TRIG_LOST : Fld := ⟨0xb0104, 1024, 0x0, 4, 1, .w1c⟩
def SHF_LNK_EVENT_PROTO_ERR : Fld := ⟨0xb0104, 1024, 0x0, 3, 1, .w1c⟩
def SHF_LNK_EVENT_RETRAIN_REQ : Fld := ⟨0xb0104, 1024, 0x0, 2, 1, .w1c⟩
def SHF_LNK_EVENT_REPLAY : Fld := ⟨0xb0104, 1024, 0x0, 1, 1, .w1c⟩
def SHF_LNK_EVENT_CRC_ERR : Fld := ⟨0xb0104, 1024, 0x0, 0, 1, .w1c⟩
def SHF_LNK_CNT0_CRC_ERR : Fld := ⟨0xb0108, 1024, 0x0, 16, 16, .rc⟩
def SHF_LNK_CNT0_REPLAYS : Fld := ⟨0xb0108, 1024, 0x0, 0, 16, .rc⟩
def SHF_LNK_CNT1_LATE_WRITE : Fld := ⟨0xb010c, 1024, 0x0, 16, 16, .rc⟩
def SHF_LNK_CNT1_NACK_SENT : Fld := ⟨0xb010c, 1024, 0x0, 0, 16, .rc⟩
def SHF_LNK_CNT2_PROTO_ERR : Fld := ⟨0xb0110, 1024, 0x0, 24, 8, .rc⟩
def SHF_LNK_CNT2_TRIG_LOST : Fld := ⟨0xb0110, 1024, 0x0, 16, 8, .rc⟩
def SHF_LNK_CNT2_WR_TIMEOUT : Fld := ⟨0xb0110, 1024, 0x0, 8, 8, .rc⟩
def SHF_LNK_CNT2_SCRUB_DROP : Fld := ⟨0xb0110, 1024, 0x0, 0, 8, .rc⟩
def SHF_WIN_SEL_INDEX : Fld := ⟨0xb4000, 0, 0x0, 0, 12, .rw⟩
def SHF_WIN_DATA0_GEN : Fld := ⟨0xb4004, 0, 0x0, 16, 16, .ro⟩
def SHF_WIN_DATA0_OWNER : Fld := ⟨0xb4004, 0, 0x0, 12, 4, .ro⟩
def SHF_WIN_DATA0_PORT : Fld := ⟨0xb4004, 0, 0x0, 8, 4, .ro⟩
def SHF_WIN_DATA0_GRANARY : Fld := ⟨0xb4004, 0, 0x0, 3, 1, .ro⟩
def SHF_WIN_DATA0_STATE : Fld := ⟨0xb4004, 0, 0x0, 1, 2, .ro⟩
def SHF_WIN_DATA1_TILLER : Fld := ⟨0xb4008, 0, 0x0, 26, 3, .ro⟩
def SHF_WIN_DATA1_BASE_KIB : Fld := ⟨0xb4008, 0, 0x0, 0, 26, .ro⟩
def SHF_WIN_DATA2_SIZE_KIB : Fld := ⟨0xb400c, 0, 0x0, 0, 21, .ro⟩
def SHF_WIN_SUMMARY_OPEN : Fld := ⟨0xb4010, 0, 0x0, 0, 13, .ro⟩
def INT_PORT_CFG_GROUP : Fld := ⟨0x80000, 256, 0x0, 16, 3, .ro⟩
def INT_PORT_CFG_MIRROR : Fld := ⟨0x80000, 256, 0x0, 15, 1, .ro⟩
def INT_PORT_CFG_REF_BAND : Fld := ⟨0x80000, 256, 0x0, 12, 3, .ro⟩
def INT_PORT_CFG_FILL : Fld := ⟨0x80000, 256, 0x0, 10, 2, .ro⟩
def INT_PORT_CFG_WIDTH : Fld := ⟨0x80000, 256, 0x0, 8, 2, .ro⟩
def INT_PORT_CFG_BANDS : Fld := ⟨0x80000, 256, 0x0, 5, 3, .ro⟩
def INT_PORT_CFG_MULT : Fld := ⟨0x80000, 256, 0x0, 2, 3, .ro⟩
def INT_PORT_CFG_ENABLE : Fld := ⟨0x80000, 256, 0x0, 0, 1, .ro⟩
def INT_PORT_GEOM_MIN_PERIOD : Fld := ⟨0x80004, 256, 0x0, 16, 16, .ro⟩
def INT_PORT_GEOM_PIXELS : Fld := ⟨0x80004, 256, 0x0, 0, 16, .ro⟩
def INT_PORT_FILL_FILL_CONST : Fld := ⟨0x80008, 256, 0x0, 0, 16, .ro⟩
def INT_PORT_LOFS_LINE_OFS : Fld := ⟨0x8000c, 256, 0x0, 0, 24, .ro⟩
def INT_PORT_POFS_PIX_OFS : Fld := ⟨0x80010, 256, 0x0, 0, 13, .ro⟩
def INT_PORT_STATUS_TRIG_LAT_NS : Fld := ⟨0x80014, 256, 0x0, 16, 16, .ro⟩
def INT_PORT_STATUS_MARKED : Fld := ⟨0x80014, 256, 0x0, 3, 1, .ro⟩
def INT_PORT_STATUS_IN_SERVICE : Fld := ⟨0x80014, 256, 0x0, 2, 1, .ro⟩
def INT_PORT_STATUS_HELD : Fld := ⟨0x80014, 256, 0x0, 1, 1, .ro⟩
def INT_PORT_STATUS_TRIGGERING : Fld := ⟨0x80014, 256, 0x0, 0, 1, .ro⟩
def INT_PORT_EVENT_CAM_ERR : Fld := ⟨0x80018, 256, 0x0, 7, 1, .w1c⟩
def INT_PORT_EVENT_EARLY_DROP : Fld := ⟨0x80018, 256, 0x0, 6, 1, .w1c⟩
def INT_PORT_EVENT_SWATH_MARKED : Fld := ⟨0x80018, 256, 0x0, 5, 1, .w1c⟩
def INT_PORT_EVENT_UNEXPECTED : Fld := ⟨0x80018, 256, 0x0, 4, 1, .w1c⟩
def INT_PORT_EVENT_HDR_ERR : Fld := ⟨0x80018, 256, 0x0, 3, 1, .w1c⟩
def INT_PORT_EVENT_LATE_ARRIVED : Fld := ⟨0x80018, 256, 0x0, 2, 1, .w1c⟩
def INT_PORT_EVENT_LATE : Fld := ⟨0x80018, 256, 0x0, 1, 1, .w1c⟩
def INT_PORT_EVENT_CRC_ERR : Fld := ⟨0x80018, 256, 0x0, 0, 1, .w1c⟩
def INT_PORT_CNT0_CRC_ERR : Fld := ⟨0x8001c, 256, 0x0, 16, 16, .rc⟩
def INT_PORT_CNT0_LATE : Fld := ⟨0x8001c, 256, 0x0, 0, 16, .rc⟩
def INT_PORT_CNT1_EARLY_DROP : Fld := ⟨0x80020, 256, 0x0, 16, 16, .rc⟩
def INT_PORT_CNT1_HDR_ERR : Fld := ⟨0x80020, 256, 0x0, 8, 8, .rc⟩
def INT_PORT_CNT1_UNEXPECTED : Fld := ⟨0x80020, 256, 0x0, 0, 8, .rc⟩
def INT_PORT_CNT2_MARKED_SWATHS : Fld := ⟨0x80024, 256, 0x0, 16, 16, .rc⟩
def INT_PORT_CNT2_LATE_ARRIVED : Fld := ⟨0x80024, 256, 0x0, 8, 8, .rc⟩
def INT_PORT_CNT2_CAM_ERR : Fld := ⟨0x80024, 256, 0x0, 0, 8, .rc⟩
def INT_PORT_LAST_BAD_LINES : Fld := ⟨0x80028, 256, 0x0, 16, 16, .ro⟩
def INT_PORT_LAST_FILLED_LINES : Fld := ⟨0x80028, 256, 0x0, 0, 16, .ro⟩
def INT_LOAD_PORT_PERMILLE : Fld := ⟨0x81000, 0, 0x0, 16, 10, .ro⟩
def INT_LOAD_AGG_PERMILLE : Fld := ⟨0x81000, 0, 0x0, 0, 10, .ro⟩
def INT_ALIGN_CTRL_TIMEOUT_S : Fld := ⟨0x81004, 0, 0x3c0000, 16, 16, .ro⟩
def INT_ALIGN_CTRL_APPLY : Fld := ⟨0x81004, 0, 0x3c0000, 7, 1, .rw⟩
def INT_ALIGN_CTRL_GROUP : Fld := ⟨0x81004, 0, 0x3c0000, 4, 3, .rw⟩
def INT_ALIGN_CTRL_START : Fld := ⟨0x81004, 0, 0x3c0000, 0, 1, .wo⟩
def INT_ALIGN_STATUS_FAIL : Fld := ⟨0x81008, 0, 0x0, 12, 4, .ro⟩
def INT_ALIGN_STATUS_PASS : Fld := ⟨0x81008, 0, 0x0, 8, 2, .ro⟩
def INT_ALIGN_STATUS_STATE : Fld := ⟨0x81008, 0, 0x0, 0, 2, .ro⟩
def INT_ALIGN_RES_L_LINE_OFS : Fld := ⟨0x81040, 8, 0x0, 0, 24, .ro⟩
def INT_ALIGN_RES_P_PIX_OFS : Fld := ⟨0x81044, 8, 0x0, 0, 13, .ro⟩
def INT_ISP_PORT_CFG_CHANNELS : Fld := ⟨0x82000, 4, 0x0, 12, 3, .ro⟩
def INT_ISP_PORT_CFG_OUT_TYPE : Fld := ⟨0x82000, 4, 0x0, 10, 2, .ro⟩
def INT_ISP_PORT_CFG_CSC : Fld := ⟨0x82000, 4, 0x0, 8, 2, .ro⟩
def INT_ISP_PORT_CFG_STAGE_EN : Fld := ⟨0x82000, 4, 0x0, 0, 6, .ro⟩
def INT_ISP_CTRL_HOST_WRITE : Fld := ⟨0x82100, 0, 0x0, 8, 1, .ro⟩
def INT_ISP_CTRL_SWAP : Fld := ⟨0x82100, 0, 0x0, 0, 1, .wo⟩
def INT_ISP_STATUS_SWAPS : Fld := ⟨0x82104, 0, 0x0, 16, 16, .rc⟩
def INT_ISP_STATUS_CHECK : Fld := ⟨0x82104, 0, 0x0, 8, 4, .ro⟩
def INT_ISP_STATUS_COPYING : Fld := ⟨0x82104, 0, 0x0, 2, 1, .ro⟩
def INT_ISP_STATUS_SWAP_PENDING : Fld := ⟨0x82104, 0, 0x0, 1, 1, .ro⟩
def INT_ISP_STATUS_ACTIVE_SET : Fld := ⟨0x82104, 0, 0x0, 0, 1, .ro⟩
def INT_ISP_EVENT_SWAP_REFUSED : Fld := ⟨0x82108, 0, 0x0, 1, 1, .w1c⟩
def INT_ISP_EVENT_SWAPPED : Fld := ⟨0x82108, 0, 0x0, 0, 1, .w1c⟩
def INT_ISP_ADDR_ADDR : Fld := ⟨0x8210c, 0, 0x0, 2, 22, .rw⟩
def INT_ISP_DATA_DATA : Fld := ⟨0x82110, 0, 0x0, 0, 32, .rw⟩
def INT_ISP_NEXT_ID_NEXT_ID : Fld := ⟨0x82114, 0, 0x0, 0, 32, .rw⟩
def INT_ISP_SET_ID_SET_ID : Fld := ⟨0x82118, 0, 0x0, 0, 32, .ro⟩
def INT_ISP_PROBE_CTRL_DONE : Fld := ⟨0x8211c, 0, 0x0, 31, 1, .ro⟩
def INT_ISP_PROBE_CTRL_ARM : Fld := ⟨0x8211c, 0, 0x0, 20, 1, .wo⟩
def INT_ISP_PROBE_CTRL_PORT : Fld := ⟨0x8211c, 0, 0x0, 16, 4, .rw⟩
def INT_ISP_PROBE_CTRL_COLUMN : Fld := ⟨0x8211c, 0, 0x0, 0, 15, .rw⟩
def INT_ISP_PROBE_D0_S3_B1 : Fld := ⟨0x82120, 0, 0x0, 16, 16, .ro⟩
def INT_ISP_PROBE_D0_S3_B0 : Fld := ⟨0x82120, 0, 0x0, 0, 16, .ro⟩
def INT_ISP_PROBE_D1_S6_C0 : Fld := ⟨0x82124, 0, 0x0, 16, 16, .ro⟩
def INT_ISP_PROBE_D1_S3_B2 : Fld := ⟨0x82124, 0, 0x0, 0, 16, .ro⟩
def INT_ISP_PROBE_D2_S6_C2 : Fld := ⟨0x82128, 0, 0x0, 16, 16, .ro⟩
def INT_ISP_PROBE_D2_S6_C1 : Fld := ⟨0x82128, 0, 0x0, 0, 16, .ro⟩
def INT_ISP_PROBE_D3_S7_C2 : Fld := ⟨0x8212c, 0, 0x0, 16, 8, .ro⟩
def INT_ISP_PROBE_D3_S7_C1 : Fld := ⟨0x8212c, 0, 0x0, 8, 8, .ro⟩
def INT_ISP_PROBE_D3_S7_C0 : Fld := ⟨0x8212c, 0, 0x0, 0, 8, .ro⟩
def CHF_CTRL_HOST_WRITE : Fld := ⟨0xa0000, 0, 0x0, 8, 1, .ro⟩
def CHF_CTRL_SWAP : Fld := ⟨0xa0000, 0, 0x0, 0, 1, .wo⟩
def CHF_STATUS_SWAPS : Fld := ⟨0xa0004, 0, 0x0, 16, 16, .rc⟩
def CHF_STATUS_CHECK : Fld := ⟨0xa0004, 0, 0x0, 8, 4, .ro⟩
def CHF_STATUS_LOAD_BUSY : Fld := ⟨0xa0004, 0, 0x0, 3, 1, .ro⟩
def CHF_STATUS_LAST_PAIR : Fld := ⟨0xa0004, 0, 0x0, 2, 1, .ro⟩
def CHF_STATUS_STATE : Fld := ⟨0xa0004, 0, 0x0, 0, 2, .ro⟩
def CHF_EVENT_OVERFLOW : Fld := ⟨0xa0008, 0, 0x0, 6, 1, .w1c⟩
def CHF_EVENT_CHAFF_LOST : Fld := ⟨0xa0008, 0, 0x0, 5, 1, .w1c⟩
def CHF_EVENT_PARITY : Fld := ⟨0xa0008, 0, 0x0, 4, 1, .w1c⟩
def CHF_EVENT_LOAD_ERR : Fld := ⟨0xa0008, 0, 0x0, 3, 1, .w1c⟩
def CHF_EVENT_LOAD_DONE : Fld := ⟨0xa0008, 0, 0x0, 2, 1, .w1c⟩
def CHF_EVENT_SWAP_REFUSED : Fld := ⟨0xa0008, 0, 0x0, 1, 1, .w1c⟩
def CHF_EVENT_SWAPPED : Fld := ⟨0xa0008, 0, 0x0, 0, 1, .w1c⟩
def CHF_LOAD_ADDR_LO_ADDR_LO : Fld := ⟨0xa000c, 0, 0x0, 12, 20, .rw⟩
def CHF_LOAD_ADDR_HI_ADDR_HI : Fld := ⟨0xa0010, 0, 0x0, 0, 32, .rw⟩
def CHF_LOAD_CTRL_GO : Fld := ⟨0xa0014, 0, 0x0, 31, 1, .wo⟩
def CHF_LOAD_CTRL_COUNT : Fld := ⟨0xa0014, 0, 0x0, 12, 12, .rw⟩
def CHF_LOAD_CTRL_PAGE : Fld := ⟨0xa0014, 0, 0x0, 0, 12, .rw⟩
def CHF_NEXT_ID_NEXT_ID : Fld := ⟨0xa0018, 0, 0x0, 0, 32, .rw⟩
def CHF_TABLE_ID_TABLE_ID : Fld := ⟨0xa001c, 0, 0x0, 0, 32, .ro⟩
def CHF_PEEK_ENTRY : Fld := ⟨0xa0020, 0, 0x0, 24, 8, .ro⟩
def CHF_PEEK_ADDR : Fld := ⟨0xa0020, 0, 0x0, 0, 24, .rw⟩
def CHF_OBJ_CFG_STEER_MARGIN : Fld := ⟨0xa0024, 0, 0x41, 16, 8, .ro⟩
def CHF_OBJ_CFG_CROP_PAD : Fld := ⟨0xa0024, 0, 0x41, 8, 8, .ro⟩
def CHF_OBJ_CFG_MAX_SWATHS : Fld := ⟨0xa0024, 0, 0x41, 4, 4, .ro⟩
def CHF_OBJ_CFG_CONN8 : Fld := ⟨0xa0024, 0, 0x41, 0, 1, .ro⟩
def CHF_OBJ_LIMITS_STEER_KIB : Fld := ⟨0xa0028, 0, 0x1, 16, 16, .ro⟩
def CHF_OBJ_LIMITS_MIN_AREA : Fld := ⟨0xa0028, 0, 0x1, 0, 16, .ro⟩
def CHF_OBJ_CNT0_LAST_TICK : Fld := ⟨0xa0030, 0, 0x0, 16, 16, .ro⟩
def CHF_OBJ_CNT0_OVERFLOW : Fld := ⟨0xa0030, 0, 0x0, 0, 16, .rc⟩
def CHF_OBJ_CNT1_LOST_OBJ : Fld := ⟨0xa0034, 0, 0x0, 24, 8, .rc⟩
def CHF_OBJ_CNT1_LABEL_FULL : Fld := ⟨0xa0034, 0, 0x0, 16, 8, .rc⟩
def CHF_OBJ_CNT1_SMALL : Fld := ⟨0xa0034, 0, 0x0, 8, 8, .rc⟩
def CHF_OBJ_CNT1_PARITY : Fld := ⟨0xa0034, 0, 0x0, 0, 8, .rc⟩
def CHF_PORT_CH_CONTEXT : Fld := ⟨0xa0100, 8, 0x0, 24, 4, .ro⟩
def CHF_PORT_CH_CHAFF_EN : Fld := ⟨0xa0100, 8, 0x0, 20, 1, .ro⟩
def CHF_PORT_CH_SPLIT : Fld := ⟨0xa0100, 8, 0x0, 18, 2, .ro⟩
def CHF_PORT_CH_CH : Fld := ⟨0xa0100, 8, 0x0, 0, 18, .ro⟩
def CHF_PORT_LSB_LSB : Fld := ⟨0xa0104, 8, 0x0, 0, 24, .ro⟩
def TIL_STATUS_INFLIGHT : Fld := ⟨0x40000, 16384, 0x5, 16, 11, .ro⟩
def TIL_STATUS_CONTEXT : Fld := ⟨0x40000, 16384, 0x5, 12, 4, .ro⟩
def TIL_STATUS_EXACT : Fld := ⟨0x40000, 16384, 0x5, 8, 1, .ro⟩
def TIL_STATUS_STATE : Fld := ⟨0x40000, 16384, 0x5, 0, 4, .ro⟩
def TIL_ARITH_LIB_VER : Fld := ⟨0x40004, 16384, 0x0, 8, 16, .ro⟩
def TIL_ARITH_AR : Fld := ⟨0x40004, 16384, 0x0, 0, 8, .ro⟩
def TIL_EVENT_QUARANTINED : Fld := ⟨0x40008, 16384, 0x0, 5, 1, .w1c⟩
def TIL_EVENT_DATA_CHECK : Fld := ⟨0x40008, 16384, 0x0, 4, 1, .w1c⟩
def TIL_EVENT_KILLED : Fld := ⟨0x40008, 16384, 0x0, 3, 1, .w1c⟩
def TIL_EVENT_BAD_DESC : Fld := ⟨0x40008, 16384, 0x0, 2, 1, .w1c⟩
def TIL_EVENT_NAN_INT : Fld := ⟨0x40008, 16384, 0x0, 1, 1, .w1c⟩
def TIL_EVENT_SAT : Fld := ⟨0x40008, 16384, 0x0, 0, 1, .w1c⟩
def TIL_CMD_CNT_COMPLETED : Fld := ⟨0x4000c, 16384, 0x0, 0, 32, .rc⟩
def TIL_ERR_CNT_KILLED : Fld := ⟨0x40010, 16384, 0x0, 16, 16, .rc⟩
def TIL_ERR_CNT_DATA_CHECK : Fld := ⟨0x40010, 16384, 0x0, 8, 8, .rc⟩
def TIL_ERR_CNT_BAD_DESC : Fld := ⟨0x40010, 16384, 0x0, 0, 8, .rc⟩
def TIL_ARITH_CNT_SAT : Fld := ⟨0x40014, 16384, 0x0, 16, 16, .rc⟩
def TIL_ARITH_CNT_NAN_INT : Fld := ⟨0x40014, 16384, 0x0, 0, 16, .rc⟩
def TIL_UTIL_BUSY : Fld := ⟨0x40018, 16384, 0x0, 16, 10, .ro⟩
def TIL_UTIL_UTIL : Fld := ⟨0x40018, 16384, 0x0, 0, 10, .ro⟩
def TIL_CLK_FREQ_MHZ : Fld := ⟨0x4001c, 16384, 0x0, 0, 16, .ro⟩
def TIL_BIN_SEL_CONTEXT : Fld := ⟨0x40100, 16384, 0x0, 6, 4, .rw⟩
def TIL_BIN_SEL_HANDLE : Fld := ⟨0x40100, 16384, 0x0, 0, 6, .rw⟩
def TIL_BIN_DATA0_VALID : Fld := ⟨0x40104, 16384, 0x0, 31, 1, .ro⟩
def TIL_BIN_DATA0_SPACE : Fld := ⟨0x40104, 16384, 0x0, 29, 2, .ro⟩
def TIL_BIN_DATA0_VIEW : Fld := ⟨0x40104, 16384, 0x0, 28, 1, .ro⟩
def TIL_BIN_DATA0_ACC : Fld := ⟨0x40104, 16384, 0x0, 27, 1, .ro⟩
def TIL_BIN_DATA0_CUR : Fld := ⟨0x40104, 16384, 0x0, 26, 1, .ro⟩
def TIL_BIN_DATA0_KIND : Fld := ⟨0x40104, 16384, 0x0, 24, 2, .ro⟩
def TIL_BIN_DATA0_OWNER : Fld := ⟨0x40104, 16384, 0x0, 20, 4, .ro⟩
def TIL_BIN_DATA0_GEN : Fld := ⟨0x40104, 16384, 0x0, 0, 16, .ro⟩
def TIL_BIN_DATA1_BASE_OR_WINDOW : Fld := ⟨0x40108, 16384, 0x0, 0, 32, .ro⟩
def TIL_BIN_DATA2_SIZE : Fld := ⟨0x4010c, 16384, 0x0, 0, 26, .ro⟩
def TIL_BIN_DATA3_STRIDE : Fld := ⟨0x40110, 16384, 0x0, 0, 24, .ro⟩
def TIL_GRN_STATUS_FREE_LINES : Fld := ⟨0x40114, 16384, 0x40000000, 16, 15, .ro⟩
def TIL_GRN_STATUS_STAGE_LINES : Fld := ⟨0x40114, 16384, 0x40000000, 0, 15, .ro⟩
def TIL_GRN_CNT_OWNER_FAULT : Fld := ⟨0x40118, 16384, 0x0, 24, 8, .rc⟩
def TIL_GRN_CNT_HANDLE_INVALID : Fld := ⟨0x40118, 16384, 0x0, 16, 8, .rc⟩
def TIL_GRN_CNT_HBM_CRC : Fld := ⟨0x40118, 16384, 0x0, 8, 8, .rc⟩
def TIL_GRN_CNT_PARITY : Fld := ⟨0x40118, 16384, 0x0, 0, 8, .rc⟩
def TIL_HUSK_LAST_COUNT : Fld := ⟨0x4011c, 16384, 0x0, 16, 16, .rc⟩
def TIL_HUSK_LAST_REASON : Fld := ⟨0x4011c, 16384, 0x0, 0, 4, .ro⟩
def GEN_PROG_SEL_CONTEXT : Fld := ⟨0x100, 0, 0x0, 0, 4, .rw⟩
def GEN_PROG_STATUS_REASON : Fld := ⟨0x104, 0, 0x0, 24, 4, .ro⟩
def GEN_PROG_STATUS_PHYSICAL : Fld := ⟨0x104, 0, 0x0, 20, 4, .ro⟩
def GEN_PROG_STATUS_LOGICAL : Fld := ⟨0x104, 0, 0x0, 16, 4, .ro⟩
def GEN_PROG_STATUS_SPLIT_READY : Fld := ⟨0x104, 0, 0x0, 7, 1, .ro⟩
def GEN_PROG_STATUS_SPLIT : Fld := ⟨0x104, 0, 0x0, 6, 1, .ro⟩
def GEN_PROG_STATUS_DLB_ON : Fld := ⟨0x104, 0, 0x0, 5, 1, .ro⟩
def GEN_PROG_STATUS_EXACT : Fld := ⟨0x104, 0, 0x0, 4, 1, .ro⟩
def GEN_PROG_STATUS_SEALED : Fld := ⟨0x104, 0, 0x0, 3, 1, .ro⟩
def GEN_PROG_STATUS_FOLDED : Fld := ⟨0x104, 0, 0x0, 2, 1, .ro⟩
def GEN_PROG_STATUS_STATE : Fld := ⟨0x104, 0, 0x0, 0, 2, .ro⟩
def GEN_PROG_WC_NS_WC_NS : Fld := ⟨0x108, 0, 0x0, 0, 32, .ro⟩
def GEN_PLACE_MAP_MAP : Fld := ⟨0x10c, 0, 0xffffffff, 0, 32, .ro⟩
def GEN_PLACE_SEQ_SEQ : Fld := ⟨0x110, 0, 0x0, 0, 32, .ro⟩
def GEN_PLACE_EVENT_PEER_LATE : Fld := ⟨0x114, 0, 0x0, 4, 1, .w1c⟩
def GEN_PLACE_EVENT_OVERRUN : Fld := ⟨0x114, 0, 0x0, 3, 1, .w1c⟩
def GEN_PLACE_EVENT_REFUSED : Fld := ⟨0x114, 0, 0x0, 2, 1, .w1c⟩
def GEN_PLACE_EVENT_UNPLACED : Fld := ⟨0x114, 0, 0x0, 1, 1, .w1c⟩
def GEN_PLACE_EVENT_REPLACED : Fld := ⟨0x114, 0, 0x0, 0, 1, .w1c⟩
def GEN_STAGE_CNT_JUDGE : Fld := ⟨0x118, 0, 0x0, 16, 16, .rc⟩
def GEN_STAGE_CNT_PREPARE : Fld := ⟨0x118, 0, 0x0, 8, 8, .rc⟩
def GEN_STAGE_CNT_EJECT : Fld := ⟨0x118, 0, 0x0, 0, 8, .rc⟩
def GEN_DLB_CNT_MOVES : Fld := ⟨0x11c, 0, 0x0, 0, 32, .rc⟩
def GEN_REC_ADDR_ADDR : Fld := ⟨0x120, 0, 0x0, 2, 14, .rw⟩
def GEN_REC_DATA_DATA : Fld := ⟨0x124, 0, 0x0, 0, 32, .ro⟩
def GEN_PREP_WC_NS_WC_NS : Fld := ⟨0x128, 0, 0x0, 0, 32, .ro⟩
def QUE_Q_SEL_QUEUE : Fld := ⟨0x20000, 0, 0x0, 0, 16, .rw⟩
def QUE_Q_CFG_STATE : Fld := ⟨0x20004, 0, 0x0, 30, 2, .ro⟩
def QUE_Q_CFG_CLASS : Fld := ⟨0x20004, 0, 0x0, 29, 1, .ro⟩
def QUE_Q_CFG_HBM_RING : Fld := ⟨0x20004, 0, 0x0, 28, 1, .ro⟩
def QUE_Q_CFG_CR : Fld := ⟨0x20004, 0, 0x0, 16, 8, .rw⟩
def QUE_Q_CFG_ORDERED : Fld := ⟨0x20004, 0, 0x0, 15, 1, .rw⟩
def QUE_Q_CFG_LTILLER : Fld := ⟨0x20004, 0, 0x0, 8, 3, .rw⟩
def QUE_Q_CFG_LOG2_SIZE : Fld := ⟨0x20004, 0, 0x0, 0, 5, .rw⟩
def QUE_Q_RING_LO_BASE_LO : Fld := ⟨0x20008, 0, 0x0, 12, 20, .rw⟩
def QUE_Q_RING_HI_BASE_HI : Fld := ⟨0x2000c, 0, 0x0, 0, 32, .rw⟩
def QUE_Q_CMD_OP : Fld := ⟨0x20010, 0, 0x0, 0, 2, .wo⟩
def QUE_CR_SEL_CR : Fld := ⟨0x20020, 0, 0x0, 0, 12, .rw⟩
def QUE_CR_CFG_ENABLE : Fld := ⟨0x20024, 0, 0x0, 31, 1, .rw⟩
def QUE_CR_CFG_COAL_US : Fld := ⟨0x20024, 0, 0x0, 24, 6, .rw⟩
def QUE_CR_CFG_VECTOR : Fld := ⟨0x20024, 0, 0x0, 13, 11, .rw⟩
def QUE_CR_CFG_COAL_N : Fld := ⟨0x20024, 0, 0x0, 5, 8, .rw⟩
def QUE_CR_CFG_LOG2_SIZE : Fld := ⟨0x20024, 0, 0x0, 0, 5, .rw⟩
def QUE_CR_BASE_LO_BASE_LO : Fld := ⟨0x20028, 0, 0x0, 12, 20, .rw⟩
def QUE_CR_BASE_HI_BASE_HI : Fld := ⟨0x2002c, 0, 0x0, 0, 32, .rw⟩
def QUE_CR_HEAD_CR : Fld := ⟨0x20030, 0, 0x0, 20, 12, .rw⟩
def QUE_CR_HEAD_HEAD : Fld := ⟨0x20030, 0, 0x0, 0, 17, .rw⟩
def QUE_CR_TAIL_TAIL : Fld := ⟨0x20034, 0, 0x0, 0, 17, .ro⟩
def QUE_CTX_SEL_CONTEXT : Fld := ⟨0x20040, 0, 0x0, 0, 4, .rw⟩
def QUE_CTX_CMD_BUSY : Fld := ⟨0x20044, 0, 0x0, 31, 1, .ro⟩
def QUE_CTX_CMD_SHARE : Fld := ⟨0x20044, 0, 0x0, 16, 8, .wo⟩
def QUE_CTX_CMD_LOGICAL : Fld := ⟨0x20044, 0, 0x0, 8, 4, .wo⟩
def QUE_CTX_CMD_CONF : Fld := ⟨0x20044, 0, 0x0, 3, 1, .wo⟩
def QUE_CTX_CMD_OP : Fld := ⟨0x20044, 0, 0x0, 0, 3, .wo⟩
def QUE_CTX_ARG_LO_ADDR_LO : Fld := ⟨0x20048, 0, 0x0, 12, 20, .rw⟩
def QUE_CTX_ARG_HI_ADDR_HI : Fld := ⟨0x2004c, 0, 0x0, 0, 32, .rw⟩
def QUE_CTX_STATUS_SHARE : Fld := ⟨0x20050, 0, 0x0, 16, 8, .ro⟩
def QUE_CTX_STATUS_RESULT : Fld := ⟨0x20050, 0, 0x0, 12, 4, .ro⟩
def QUE_CTX_STATUS_LOGICAL : Fld := ⟨0x20050, 0, 0x0, 8, 4, .ro⟩
def QUE_CTX_STATUS_CONF : Fld := ⟨0x20050, 0, 0x0, 3, 1, .ro⟩
def QUE_CTX_STATUS_STATE : Fld := ⟨0x20050, 0, 0x0, 0, 3, .ro⟩
def QUE_CTX_TIME_LO_TIME_LO : Fld := ⟨0x20054, 0, 0x0, 0, 32, .ro⟩
def QUE_CTX_TIME_HI_TIME_HI : Fld := ⟨0x20058, 0, 0x0, 0, 16, .ro⟩
def QUE_CTX_SLOW_KILLS : Fld := ⟨0x2005c, 0, 0x0, 16, 16, .ro⟩
def QUE_CTX_SLOW_SLOW : Fld := ⟨0x2005c, 0, 0x0, 0, 16, .ro⟩
def QUE_INFLIGHT_BE : Fld := ⟨0x20060, 0, 0x0, 16, 14, .ro⟩
def QUE_INFLIGHT_TOTAL : Fld := ⟨0x20060, 0, 0x0, 0, 14, .ro⟩
def QUE_EVENT_CTX_DONE : Fld := ⟨0x20064, 0, 0x0, 7, 1, .w1c⟩
def QUE_EVENT_PREEMPT_LIMIT : Fld := ⟨0x20064, 0, 0x0, 6, 1, .w1c⟩
def QUE_EVENT_FETCH_ERR : Fld := ⟨0x20064, 0, 0x0, 5, 1, .w1c⟩
def QUE_EVENT_CR_LOST : Fld := ⟨0x20064, 0, 0x0, 4, 1, .w1c⟩
def QUE_EVENT_DENIED : Fld := ⟨0x20064, 0, 0x0, 3, 1, .w1c⟩
def QUE_EVENT_DB_DROP : Fld := ⟨0x20064, 0, 0x0, 2, 1, .w1c⟩
def QUE_EVENT_OVERFLOW : Fld := ⟨0x20064, 0, 0x0, 1, 1, .w1c⟩
def QUE_CNT_KILLS : Fld := ⟨0x20068, 0, 0x0, 16, 16, .rc⟩
def QUE_CNT_DB_DROP : Fld := ⟨0x20068, 0, 0x0, 8, 8, .rc⟩
def QUE_CNT_CR_LOST : Fld := ⟨0x20068, 0, 0x0, 0, 8, .rc⟩
def QUE_HOST_MASK_MASK : Fld := ⟨0x2006c, 0, 0x0, 0, 16, .ro⟩
def GEN_CHECK_CFG_QUAR_RATE : Fld := ⟨0x200, 0, 0x1001, 8, 8, .ro⟩
def GEN_CHECK_CFG_AUTO_RETURN : Fld := ⟨0x200, 0, 0x1001, 0, 1, .ro⟩
def GEN_CHECK_EVENT_SELFTEST_FAIL : Fld := ⟨0x204, 0, 0x0, 11, 1, .w1c⟩
def GEN_CHECK_EVENT_RETURNED : Fld := ⟨0x204, 0, 0x0, 10, 1, .w1c⟩
def GEN_CHECK_EVENT_COPY_LOST : Fld := ⟨0x204, 0, 0x0, 9, 1, .w1c⟩
def GEN_CHECK_EVENT_PAGE_RETIRED : Fld := ⟨0x204, 0, 0x0, 8, 1, .w1c⟩
def GEN_CHECK_EVENT_MISS : Fld := ⟨0x204, 0, 0x0, 7, 1, .w1c⟩
def GEN_CHECK_EVENT_INPUT_SUSPECT : Fld := ⟨0x204, 0, 0x0, 6, 1, .w1c⟩
def GEN_CHECK_EVENT_QUARANTINE : Fld := ⟨0x204, 0, 0x0, 5, 1, .w1c⟩
def GEN_CHECK_EVENT_REFETCH : Fld := ⟨0x204, 0, 0x0, 4, 1, .w1c⟩
def GEN_CHECK_EVENT_HBM : Fld := ⟨0x204, 0, 0x0, 3, 1, .w1c⟩
def GEN_CHECK_EVENT_RACHIS : Fld := ⟨0x204, 0, 0x0, 2, 1, .w1c⟩
def GEN_CHECK_EVENT_SRAM : Fld := ⟨0x204, 0, 0x0, 1, 1, .w1c⟩
def GEN_CHECK_EVENT_COMPUTE : Fld := ⟨0x204, 0, 0x0, 0, 1, .w1c⟩
def GEN_CHECK_CNT0_COMPUTE : Fld := ⟨0x208, 0, 0x0, 16, 16, .rc⟩
def GEN_CHECK_CNT0_SRAM : Fld := ⟨0x208, 0, 0x0, 0, 16, .rc⟩
def GEN_CHECK_CNT1_RACHIS_HOP : Fld := ⟨0x20c, 0, 0x0, 16, 16, .rc⟩
def GEN_CHECK_CNT1_HBM : Fld := ⟨0x20c, 0, 0x0, 0, 16, .rc⟩
def GEN_CHECK_CNT2_REFETCH : Fld := ⟨0x210, 0, 0x0, 24, 8, .rc⟩
def GEN_CHECK_CNT2_FAILED : Fld := ⟨0x210, 0, 0x0, 16, 8, .rc⟩
def GEN_CHECK_CNT2_MISS : Fld := ⟨0x210, 0, 0x0, 8, 8, .rc⟩
def GEN_CHECK_CNT2_RETIRED : Fld := ⟨0x210, 0, 0x0, 0, 8, .rc⟩
def GEN_CHECK_LAST_SOURCE : Fld := ⟨0x214, 0, 0x0, 28, 4, .ro⟩
def GEN_CHECK_LAST_CONTEXT : Fld := ⟨0x214, 0, 0x0, 24, 4, .ro⟩
def GEN_CHECK_LAST_TILLER : Fld := ⟨0x214, 0, 0x0, 20, 4, .ro⟩
def GEN_CHECK_LAST_RUN : Fld := ⟨0x214, 0, 0x0, 16, 4, .ro⟩
def GEN_CHECK_INJ_ARM : Fld := ⟨0x218, 0, 0x0, 31, 1, .wo⟩
def GEN_CHECK_INJ_TARGET : Fld := ⟨0x218, 0, 0x0, 24, 3, .rw⟩
def GEN_CHECK_INJ_KIND : Fld := ⟨0x218, 0, 0x0, 0, 3, .rw⟩
def GEN_CHECK_SPARE_SPARE_PAGES : Fld := ⟨0x21c, 0, 0x400, 0, 11, .ro⟩
def EJC_CFG_LEARN : Fld := ⟨0xd0000, 0, 0xa001f, 24, 1, .ro⟩
def EJC_CFG_SEND_AHEAD : Fld := ⟨0xd0000, 0, 0xa001f, 16, 8, .ro⟩
def EJC_CFG_OVERFLOW_ACTION : Fld := ⟨0xd0000, 0, 0xa001f, 12, 2, .ro⟩
def EJC_CFG_VOID_ACTION : Fld := ⟨0xd0000, 0, 0xa001f, 10, 2, .ro⟩
def EJC_CFG_DEFAULT_ACTION : Fld := ⟨0xd0000, 0, 0xa001f, 8, 2, .ro⟩
def EJC_CFG_INHIBIT_DI : Fld := ⟨0xd0000, 0, 0xa001f, 0, 5, .ro⟩
def EJC_STATUS_INHIBITED : Fld := ⟨0xd0004, 0, 0x0, 16, 1, .ro⟩
def EJC_STATUS_AWN_UP : Fld := ⟨0xd0004, 0, 0x0, 0, 8, .ro⟩
def EJC_EVENT_BOARD_LOST : Fld := ⟨0xd0008, 0, 0x0, 5, 1, .w1c⟩
def EJC_EVENT_BOARD_FAULT : Fld := ⟨0xd0008, 0, 0x0, 4, 1, .w1c⟩
def EJC_EVENT_LAT_OUTLIER : Fld := ⟨0xd0008, 0, 0x0, 3, 1, .w1c⟩
def EJC_EVENT_INHIBITED : Fld := ⟨0xd0008, 0, 0x0, 2, 1, .w1c⟩
def EJC_EVENT_DROPPED : Fld := ⟨0xd0008, 0, 0x0, 1, 1, .w1c⟩
def EJC_EVENT_LATE_FIRE : Fld := ⟨0xd0008, 0, 0x0, 0, 1, .w1c⟩
def EJC_CNT0_LATE_FIRE : Fld := ⟨0xd000c, 0, 0x0, 16, 16, .rc⟩
def EJC_CNT0_DROPPED : Fld := ⟨0xd000c, 0, 0x0, 0, 16, .rc⟩
def EJC_CNT1_LAT_OUTLIER : Fld := ⟨0xd0010, 0, 0x0, 24, 8, .rc⟩
def EJC_CNT1_INHIBITED : Fld := ⟨0xd0010, 0, 0x0, 16, 8, .rc⟩
def EJC_CNT1_MERGED : Fld := ⟨0xd0010, 0, 0x0, 0, 16, .rc⟩
def EJC_LAT_SEL_VALVE : Fld := ⟨0xd0014, 0, 0x0, 0, 12, .rw⟩
def EJC_LAT_SAMPLES : Fld := ⟨0xd0018, 0, 0x0, 24, 8, .ro⟩
def EJC_LAT_L_ON : Fld := ⟨0xd0018, 0, 0x0, 0, 24, .ro⟩
def EJC_AWN_STATUS_PRESENT : Fld := ⟨0xd0100, 16, 0x0, 24, 8, .ro⟩
def EJC_AWN_STATUS_FAULT : Fld := ⟨0xd0100, 16, 0x0, 16, 8, .ro⟩
def EJC_AWN_STATUS_STATE : Fld := ⟨0xd0100, 16, 0x0, 0, 2, .ro⟩
def EJC_AWN_CNT_RESENT : Fld := ⟨0xd0104, 16, 0x0, 16, 16, .rc⟩
def EJC_AWN_CNT_CRC_ERR : Fld := ⟨0xd0104, 16, 0x0, 8, 8, .rc⟩
def EJC_AWN_CNT_MISSED_POLLS : Fld := ⟨0xd0104, 16, 0x0, 0, 8, .rc⟩
def FIO_DI_STATE : Fld := ⟨0xd8000, 0, 0x0, 0, 24, .ro⟩
def FIO_DI_WB_WB_EN : Fld := ⟨0xd8004, 0, 0x0, 0, 24, .ro⟩
def FIO_DO_MODE_MODE : Fld := ⟨0xd8008, 0, 0x0, 0, 32, .ro⟩
def FIO_DO_SRC_LO_SRC : Fld := ⟨0xd800c, 0, 0x0, 0, 32, .ro⟩
def FIO_DO_SRC_HI_SRC : Fld := ⟨0xd8010, 0, 0x0, 0, 32, .ro⟩
def FIO_DO_SET_SET : Fld := ⟨0xd8014, 0, 0x0, 0, 16, .rw⟩
def FIO_DO_STATE_ON : Fld := ⟨0xd8018, 0, 0x0, 0, 16, .ro⟩
def FIO_EVENT_SUPPLY : Fld := ⟨0xd801c, 0, 0x0, 1, 1, .w1c⟩
def FIO_EVENT_FAULT : Fld := ⟨0xd801c, 0, 0x0, 0, 1, .w1c⟩
def FIO_CNT_UNDETERMINED : Fld := ⟨0xd8020, 0, 0x0, 16, 16, .rc⟩
def FIO_CNT_FAULTS : Fld := ⟨0xd8020, 0, 0x0, 0, 16, .rc⟩
def FLS_CFG_BUDGET : Fld := ⟨0xe0000, 0, 0x100012, 16, 8, .ro⟩
def FLS_CFG_RECORD_ERR : Fld := ⟨0xe0000, 0, 0x100012, 4, 1, .ro⟩
def FLS_CFG_RECORD_ACT : Fld := ⟨0xe0000, 0, 0x100012, 0, 4, .ro⟩
def FLS_STATUS_SPARES : Fld := ⟨0xe0004, 0, 0x14000000, 16, 16, .ro⟩
def FLS_STATUS_READ_BUSY : Fld := ⟨0xe0004, 0, 0x14000000, 2, 1, .ro⟩
def FLS_STATUS_SCAN : Fld := ⟨0xe0004, 0, 0x14000000, 1, 1, .ro⟩
def FLS_STATUS_POWERED : Fld := ⟨0xe0004, 0, 0x14000000, 0, 1, .ro⟩
def FLS_EVENT_HEALTH : Fld := ⟨0xe0008, 0, 0x0, 5, 1, .w1c⟩
def FLS_EVENT_READ_DONE : Fld := ⟨0xe0008, 0, 0x0, 4, 1, .w1c⟩
def FLS_EVENT_ERR : Fld := ⟨0xe0008, 0, 0x0, 3, 1, .w1c⟩
def FLS_EVENT_BAD_BLOCK : Fld := ⟨0xe0008, 0, 0x0, 2, 1, .w1c⟩
def FLS_EVENT_UNCORRECTABLE : Fld := ⟨0xe0008, 0, 0x0, 1, 1, .w1c⟩
def FLS_EVENT_LOST : Fld := ⟨0xe0008, 0, 0x0, 0, 1, .w1c⟩
def FLS_CNT_LOST : Fld := ⟨0xe000c, 0, 0x0, 16, 16, .rc⟩
def FLS_CNT_UNCORRECTABLE : Fld := ⟨0xe000c, 0, 0x0, 8, 8, .rc⟩
def FLS_CNT_AUDIT_LOST : Fld := ⟨0xe000c, 0, 0x0, 0, 8, .rc⟩
def FLS_HEALTH_STATE : Fld := ⟨0xe0010, 0, 0x0, 30, 2, .ro⟩
def FLS_HEALTH_MEAN_PE : Fld := ⟨0xe0010, 0, 0x0, 0, 16, .ro⟩
def FLS_REC_RATE_KIB_S : Fld := ⟨0xe0014, 0, 0x0, 0, 32, .ro⟩
def FLS_READ_ADDR_LO_ADDR : Fld := ⟨0xe0018, 0, 0x0, 0, 32, .rw⟩
def FLS_READ_ADDR_HI_ADDR : Fld := ⟨0xe001c, 0, 0x0, 0, 32, .rw⟩
def FLS_READ_SEQ_LO_SEQ : Fld := ⟨0xe0020, 0, 0x0, 0, 32, .rw⟩
def FLS_READ_SEQ_HI_SEQ : Fld := ⟨0xe0024, 0, 0x0, 0, 32, .rw⟩
def FLS_READ_CTRL_GO : Fld := ⟨0xe0028, 0, 0x0, 31, 1, .wo⟩
def FLS_READ_CTRL_REGION : Fld := ⟨0xe0028, 0, 0x0, 24, 1, .rw⟩
def FLS_READ_CTRL_COUNT : Fld := ⟨0xe0028, 0, 0x0, 0, 24, .rw⟩
def FLS_BACKUP_CTRL_RESTORE : Fld := ⟨0xe002c, 0, 0x0, 31, 1, .wo⟩
def FLS_BACKUP_CTRL_HELD : Fld := ⟨0xe002c, 0, 0x0, 4, 4, .ro⟩
def FLS_BACKUP_CTRL_GEN : Fld := ⟨0xe002c, 0, 0x0, 0, 3, .rw⟩
def GLM_LIFECYCLE_AR : Fld := ⟨0xf0000, 0, 0x0, 24, 8, .ro⟩
def GLM_LIFECYCLE_ROLLBACK : Fld := ⟨0xf0000, 0, 0x0, 17, 7, .ro⟩
def GLM_LIFECYCLE_TILLER_OFF : Fld := ⟨0xf0000, 0, 0x0, 8, 8, .ro⟩
def GLM_LIFECYCLE_AR_LOCK : Fld := ⟨0xf0000, 0, 0x0, 7, 1, .ro⟩
def GLM_LIFECYCLE_CONF_ONLY : Fld := ⟨0xf0000, 0, 0x0, 6, 1, .ro⟩
def GLM_LIFECYCLE_DEBUG_OFF : Fld := ⟨0xf0000, 0, 0x0, 5, 1, .ro⟩
def GLM_LIFECYCLE_OWNER_SLOT : Fld := ⟨0xf0000, 0, 0x0, 2, 2, .ro⟩
def GLM_LIFECYCLE_STATE : Fld := ⟨0xf0000, 0, 0x0, 0, 2, .ro⟩
def GLM_DEBUG_REMAIN_S : Fld := ⟨0xf0004, 0, 0x0, 16, 16, .ro⟩
def GLM_DEBUG_PROBE : Fld := ⟨0xf0004, 0, 0x0, 9, 1, .ro⟩
def GLM_DEBUG_PERM_OFF : Fld := ⟨0xf0004, 0, 0x0, 8, 1, .ro⟩
def GLM_DEBUG_EFFECTIVE : Fld := ⟨0xf0004, 0, 0x0, 4, 2, .ro⟩
def GLM_DEBUG_GRANTED : Fld := ⟨0xf0004, 0, 0x0, 0, 2, .ro⟩
def GLM_CONF_CONF_MASK : Fld := ⟨0xf0008, 0, 0x0, 16, 16, .ro⟩
def GLM_CONF_SCRUB_MASK : Fld := ⟨0xf0008, 0, 0x0, 0, 16, .ro⟩
def GLM_CONF_SESSION_SESSION_ID : Fld := ⟨0xf000c, 0, 0x0, 0, 32, .rw⟩
def GLM_MEAS_GEN_GEN : Fld := ⟨0xf0010, 0, 0x0, 0, 32, .ro⟩
def GLM_AUTH_ADDR_LO_ADDR : Fld := ⟨0xf0014, 0, 0x0, 0, 32, .rw⟩
def GLM_AUTH_ADDR_HI_ADDR : Fld := ⟨0xf0018, 0, 0x0, 0, 32, .rw⟩
def GLM_AUTH_CTRL_GO : Fld := ⟨0xf001c, 0, 0x0, 31, 1, .wo⟩
def GLM_AUTH_CTRL_RESULT : Fld := ⟨0xf001c, 0, 0x0, 8, 8, .ro⟩
def GLM_AUTH_CTRL_BUSY : Fld := ⟨0xf001c, 0, 0x0, 0, 1, .ro⟩
def GLM_NONCE_0_NONCE : Fld := ⟨0xf0020, 0, 0x0, 0, 32, .ro⟩
def GLM_NONCE_1_NONCE : Fld := ⟨0xf0024, 0, 0x0, 0, 32, .ro⟩
def GLM_NONCE_2_NONCE : Fld := ⟨0xf0028, 0, 0x0, 0, 32, .ro⟩
def GLM_NONCE_3_NONCE : Fld := ⟨0xf002c, 0, 0x0, 0, 32, .ro⟩
def GLM_UPD_ADDR_LO_ADDR : Fld := ⟨0xf0030, 0, 0x0, 0, 32, .rw⟩
def GLM_UPD_ADDR_HI_ADDR : Fld := ⟨0xf0034, 0, 0x0, 0, 32, .rw⟩
def GLM_UPD_CTRL_LEN_4K : Fld := ⟨0xf0038, 0, 0x0, 8, 13, .rw⟩
def GLM_UPD_CTRL_OP : Fld := ⟨0xf0038, 0, 0x0, 0, 2, .wo⟩
def GLM_UPD_STATUS_REJECT : Fld := ⟨0xf003c, 0, 0x0, 24, 8, .ro⟩
def GLM_UPD_STATUS_PROGRESS : Fld := ⟨0xf003c, 0, 0x0, 16, 8, .ro⟩
def GLM_UPD_STATUS_STATE : Fld := ⟨0xf003c, 0, 0x0, 0, 3, .ro⟩
def GLM_LEDGER_SEL_COUNT : Fld := ⟨0xf0040, 0, 0x0, 16, 8, .ro⟩
def GLM_LEDGER_SEL_INDEX : Fld := ⟨0xf0040, 0, 0x0, 0, 7, .rw⟩
def GLM_LEDGER_DATA0_DATA : Fld := ⟨0xf0044, 0, 0x0, 0, 32, .ro⟩
def GLM_LEDGER_DATA1_DATA : Fld := ⟨0xf0048, 0, 0x0, 0, 32, .ro⟩
def GLM_LEDGER_DATA2_DATA : Fld := ⟨0xf004c, 0, 0x0, 0, 32, .ro⟩
def GLM_LEDGER_DATA3_DATA : Fld := ⟨0xf0050, 0, 0x0, 0, 32, .ro⟩
def GLM_EVENT_CRYPTO_RESET : Fld := ⟨0xf0054, 0, 0x0, 8, 1, .w1c⟩
def GLM_EVENT_FUSE_RECOVERED : Fld := ⟨0xf0054, 0, 0x0, 7, 1, .w1c⟩
def GLM_EVENT_SESSION_END : Fld := ⟨0xf0054, 0, 0x0, 6, 1, .w1c⟩
def GLM_EVENT_SCRUB_RETIRE : Fld := ⟨0xf0054, 0, 0x0, 5, 1, .w1c⟩
def GLM_EVENT_SCRUB_DONE : Fld := ⟨0xf0054, 0, 0x0, 4, 1, .w1c⟩
def GLM_EVENT_STAGE_FAIL : Fld := ⟨0xf0054, 0, 0x0, 3, 1, .w1c⟩
def GLM_EVENT_STAGED : Fld := ⟨0xf0054, 0, 0x0, 2, 1, .w1c⟩
def GLM_EVENT_AUTH_REFUSED : Fld := ⟨0xf0054, 0, 0x0, 1, 1, .w1c⟩
def GLM_EVENT_AUTH_DONE : Fld := ⟨0xf0054, 0, 0x0, 0, 1, .w1c⟩
def PWR_STATE_GATED_MAP : Fld := ⟨0xf8000, 0, 0x0, 8, 8, .ro⟩
def PWR_STATE_WAKING : Fld := ⟨0xf8000, 0, 0x0, 3, 1, .ro⟩
def PWR_STATE_ENTERING : Fld := ⟨0xf8000, 0, 0x0, 2, 1, .ro⟩
def PWR_STATE_STATE : Fld := ⟨0xf8000, 0, 0x0, 0, 2, .ro⟩
def PWR_CTRL_RESULT : Fld := ⟨0xf8004, 0, 0x0, 8, 4, .ro⟩
def PWR_CTRL_SCRUB : Fld := ⟨0xf8004, 0, 0x0, 2, 1, .wo⟩
def PWR_CTRL_REQ : Fld := ⟨0xf8004, 0, 0x0, 0, 2, .wo⟩
def PWR_CFG_ORDER : Fld := ⟨0xf8008, 0, 0x1f01915e, 29, 3, .ro⟩
def PWR_CFG_WAKE_DI : Fld := ⟨0xf8008, 0, 0x1f01915e, 24, 5, .ro⟩
def PWR_CFG_GATE_US : Fld := ⟨0xf8008, 0, 0x1f01915e, 9, 15, .ro⟩
def PWR_CFG_CAP_W : Fld := ⟨0xf8008, 0, 0x1f01915e, 0, 9, .ro⟩
def PWR_HOST_LIMIT_CEIL_MHZ : Fld := ⟨0xf800c, 0, 0x0, 0, 16, .rw⟩
def PWR_INPUT_MEAS : Fld := ⟨0xf8010, 0, 0x0, 16, 16, .ro⟩
def PWR_INPUT_EST : Fld := ⟨0xf8010, 0, 0x0, 0, 16, .ro⟩
def PWR_SHARE_COMPUTE : Fld := ⟨0xf8014, 0, 0x0, 16, 9, .ro⟩
def PWR_SHARE_MEMORY : Fld := ⟨0xf8014, 0, 0x0, 8, 8, .ro⟩
def PWR_SHARE_LINKS : Fld := ⟨0xf8014, 0, 0x0, 0, 8, .ro⟩
def PWR_THROTTLE_ACTIVE : Fld := ⟨0xf8018, 0, 0x0, 0, 6, .ro⟩
def PWR_THR_SEL_REASON : Fld := ⟨0xf801c, 0, 0x0, 0, 3, .rw⟩
def PWR_THR_US_LO_US_LO : Fld := ⟨0xf8020, 0, 0x0, 0, 32, .ro⟩
def PWR_THR_US_HI_US_HI : Fld := ⟨0xf8024, 0, 0x0, 0, 16, .ro⟩
def PWR_TEMP_IO : Fld := ⟨0xf8028, 0, 0x0, 24, 8, .ro⟩
def PWR_TEMP_INTAKE : Fld := ⟨0xf8028, 0, 0x0, 16, 8, .ro⟩
def PWR_TEMP_COMPUTE1 : Fld := ⟨0xf8028, 0, 0x0, 8, 8, .ro⟩
def PWR_TEMP_COMPUTE0 : Fld := ⟨0xf8028, 0, 0x0, 0, 8, .ro⟩
def PWR_TEMP2_COOLANT_IN : Fld := ⟨0xf802c, 0, 0x0, 16, 8, .ro⟩
def PWR_TEMP2_HBM1 : Fld := ⟨0xf802c, 0, 0x0, 8, 8, .ro⟩
def PWR_TEMP2_HBM0 : Fld := ⟨0xf802c, 0, 0x0, 0, 8, .ro⟩
def PWR_VTRIM_IO : Fld := ⟨0xf8030, 0, 0x0, 24, 8, .ro⟩
def PWR_VTRIM_INTAKE : Fld := ⟨0xf8030, 0, 0x0, 16, 8, .ro⟩
def PWR_VTRIM_COMPUTE1 : Fld := ⟨0xf8030, 0, 0x0, 8, 8, .ro⟩
def PWR_VTRIM_COMPUTE0 : Fld := ⟨0xf8030, 0, 0x0, 0, 8, .ro⟩
def PWR_EVENT_MARGIN_EXHAUSTED : Fld := ⟨0xf8034, 0, 0x0, 9, 1, .w1c⟩
def PWR_EVENT_COOLANT_HIGH : Fld := ⟨0xf8034, 0, 0x0, 8, 1, .w1c⟩
def PWR_EVENT_THERMAL_QUAR : Fld := ⟨0xf8034, 0, 0x0, 7, 1, .w1c⟩
def PWR_EVENT_THERMAL_LIMIT : Fld := ⟨0xf8034, 0, 0x0, 6, 1, .w1c⟩
def PWR_EVENT_THERMAL_WARN : Fld := ⟨0xf8034, 0, 0x0, 5, 1, .w1c⟩
def PWR_EVENT_CAP_FLOOR : Fld := ⟨0xf8034, 0, 0x0, 4, 1, .w1c⟩
def PWR_EVENT_MISMATCH : Fld := ⟨0xf8034, 0, 0x0, 3, 1, .w1c⟩
def PWR_EVENT_WAKE : Fld := ⟨0xf8034, 0, 0x0, 2, 1, .w1c⟩
def PWR_EVENT_REFUSED : Fld := ⟨0xf8034, 0, 0x0, 1, 1, .w1c⟩
def PWR_EVENT_STATE_CHANGE : Fld := ⟨0xf8034, 0, 0x0, 0, 1, .w1c⟩
def PWR_DROOP_CNT_DEFERRED : Fld := ⟨0xf8038, 0, 0x0, 16, 16, .rc⟩
def PWR_DROOP_CNT_DROOPS : Fld := ⟨0xf8038, 0, 0x0, 0, 16, .rc⟩
def GEN_ID_DEVICE_ID : Fld := ⟨0x0, 0, 0x81f7b, 16, 16, .ro⟩
def GEN_ID_VENDOR_ID : Fld := ⟨0x0, 0, 0x81f7b, 0, 16, .ro⟩
def GEN_VERSION_SILICON : Fld := ⟨0x4, 0, 0x10000, 16, 8, .ro⟩
def GEN_VERSION_CODE : Fld := ⟨0x4, 0, 0x10000, 8, 8, .ro⟩
def GEN_VERSION_BOARD : Fld := ⟨0x4, 0, 0x10000, 0, 8, .ro⟩
def GEN_SERIAL_LO_SERIAL : Fld := ⟨0x8, 0, 0x0, 0, 32, .ro⟩
def GEN_SERIAL_HI_SERIAL : Fld := ⟨0xc, 0, 0x0, 0, 32, .ro⟩
def GEN_EVENT_GLEAN_FAIL : Fld := ⟨0x24, 0, 0x0, 4, 1, .w1c⟩
def GEN_EVENT_GLEAN_DONE : Fld := ⟨0x24, 0, 0x0, 3, 1, .w1c⟩
def GEN_EVENT_SUPPLY_DIP : Fld := ⟨0x24, 0, 0x0, 2, 1, .w1c⟩
def GEN_EVENT_TICK_OVERSPEED : Fld := ⟨0x24, 0, 0x0, 1, 1, .w1c⟩
def GEN_EVENT_STATE_CHANGE : Fld := ⟨0x24, 0, 0x0, 0, 1, .w1c⟩
def GEN_CNT_OVERSPEED : Fld := ⟨0x28, 0, 0x0, 16, 16, .rc⟩
def GEN_CNT_SUPPLY_DIP : Fld := ⟨0x28, 0, 0x0, 0, 16, .rc⟩
def GEN_GLEAN_ADDR_LO_ADDR : Fld := ⟨0x40, 0, 0x0, 0, 32, .rw⟩
def GEN_GLEAN_ADDR_HI_ADDR : Fld := ⟨0x44, 0, 0x0, 0, 32, .rw⟩
def GEN_GLEAN_CTRL_GO : Fld := ⟨0x48, 0, 0x0, 31, 1, .wo⟩
def GEN_GLEAN_CTRL_BUSY : Fld := ⟨0x48, 0, 0x0, 30, 1, .ro⟩
def GEN_GLEAN_CTRL_PENDING : Fld := ⟨0x48, 0, 0x0, 29, 1, .ro⟩
def GEN_GLEAN_CTRL_FAILED : Fld := ⟨0x48, 0, 0x0, 28, 1, .ro⟩
def GEN_GLEAN_CTRL_QUEUE_FROM : Fld := ⟨0x48, 0, 0x0, 0, 16, .rw⟩
def GEN_GLEAN_NUM_LO_NUM : Fld := ⟨0x4c, 0, 0x0, 0, 32, .ro⟩
def GEN_GLEAN_NUM_HI_NUM : Fld := ⟨0x50, 0, 0x0, 0, 32, .ro⟩
def HST_LINK_WIDTH : Fld := ⟨0x10000, 0, 0x0, 8, 4, .ro⟩
def HST_LINK_SPEED : Fld := ⟨0x10000, 0, 0x0, 5, 3, .ro⟩
def HST_LINK_DSTATE : Fld := ⟨0x10000, 0, 0x0, 3, 2, .ro⟩
def HST_LINK_DL_UP : Fld := ⟨0x10000, 0, 0x0, 0, 1, .ro⟩
def HST_EVENT_DMA_ERR : Fld := ⟨0x10004, 0, 0x0, 2, 1, .w1c⟩
def HST_EVENT_PARTIAL_WRITE : Fld := ⟨0x10004, 0, 0x0, 1, 1, .w1c⟩
def HST_EVENT_CORR_ERR : Fld := ⟨0x10004, 0, 0x0, 0, 1, .w1c⟩
def HST_CNT_CORR_ERR : Fld := ⟨0x10008, 0, 0x0, 16, 16, .rc⟩
def HST_CNT_DMA_ERR : Fld := ⟨0x10008, 0, 0x0, 8, 8, .rc⟩
def HST_CNT_PARTIAL_WRITE : Fld := ⟨0x10008, 0, 0x0, 0, 8, .rc⟩

end F

/-- Registers of block GEN. -/
def regsGen0 : List RegRow := [
  ⟨0x10, 0, 1, 0x0, [(21, 1, .ro), (20, 1, .ro), (19, 1, .ro), (18, 1, .ro), (17, 1, .ro), (16, 1, .ro), (8, 8, .ro), (4, 4, .ro), (0, 4, .ro)]⟩,
  ⟨0x14, 0, 1, 0x0, [(0, 32, .ro)]⟩,
  ⟨0x18, 0, 1, 0x0, [(0, 32, .ro)]⟩,
  ⟨0x1c, 0, 1, 0x0, [(0, 16, .ro)]⟩,
  ⟨0x20, 0, 1, 0x40, [(12, 1, .ro), (10, 2, .ro), (0, 10, .ro)]⟩,
  ⟨0x30, 0, 1, 0x0, [(16, 8, .ro), (8, 8, .ro), (4, 2, .ro), (3, 1, .ro), (2, 1, .ro), (1, 1, .ro), (0, 1, .ro)]⟩,
  ⟨0x34, 0, 1, 0x0, [(16, 16, .ro), (8, 8, .rc), (0, 4, .ro)]⟩,
  ⟨0x38, 0, 1, 0x0, [(24, 8, .wo), (16, 4, .wo), (4, 3, .wo), (0, 1, .ro)]⟩,
  ⟨0x3c, 0, 1, 0x0, [(24, 8, .rc), (12, 12, .rc), (0, 12, .rc)]⟩,
  ⟨0x100, 0, 1, 0x0, [(0, 4, .rw)]⟩,
  ⟨0x104, 0, 1, 0x0, [(24, 4, .ro), (20, 4, .ro), (16, 4, .ro), (7, 1, .ro), (6, 1, .ro), (5, 1, .ro), (4, 1, .ro), (3, 1, .ro), (2, 1, .ro), (0, 2, .ro)]⟩,
  ⟨0x108, 0, 1, 0x0, [(0, 32, .ro)]⟩]

/-- Registers of block GEN. -/
def regsGen1 : List RegRow := [
  ⟨0x10c, 0, 1, 0xffffffff, [(0, 32, .ro)]⟩,
  ⟨0x110, 0, 1, 0x0, [(0, 32, .ro)]⟩,
  ⟨0x114, 0, 1, 0x0, [(4, 1, .w1c), (3, 1, .w1c), (2, 1, .w1c), (1, 1, .w1c), (0, 1, .w1c)]⟩,
  ⟨0x118, 0, 1, 0x0, [(16, 16, .rc), (8, 8, .rc), (0, 8, .rc)]⟩,
  ⟨0x11c, 0, 1, 0x0, [(0, 32, .rc)]⟩,
  ⟨0x120, 0, 1, 0x0, [(2, 14, .rw)]⟩,
  ⟨0x124, 0, 1, 0x0, [(0, 32, .ro)]⟩,
  ⟨0x128, 0, 1, 0x0, [(0, 32, .ro)]⟩,
  ⟨0x200, 0, 1, 0x1001, [(8, 8, .ro), (0, 1, .ro)]⟩,
  ⟨0x204, 0, 1, 0x0, [(11, 1, .w1c), (10, 1, .w1c), (9, 1, .w1c), (8, 1, .w1c), (7, 1, .w1c), (6, 1, .w1c), (5, 1, .w1c), (4, 1, .w1c), (3, 1, .w1c), (2, 1, .w1c), (1, 1, .w1c), (0, 1, .w1c)]⟩,
  ⟨0x208, 0, 1, 0x0, [(16, 16, .rc), (0, 16, .rc)]⟩,
  ⟨0x20c, 0, 1, 0x0, [(16, 16, .rc), (0, 16, .rc)]⟩]

/-- Registers of block GEN. -/
def regsGen2 : List RegRow := [
  ⟨0x210, 0, 1, 0x0, [(24, 8, .rc), (16, 8, .rc), (8, 8, .rc), (0, 8, .rc)]⟩,
  ⟨0x214, 0, 1, 0x0, [(28, 4, .ro), (24, 4, .ro), (20, 4, .ro), (16, 4, .ro)]⟩,
  ⟨0x218, 0, 1, 0x0, [(31, 1, .wo), (24, 3, .rw), (0, 3, .rw)]⟩,
  ⟨0x21c, 0, 1, 0x400, [(0, 11, .ro)]⟩,
  ⟨0x0, 0, 1, 0x81f7b, [(16, 16, .ro), (0, 16, .ro)]⟩,
  ⟨0x4, 0, 1, 0x10000, [(16, 8, .ro), (8, 8, .ro), (0, 8, .ro)]⟩,
  ⟨0x8, 0, 1, 0x0, [(0, 32, .ro)]⟩,
  ⟨0xc, 0, 1, 0x0, [(0, 32, .ro)]⟩,
  ⟨0x24, 0, 1, 0x0, [(4, 1, .w1c), (3, 1, .w1c), (2, 1, .w1c), (1, 1, .w1c), (0, 1, .w1c)]⟩,
  ⟨0x28, 0, 1, 0x0, [(16, 16, .rc), (0, 16, .rc)]⟩,
  ⟨0x40, 0, 1, 0x0, [(0, 32, .rw)]⟩,
  ⟨0x44, 0, 1, 0x0, [(0, 32, .rw)]⟩]

/-- Registers of block GEN. -/
def regsGen3 : List RegRow := [
  ⟨0x48, 0, 1, 0x0, [(31, 1, .wo), (30, 1, .ro), (29, 1, .ro), (28, 1, .ro), (0, 16, .rw)]⟩,
  ⟨0x4c, 0, 1, 0x0, [(0, 32, .ro)]⟩,
  ⟨0x50, 0, 1, 0x0, [(0, 32, .ro)]⟩]

/-- Registers of block TIM. -/
def regsTim0 : List RegRow := [
  ⟨0xc0000, 0, 1, 0x0, [(0, 16, .ro)]⟩,
  ⟨0xc0004, 0, 1, 0x0, [(0, 30, .ro)]⟩,
  ⟨0xc0008, 0, 1, 0x0, [(0, 32, .ro)]⟩,
  ⟨0xc000c, 0, 1, 0x0, [(0, 16, .ro)]⟩,
  ⟨0xc0010, 0, 1, 0x0, [(2, 1, .rw), (1, 1, .rw), (0, 1, .rw)]⟩,
  ⟨0xc0014, 0, 1, 0x0, [(9, 1, .ro), (8, 1, .ro), (7, 1, .ro), (6, 1, .ro), (3, 3, .ro), (0, 3, .ro)]⟩,
  ⟨0xc0018, 0, 1, 0x0, [(7, 1, .w1c), (6, 1, .w1c), (5, 1, .w1c), (4, 1, .w1c), (3, 1, .w1c), (2, 1, .w1c), (1, 1, .w1c), (0, 1, .w1c)]⟩,
  ⟨0xc001c, 0, 1, 0x0, [(0, 32, .ro)]⟩,
  ⟨0xc0020, 0, 1, 0x0, [(13, 1, .ro), (12, 1, .ro), (11, 1, .ro), (10, 1, .ro), (8, 2, .ro), (0, 7, .ro)]⟩,
  ⟨0xc0040, 0, 1, 0x0, [(13, 1, .ro), (12, 1, .ro), (11, 1, .ro), (10, 1, .ro), (8, 2, .ro), (0, 7, .ro)]⟩,
  ⟨0xc0024, 0, 1, 0x0, [(16, 16, .ro), (0, 16, .ro)]⟩,
  ⟨0xc0044, 0, 1, 0x0, [(16, 16, .ro), (0, 16, .ro)]⟩]

/-- Registers of block TIM. -/
def regsTim1 : List RegRow := [
  ⟨0xc0028, 0, 1, 0x0, [(0, 32, .ro)]⟩,
  ⟨0xc0048, 0, 1, 0x0, [(0, 32, .ro)]⟩,
  ⟨0xc002c, 0, 1, 0x0, [(0, 32, .ro)]⟩,
  ⟨0xc004c, 0, 1, 0x0, [(0, 32, .ro)]⟩,
  ⟨0xc0030, 0, 1, 0x0, [(0, 32, .ro)]⟩,
  ⟨0xc0050, 0, 1, 0x0, [(0, 32, .ro)]⟩,
  ⟨0xc0034, 0, 1, 0x0, [(24, 8, .rc), (16, 8, .rc), (0, 16, .rc)]⟩,
  ⟨0xc0054, 0, 1, 0x0, [(24, 8, .rc), (16, 8, .rc), (0, 16, .rc)]⟩,
  ⟨0xc0060, 0, 1, 0xa, [(16, 1, .ro), (0, 16, .ro)]⟩,
  ⟨0xc0064, 0, 1, 0x0, [(16, 16, .ro), (0, 16, .ro)]⟩,
  ⟨0xc0068, 0, 1, 0x0, [(16, 16, .ro), (0, 16, .ro)]⟩]

/-- Registers of block ENC. -/
def regsEnc0 : List RegRow := [
  ⟨0xc8000, 64, 4, 0x646000, [(16, 8, .ro), (13, 3, .ro), (9, 4, .ro), (7, 2, .ro), (6, 1, .ro), (5, 1, .ro), (4, 1, .ro), (0, 3, .ro)]⟩,
  ⟨0xc8004, 64, 4, 0x0, [(0, 32, .ro)]⟩,
  ⟨0xc8008, 64, 4, 0x0, [(0, 16, .ro)]⟩,
  ⟨0xc800c, 64, 4, 0x0, [(0, 30, .ro)]⟩,
  ⟨0xc8010, 64, 4, 0x0, [(0, 32, .ro)]⟩,
  ⟨0xc8014, 64, 4, 0x0, [(0, 32, .ro)]⟩,
  ⟨0xc8018, 64, 4, 0x0, [(0, 32, .ro)]⟩,
  ⟨0xc801c, 64, 4, 0x0, [(24, 6, .ro), (18, 6, .ro), (0, 16, .ro)]⟩,
  ⟨0xc8020, 64, 4, 0x0, [(7, 1, .ro), (6, 1, .ro), (5, 1, .ro), (4, 1, .ro), (3, 1, .ro), (2, 1, .ro), (1, 1, .ro)]⟩,
  ⟨0xc8024, 64, 4, 0x0, [(7, 1, .w1c), (6, 1, .w1c), (5, 1, .w1c), (4, 1, .w1c), (3, 1, .w1c), (2, 1, .w1c), (1, 1, .w1c), (0, 1, .w1c)]⟩,
  ⟨0xc8028, 64, 4, 0x0, [(16, 16, .rc), (8, 8, .rc), (0, 8, .rc)]⟩,
  ⟨0xc8100, 0, 1, 0x140000, [(16, 8, .ro), (0, 16, .ro)]⟩]

/-- Registers of block ENC. -/
def regsEnc1 : List RegRow := [
  ⟨0xc8104, 0, 1, 0x0, [(16, 16, .rc), (0, 16, .rc)]⟩]

/-- Registers of block SHF. -/
def regsShf0 : List RegRow := [
  ⟨0xb0000, 1024, 16, 0x0, [(24, 8, .rw), (8, 2, .rw), (7, 1, .rw), (6, 1, .wo), (5, 1, .rw), (2, 2, .ro), (1, 1, .rw), (0, 1, .ro)]⟩,
  ⟨0xb0004, 1024, 16, 0x0, [(12, 4, .ro), (11, 1, .ro), (10, 1, .ro), (9, 1, .ro), (8, 1, .ro), (4, 4, .ro), (0, 4, .ro)]⟩,
  ⟨0xb0008, 1024, 16, 0x0, [(7, 1, .w1c), (6, 1, .w1c), (5, 1, .w1c), (4, 1, .w1c), (3, 1, .w1c), (2, 1, .w1c), (1, 1, .w1c), (0, 1, .w1c)]⟩,
  ⟨0xb000c, 1024, 16, 0x0, [(0, 20, .ro)]⟩,
  ⟨0xb0010, 1024, 16, 0x244, [(8, 4, .rw), (4, 4, .rw), (0, 3, .rw)]⟩,
  ⟨0xb0014, 1024, 16, 0x244, [(8, 4, .rw), (4, 4, .rw), (0, 3, .rw)]⟩,
  ⟨0xb0018, 1024, 16, 0x244, [(8, 4, .rw), (4, 4, .rw), (0, 3, .rw)]⟩,
  ⟨0xb001c, 1024, 16, 0x244, [(8, 4, .rw), (4, 4, .rw), (0, 3, .rw)]⟩,
  ⟨0xb0020, 1024, 16, 0x0, [(24, 8, .ro), (16, 6, .ro), (0, 4, .ro)]⟩,
  ⟨0xb0024, 1024, 16, 0x0, [(24, 8, .ro), (16, 6, .ro), (0, 4, .ro)]⟩,
  ⟨0xb0028, 1024, 16, 0x0, [(24, 8, .ro), (16, 6, .ro), (0, 4, .ro)]⟩,
  ⟨0xb002c, 1024, 16, 0x0, [(24, 8, .ro), (16, 6, .ro), (0, 4, .ro)]⟩]

/-- Registers of block SHF. -/
def regsShf1 : List RegRow := [
  ⟨0xb0030, 1024, 16, 0x0, [(20, 4, .rw), (16, 4, .rw), (12, 4, .rw), (11, 1, .wo), (4, 4, .ro), (3, 1, .rw), (2, 1, .rw), (0, 2, .rw)]⟩,
  ⟨0xb0040, 1024, 16, 0x0, [(0, 32, .rc)]⟩,
  ⟨0xb0044, 1024, 16, 0x0, [(0, 32, .rc)]⟩,
  ⟨0xb0048, 1024, 16, 0x0, [(0, 32, .rc)]⟩,
  ⟨0xb004c, 1024, 16, 0x0, [(0, 32, .rc)]⟩,
  ⟨0xb0050, 1024, 16, 0x0, [(24, 8, .rc), (16, 8, .rc), (8, 8, .rc), (0, 8, .rc)]⟩,
  ⟨0xb0100, 1024, 16, 0x0, [(16, 12, .ro), (5, 11, .ro), (4, 1, .ro), (3, 1, .ro), (2, 1, .ro), (1, 1, .ro)]⟩,
  ⟨0xb0104, 1024, 16, 0x0, [(7, 1, .w1c), (6, 1, .w1c), (5, 1, .w1c), (4, 1, .w1c), (3, 1, .w1c), (2, 1, .w1c), (1, 1, .w1c), (0, 1, .w1c)]⟩,
  ⟨0xb0108, 1024, 16, 0x0, [(16, 16, .rc), (0, 16, .rc)]⟩,
  ⟨0xb010c, 1024, 16, 0x0, [(16, 16, .rc), (0, 16, .rc)]⟩,
  ⟨0xb0110, 1024, 16, 0x0, [(24, 8, .rc), (16, 8, .rc), (8, 8, .rc), (0, 8, .rc)]⟩,
  ⟨0xb4000, 0, 1, 0x0, [(0, 12, .rw)]⟩]

/-- Registers of block SHF. -/
def regsShf2 : List RegRow := [
  ⟨0xb4004, 0, 1, 0x0, [(16, 16, .ro), (12, 4, .ro), (8, 4, .ro), (3, 1, .ro), (1, 2, .ro)]⟩,
  ⟨0xb4008, 0, 1, 0x0, [(26, 3, .ro), (0, 26, .ro)]⟩,
  ⟨0xb400c, 0, 1, 0x0, [(0, 21, .ro)]⟩,
  ⟨0xb4010, 0, 1, 0x0, [(0, 13, .ro)]⟩]

/-- Registers of block INT. -/
def regsInt0 : List RegRow := [
  ⟨0x80000, 256, 16, 0x0, [(16, 3, .ro), (15, 1, .ro), (12, 3, .ro), (10, 2, .ro), (8, 2, .ro), (5, 3, .ro), (2, 3, .ro), (0, 1, .ro)]⟩,
  ⟨0x80004, 256, 16, 0x0, [(16, 16, .ro), (0, 16, .ro)]⟩,
  ⟨0x80008, 256, 16, 0x0, [(0, 16, .ro)]⟩,
  ⟨0x8000c, 256, 16, 0x0, [(0, 24, .ro)]⟩,
  ⟨0x80010, 256, 16, 0x0, [(0, 13, .ro)]⟩,
  ⟨0x80014, 256, 16, 0x0, [(16, 16, .ro), (3, 1, .ro), (2, 1, .ro), (1, 1, .ro), (0, 1, .ro)]⟩,
  ⟨0x80018, 256, 16, 0x0, [(7, 1, .w1c), (6, 1, .w1c), (5, 1, .w1c), (4, 1, .w1c), (3, 1, .w1c), (2, 1, .w1c), (1, 1, .w1c), (0, 1, .w1c)]⟩,
  ⟨0x8001c, 256, 16, 0x0, [(16, 16, .rc), (0, 16, .rc)]⟩,
  ⟨0x80020, 256, 16, 0x0, [(16, 16, .rc), (8, 8, .rc), (0, 8, .rc)]⟩,
  ⟨0x80024, 256, 16, 0x0, [(16, 16, .rc), (8, 8, .rc), (0, 8, .rc)]⟩,
  ⟨0x80028, 256, 16, 0x0, [(16, 16, .ro), (0, 16, .ro)]⟩,
  ⟨0x81000, 0, 1, 0x0, [(16, 10, .ro), (0, 10, .ro)]⟩]

/-- Registers of block INT. -/
def regsInt1 : List RegRow := [
  ⟨0x81004, 0, 1, 0x3c0000, [(16, 16, .ro), (7, 1, .rw), (4, 3, .rw), (0, 1, .wo)]⟩,
  ⟨0x81008, 0, 1, 0x0, [(12, 4, .ro), (8, 2, .ro), (0, 2, .ro)]⟩,
  ⟨0x81040, 8, 16, 0x0, [(0, 24, .ro)]⟩,
  ⟨0x81044, 8, 16, 0x0, [(0, 13, .ro)]⟩,
  ⟨0x82000, 4, 16, 0x0, [(12, 3, .ro), (10, 2, .ro), (8, 2, .ro), (0, 6, .ro)]⟩,
  ⟨0x82100, 0, 1, 0x0, [(8, 1, .ro), (0, 1, .wo)]⟩,
  ⟨0x82104, 0, 1, 0x0, [(16, 16, .rc), (8, 4, .ro), (2, 1, .ro), (1, 1, .ro), (0, 1, .ro)]⟩,
  ⟨0x82108, 0, 1, 0x0, [(1, 1, .w1c), (0, 1, .w1c)]⟩,
  ⟨0x8210c, 0, 1, 0x0, [(2, 22, .rw)]⟩,
  ⟨0x82110, 0, 1, 0x0, [(0, 32, .rw)]⟩,
  ⟨0x82114, 0, 1, 0x0, [(0, 32, .rw)]⟩,
  ⟨0x82118, 0, 1, 0x0, [(0, 32, .ro)]⟩]

/-- Registers of block INT. -/
def regsInt2 : List RegRow := [
  ⟨0x8211c, 0, 1, 0x0, [(31, 1, .ro), (20, 1, .wo), (16, 4, .rw), (0, 15, .rw)]⟩,
  ⟨0x82120, 0, 1, 0x0, [(16, 16, .ro), (0, 16, .ro)]⟩,
  ⟨0x82124, 0, 1, 0x0, [(16, 16, .ro), (0, 16, .ro)]⟩,
  ⟨0x82128, 0, 1, 0x0, [(16, 16, .ro), (0, 16, .ro)]⟩,
  ⟨0x8212c, 0, 1, 0x0, [(16, 8, .ro), (8, 8, .ro), (0, 8, .ro)]⟩]

/-- Registers of block CHF. -/
def regsChf0 : List RegRow := [
  ⟨0xa0000, 0, 1, 0x0, [(8, 1, .ro), (0, 1, .wo)]⟩,
  ⟨0xa0004, 0, 1, 0x0, [(16, 16, .rc), (8, 4, .ro), (3, 1, .ro), (2, 1, .ro), (0, 2, .ro)]⟩,
  ⟨0xa0008, 0, 1, 0x0, [(6, 1, .w1c), (5, 1, .w1c), (4, 1, .w1c), (3, 1, .w1c), (2, 1, .w1c), (1, 1, .w1c), (0, 1, .w1c)]⟩,
  ⟨0xa000c, 0, 1, 0x0, [(12, 20, .rw)]⟩,
  ⟨0xa0010, 0, 1, 0x0, [(0, 32, .rw)]⟩,
  ⟨0xa0014, 0, 1, 0x0, [(31, 1, .wo), (12, 12, .rw), (0, 12, .rw)]⟩,
  ⟨0xa0018, 0, 1, 0x0, [(0, 32, .rw)]⟩,
  ⟨0xa001c, 0, 1, 0x0, [(0, 32, .ro)]⟩,
  ⟨0xa0020, 0, 1, 0x0, [(24, 8, .ro), (0, 24, .rw)]⟩,
  ⟨0xa0024, 0, 1, 0x41, [(16, 8, .ro), (8, 8, .ro), (4, 4, .ro), (0, 1, .ro)]⟩,
  ⟨0xa0028, 0, 1, 0x1, [(16, 16, .ro), (0, 16, .ro)]⟩,
  ⟨0xa0030, 0, 1, 0x0, [(16, 16, .ro), (0, 16, .rc)]⟩]

/-- Registers of block CHF. -/
def regsChf1 : List RegRow := [
  ⟨0xa0034, 0, 1, 0x0, [(24, 8, .rc), (16, 8, .rc), (8, 8, .rc), (0, 8, .rc)]⟩,
  ⟨0xa0100, 8, 16, 0x0, [(24, 4, .ro), (20, 1, .ro), (18, 2, .ro), (0, 18, .ro)]⟩,
  ⟨0xa0104, 8, 16, 0x0, [(0, 24, .ro)]⟩]

/-- Registers of block TIL. -/
def regsTil0 : List RegRow := [
  ⟨0x40000, 16384, 8, 0x5, [(16, 11, .ro), (12, 4, .ro), (8, 1, .ro), (0, 4, .ro)]⟩,
  ⟨0x40004, 16384, 8, 0x0, [(8, 16, .ro), (0, 8, .ro)]⟩,
  ⟨0x40008, 16384, 8, 0x0, [(5, 1, .w1c), (4, 1, .w1c), (3, 1, .w1c), (2, 1, .w1c), (1, 1, .w1c), (0, 1, .w1c)]⟩,
  ⟨0x4000c, 16384, 8, 0x0, [(0, 32, .rc)]⟩,
  ⟨0x40010, 16384, 8, 0x0, [(16, 16, .rc), (8, 8, .rc), (0, 8, .rc)]⟩,
  ⟨0x40014, 16384, 8, 0x0, [(16, 16, .rc), (0, 16, .rc)]⟩,
  ⟨0x40018, 16384, 8, 0x0, [(16, 10, .ro), (0, 10, .ro)]⟩,
  ⟨0x4001c, 16384, 8, 0x0, [(0, 16, .ro)]⟩,
  ⟨0x40100, 16384, 8, 0x0, [(6, 4, .rw), (0, 6, .rw)]⟩,
  ⟨0x40104, 16384, 8, 0x0, [(31, 1, .ro), (29, 2, .ro), (28, 1, .ro), (27, 1, .ro), (26, 1, .ro), (24, 2, .ro), (20, 4, .ro), (0, 16, .ro)]⟩,
  ⟨0x40108, 16384, 8, 0x0, [(0, 32, .ro)]⟩,
  ⟨0x4010c, 16384, 8, 0x0, [(0, 26, .ro)]⟩]

/-- Registers of block TIL. -/
def regsTil1 : List RegRow := [
  ⟨0x40110, 16384, 8, 0x0, [(0, 24, .ro)]⟩,
  ⟨0x40114, 16384, 8, 0x40000000, [(16, 15, .ro), (0, 15, .ro)]⟩,
  ⟨0x40118, 16384, 8, 0x0, [(24, 8, .rc), (16, 8, .rc), (8, 8, .rc), (0, 8, .rc)]⟩,
  ⟨0x4011c, 16384, 8, 0x0, [(16, 16, .rc), (0, 4, .ro)]⟩]

/-- Registers of block QUE. -/
def regsQue0 : List RegRow := [
  ⟨0x20000, 0, 1, 0x0, [(0, 16, .rw)]⟩,
  ⟨0x20004, 0, 1, 0x0, [(30, 2, .ro), (29, 1, .ro), (28, 1, .ro), (16, 8, .rw), (15, 1, .rw), (8, 3, .rw), (0, 5, .rw)]⟩,
  ⟨0x20008, 0, 1, 0x0, [(12, 20, .rw)]⟩,
  ⟨0x2000c, 0, 1, 0x0, [(0, 32, .rw)]⟩,
  ⟨0x20010, 0, 1, 0x0, [(0, 2, .wo)]⟩,
  ⟨0x20020, 0, 1, 0x0, [(0, 12, .rw)]⟩,
  ⟨0x20024, 0, 1, 0x0, [(31, 1, .rw), (24, 6, .rw), (13, 11, .rw), (5, 8, .rw), (0, 5, .rw)]⟩,
  ⟨0x20028, 0, 1, 0x0, [(12, 20, .rw)]⟩,
  ⟨0x2002c, 0, 1, 0x0, [(0, 32, .rw)]⟩,
  ⟨0x20030, 0, 1, 0x0, [(20, 12, .rw), (0, 17, .rw)]⟩,
  ⟨0x20034, 0, 1, 0x0, [(0, 17, .ro)]⟩,
  ⟨0x20040, 0, 1, 0x0, [(0, 4, .rw)]⟩]

/-- Registers of block QUE. -/
def regsQue1 : List RegRow := [
  ⟨0x20044, 0, 1, 0x0, [(31, 1, .ro), (16, 8, .wo), (8, 4, .wo), (3, 1, .wo), (0, 3, .wo)]⟩,
  ⟨0x20048, 0, 1, 0x0, [(12, 20, .rw)]⟩,
  ⟨0x2004c, 0, 1, 0x0, [(0, 32, .rw)]⟩,
  ⟨0x20050, 0, 1, 0x0, [(16, 8, .ro), (12, 4, .ro), (8, 4, .ro), (3, 1, .ro), (0, 3, .ro)]⟩,
  ⟨0x20054, 0, 1, 0x0, [(0, 32, .ro)]⟩,
  ⟨0x20058, 0, 1, 0x0, [(0, 16, .ro)]⟩,
  ⟨0x2005c, 0, 1, 0x0, [(16, 16, .ro), (0, 16, .ro)]⟩,
  ⟨0x20060, 0, 1, 0x0, [(16, 14, .ro), (0, 14, .ro)]⟩,
  ⟨0x20064, 0, 1, 0x0, [(7, 1, .w1c), (6, 1, .w1c), (5, 1, .w1c), (4, 1, .w1c), (3, 1, .w1c), (2, 1, .w1c), (1, 1, .w1c)]⟩,
  ⟨0x20068, 0, 1, 0x0, [(16, 16, .rc), (8, 8, .rc), (0, 8, .rc)]⟩,
  ⟨0x2006c, 0, 1, 0x0, [(0, 16, .ro)]⟩]

/-- Registers of block EJC. -/
def regsEjc0 : List RegRow := [
  ⟨0xd0000, 0, 1, 0xa001f, [(24, 1, .ro), (16, 8, .ro), (12, 2, .ro), (10, 2, .ro), (8, 2, .ro), (0, 5, .ro)]⟩,
  ⟨0xd0004, 0, 1, 0x0, [(16, 1, .ro), (0, 8, .ro)]⟩,
  ⟨0xd0008, 0, 1, 0x0, [(5, 1, .w1c), (4, 1, .w1c), (3, 1, .w1c), (2, 1, .w1c), (1, 1, .w1c), (0, 1, .w1c)]⟩,
  ⟨0xd000c, 0, 1, 0x0, [(16, 16, .rc), (0, 16, .rc)]⟩,
  ⟨0xd0010, 0, 1, 0x0, [(24, 8, .rc), (16, 8, .rc), (0, 16, .rc)]⟩,
  ⟨0xd0014, 0, 1, 0x0, [(0, 12, .rw)]⟩,
  ⟨0xd0018, 0, 1, 0x0, [(24, 8, .ro), (0, 24, .ro)]⟩,
  ⟨0xd0100, 16, 8, 0x0, [(24, 8, .ro), (16, 8, .ro), (0, 2, .ro)]⟩,
  ⟨0xd0104, 16, 8, 0x0, [(16, 16, .rc), (8, 8, .rc), (0, 8, .rc)]⟩]

/-- Registers of block FIO. -/
def regsFio0 : List RegRow := [
  ⟨0xd8000, 0, 1, 0x0, [(0, 24, .ro)]⟩,
  ⟨0xd8004, 0, 1, 0x0, [(0, 24, .ro)]⟩,
  ⟨0xd8008, 0, 1, 0x0, [(0, 32, .ro)]⟩,
  ⟨0xd800c, 0, 1, 0x0, [(0, 32, .ro)]⟩,
  ⟨0xd8010, 0, 1, 0x0, [(0, 32, .ro)]⟩,
  ⟨0xd8014, 0, 1, 0x0, [(0, 16, .rw)]⟩,
  ⟨0xd8018, 0, 1, 0x0, [(0, 16, .ro)]⟩,
  ⟨0xd801c, 0, 1, 0x0, [(1, 1, .w1c), (0, 1, .w1c)]⟩,
  ⟨0xd8020, 0, 1, 0x0, [(16, 16, .rc), (0, 16, .rc)]⟩]

/-- Registers of block FLS. -/
def regsFls0 : List RegRow := [
  ⟨0xe0000, 0, 1, 0x100012, [(16, 8, .ro), (4, 1, .ro), (0, 4, .ro)]⟩,
  ⟨0xe0004, 0, 1, 0x14000000, [(16, 16, .ro), (2, 1, .ro), (1, 1, .ro), (0, 1, .ro)]⟩,
  ⟨0xe0008, 0, 1, 0x0, [(5, 1, .w1c), (4, 1, .w1c), (3, 1, .w1c), (2, 1, .w1c), (1, 1, .w1c), (0, 1, .w1c)]⟩,
  ⟨0xe000c, 0, 1, 0x0, [(16, 16, .rc), (8, 8, .rc), (0, 8, .rc)]⟩,
  ⟨0xe0010, 0, 1, 0x0, [(30, 2, .ro), (0, 16, .ro)]⟩,
  ⟨0xe0014, 0, 1, 0x0, [(0, 32, .ro)]⟩,
  ⟨0xe0018, 0, 1, 0x0, [(0, 32, .rw)]⟩,
  ⟨0xe001c, 0, 1, 0x0, [(0, 32, .rw)]⟩,
  ⟨0xe0020, 0, 1, 0x0, [(0, 32, .rw)]⟩,
  ⟨0xe0024, 0, 1, 0x0, [(0, 32, .rw)]⟩,
  ⟨0xe0028, 0, 1, 0x0, [(31, 1, .wo), (24, 1, .rw), (0, 24, .rw)]⟩,
  ⟨0xe002c, 0, 1, 0x0, [(31, 1, .wo), (4, 4, .ro), (0, 3, .rw)]⟩]

/-- Registers of block GLM. -/
def regsGlm0 : List RegRow := [
  ⟨0xf0000, 0, 1, 0x0, [(24, 8, .ro), (17, 7, .ro), (8, 8, .ro), (7, 1, .ro), (6, 1, .ro), (5, 1, .ro), (2, 2, .ro), (0, 2, .ro)]⟩,
  ⟨0xf0004, 0, 1, 0x0, [(16, 16, .ro), (9, 1, .ro), (8, 1, .ro), (4, 2, .ro), (0, 2, .ro)]⟩,
  ⟨0xf0008, 0, 1, 0x0, [(16, 16, .ro), (0, 16, .ro)]⟩,
  ⟨0xf000c, 0, 1, 0x0, [(0, 32, .rw)]⟩,
  ⟨0xf0010, 0, 1, 0x0, [(0, 32, .ro)]⟩,
  ⟨0xf0014, 0, 1, 0x0, [(0, 32, .rw)]⟩,
  ⟨0xf0018, 0, 1, 0x0, [(0, 32, .rw)]⟩,
  ⟨0xf001c, 0, 1, 0x0, [(31, 1, .wo), (8, 8, .ro), (0, 1, .ro)]⟩,
  ⟨0xf0020, 0, 1, 0x0, [(0, 32, .ro)]⟩,
  ⟨0xf0024, 0, 1, 0x0, [(0, 32, .ro)]⟩,
  ⟨0xf0028, 0, 1, 0x0, [(0, 32, .ro)]⟩,
  ⟨0xf002c, 0, 1, 0x0, [(0, 32, .ro)]⟩]

/-- Registers of block GLM. -/
def regsGlm1 : List RegRow := [
  ⟨0xf0030, 0, 1, 0x0, [(0, 32, .rw)]⟩,
  ⟨0xf0034, 0, 1, 0x0, [(0, 32, .rw)]⟩,
  ⟨0xf0038, 0, 1, 0x0, [(8, 13, .rw), (0, 2, .wo)]⟩,
  ⟨0xf003c, 0, 1, 0x0, [(24, 8, .ro), (16, 8, .ro), (0, 3, .ro)]⟩,
  ⟨0xf0040, 0, 1, 0x0, [(16, 8, .ro), (0, 7, .rw)]⟩,
  ⟨0xf0044, 0, 1, 0x0, [(0, 32, .ro)]⟩,
  ⟨0xf0048, 0, 1, 0x0, [(0, 32, .ro)]⟩,
  ⟨0xf004c, 0, 1, 0x0, [(0, 32, .ro)]⟩,
  ⟨0xf0050, 0, 1, 0x0, [(0, 32, .ro)]⟩,
  ⟨0xf0054, 0, 1, 0x0, [(8, 1, .w1c), (7, 1, .w1c), (6, 1, .w1c), (5, 1, .w1c), (4, 1, .w1c), (3, 1, .w1c), (2, 1, .w1c), (1, 1, .w1c), (0, 1, .w1c)]⟩]

/-- Registers of block PWR. -/
def regsPwr0 : List RegRow := [
  ⟨0xf8000, 0, 1, 0x0, [(8, 8, .ro), (3, 1, .ro), (2, 1, .ro), (0, 2, .ro)]⟩,
  ⟨0xf8004, 0, 1, 0x0, [(8, 4, .ro), (2, 1, .wo), (0, 2, .wo)]⟩,
  ⟨0xf8008, 0, 1, 0x1f01915e, [(29, 3, .ro), (24, 5, .ro), (9, 15, .ro), (0, 9, .ro)]⟩,
  ⟨0xf800c, 0, 1, 0x0, [(0, 16, .rw)]⟩,
  ⟨0xf8010, 0, 1, 0x0, [(16, 16, .ro), (0, 16, .ro)]⟩,
  ⟨0xf8014, 0, 1, 0x0, [(16, 9, .ro), (8, 8, .ro), (0, 8, .ro)]⟩,
  ⟨0xf8018, 0, 1, 0x0, [(0, 6, .ro)]⟩,
  ⟨0xf801c, 0, 1, 0x0, [(0, 3, .rw)]⟩,
  ⟨0xf8020, 0, 1, 0x0, [(0, 32, .ro)]⟩,
  ⟨0xf8024, 0, 1, 0x0, [(0, 16, .ro)]⟩,
  ⟨0xf8028, 0, 1, 0x0, [(24, 8, .ro), (16, 8, .ro), (8, 8, .ro), (0, 8, .ro)]⟩,
  ⟨0xf802c, 0, 1, 0x0, [(16, 8, .ro), (8, 8, .ro), (0, 8, .ro)]⟩]

/-- Registers of block PWR. -/
def regsPwr1 : List RegRow := [
  ⟨0xf8030, 0, 1, 0x0, [(24, 8, .ro), (16, 8, .ro), (8, 8, .ro), (0, 8, .ro)]⟩,
  ⟨0xf8034, 0, 1, 0x0, [(9, 1, .w1c), (8, 1, .w1c), (7, 1, .w1c), (6, 1, .w1c), (5, 1, .w1c), (4, 1, .w1c), (3, 1, .w1c), (2, 1, .w1c), (1, 1, .w1c), (0, 1, .w1c)]⟩,
  ⟨0xf8038, 0, 1, 0x0, [(16, 16, .rc), (0, 16, .rc)]⟩]

/-- Registers of block HST. -/
def regsHst0 : List RegRow := [
  ⟨0x10000, 0, 1, 0x0, [(8, 4, .ro), (5, 3, .ro), (3, 2, .ro), (0, 1, .ro)]⟩,
  ⟨0x10004, 0, 1, 0x0, [(2, 1, .w1c), (1, 1, .w1c), (0, 1, .w1c)]⟩,
  ⟨0x10008, 0, 1, 0x0, [(16, 16, .rc), (8, 8, .rc), (0, 8, .rc)]⟩]

/-- The whole register map (R4, R454). -/
def regTable : List RegRow :=
  regsGen0 ++
  regsGen1 ++
  regsGen2 ++
  regsGen3 ++
  regsTim0 ++
  regsTim1 ++
  regsEnc0 ++
  regsEnc1 ++
  regsShf0 ++
  regsShf1 ++
  regsShf2 ++
  regsInt0 ++
  regsInt1 ++
  regsInt2 ++
  regsChf0 ++
  regsChf1 ++
  regsTil0 ++
  regsTil1 ++
  regsQue0 ++
  regsQue1 ++
  regsEjc0 ++
  regsFio0 ++
  regsFls0 ++
  regsGlm0 ++
  regsGlm1 ++
  regsPwr0 ++
  regsPwr1 ++
  regsHst0

end Sys2Proof.Machine
end

