-- ==== Sys2Proof/Machine/Tab.lean ====
section
/-!
DEFINITION. Machine/Tab.lean: reading and writing a sparse table. The canonical form (`tabWf`) is: indexes strictly rising and
no entry equal to the table's default, so that tables that read alike are equal.
-/

namespace Sys2Proof.Machine

/-- What the table holds at an index; an unlisted index holds the default. -/
def tget {α : Type} (d : α) : Tab α → Nat → α
  | [], _ => d
  | (k, v) :: t, i => if k = i then v else tget d t i

/-- The table without an index. -/
def tdel {α : Type} (t : Tab α) (i : Nat) : Tab α := t.filter (fun e => e.1 != i)

/-- Put an entry in its place in rising order. -/
def tins {α : Type} (i : Nat) (v : α) : Tab α → Tab α
  | [] => [(i, v)]
  | e :: t => if i < e.1 then (i, v) :: e :: t else e :: tins i v t

/-- Hold `v` at an index: the default is held by listing nothing. -/
def tset {α : Type} [DecidableEq α] (d : α) (t : Tab α) (i : Nat) (v : α) : Tab α :=
  if v = d then tdel t i else tins i v (tdel t i)

/-- Change what an index holds. -/
def tmod {α : Type} [DecidableEq α] (d : α) (t : Tab α) (i : Nat) (f : α → α) : Tab α :=
  tset d t i (f (tget d t i))

/-- The indexes listed. -/
def tkeys {α : Type} (t : Tab α) : List Nat := t.map (fun e => e.1)

/-- Put an element into a list before the first one that it does not follow. -/
def insBy {α : Type} (le : α → α → Bool) (x : α) : List α → List α
  | [] => [x]
  | y :: ys => if le x y then x :: y :: ys else y :: insBy le x ys

/-- A list in an order; equals keep their places. -/
def isort {α : Type} (le : α → α → Bool) : List α → List α
  | [] => []
  | x :: xs => insBy le x (isort le xs)

/-- The canonical form: indexes strictly rising, no entry equal to the default. -/
def tabWf {α : Type} [DecidableEq α] (d : α) : Tab α → Bool
  | [] => true
  | (k, v) :: t => decide (v ≠ d) && t.all (fun e => decide (k < e.1)) && tabWf d t

end Sys2Proof.Machine
end

