-- ==== Sys2Proof/Machine/Ops.lean ====
section
/-!
DEFINITION. Machine/Ops.lean: the operations every command is written in: a register field read, written, counted up; an event
raised; a free value drawn; the module's state changed; and the parts of the machine picked out by number.
-/

namespace Sys2Proof.Machine

/-- BAR0 address of a field's register. -/
def Fld.addr (f : Fld) (i : Nat) : Nat := f.base + f.stride * i

/-- The word a register's storage holds. -/
def word (m : Mach) (rst : Word) (a : Nat) : Word := tget rst m.regs a

/-- Store a register's word. -/
def setWord (m : Mach) (rst : Word) (a : Nat) (w : Word) : Mach := { m with regs := tset rst m.regs a w }

/-- The mask of a field in its word. -/
def Fld.mask (f : Fld) : Word := BitVec.ofNat 32 (2 ^ f.w - 1) <<< f.lo

/-- A field put into a word. -/
def putFld (w : Word) (f : Fld) (v : Nat) : Word :=
  (w &&& ~~~ f.mask) ||| ((BitVec.ofNat 32 v <<< f.lo) &&& f.mask)

/-- Read a field of instance `i`. -/
def rd (m : Mach) (f : Fld) (i : Nat) : Nat := bits (word m f.rst (f.addr i)).toNat f.lo f.w

/-- Set a field of instance `i`. -/
def wr (m : Mach) (f : Fld) (i v : Nat) : Mach :=
  setWord m f.rst (f.addr i) (putFld (word m f.rst (f.addr i)) f v)

/-- Is a one-bit field set? -/
def flag (m : Mach) (f : Fld) (i : Nat) : Bool := rd m f i == 1

/-- Count a field up by `n`; counters saturate. -/
def incBy (m : Mach) (f : Fld) (i n : Nat) : Mach := wr m f i (sat f.w (rd m f i + n))

/-- Count a field up by one. -/
def inc (m : Mach) (f : Fld) (i : Nat) : Mach := incBy m f i 1

/-- Send something out of the module. -/
def emit (m : Mach) (o : Output) : Mach := { m with out := m.out ++ [o] }

/-- Draw a free value (assumption 7). -/
def draw (m : Mach) : Mach × Nat := ({ m with draws := m.draws + 1 }, Config.free m.draws)

/-- BAR0 address of an MSI-X vector's control word, the last of its four (R449). -/
def msixCtl (v : Nat) : Nat := 0x18000 + 16 * v + 12

/-- An MSI-X vector is masked. Mask bits reset to 1: PRESUMED, PCI Express (assumption 16). -/
def msixMasked (m : Mach) (v : Nat) : Bool := (word m 1 (msixCtl v)).toNat % 2 == 1

/-- BAR0 address of the pending word of a vector (R449). -/
def pbaAddr (v : Nat) : Nat := 0x11000 + 4 * (v / 32)

/-- Send a vector, or set its pending bit while it is masked or the function is in D3hot (R445, R449). -/
def sendVector (m : Mach) (v : Nat) : Mach :=
  if msixMasked m v || m.ctl.d3hot then
    setWord m 0 (pbaAddr v) (word m 0 (pbaAddr v) ||| (1#32 <<< (v % 32)))
  else emit m (.msix v)

/-- The vector of an EVENT register (R449). -/
def vectorOf (f : Fld) (i : Nat) : Nat :=
  if f.base = F.GEN_EVENT_STATE_CHANGE.base then 0
  else if f.base = F.HST_EVENT_CORR_ERR.base then 1
  else if f.base = F.QUE_EVENT_OVERFLOW.base then 2
  else if f.base = F.GEN_CHECK_EVENT_COMPUTE.base then 3
  else if f.base = F.GEN_PLACE_EVENT_REPLACED.base then 4
  else if f.base = F.TIL_EVENT_SAT.base then 5 + i
  else if f.base = F.INT_PORT_EVENT_CRC_ERR.base then 13
  else if f.base = F.INT_ISP_EVENT_SWAPPED.base then 14
  else if f.base = F.CHF_EVENT_SWAPPED.base then 15
  else if f.base = F.SHF_PHY_EVENT_UP.base then 16
  else if f.base = F.SHF_LNK_EVENT_CRC_ERR.base then 17
  else if f.base = F.TIM_EVENT_LOCKED.base then 18
  else if f.base = F.ENC_EVENT_ILLEGAL.base then 19
  else if f.base = F.EJC_EVENT_LATE_FIRE.base then 20
  else if f.base = F.FIO_EVENT_FAULT.base then 21
  else if f.base = F.FLS_EVENT_LOST.base then 22
  else if f.base = F.GLM_EVENT_AUTH_DONE.base then 23
  else 24

/-- A context of the module. -/
def ctxOf (m : Mach) (c : Nat) : Ctx := tget {} m.fab.ctxs c

/-- Keep an event; the last 64 stay (R462). The context of a confidential one reads 0. -/
def logEvent (m : Mach) (v bit inst c : Nat) : Mach :=
  let e : EventRec := { us := us32 m.time.now, vector := v, bit := bit, inst := inst,
                        ctx := if (ctxOf m c).conf then 0 else c }
  let es := m.host.events ++ [e]
  { m with host := { m.host with events := es.drop (es.length - 64) } }

/-- Set a W1C flag; if it was clear, keep the event and send the vector (R449, R462). -/
def raiseAs (m : Mach) (f : Fld) (i inst c : Nat) : Mach :=
  if flag m f i then m
  else sendVector (logEvent (wr m f i 1) (vectorOf f i) f.lo inst c) (vectorOf f i)

/-- Raise an event of instance `i` that concerns no context. -/
def raise (m : Mach) (f : Fld) (i : Nat) : Mach := raiseAs m f i i 0

/-- Raise an event that concerns a context. -/
def raiseCtx (m : Mach) (f : Fld) (i c : Nat) : Mach := raiseAs m f i i c

/-- The two events that are not kept (R454, R462). -/
def raiseQuiet (m : Mach) (f : Fld) : Mach := if flag m f 0 then m else sendVector (wr m f 0 1) (vectorOf f 0)

/-- Raise an event and count it. -/
def raiseCount (m : Mach) (f g : Fld) (i : Nat) : Mach := inc (raise m f i) g i

/-- Raise if. -/
def raiseIf (c : Bool) (m : Mach) (f : Fld) (i : Nat) : Mach := if c then raise m f i else m

/-- A write that acts only with a right the writer lacks (assumption 9). -/
def deny (m : Mach) : Mach := emit m .accessDenied

/-- The module's state. -/
def st (m : Mach) : ModState := m.ctl.st

/-- Enter a state: PREV_STATE keeps the one before; STATE_CHANGE is raised (R22, R27). Entering the state the module is in
changes nothing. -/
def enter (m : Mach) (n : ModState) : Mach :=
  if m.ctl.st = n then m
  else raise { m with ctl := { m.ctl with prev := m.ctl.st, st := n } } F.GEN_EVENT_STATE_CHANGE 0

/-- The pipeline runs: RUNNING or DEGRADED. -/
def pipelineOn (m : Mach) : Bool := m.ctl.st == .running || m.ctl.st == .degraded

/-- The states in which ticks are generated: MACHINE_READY, RUNNING and DEGRADED (R22, R25, R26). -/
def ticking (m : Mach) : Bool := m.ctl.st == .machineReady || pipelineOn m

/-- The module has power and is not off: any state but POWERING. -/
def alive (m : Mach) : Bool := m.ctl.st != .powering

def setCtl (m : Mach) (f : Ctl → Ctl) : Mach := { m with ctl := f m.ctl }
def setTime (m : Mach) (f : TimeBase → TimeBase) : Mach := { m with time := f m.time }
def setTrig (m : Mach) (f : Trig → Trig) : Mach := { m with trig := f m.trig }
def setIsp (m : Mach) (f : Isp → Isp) : Mach := { m with isp := f m.isp }
def setChaff (m : Mach) (f : Chaff → Chaff) : Mach := { m with chaff := f m.chaff }
def setFab (m : Mach) (f : Fabric → Fabric) : Mach := { m with fab := f m.fab }
def setEject (m : Mach) (f : Eject → Eject) : Mach := { m with eject := f m.eject }
def setFlash (m : Mach) (f : Flash → Flash) : Mach := { m with flash := f m.flash }
def setGlume (m : Mach) (f : Glume → Glume) : Mach := { m with glume := f m.glume }
def setPower (m : Mach) (f : Power → Power) : Mach := { m with power := f m.power }
def setHost (m : Mach) (f : HostIf → HostIf) : Mach := { m with host := f m.host }
def setFuses (m : Mach) (f : Fuses → Fuses) : Mach := { m with fuses := f m.fuses }
def setNor (m : Mach) (f : Nor → Nor) : Mach := { m with nor := f m.nor }
def setAlign (m : Mach) (f : Align → Align) : Mach := { m with align := f m.align }

/-- Encoder channel. -/
def encOf (m : Mach) (ch : Nat) : EncCh := tget {} m.enc ch
def setEnc (m : Mach) (ch : Nat) (f : EncCh → EncCh) : Mach := { m with enc := tmod {} m.enc ch f }
/-- Sheaf port. -/
def portOf (m : Mach) (p : Nat) : SheafPort := tget {} m.sheaf p
def setPort (m : Mach) (p : Nat) (f : SheafPort → SheafPort) : Mach := { m with sheaf := tmod {} m.sheaf p f }
/-- Peer window. -/
def winOf (m : Mach) (w : Nat) : Window := tget {} m.wins w
def setWin (m : Mach) (w : Nat) (f : Window → Window) : Mach := { m with wins := tmod {} m.wins w f }
/-- Intake port. -/
def ipOf (m : Mach) (p : Nat) : IntakePort := tget {} m.intake p
def setIp (m : Mach) (p : Nat) (f : IntakePort → IntakePort) : Mach := { m with intake := tmod {} m.intake p f }
/-- Tiller. -/
def tilOf (m : Mach) (t : Nat) : Tiller := tget {} m.fab.tillers t
def setTil (m : Mach) (t : Nat) (f : Tiller → Tiller) : Mach := setFab m (fun b => { b with tillers := tmod {} b.tillers t f })
/-- Queue. -/
def queOf (m : Mach) (q : Nat) : Queue := tget {} m.fab.queues q
def setQue (m : Mach) (q : Nat) (f : Queue → Queue) : Mach := setFab m (fun b => { b with queues := tmod {} b.queues q f })
/-- Completion ring. -/
def ringOf (m : Mach) (r : Nat) : Ring := tget {} m.fab.rings r
def setRing (m : Mach) (r : Nat) (f : Ring → Ring) : Mach := setFab m (fun b => { b with rings := tmod {} b.rings r f })
/-- Context. -/
def setCtx (m : Mach) (c : Nat) (f : Ctx → Ctx) : Mach := setFab m (fun b => { b with ctxs := tmod {} b.ctxs c f })
/-- Bin table entry of a Tiller, a context and a handle (R272). -/
def binIx (t c h : Nat) : Nat := t * 1024 + c * 64 + h
def binOf (m : Mach) (t c h : Nat) : Bin := tget {} m.fab.bins (binIx t c h)
def setBin (m : Mach) (t c h : Nat) (f : Bin → Bin) : Mach := setFab m (fun b => { b with bins := tmod {} b.bins (binIx t c h) f })
/-- Awn port. -/
def awnOf (m : Mach) (p : Nat) : AwnPort := tget {} m.eject.ports p
def setAwn (m : Mach) (p : Nat) (f : AwnPort → AwnPort) : Mach := setEject m (fun e => { e with ports := tmod {} e.ports p f })

/-- A register access of the host acts only once the function is ready and outside D3hot (R74, R445). -/
def bar0 (m : Mach) (f : Mach → Mach) : Mach := if m.ctl.fnReady && !m.ctl.d3hot then f m else m

/-- The same for a block that DORMANT leaves unpowered: its writes are ignored there (R452). -/
def bar0P (m : Mach) (f : Mach → Mach) : Mach := bar0 m (fun m => if m.ctl.st = .dormant then m else f m)

/-- A memory read of the host: Unsupported Request before the function is ready (R74), no answer in D3hot (R445), 0 from a block that DORMANT
leaves unpowered (R452). -/
def barRead (m : Mach) (powered : Bool) (f : Mach → Mach) : Mach :=
  if !m.ctl.fnReady then (if alive m then emit m .unsupported else m)
  else if m.ctl.d3hot then m
  else if powered || m.ctl.st != .dormant then f m
  else emit m (.readData 0)

/-- A confidential context exists or awaits its scrub (GEN_STATE.CONF_PRESENT, R22). -/
def confPresent (m : Mach) : Bool := m.fab.ctxs.any (fun c => c.2.conf && c.2.st != .free)

/-- The effective debug level (R429). -/
def effLevel (m : Mach) : DebugLevel :=
  if confPresent m || m.ctl.st == .dormant || m.fuses.debugOff then .none else m.glume.granted

/-- A debug level's code (GLM_DEBUG). -/
def levelCode (l : DebugLevel) : Nat :=
  match l with
  | .none => 0 | .telemetry => 1 | .trace => 2 | .full => 3

/-- Error injection and the probe need TRACE or FULL (R428). -/
def traceOn (m : Mach) : Bool := decide (levelCode (effLevel m) ≥ 2)

/-- Do something for each of a list, in order. -/
def forEach {α : Type} (xs : List α) (m : Mach) (f : Mach → α → Mach) : Mach := xs.foldl f m

/-- The configuration of an intake port (CAMERA). -/
def camOf (m : Mach) (p : Nat) : CamPort := m.cfg.camera.ports.getD p {}

/-- The configuration of an encoder channel (EARLY_IO). -/
def encCfg (m : Mach) (ch : Nat) : EncCfg := m.cfg.early.enc.getD ch {}

/-- The common field fault bit and the outputs' commands need these. -/
def doMode (m : Mach) (n : Nat) : Nat := m.cfg.machine.doMode.getD n 0
def doSrc (m : Mach) (n : Nat) : Nat := m.cfg.machine.doSrc.getD n 0

/-- Boards fitted on an Awn port (BOARD_MASK, R375). -/
def boardMask (m : Mach) (p : Nat) : Nat := ((m.cfg.valve.boardMask.getD p 0)).toNat

/-- An Awn port that has boards is in service: not in reset, no fitted board lost (R81, R385). -/
def awnInService (m : Mach) (p : Nat) : Bool :=
  boardMask m p != 0 && !(awnOf m p).inReset && (awnOf m p).boards.all (fun b => !b.2.lost)

/-- Every Awn port that has boards is in service. -/
def awnAllIn (m : Mach) : Bool := (List.range 8).all (fun p => boardMask m p == 0 || awnInService m p)

/-- The inhibit input reads OFF or wire break (R380). -/
def inhibited (m : Mach) : Bool :=
  let n := m.cfg.machine.inhibitDi
  decide (n < 24) && !bitOf (rd m F.FIO_DI_STATE 0) n

/-- The time base is valid (R22, R76; TIM_STATUS.VALID). -/
def timeValid (m : Mach) : Bool :=
  m.ctl.timeApplied && ((!m.cfg.time.domA.enable && !m.cfg.time.domB.enable) || m.time.valid)

/-- A status source (R390). -/
def statusSource (m : Mach) (src : Nat) : Bool :=
  match src with
  | 0 => ticking m
  | 1 => m.ctl.st == .running
  | 2 => m.ctl.st == .running
  | 3 => !flag m F.FIO_EVENT_FAULT 0
  | 4 => m.eject.tickLevel
  | 5 => !inhibited m && awnAllIn m
  | 6 => timeValid m
  | _ => false

/-- A Tiller is gated. -/
def isGated (m : Mach) (t : Nat) : Bool := (tilOf m t).st == .gated

/-- PWR_STATE.STATE (R431): 0 ACTIVE, 1 TILLER-GATED, 2 STANDBY, 3 DORMANT. -/
def powerState (m : Mach) : Nat :=
  if m.ctl.st = .standby then 2
  else if m.ctl.st = .dormant then 3
  else if (List.range 8).any (isGated m) then 1 else 0

/-- A change of the power state is an event (PWR_EVENT.STATE_CHANGE). -/
def notePower (m0 m : Mach) : Mach :=
  if powerState m0 = powerState m then m else raise m F.PWR_EVENT_STATE_CHANGE 0

/-- What a direct output is commanded to (R77, R390). -/
def doCommand (m : Mach) (n : Nat) : Bool :=
  match doMode m n with
  | 1 => pipelineOn m && m.eject.valveOut.getLsbD n
  | 2 => (ticking m || m.ctl.st == .configured || m.ctl.st == .standby) && statusSource m (doSrc m n)
  | 3 => pipelineOn m && bitOf (rd m F.FIO_DO_SET_SET 0) n
  | _ => false

/-- The outputs commanded on, bit n for DOn. -/
def doCommands (m : Mach) : BitVec 16 := BitVec.ofNat 16 (ofBits ((List.range 16).map (doCommand m)))

/-- The outputs that are on: commanded, not switched off in current limit, with the field supply in range (R51, R52, R58). -/
def doOn (m : Mach) : BitVec 16 :=
  if m.eject.fieldBad || !alive m || !m.ctl.powerGood then 0 else doCommands m &&& ~~~ m.eject.limited

/-- An output that its current limit switched off comes back with its next commanded on-edge (R58). -/
def settle (m0 m : Mach) : Mach :=
  if m.eject.limited = 0 then m
  else { m with eject := { m.eject with limited := m.eject.limited &&& ~~~ (doCommands m &&& ~~~ doCommands m0) } }

/-- The machine before a command, with nothing sent by it yet (assumption 10). -/
def fresh (m : Mach) : Mach := { m with out := [] }

/-- Run a command's effect: the queue is untouched, and `out` holds what this command sends (assumption 10). -/
def State.run (s : State) (f : Mach → Mach) : Host.Outcome State Fault Refusal := .next { s with mach := settle s.mach (f (fresh s.mach)) }

/-- GEN_CHECK_LAST. -/
def checkLast (m : Mach) (source ctx tiller run : Nat) : Mach :=
  wr (wr (wr (wr m F.GEN_CHECK_LAST_SOURCE 0 source) F.GEN_CHECK_LAST_CONTEXT 0 ctx) F.GEN_CHECK_LAST_TILLER 0 tiller)
    F.GEN_CHECK_LAST_RUN 0 run

/-- Parity failures of a word of Intake SRAM: `n` readings of it fail, 2 when the repeat fails too, so that it is bad (R350, R357). -/
def intakeParity (m : Mach) (n : Nat) : Mach :=
  if n = 0 then m
  else
    let m := checkLast (incBy m F.GEN_CHECK_CNT0_SRAM 0 n) 5 0 0xF 0
    if n ≥ 2 then raiseAs m F.GEN_CHECK_EVENT_SRAM 0 0xFF 0 else m

end Sys2Proof.Machine
end

