-- ==== Sys2Proof/Machine/Phy.lean ====
section
/-!
DEFINITION. Machine/Phy.lean: Sheaf lanes (R126 to R144, R468): training frames, port states, low-power states, pattern test; and
the flit as bits (R145 to R148). The commands that can take a port out of L0 are completed in Machine/Intake.lean.
-/

namespace Sys2Proof.Machine

/-- The 30 bytes of a flit above its CRC, highest first. -/
def flitBody (f : BitVec 256) : List Byte := ((leBytes 32 f.toNat).reverse).take 30

/-- A flit of a TYPE, 12 header bits and 28 bytes of payload (R145). -/
def mkFlit (type low : Nat) (payload : List Byte) : BitVec 256 :=
  let hdr := (type % 16) * 4096 + low % 4096
  let body := (leBytes 2 hdr).reverse ++ slice payload 0 28
  BitVec.ofNat 256 (beNat body * 65536 + crc468 body)

/-- A flit's CRC is right (R145). -/
def flitCrcOk (f : BitVec 256) : Bool := crc468 (flitBody f) == f.toNat % 65536

/-- TYPE, header low bits and payload of a flit (R145). -/
def flitType (f : BitVec 256) : Nat := bits f.toNat 252 4
def flitLow (f : BitVec 256) : BitVec 12 := BitVec.ofNat 12 (bits f.toNat 240 12)
def flitPayload (f : BitVec 256) : List Byte := (flitBody f).drop 2

/-- Header bits [15:12] are TYPE, [11:0] SEQ, ACK_SEQ or 0 (R145). -/
def idleFlit (m : Mach) (p : Nat) : BitVec 256 := mkFlit 0 (portOf m p).rxAck.toNat []

/-- A port's mode in the running image. -/
def portMode (m : Mach) (p : Nat) : PortMode := (camOf m p).mode

/-- The running image assigns the port. -/
def assigned (m : Mach) (p : Nat) : Bool := m.ctl.cameraApplied && portMode m p != .unassigned

/-- The port is in camera mode. -/
def cameraPort (m : Mach) (p : Nat) : Bool := assigned m p && portMode m p == .camera

/-- TEST is set on the port (SHF_PHY_CTRL.TEST). -/
def testSet (m : Mach) (p : Nat) : Bool := flag m F.SHF_PHY_CTRL_TEST p

/-- The bits of the lanes' last symbols in a flit (R146): lane n's is bit pair 124 + n. -/
def lastSymbols (lanes : BitVec 4) : BitVec 256 :=
  BitVec.ofNat 256 (((List.range 4).map (fun n => if lanes.getLsbD n then 3 * 4 ^ (3 - n) else 0)).sum)

/-- The lanes on which the injection that waits flips a symbol of a flit (R143): in peer mode it waits for a sequenced flit
(assumption 105). -/
def injLanes (m : Mach) (p : Nat) (f : BitVec 256) : BitVec 4 :=
  if !cameraPort m p && decide (f.toNat / 2 ^ 252 < 3) then 0 else (portOf m p).injNext

/-- A flit as the lanes carry it (R143). -/
def onLanes (m : Mach) (p : Nat) (f : BitVec 256) : BitVec 256 := f ^^^ lastSymbols (injLanes m p f)

/-- A flit leaves, with the injection that waited for it. -/
def emitFlit (m : Mach) (p : Nat) (f : BitVec 256) : Mach :=
  let m' := if injLanes m p f = 0 then m else setPort m p (fun s => { s with injNext := 0 })
  emit m' (.flit p (onLanes m p f))

/-- An LCTL: FLAGS, PM, cumulative credits, ACK_SEQ (R148, R149). While a scrub holds the port an IDLE flit stands in its place (R163). -/
def lctlFlit (m : Mach) (p flags pm : Nat) : BitVec 256 :=
  let s := portOf m p
  if s.scrubIdle then idleFlit m p
  else mkFlit 1 s.rxAck.toNat (leBytes 1 flags ++ leBytes 1 pm ++ leBytes 2 s.freedW.toNat ++ leBytes 2 s.freedR.toNat)

/-- Send an LCTL. -/
def sendLctl (m : Mach) (p flags pm : Nat) : Mach := emitFlit m p (lctlFlit m p flags pm)

/-- The state code that training frames and SHF_PHY_STATUS carry (R131). -/
def phyCode (x : PhyState) : Nat :=
  match x with
  | .off => 0 | .detect => 1 | .clock => 2 | .frame => 3 | .eq => 4 | .measure => 5 | .hold => 6
  | .l0 => 7 | .quiet => 8 | .deep => 9 | .wake => 10 | .test => 11

/-- FLAGS that stand in every frame of ours on a lane (R132): HOLD, PRECODE_REQ, EQ_DONE of the lane, FAST. -/
def frameFlags (m : Mach) (p lane : Nat) : Nat :=
  let s := portOf m p
  b2n (s.phy == .hold) + 2 * b2n (flag m F.SHF_PHY_CTRL_PRECODE_REQ p) + 16 * b2n (s.eqHere.getLsbD lane) + 32 * b2n s.fast

/-- A training frame of ours on a lane, with further FLAGS: ECHO_REQ, ECHO or ACK (R132). TAP_REQ is sent in EQ; TURN_UI is a constant of
the port. -/
def frameOf (m : Mach) (p lane more : Nat) : BitVec 128 :=
  let s := portOf m p
  let tap := if s.phy == .eq then bits s.tapReq.toNat (4 * lane) 4 else 0
  frameWord (phyCode s.phy) (frameFlags m p lane + more) (Config.turnUi p).toNat lane tap

/-- A training frame on every data lane at once (R132). Frames repeat; the model sends one where what they say changes, and one as an
answer to each that comes (assumption 105). -/
def sendFrames (m : Mach) (p : Nat) (more : Nat → Nat) : Mach :=
  forEach (List.range 4) m (fun m lane => emit m (.train p lane (frameOf m p lane (more lane))))

/-- Start a training: full from nothing, or fast with the saved settings; frames start where both clocks are there (R133, R136). -/
def startTraining (m : Mach) (p : Nat) (phy : PhyState) (fast : Bool) : Mach :=
  let m := wr m F.SHF_PHY_STATUS_LANE_OK p 0
  let m := wr m F.SHF_PHY_STATUS_CK_LOCK p (b2n (phy != .detect && phy != .off))
  let m := setPort m p (fun s => { s with
    phy := phy, fast := fast, backoff := false, wake := false, frameOk := 0, eqHere := 0, eqThere := 0, tapReq := 0, injNext := 0,
    lpOut := none, lpPeer := none, lpAcked := none, awaitAck := false })
  if phy == .clock || phy == .wake then sendFrames m p (fun _ => 0) else m

/-- The port is training. -/
def inTraining (s : SheafPort) : Bool :=
  match s.phy with
  | .detect | .clock | .frame | .eq | .measure | .hold | .wake => true
  | _ => false

/-- A retraining from L0 or QUIET, fast where settings are saved; the link-layer state is kept (R136, R152). -/
def retrainFrom (m : Mach) (p : Nat) (phy : PhyState) : Mach :=
  startTraining (raise m F.SHF_PHY_EVENT_RETRAIN p) p phy (portOf m p).saved

/-- A retraining under R137: counted. -/
def retrain137 (m : Mach) (p : Nat) (phy : PhyState) : Mach := retrainFrom (inc m F.SHF_PHY_CNT_RETRAINS p) p phy

/-- Ask the partner for a low-power state (R139, R162); a camera-mode port makes no request while ticks run: it is refused (R139, R140).
Outside L0 the request is held until L0, on a port that sends IDLE only for a scrub until its end (R163). -/
def lpRequest (m : Mach) (p : Nat) (r : LpReq) : Mach :=
  if (portOf m p).phy != .l0 || (portOf m p).scrubIdle then setPort m p (fun s => { s with lpWait := some r })
  else match r with
    | .l0 => setPort m p (fun s => { s with lpOut := none })
    | _ =>
      if cameraPort m p && ticking m then raise m F.SHF_PHY_EVENT_LP_REFUSED p
      else sendLctl (setPort m p (fun s => { s with lpOut := some r })) p 0 (if r == .deep then 2 else 1)

/-- L0 is entered: the settings are saved, the first flit is an LCTL, a held request is taken up (R133, R139, R140, R152). -/
def enterL0 (m : Mach) (p : Nat) : Mach :=
  let s := portOf m p
  let m := raise (wr (wr m F.SHF_PHY_STATUS_LANE_OK p 15) F.SHF_PHY_STATUS_CK_LOCK p 1) F.SHF_PHY_EVENT_UP p
  let m := setPort m p (fun s => { s with phy := .l0, saved := true, fast := false, awaitAck := true, lpWait := none })
  let m := sendLctl m p (if s.fresh then 4 else 0) 0
  let m := if s.scrubIdle then m else setPort m p (fun s => { s with fresh := false })
  match s.lpWait with
  | some .quiet => lpRequest m p .quiet
  | some .deep => lpRequest m p .deep
  | _ => m

/-- A camera-mode port is held until CAMERA is applied; a peer-mode port until the placement that uses it is complete (R134). -/
def holdWanted (m : Mach) (p : Nat) : Bool :=
  match portMode m p with
  | .camera => !m.ctl.cameraApplied
  | .peer => !(m.fab.ctxs.any (fun c => c.2.progState == 1 &&
      (match c.2.program with | some q => q.peer.any (fun d => d.port == p) | none => false)))
  | .unassigned => false

/-- Ports whose reason to be held has gone enter L0 (R134). -/
def holdRelease (m : Mach) : Mach :=
  forEach (List.range 16) m (fun m p => if (portOf m p).phy == .hold && !holdWanted m p then enterL0 m p else m)

/-- A frame's CRC and MARKER are right (R132). -/
def frameGood (f : BitVec 128) : Bool :=
  crc468 (((leBytes 16 f.toNat).reverse).take 14) == f.toNat % 65536 && bits f.toNat 96 32 == 0x5AF0C30F

/-- The partner's ROLE and the lane index are right: TEST accepts both roles, a camera-mode port 0x01, a peer-mode port 0x02
(R129, R132, R142, R155, R156). -/
def frameFits (m : Mach) (p lane : Nat) (f : BitVec 128) : Bool :=
  let role := bits f.toNat 56 8
  let roleOk := if testSet m p then role == 1 || role == 2
    else match portMode m p with
      | .camera => role == 1
      | .peer => role == 2
      | .unassigned => false
  roleOk && bits f.toNat 52 4 == lane

/-- Steps of one equaliser tap: 0 hold, 1 increase, 2 decrease, 3 the preset (R132; limits of R130). Increase and decrease move it by one step of
1/32 (assumption 116). -/
def tapStep (req old top preset : Nat) : Nat :=
  match req with
  | 1 => min top (old + 1)
  | 2 => old - 1
  | 3 => preset
  | _ => old

/-- The fields of SHF_TX_EQ and SHF_RX_STAT by lane. -/
def txPre (lane : Nat) : Fld := { F.SHF_TX_EQ_0_PRE with base := F.SHF_TX_EQ_0_PRE.base + 4 * lane }
def txPost (lane : Nat) : Fld := { F.SHF_TX_EQ_0_POST with base := F.SHF_TX_EQ_0_POST.base + 4 * lane }
def rxEye (lane : Nat) : Fld := { F.SHF_RX_STAT_0_EYE_MV with base := F.SHF_RX_STAT_0_EYE_MV.base + 4 * lane }
def rxSkew (lane : Nat) : Fld := { F.SHF_RX_STAT_0_SKEW_UI with base := F.SHF_RX_STAT_0_SKEW_UI.base + 4 * lane }
def rxCtle (lane : Nat) : Fld := { F.SHF_RX_STAT_0_CTLE with base := F.SHF_RX_STAT_0_CTLE.base + 4 * lane }
def patErr (lane : Nat) : Fld := { F.SHF_PAT_ERR_0_BIT_ERR with base := F.SHF_PAT_ERR_0_BIT_ERR.base + 4 * lane }

/-- A TAP_REQ is applied to our transmitter, unless TX_FIXED (R132); it is acknowledged in either case (assumption 116). -/
def applyTap (m : Mach) (p lane req : Nat) : Mach :=
  if flag m F.SHF_PHY_CTRL_TX_FIXED p then m
  else
    let m := wr m (txPre lane) p (tapStep (req / 4) (rd m (txPre lane) p) 8 2)
    wr m (txPost lane) p (tapStep (req % 4) (rd m (txPost lane) p) 12 4)

/-- Cable delay from an echo: (RT − TURN_UI) ÷ 2 × 35.714 ps, in whole ps (R135). -/
def cablePs (rt turn : Nat) : Nat := (rt - turn) * 35714 / 2000

/-- Training has come to its end: HOLD while the module holds the partner, else L0 (R133, R134). -/
def afterMeasure (m : Mach) (p : Nat) : Mach :=
  if holdWanted m p then sendFrames (setPort m p (fun s => { s with phy := .hold })) p (fun _ => 0)
  else enterL0 m p

/-- What our next frames say because of a partner's on a lane: ACK of its TAP_REQ, and on D0 the ECHO of its ECHO_REQ (R132, R135). -/
def answerFlags (lane : Nat) (f : BitVec 128) (l : Nat) : Nat :=
  if l = lane then (if bits f.toNat 48 4 ≠ 0 then 64 else 0) + (if lane = 0 ∧ bits f.toNat 82 1 = 1 then 8 else 0) else 0

/-- Frames leave where the partner's asks for an answer. -/
def answerFrame (m : Mach) (p lane : Nat) (f : BitVec 128) : Mach :=
  if answerFlags lane f lane = 0 then m else sendFrames m p (answerFlags lane f)

/-- A good frame in CLOCK, FRAME or WAKE: polarity, deskew and precoding are taken from it; with all four lanes, EQ (R133). A lane
whose skew the FIFO cannot absorb brings no progress (R129). -/
def frameFound (m : Mach) (p lane : Nat) (f : BitVec 128) (meas : RxMeas) : Mach :=
  if meas.skewUi > 32 then answerFrame m p lane f
  else
    let pol := rd m F.SHF_PHY_STATUS_LANE_POL p
    let bit := 1 <<< lane
    let m := wr m F.SHF_PHY_STATUS_LANE_POL p (if meas.inverted then pol ||| bit else pol &&& (15 ^^^ bit))
    let m := wr m (rxSkew lane) p meas.skewUi
    let m := wr m F.SHF_PHY_STATUS_PRECODE_TX p (bits f.toNat 81 1)
    let m := wr m F.SHF_PHY_STATUS_PRECODE_RX p (rd m F.SHF_PHY_CTRL_PRECODE_REQ p)
    let ok := (portOf m p).frameOk ||| (1#4 <<< lane)
    let m := setPort m p (fun s => { s with frameOk := ok, phy := if ok = 15 then .eq else .frame })
    sendFrames m p (answerFlags lane f)

/-- A frame in EQ: the receiver's results, EQ_DONE both ways, our own TAP_REQ; with all done, MEASURE with an ECHO_REQ on D0, or TEST (R132,
R133, R135, R142). -/
def frameEq (m : Mach) (p lane : Nat) (f : BitVec 128) (meas : RxMeas) : Mach :=
  let m := wr (wr m (rxEye lane) p (sat 8 meas.eyeMv)) (rxCtle lane) p (min 15 meas.ctle)
  let one := 1#4 <<< lane
  let m := setPort m p (fun s => { s with
    eqHere := if meas.eyeMv ≥ 20 then s.eqHere ||| one else s.eqHere &&& ~~~ one,
    eqThere := if bits f.toNat 84 1 = 1 then s.eqThere ||| one else s.eqThere &&& ~~~ one,
    tapReq := (s.tapReq &&& ~~~ (15#16 <<< (4 * lane))) ||| (meas.tapReq.zeroExtend 16 <<< (4 * lane)) })
  let s := portOf m p
  let done := s.eqHere = 15 ∧ s.eqThere = 15
  let m := if done ∧ !testSet m p then setPort m p (fun s => { s with phy := .measure }) else m
  let m := sendFrames m p (fun l => answerFlags lane f l + (if l = 0 ∧ done ∧ !testSet m p then 4 else 0))
  if done ∧ testSet m p then wr (setPort m p (fun s => { s with phy := .test })) F.SHF_PHY_STATUS_LANE_OK p 15 else m

/-- A frame in MEASURE or HOLD: an ECHO on D0 gives the cable delay and the trigger latency, which is taken at once unless swaths or
alignment run (R135, R170). -/
def frameMeasure (m : Mach) (p lane : Nat) (f : BitVec 128) (meas : RxMeas) : Mach :=
  let m := answerFrame m p lane f
  if lane = 0 ∧ bits f.toNat 83 1 = 1 ∧ (portOf m p).phy = .measure then
    let ps := cablePs meas.rtUi (bits f.toNat 64 16)
    let m := wr m F.SHF_PHY_TIMING_CABLE_PS p (sat 20 ps)
    let m := setIp m p (fun i => { i with
      nextLatPs := 96000 + ps, latencyPs := if ticking m || m.ctl.align then i.latencyPs else 96000 + ps })
    afterMeasure m p
  else m

/-- TRAINING_FRAME (R132): a frame whose CRC fails is ignored, and one of another ROLE or lane brings no progress. A TAP_REQ is applied and
acknowledged, and an ECHO_REQ answered TURN_UI after it, whatever the phase of the training. -/
def trainingFrame (p lane : Nat) (f : BitVec 128) (meas : RxMeas) (m : Mach) : Mach :=
  if !(frameGood f && frameFits m p lane f) then m
  else
    let heard := applyTap m p lane (bits f.toNat 48 4)
    match (portOf m p).phy with
    | .clock | .frame | .wake => frameFound heard p lane f meas
    | .eq => frameEq heard p lane f meas
    | .measure | .hold => frameMeasure heard p lane f meas
    | _ => m

def execTrainingFrame (port : Fin 16) (lane : Fin 4) (frame : BitVec 128) (meas : RxMeas) (s : State) :
    Host.Outcome State Fault Refusal := s.run (trainingFrame port lane frame meas)

/-- PARTNER_CK_DETECTED (R133, R138): training starts from DETECT; in DEEP our CK starts too and fast retraining runs. -/
def partnerCk (p : Nat) (m : Mach) : Mach :=
  let s := portOf m p
  match s.phy with
  | .detect => startTraining m p (if s.wake && s.saved then .wake else .clock) s.fast
  | .deep => startTraining m p (if s.saved then .wake else .clock) s.saved
  | _ => m

def execPartnerCkDetected (port : Fin 16) (s : State) : Host.Outcome State Fault Refusal := s.run (partnerCk port)

/-- TRAIN_FAIL (R133): electrical idle for 100 ms, in which STATE reads OFF (assumption 116). -/
def trainFail (p : Nat) (m : Mach) : Mach :=
  let s := portOf m p
  match s.phy with
  | .clock | .frame | .eq | .measure | .wake =>
    setPort (raiseCount (startTraining m p .off false) F.SHF_PHY_EVENT_TRAIN_FAIL F.SHF_PHY_CNT_TRAIN_FAIL p) p
      (fun s => { s with backoff := true })
  | _ => m

def execTrainFail (port : Fin 16) (s : State) : Host.Outcome State Fault Refusal := s.run (trainFail port)

/-- TRAIN_BACKOFF_END (R133): back to DETECT. -/
def trainBackoffEnd (p : Nat) (m : Mach) : Mach :=
  if (portOf m p).backoff && (portOf m p).phy == .off then startTraining m p .detect false else m

def execTrainBackoffEnd (port : Fin 16) (s : State) : Host.Outcome State Fault Refusal := s.run (trainBackoffEnd port)

/-- FAST_RETRAIN_TIMEOUT (R136): full training without waiting. -/
def fastTimeout (p : Nat) (m : Mach) : Mach :=
  let s := portOf m p
  if s.fast && inTraining s && s.phy != .detect && s.phy != .hold then startTraining m p .clock false else m

def execFastRetrainTimeout (port : Fin 16) (s : State) : Host.Outcome State Fault Refusal := s.run (fastTimeout port)

/-- CLK_LOSS (R137, R140): in L0 or QUIET without an acknowledged DEEP handshake. -/
def clkLoss (p : Nat) (m : Mach) : Mach :=
  let s := portOf m p
  if (s.phy == .l0 || s.phy == .quiet) && s.lpAcked != some .deep then
    retrain137 (raiseCount m F.SHF_PHY_EVENT_CLK_LOSS F.SHF_PHY_CNT_CLK_LOSS p) p .detect
  else m

/-- DESKEW_ERR (R137). -/
def deskewErr (p : Nat) (m : Mach) : Mach :=
  let s := portOf m p
  if s.phy == .l0 || s.phy == .quiet then
    retrain137 (raiseCount m F.SHF_PHY_EVENT_DESKEW_ERR F.SHF_PHY_CNT_DESKEW_ERR p) p .clock
  else m

/-- RETRAIN (R136): the saved settings go and full training runs; after a failed training, at the end of its 100 ms (R133). A port that is
OFF has no training. -/
def retrain (p : Nat) (m : Mach) : Mach :=
  bar0P m (fun m =>
    let s := portOf m p
    let m := setPort m p (fun s => { s with saved := false })
    if s.phy == .off then m
    else
      let m := raiseIf (s.phy == .l0 || s.phy == .quiet) m F.SHF_PHY_EVENT_RETRAIN p
      startTraining m p (if s.phy == .detect || s.phy == .deep then .detect else .clock) false)

/-- The port leaves a low-power state: QUIET at full swing; DEEP by starting its CK, from step 1 of R133 (R138). -/
def lpExit (m : Mach) (p : Nat) : Mach :=
  match (portOf m p).phy with
  | .quiet => enterL0 m p
  | .deep => setPort (startTraining m p .detect (portOf m p).saved) p (fun s => { s with wake := true })
  | _ => m

/-- LP_REQ_L0, LP_REQ_QUIET, LP_REQ_DEEP (R139, R140): a write of SHF_PHY_CTRL.LP_REQ; another state is reached through L0. -/
def lpWrite (p : Nat) (r : LpReq) (m : Mach) : Mach :=
  bar0P m (fun m =>
    let m := wr m F.SHF_PHY_CTRL_LP_REQ p (match r with | .l0 => 0 | .quiet => 1 | .deep => 2)
    match (portOf m p).phy, r with
    | .off, _ => m
    | .test, _ => m
    | .quiet, .quiet => m
    | .deep, .deep => m
    | .quiet, _ => lpExit (setPort m p (fun s => { s with lpWait := some r })) p
    | .deep, _ => lpExit (setPort m p (fun s => { s with lpWait := some r })) p
    | _, _ => lpRequest m p r)

def execLpReqL0 (port : Fin 16) (s : State) : Host.Outcome State Fault Refusal := s.run (lpWrite port .l0)
def execLpReqQuiet (port : Fin 16) (s : State) : Host.Outcome State Fault Refusal := s.run (lpWrite port .quiet)
def execLpReqDeep (port : Fin 16) (s : State) : Host.Outcome State Fault Refusal := s.run (lpWrite port .deep)

/-- How long a port is idle before it asks for QUIET, in µs; 0 never (R139): QUIET_US, but 1 µs for a peer-mode port with no flit pending
while the cap throttles the links (R435). -/
def quietAfter (m : Mach) (p : Nat) : Nat :=
  if m.power.linkLimited && assigned m p && portMode m p == .peer && (portOf m p).waiting.isEmpty then 1 else rd m F.SHF_PHY_CTRL_QUIET_US p

/-- QUIET_IDLE_TIMEOUT (R139, R435): no flit other than idle for that time; a camera-mode port makes no request while ticks run. -/
def quietIdle (p : Nat) (m : Mach) : Mach :=
  let s := portOf m p
  if s.phy == .l0 && decide (quietAfter m p > 0) && s.lpOut.isNone && s.lpAcked.isNone
      && !(cameraPort m p && ticking m) then lpRequest m p .quiet else m

def execQuietIdleTimeout (port : Fin 16) (s : State) : Host.Outcome State Fault Refusal := s.run (quietIdle port)

/-- QUIET_EXIT (R138): an end restores full swing; both are in L0 within 2 µs. -/
def quietExit (p : Nat) (m : Mach) : Mach := if (portOf m p).phy == .quiet then enterL0 m p else m

def execQuietExit (port : Fin 16) (s : State) : Host.Outcome State Fault Refusal := s.run (quietExit port)

/-- LOW_POWER_ENTRY (R162): acknowledged, with the replay buffer empty, the state is entered; and left at once where the module has left
STANDBY meanwhile (R139). -/
def lowPowerEntry (p : Nat) (m : Mach) : Mach :=
  let s := portOf m p
  let back := fun (m : Mach) => if s.lpWait == some .l0 then lpExit m p else m
  if s.phy != .l0 || !s.replay.isEmpty then m
  else match s.lpAcked with
    | some .quiet => back (raise (setPort m p (fun s => { s with phy := .quiet, lpOut := none, lpPeer := none, lpAcked := none }))
        F.SHF_PHY_EVENT_QUIET p)
    | some .deep =>
      let m := setPort m p (fun s => { s with phy := .deep, lpOut := none, lpPeer := none, lpAcked := none })
      back (raise (wr m F.SHF_PHY_STATUS_CK_LOCK p 0) F.SHF_PHY_EVENT_DEEP p)
    | _ => m

/-- TEST_WRITE (R142, R144): a write of SHF_PHY_CTRL.TEST. -/
def testWrite (p : Nat) (on : Bool) (m : Mach) : Mach :=
  bar0P m (fun m =>
    if on && assigned m p && m.ctl.st != .configured then deny m
    else if on then
      let m := wr m F.SHF_PHY_CTRL_TEST p 1
      -- in partial reset, training waits for its end (R64)
      if (portOf m p).dark then m else startTraining m p .detect false
    else if !testSet m p then m
    else
      let m := wr m F.SHF_PHY_CTRL_TEST p 0
      if (portOf m p).dark then m
      else if assigned m p then startTraining (setPort m p (fun s => { s with saved := false })) p .detect false
      else startTraining m p .off false)

/-- CHECKER_ENABLE (R142): a write of 1 to CHK_EN clears the window; each checker seeds itself from the bits its lane receives. -/
def checkerEnable (p : Nat) (rx : List (List Bool)) (m : Mach) : Mach :=
  bar0P m (fun m =>
    let m := wr m F.SHF_PAT_CTRL_CHK_EN p 1
    let pat := rd m F.SHF_PAT_CTRL_PATTERN p
    let on := (portOf m p).phy == .test
    let cs := (List.range 4).map (fun l => if on then (rx.getD l []).foldl (chkBit pat) {} else {})
    wr (setPort m p (fun s => { s with checkers := cs })) F.SHF_PAT_CTRL_CHK_LOCK p (ofBits (cs.map (fun c => c.locked))))

def execCheckerEnable (port : Fin 16) (rx : List (List Bool)) (s : State) : Host.Outcome State Fault Refusal :=
  s.run (checkerEnable port rx)

/-- CHK_EN is written 0: the checkers stop (R142). -/
def checkersOff (m : Mach) (p : Nat) : Mach :=
  setPort (wr (wr m F.SHF_PAT_CTRL_CHK_EN p 0) F.SHF_PAT_CTRL_CHK_LOCK p 0) p (fun s => { s with checkers := [{}, {}, {}, {}] })

/-- INJ_ONE (R143): in TEST the generators that run flip a bit on each selected lane; in L0, at TRACE or FULL, a symbol of live traffic
is flipped on each. -/
def injOne (p : Nat) (m : Mach) : Mach :=
  bar0P m (fun m =>
    let lanes := BitVec.ofNat 4 (rd m F.SHF_PAT_CTRL_INJ_LANES p)
    match (portOf m p).phy with
    | .l0 => if !traceOn m then deny m else setPort m p (fun s => { s with injNext := lanes })
    | .test => if flag m F.SHF_PAT_CTRL_GEN_EN p then emit m (.patternFlip p lanes) else m
    | _ => m)

def execInjOne (port : Fin 16) (s : State) : Host.Outcome State Fault Refusal := s.run (injOne port)

/-- One lane's checker takes what the lane received (R142): the errors it counts go to SHF_PAT_ERR. -/
def checkLane (p : Nat) (runs : List LaneRun) (m : Mach) (l : Nat) : Mach :=
  let pat := rd m F.SHF_PAT_CTRL_PATTERN p
  let n := rd m F.SHF_PAT_CTRL_WINDOW p
  let r := runs.getD l {}
  let c := r.seen.foldl (chkBit pat) ((portOf m p).checkers.getD l {})
  let q := chkRun pat (if n = 0 then 0 else 2 ^ (n + 30)) c 0 r.wrong r.total
  incBy (setPort m p (fun s => { s with checkers := s.checkers.set l q.1 })) (patErr l) p q.2

/-- PATTERN_WINDOW_END (R142): the lanes' checkers go on over what came since they were last heard of; each stops once it has compared
2^(WINDOW + 30) bits, with WINDOW = 0 never. -/
def patternWindowEnd (p : Nat) (runs : List LaneRun) (m : Mach) : Mach :=
  if (portOf m p).phy == .test && flag m F.SHF_PAT_CTRL_CHK_EN p then
    let m := forEach (List.range 4) m (checkLane p runs)
    wr m F.SHF_PAT_CTRL_CHK_LOCK p (ofBits ((portOf m p).checkers.map (fun c => c.locked)))
  else m

def execPatternWindowEnd (port : Fin 16) (runs : List LaneRun) (s : State) : Host.Outcome State Fault Refusal :=
  s.run (patternWindowEnd port runs)

/-- What a data lane's transmitter sends (R131). -/
def transmits (m : Mach) (p lane : Nat) : LaneOut :=
  match (portOf m p).phy with
  | .off | .detect | .deep => .idle
  | .clock | .frame | .hold | .wake => .frames (frameOf m p lane 0)
  -- the ECHO_REQ goes out on D0 (R135)
  | .measure => .frames (frameOf m p lane (if lane = 0 then 4 else 0))
  | .eq => .framesPrbs (frameOf m p lane 0)
  | .l0 => .flits (flag m F.SHF_PHY_STATUS_PRECODE_TX p)
  | .quiet => .quiet
  | .test =>
    if flag m F.SHF_PAT_CTRL_GEN_EN p then
      .pattern (rd m F.SHF_PAT_CTRL_PATTERN p) (if bitOf (rd m F.SHF_PAT_CTRL_INJ_LANES p) lane then rd m F.SHF_PAT_CTRL_INJ_RATE p else 0)
    else .unstated

/-- The port sends its CK (R131, R138). -/
def sendsCk (m : Mach) (p : Nat) : Bool := (portOf m p).phy != .off && (portOf m p).phy != .deep

/-- A write of SHF_TX_EQ (R130): PRE and POST act only with TX_FIXED, up to 8 and 12. -/
def txEqWrite (m : Mach) (p : Nat) (old v : Word) : Word :=
  if flag m F.SHF_PHY_CTRL_TX_FIXED p then
    putFld (putFld v F.SHF_TX_EQ_0_PRE (min 8 (bits v.toNat 8 4))) F.SHF_TX_EQ_0_POST (min 12 (bits v.toNat 4 4))
  else putFld (putFld v F.SHF_TX_EQ_0_PRE (bits old.toNat 8 4)) F.SHF_TX_EQ_0_POST (bits old.toNat 4 4)

/-- A write of SHF_PAT_CTRL (R141): PATTERN 3 leaves the field as it is (assumption 105). -/
def patCtrlWrite (old v : Word) : Word :=
  if bits v.toNat 0 2 = 3 then putFld v F.SHF_PAT_CTRL_PATTERN (bits old.toNat 0 2) else v

end Sys2Proof.Machine
end

