-- ==== Sys2Proof/Machine/Num.lean ====
section
/-!
DEFINITION. Machine/Num.lean: the number formats of the Tillers and their arithmetic (R238 to R250). A value is exact: a
sign, a magnitude and a power of two, or an infinity or NaN; every rounding is explicit.
-/

namespace Sys2Proof.Machine

/-- An exact value: NaN, an infinity, or (−1)^neg × mag × 2^exp. A zero keeps its sign. -/
inductive Val where
  | nan
  | inf (neg : Bool)
  | fin (neg : Bool) (mag : Nat) (exp : Int)
  deriving DecidableEq, Repr, Inhabited

/-- +0. -/
def Val.zero : Val := .fin false 0 0

/-- An integer. -/
def Val.ofInt (i : Int) : Val := .fin (decide (i < 0)) i.natAbs 0

/-- Is it NaN? -/
def Val.isNan (v : Val) : Bool :=
  match v with
  | .nan => true
  | .inf _ => false
  | .fin _ _ _ => false

/-- Is it a zero? -/
def Val.isZero (v : Val) : Bool :=
  match v with
  | .fin _ m _ => m == 0
  | .nan => false
  | .inf _ => false

/-- The sign changed. -/
def Val.neg (v : Val) : Val :=
  match v with
  | .nan => .nan
  | .inf n => .inf (!n)
  | .fin n m e => .fin (!n) m e

/-- Exact sum (R242, R250): ∞ − ∞ is NaN; a sum that cancels is +0. -/
def Val.add (x y : Val) : Val :=
  match x, y with
  | .nan, _ => .nan
  | _, .nan => .nan
  | .inf a, .inf b => if a = b then .inf a else .nan
  | .inf a, .fin _ _ _ => .inf a
  | .fin _ _ _, .inf b => .inf b
  | .fin a m e, .fin b n f =>
    let g := min e f
    let x : Int := (m * 2 ^ (e - g).toNat : Nat)
    let y : Int := (n * 2 ^ (f - g).toNat : Nat)
    let s := (if a then -x else x) + (if b then -y else y)
    if s = 0 then .fin (a && b) 0 0 else .fin (decide (s < 0)) s.natAbs g

/-- Exact product (R242, R250): ∞ × 0 is NaN. -/
def Val.mul (x y : Val) : Val :=
  match x, y with
  | .nan, _ => .nan
  | _, .nan => .nan
  | .inf a, .inf b => .inf (a != b)
  | .inf a, .fin b n _ => if n = 0 then .nan else .inf (a != b)
  | .fin a m _, .inf b => if m = 0 then .nan else .inf (a != b)
  | .fin a m e, .fin b n f => .fin (a != b) (m * n) (e + f)

/-- Compare two values that are not NaN: is x < y? Zeros are equal. -/
def Val.lt (x y : Val) : Bool :=
  match x, y with
  | .nan, _ => false
  | _, .nan => false
  | .inf a, .inf b => a && !b
  | .inf a, .fin _ _ _ => a
  | .fin _ _ _, .inf b => !b
  | .fin a m e, .fin b n f =>
    let g := min e f
    let x : Int := (m * 2 ^ (e - g).toNat : Nat)
    let y : Int := (n * 2 ^ (f - g).toNat : Nat)
    decide ((if a then -x else x) < (if b then -y else y))

/-- Drop `k` bits, rounding to nearest, ties to even. -/
def rne (m k : Nat) : Nat :=
  let q := m / 2 ^ k
  let r := m % 2 ^ k
  if 2 * r > 2 ^ k || (2 * r == 2 ^ k && q % 2 == 1) then q + 1 else q

/-- Round a magnitude to `p` significant bits, ties to even, the exponent unbounded. -/
def roundSig (p m : Nat) (e : Int) : Nat × Int :=
  let n := Nat.log2 m + 1
  if n ≤ p then (m, e) else (rne m (n - p), e + ((n - p : Nat) : Int))

/-- A magnitude below 2^-126 is a zero of the same sign, one from 2^128 on an infinity (R242). -/
def flush (neg : Bool) (m : Nat) (e : Int) : Val :=
  if m = 0 then .fin neg 0 0
  else
    let t := (Nat.log2 m : Int) + e
    if t < -126 then .fin neg 0 0 else if t ≥ 128 then .inf neg else .fin neg m e

/-- Round to `p` significant bits, then R242's ends. -/
def roundTo (p : Nat) (v : Val) : Val :=
  match v with
  | .nan => .nan
  | .inf n => .inf n
  | .fin n m e => flush n (roundSig p m e).1 (roundSig p m e).2

/-- One binary32 addition under R242. -/
def add32 (x y : Val) : Val := roundTo 24 (Val.add x y)

/-- A product of a float pair under R242: exact, its ends flushed. -/
def mul32 (x y : Val) : Val :=
  match Val.mul x y with
  | .nan => .nan
  | .inf n => .inf n
  | .fin n m e => flush n m e

/-- An FP16 element (R238); subnormals are used exactly (R250). -/
def ofFp16 (w : Nat) : Val :=
  let s := bitOf w 15
  let e := bits w 10 5
  let f := bits w 0 10
  if e = 31 then (if f = 0 then .inf s else .nan)
  else if e = 0 then .fin s f (-24) else .fin s (1024 + f) ((e : Int) - 25)

/-- A BF16 element; a subnormal reads as a zero of the same sign (R250). -/
def ofBf16 (w : Nat) : Val :=
  let s := bitOf w 15
  let e := bits w 7 8
  let f := bits w 0 7
  if e = 255 then (if f = 0 then .inf s else .nan)
  else if e = 0 then .fin s 0 0 else .fin s (128 + f) ((e : Int) - 134)

/-- A binary32 word. -/
def ofF32 (w : Nat) : Val :=
  let s := bitOf w 31
  let e := bits w 23 8
  let f := bits w 0 23
  if e = 255 then (if f = 0 then .inf s else .nan)
  else if e = 0 then .fin s f (-149) else .fin s (8388608 + f) ((e : Int) - 150)

/-- The bits of a normal value of `p` significant bits, the exponent biased by 127. -/
def packNormal (p : Nat) (neg : Bool) (m : Nat) (e : Int) : Nat :=
  let n := Nat.log2 m
  b2n neg * 2 ^ (p + 7) + ((n : Int) + e + 127).toNat * 2 ^ (p - 1) + (m * 2 ^ (p - 1 - n) - 2 ^ (p - 1))

/-- To BF16 (R248): one rounding to 8 bits, then the ends of R242. -/
def toBf16 (v : Val) : Nat :=
  match roundTo 8 v with
  | .nan => 0x7FC0
  | .inf n => b2n n * 0x8000 + 0x7F80
  | .fin n m e => if m = 0 then b2n n * 0x8000 else packNormal 8 n (roundSig 8 m e).1 (roundSig 8 m e).2

/-- The bits of a finite magnitude in FP16, one rounding under IEEE 754, subnormals kept (R248). -/
def fp16Mag (m : Nat) (e : Int) : Nat :=
  if m = 0 then 0
  else
    let u := max ((Nat.log2 m : Int) + e - 10) (-24)
    let q := if e ≥ u then m * 2 ^ (e - u).toNat else rne m (u - e).toNat
    min ((u + 24).toNat * 1024 + q) 0x7C00

/-- To FP16 (R248). -/
def toFp16 (v : Val) : Nat :=
  match v with
  | .nan => 0x7E00
  | .inf n => b2n n * 0x8000 + 0x7C00
  | .fin n m e => b2n n * 0x8000 + fp16Mag m e

/-- To binary32, for an accumulator (R238): sums are binary32 values already (R242); an initial value that no term was added to
stands as it is, subnormals too. The bits of a NaN are free, `d` (assumption 7). -/
def toF32 (d : Nat) (v : Val) : Nat :=
  match v with
  | .nan => (d / 2 ^ 24 % 2) * 2 ^ 31 + 0x7F800001 + d % 8388607
  | .inf n => b2n n * 2 ^ 31 + 0x7F800000
  | .fin n m e =>
    if m = 0 then b2n n * 2 ^ 31
    else if (Nat.log2 m : Int) + e < -126 then b2n n * 2 ^ 31 + m * 2 ^ (e + 149).toNat / 2 ^ (-149 - e).toNat
    else packNormal 24 n (roundSig 24 m e).1 (roundSig 24 m e).2

/-- Round mag × 2^exp to an integer (R247 step 1): half to even, or half away from zero. -/
def roundMag (away : Bool) (m : Nat) (e : Int) : Nat :=
  if e ≥ 0 then m * 2 ^ e.toNat
  else
    let k := (-e).toNat
    if away then (m + 2 ^ (k - 1)) / 2 ^ k else rne m k

/-- A fraction rounded to an integer, half to even or half away (R302). -/
def roundFrac (away : Bool) (t : Int) (dv : Nat) : Int :=
  let n := t.natAbs
  let q := n / dv
  let r := n % dv
  let q' := if 2 * r > dv || (2 * r == dv && (away || q % 2 == 1)) then q + 1 else q
  if t < 0 then -(q' : Int) else q'

/-- One binary32 division of a value by a small whole number, ties to even (R302). -/
def div32 (v : Val) (dv : Nat) : Val :=
  match v with
  | .nan => .nan
  | .inf n => .inf n
  | .fin n m e =>
    if m = 0 then .fin n 0 0
    else
      -- 40 bits more than the divisor needs, the remainder kept as a sticky bit
      let k := 64 + Nat.log2 dv
      let a := m * 2 ^ k
      let q := 2 * (a / dv) + (if a % dv = 0 then 0 else 1)
      let e' := e - k - 1
      let top := (Nat.log2 q : Int) + e'
      let u := max (top - 23) (-149)
      let r := if e' ≥ u then q * 2 ^ (e' - u).toNat else rne q (u - e').toNat
      if (Nat.log2 r : Int) + u ≥ 128 then .inf n else .fin n r u

/-- Formats (R238). -/
def isInt (f : Nat) : Bool := decide (f ≤ 2)
def isBs (f : Nat) : Bool := f == 3 || f == 4
def isFlt (f : Nat) : Bool := f == 5 || f == 6

/-- Bits of an element (R238). -/
def elemBits (f : Nat) : Nat := if f = 2 || f = 4 then 4 else if isFlt f then 16 else 8

/-- Bytes of a run of elements. -/
def runBytes (f n : Nat) : Nat := (n * elemBits f + 7) / 8

/-- Padded to a multiple of 32. -/
def pad32 (n : Nat) : Nat := cdiv n 32 * 32

/-- The raw element `i` of a run that starts at a byte (R239). -/
def elemAt (rdr : Nat → Nat) (f at_ i : Nat) : Nat :=
  if elemBits f = 4 then (rdr (at_ + i / 2) / 16 ^ (i % 2)) % 16
  else if elemBits f = 16 then rdr (at_ + 2 * i) + 256 * rdr (at_ + 2 * i + 1) else rdr (at_ + i)

/-- The integer of a raw integer element or mantissa. -/
def intOf (f w : Nat) : Int := if f = 1 then (w : Int) else sext (elemBits f) w

/-- The value of a raw element of an integer or float format. -/
def valOf (f w : Nat) : Val :=
  if f = 5 then ofFp16 w else if f = 6 then ofBf16 w else Val.ofInt (intOf f w)

/-- The value of a block-scaled element (R238, R240). -/
def bsVal (m : Int) (e : Nat) : Val :=
  if e = 255 then .nan else .fin (decide (m < 0)) m.natAbs ((e : Int) - 127)

/-- Range of an integer format (R247 step 4). -/
def rangeOf (f : Nat) : Int × Int :=
  if f = 0 then (-128, 127) else if f = 1 then (0, 255) else (-8, 7)

/-- Saturate. -/
def satTo (f : Nat) (r : Int) : Int := clampI (rangeOf f).1 (rangeOf f).2 r

/-- Elements packed into bytes (R239). An odd run of 4-bit elements ends in a half byte of `pad`. -/
def packElems (f pad : Nat) : List Nat → List Byte
  | [] => []
  | [x] =>
    if elemBits f = 4 then [BitVec.ofNat 8 (x % 16 + 16 * (pad % 16))] else leBytes (elemBits f / 8) x
  | x :: y :: xs =>
    if elemBits f = 4 then BitVec.ofNat 8 (x % 16 + 16 * (y % 16)) :: packElems f pad xs
    else leBytes (elemBits f / 8) x ++ packElems f pad (y :: xs)

/-- A parameter record (R245), and how a descriptor requantises (R253). -/
structure Rec where
  bias  : Val
  mult  : Val
  shift : Nat
  zero  : Int
  lo    : Nat
  hi    : Nat
  deriving DecidableEq, Repr, Inhabited

/-- How results are formed: output format, SCALE_MODE, ACT, RND_AWAY, the lookup table. -/
structure Form where
  fmt  : Nat
  mode : Nat
  act  : Nat
  away : Bool
  deriving DecidableEq, Repr, Inhabited

/-- The record of channel `c` at a byte of BIN_P (R245). `fp`: float or block-scaled pair. -/
def recAt (rdr : Nat → Nat) (at_ : Nat) (fp : Bool) (mode : Nat) : Rec :=
  let le := fun (o n : Nat) => ((List.range n).map (fun i => rdr (at_ + o + i) * 256 ^ i)).sum
  { bias := if fp then ofF32 (le 0 4) else Val.ofInt (sext 32 (le 0 4))
    mult := if mode = 1 then ofF32 (le 4 4) else Val.ofInt (sext 32 (le 4 4))
    shift := if mode = 1 then 0 else rdr (at_ + 8)
    zero := sext 16 (le 10 2)
    lo := le 12 2
    hi := le 14 2 }

/-- The scaled value y (R246). `int`: t is an integer's, so a zero has no sign. -/
def scaled (r : Rec) (int : Bool) (t : Val) : Val :=
  match r.mult with
  | .nan => .nan
  | .inf _ => .nan
  | .fin _ _ _ =>
    match Val.mul t r.mult with
    | .nan => .nan
    | .inf n => .inf n
    | .fin n m e => if m = 0 && int then Val.zero else .fin n m (e - r.shift)

/-- An element of an integer output (R247, R250): the raw element, and whether it counts in SAT and in NAN_INT. -/
def toIntElem (fm : Form) (r : Rec) (lut : Nat → Nat) (y : Val) : Nat × Nat × Nat :=
  let lo := sext 16 r.lo
  let hi := sext 16 r.hi
  let enc := fun (x : Int) => twos (elemBits fm.fmt) x
  match y with
  | .nan => (enc (satTo fm.fmt r.zero), 0, 1)
  | .inf n =>
    let big : Int := if n then -(2 ^ 80) else 2 ^ 80
    let c := if fm.act = 1 then min (max big lo) hi else big
    let s := satTo fm.fmt c
    (if fm.act = 2 then lut (if fm.fmt = 0 then (s + 128).toNat else s.toNat) else enc s, b2n (s != c), 0)
  | .fin n m e =>
    let q : Int := roundMag fm.away m e
    let x := (if n then -q else q) + r.zero
    let c := if fm.act = 1 then min (max x lo) hi else x
    let s := satTo fm.fmt c
    (if fm.act = 2 then lut (if fm.fmt = 0 then (s + 128).toNat else s.toNat) else enc s, b2n (s != c), 0)

/-- The larger of an element and a bound of a float output (R247 step 3, R248). Which of two zeros of unlike sign is taken
is free, `d`; so is the result at a bound that is NaN (assumption 7). -/
def boundFlt (f : Nat) (lower : Bool) (d x b : Nat) : Nat :=
  let vx := valOf f x
  let vb := valOf f b
  if vx.isNan then x
  else if vb.isNan then d % 65536
  else if vx.isZero && vb.isZero then (if d % 2 = 0 then x else b)
  else if (if lower then vx.lt vb else vb.lt vx) then b else x

/-- An element of a float output (R248). -/
def toFltElem (fm : Form) (r : Rec) (d : Nat) (y : Val) : Nat :=
  let x := if fm.fmt = 5 then toFp16 y else toBf16 y
  if fm.act = 1 then boundFlt fm.fmt false (d / 65536) (boundFlt fm.fmt true d x r.lo) r.hi else x

/-- floor(log2 |y|) of a finite value that is not 0. -/
def log2Val (m : Nat) (e : Int) : Int := (Nat.log2 m : Int) + e

/-- The greatest floor(log2) of a list of values. -/
def topLog : List Val → Option Int
  | [] => none
  | v :: vs =>
    match v with
    | .fin _ m e =>
      if m = 0 then topLog vs
      else match topLog vs with
        | none => some (log2Val m e)
        | some t => some (max t (log2Val m e))
    | .nan => topLog vs
    | .inf _ => topLog vs

/-- An output block of BS8 or BS4 (R249): mantissas of its real elements, and the exponent. -/
def bsBlock (fm : Form) (ys : List Val) : List Nat × Nat :=
  let bad := ys.any (fun y => match y with
    | .nan => true
    | .inf _ => true
    | .fin _ _ _ => false)
  if bad then (ys.map (fun _ => 0), 255)
  else match topLog ys with
    | none => (ys.map (fun _ => 0), 0)
    | some e =>
      let ex := clampI 0 254 (e + (if fm.fmt = 3 then 121 else 125))
      let w := elemBits fm.fmt
      (ys.map (fun y => match y with
        | .fin n m x =>
          let q : Int := roundMag fm.away m (x - (ex - 127))
          twos w (clampS w (if n then -q else q))
        | .nan => 0
        | .inf _ => 0), ex.toNat)

end Sys2Proof.Machine
end

