-- ==== Sys2Proof/Machine/Desc.lean ====
section
/-!
DEFINITION. Machine/Desc.lean: command descriptors (R253, R254): their fields, the field checks of each opcode (check 1 of
R285), the handles they name, the unit they hold and their cycle figures.
-/

namespace Sys2Proof.Machine

/-- Status codes (R361). -/
def stOk : Nat := 0x00
def stEmpty : Nat := 0x01
def stKilledRerun : Nat := 0x02
def stRecomputed : Nat := 0x03
def stBadDesc : Nat := 0x10
def stDim : Nat := 0x11
def stWinClosed : Nat := 0x12
def stHandle : Nat := 0x13
def stFailed : Nat := 0x20
def stQuarantined : Nat := 0x21
def stDeadline : Nat := 0x30
def stOverrun : Nat := 0x31
def stScrubbed : Nat := 0x40
def stDenied : Nat := 0x41
def stOverflow : Nat := 0x50

/-- Bytes of a descriptor, little-endian (R253). -/
def dBytes (d : BitVec 512) (at_ n : Nat) : Nat := bits d.toNat (8 * at_) (8 * n)

/-- A signed 16-bit field. -/
def dInt16 (d : BitVec 512) (at_ : Nat) : Int := sext 16 (dBytes d at_ 2)

/-- Bytes that must be 0. -/
def dZero (d : BitVec 512) (at_ n : Nat) : Bool := dBytes d at_ n == 0

def dOp (d : BitVec 512) : Nat := dBytes d 0 1
def dFlags (d : BitVec 512) : Nat := dBytes d 1 1
def dAway (d : BitVec 512) : Bool := bitOf (dFlags d) 0
def dAccIn (d : BitVec 512) : Bool := bitOf (dFlags d) 1
def dSparse (d : BitVec 512) : Bool := bitOf (dFlags d) 2
def dFmtA (d : BitVec 512) : Nat := dBytes d 2 1 % 16
def dFmtB (d : BitVec 512) : Nat := dBytes d 2 1 / 16
def dOut (d : BitVec 512) : Nat := dBytes d 3 1 % 16
def dMode (d : BitVec 512) : Nat := bits (dBytes d 3 1) 4 1
def dAct (d : BitVec 512) : Nat := bits (dBytes d 3 1) 5 2
def dTag (d : BitVec 512) : Nat := dBytes d 4 4
def dBinA (d : BitVec 512) : Nat := dBytes d 8 1
def dBinB (d : BitVec 512) : Nat := dBytes d 9 1
def dBinD (d : BitVec 512) : Nat := dBytes d 10 1
def dBinP (d : BitVec 512) : Nat := dBytes d 11 1
def dBinAcc (d : BitVec 512) : Nat := dBytes d 12 1

/-- How the descriptor forms its results. -/
def dForm (d : BitVec 512) : Form := { fmt := dOut d, mode := dMode d, act := dAct d, away := dAway d }

/-- No handle. -/
def noBin : Nat := 0xFF

/-- The window operators' fields (R284, R291, R300), one layout for both. -/
structure Win where
  h : Nat
  w : Nat
  ci : Nat
  co : Nat
  n : Nat
  groups : Nat
  kh : Nat
  kw : Nat
  sh : Nat
  sw : Nat
  dh : Nat
  dw : Nat
  pt : Nat
  pb : Nat
  pl : Nat
  pr : Nat
  pmode : Nat
  pval : Nat
  ofsA : Nat
  ofsB : Nat
  ofsD : Nat
  ofsP : Nat
  ofsAcc : Nat
  deriving DecidableEq, Repr, Inhabited

/-- CONV (R291). -/
def convWin (d : BitVec 512) : Win :=
  { h := dBytes d 16 2, w := dBytes d 18 2, ci := dBytes d 20 2, co := dBytes d 22 2, kh := dBytes d 24 1
    kw := dBytes d 25 1, sh := dBytes d 26 1, sw := dBytes d 27 1, dh := dBytes d 28 1, dw := dBytes d 29 1
    pt := dBytes d 30 1, pb := dBytes d 31 1, pl := dBytes d 32 1, pr := dBytes d 33 1
    pmode := dBytes d 34 1 % 4, groups := dBytes d 36 2, n := dBytes d 38 2, ofsA := dBytes d 40 4
    ofsB := dBytes d 44 4, ofsD := dBytes d 48 4, ofsP := dBytes d 52 4, ofsAcc := dBytes d 56 4
    pval := dBytes d 60 2 }

/-- POOL (R300): no dilation. -/
def poolWin (d : BitVec 512) : Win :=
  { h := dBytes d 16 2, w := dBytes d 18 2, ci := dBytes d 20 2, co := dBytes d 20 2, n := dBytes d 22 2
    kh := dBytes d 24 1, kw := dBytes d 25 1, sh := dBytes d 26 1, sw := dBytes d 27 1, dh := 1, dw := 1
    pt := dBytes d 28 1, pb := dBytes d 29 1, pl := dBytes d 30 1, pr := dBytes d 31 1
    pmode := dBytes d 32 1 % 4, groups := 1, pval := dBytes d 34 2, ofsA := dBytes d 36 4, ofsB := 0
    ofsD := dBytes d 40 4, ofsP := 0, ofsAcc := 0 }

/-- Output height (R286). -/
def Win.ho (w : Win) : Int := ((w.h : Int) + w.pt + w.pb - w.dh * ((w.kh : Int) - 1) - 1) / (w.sh : Int) + 1
/-- Output width (R286). -/
def Win.wo (w : Win) : Int := ((w.w : Int) + w.pl + w.pr - w.dw * ((w.kw : Int) - 1) - 1) / (w.sw : Int) + 1

/-- A value lies in a range. -/
def within (lo x hi : Nat) : Bool := decide (lo ≤ x) && decide (x ≤ hi)

/-- The grid's operand pairs (R233, R236): depth, activation and weight bytes per cycle, dense MACs per cycle. -/
def gridPair (a b : Nat) (sparse : Bool) : Option (Nat × Nat × Nat × Nat) :=
  if sparse then
    match a, b with
    | 0, 0 => some (8, 512, 320, 32768)
    | 1, 0 => some (8, 512, 320, 32768)
    | 2, 2 => some (16, 512, 384, 65536)
    | _, _ => none
  else
    match a, b with
    | 0, 0 => some (4, 256, 256, 16384)
    | 1, 0 => some (4, 256, 256, 16384)
    | 0, 2 => some (4, 256, 128, 16384)
    | 1, 2 => some (4, 256, 128, 16384)
    | 2, 2 => some (8, 256, 256, 32768)
    | 3, 3 => some (4, 256, 256, 16384)
    | 3, 4 => some (4, 256, 128, 16384)
    | 4, 4 => some (8, 256, 256, 32768)
    | 5, 5 => some (1, 128, 128, 4096)
    | 6, 6 => some (1, 128, 128, 4096)
    | _, _ => none

/-- Is a CONV decomposed into passes (R294)? -/
def decomposed (d : BitVec 512) : Bool := dOp d == 1 && (decide ((convWin d).kh > 7) || decide ((convWin d).kw > 7))

/-- A command that needs an accumulator bin in BIN_ACC (R260). -/
def needsAcc (d : BitVec 512) : Bool := dAccIn d || dOut d == 7 || decomposed d

/-- The common fields (R238, R253, R260): format codes up to 0x7, no format 0x7 with a destination, BIN_ACC where it is required. -/
def commonOk (d : BitVec 512) : Bool :=
  let hs := [dBinA d, dBinB d, dBinD d, dBinP d, dBinAcc d]
  decide (dFlags d < 8) && !bitOf (dBytes d 3 1) 7 && dAct d != 3 && dZero d 13 3
    && decide (dFmtA d < 8) && decide (dFmtB d < 8) && decide (dOut d < 8)
    && (dOut d != 7 || dBinD d == noBin) && (!needsAcc d || dBinAcc d != noBin)
    && hs.all (fun h => decide (h < 64) || h == noBin)
    && (dBinD d == noBin || !([dBinA d, dBinB d, dBinP d, dBinAcc d].contains (dBinD d)))

/-- The output of a command that requantises: an output format that a record can give (R247, R249), with its handle. -/
def outOk (d : BitVec 512) : Bool :=
  decide (dOut d ≤ 6) && dBinD d != noBin && (dAct d != 2 || dOut d == 0 || dOut d == 1) && (!isBs (dOut d) || dAct d == 0)

/-- CONV and GEMM: pair, handles, output (R233, R241, R253, R260). -/
def gridOk (d : BitVec 512) : Bool :=
  (gridPair (dFmtA d) (dFmtB d) (dSparse d)).isSome && dBinA d != noBin && dBinB d != noBin
    && (dBinP d != noBin || (dAccIn d && dOut d == 7)) && (!dAccIn d || dBinAcc d != noBin)
    && (if dOut d = 7 then dBinD d == noBin && dBinAcc d != noBin && dAct d != 2 else outOk d)

/-- The shared window fields (R283, R284, R288, R290). -/
def winOk (w : Win) (fmt : Nat) : Bool :=
  decide (1 ≤ w.h) && decide (1 ≤ w.w) && decide (1 ≤ w.ci) && decide (1 ≤ w.n) && within 1 w.sh 16 && within 1 w.sw 16
    && within 0 w.pt 63 && within 0 w.pb 63 && within 0 w.pl 63 && within 0 w.pr 63
    && (fmt != 2 || w.ci % 2 == 0)
    && decide (w.ho ≤ 65535) && decide (w.wo ≤ 65535)
    && (if w.pmode = 1 then !isBs fmt && decide (w.pval < 2 ^ elemBits fmt) else w.pval == 0)
    && (w.pmode != 3 || (decide (w.pt < w.h) && decide (w.pb < w.h) && decide (w.pl < w.w) && decide (w.pr < w.w)))

/-- CONV (R284, R291 to R294). -/
def convOk (d : BitVec 512) : Bool :=
  let w := convWin d
  gridOk d && decide (dBytes d 34 1 < 4) && dZero d 35 1 && dZero d 62 2
    && decide (1 ≤ w.co) && decide (1 ≤ w.groups) && w.ci % w.groups == 0 && w.co % w.groups == 0
    && within 1 w.kh 63 && within 1 w.kw 63 && within 1 w.dh 64 && within 1 w.dw 64
    && winOk w (dFmtA d) && (dOut d != 2 || w.co % 2 == 0)
    && (!decomposed d || dBinAcc d != noBin)
    && decide (w.kh * w.kw * (w.ci / w.groups) ≤ 2 ^ 31)

/-- GEMM (R255). -/
def gemmOk (d : BitVec 512) : Bool := gridOk d && decide (dBytes d 20 4 ≤ 1048576) && dZero d 44 20

/-- Only A and D are named. -/
def onlyAD (d : BitVec 512) : Bool :=
  dBinA d != noBin && dBinD d != noBin && dBinB d == noBin && dBinP d == noBin && dBinAcc d == noBin

/-- POOL (R300, R302). -/
def poolOk (d : BitVec 512) : Bool :=
  let w := poolWin d
  (isInt (dFmtA d) || isFlt (dFmtA d)) && dFmtB d == 0 && dBytes d 3 1 == dFmtA d && !dAccIn d && !dSparse d && onlyAD d
    && within 1 w.kh 16 && within 1 w.kw 16 && decide (dBytes d 32 1 < 4) && decide (dBytes d 33 1 < 4) && dZero d 44 20
    && winOk w (dFmtA d) && (!bitOf (dBytes d 33 1) 1 || w.pmode == 0)

/-- ELTW (R256). ACC_IN, SPARSE and BIN_ACC have no meaning for it and are refused (DEDUCED, assumption 20). -/
def eltwOk (d : BitVec 512) : Bool :=
  let op := dBytes d 16 1
  decide (op ≤ 5) && (isInt (dFmtA d) || isFlt (dFmtA d)) && !dAccIn d && !dSparse d && dBinAcc d == noBin
    && dBinA d != noBin && dBinP d != noBin && outOk d
    && (if op = 5 then dBinB d == noBin else dBinB d != noBin && dFmtB d == dFmtA d)
    && dZero d 17 1 && dZero d 26 2 && dZero d 50 14 && !dZero d 28 4 && !dZero d 48 2
    && (!isFlt (dFmtA d) || dZero d 18 8)

/-- ARGMAX (R284, R304). -/
def argmaxOk (d : BitVec 512) : Bool :=
  decide (dFmtA d ≤ 6) && dFmtB d == 0 && dBytes d 3 1 == 0 && dFlags d == 0 && onlyAD d
    && !dZero d 16 2 && !dZero d 18 2 && !dZero d 20 2 && !dZero d 22 2 && dZero d 32 32
    && (dFmtA d != 2 || dBytes d 20 2 % 2 == 0)

/-- COPY (R281). -/
def copyOk (d : BitVec 512) : Bool :=
  dBytes d 2 2 == 0 && onlyAD d && within 4 (dBytes d 24 4) (2 ^ 24) && dBytes d 24 4 % 4 == 0
    && decide (dBytes d 28 4 ≤ 65535) && dZero d 32 32

/-- The formats that have a Husk form (R278). -/
def huskFmt (f : Nat) : Bool := isInt f || isFlt f

/-- HUSK (R281): every dimension at least 1 and E at most 2^32 − 1 (R278). -/
def huskOk (d : BitVec 512) : Bool :=
  huskFmt (dFmtA d) && dFmtB d == 0 && dBytes d 3 1 == 0 && onlyAD d && dZero d 32 32
    && !dZero d 16 2 && !dZero d 18 2 && !dZero d 20 2 && !dZero d 22 2
    && decide (dBytes d 16 2 * dBytes d 18 2 * dBytes d 20 2 * dBytes d 22 2 < 2 ^ 32)

/-- UNHUSK (R281). -/
def unhuskOk (d : BitVec 512) : Bool :=
  huskFmt (dFmtA d) && dFmtB d == 0 && dBytes d 3 1 == 0 && onlyAD d && dZero d 36 28

/-- RESIZE (R257). The element format stands in FMT[3:0]; OUT repeats it or is 0 (DEDUCED, assumption 20). -/
def resizeOk (d : BitVec 512) : Bool :=
  let dim := fun (o : Nat) => within 1 (dBytes d o 2) 32767
  (dFmtA d == 0 || dFmtA d == 1 || isFlt (dFmtA d)) && (dBytes d 3 1 == 0 || dBytes d 3 1 == dFmtA d) && onlyAD d
    && dim 16 && dim 18 && dim 20 && dim 22 && dim 24 && decide (dBytes d 26 1 ≤ 1) && dZero d 27 1 && dZero d 36 28

/-- The field checks of a descriptor (R253, R254; check 1 of R285). -/
def fieldsOk (d : BitVec 512) : Bool :=
  commonOk d &&
    match dOp d with
    | 0x01 => convOk d
    | 0x02 => gemmOk d
    | 0x03 => poolOk d
    | 0x04 => eltwOk d
    | 0x05 => argmaxOk d
    | 0x06 => copyOk d
    | 0x07 => huskOk d
    | 0x08 => unhuskOk d
    | 0x09 => resizeOk d
    | 0x0A => dZero d 16 48
    | 0x0B => dZero d 16 48
    | _ => false

/-- The handles a descriptor names (R273). -/
def dHandles (d : BitVec 512) : List Nat :=
  [dBinA d, dBinB d, dBinD d, dBinP d, dBinAcc d].filter (· != noBin)

/-- The handles a command reads (R333). -/
def dReads (d : BitVec 512) : List Nat :=
  if dOp d = 0x0A || dOp d = 0x0B then []
  else ([dBinA d, dBinB d, dBinP d] ++ if dAccIn d then [dBinAcc d] else []).filter (· != noBin)

/-- The handles a command writes, the staging of running sums included (R294, R333). -/
def dWrites (d : BitVec 512) : List Nat :=
  if dOp d = 0x0A || dOp d = 0x0B then []
  else ([dBinD d] ++ if dOut d == 7 || decomposed d then [dBinAcc d] else []).filter (· != noBin)

/-- The unit a command holds (R231, R254). A CONV or GEMM holds the grid and the Flail unit (DEDUCED, assumption 21). -/
inductive EUnit where
  | grid | flail | chute | stem
  deriving DecidableEq, Repr, Inhabited

def dUnit (d : BitVec 512) : EUnit :=
  match dOp d with
  | 0x01 => .grid
  | 0x02 => .grid
  | 0x03 => .flail
  | 0x04 => .flail
  | 0x05 => .flail
  | 0x09 => .flail
  | 0x06 => .chute
  | 0x07 => .chute
  | 0x08 => .chute
  | _ => .stem

/-- The units a command occupies. -/
def unitsOfOp (d : BitVec 512) : List EUnit :=
  match dUnit d with
  | .grid => [.grid, .flail]
  | .flail => [.flail]
  | .chute => [.chute]
  | .stem => []

/-- Cycles of some tiles on the grid: ceil(tiles × max(steps ÷ F, 16)), with F = min(1, 512 ÷ (num ÷ den)) (R236, R237). -/
def gridCycles (tiles steps num den : Nat) : Nat :=
  max (cdiv (tiles * steps * max num (512 * den)) (512 * den)) (tiles * 16)

/-- GEMM's figure (R237). -/
def gemmCycles (d : BitVec 512) : Nat :=
  match gridPair (dFmtA d) (dFmtB d) (dSparse d) with
  | none => 0
  | some (dep, ab, wb, _) =>
    let pt := cdiv (dBytes d 16 2) 64
    let p := max 1 (min pt 16)
    gridCycles (cdiv (dBytes d 18 2) 64 * pt) (cdiv (dBytes d 20 4) dep) (ab * p + wb) p + 96

/-- Tap counts of the passes of a filter dimension (R294). -/
def passes (k : Nat) : List (Nat × Nat) := (List.range (cdiv k 7)).map (fun a => (7 * a, min 7 (k - 7 * a)))

/-- CONV's figure (R297 to R299). -/
def convCycles (d : BitVec 512) : Nat :=
  match gridPair (dFmtA d) (dFmtB d) (dSparse d) with
  | none => 0
  | some (dep, ab, wb, _) =>
    let w := convWin d
    let cig := w.ci / w.groups
    let cog := w.co / w.groups
    let std := decide (cig ≥ dep)
    let ct := if std then w.groups * cdiv cog 64 else cdiv w.co 64
    let pt := w.n * w.ho.toNat * cdiv w.wo.toNat 64
    let p := max 1 (min pt 16)
    let spt := if std then cdiv cig dep else 1
    (((passes w.kh).map (fun a => ((passes w.kw).map (fun b =>
      let c := if std then cdiv b.2 w.sw else 1
      gridCycles (ct * pt) (a.2 * b.2 * spt) (ab * p + wb * c) (c * p) + 96)).sum)).sum)

/-- The cycle figure of a command (R237, R256, R257, R282, R299, R303, R306). `e` and `total`: E and TOTAL of a
Husk (R278); `hbm`: an end lies in HBM. -/
def cycleFigure (d : BitVec 512) (e total : Nat) (hbm : Bool) : Nat :=
  let ch := if hbm then 600 else 0
  match dOp d with
  | 0x01 => convCycles d
  | 0x02 => gemmCycles d
  | 0x03 =>
    let w := poolWin d
    cdiv (w.n * w.ho.toNat * w.wo.toNat * w.ci) 256 * w.kh * w.kw + 32
  | 0x04 => cdiv (dBytes d 28 4) 256 + 32
  | 0x05 => cdiv (dBytes d 22 2 * dBytes d 16 2 * dBytes d 18 2) 256 * dBytes d 20 2 + 32
  | 0x06 => dBytes d 28 4 * cdiv (dBytes d 24 4) 256 + 32 + ch
  | 0x07 => cdiv e 256 + cdiv total 256 + 64 + ch
  | 0x08 => cdiv total 256 * 2 + cdiv e 256 + 64 + ch
  | 0x09 => cdiv (dBytes d 20 2 * dBytes d 22 2 * dBytes d 24 2) 256 + 32
  | _ => 0

/-- Useful MACs, in 1/65536 of a cycle at the format's peak (TIL_UTIL). -/
def usefulMacs (d : BitVec 512) : Nat :=
  match gridPair (dFmtA d) (dFmtB d) (dSparse d) with
  | none => 0
  | some (_, _, _, rate) =>
    match dOp d with
    | 0x01 =>
      let w := convWin d
      w.n * w.ho.toNat * w.wo.toNat * w.co * w.kh * w.kw * (w.ci / w.groups) * (65536 / rate)
    | 0x02 => dBytes d 16 2 * dBytes d 18 2 * dBytes d 20 4 * (65536 / rate)
    | _ => 0

/-- No output element (R255, R281, R285). -/
def emptyOutput (d : BitVec 512) : Bool :=
  match dOp d with
  | 0x01 => decide ((convWin d).ho < 1) || decide ((convWin d).wo < 1)
  | 0x02 => dZero d 16 2 || dZero d 18 2
  | 0x03 => decide ((poolWin d).ho < 1) || decide ((poolWin d).wo < 1)
  | 0x06 => dZero d 28 4
  | _ => false

end Sys2Proof.Machine
end

