-- ==== Sys2Proof/Machine/Compute.lean ====
section
/-!
DEFINITION. Machine/Compute.lean: what each opcode computes from the bytes its operands hold (R241 to R257, R278 to R281, R283
to R306). A reader `rdr h o` gives the byte at offset `o` of handle `h`; `str h` is that bin's STRIDE; `fr k` is the k-th free
value of the command (assumptions 7, 13).
-/

namespace Sys2Proof.Machine

/-- What a run gives: bytes written as offsets in the destination region, counts, a refusal that the data bring. -/
structure Res where
  out : List (Nat × List Byte) := []
  sat : Nat := 0
  nan : Nat := 0
  bad : Bool := false
  deriving DecidableEq, Repr, Inhabited

/-- What a command reads through. -/
structure Env where
  rdr    : Nat → Nat → Nat
  str    : Nat → Nat
  /-- R244, R362. -/
  exact  : Bool
  fr     : Nat → Nat
  /-- R260: offset in BIN_ACC of the half that is read, and of the half that is written. -/
  accIn  : Nat
  accOut : Nat

/-- Row stride: the bin's, or the natural length (R272, R283). -/
def rowStride (s nat_ : Nat) : Nat := if s = 0 then nat_ else s

/-- Pick an element of a list and the rest. -/
def pick {α : Type} : List α → Nat → Option α × List α
  | [], _ => (none, [])
  | x :: xs, 0 => (some x, xs)
  | x :: xs, i + 1 => let r := pick xs i; (r.1, x :: r.2)

/-- A list in an order that a free value names. -/
def shuffle {α : Type} : Nat → Nat → List α → List α
  | 0, _, xs => xs
  | n + 1, d, xs =>
    match pick xs (d % (n + 1)) with
    | (some x, rest) => x :: shuffle n (d / (n + 1)) rest
    | (none, rest) => rest

/-- Terms cut into contiguous sub-ranges where a free value has a bit set. -/
def cuts {α : Type} (d : Nat) : List α → List (List α)
  | [] => []
  | x :: xs =>
    match cuts (d / 2) xs with
    | [] => [[x]]
    | p :: ps => if d % 2 = 1 then [x] :: p :: ps else (x :: p) :: ps

/-- A float or block-scaled reduction (R244): in exact mode one sub-range from +0, added to the initial value; else free
sub-ranges in a free order (assumption 13). Without a term there is one empty sub-range in exact mode; else there may be none. -/
def reduceFlt (exact : Bool) (d1 d2 : Nat) (init : Val) (terms : List Val) : Val :=
  let parts := if exact || (terms.isEmpty && decide (d1 % 2 = 1)) then [terms] else cuts d1 terms
  let sums := parts.map (fun p => p.foldl add32 Val.zero)
  (shuffle sums.length (if exact then 0 else d2) sums).foldl add32 init

/-- The number of the free value of an element: its row, its position in the row, its channel. The values below 2^70 are the
reductions'. -/
def frIx (r p c : Nat) : Nat := 2 ^ 70 + r * 2 ^ 40 + p * 2 ^ 20 + c

/-- Requantised rows of positions of channels (R245 to R250), written row after row; BS outputs are packed with their
exponents last (R283). `rec i`: the record of element i of a position. -/
def formRows (fm : Form) (int : Bool) (rec : Nat → Rec) (lut : Nat → Nat) (fr : Nat → Nat) (ofs : Nat)
    (rowOff : Nat → Nat) (rows : List (List (List Val))) : Res :=
  if isBs fm.fmt then
    let blocks := rows.flatMap (fun row => row.flatMap (fun pos =>
      let ys := pos.zipIdx.map (fun x => scaled (rec x.2) int x.1)
      (List.range (cdiv ys.length 32)).map (fun b =>
        let r := bsBlock fm ((ys.drop (32 * b)).take 32)
        (r.1 ++ List.replicate (32 - r.1.length) 0, r.2))))
    { out := [(ofs, packElems fm.fmt 0 (blocks.flatMap (fun b => b.1)) ++ blocks.map (fun b => BitVec.ofNat 8 b.2))] }
  else
    let elems := rows.zipIdx.map (fun row => row.1.zipIdx.flatMap (fun pos => pos.1.zipIdx.map (fun x =>
      let y := scaled (rec x.2) int x.1
      if isInt fm.fmt then toIntElem fm (rec x.2) lut y
      else (toFltElem fm (rec x.2) (fr (frIx row.2 pos.2 x.2)) y, 0, 0))))
    { out := elems.zipIdx.map (fun r => (ofs + rowOff r.2, packElems fm.fmt (fr (2 ^ 76 + r.2)) (r.1.map (fun e => e.1))))
      sat := (elems.map (fun r => (r.map (fun e => e.2.1)).sum)).sum
      nan := (elems.map (fun r => (r.map (fun e => e.2.2)).sum)).sum }

/-- Accumulators written to a version (R238, R283). -/
def formAcc (int : Bool) (fr : Nat → Nat) (ofs : Nat) (rows : List (List (List Val))) : Res :=
  let one := fun (d : Nat) (v : Val) =>
    if int then
      match v with
      | .fin n m _ => leBytes 8 (twos 64 (if n then -(m : Int) else m))
      | .nan => leBytes 8 0
      | .inf _ => leBytes 8 0
    else leBytes 4 (toF32 d v)
  { out := [(ofs, rows.zipIdx.flatMap (fun row => row.1.zipIdx.flatMap (fun pos => pos.1.zipIdx.flatMap (fun x =>
      one (fr (frIx row.2 pos.2 x.2)) x.1))))] }

/-- An accumulator of the current version. -/
def accAt (rdr : Nat → Nat) (int : Bool) (at_ i : Nat) : Val :=
  let le := fun (o n : Nat) => ((List.range n).map (fun k => rdr (o + k) * 256 ^ k)).sum
  if int then Val.ofInt (sext 64 (le (at_ + 8 * i) 8)) else ofF32 (le (at_ + 4 * i) 4)

/-- A weight of a packed operand (R251, R283, R292): element index `i`, of `total`. -/
def weightAt (rdr : Nat → Nat) (f : Nat) (sparse : Bool) (at_ total i : Nat) : Nat :=
  if sparse then
    let g := i / 4
    let nib := elemAt rdr 2 (at_ + runBytes f (total / 2)) g
    if i % 4 = nib % 4 then elemAt rdr f at_ (2 * g)
    else if i % 4 = nib / 4 then elemAt rdr f at_ (2 * g + 1) else 0
  else elemAt rdr f at_ i

/-- A metadata nibble with i0 ≥ i1 (R252). -/
def sparseBad (rdr : Nat → Nat) (f at_ total : Nat) : Bool :=
  (List.range (total / 4)).any (fun g =>
    let nib := elemAt rdr 2 (at_ + runBytes f (total / 2)) g
    decide (nib % 4 ≥ nib / 4))

/-- One pair of matching blocks (R243). -/
def blockTerm (prods : List Int) (ea eb : Nat) : Val :=
  if ea = 255 || eb = 255 then .nan
  else
    let s := prods.sum
    if s = 0 then Val.zero else flush (decide (s < 0)) s.natAbs ((ea : Int) + eb - 254)

/-- A shift above 63 in a record, in either scale mode (R245). -/
def shiftBad (rdr : Nat → Nat) (ofsP n : Nat) : Bool :=
  (List.range n).any (fun c => decide (rdr (ofsP + 16 * c + 8) > 63))

/-- GEMM (R255). -/
def doGemm (d : BitVec 512) (e : Env) : Res :=
  let mm := dBytes d 16 2
  let nn := dBytes d 18 2
  let kk := dBytes d 20 4
  let fa := dFmtA d
  let fb := dFmtB d
  let oa := dBytes d 24 4
  let ob := dBytes d 28 4
  let op := dBytes d 36 4
  let ra := e.rdr (dBinA d)
  let rb := e.rdr (dBinB d)
  let rp := e.rdr (dBinP d)
  let int := isInt fa
  let sa := rowStride (e.str (dBinA d)) (runBytes fa kk)
  let sb := rowStride (e.str (dBinB d)) (runBytes fb kk)
  let kw := if dSparse d then cdiv kk 4 * 4 else kk
  let kp := pad32 kk
  let recs := (List.range nn).map (fun c => recAt rp (op + 16 * c) (!int) (dMode d))
  let rec' := fun (c : Nat) => recs.getD c default
  let init := fun (m n : Nat) =>
    if dAccIn d then accAt (e.rdr (dBinAcc d)) int (e.accIn + dBytes d 40 4) (m * nn + n) else (rec' n).bias
  let wt := fun (n k : Nat) =>
    if dSparse d then weightAt rb fb true ob (nn * kw) (n * kw + k) else elemAt rb fb (ob + n * sb) k
  let cell := fun (m n : Nat) =>
    if int then
      let s := ((List.range kk).map (fun k => intOf fa (elemAt ra fa (oa + m * sa) k) * intOf fb (wt n k))).sum
      Val.add (init m n) (Val.ofInt s)
    else
      let terms := if isBs fa then
          (List.range (kp / 32)).map (fun b => blockTerm
            ((List.range (min 32 (kk - 32 * b))).map (fun i => intOf fa (elemAt ra fa oa (m * kp + 32 * b + i)) *
              intOf fb (elemAt rb fb ob (n * kp + 32 * b + i))))
            (ra (oa + runBytes fa (mm * kp) + (m * kp) / 32 + b)) (rb (ob + runBytes fb (nn * kp) + (n * kp) / 32 + b)))
        else (List.range kk).map (fun k => mul32 (valOf fa (elemAt ra fa (oa + m * sa) k)) (valOf fb (wt n k)))
      if kk = 0 then init m n
      else reduceFlt e.exact (e.fr (2 * (m * nn + n) + 2)) (e.fr (2 * (m * nn + n) + 3)) (init m n) terms
  if (dSparse d && sparseBad rb fb ob (nn * kw)) || (dBinP d != noBin && shiftBad rp op nn) then { bad := true }
  else
    let rows := (List.range mm).map (fun m => [(List.range nn).map (fun n => cell m n)])
    if dOut d = 7 then formAcc int e.fr (e.accOut + dBytes d 40 4) rows
    else formRows (dForm d) int rec' (fun i => rp (op + 16 * nn + i)) e.fr (dBytes d 32 4)
      (fun m => m * rowStride (e.str (dBinD d)) (runBytes (dOut d) nn)) rows

/-- Where a tap reads in one dimension (R287, R288): none: absent; some none: the constant; some (some i): element i. -/
def tapIx (pmode : Nat) (i : Int) (l : Nat) : Option (Option Nat) :=
  if 0 ≤ i ∧ i < l then some (some i.toNat)
  else match pmode with
    | 0 => none
    | 1 => some none
    | 2 => some (some (min (max i 0) ((l : Int) - 1)).toNat)
    | _ => some (some (if i < 0 then (-i).toNat else (2 * ((l : Int) - 1) - i).toNat))

/-- The taps of a filter in canonical order: pass by pass, then kh, then kw (R294, R295). -/
def tapOrder (kh kw : Nat) : List (Nat × Nat) :=
  (passes kh).flatMap (fun a => (passes kw).flatMap (fun b =>
    (List.range a.2).flatMap (fun i => (List.range b.2).map (fun j => (a.1 + i, b.1 + j)))))

/-- A tap's pixel: none: absent; some none: the constant; some (y, x). -/
def tapPixel (w : Win) (oh ow : Nat) (t : Nat × Nat) : Option (Option (Nat × Nat)) :=
  match tapIx w.pmode ((oh : Int) * w.sh - w.pt + t.1 * w.dh) w.h, tapIx w.pmode ((ow : Int) * w.sw - w.pl + t.2 * w.dw) w.w with
  | none, _ => none
  | _, none => none
  | some (some y), some (some x) => some (some (y, x))
  | _, _ => some none

/-- The pixels that the taps of an operator name (R287). -/
def namedPixels (w : Win) : List (Nat × Nat) :=
  let ts := tapOrder w.kh w.kw
  ((List.range w.ho.toNat).flatMap (fun oh => (List.range w.wo.toNat).flatMap (fun ow =>
    ts.filterMap (fun t => match tapPixel w oh ow t with
      | some (some p) => some p
      | some none => none
      | none => none)))).dedup

/-- Row stride of a window operand (R283). -/
def winStride (s fmt w c : Nat) : Nat := rowStride s (runBytes fmt (w * c))

/-- A raw element of the activation operand (R240, R283). For BS: the mantissa. -/
def actRaw (rdr : Nat → Nat) (w : Win) (fmt s n y x c : Nat) : Nat :=
  if isBs fmt then elemAt rdr fmt w.ofsA (((n * w.h + y) * w.w + x) * pad32 w.ci + c)
  else elemAt rdr fmt (w.ofsA + (n * w.h + y) * winStride s fmt w.w w.ci) (x * w.ci + c)

/-- The exponent of a BS element of the activation operand. -/
def actExp (rdr : Nat → Nat) (w : Win) (fmt n y x c : Nat) : Nat :=
  rdr (w.ofsA + runBytes fmt (w.n * w.h * w.w * pad32 w.ci) + (((n * w.h + y) * w.w + x) * pad32 w.ci + c) / 32)

/-- The term of a block of weights whose activations lie in two blocks (assumption 22): a NaN block gives NaN (R240), products that are all
zero give +0, else the term is free. -/
def spanTerm (prods : List Int) (eas : List Nat) (eb free : Nat) : Val :=
  if eb = 255 ∨ eas.contains 255 then .nan else if prods.all (· == 0) then Val.zero else ofF32 (free % 2 ^ 32)

/-- CONV (R291 to R296). -/
def doConv (d : BitVec 512) (e : Env) : Res :=
  let w := convWin d
  let fa := dFmtA d
  let fb := dFmtB d
  let ra := e.rdr (dBinA d)
  let rb := e.rdr (dBinB d)
  let rp := e.rdr (dBinP d)
  let int := isInt fa
  let cig := w.ci / w.groups
  let cog := w.co / w.groups
  let run := if dSparse d then cdiv cig 4 * 4 else if isBs fb then pad32 cig else cig
  let total := w.co * w.kh * w.kw * run
  let ho := w.ho.toNat
  let wo := w.wo.toNat
  let sA := e.str (dBinA d)
  let recs := (List.range w.co).map (fun c => recAt rp (w.ofsP + 16 * c) (!int) (dMode d))
  let rec' := fun (c : Nat) => recs.getD c default
  let taps := tapOrder w.kh w.kw
  let wIx := fun (co : Nat) (t : Nat × Nat) (ci : Nat) => ((co * w.kh + t.1) * w.kw + t.2) * run + ci
  let aRaw := fun (n : Nat) (px : Option (Nat × Nat)) (c : Nat) => match px with
    | none => w.pval
    | some (y, x) => actRaw ra w fa sA n y x c
  let aExp := fun (n : Nat) (px : Option (Nat × Nat)) (c : Nat) => match px with
    | none => 0
    | some (y, x) => actExp ra w fa n y x c
  let cell := fun (n oh ow co : Nat) =>
    let g := co / cog
    let ix := ((n * ho + oh) * wo + ow) * w.co + co
    let ini := if dAccIn d then accAt (e.rdr (dBinAcc d)) int (e.accIn + w.ofsAcc) ix else (rec' co).bias
    let live := taps.filterMap (fun t => (tapPixel w oh ow t).map (fun p => (t, p)))
    if int then
      let s := (live.map (fun tp => ((List.range cig).map (fun ci =>
        intOf fa (aRaw n tp.2 (g * cig + ci)) * intOf fb (weightAt rb fb (dSparse d) w.ofsB total (wIx co tp.1 ci)))).sum)).sum
      Val.add ini (Val.ofInt s)
    else
      let terms := live.zipIdx.flatMap (fun (tp, k) =>
        if isBs fa then
          (List.range (run / 32)).map (fun b =>
            let chs := (List.range (min 32 (cig - 32 * b))).map (fun i => 32 * b + i)
            let eas := chs.map (fun ci => (g * cig + ci) / 32)
            let prods := chs.map (fun ci => intOf fa (aRaw n tp.2 (g * cig + ci)) * intOf fb (elemAt rb fb w.ofsB (wIx co tp.1 ci)))
            let eb := rb (w.ofsB + runBytes fb total + wIx co tp.1 (32 * b) / 32)
            if eas.all (fun k => k == eas.headD 0) then blockTerm prods (aExp n tp.2 (g * cig + chs.headD 0)) eb
            else spanTerm prods (chs.map (fun ci => aExp n tp.2 (g * cig + ci))) eb (e.fr (2 ^ 78 + ix * 2 ^ 30 + k * run + b)))
        else (List.range cig).map (fun ci =>
          mul32 (valOf fa (aRaw n tp.2 (g * cig + ci))) (valOf fb (elemAt rb fb w.ofsB (wIx co tp.1 ci)))))
      reduceFlt e.exact (e.fr (2 + 2 * ix)) (e.fr (3 + 2 * ix)) ini terms
  if (dSparse d && sparseBad rb fb w.ofsB total) || (dBinP d != noBin && shiftBad rp w.ofsP w.co) then { bad := true }
  else
    let rows := (List.range (w.n * ho)).map (fun r => (List.range wo).map (fun ow =>
      (List.range w.co).map (fun co => cell (r / ho) (r % ho) ow co)))
    if dOut d = 7 then formAcc int e.fr (e.accOut + w.ofsAcc) rows
    else formRows (dForm d) int rec' (fun i => rp (w.ofsP + 16 * w.co + i)) e.fr w.ofsD
      (fun r => r * winStride (e.str (dBinD d)) (dOut d) wo w.co) rows

/-- The largest of the taps (R301): +0 above −0, any NaN makes NaN. -/
def maxTap (vs : List Val) : Val :=
  match vs with
  | [] => Val.zero
  | v :: rest => rest.foldl (fun a b =>
      if a.isNan || b.isNan then .nan
      else if a.lt b then b
      else if b.lt a then a
      else match a with
        | .fin true 0 _ => b
        | .fin _ _ _ => a
        | .nan => a
        | .inf _ => a) v

/-- An exact value of a format as a raw element. -/
def rawOf (f : Nat) (v : Val) : Nat :=
  if f = 5 then toFp16 v
  else if f = 6 then toBf16 v
  else match v with
    | .fin n m e => let q : Int := roundMag false m e; twos (elemBits f) (if n then -q else q)
    | .nan => 0
    | .inf _ => 0

/-- POOL (R300 to R302). -/
def doPool (d : BitVec 512) (e : Env) : Res :=
  let w := poolWin d
  let f := dFmtA d
  let ra := e.rdr (dBinA d)
  let ho := w.ho.toNat
  let wo := w.wo.toNat
  let taps := (List.range w.kh).flatMap (fun i => (List.range w.kw).map (fun j => (i, j)))
  let avg := bitOf (dBytes d 33 1) 0
  let divIn := bitOf (dBytes d 33 1) 1
  let cell := fun (n oh ow c : Nat) =>
    let live := taps.filterMap (fun t => tapPixel w oh ow t)
    let raws := live.map (fun p => match p with
      | none => w.pval
      | some (y, x) => actRaw ra w f (e.str (dBinA d)) n y x c)
    let dv := if divIn then live.length else w.kh * w.kw
    if avg then
      if dv = 0 then 0
      else if isInt f then twos (elemBits f) (satTo f (roundFrac (dAway d) ((raws.map (intOf f)).sum) dv))
      else rawOf f (div32 ((raws.map (valOf f)).foldl add32 Val.zero) dv)
    else rawOf f (maxTap (raws.map (valOf f)))
  { out := (List.range (w.n * ho)).map (fun r =>
      (w.ofsD + r * winStride (e.str (dBinD d)) f wo w.ci,
        packElems f 0 ((List.range wo).flatMap (fun ow => (List.range w.ci).map (fun c => cell (r / ho) (r % ho) ow c))))) }

/-- The larger or the smaller of two values (R256): NaN when either is; of zeros of unlike sign a free one (assumption 7). -/
def extreme (big : Bool) (d : Nat) (x y : Val) : Val :=
  if x.isNan || y.isNan then .nan
  else if x.lt y then (if big then y else x)
  else if y.lt x then (if big then x else y)
  else if d % 2 = 0 then x else y

/-- ELTW (R256). A BS8 or BS4 output is a tensor of CHANNELS channels, each position padded to 32 elements (R240; DEDUCED,
assumption 20). -/
def doEltw (d : BitVec 512) (e : Env) : Res :=
  let f := dFmtA d
  let op := dBytes d 16 1
  let cnt := dBytes d 28 4
  let ch := dBytes d 48 2
  let rp := e.rdr (dBinP d)
  let ofsP := dBytes d 44 4
  let za := dInt16 d 18
  let zb := dInt16 d 20
  let ka := dInt16 d 22
  let kb := dInt16 d 24
  let int := isInt f
  let nrec := min ch cnt
  let recs := (List.range nrec).map (fun c => recAt rp (ofsP + 16 * c) (!int) (dMode d))
  let rec' := fun (i : Nat) => recs.getD (i % ch) default
  let rawA := fun (i : Nat) => elemAt (e.rdr (dBinA d)) f (dBytes d 32 4) i
  let rawB := fun (i : Nat) => elemAt (e.rdr (dBinB d)) f (dBytes d 36 4) i
  let cell := fun (i : Nat) =>
    if int then
      let a := intOf f (rawA i) - za
      let b := if op = 5 then 0 else intOf f (rawB i) - zb
      let t : Int := match op with
        | 0 => ka * a + kb * b
        | 1 => ka * a - kb * b
        | 2 => a * b
        | 3 => max (ka * a) (kb * b)
        | 4 => min (ka * a) (kb * b)
        | _ => a
      Val.add (Val.ofInt t) (rec' i).bias
    else
      let a := valOf f (rawA i)
      let b := if op = 5 then Val.zero else valOf f (rawB i)
      let t := match op with
        | 0 => add32 a b
        | 1 => add32 a b.neg
        | 2 => mul32 a b
        | 3 => extreme true (e.fr (i + 1)) a b
        | 4 => extreme false (e.fr (i + 1)) a b
        | _ => a
      add32 t (rec' i).bias
  if shiftBad rp ofsP nrec then { bad := true }
  else formRows (dForm d) int rec' (fun i => rp (ofsP + 16 * ch + i)) e.fr (dBytes d 40 4) (fun _ => 0)
    [(List.range (cdiv cnt ch)).map (fun p => (List.range (min ch (cnt - p * ch))).map (fun c => cell (p * ch + c)))]

/-- The index of the largest channel (R305). -/
def argmaxOf (vs : List Val) : Nat :=
  ((vs.zipIdx).foldl (fun (best : Option (Val × Nat)) x =>
    if x.1.isNan then best
    else match best with
      | none => some x
      | some b => if b.1.lt x.1 then some x else best) none).elim 0xFFFF (fun b => b.2)

/-- ARGMAX (R304, R305). -/
def doArgmax (d : BitVec 512) (e : Env) : Res :=
  let f := dFmtA d
  let hh := dBytes d 16 2
  let ww := dBytes d 18 2
  let cc := dBytes d 20 2
  let n := dBytes d 22 2
  let w : Win := { (default : Win) with h := hh, w := ww, ci := cc, n := n, ofsA := dBytes d 24 4 }
  let ra := e.rdr (dBinA d)
  let val := fun (r x c : Nat) =>
    if isBs f then bsVal (intOf f (actRaw ra w f 0 0 r x c)) (actExp ra w f 0 r x c)
    else valOf f (actRaw ra w f (e.str (dBinA d)) 0 r x c)
  { out := (List.range (n * hh)).map (fun r =>
      (dBytes d 28 4 + r * rowStride (e.str (dBinD d)) (2 * ww),
        (List.range ww).flatMap (fun x => leBytes 2 (argmaxOf ((List.range cc).map (fun c => val r x c)))))) }

/-- A source position of R226, in 1/65536: output `y` of `n`, source length `l`. -/
def srcPos (y l n : Nat) : Int :=
  clampI 0 (((l : Int) - 1) * 65536) (((2 * y + 1) * l * 65536 / (2 * n) : Nat) - (32768 : Int))

/-- One output of R226, on integers: `p` gives source values. -/
def resizeInt (nearest : Bool) (sy sx : Int) (hc wc : Nat) (p : Nat → Nat → Int) : Int :=
  if nearest then p ((sy + 32768) / 65536).toNat ((sx + 32768) / 65536).toNat
  else
    let iy := (sy / 65536).toNat
    let ix := (sx / 65536).toNat
    let fy := sy - iy * 65536
    let fx := sx - ix * 65536
    let iy1 := min (iy + 1) (hc - 1)
    let ix1 := min (ix + 1) (wc - 1)
    ((65536 - fy) * ((65536 - fx) * p iy ix + fx * p iy ix1) + fy * ((65536 - fx) * p iy1 ix + fx * p iy1 ix1) + 2 ^ 31) / 2 ^ 32

/-- The same on float elements: the weighted sum exact (R257). -/
def resizeFlt (nearest : Bool) (sy sx : Int) (hc wc : Nat) (p : Nat → Nat → Val) : Val :=
  if nearest then p ((sy + 32768) / 65536).toNat ((sx + 32768) / 65536).toNat
  else
    let iy := (sy / 65536).toNat
    let ix := (sx / 65536).toNat
    let fy := sy - iy * 65536
    let fx := sx - ix * 65536
    let iy1 := min (iy + 1) (hc - 1)
    let ix1 := min (ix + 1) (wc - 1)
    let row := fun (y : Nat) => Val.add (Val.mul (Val.ofInt (65536 - fx)) (p y ix)) (Val.mul (Val.ofInt fx) (p y ix1))
    match Val.add (Val.mul (Val.ofInt (65536 - fy)) (row iy)) (Val.mul (Val.ofInt fy) (row iy1)) with
    | .nan => .nan
    | .inf n => .inf n
    | .fin n m e => .fin n m (e - 32)

/-- RESIZE (R257). -/
def doResize (d : BitVec 512) (e : Env) : Res :=
  let f := dFmtA d
  let hi := dBytes d 16 2
  let wi := dBytes d 18 2
  let ho := dBytes d 20 2
  let wo := dBytes d 22 2
  let c := dBytes d 24 2
  let nearest := dBytes d 26 1 == 0
  let ra := e.rdr (dBinA d)
  let sA := winStride (e.str (dBinA d)) f wi c
  let raw := fun (y x k : Nat) => elemAt ra f (dBytes d 28 4 + y * sA) (x * c + k)
  let cell := fun (y x k : Nat) =>
    if isInt f then
      twos (elemBits f) (satTo f (resizeInt nearest (srcPos y hi ho) (srcPos x wi wo) hi wi (fun a b => intOf f (raw a b k))))
    else rawOf f (resizeFlt nearest (srcPos y hi ho) (srcPos x wi wo) hi wi (fun a b => valOf f (raw a b k)))
  { out := (List.range ho).map (fun y =>
      (dBytes d 32 4 + y * winStride (e.str (dBinD d)) f wo c,
        packElems f 0 ((List.range wo).flatMap (fun x => (List.range c).map (fun k => cell y x k))))) }

/-- COPY (R281). -/
def doCopy (d : BitVec 512) (e : Env) : Res :=
  let rb := dBytes d 24 4
  { out := (List.range (dBytes d 28 4)).map (fun r =>
      (dBytes d 20 4 + r * rowStride (e.str (dBinD d)) rb,
        (List.range rb).map (fun i => BitVec.ofNat 8 (e.rdr (dBinA d) (dBytes d 16 4 + r * rowStride (e.str (dBinA d)) rb + i))))) }

/-- Groups of 16 elements of a tensor (R278): masks and values. -/
def huskGroups (f : Nat) (elems : Nat → Nat) (n : Nat) : List (Nat × List Byte) :=
  (List.range (cdiv n 16)).map (fun g =>
    let xs := (List.range (min 16 (n - 16 * g))).map (fun i => elems (16 * g + i))
    (ofBits (xs.map (fun x => x != 0)), packElems f 0 (xs.filter (· != 0))))

/-- TOTAL of a Husk (R278). -/
def huskTotal (mask value : Nat) : Nat := 32 + cdiv (mask + value) 32 * 32

/-- HUSK (R278, R281): the bytes it writes from OFS_D, E and TOTAL. -/
def doHusk (d : BitVec 512) (e : Env) : Res × Nat × Nat :=
  let f := dFmtA d
  let n := dBytes d 16 2
  let h := dBytes d 18 2
  let w := dBytes d 20 2
  let c := dBytes d 22 2
  let cnt := n * h * w * c
  let gs := huskGroups f (fun i => elemAt (e.rdr (dBinA d)) f (dBytes d 24 4) i) cnt
  let mask := cdiv cnt 16 * 2
  let value := (gs.map (fun g => g.2.length)).sum
  let total := huskTotal mask value
  let head := leBytes 4 0x4B535548 ++ leBytes 1 f ++ leBytes 3 0 ++ leBytes 2 n ++ leBytes 2 h ++ leBytes 2 w ++ leBytes 2 c
    ++ leBytes 4 mask ++ leBytes 4 value ++ leBytes 8 0
  let body := gs.flatMap (fun g => leBytes 2 g.1 ++ g.2)
  -- the bytes between the last group and TOTAL are free
  let pad := (List.range (total - 32 - body.length)).map (fun i => BitVec.ofNat 8 (e.fr (i + 1)))
  ({ out := [(dBytes d 28 4, head ++ body ++ pad)] }, cnt, total)

/-- Popcount of a mask. -/
def popcount (m : Nat) : Nat := ((List.range 16).map (fun i => b2n (bitOf m i))).sum

/-- Walk the group records (R278): the place of each group's values, its mask; masks from `total` on read 0. -/
def huskWalk (rdr : Nat → Nat) (f total : Nat) : Nat → Nat → List (Nat × Nat)
  | 0, _ => []
  | n + 1, at_ =>
    let m := if at_ + 2 ≤ total then rdr at_ + 256 * rdr (at_ + 1) else 0
    (at_ + 2, m) :: huskWalk rdr f total n (at_ + 2 + runBytes f (popcount m))

/-- What a Husk's header says. -/
structure HuskHead where
  magic : Nat
  typ   : Nat
  zero  : Bool
  n     : Nat
  h     : Nat
  w     : Nat
  c     : Nat
  mask  : Nat
  value : Nat
  deriving DecidableEq, Repr, Inhabited

/-- Read a Husk's header (R278). -/
def huskHead (rdr : Nat → Nat) : HuskHead :=
  let le := fun (o n : Nat) => ((List.range n).map (fun k => rdr (o + k) * 256 ^ k)).sum
  { magic := le 0 4, typ := le 4 1, zero := le 5 3 == 0 && le 24 8 == 0, n := le 8 2, h := le 10 2, w := le 12 2
    c := le 14 2, mask := le 16 4, value := le 20 4 }

/-- What an UNHUSK reads past the header (R280): the masks within TOTAL, in the first pass; then their values. Offsets from the header on. -/
def huskBody (d : BitVec 512) (rdr : Nat → Nat) (values : Bool) : List (Nat × Nat) :=
  let hd := huskHead rdr
  let total := huskTotal hd.mask hd.value
  let walk := huskWalk rdr (dFmtA d) total (cdiv (hd.n * hd.h * hd.w * hd.c) 16) 32
  (walk.filter (fun g => decide (g.1 ≤ total))).map (fun g => (g.1 - 2, 2 + if values then runBytes (dFmtA d) (popcount g.2) else 0))

/-- The first check of R280 that a Husk fails; 0 none. `sizeA`, `sizeD`: bytes of the bins from the offsets on. -/
def huskReason (d : BitVec 512) (rdr : Nat → Nat) (sizeA sizeD : Nat) : Nat :=
  let f := dFmtA d
  let hd := huskHead rdr
  let e := hd.n * hd.h * hd.w * hd.c
  let total := huskTotal hd.mask hd.value
  let wants := fun (o x : Nat) => dBytes d o 2 == 0 || dBytes d o 2 == x
  let walk := huskWalk rdr f total (cdiv e 16) 32
  if !(hd.magic == 0x4B535548 && huskFmt hd.typ && hd.zero && e != 0 && decide (e < 2 ^ 32)) then 1
  else if !(hd.typ == f && wants 16 hd.n && wants 18 hd.h && wants 20 hd.w && wants 22 hd.c) then 2
  else if hd.mask != cdiv e 16 * 2 then 3
  else if !(decide (total ≤ dBytes d 32 4) && decide (total ≤ sizeA)) then 4
  else if e % 16 != 0 && decide ((walk.getLastD (0, 0)).2 ≥ 2 ^ (e % 16)) then 5
  else if hd.value < (walk.map (fun g => runBytes f (popcount g.2))).sum then 6
  else if runBytes f e > sizeD then 7
  else 0

/-- UNHUSK (R280): the dense tensor, E and TOTAL. -/
def doUnhusk (d : BitVec 512) (e : Env) : Res × Nat × Nat :=
  let f := dFmtA d
  let rdr := fun (i : Nat) => e.rdr (dBinA d) (dBytes d 24 4 + i)
  let hd := huskHead rdr
  let cnt := hd.n * hd.h * hd.w * hd.c
  let total := huskTotal hd.mask hd.value
  let walk := huskWalk rdr f total (cdiv cnt 16) 32
  let elems := walk.flatMap (fun g => (List.range 16).map (fun i =>
    if bitOf g.2 i then elemAt rdr f g.1 (popcount (g.2 % 2 ^ i)) else 0))
  ({ out := [(dBytes d 28 4, packElems f (e.fr 0) (elems.take cnt))] }, cnt, total)

/-- E and TOTAL that a HUSK or UNHUSK works on; 0 for the others. -/
def huskSizes (d : BitVec 512) (e : Env) : Nat × Nat :=
  match dOp d with
  | 0x07 => (doHusk d e).2
  | 0x08 => (doUnhusk d e).2
  | _ => (0, 0)

/-- What a command computes. -/
def compute (d : BitVec 512) (e : Env) : Res :=
  match dOp d with
  | 0x01 => doConv d e
  | 0x02 => doGemm d e
  | 0x03 => doPool d e
  | 0x04 => doEltw d e
  | 0x05 => doArgmax d e
  | 0x06 => doCopy d e
  | 0x07 => (doHusk d e).1
  | 0x08 => (doUnhusk d e).1
  | 0x09 => doResize d e
  | _ => {}

end Sys2Proof.Machine
end

