-- ==== Sys2Proof/Machine/Store.lean ====
section
/-!
DEFINITION. Machine/Store.lean: line-mapped storage (R263 to R277): one byte read under its owner, a destination line staged
and exchanged, lines bound to a context.
-/

namespace Sys2Proof.Machine

/-- The canonical form of a memory: addresses strictly rising, no byte listed that reads 0 unlisted. -/
def Memory.wf (mem : List Host.Cell) : Bool := tabWf 0 mem

/-- A line and a page are 4 KiB (R263, R270). -/
def lineBytes : Nat := 4096

/-- Lines of a Granary (R263). -/
def granaryLines : Nat := 16384

/-- Logical HBM pages of the context space, 47 GiB (R270). -/
def hbmPages : Nat := 12320768

/-- The physical line of a logical line (R264, R271). -/
def physLine (s : Store) (l : Nat) : Nat := (tget none s.map l).getD l

/-- The owner of a logical line (R267, R271). -/
def lineOwner (s : Store) (l : Nat) : Nat := tget 0 s.owner (physLine s l)

/-- An entry of the line map or page map (R264, R271): VALID, OWNER, the physical line or page. An entry is valid while its line or page is
bound to a context (assumption 108). -/
def mapEntry (s : Store) (l : Nat) : Bool × Nat × Nat := (lineOwner s l != 0, lineOwner s l, physLine s l)

/-- Put an index into a rising list without repeats. -/
def sins (x : Nat) : List Nat → List Nat
  | [] => [x]
  | y :: ys => if x < y then x :: y :: ys else if x = y then y :: ys else y :: sins x ys

/-- A byte of a line its owner reads: 0 while the line is unwritten (R268). HBM has no UNWRITTEN bit (R271). -/
def rawByte (hbm : Bool) (s : Store) (a : Nat) : Byte :=
  let p := physLine s (a / lineBytes)
  if hbm || s.written.contains p then tget 0 s.mem (p * lineBytes + a % lineBytes) else 0

/-- A byte as a context reads it: another context's line reads 0 (R268). -/
def readByte (hbm : Bool) (s : Store) (c a : Nat) : Byte :=
  if lineOwner s (a / lineBytes) = c then rawByte hbm s a else 0

/-- Put bytes at a physical address. -/
def putBytes : List Byte → Nat → List Host.Cell → List Host.Cell
  | [], _, mem => mem
  | b :: bs, a, mem => putBytes bs (a + 1) (tset 0 mem a b)

/-- The cells of a physical line moved to another. -/
def lineCells (mem : List Host.Cell) (p q : Nat) : List Host.Cell :=
  (mem.filter (fun c => c.1 / lineBytes == p)).map (fun c => (q * lineBytes + c.1 % lineBytes, c.2))

/-- Memory without a physical line's cells. -/
def dropLine (mem : List Host.Cell) (p : Nat) : List Host.Cell := mem.filter (fun c => c.1 / lineBytes != p)

/-- A staging line `f` is taken at the first write to a destination line `l` (R275): filled from it, or UNWRITTEN as it is. -/
def stageLine (hbm : Bool) (s : Store) (l f : Nat) : Store :=
  let old := physLine s l
  let new := physLine s f
  let base := dropLine s.mem new
  let full := hbm || s.written.contains old
  { s with
    mem := if full then (lineCells s.mem old new).foldl (fun m c => tset 0 m c.1 c.2) base else base
    written := if hbm then s.written else if full then sins new s.written else s.written.filter (· != new) }

/-- Publish one destination line `l` through its staging line `f` (R276): the staging line takes the writes, then the two exchange their map
entries. -/
def publishLine (hbm : Bool) (s : Store) (l f : Nat) (ws : List (Nat × List Byte)) : Store :=
  let old := physLine s l
  let new := physLine s f
  let mem := ws.foldl (fun m w => putBytes w.2 (new * lineBytes + w.1) m) s.mem
  let entry := fun (l p : Nat) => if l = p then none else some p
  { s with
    mem := mem
    map := tset none (tset none s.map l (entry l new)) f (entry f old)
    written := if hbm then s.written else sins new s.written }

/-- Bind lines to a context: OWNER set, UNWRITTEN 1 (R267). -/
def bindLines (s : Store) (c : Nat) (ls : List Nat) : Store :=
  ls.foldl (fun s l =>
    let p := physLine s l
    { s with owner := tset 0 s.owner p c, written := s.written.filter (· != p) }) s

/-- Zero pages (R271, R418, R421). -/
def zeroPages (s : Store) (ps : List Nat) : Store :=
  { s with mem := s.mem.filter (fun c => !ps.contains (c.1 / lineBytes)) }

/-- Write whole bytes in place under the owner's binding: the first contents of a bin (R309). -/
def initBytes (hbm : Bool) (s : Store) (a : Nat) : List Byte → Store
  | [] => s
  | b :: bs =>
    let p := physLine s (a / lineBytes)
    let base := if hbm || s.written.contains p then s.mem else dropLine s.mem p
    initBytes hbm { s with mem := tset 0 base (p * lineBytes + a % lineBytes) b,
                           written := if hbm then s.written else sins p s.written } (a + 1) bs

/-- The line ranges of a byte range, as (line, place in the line, bytes). -/
def cutLines (fuel a : Nat) (bs : List Byte) : List (Nat × Nat × List Byte) :=
  match fuel with
  | 0 => []
  | fuel + 1 =>
    if bs.isEmpty then []
    else
      let k := lineBytes - a % lineBytes
      (a / lineBytes, a % lineBytes, bs.take k) :: cutLines fuel (a + k) (bs.drop k)

/-- The lines that a byte range touches. -/
def linesOf (a n : Nat) : List Nat :=
  if n = 0 then [] else (List.range ((a + n - 1) / lineBytes - a / lineBytes + 1)).map (· + a / lineBytes)

end Sys2Proof.Machine
end

