-- ==== Sys2Proof/Machine/Cmds.lean ====
section
/-!
DEFINITION. Machine/Cmds.lean: commands in flight (R332 to R349): operand plans and the last checks of R285, what a group sees
of its own staging (R258 to R260), readiness and the scheduler (R333, R343, R344), kills (R261, R343), completion entries
(R335 to R338) and COMMIT's publication (R276).
-/

namespace Sys2Proof.Machine

/-- Tillers work in the states in which the module is configured and powered (R23, R431). -/
def fabricOn (m : Mach) : Bool :=
  match m.ctl.st with
  | .configured => true
  | .machineReady => true
  | .running => true
  | .degraded => true
  | .powering => false
  | .booting => false
  | .standby => false
  | .dormant => false
  | .fault => false

/-- A Tiller that can run work: not fused off, quarantined or in reset. -/
def tilUp (m : Mach) (t : Nat) : Bool :=
  match (tilOf m t).st with
  | .idle => true
  | .busy => true
  | .gated => true
  | .fusedOff => false
  | .quarantined => false
  | .reset => false

/-- Nominal grid clock of the ordering code, MHz (R2). -/
def nominalMhz (m : Mach) : Nat := if m.nor.code = 2 then 1400 else 1600

/-- T_min, ns (R11). -/
def tMinNs (m : Mach) : Nat :=
  let c := m.cfg.machine
  if c.freeRun then c.periodNs else if c.vMaxCps = 0 then 0 else c.s * c.pitch * giga / c.vMaxCps

/-- The guaranteed clock of a program, in 1/16 MHz (R316). -/
def fG16 (m : Mach) (p : Program) : Nat := max 1 (min (16 * p.clockMhz) (15 * nominalMhz m))

/-- Cycles at the guaranteed clock, ns, rounded up. -/
def wcNs (m : Mach) (p : Program) (cycles : Nat) : Nat := cdiv (cycles * 16000) (fG16 m p)

/-- A command in flight. -/
def cmdOf (m : Mach) (q seq : Nat) : Option Cmd := m.fab.inflight.find? (fun c => c.queue == q && c.seq == seq)

/-- Change a command in flight. -/
def setCmd (m : Mach) (q seq : Nat) (f : Cmd → Cmd) : Mach :=
  setFab m (fun b => { b with inflight := b.inflight.map (fun c => if c.queue == q && c.seq == seq then f c else c) })

/-- Commands of a queue that are not committed, in SEQ order: its group, and what follows it (R258). -/
def queueCmds (m : Mach) (q : Nat) : List Cmd := m.fab.inflight.filter (fun c => c.queue == q && !c.committed)

/-- Is the first an earlier SEQ than the second, of one queue (R329, R336)? Those of one era lie less than 2^31 apart. -/
def seqBefore (a b : Nat) : Bool :=
  if a / 2 ^ 32 = b / 2 ^ 32 then within 1 ((b + 2 ^ 32 - a % 2 ^ 32) % 2 ^ 32) (2 ^ 31 - 1) else decide (a / 2 ^ 32 < b / 2 ^ 32)

/-- Commands in SEQ order. -/
def seqSort (cs : List Cmd) : List Cmd := isort (fun a b => seqBefore a.seq b.seq || a.seq == b.seq) cs

/-- The SEQ of a queue's next descriptor, with the queue's era. -/
def nextSeq (m : Mach) (q : Nat) : Nat := (queOf m q).era * 2 ^ 32 + (queOf m q).ci.toNat

/-- Earlier uncommitted commands of the command's queue. -/
def earlier (m : Mach) (c : Cmd) : List Cmd :=
  (queueCmds m c.queue).filter (fun x => seqBefore x.seq c.seq)

/-- Earlier commands of the group whose staging stands (R259). -/
def groupDone (m : Mach) (c : Cmd) : List Cmd :=
  (earlier m c).filter (fun x => x.phase == .done && decide (x.status < 0x10))

/-- The entry a command reads for a handle. -/
def cmdBin (m : Mach) (c : Cmd) (h : Nat) : Bin := binOf m c.tiller c.ctx h

/-- Current version of an accumulator bin as a command of the group sees it (R260): upper half, kind, reduction length. -/
def accView (m : Mach) (c : Cmd) (h : Nat) : Bool × Nat × Nat :=
  let b := cmdBin m c h
  (groupDone m c).foldl (fun v x => match x.accOut with
    | some (h', k, r) => if h' = h then (!v.1, k, r) else v
    | none => v) (b.cur, b.kind, b.redLen)

/-- Offset of a half of an accumulator bin (R272). -/
def halfOfs (b : Bin) (upper : Bool) : Nat := if upper then b.size * 512 else 0

/-- A staged byte of the group (R259): the latest write that covers the offset. -/
def stagedByte (outs : List (Nat × List Byte)) (o : Nat) : Option Byte :=
  outs.foldl (fun r w => if w.1 ≤ o ∧ o < w.1 + w.2.length then (w.2[o - w.1]?) else r) none

/-- A byte of a handle as a command of a context reads it, its own group's staging included: what the group has written, and what the staging
lines that it has taken were filled with (R275). -/
def viewByte (m : Mach) (c : Cmd) (h o : Nat) : Byte :=
  let g := groupDone m c
  match stagedByte (g.flatMap (fun x => if x.dst = h then x.out else [])) o with
  | some b => b
  | none =>
    let b := cmdBin m c h
    let a := b.base * 1024 + o
    let a := match (g.flatMap (fun x => x.taken)).find? (fun x => x.1 == b.space && x.2.1 == a / lineBytes) with
      | some x => x.2.2 * lineBytes + a % lineBytes
      | none => a
    if b.space = 0 then readByte false (tilOf m c.tiller).granary c.ctx a
    else if b.space = 1 then readByte true m.fab.hbm c.ctx a else 0

/-- Exact mode (R362). -/
def ctxExact (m : Mach) (c : Nat) : Bool :=
  match (ctxOf m c).program with
  | some p => p.exact
  | none => false


/-- The operand ranges that a command reads: handle, first byte, bytes (R274, R285, R287). `bin`: the entry of a handle;
`accIn`: offset of the half of BIN_ACC that is read. -/
def readRanges (bin : Nat → Bin) (accIn : Nat) (d : BitVec 512) : List (Nat × Nat × Nat) :=
  let fa := dFmtA d
  let fb := dFmtB d
  let str := fun (h : Nat) => (bin h).stride
  let lut := if dAct d = 2 then 256 else 0
  let p := fun (ofs n : Nat) => if dBinP d = noBin then [] else [(dBinP d, ofs, 16 * n + lut)]
  let es := if isInt fa then 8 else 4
  let acc := fun (ofs n : Nat) => if dAccIn d then [(dBinAcc d, accIn + ofs, n * es)] else []
  let pixels := fun (w : Win) => (List.range w.n).flatMap (fun n => (namedPixels w).flatMap (fun px =>
    let i := (n * w.h + px.1) * w.w + px.2
    if isBs fa then
      let k := pad32 w.ci
      [(dBinA d, w.ofsA + i * runBytes fa k, runBytes fa k), (dBinA d, w.ofsA + runBytes fa (w.n * w.h * w.w * k) + i * (k / 32), k / 32)]
    else [(dBinA d, w.ofsA + (n * w.h + px.1) * winStride (str (dBinA d)) fa w.w w.ci + runBytes fa (px.2 * w.ci), runBytes fa w.ci)]))
  match dOp d with
  | 0x01 =>
    let w := convWin d
    let cig := w.ci / w.groups
    let run := if dSparse d then cdiv cig 4 * 4 else if isBs fb then pad32 cig else cig
    let t := w.co * w.kh * w.kw * run
    let b := if dSparse d then runBytes fb (t / 2) + cdiv (t / 4) 2 else runBytes fb t + if isBs fb then t / 32 else 0
    pixels w ++ [(dBinB d, w.ofsB, b)] ++ p w.ofsP w.co ++ acc w.ofsAcc (w.n * w.ho.toNat * w.wo.toNat * w.co)
  | 0x02 =>
    let mm := dBytes d 16 2
    let nn := dBytes d 18 2
    let kk := dBytes d 20 4
    let rows := fun (h ofs f n : Nat) =>
      if isBs f then [(h, ofs, runBytes f (n * pad32 kk) + n * pad32 kk / 32)]
      else (List.range n).map (fun r => (h, ofs + r * rowStride (str h) (runBytes f kk), runBytes f kk))
    let t := nn * (cdiv kk 4 * 4)
    rows (dBinA d) (dBytes d 24 4) fa mm
      ++ (if dSparse d then [(dBinB d, dBytes d 28 4, runBytes fb (t / 2) + cdiv (t / 4) 2)] else rows (dBinB d) (dBytes d 28 4) fb nn)
      ++ p (dBytes d 36 4) nn ++ acc (dBytes d 40 4) (mm * nn)
  | 0x03 => pixels (poolWin d)
  | 0x04 =>
    let n := dBytes d 28 4
    (dBinA d, dBytes d 32 4, runBytes fa n) :: (if dBytes d 16 1 = 5 then [] else [(dBinB d, dBytes d 36 4, runBytes fa n)])
      ++ p (dBytes d 44 4) (dBytes d 48 2)
  | 0x05 =>
    let n := dBytes d 22 2 * dBytes d 16 2
    let w := dBytes d 18 2
    let k := dBytes d 20 2
    if isBs fa then [(dBinA d, dBytes d 24 4, runBytes fa (n * w * pad32 k) + n * w * pad32 k / 32)]
    else (List.range n).map (fun r => (dBinA d, dBytes d 24 4 + r * winStride (str (dBinA d)) fa w k, runBytes fa (w * k)))
  | 0x06 => (List.range (dBytes d 28 4)).map (fun r =>
      (dBinA d, dBytes d 16 4 + r * rowStride (str (dBinA d)) (dBytes d 24 4), dBytes d 24 4))
  | 0x07 => [(dBinA d, dBytes d 24 4, runBytes fa (dBytes d 16 2 * dBytes d 18 2 * dBytes d 20 2 * dBytes d 22 2))]
  | 0x08 => [(dBinA d, dBytes d 24 4, 32)]
  | 0x09 =>
    let w := dBytes d 18 2
    let k := dBytes d 24 2
    (List.range (dBytes d 16 2)).map (fun y => (dBinA d, dBytes d 28 4 + y * winStride (str (dBinA d)) fa w k, runBytes fa (w * k)))
  | _ => []

/-- Accumulators of a command. -/
def accCount (d : BitVec 512) : Nat :=
  if dOp d = 0x01 then (convWin d).n * (convWin d).ho.toNat * (convWin d).wo.toNat * (convWin d).co
  else dBytes d 16 2 * dBytes d 18 2

/-- Bytes of the accumulators of a command (R238). -/
def accBytes (d : BitVec 512) : Nat := accCount d * (if isInt (dFmtA d) then 8 else 4)

def accOfs (d : BitVec 512) : Nat := if dOp d = 0x01 then (convWin d).ofsAcc else dBytes d 40 4

/-- A command that uses an accumulator bin (R260). -/
def usesAcc (d : BitVec 512) : Bool := (dOp d == 1 || dOp d == 2) && needsAcc d

/-- The ranges that a command writes in its destination handle: handle, first byte, bytes. `accOut`: offset of the half of
BIN_ACC that is written. -/
def writeRanges (bin : Nat → Bin) (accOut : Nat) (d : BitVec 512) : List (Nat × Nat × Nat) :=
  let o := dOut d
  let hD := dBinD d
  let sD := (bin hD).stride
  let win := fun (w : Win) (f k : Nat) =>
    let n := w.n * w.ho.toNat
    let wo := w.wo.toNat
    if isBs f then [(hD, w.ofsD, runBytes f (n * wo * pad32 k) + n * wo * pad32 k / 32)]
    else (List.range n).map (fun r => (hD, w.ofsD + r * winStride sD f wo k, runBytes f (wo * k)))
  if usesAcc d && o = 7 then [(dBinAcc d, accOut + accOfs d, accBytes d)]
  else match dOp d with
  | 0x01 => win (convWin d) o (convWin d).co
  | 0x02 =>
    let mm := dBytes d 16 2
    let nn := dBytes d 18 2
    if isBs o then [(hD, dBytes d 32 4, runBytes o (mm * pad32 nn) + mm * pad32 nn / 32)]
    else (List.range mm).map (fun r => (hD, dBytes d 32 4 + r * rowStride sD (runBytes o nn), runBytes o nn))
  | 0x03 => win (poolWin d) (dFmtA d) (poolWin d).ci
  | 0x04 =>
    let n := dBytes d 28 4
    let k := dBytes d 48 2
    [(hD, dBytes d 40 4, if isBs o then runBytes o (n / k * pad32 k + pad32 (n % k)) + (n / k * pad32 k + pad32 (n % k)) / 32 else runBytes o n)]
  | 0x05 =>
    let w := dBytes d 18 2
    (List.range (dBytes d 22 2 * dBytes d 16 2)).map (fun r => (hD, dBytes d 28 4 + r * rowStride sD (2 * w), 2 * w))
  | 0x06 => (List.range (dBytes d 28 4)).map (fun r => (hD, dBytes d 20 4 + r * rowStride sD (dBytes d 24 4), dBytes d 24 4))
  | 0x07 =>
    let e := dBytes d 16 2 * dBytes d 18 2 * dBytes d 20 2 * dBytes d 22 2
    [(hD, dBytes d 28 4, 32 + cdiv (cdiv e 16 * 2 + runBytes (dFmtA d) e) 32 * 32)]
  | 0x09 =>
    let w := dBytes d 22 2
    let k := dBytes d 24 2
    (List.range (dBytes d 20 2)).map (fun y => (hD, dBytes d 32 4 + y * winStride sD (dFmtA d) w k, runBytes (dFmtA d) (w * k)))
  | _ => []

/-- What a command may write in its destination handle, an UNHUSK's header yet unread included: the dense tensor that the descriptor states,
else all from OFS_D on. -/
def mayWrite (bin : Nat → Bin) (accOut : Nat) (d : BitVec 512) : List (Nat × Nat × Nat) :=
  if dOp d = 0x08 then
    let e := dBytes d 16 2 * dBytes d 18 2 * dBytes d 20 2 * dBytes d 22 2
    [(dBinD d, dBytes d 28 4, if e = 0 then (bin (dBinD d)).size * 1024 - dBytes d 28 4 else runBytes (dFmtA d) e)]
  else writeRanges bin accOut d

/-- Arithmetic revision of the module (R232). -/
def arRev (m : Mach) : Nat := m.fuses.ar

/-- What a command computes through. A value that the spec leaves open is the same for the same inputs in exact mode and of an integer pair
(R364; assumption 7). -/
def envOf (m : Mach) (c : Cmd) : Env :=
  let v := accView m c (dBinAcc c.desc)
  let b := cmdBin m c (dBinAcc c.desc)
  let rdr := fun (h o : Nat) => (viewByte m c h o).toNat
  let h := dBinA c.desc
  let o := dBytes c.desc 24 4
  let body := if dOp c.desc = 0x08 then (huskBody c.desc (fun i => rdr h (o + i)) true).map (fun r => (h, o + r.1, r.2)) else []
  let ins := (readRanges (cmdBin m c) (halfOfs b v.1) c.desc ++ body).flatMap (fun r => (List.range r.2.2).map (fun i => rdr r.1 (r.2.1 + i)))
  { rdr := rdr
    str := fun h => (cmdBin m c h).stride
    exact := ctxExact m c.ctx
    fr := fun k => if ctxExact m c.ctx || isInt (dFmtA c.desc)
      then Config.sameFree (arRev m) m.cfg.stem.libVer (c.raw &&& ~~~ (BitVec.ofNat 512 0xFFFFFFFF <<< 32)) ins k
      else Config.free (m.draws + k)
    accIn := halfOfs b v.1
    accOut := halfOfs b (!v.1) }

/-- What a command in flight reads, and writes. -/
def cmdReads (m : Mach) (c : Cmd) : List (Nat × Nat × Nat) := readRanges (cmdBin m c) (envOf m c).accIn c.desc
def cmdWrites (m : Mach) (c : Cmd) : List (Nat × Nat × Nat) := writeRanges (cmdBin m c) (envOf m c).accOut c.desc

/-- Bin kinds (R274): may this entry be a source, a destination? -/
def wideBin (b : Bin) : Bool := b.space == 0 && !b.narrow
def sourceOk (op : Nat) (b : Bin) : Bool :=
  if op = 0x06 then b.space == 0 || b.space == 1
  else if op = 0x08 then wideBin b || b.space == 1 else wideBin b
def destOk (op : Nat) (b : Bin) : Bool :=
  if op = 0x06 then decide (b.space ≤ 2)
  else if op = 0x07 then wideBin b || b.space == 1 || b.space == 2 else wideBin b

/-- Check 4 of R285 but for staging: bin kinds, accumulators and ranges (R260, R274, R283, R294). -/
def rangesOk (m : Mach) (c : Cmd) : Bool :=
  let d := c.desc
  let op := dOp d
  let fits := fun (r : Nat × Nat × Nat) => r.2.2 == 0 || decide (r.2.1 + r.2.2 ≤ (cmdBin m c r.1).size * 1024)
  let winOp := op == 1 || op == 3 || op == 5
  let srcs := [dBinA d, dBinB d, dBinP d].filter (· != noBin)
  (op == 0x0A || op == 0x0B || (srcs.all (fun h => sourceOk op (cmdBin m c h))
      && (dBinD d == noBin || destOk op (cmdBin m c (dBinD d)))
      && (dBinAcc d == noBin || wideBin (cmdBin m c (dBinAcc d)))))
    && (!needsAcc d || (cmdBin m c (dBinAcc d)).acc)
    && (!usesAcc d || (decide (accOfs d + accBytes d ≤ (cmdBin m c (dBinAcc d)).size * 512)))
    && (!winOp || !isBs (dFmtA d) || (cmdBin m c (dBinA d)).stride == 0)
    && (op != 1 || !isBs (dOut d) || (cmdBin m c (dBinD d)).stride == 0)
    && (cmdReads m c).all fits && (cmdWrites m c).all fits

/-- Every handle bound, the context's own (R273). -/
def handlesOk (m : Mach) (c : Cmd) : Bool :=
  (dHandles c.desc).all (fun h => (cmdBin m c h).valid && (cmdBin m c h).owner == c.ctx)

/-- Destination lines of ranges of a handle, as (space, line). A PEER destination is staged locally, outside any line. -/
def destLines (b : Bin) (rs : List (Nat × Nat)) : List (Nat × Nat) :=
  if b.space = 2 then []
  else (rs.flatMap (fun r => (linesOf (b.base * 1024 + r.1) r.2).map (fun l => (b.space, l)))).dedup

/-- Lines of BIN_ACC that the running sums of a decomposed CONV take between its passes, when no new version takes them (R294). -/
def scratchLines (m : Mach) (c : Cmd) : List (Nat × Nat) :=
  if decomposed c.desc && dOut c.desc != 7 then
    destLines (cmdBin m c (dBinAcc c.desc)) [((envOf m c).accOut + accOfs c.desc, accBytes c.desc)]
  else []

/-- The lines of a context's staging pool on a Tiller, in a Granary or in HBM (R275). -/
def poolOf (m : Mach) (t c sp : Nat) : List Nat :=
  if sp = 1 then tget [] m.fab.hbmPools (t * 16 + c) else tget [] (tilOf m t).pools c

/-- Those that commands in flight have taken. -/
def usedStage (m : Mach) (t c sp : Nat) : List Nat :=
  ((m.fab.inflight.filter (fun x => x.tiller == t && x.ctx == c)).flatMap (fun x => x.taken)).filterMap (fun x =>
    if (x.1 == 1) == (sp == 1) then some x.2.2 else none)

/-- Those that are free. -/
def freeStage (m : Mach) (t c sp : Nat) : List Nat := (poolOf m t c sp).filter (fun f => !(usedStage m t c sp).contains f)

/-- Take a staging line for each destination line from the free ones of a Granary, `g`, and of HBM, `h`: in a Granary one of the line's class
of address bits [13:12], which the line map never changes (R264, R275); none: the pool does not hold them. -/
def takeLines : List (Nat × Nat) → List Nat → List Nat → Option (List (Nat × Nat × Nat))
  | [], _, _ => some []
  | k :: ks, g, h =>
    if k.1 = 1 then
      match h with
      | [] => none
      | f :: h => (takeLines ks g h).map ((1, k.2, f) :: ·)
    else
      match g.find? (fun f => k.1 == 2 || f % 4 == k.2 % 4) with
      | none => none
      | some f => (takeLines ks (g.filter (· != f)) h).map ((k.1, k.2, f) :: ·)

/-- The lines for which a command that has computed its results takes staging lines: destination lines and lines of running sums that its
group has not yet taken, and whole lines for the data for a peer, which lie outside any destination line (R275, R277, R294). -/
def needLines (m : Mach) (c : Cmd) : List (Nat × Nat) :=
  let had := (earlier m c).flatMap (fun x => x.taken)
  let loose := if c.dst != noBin && (cmdBin m c c.dst).space == 2 then cdiv ((c.out.map (fun w => w.2.length)).sum) lineBytes else 0
  ((if c.dst = noBin then [] else destLines (cmdBin m c c.dst) (c.out.map (fun w => (w.1, w.2.length)))) ++ scratchLines m c).dedup.filter
      (fun k => !had.any (fun x => x.1 == k.1 && x.2.1 == k.2))
    ++ (List.range loose).map (fun i => (2, i))

/-- The staging lines that a command takes (R275); none: its staging exceeds the pool (R258). -/
def takeStage (m : Mach) (c : Cmd) : Option (List (Nat × Nat × Nat)) :=
  takeLines (needLines m c) (freeStage m c.tiller c.ctx 0) (freeStage m c.tiller c.ctx 1)

/-- Fill staging lines from their destination lines (R275). -/
def fillLines (m : Mach) (t : Nat) (ls : List (Nat × Nat × Nat)) : Mach :=
  forEach ls m (fun m x =>
    if x.1 = 0 then setTil m t (fun y => { y with granary := stageLine false y.granary x.2.1 x.2.2 })
    else if x.1 = 1 then setFab m (fun b => { b with hbm := stageLine true b.hbm x.2.1 x.2.2 }) else m)

/-- A pool holds lines and loose lines that are staged (R258, R264, R275): in all, and in each class of address bits [13:12], which the
line map never changes. -/
def poolRoom (m : Mach) (t c : Nat) (s : List (Nat × Nat) × Nat) : Bool :=
  let pool := poolOf m t c 0
  let hpool := poolOf m t c 1
  let g := s.1.filter (fun l => l.1 == 0)
  let h := s.1.filter (fun l => l.1 == 1)
  decide (g.length + s.2 ≤ pool.length) && decide (h.length ≤ hpool.length)
    && (List.range 4).all (fun k => decide ((g.filter (fun l => l.2 % 4 == k)).length ≤ (pool.filter (fun l => l % 4 == k)).length))

/-- The lines that a command says it will stage (R258, R285). What an UNHUSK writes its data says. -/
def declaredLines (m : Mach) (c : Cmd) : List (Nat × Nat) :=
  (cmdWrites m c).flatMap (fun r => destLines (cmdBin m c r.1) [r.2]) ++ scratchLines m c

/-- The commands of the command's own group before it (R258): those after the last COMMIT. -/
def groupAhead (m : Mach) (c : Cmd) : List Cmd :=
  let e := earlier m c
  e.filter (fun x => dOp x.desc != 0x0B && e.all (fun y => dOp y.desc != 0x0B || !seqBefore x.seq y.seq))

/-- The pool can hold what the command's own group stages up to it (check 4 of R285). -/
def stagingOk (m : Mach) (c : Cmd) : Bool :=
  let cs := c :: (groupAhead m c).filter (fun x => decide (x.status < 0x10))
  let loose := fun (x : Cmd) => ((cmdWrites m x).filter (fun r => (cmdBin m x r.1).space == 2)).map (fun r => r.2.2)
  poolRoom m c.tiller c.ctx ((cs.flatMap (declaredLines m)).dedup, (cs.map (fun x => cdiv (loose x).sum lineBytes)).sum)

/-- The checks of the Stem core's decode in the order of R273 and R285: a status that ends the command, or none. -/
def decodeCheck (m : Mach) (c : Cmd) : Option Nat :=
  if !fieldsOk c.desc then some stBadDesc
  else if !handlesOk m c then some stHandle
  else if emptyOutput c.desc then some stEmpty
  else if !rangesOk m c || !stagingOk m c then some stBadDesc
  else none

/-- Accumulator version (R241, R260, R293): the reduction length of the version written; none: refused. -/
def accCheck (m : Mach) (c : Cmd) : Option Nat :=
  let d := c.desc
  let own := if dOp d = 0x01 then (convWin d).kh * (convWin d).kw * ((convWin d).ci / (convWin d).groups) else dBytes d 20 4
  let v := accView m c (dBinAcc d)
  let kind := if isInt (dFmtA d) then 1 else 2
  if !dAccIn d then (if own ≤ 2 ^ 31 then some own else none)
  else if v.2.1 != kind then none
  else if own + v.2.2 ≤ 2 ^ 31 then some (own + v.2.2) else none

/-- Does a range of a handle meet a line or a page of another owner (R268, R271)? -/
def foreignRange (m : Mach) (c : Cmd) (r : Nat × Nat × Nat) : Bool :=
  let b := cmdBin m c r.1
  let s := if b.space = 1 then m.fab.hbm else (tilOf m c.tiller).granary
  b.space != 2 && (linesOf (b.base * 1024 + r.2.1) r.2.2).any (fun l => lineOwner s l != c.ctx)

/-- Does a read or a write meet a line of another owner (R268)? Of a HUSK and an UNHUSK, what they write only the data say. -/
def deniedAccess (m : Mach) (c : Cmd) : Bool :=
  (cmdReads m c).any (foreignRange m c) || (dOp c.desc != 0x07 && (cmdWrites m c).any (foreignRange m c))
    || (decomposed c.desc && foreignRange m c (dBinAcc c.desc, (envOf m c).accOut + accOfs c.desc, accBytes c.desc))

/-- The same of what an UNHUSK reads past the header (R268, R280): its masks; its values, once its checks have passed. -/
def deniedHusk (m : Mach) (c : Cmd) (values : Bool) : Bool :=
  let d := c.desc
  dOp d == 0x08 && (huskBody d (fun i => (envOf m c).rdr (dBinA d) (dBytes d 24 4 + i)) values).any (fun r =>
    foreignRange m c (dBinA d, dBytes d 24 4 + r.1, r.2))

/-- The unit holders of a Tiller. -/
def holder (t : Tiller) (u : EUnit) : Option (Nat × Nat) :=
  match u with
  | .grid => t.grid
  | .flail => t.flail
  | .chute => t.chute
  | .stem => none

/-- Does the command hold its units? One that waits for a re-run of another step does not (R357). -/
def holdsUnits (m : Mach) (c : Cmd) : Bool :=
  (c.phase == .running || c.phase == .held)
    && (unitsOfOp c.desc).any (fun u => holder (tilOf m c.tiller) u == some (c.queue, c.seq))

/-- Is every unit that the command needs free? -/
def unitsFree (m : Mach) (c : Cmd) : Bool := (unitsOfOp c.desc).all (fun u => holder (tilOf m c.tiller) u == none)

/-- Give or take the command's units; TIL_STATUS.STATE follows. -/
def setUnits (m : Mach) (c : Cmd) (h : Option (Nat × Nat)) : Mach :=
  setTil m c.tiller (fun t =>
    let us := unitsOfOp c.desc
    let t := { t with
      grid := if us.contains .grid then h else t.grid
      flail := if us.contains .flail then h else t.flail
      chute := if us.contains .chute then h else t.chute }
    let busy := t.grid.isSome || t.flail.isSome || t.chute.isSome
    { t with st := match t.st with
        | .idle => if busy then .busy else .idle
        | .busy => if busy then .busy else .idle
        | .gated => .gated
        | .fusedOff => .fusedOff
        | .quarantined => .quarantined
        | .reset => .reset })

/-- Is the command ready (R333)? -/
def ready (m : Mach) (c : Cmd) : Bool :=
  c.phase == .fetched && tilUp m c.tiller && (earlier m c).all (fun x => x.phase == .done ||
    (dOp x.desc != 0x0A && dOp x.desc != 0x0B
      && (dWrites x.desc).all (fun h => !(dReads c.desc).contains h && !(dWrites c.desc).contains h)
      && (unitsOfOp x.desc).all (fun u => !(unitsOfOp c.desc).contains u)))

/-- ns since a local time (R85), not below 0. -/
def nsSince (m : Mach) (t : LTime) : Nat := (nsDiff m.time.now t).toNat

/-- 2^-16 ns since a local time (R85), not below 0. -/
def since (m : Mach) (t : LTime) : Nat := (tdiff m.time.now t).toNat

/-- Cycles of its figure a running command has left (R343). Time for which it was held for data does not count. -/
def cyclesLeft (m : Mach) (c : Cmd) : Nat :=
  c.cycles - (nsSince m c.startAt - c.heldNs) * rd m F.TIL_CLK_FREQ_MHZ c.tiller / 1000

/-- Engine time of a run that goes on, 2^-16 ns, from a local time on (R345). -/
def runPart (m : Mach) (c : Cmd) (t : LTime) : Nat := if holdsUnits m c then min (since m c.startAt) (since m t) else 0

/-- BE engine time of a context on a Tiller within the current window (R344). -/
def beTime (m : Mach) (t c : Nat) : Nat :=
  tget 0 (tilOf m t).winTime c
    + ((m.fab.inflight.filter (fun x => !x.lc && x.tiller == t && x.ctx == c)).map (fun x => runPart m x m.fab.winFrom)).sum

/-- Engine time of a context, 2^-16 ns, as QUE_CTX_TIME counts it (R345, R347). -/
def ctxTime (m : Mach) (c : Nat) : Nat :=
  (ctxOf m c).time + ((m.fab.inflight.filter (fun x => x.ctx == c)).map (fun x => runPart m x m.fab.countFrom)).sum

/-- Is an LC command ready for one of these units on the Tiller? -/
def lcReady (m : Mach) (t : Nat) (us : List EUnit) : Bool :=
  m.fab.inflight.any (fun x => x.lc && x.tiller == t && ready m x && (unitsOfOp x.desc).any (us.contains ·))

/-- The scheduler's order among ready BE commands (R344): a smaller triple goes first. Share of time by cross
multiplication, then context, then the queue after the one served last. -/
def beBefore (m : Mach) (x y : Cmd) : Bool :=
  let t := tilOf m x.tiller
  let key := fun (c : Cmd) => beTime m c.tiller c.ctx
  let sh := fun (c : Cmd) => max 1 (ctxOf m c.ctx).share
  let a := key x * sh y
  let b := key y * sh x
  let rot := fun (c : Cmd) => (c.queue + 2 ^ 17 - (tget 0 t.lastQueue c.ctx) - 1) % 65536
  if x.ctx = y.ctx then decide (rot x < rot y)
  else if a < b then true else if b < a then false else decide (x.ctx < y.ctx)

/-- May the command take its unit now (R343, R344)? -/
def chosen (m : Mach) (c : Cmd) : Bool :=
  let us := unitsOfOp c.desc
  c.lc || (!lcReady m c.tiller us &&
    m.fab.inflight.all (fun x => x.lc || x.tiller != c.tiller || (x.queue == c.queue && x.seq == c.seq) || !ready m x
      || !(unitsOfOp x.desc).any (us.contains ·) || !unitsFree m x || !beBefore m x c))

/-- Count engine time for a command that held a unit since `startAt` (R345): in the current window for the scheduler, of BE commands only
(R344); for QUE_CTX_TIME and TIL_UTIL since CONF_PRESENT last returned to 0, and not while it reads 1 (R347, R365). -/
def addEngine (m : Mach) (c : Cmd) : Mach :=
  let t := since m c.startAt
  let win := min t (since m m.fab.winFrom)
  let seen := if confPresent m then 0 else min t (since m m.fab.countFrom)
  let m := setCmd m c.queue c.seq (fun c => { c with engine := c.engine + t })
  let m := setTil m c.tiller (fun x => { x with
    winTime := if c.lc then x.winTime else tmod 0 x.winTime c.ctx (· + win)
    winBusy := if dUnit c.desc = .grid then x.winBusy + min win seen else x.winBusy })
  setCtx m c.ctx (fun x => { x with time := x.time + seen })

/-- A command's units are free again, its time counted. -/
def leaveUnits (m : Mach) (c : Cmd) : Mach := if holdsUnits m c then setUnits (addEngine m c) c none else m

/-- End a command's run without a result: its staging and its new version are discarded, its units freed (R261). -/
def stopRun (m : Mach) (c : Cmd) : Mach :=
  setCmd (leaveUnits m c) c.queue c.seq (fun c => { c with
    out := [], dst := noBin, accOut := none, taken := [], sat := 0, nanInt := 0, phase := .fetched, heldAt := none, badLine := none })

/-- Events and counters of a kill (TIL_EVENT, TIL_ERR_CNT). -/
def noteKill (m : Mach) (c : Cmd) : Mach :=
  raiseCtx (inc m F.TIL_ERR_CNT_KILLED c.tiller) F.TIL_EVENT_KILLED c.tiller c.ctx

/-- A sum of fractions, in lowest terms. -/
def addFrac (x : Nat × Nat) (n d : Nat) : Nat × Nat :=
  let s := (x.1 * d + n * x.2, x.2 * d)
  let g := max 1 (Nat.gcd s.1 s.2)
  (s.1 / g, s.2 / g)

/-- The figures of R346 for a command that completes after it has used a unit. -/
def noteLatency (m : Mach) (c : Cmd) : Mach :=
  if c.phase = .done || c.soloMhz = 0 || c.silent then m
  else setCtx m c.ctx (fun x => { x with
    winLat := x.winLat + (c.readyAt.map (since m)).getD 0, winSolo := addFrac x.winSolo (c.cycles * 1000) c.soloMhz })

/-- End a command with a status (R262): it leaves no staging from 0x10 on. -/
def finish (m : Mach) (c : Cmd) (status : Nat) : Mach :=
  let m := noteLatency m c
  let me := fun (x : Cmd) => x.queue == c.queue && x.seq == c.seq
  let close := fun (x : Cmd) => { x with
    phase := .done, status := status
    doneTick := if x.phase = .done then x.doneTick else m.ctl.tickCount
    out := if status < 0x10 then x.out else []
    taken := if status < 0x10 then x.taken else []
    accOut := if status < 0x10 then x.accOut else none }
  setFab m (fun b => { b with
    inflight := b.inflight.filter (fun x => !me x) ++ (b.inflight.filter me).map close })

/-- Pre-empt the BE command that holds a unit (R343): killed with more than 1,024 cycles left; at its 64th kill it ends. -/
def preemptOne (m : Mach) (c : Cmd) : Mach :=
  let m := noteKill (stopRun m c) c
  let m := inc m F.QUE_CNT_KILLS 0
  let m := setCtx m c.ctx (fun x => { x with winKills := x.winKills + 1 })
  let m := setCmd m c.queue c.seq (fun c => { c with killed := true, preKills := c.preKills + 1, kills := c.kills + 1 })
  if c.preKills + 1 ≥ 64 then
    match cmdOf m c.queue c.seq with
    | some c => raiseCtx (finish m c stDeadline) F.QUE_EVENT_PREEMPT_LIMIT 0 c.ctx
    | none => m
  else m

/-- Free the units that ready LC commands of a Tiller want (R343). A command held for a refetch would not be done in 2 µs: it is killed
too (assumption 77). -/
def preempt (m : Mach) (t : Nat) : Mach :=
  forEach (m.fab.inflight.filter (fun x => !x.lc && x.tiller == t && (x.phase == .running || x.phase == .held))) m (fun m x =>
    if lcReady m t (unitsOfOp x.desc) && (x.phase == .held || decide (cyclesLeft m x > 1024)) then preemptOne m x else m)

/-- A completion entry (R335). -/
def entryBytes (q seq tag status engine tick kills tiller : Nat) : List Byte :=
  leBytes 4 tag ++ leBytes 4 seq ++ leBytes 2 q ++ leBytes 1 status ++ leBytes 1 0 ++ leBytes 4 (sat 32 (engine / 65536))
    ++ leBytes 6 tick ++ leBytes 1 (sat 8 kills) ++ leBytes 1 tiller ++ leBytes 8 0

/-- Entries in a ring (R335). -/
def ringUsed (r : Ring) : Nat := (r.tail.toNat + 2 ^ 17 - r.head.toNat) % 2 ^ 17

/-- Is the ring full (R335)? -/
def ringFull (r : Ring) : Bool := ringUsed r == 2 ^ r.log2Size

/-- The ring of a queue. -/
def queRing (m : Mach) (q : Nat) : Nat := q / 4096 * 256 + (queOf m q).cr

/-- Write an entry to a ring that has room, and send its vector when due (R335, R337). -/
def ringPut (m : Mach) (r : Nat) (e : List Byte) : Mach :=
  let g := ringOf m r
  let ix := g.tail.toNat % 2 ^ g.log2Size
  let e := putAt e 11 (leBytes 1 (b2n g.phase + 2 * b2n g.lost))
  let m := emit m (.dmaWrite (g.base + BitVec.ofNat 64 (32 * ix)) e)
  let n := g.unsig + 1
  let due := decide (n ≥ max 1 g.coalN)
  let m := setRing m r (fun g => { g with
    tail := g.tail + 1, lost := false, unsig := if due then 0 else n
    unsigAt := if due then none else g.unsigAt.getD m.time.now
    phase := if ix + 1 = 2 ^ g.log2Size then !g.phase else g.phase })
  if due then sendVector m g.vector else m

/-- Hand an entry to the ring of its queue (R338). In D3hot no DMA starts (R445): an LC entry is lost, a BE entry waits. -/
def putEntry (m : Mach) (q : Nat) (e : List Byte) : Mach :=
  let r := queRing m q
  let g := ringOf m r
  if (queOf m q).lc then
    if !g.enable then m
    else if ringFull g || m.ctl.d3hot then
      setRing (raiseCtx (inc m F.QUE_CNT_CR_LOST 0) F.QUE_EVENT_CR_LOST 0 (q / 4096)) r (fun g => { g with lost := true })
    else ringPut m r e
  else if !g.enable || ringFull g || m.ctl.d3hot || !(queOf m q).waiting.isEmpty then
    setQue m q (fun x => { x with waiting := x.waiting ++ [e] })
  else ringPut m r e

/-- Entries of commands that wait for room in their ring: not those of refused doorbells (R331, R338). -/
def waitingCmds (q : Queue) : List (List Byte) := q.waiting.filter (fun e => leAt e 10 1 != stOverflow)

/-- Commands of a Tiller that have run and whose completion is not written yet (R332, R338). -/
def unwritten (m : Mach) (t : Nat) : Nat :=
  (m.fab.queues.map (fun q => ((waitingCmds q.2).filter (fun e => leAt e 23 1 == t)).length)).sum

/-- BE and all commands in flight of a Tiller, to the writing of their completion (R332). -/
def beInflight (m : Mach) (t : Nat) : Nat := (m.fab.inflight.filter (fun c => c.tiller == t && !c.lc)).length + unwritten m t
def allInflight (m : Mach) (t : Nat) : Nat := (m.fab.inflight.filter (fun c => c.tiller == t)).length + unwritten m t

/-- Write the entries that waited for room (R338): their commands leave the Tiller that each names (R332, R432). -/
def flushWaiting (m : Mach) (r : Nat) : Mach :=
  forEach (m.fab.queues.filter (fun x => r == x.1 / 4096 * 256 + x.2.cr && !x.2.waiting.isEmpty)) m (fun m x =>
    forEach x.2.waiting m (fun m e =>
      if (ringOf m r).enable && !ringFull (ringOf m r) && !m.ctl.d3hot then
        let m := if leAt e 10 1 = stOverflow then m else setTil m (leAt e 23 1) (fun t => { t with lastCmd := some m.time.now })
        ringPut (setQue m x.1 (fun q => { q with waiting := q.waiting.drop 1 })) r e
      else m))

/-- STATUS: the highest applicable code (R336). -/
def finalStatus (c : Cmd) : Nat :=
  if c.status ≥ 0x10 then c.status
  else if c.rechecked then stRecomputed
  else if c.killed then stKilledRerun else c.status

/-- Counters of a completion by its status. -/
def noteStatus (m : Mach) (c : Cmd) (s : Nat) : Mach :=
  let t := c.tiller
  let m := inc m F.TIL_CMD_CNT_COMPLETED t
  if s = stBadDesc then raiseCtx (inc m F.TIL_ERR_CNT_BAD_DESC t) F.TIL_EVENT_BAD_DESC t c.ctx
  else if s = stHandle then inc m F.TIL_GRN_CNT_HANDLE_INVALID t
  else if s = stDim then inc m F.TIL_HUSK_LAST_COUNT t
  else if s = stFailed then inc m F.GEN_CHECK_CNT2_FAILED 0
  else m

/-- Report a command once (R336, R361) and end its flight (R332). -/
def reportCmd (m : Mach) (c : Cmd) : Mach :=
  let s := finalStatus c
  let tick := if c.lc then c.tick else if c.phase = .done then c.doneTick else m.ctl.tickCount
  let m := if c.silent then m
    else putEntry (noteStatus m c s) c.queue (entryBytes c.queue c.seq (dTag c.desc) s c.engine tick.toNat c.kills c.tiller)
  setTil (setFab m (fun b => { b with inflight := b.inflight.filter (fun x => !(x.queue == c.queue && x.seq == c.seq)) })) c.tiller
    (fun t => { t with lastCmd := some m.time.now })

/-- An ordered queue: LC, or BE with ORDERED (R336). -/
def isOrdered (m : Mach) (q : Nat) : Bool := (queOf m q).lc || (queOf m q).ordered

/-- Committed commands of a queue that every remote write has answered. -/
def reportable (m : Mach) (q : Nat) : List Cmd :=
  let cs := m.fab.inflight.filter (fun c => c.queue == q && c.committed)
  if isOrdered m q then
    let held := cs.filter (fun c => c.writesOut != 0)
    seqSort (cs.filter (fun c => c.writesOut == 0 && held.all (fun h => seqBefore c.seq h.seq)))
  else cs.filter (fun c => c.writesOut == 0)

/-- Write the completions that may be written. -/
def flushReports (m : Mach) (q : Nat) : Mach := forEach (reportable m q) m reportCmd

/-- Writes cut at lines. -/
def cutWrites (base : Nat) (outs : List (Nat × List Byte)) : List (Nat × Nat × List Byte) :=
  outs.flatMap (fun w => cutLines (w.2.length + 1) (base + w.1) w.2)

/-- Publish staged lines in one space of one Tiller (R276), through the staging lines taken for them. -/
def publishSpace (m : Mach) (t : Nat) (hbm : Bool) (taken : List (Nat × Nat × Nat)) (ws : List (Nat × Nat × List Byte)) : Mach :=
  let step := fun (s : Store) (l : Nat) =>
    match taken.find? (fun x => x.1 == b2n hbm && x.2.1 == l) with
    | none => s
    | some x => publishLine hbm s l x.2.2 ((ws.filter (fun w => w.1 == l)).map (fun w => w.2))
  let s0 := if hbm then m.fab.hbm else (tilOf m t).granary
  let s := ((ws.map (fun w => w.1)).dedup).foldl step s0
  if hbm then setFab m (fun b => { b with hbm := s }) else setTil m t (fun x => { x with granary := s })

/-- Did a handle that the command names change its generation since it was latched (R273)? -/
def genChanged (m : Mach) (c : Cmd) : Bool := c.gens.any (fun g => (cmdBin m c g.1).gen != g.2 || !(cmdBin m c g.1).valid)

/-- BARRIER or COMMIT with ACC_IN: BIN_ACC has no version (R260). -/
def noVersion (m : Mach) (k : Cmd) : Bool := dAccIn k.desc && (accView m k (dBinAcc k.desc)).2.1 == 0

/-- Commit a group up to and with the COMMIT `k` (R261, R276, R277): generations compared, staging and accumulator versions
published, arithmetic counters counted, remote writes queued by `send`. A re-run for bad activations has been counted and sent before (R261,
R357). -/
def commitGroup (m : Mach) (k : Cmd) (send : Mach → Cmd → Mach) : Mach :=
  let st := if noVersion m k then stBadDesc else stOk
  let taken := (earlier m k).flatMap (fun x => x.taken)
  let stale := (earlier m k).filter (fun c => decide (c.status < 0x10) && genChanged m c)
  let m := forEach stale m (fun m c => finish m c stHandle)
  let good := (earlier m k).filter (fun c => decide (c.status < 0x10))
  let ordered := seqSort good
  let writes := fun (sp : Nat) => ordered.flatMap (fun c =>
    let b := cmdBin m c c.dst
    if c.dst != noBin && b.space = sp then cutWrites (b.base * 1024) c.out else [])
  let m1 := publishSpace m k.tiller false taken (writes 0)
  let m1 := publishSpace m1 k.tiller true taken (writes 1)
  let m1 := forEach ordered m1 (fun m c => match c.accOut with
    | some (h, kd, r) => setBin m c.tiller c.ctx h (fun b => { b with cur := !b.cur, kind := kd, redLen := r })
    | none => m)
  let m1 := forEach (ordered.filter (fun c => !c.silent)) m1 (fun m c =>
    let m := if c.sat > 0 then raiseCtx m F.TIL_EVENT_SAT c.tiller c.ctx else m
    let m := if c.nanInt > 0 then raiseCtx m F.TIL_EVENT_NAN_INT c.tiller c.ctx else m
    if confPresent m then m
    else
      let m := incBy (incBy m F.TIL_ARITH_CNT_SAT c.tiller c.sat) F.TIL_ARITH_CNT_NAN_INT c.tiller c.nanInt
      setTil m c.tiller (fun t => { t with winMacs := t.winMacs + c.macs }))
  let done := earlier m1 k
  let m2 := forEach done m1 (fun m c => setCmd m c.queue c.seq (fun c => { c with committed := true }))
  let m3 := finish m2 k st
  let m4 := setCmd m3 k.queue k.seq (fun c => { c with committed := true })
  let peers := ordered.filter (fun c => !c.silent && c.dst != noBin && (cmdBin m1 c c.dst).space = 2)
  let m5 := forEach peers m4 send
  let m6 := forEach done m5 (fun m c => setCmd m c.queue c.seq (fun c => { c with out := [], taken := [] }))
  flushReports m6 k.queue

end Sys2Proof.Machine
end

