-- ==== Sys2Proof/Machine/Programs.lean ====
section
/-!
DEFINITION. Machine/Programs.lean: Dorelo programs (R307 to R319, R466): the static schedule, the load checks of R318, and the
worst-case figures of R316.
-/

namespace Sys2Proof.Machine

/-- Steps of a logical Tiller (R310). -/
def stepsOf (p : Program) (lt : Nat) : List SchedStep := p.sched.getD lt []

/-- Do two logical Tillers belong to one replica set (R319)? A set is named by the logical Tiller that its members repeat. -/
def setOf (p : Program) (lt : Nat) : Nat :=
  match (stepsOf p lt).find? (fun s => s.replicaOf != 255) with
  | some s => s.replicaOf
  | none => lt

/-- Members of a logical Tiller's replica set, ascending (R319). -/
def members (p : Program) (lt : Nat) : List Nat := (List.range p.logical).filter (fun k => setOf p k == setOf p lt)

/-- The steps that a logical Tiller runs: a replica runs the steps of the one it repeats (R319). -/
def runSteps (p : Program) (lt : Nat) : List SchedStep := stepsOf p (setOf p lt)

/-- Length of the program's section of a TYPE (R307): to the next entry's OFFSET, the last one's to LENGTH; 0 without one. -/
def sectLen (p : Program) (type : Nat) : Nat :=
  match (p.sects.zip ((p.sects.drop 1).map (fun x => x.2) ++ [p.length])).find? (fun x => x.1.1 == type) with
  | some x => x.2 - x.1.2
  | none => 0

/-- OFFSETs ascend from the end of the header on and stay within LENGTH (R307; assumption 5). -/
def offsetsOk (p : Program) : Bool :=
  let os := 255 :: p.sects.map (fun x => x.2)
  (os.zip (os.drop 1)).all (fun x => decide (x.1 < x.2)) && os.all (fun o => decide (o < p.length))

/-- The section lengths (R308 to R310, R466): SCHEDULE's is 16 + 16 × the sum of its counts, QUEUES' a multiple of 8. -/
def lengthsOk (p : Program) : Bool :=
  sectLen p 1 == 16 + 16 * (p.sched.map (fun ss => ss.length)).sum && sectLen p 2 == 64 * p.cmds.length
    && sectLen p 3 == 16 * p.bins.length && sectLen p 4 == p.weights.length && sectLen p 5 == 8 * p.queues.length

/-- Is a batch assigned to a logical Tiller (R319, R323)? -/
def assignedTo (p : Program) (lt : Nat) (b : Batch) : Bool :=
  let ms := members p lt
  match b.moved with
  | some k => if ms.contains k then k == lt else ms.getD (b.no % ms.length) lt == lt
  | none => ms.getD (b.no % ms.length) lt == lt

/-- A tensor's elements per ROI: the channels padded to a multiple of 4 (R227, R316). -/
def roiElems (p : Program) : Nat := p.hIn * p.wIn * (cdiv p.channels 4 * 4)

/-- Bytes of an element of the ROI tensor (R200): INT8, BS8, BF16. -/
def roiFmt (p : Program) : Nat := if p.outType = 1 then 3 else if p.outType = 2 then 6 else 0

/-- Lines of a port in one swath, S × m (R10; MULT of INT_PORT_CFG). -/
def swathLines (m : Mach) (c : CamPort) : Nat := m.cfg.machine.s * 2 ^ c.mult / 4

/-- Worst case of the Prepare stage, ns (R316), with these tick programs. -/
def prepareNs (m : Mach) (ps : List Program) : Nat :=
  let samples := ((m.cfg.camera.ports.filter (fun c => c.mode == .camera)).map
    (fun c => swathLines m c * (c.pixels * c.bands + 96))).sum
  let crop := (ps.map (fun p => p.roiMax * roiElems p)).sum
  cdiv (samples * giga) (48 * giga) + cdiv (crop * giga) (4 * giga) + 8000

/-- Judge worst case that one logical Tiller adds, ns (R316). -/
def ltNs (m : Mach) (p : Program) (lt : Nat) : Nat := wcNs m p (((runSteps p lt).map (fun s => s.wcCycles)).sum)

/-- The Bin table entry that a declaration stands for, for checks made before placement (R309). -/
def declBin (p : Program) (lt h : Nat) : Bin :=
  match p.bins.find? (fun b => b.ltiller == lt && b.handle == h) with
  | some b => { valid := true, space := b.space, narrow := b.narrow, acc := b.acc, size := b.sizeKib, stride := b.stride }
  | none => {}

/-- Descriptors of a step. -/
def stepDescs (p : Program) (s : SchedStep) : List (BitVec 512) := (p.cmds.drop s.first).take s.count

/-- REASON 1 for a BINS entry (R272, R309). -/
def binDeclOk (p : Program) (b : BinDecl) : Bool :=
  decide (b.ltiller < p.logical) && decide (b.handle < 64) && decide (b.space ≤ 2) && b.reservedZero && b.stride % 4 == 0
    && decide (b.stride < 2 ^ 24) && decide (b.sizeKib < 2 ^ 26) && (!b.acc || b.sizeKib % 2 == 0)
    && (b.space == 0 || !b.narrow)
    && (if b.perBatch then within 1 b.rotate 64 && b.sizeKib % b.rotate == 0 else b.rotate == 0)
    && (!b.input || (b.perBatch && b.rotate == 2))
    && (p.bins.filter (fun x => x.ltiller == b.ltiller && x.handle == b.handle)).length == 1

/-- REASON 1 for a QUEUES entry (R466). -/
def queDeclOk (p : Program) (q : QueDecl) : Bool :=
  decide (q.queue < 256) && q.cls == b2n p.tick && decide (q.ltiller < p.logical) && within 4 q.log2Size 16
    && decide (q.cr < 256) && decide (q.flags.toNat ≤ 1) && (!p.tick || q.flags == 0) && q.reservedZero
    && (p.queues.filter (fun x => x.queue == q.queue)).length == 1

/-- Steps whose predecessors and waits are all done, in rounds: every WAIT names an earlier step (R318). -/
def orderSteps (p : Program) : Nat → List (Nat × Nat) → List (Nat × Nat)
  | 0, done => done
  | n + 1, done =>
    let more := (List.range p.logical).flatMap (fun lt => ((runSteps p lt).zipIdx.filter (fun s =>
      !done.contains (lt, s.2) && (s.2 == 0 || done.contains (lt, s.2 - 1))
        && (s.1.waitT == 255 || done.contains (s.1.waitT, s.1.waitS)))).map (fun s => (lt, s.2)))
    orderSteps p n (done ++ more)

/-- REASON 1 for the schedule (R310). -/
def schedOk (p : Program) : Bool :=
  let all := (List.range p.logical).flatMap (fun lt => (runSteps p lt).zipIdx.map (fun s => (lt, s.2)))
  p.sched.length == p.logical && p.sched.all (fun ss => ss.all (fun s =>
    decide (s.first + s.count ≤ p.cmds.length)
      && (match (stepDescs p s).getLast? with
          | some d => dOp d == 0x0B
          | none => false)
      && (s.replicaOf == 255 || decide (s.replicaOf < p.logical))
      && (s.peerWait == 255 || p.peer.any (fun w => w.window == s.peerWait))))
    && all.all (fun s => (orderSteps p all.length []).contains s)

/-- REASON 1: header and sections obey R307 to R310 and R313 (R318). -/
def formatOk (p : Program) : Bool :=
  let types := p.sects.map (fun x => x.1)
  let need := [1, 2, 3] ++ (if p.tick then [7] else []) ++ (if p.split then [6] else [])
  p.magic == 0x4F4C5244 && p.format == 1 && p.reservedZero && within 3 types.length 7 && types.dedup.length == types.length
    && types.all (fun t => within 1 t 7) && need.all (fun t => types.contains t)
    && offsetsOk p && lengthsOk p && within 1 p.logical 8 && (if p.split then within 1 p.modules 8 else p.modules == 1)
    && decide (p.moduleIndex < p.modules) && decide (p.ejectModule < p.modules)
    && (if p.tick then
          within 1 p.hIn 65535 && within 1 p.wIn 65535 && within 1 p.channels 255 && decide (p.outType ≤ 2) && decide (p.resize ≤ 1)
            && within 1 p.packW 4 && decide (p.gap ≤ 63) && within 1 p.batch 64 && p.batch % p.packW == 0 && within 1 p.roiMax 4096
            && p.decide.isSome
        else [p.hIn, p.wIn, p.channels, p.outType, p.resize, p.packW, p.gap, p.batch, p.roiMax].all (· == 0))
    && p.bins.all (binDeclOk p) && p.queues.all (queDeclOk p) && schedOk p
    && (match p.decide with
        | none => true
        | some t => within 1 t.nclass 65535 && decide (t.noclass ≤ 3) && t.chaffAct.length == 128
            && t.chaffAct.all (fun a => decide (a ≤ 3) || a == 255) && t.classAct.length == t.nclass
            && t.classAct.all (fun a => decide (a ≤ 3)))

/-- A commit group obeys R259: none writes a handle that an earlier one reads; no two write overlapping bytes. -/
def groupOk (p : Program) (lt : Nat) : List (BitVec 512) → List Nat → List (Nat × Nat × Nat) → List Nat → Bool
  | [], _, _, _ => true
  | d :: ds, reads, writes, accs =>
    if dOp d = 0x0B then groupOk p lt ds [] [] []
    else
      let bin := declBin p lt
      let up := (accs.filter (· == dBinAcc d)).length % 2 == 1
      let ws := mayWrite bin (if up then 0 else halfOfs (bin (dBinAcc d)) true) d
      let clash := ws.any (fun w => writes.any (fun x => x.1 == w.1 && decide (x.2.1 < w.2.1 + w.2.2) && decide (w.2.1 < x.2.1 + x.2.2)))
      (dWrites d).all (fun h => !reads.contains h) && !clash
        && groupOk p lt ds (reads ++ dReads d) (writes ++ ws) (if dOut d = 7 && usesAcc d then dBinAcc d :: accs else accs)

/-- Sparse metadata of a descriptor whose weights have initial contents (R252). -/
def sparseOk (p : Program) (lt : Nat) (d : BitVec 512) : Bool :=
  if !((dOp d == 1 || dOp d == 2) && dSparse d) then true
  else match p.bins.find? (fun b => b.ltiller == lt && b.handle == dBinB d) with
    | none => true
    | some b =>
      if b.init = 0xFFFFFFFF then true
      else
        let rdr := fun (o : Nat) => (p.weights.getD (b.init + o) 0).toNat
        if dOp d = 1 then
          let w := convWin d
          !sparseBad rdr (dFmtB d) w.ofsB (w.co * w.kh * w.kw * (cdiv (w.ci / w.groups) 4 * 4))
        else !sparseBad rdr (dFmtB d) (dBytes d 28 4) (dBytes d 18 2 * (cdiv (dBytes d 20 4) 4 * 4))

/-- How many columns of the packed input one column of a tensor stands for, as a fraction. -/
structure ColScale where
  num : Nat := 1
  den : Nat := 1
  deriving DecidableEq, Repr, Inhabited

/-- The scale of an operator's result: a stride widens a column, RESIZE turns W_in columns into W_out (R315). -/
def outScale (d : BitVec 512) (k : ColScale) : ColScale :=
  match dOp d with
  | 0x01 => { k with num := k.num * (convWin d).sw }
  | 0x03 => { k with num := k.num * (poolWin d).sw }
  | 0x09 => { num := k.num * dBytes d 18 2, den := k.den * dBytes d 22 2 }
  | _ => k

/-- The reach of a window operator, DW × (KW − 1) columns of its input (R315); 0 for the other operators. -/
def reachOf (d : BitVec 512) : Nat :=
  match dOp d with
  | 0x01 => (convWin d).dw * ((convWin d).kw - 1)
  | 0x03 => (poolWin d).kw - 1
  | _ => 0

/-- Horizontal reach on packed tensors (R315): the scale of a tensor's columns is carried from handle to handle, through every
tensor operand (A; B of ELTW; running sums) and into the result or the running sums (assumption 79). -/
def reachOk (p : Program) : List (BitVec 512) → List (Nat × ColScale) → Bool
  | [], _ => true
  | d :: ds, scale =>
    let ins := [dBinA d] ++ (if dOp d = 0x04 then [dBinB d] else []) ++ if dAccIn d then [dBinAcc d] else []
    let dst := if dOut d = 7 && usesAcc d then dBinAcc d else dBinD d
    let ks := ins.filterMap (fun h => if h = noBin then none else (scale.find? (fun x => x.1 == h)).map (fun x => x.2))
    ks.all (fun k => decide (reachOf d * k.num ≤ p.gap * k.den)) &&
      match ks with
      | [] => reachOk p ds scale
      | k :: ks =>
        let k := ks.foldl (fun a b => if a.num * b.den < b.num * a.den then b else a) k
        reachOk p ds ((dst, outScale d k) :: scale)

/-- REASON 4 (R318). -/
def descsOk (p : Program) : Bool :=
  p.cmds.all fieldsOk && (List.range p.logical).all (fun lt =>
    let ds := (runSteps p lt).flatMap (stepDescs p)
    let ins := (p.bins.filter (fun b => b.ltiller == lt && b.input)).map (fun b => (b.handle, {}))
    ds.all (sparseOk p lt) && groupOk p lt ds [] [] [] && (decide (p.packW ≤ 1) || reachOk p ds ins))

/-- REASON 5 (R318). -/
def binsOk (p : Program) : Bool :=
  (List.range p.logical).all (fun lt => ((runSteps p lt).flatMap (stepDescs p)).all (fun d =>
    (dHandles d).all (fun h => (declBin p lt h).valid)))
    && p.bins.all (fun b => b.init == 0xFFFFFFFF || decide (b.init + b.sizeKib * 1024 ≤ p.weights.length))

/-- The active parameter set's word (R201). -/
def ispWord (m : Mach) (a : Nat) : Word := tget 0 (if m.isp.active1 then m.isp.set1 else m.isp.set0) a

/-- CTRL of a port's area. -/
def ispCtrl (m : Mach) (port : Nat) : Nat := (ispWord m (port * 0x40000)).toNat

/-- CHANNELS of a port (R201). -/
def portChannels (m : Mach) (port : Nat) : Nat := bits (ispCtrl m port) 12 3

/-- Ports of a map port's group that contribute to its ROIs, ascending (R225). -/
def groupPorts (m : Mach) (port : Nat) : List Nat :=
  (List.range 16).filter (fun q => (camOf m q).mode == .camera &&
    (q == port || ((camOf m port).group != 0 && (camOf m q).group == (camOf m port).group)))

/-- REASON 6 (R318): channels and element format agree with every port whose CONTEXT names the context (R200, R225). -/
def inputOk (m : Mach) (c : Nat) (p : Program) : Bool :=
  !p.tick || (List.range 16).all (fun port =>
    let cp := camOf m port
    !(cp.mode == .camera && cp.context == c) ||
      (((groupPorts m port).map (portChannels m)).sum == p.channels
        && (groupPorts m port).all (fun q => bits (ispCtrl m q) 10 2 == p.outType)))

/-- Tick programs placed. -/
def placedTicks (m : Mach) (but : Nat) : List (Nat × Program) :=
  (m.fab.ctxs.filter (fun c => c.1 != but && !c.2.map.isEmpty)).filterMap (fun c => match c.2.program with
    | some p => if p.tick then some (c.1, p) else none
    | none => none)

/-- The camera ports. -/
def camPorts (m : Mach) : List Nat := (List.range 16).filter (fun p => (camOf m p).mode == .camera)

/-- Bytes of a port in the two parameter sets and the temporal state (R204). -/
def setBytes (c : CamPort) : Nat := 2 * (16384 + 4 * c.pixels * c.bands) + 2 * c.pixels * c.bands

/-- ROI_BYTES of a program (R227): its tensor, padded to a multiple of 64. -/
def roiBytesOf (p : Program) : Nat :=
  let n := roiElems p
  let raw := if p.outType = 0 then n else if p.outType = 2 then 2 * n else cdiv n 32 * 33
  cdiv raw 64 * 64

/-- The staging total (R204, R229). -/
def stagingBytes (m : Mach) (ps : List Program) : Nat :=
  ((camPorts m).map (fun p => setBytes (camOf m p))).sum + m.cfg.machine.steerKib * 1024
    + 2 * (ps.map (fun p => p.roiMax * roiBytesOf p)).sum + 1048576

/-- The staging of Intake holds this program beside those that are placed (R19, R229). A host's program that breaks it is refused
with REASON 7 (DESIGN CHOICE: R19 names no code; assumption 109). -/
def stagingHolds (m : Mach) (c : Nat) (p : Program) : Bool :=
  decide (stagingBytes m (p :: (placedTicks m c).map (fun x => x.2)) ≤ 50331648)

/-- REASON 7 (R316, R318): the Prepare stage, and each logical Tiller by itself on an empty Tiller; the staging of R19. -/
def fitOk (m : Mach) (c : Nat) (p : Program) : Bool :=
  !p.tick || (decide (prepareNs m (p :: (placedTicks m c).map (fun x => x.2)) ≤ tMinNs m)
    && (List.range p.logical).all (fun lt => decide (ltNs m p lt + 2000 + 6000 ≤ tMinNs m)) && stagingHolds m c p)

/-- REASON 9 (R318, R324, R366). -/
def splitOk (m : Mach) (conf : Bool) (p : Program) : Bool :=
  !p.split || (!conf && p.peer.all (fun w => (camOf m w.port).mode == .peer)
    && (List.range 16).all (fun port =>
      let sent := ((p.peer.filter (fun w => w.port == port && w.owner != p.moduleIndex)).map (fun w => w.perTick)).sum
      decide (sent * 8 * 100 ≤ 9 * 1937 * tMinNs m)))

/-- Arithmetic library version of the running Stem firmware (R232, R467). -/
def libVer (m : Mach) : Nat := m.cfg.stem.libVer

end Sys2Proof.Machine
end

