-- ==== Sys2Proof/Machine/Sower.lean ====
section
/-!
DEFINITION. Machine/Sower.lean: placement (R320 to R322): which physical Tiller each logical Tiller goes to, its bins bound by
first fit, placement records, and the prepared placements.
-/

namespace Sys2Proof.Machine

/-- The order in which the Sower tries physical Tillers (R320). -/
def tillerOrder : List Nat := [0, 4, 1, 5, 2, 6, 3, 7]

/-- What one logical Tiller needs (R320); `once`: lines that its context takes once on a Tiller (R275). -/
structure Need where
  ns      : Nat := 0
  lines   : Nat := 0
  once    : Nat := 0
  pages   : Nat := 0
  handles : Nat := 0
  deriving DecidableEq, Repr, Inhabited

/-- What a physical Tiller carries while a placement is computed: Judge load, lines, handles by context. -/
structure Load where
  ns      : Nat := 0
  lines   : Nat := 0
  handles : List (Nat × Nat) := []
  deriving DecidableEq, Repr, Inhabited

/-- Lines of a size in KiB. -/
def kibLines (k : Nat) : Nat := cdiv k 4

/-- The bins of a logical Tiller in one space. -/
def declsOf (p : Program) (lt sp : Nat) : List BinDecl := p.bins.filter (fun b => b.ltiller == lt && b.space == sp)

/-- Does a logical Tiller have HBM destinations, so that it has a pool of pages (R275)? -/
def usesHbm (p : Program) (lt : Nat) : Bool := !(declsOf p lt 1).isEmpty

/-- The needs of a logical Tiller of a program. -/
def needOf (m : Mach) (p : Program) (lt : Nat) : Need :=
  { ns := if p.tick then ltNs m p lt else 0
    lines := ((declsOf p lt 0).map (fun b => kibLines b.sizeKib)).sum + p.stageLines
    pages := ((declsOf p lt 1).map (fun b => kibLines b.sizeKib)).sum + if usesHbm p lt then p.stageLines else 0
    handles := (p.bins.filter (fun b => b.ltiller == lt)).length }

/-- The needs of a context's logical Tillers, and whether they are a tick program's (R320, R341). -/
def needsOf (m : Mach) (c : Ctx) : List Need × Bool :=
  match c.program with
  | some p => ((List.range p.logical).map (needOf m p), p.tick)
  | none => (List.replicate c.logical { once := 256 }, false)

/-- Lines that a logical Tiller adds to a Tiller: those a context takes once only where it is not there yet (R275). -/
def addsLines (ld : Load) (c : Nat) (n : Need) : Nat := n.lines + if ld.handles.any (fun h => h.1 == c) then 0 else n.once

/-- Does a logical Tiller fit (R320)? The Judge limit is T_min − 6 µs, 2 µs of it for pre-emption (R316). -/
def fitsOn (m : Mach) (ld : Load) (c : Nat) (tick : Bool) (n : Need) : Bool :=
  (!tick || decide (ld.ns + n.ns + 2000 + 6000 ≤ tMinNs m)) && decide (ld.lines + addsLines ld c n ≤ granaryLines)
    && decide (((ld.handles.filter (fun h => h.1 == c)).map (fun h => h.2)).sum + n.handles ≤ 64)

/-- Place one logical Tiller: first a Tiller without another of its context, then any (R320). -/
def placeOne (m : Mach) (up : List Nat) (loads : List (Nat × Load)) (c : Nat) (tick : Bool) (mine : List Nat) (n : Need) :
    Option Nat :=
  let ok := fun (t : Nat) => up.contains t && (match loads.find? (fun x => x.1 == t) with
    | some x => fitsOn m x.2 c tick n
    | none => false)
  match tillerOrder.find? (fun t => ok t && !mine.contains t) with
  | some t => some t
  | none => tillerOrder.find? ok

/-- Add a logical Tiller's needs to a Tiller. -/
def addLoad (loads : List (Nat × Load)) (t c : Nat) (n : Need) : List (Nat × Load) :=
  loads.map (fun x => if x.1 = t
    then (t, { ns := x.2.ns + n.ns, lines := x.2.lines + addsLines x.2 c n, handles := (c, n.handles) :: x.2.handles }) else x)

/-- Place a context's logical Tillers, in ascending order: its map, or none when one fits nowhere (R320). -/
def placeCtx (m : Mach) (up : List Nat) (c : Nat) (tick : Bool) :
    List Need → List Nat → List (Nat × Load) → Option (List Nat × List (Nat × Load))
  | [], mine, loads => some (mine, loads)
  | n :: ns, mine, loads =>
    match placeOne m up loads c tick mine n with
    | none => none
    | some t => placeCtx m up c tick ns (mine ++ [t]) (addLoad loads t c n)

/-- Empty loads of all Tillers. -/
def noLoads : List (Nat × Load) := (List.range 8).map (fun t => (t, {}))

/-- Contexts that want placing, in the Sower's order: tick programs first, descending PRIORITY, ascending number (R320). -/
def placeOrder (m : Mach) : List (Nat × Ctx) :=
  let want := m.fab.ctxs.filter (fun c => c.1 != 0 && (c.2.st == .admitted || c.2.st == .loaded || c.2.st == .sealed)
    && (c.2.program.isSome || decide (c.2.logical > 0)))
  let key := fun (c : Nat × Ctx) => match c.2.program with
    | some p => (b2n (!p.tick), 65535 - p.priority, c.1)
    | none => (1, 65535, c.1)
  let le := fun (a b : Nat × Nat × Nat) =>
    decide (a.1 < b.1) || (a.1 == b.1 && (decide (a.2.1 < b.2.1) || (a.2.1 == b.2.1 && decide (a.2.2 ≤ b.2.2))))
  isort (fun a b => le (key a) (key b)) want

/-- The whole placement on a set of Tillers (R320): context and map, an empty map for one that does not fit. -/
def placeAll (m : Mach) (up : List Nat) : List (Nat × List Nat) :=
  ((placeOrder m).foldl (fun (a : List (Nat × List Nat) × List (Nat × Load)) c =>
    let n := needsOf m c.2
    match placeCtx m up c.1 n.2 n.1 [] a.2 with
    | some (mp, loads) => (a.1 ++ [(c.1, mp)], loads)
    | none => (a.1 ++ [(c.1, [])], a.2)) ([], noLoads)).1

/-- The placement that is coming for a context (R322): its map there; none: it stays. -/
def comingMap (m : Mach) (c : Nat) : Option (List Nat) :=
  match m.fab.pend with
  | some p => (p.maps.find? (fun x => x.1 == c)).map (fun x => x.2)
  | none => none

/-- Loads of the contexts that are placed, where they are and where a re-placement takes them, but one (R322, R341: a placement never moves a
placed context). -/
def presentLoads (m : Mach) (but : Nat) : List (Nat × Load) :=
  (m.fab.ctxs.filter (fun c => c.1 != but)).foldl (fun loads c =>
    (needsOf m c.2).1.zipIdx.foldl (fun loads x =>
      (c.2.map[x.2]?.toList ++ ((comingMap m c.1).bind (fun mp => mp[x.2]?)).toList).dedup.foldl (fun loads t => addLoad loads t c.1 x.1) loads)
      loads) noLoads

/-- Tillers in service: neither fused off nor quarantined nor in reset (R320). -/
def inService (m : Mach) : List Nat := (List.range 8).filter (tilUp m)

/-- A list of lines as runs: first line, lines. -/
def lineRuns : List Nat → List (Nat × Nat)
  | [] => []
  | l :: ls => match lineRuns ls with
    | [] => [(l, 1)]
    | (a, n) :: rs => if a = l + 1 then (l, n + 1) :: rs else (l, 1) :: (a, n) :: rs

/-- Regions taken on a Tiller's Granary, or in HBM: first line, lines. -/
def takenLines (m : Mach) (t : Option Nat) : List (Nat × Nat) :=
  let bins := m.fab.ctxs.flatMap (fun c => (c.2.bins.filter (fun b => match t with
    | some t => b.space == 0 && b.tiller == t
    | none => b.space == 1)).map (fun b => (b.base / 4, kibLines b.size)))
  let pools := match t with
    | some t => (tilOf m t).pools.flatMap (fun p => lineRuns p.2)
    | none => m.fab.hbmPools.flatMap (fun p => lineRuns p.2)
  (bins ++ pools).filter (fun r => r.2 != 0)

/-- First fit from the lowest free line upward (R320). -/
def firstFit (taken : List (Nat × Nat)) (limit n : Nat) : Option Nat :=
  let starts := isort (fun a b => decide (a ≤ b)) (0 :: taken.map (fun r => r.1 + r.2))
  starts.find? (fun s => decide (s + n ≤ limit) && taken.all (fun r => decide (r.1 + r.2 ≤ s) || decide (s + n ≤ r.1)))

/-- The lowest free lines, where no region of them all is free. `taken` rises. -/
def gapLines : List (Nat × Nat) → Nat → Nat → Nat → List Nat
  | [], at_, top, n => (List.range (min n (top - at_))).map (· + at_)
  | r :: rs, at_, top, n =>
    let k := min n (r.1 - at_)
    (List.range k).map (· + at_) ++ gapLines rs (max at_ (r.1 + r.2)) top (n - k)

/-- Lines for a staging pool (R275): a region by first fit, else the lowest free ones (assumption 117). -/
def newLines (taken : List (Nat × Nat)) (top n : Nat) : List Nat :=
  match firstFit taken top n with
  | some s => (List.range n).map (· + s)
  | none => gapLines (isort (fun a b => decide (a.1 ≤ b.1)) taken) 0 top n

/-- A free handle of a context on a Tiller: the logical one if it is free, else the lowest (assumption 23). -/
def freeHandle (m : Mach) (t c h : Nat) : Nat :=
  let used := ((ctxOf m c).bins.filter (fun b => b.tiller == t)).map (fun b => b.phys)
  if used.contains h then ((List.range 64).find? (fun k => !used.contains k)).getD h else h

/-- The grant that a context holds for a PEER bin of a logical handle: port, window index, generation (R326). -/
def heldGrant (m : Mach) (c h : Nat) (p : Program) : Option (Nat × Nat × Nat) :=
  match p.peer.find? (fun w => w.handle == h && w.owner != p.moduleIndex) with
  | none => none
  | some w => ((ctxOf m c).grants.find? (fun g => g.1 == w.window)).map (fun g => (w.port, g.2.1, g.2.2.1))

/-- Bind one declared bin of a logical Tiller on a Tiller (R267, R272, R273, R309): its lines tagged, its entry written with
the next generation, its initial contents copied. A PEER bin is bound once, by the grant of its window: here, where it is held (R326). -/
def bindBin (m : Mach) (c lt t : Nat) (p : Program) (d : BinDecl) : Mach :=
  let hbm := d.space == 1
  let n := kibLines d.sizeKib
  let taken := takenLines m (if hbm then none else some t)
  let at_ := if d.space = 2 then some 0 else firstFit taken (if hbm then hbmPages else granaryLines) n
  match at_ with
  | none => m
  | some l =>
    let h := freeHandle m t c d.handle
    let lines := (List.range n).map (· + l)
    let init := if d.init = 0xFFFFFFFF then [] else slice p.weights d.init (d.sizeKib * 1024)
    let put := fun (s : Store) => initBytes hbm (bindLines s c lines) (l * lineBytes) init
    let m := if d.space = 0 then setTil m t (fun x => { x with granary := put x.granary })
      else if hbm then setFab m (fun b => { b with hbm := put b.hbm }) else m
    let g := if d.space = 2 then heldGrant m c d.handle p else some (0, 0, 0)
    let m := setBin m t c h (fun b => { b with
      valid := g.isSome, space := d.space, narrow := d.narrow, acc := d.acc, cur := false, kind := 0, redLen := 0
      owner := c, gen := if g.isSome then b.gen + 1 else b.gen, base := l * 4, size := d.sizeKib, stride := d.stride
      winPort := (g.getD (0, 0, 0)).1, window := (g.getD (0, 0, 0)).2.1, winGen := (g.getD (0, 0, 0)).2.2 })
    setCtx m c (fun x => { x with
      bins := x.bins ++ [{ ltiller := lt, handle := d.handle, phys := h, tiller := t, base := l * 4, size := d.sizeKib
                           stride := d.stride, space := d.space }] })

/-- Lines, and HBM pages, of a context's staging pool on a Tiller (R275): STAGE_LINES for each of its logical Tillers there; without a
program, 256 once, and as many pages where it has HBM bins. -/
def poolSize (m : Mach) (c t : Nat) : Nat × Nat :=
  let x := ctxOf m c
  let lts := (x.workMap.zipIdx.filter (fun y => y.1 == t)).map (fun y => y.2)
  match x.program with
  | some p => (p.stageLines * lts.length, p.stageLines * (lts.filter (usesHbm p)).length)
  | none => (if lts.isEmpty then 0 else 256, if x.bins.any (fun b => b.tiller == t && b.space == 1) then 256 else 0)

/-- What a pool keeps when it is to have `n` lines: those that are taken stay, all of them, until their group has ended (R258, R276). -/
def keepLines (m : Mach) (t c sp n : Nat) : List Nat :=
  let old := poolOf m t c sp
  if old.length ≤ n then old
  else
    let used := old.filter ((usedStage m t c sp).contains ·)
    (used ++ old.filter (!used.contains ·)).take (max n used.length)

/-- Bring a context's staging pool on a Tiller to its size (R275): surplus lines are let go, new ones are tagged. -/
def sizePool (m : Mach) (c t : Nat) : Mach :=
  let size := poolSize m c t
  let old := keepLines m t c 0 size.1
  let new := newLines (takenLines m (some t)) granaryLines (size.1 - old.length)
  let oldP := keepLines m t c 1 size.2
  let newP := newLines (takenLines m none) hbmPages (size.2 - oldP.length)
  let m := setTil m t (fun x => { x with pools := tset [] x.pools c (old ++ new), granary := bindLines x.granary c new })
  setFab m (fun b => { b with hbmPools := tset [] b.hbmPools (t * 16 + c) (oldP ++ newP), hbm := bindLines b.hbm c newP })

/-- Pools that hold more than their size, because groups had lines of them, let the surplus go. -/
def trimPools (m : Mach) (c t : Nat) : Mach :=
  let size := poolSize m c t
  if (poolOf m t c 0).length > size.1 || (poolOf m t c 1).length > size.2 then sizePool m c t else m

/-- A fetch or a placement wakes a gated Tiller (R432). -/
def wakeTiller (m : Mach) (t : Nat) : Mach :=
  if (tilOf m t).st = .gated then notePower m (setTil m t (fun x => { x with st := .idle })) else m

/-- Bind logical Tillers of a context on the Tillers of its map: their bins in BINS order, the staging pools after the bins (R320). -/
def bindLts (m : Mach) (c : Nat) (lts : List Nat) : Mach :=
  let mp := (ctxOf m c).workMap
  let m := forEach lts m (fun m l => wakeTiller m (mp.getD l 0))
  let m := match (ctxOf m c).program with
    | some p => forEach (p.bins.filter (fun b => lts.contains b.ltiller && decide (b.ltiller < mp.length))) m (fun m d =>
        bindBin m c d.ltiller (mp.getD d.ltiller 0) p d)
    | none => m
  forEach (List.range 8) m (fun m t => sizePool m c t)

/-- Release a logical Tiller's bins and its Tiller's pool share (R269, R320). -/
def releaseLt (m : Mach) (c lt : Nat) : Mach :=
  let x := ctxOf m c
  let mine := x.bins.filter (fun b => b.ltiller == lt)
  let m := forEach mine m (fun m b => setBin m b.tiller c b.phys (fun e => { e with valid := false }))
  setCtx m c (fun x => { x with bins := x.bins.filter (fun b => b.ltiller != lt) })

/-- Release a context's pool on a Tiller. -/
def releasePool (m : Mach) (c t : Nat) : Mach :=
  let m := setTil m t (fun x => { x with pools := tset [] x.pools c [] })
  setFab m (fun b => { b with hbmPools := tset [] b.hbmPools (t * 16 + c) [] })

/-- Release everything a context holds on the Tillers. -/
def releaseCtx (m : Mach) (c : Nat) : Mach :=
  let lts := ((ctxOf m c).bins.map (fun b => b.ltiller)).dedup
  let m := forEach lts m (fun m lt => releaseLt m c lt)
  let m := forEach (List.range 8) m (fun m t => releasePool m c t)
  let m := setFab m (fun b => { b with
    home := b.home.map (fun h => (h.1, h.2.filter (fun x => x.1 != c)))
    pend := b.pend.map (fun p => { p with maps := p.maps.filter (fun x => x.1 != c) }) })
  setCtx m c (fun x => { x with map := [], workMap := [] })

/-- Handles of a descriptor bound to the Bin table (R320; assumption 23). -/
def mapHandle (m : Mach) (c lt h : Nat) : Nat :=
  if h = noBin then noBin
  else match (ctxOf m c).bins.find? (fun b => b.ltiller == lt && b.handle == h) with
    | some b => b.phys
    | none => h

/-- Replace a byte of a descriptor. -/
def setDByte (d : BitVec 512) (at_ v : Nat) : BitVec 512 :=
  (d &&& ~~~ (BitVec.ofNat 512 0xFF <<< (8 * at_))) ||| (BitVec.ofNat 512 (v % 256) <<< (8 * at_))

/-- A descriptor with the handles of its logical Tiller's binding. -/
def mapDesc (m : Mach) (c lt : Nat) (d : BitVec 512) : BitVec 512 :=
  [8, 9, 10, 11, 12].foldl (fun x o => setDByte x o (mapHandle m c lt (dBytes d o 1))) d

/-- The offset fields of an opcode, with the handle byte that each goes with (R255 to R257, R281, R291, R300, R304). -/
def offsetFields (op : Nat) : List (Nat × Nat) :=
  match op with
  | 0x01 => [(8, 40), (9, 44), (10, 48), (11, 52), (12, 56)]
  | 0x02 => [(8, 24), (9, 28), (10, 32), (11, 36), (12, 40)]
  | 0x03 => [(8, 36), (10, 40)]
  | 0x04 => [(8, 32), (9, 36), (10, 40), (11, 44)]
  | 0x05 => [(8, 24), (10, 28)]
  | 0x06 => [(8, 16), (10, 20)]
  | 0x07 => [(8, 24), (10, 28)]
  | 0x08 => [(8, 24), (10, 28)]
  | 0x09 => [(8, 28), (10, 32)]
  | _ => []

/-- Replace a 32-bit field of a descriptor. -/
def setDWord (d : BitVec 512) (at_ v : Nat) : BitVec 512 :=
  [0, 1, 2, 3].foldl (fun x i => setDByte x (at_ + i) (v / 256 ^ i)) d

/-- A descriptor of repetition r: offsets that go with a PER_BATCH handle moved on (R311). -/
def rotateDesc (p : Program) (lt r : Nat) (d : BitVec 512) : BitVec 512 :=
  (offsetFields (dOp d)).foldl (fun x f =>
    match p.bins.find? (fun b => b.ltiller == lt && b.handle == dBytes d f.1 1) with
    | some b => if b.perBatch then setDWord x f.2 (dBytes x f.2 4 + r % (max 1 b.rotate) * (b.sizeKib * 1024 / max 1 b.rotate)) else x
    | none => x) d

/-- Batches of a logical Tiller in Judge, in the order of its repetitions: its own, then those moved to it, in the order of the moves
(R319, R323). -/
def ltBatches (m : Mach) (c : Nat) (p : Program) (lt : Nat) : List Batch :=
  let bs := m.fab.batches.filter (fun b => b.context == c && assignedTo p lt b)
  bs.filter (fun b => b.moved.isNone) ++ isort (fun a b => decide (a.moveNo ≤ b.moveNo)) (bs.filter (fun b => b.moved.isSome))

/-- The key under which a step of a batch is counted. -/
def stepKey (lt s : Nat) (st : SchedStep) (b : Nat) : Nat × Nat × Nat := (lt, s, if st.perBatch then b else 0)

/-- Latch the generations of every handle that a command names (R273). -/
def latchGens (m : Mach) (c : Cmd) : List (Nat × BitVec 16) :=
  (dHandles c.desc).map (fun h => (h, (cmdBin m c h).gen))

/-- A command in flight on the Tiller where its logical Tiller is now (R273, R333): its handles bound there, their generations latched. -/
def relatch (m : Mach) (c : Cmd) : Cmd :=
  match (ctxOf m c.ctx).workMap[c.lt]? with
  | none => c
  | some t =>
    let c' := { c with tiller := t, desc := mapDesc m c.ctx c.lt c.raw, runs := if c.tiller = t then c.runs else 0 }
    { c' with gens := latchGens m c' }

/-- R20 after a re-placement: what a Tiller has in flight beyond its limit leaves flight again, the last of each queue first, and follows
before anything else of its queue is fetched (assumption 118). -/
def parkOver (m : Mach) (t : Nat) : Mach :=
  (List.range 1024).foldl (fun m _ =>
    if beInflight m t ≤ 768 && allInflight m t ≤ 1024 then m
    else match m.fab.inflight.find? (fun c => c.tiller == t && !c.lc && !c.committed
        && (queueCmds m c.queue).all (fun x => !seqBefore c.seq x.seq)) with
      | none => m
      | some c => setCtx (setFab m (fun b => { b with inflight := b.inflight.filter (fun x => !(x.queue == c.queue && x.seq == c.seq)) })) c.ctx
          (fun x => { x with carry := x.carry ++ [c] })) m

/-- BE commands that await flight again. -/
def parked (x : Ctx) : List Cmd := x.carry.filter (fun c => !c.lc)

/-- Judge worst case by physical Tiller, ns: all placed tick programs, 2 µs for pre-emption (R316, R321). -/
def judgeWc (m : Mach) (t : Nat) : Nat :=
  let n := ((placedTicks m 16).map (fun x => (((ctxOf m x.1).map.zipIdx.filter (fun y => y.1 == t)).map
    (fun y => ltNs m x.2 y.2)).sum)).sum
  if n = 0 then 0 else n + 2000

/-- Physical Tillers that a context uses. -/
def ctxTillers (c : Ctx) : List Nat := c.map.dedup

/-- A placed split program holds a grant for every window that it writes (R326). -/
def splitReady (c : Ctx) : Bool :=
  match c.program with
  | some p => p.split && (p.peer.filter (fun w => w.owner != p.moduleIndex)).all (fun w => c.grants.any (fun g => g.1 == w.window))
  | none => false

/-- A placed split program that is not split-ready: its objects take the default decision with DEADLINE_MISSED (R326). Whether the other
parts are ready shows here only by their data (assumption 111). -/
def splitWaits (c : Ctx) : Bool :=
  match c.program with
  | some p => p.split && c.progState == 1 && !splitReady c
  | none => false

/-- Load balancing is on (R323). -/
def dlbOn (c : Ctx) : Bool :=
  match c.program with
  | some p => p.dlbAllowed && !p.exact
  | none => false

/-- A Tiller is quarantined or fused off. -/
def tilLost (m : Mach) (t : Nat) : Bool := (tilOf m t).quar || (tilOf m t).st == .fusedOff

/-- The placement record of a context (R321). -/
def placeRecord (m : Mach) (c : Nat) : List Byte :=
  let x := ctxOf m c
  let placed := !x.map.isEmpty
  let fl := ofBits [m.ctl.st == .degraded || (List.range 8).any (fun t => (tilOf m t).st == .quarantined), x.folded, ctxExact m c,
    dlbOn x, (match x.program with
      | some p => p.split
      | none => false), splitReady x]
  let wins := x.winOpen.map (fun w => (w.1, w.2))
  leBytes 4 (rd m F.GEN_PLACE_SEQ_SEQ 0) ++ leBytes 1 c ++ leBytes 1 (if placed then 1 else 2) ++ leBytes 1 fl ++ leBytes 1 x.logical
    ++ (List.range 8).flatMap (fun l => leBytes 1 (x.map.getD l 0xFF))
    ++ (match x.program with
      | some p => digestBytes p.hash
      | none => leBytes 48 0)
    ++ leBytes 4 m.fab.prepNs ++ leBytes 4 20000 ++ (List.range 8).flatMap (fun t => leBytes 4 (tget 0 m.fab.judgeNs t))
    ++ leBytes 4 (tMinNs m - 6000) ++ leBytes 2 x.bins.length ++ leBytes 2 wins.length ++ leBytes 16 0
    ++ x.bins.flatMap (fun b =>
      let e := binOf m b.tiller c b.phys
      leBytes 1 b.ltiller ++ leBytes 1 b.handle ++ leBytes 1 b.tiller ++ leBytes 1 0
        ++ (if e.space = 2 then leBytes 2 (e.window + 4096 * e.winPort) ++ leBytes 2 e.winGen else leBytes 4 e.base)
        ++ leBytes 4 e.size ++ leBytes 4 e.stride)
    ++ wins.flatMap (fun w =>
      let e := winOf m w.2
      leBytes 1 w.1 ++ leBytes 1 e.port ++ leBytes 2 w.2 ++ leBytes 2 e.gen.toNat ++ leBytes 2 0 ++ leBytes 4 e.sizeKib ++ leBytes 4 0)

/-- A placement has come into force: GEN_PLACE_SEQ, the worst-case figures, the records, the prepared placements (R316,
R321, R322). -/
def placementDone (m : Mach) : Mach :=
  let m := wr m F.GEN_PLACE_SEQ_SEQ 0 ((rd m F.GEN_PLACE_SEQ_SEQ 0 + 1) % 2 ^ 32)
  let ticks := placedTicks m 16
  let m := setFab m (fun b => { b with
    judgeNs := (List.range 8).foldl (fun t k => tset 0 t k (judgeWc m k)) []
    prepNs := if ticks.isEmpty && m.cfg.camera.ports.isEmpty then 0 else prepareNs m (ticks.map (fun x => x.2))
    prepared := (inService m).foldl (fun t k => tset [] t k (placeAll m ((inService m).filter (· != k)))) [] })
  let cs := (m.fab.ctxs.filter (fun c => c.1 != 0 && (c.2.program.isSome || decide (c.2.logical > 0)))).map (fun c => c.1)
  forEach cs m (fun m c => setFab m (fun b => { b with records := tset [] b.records c (placeRecord m c) }))

/-- The state of a context's program after a placement (GEN_PROG_STATUS). -/
def setMap (m : Mach) (c : Nat) (mp : List Nat) : Mach :=
  setCtx m c (fun x => { x with
    map := mp, workMap := mp, folded := mp.dedup.length != mp.length
    progState := if x.program.isSome then (if mp.isEmpty then 2 else 1) else x.progState })

/-- Place one context beside those that are placed (R320, R341): none when it fits nowhere. -/
def placeNew (m : Mach) (c : Nat) : Option (List Nat) :=
  let n := needsOf m (ctxOf m c)
  (placeCtx m (inService m) c n.2 n.1 [] (presentLoads m c)).map (fun x => x.1)

/-- Bind a context on its new map, all its logical Tillers. -/
def bindCtx (m : Mach) (c : Nat) (mp : List Nat) : Mach := bindLts (setMap m c mp) c (List.range mp.length)

/-- The first load check of R318 that fails; 0 none. -/
def loadReason (m : Mach) (c : Nat) (conf : Bool) (p : Program) : Nat :=
  if !formatOk p then 1
  else if !p.hashOk then 2
  else if !(decide (p.libMin ≤ libVer m) && (p.ar == 0 || p.ar == m.fuses.ar)) then 3
  else if !descsOk p then 4
  else if !binsOk p then 5
  else if !inputOk m c p then 6
  else if !fitOk m c p then 7
  else if (placeNew (setCtx m c (fun x => { x with program := some p, logical := p.logical })) c).isNone then 8
  else if !splitOk m conf p then 9
  else 0

/-- Take a batch out of Judge with a status for its objects (R322, R353, R359). -/
def abandonBatch (m : Mach) (c no status : Nat) : Mach :=
  let hit := fun (b : Batch) => b.context == c && b.no == no && b.abandoned == 0
  setFab m (fun f => { f with
    batches := f.batches.map (fun b => if hit b then { b with abandoned := status } else b)
    judgeObjs := f.judgeObjs.map (fun o => if o.context = c && o.batch = no && o.status = 0 then { o with status := status } else o) })

/-- Discard uncommitted commands (R261, R273, R355). Begun ones are killed; one that has ended in decode, or with 0x10 or above, stays as
it is (R262, R285). BE commands run again; LC commands are issued again, their SEQ given back, their kills carried on. -/
def dropCmds (m : Mach) (gone : Cmd → Bool) : Mach :=
  let holds := fun (c : Cmd) => gone c && !c.committed && (c.phase != .done || (decide (c.status < 0x10) && c.status != stEmpty))
  let begun := fun (c : Cmd) => c.phase == .running || c.phase == .held || c.phase == .done
  let m := forEach (m.fab.inflight.filter (fun c => holds c && begun c)) m (fun m c =>
    setCmd (noteKill (if c.phase = .done then m else stopRun m c) c) c.queue c.seq (fun x => { x with kills := x.kills + 1 }))
  let again := fun (c : Cmd) => { c with
    phase := .fetched, status := 0, killed := true, out := [], dst := noBin, accOut := none, taken := [], heldAt := none, badLine := none }
  let lc := m.fab.inflight.filter (fun c => gone c && !c.committed && c.lc)
  let m := setFab m (fun b => { b with inflight := b.inflight.map (fun c => if holds c && !c.lc then again c else c) })
  let m := forEach (lc.filter (fun c => !c.silent)) m (fun m c =>
    let m := setCtx m c.ctx (fun x => { x with carry := x.carry ++ [again c] })
    setQue m c.queue (fun q => if q.era = c.seq / 2 ^ 32 ∧ (q.ci - BitVec.ofNat 32 c.seq).toNat < 2 ^ 31
      then { q with ci := BitVec.ofNat 32 c.seq, pi := BitVec.ofNat 32 c.seq } else q))
  setFab m (fun b => { b with inflight := b.inflight.filter (fun c => !(gone c && !c.committed && c.lc)) })

/-- Discard the uncommitted work that loses its Tiller (R261, R273, R355): `gone` says which commands, `lts` which logical Tillers of a
context. A batch that is not finished there starts again from its first step, and is copied again (R312). -/
def dropWork (m : Mach) (gone : Cmd → Bool) (lts : Nat → List Nat) : Mach :=
  let m := setFab (dropCmds m gone) (fun b => { b with
    batches := b.batches.map (fun x => { x with copied := x.copied.filter (fun l => !(lts x.context).contains l) }) })
  forEach (m.fab.ctxs.map (fun c => c.1)) m (fun m c =>
    setCtx m c (fun x =>
      let complete := fun (b : Nat) => match x.program with
        | some p => (lts c).all (fun lt => (runSteps p lt).zipIdx.all (fun s => x.stepsDone.contains (lt, s.2, if s.1.perBatch then b else 0)))
        | none => true
      let drop := fun (s : Nat × Nat × Nat) => (lts c).contains s.1 && !complete s.2.2
      { x with
        stepsIssued := x.stepsIssued.filter (fun s => !drop s), stepsDone := x.stepsDone.filter (fun s => !drop s)
        stepSeqs := x.stepSeqs.filter (fun s => !drop s.1) }))

/-- The logical Tillers of a context whose work is on a Tiller. -/
def ltsOn (m : Mach) (t c : Nat) : List Nat := ((ctxOf m c).workMap.zipIdx.filter (fun y => y.1 == t)).map (fun y => y.2)

/-- The placement that stands, or the one that is coming (R322). -/
def presentMaps (m : Mach) : List (Nat × List Nat) :=
  match m.fab.pend with
  | some p => p.maps
  | none => (placeOrder m).map (fun c => (c.1, c.2.map))

/-- Begin a re-placement (R322). -/
def beginReplace (m : Mach) (maps : List (Nat × List Nat)) (ret : Bool) (gone : List Nat) : Mach :=
  let before := match m.fab.pend with
    | some p => if p.loaded then [] else p.gone
    | none => []
  setFab m (fun b => { b with pend := some { maps := maps, ret := ret, gone := gone ++ before } })

/-- A Tiller leaves service (R322, R355): its work is discarded, and the placement prepared for its loss is due; where another is
pending, one computed on demand. -/
def loseTiller (m : Mach) (t : Nat) (st' : TilState) : Mach :=
  let home := (inService m, presentMaps m)
  let m := dropWork m (fun c => c.tiller == t) (ltsOn m t)
  let m := setTil m t (fun x => { x with st := st', grid := none, flail := none, chute := none })
  let m := setFab m (fun b => { b with home := home :: b.home.filter (fun h => h.1 != home.1) })
  let prep := tget [] m.fab.prepared t
  beginReplace m (if m.fab.pend.isNone && !prep.isEmpty then prep else placeAll m (inService m)) false [t]

/-- A saved placement with the contexts that stand now (R322): they go back to it; those placed since go beside them, in the Sower's
order (assumption 110). -/
def restoreMaps (m : Mach) (old : List (Nat × List Nat)) : List (Nat × List Nat) :=
  let cs := placeOrder m
  let kept := cs.filter (fun c => old.any (fun o => o.1 == c.1))
  let mapOf := fun (c : Nat) => ((old.find? (fun o => o.1 == c)).map (fun o => o.2)).getD []
  let loads := kept.foldl (fun ls c => ((needsOf m c.2).1.zip (mapOf c.1)).foldl (fun ls x => addLoad ls x.2 c.1 x.1) ls) noLoads
  let rest := (cs.filter (fun c => !old.any (fun o => o.1 == c.1))).foldl (fun (a : List (Nat × List Nat) × List (Nat × Load)) c =>
    match placeCtx m (inService m) c.1 (needsOf m c.2).2 (needsOf m c.2).1 [] a.2 with
    | some (mp, ls) => (a.1 ++ [(c.1, mp)], ls)
    | none => (a.1 ++ [(c.1, [])], a.2)) ([], loads)
  kept.map (fun c => (c.1, mapOf c.1)) ++ rest.1

/-- A Tiller returns to service (R322): the placement computed before its loss is due, at a tick boundary. -/
def returnTiller (m : Mach) : Mach :=
  let up := inService m
  let maps := match m.fab.home.find? (fun h => h.1 == up) with
    | some h => restoreMaps m h.2
    | none => placeAll m up
  let ret := match m.fab.pend with
    | some p => p.ret || p.loaded
    | none => true
  beginReplace (setFab m (fun b => { b with home := b.home.filter (fun h => h.1 != up) })) maps ret []

/-- Logical Tillers of a context that a new map moves, or whose Tiller has gone since. -/
def movedLts (old new gone : List Nat) : List Nat :=
  (List.range (max old.length new.length)).filter (fun l => old[l]? != new[l]? || gone.contains (old.getD l 255))

/-- Move work to a new placement (R273, R322 step 2): the commands of the logical Tillers that move are killed, their bins and surplus
staging are let go, their bins are bound and loaded on their new Tillers, and commands in flight follow and latch again. -/
def moveWork (m : Mach) (maps : List (Nat × List Nat)) (gone : List Nat) : Mach :=
  let plan := maps.map (fun x => (x.1, x.2, movedLts (ctxOf m x.1).workMap x.2 gone))
  let ltsOf := fun (c : Nat) => ((plan.find? (fun x => x.1 == c)).map (fun x => x.2.2)).getD []
  let m := dropWork m (fun c => (ltsOf c.ctx).contains c.lt) ltsOf
  let m := forEach plan m (fun m x =>
    let m := forEach x.2.2 m (fun m l => releaseLt m x.1 l)
    let m := forEach gone m (fun m t => releasePool m x.1 t)
    let m := setCtx m x.1 (fun c => { c with workMap := x.2.1 })
    forEach (List.range 8) m (fun m t => trimPools m x.1 t))
  let m := forEach plan m (fun m x => bindLts m x.1 x.2.2)
  let m := setFab m (fun b => { b with inflight := b.inflight.map (fun c =>
    if c.committed ∨ (c.phase = .done ∧ c.status ≥ 0x10) ∨ !(ltsOf c.ctx).contains c.lt then c else relatch m c) })
  forEach (List.range 8) m parkOver

/-- A re-placement must load bins of a context whose image can be read nowhere, neither in the module region nor in the running slot
(R357). `lost`: such contexts. -/
def imageLost (m : Mach) (p : PendPlace) (lost : BitVec 16) (x : Nat × List Nat) : Bool :=
  decide (x.1 < 16) && lost.getLsbD x.1 && (ctxOf m x.1).program.isSome && !x.2.isEmpty
    && !(movedLts (ctxOf m x.1).workMap x.2 p.gone).isEmpty

/-- A context whose image is lost becomes unplaced (R322), with COPY_LOST (R357). -/
def loseImages (m : Mach) (lost : BitVec 16) : Mach :=
  match m.fab.pend with
  | none => m
  | some p =>
    let m' := forEach (p.maps.filter (imageLost m p lost)) m (fun m x => raiseAs m F.GEN_CHECK_EVENT_COPY_LOST 0 0xFF x.1)
    setFab m' (fun b => { b with pend := some { p with maps := p.maps.map (fun x => if imageLost m p lost x then (x.1, []) else x) } })

/-- The loads of a re-placement are complete (R322 step 2): after a loss, work goes to the new Tillers at once; after a return, at the
tick boundary, with the bins as they are then (assumption 110). -/
def loadMoved (m : Mach) : Mach :=
  match m.fab.pend with
  | none => m
  | some p =>
    let m := if p.ret then m else moveWork m p.maps p.gone
    setFab m (fun b => { b with pend := some { p with loaded := true, tick := m.ctl.tickCount } })

end Sys2Proof.Machine
end

