-- ==== Sys2Proof/Machine/Link.lean ====
section
/-!
DEFINITION. Machine/Link.lean: the Sheaf link layer (R145 to R164): sequencing, replay, credits, remote writes, the window
table, grants (R325, R326), the power-state handshake.
-/

namespace Sys2Proof.Machine

/-- Flits that the replay buffer holds (R149). -/
def replayMax : Nat := 2048

/-- Does the flit TYPE form class W, class R (R153)? -/
def classW (type : Nat) : Bool := type == 4 || type == 5
def classR (type : Nat) : Bool := type == 6

/-- Credit held: 2,048 of class W and 256 of class R at the start, and what has come back since, less what was sent (R153). -/
def creditW (s : SheafPort) : Nat := (2048 + s.credW.toNat + 4096 - s.usedW.toNat) % 4096
def creditR (s : SheafPort) : Nat := (256 + s.credR.toNat + 4096 - s.usedR.toNat) % 4096

/-- May the port send sequenced flits (R149, R152, R162, R163)? -/
def linkOpen (s : SheafPort) : Bool :=
  s.phy == .l0 && !s.awaitAck && s.lpAcked.isNone && !s.scrubIdle && decide (s.replay.length < replayMax)

/-- Send a sequenced flit: numbered, kept, its credit spent (R149, R153). -/
def sendSeq (m : Mach) (p : Nat) (f : BitVec 256) : Mach :=
  let s := portOf m p
  let type := flitType f
  let g := mkFlit type s.txSeq.toNat (flitPayload f)
  emitFlit (setPort m p (fun s => { s with
    txSeq := s.txSeq + 1
    replay := s.replay ++ [g]
    resends := s.resends ++ [0]
    usedW := if classW type then s.usedW + 1 else s.usedW
    usedR := if classR type then s.usedR + 1 else s.usedR })) p g

/-- Does the port hold a credit for a flit of the TYPE (R153)? -/
def hasCredit (s : SheafPort) (type : Nat) : Bool :=
  if classW type then decide (creditW s > 0) else if classR type then decide (creditR s > 0) else true

/-- Send the waiting flits that may go, each class in its order (R149, R152, R153, R156). -/
def pumpFlits : List (BitVec 256) → Mach → Nat → Mach
  | [], m, _ => m
  | f :: fs, m, p =>
    let s := portOf m p
    let type := flitType f
    let behind := s.waiting.any (fun g => classW (flitType g) == classW type)
    let m := if linkOpen s && hasCredit s type && !behind then sendSeq m p f
      else setPort m p (fun s => { s with waiting := s.waiting ++ [f] })
    pumpFlits fs m p

/-- The flits of a remote write (R156): a header and its data. -/
def writeFlits (w : OutWrite) : List (BitVec 256) :=
  mkFlit 4 0 (leBytes 2 w.window ++ leBytes 2 w.gen ++ leBytes 4 w.offset ++ leBytes 2 w.data.length ++ leBytes 2 w.tag)
    :: (List.range (cdiv w.data.length 28)).map (fun k => mkFlit 5 0 (slice w.data (28 * k) 28))

/-- Start one remote write that waits, when its header may leave now (R153, R156, R159). -/
def startWrite (m : Mach) (p : Nat) (w : OutWrite) : Mach :=
  let s := portOf m p
  if w.sent || w.held != 0 || !(linkOpen s && decide (creditW s > 0) && !s.waiting.any (fun g => classW (flitType g))
      && decide ((s.outWrites.filter (fun x => x.sent)).length < 1024)) then m
  else
    let m := setPort m p (fun s => { s with outWrites := s.outWrites.map (fun x => if x.tag = w.tag then { x with sent := true } else x) })
    pumpFlits (writeFlits w) m p

/-- Send what may be sent. -/
def pump (m : Mach) (p : Nat) : Mach :=
  let fs := (portOf m p).waiting
  let m := pumpFlits fs (setPort m p (fun s => { s with waiting := [] })) p
  forEach (portOf m p).outWrites m (fun m w => startWrite m p w)

/-- A flit that has been produced: sent, or kept for when it may be (R152). -/
def produce (m : Mach) (p : Nat) (f : BitVec 256) : Mach := pumpFlits [f] m p

/-- Queue a remote write of at most 4,096 bytes (R156). -/
def queueWrite (m : Mach) (p window gen offset : Nat) (data : List Byte) (q seq : Nat) (tick : Option (BitVec 48)) : Mach :=
  let w : OutWrite := { tag := (portOf m p).nextTag.toNat, window := window, gen := gen, offset := offset, data := data
                        queue := q, seq := seq, tick := tick }
  setPort m p (fun s => { s with outWrites := s.outWrites ++ [w], nextTag := s.nextTag + 1 })

/-- Bytes cut into writes of at most 4,096. -/
def cutChunks (fuel ofs : Nat) (bs : List Byte) : List (Nat × List Byte) :=
  match fuel with
  | 0 => []
  | fuel + 1 => if bs.isEmpty then [] else (ofs, bs.take 4096) :: cutChunks fuel (ofs + 4096) (bs.drop 4096)

/-- The grant held for the logical window of a PEER handle, and the size of a half, KiB (R325, R326). -/
def grantOf (m : Mach) (c h : Nat) : Option (Nat × Nat) :=
  match (ctxOf m c).program with
  | none => none
  | some p => match p.peer.find? (fun d => d.handle == h && d.owner != p.moduleIndex) with
    | none => none
    | some d => ((ctxOf m c).grants.find? (fun g => g.1 == d.window)).map (fun g => (d.halfKib, g.2.2.2))

/-- The logical handle under which a Bin table handle was declared. -/
def logicalHandle (m : Mach) (c t h : Nat) : Nat :=
  (((ctxOf m c).bins.find? (fun b => b.tiller == t && b.phys == h)).map (fun b => b.handle)).getD h

/-- A command's remote writes (R277), to the half that the owner consumes in its own tick of the data (R325, R326). -/
def sendWrites (m : Mach) (c : Cmd) : Mach :=
  let b := cmdBin m c c.dst
  let base := match grantOf m c.ctx (logicalHandle m c.ctx c.tiller c.dst) with
    | some (half, delta) => (m.ctl.tickCount.toNat + delta) % 2 * (half * 1024)
    | none => 0
  let ws := c.out.flatMap (fun w => cutChunks (w.2.length / 4096 + 1) (base + w.1) w.2)
  let m := setCmd m c.queue c.seq (fun x => { x with writesOut := ws.length })
  let m := forEach ws m (fun m w => queueWrite m b.winPort b.window b.winGen w.1 w.2 c.queue c.seq (if c.lc then some c.tick else none))
  pump m b.winPort

/-- Is the tick of a write's data still running (R327)? Swath k is in Judge while the counter reads k + 2. -/
def tickRuns (m : Mach) (w : OutWrite) : Bool := w.tick == some (m.ctl.tickCount - 2)

/-- The grant now held for the window that a write of ours went to, where it is a newer one: its index and generation (R326, R327). -/
def newerGrant (m : Mach) (p : Nat) (w : OutWrite) : Option (Nat × Nat) :=
  match cmdOf m w.queue w.seq with
  | none => none
  | some k => match (ctxOf m k.ctx).program with
    | none => none
    | some q => match heldGrant m k.ctx (logicalHandle m k.ctx k.tiller k.dst) q with
      | none => none
      | some g => if g.1 = p ∧ (g.2.1 ≠ w.window ∨ g.2.2 ≠ w.gen) then some g.2 else none

/-- A remote write of ours ends with a status (R158, R159, R277): 0 for one that landed. The first refusal decides. A refused
write of a tick still running is sent again once: at once where the new grant has come already, else when it comes (R327). -/
def endWrite (m : Mach) (p : Nat) (w : OutWrite) (status : Nat) : Mach :=
  if status ≠ 0 ∧ !w.again ∧ w.held = 0 ∧ tickRuns m w then
    let w' := match newerGrant m p w with
      | some g => { w with sent := false, window := g.1, gen := g.2, again := true }
      | none => { w with sent := false, held := status }
    setPort m p (fun s => { s with outWrites := s.outWrites ++ [w'] })
  else
  let m := setCmd m w.queue w.seq (fun c => { c with
    writesOut := c.writesOut - 1, status := if status ≠ 0 ∧ c.status < 0x10 then status else c.status })
  flushReports m w.queue

/-- Clear the link state of a port (R152): each write without a WR_RSP completes with WINDOW_CLOSED (R159). -/
def clearLink (m : Mach) (p : Nat) : Mach :=
  let old := portOf m p
  let m := setPort m p (fun s => { ({} : SheafPort) with
    phy := s.phy, saved := s.saved, fast := s.fast, backoff := s.backoff, dark := s.dark, frameOk := s.frameOk, eqHere := s.eqHere
    eqThere := s.eqThere, tapReq := s.tapReq, wake := s.wake, checkers := s.checkers, lpWait := s.lpWait, scrubIdle := s.scrubIdle, nextTag := s.nextTag, fresh := true })
  let m := raise m F.SHF_LNK_EVENT_LINK_DOWN p
  forEach old.outWrites m (fun m w => endWrite m p w stWinClosed)

/-- Resend every flit not acknowledged (R150), and start anew at the first ACK_SEQ after L0 (R152); not while a scrub holds the port
(R163). -/
def resendAll (m : Mach) (p : Nat) : Mach :=
  let fs := (portOf m p).replay
  if fs.isEmpty || (portOf m p).scrubIdle then m
  else
    let m := setPort (raiseCount m F.SHF_LNK_EVENT_REPLAY F.SHF_LNK_CNT0_REPLAYS p) p (fun s => { s with resends := s.resends.map (· + 1) })
    forEach fs m (fun m f => emitFlit m p f)

/-- The link layer asks for a retraining and retrains (R151). -/
def requestRetrain (m : Mach) (p : Nat) : Mach :=
  retrain137 (raise (sendLctl m p 2 0) F.SHF_LNK_EVENT_RETRAIN_REQ p) p .clock

/-- A replay is due (R150): a flit's fourth resend having gone unanswered, a retraining instead (R151). -/
def replayDue (m : Mach) (p : Nat) : Mach :=
  let s := portOf m p
  if s.replay.isEmpty then m
  else if s.resends.any (fun n => decide (n ≥ 4)) then requestRetrain (setPort m p (fun s => { s with resends := s.resends.map (fun _ => 0) })) p
  else resendAll m p

/-- A low-power request of the partner's is acknowledged once our replay buffer is empty (R162); else what may be sent is sent. -/
def answerPeer (m : Mach) (p : Nat) : Mach :=
  let s := portOf m p
  match s.lpPeer with
  | some r =>
    if s.replay.isEmpty && s.phy == .l0 && !s.scrubIdle then
      let both := if s.lpOut == some .deep then LpReq.deep else r
      sendLctl (setPort m p (fun s => { s with lpPeer := none, lpAcked := some both })) p 0 3
    else pump m p
  | none => pump m p

/-- An ACK_SEQ has come (R149): the flits up to it leave the replay buffer; the first after L0 starts the resending (R152). -/
def takeAck (m : Mach) (p : Nat) (ack : BitVec 12) : Mach :=
  let s := portOf m p
  let oldest := s.txSeq - BitVec.ofNat 12 s.replay.length
  let n := (ack + 1 - oldest).toNat
  let m := if 0 < n ∧ n ≤ s.replay.length then
      setPort m p (fun s => { s with replay := s.replay.drop n, resends := s.resends.drop n }) else m
  answerPeer (if (portOf m p).awaitAck then resendAll (setPort m p (fun s => { s with awaitAck := false })) p else m) p

/-- The tick of their data has ended: writes still held for a grant end with their refusal (R327). -/
def endHeld (m : Mach) : Mach :=
  forEach m.sheaf m (fun m x => forEach x.2.outWrites m (fun m w =>
    if w.held != 0 && !tickRuns m w then
      endWrite (setPort m x.1 (fun s => { s with outWrites := s.outWrites.filter (fun y => !(y.tag == w.tag && y.held != 0)) })) x.1 w w.held
    else m))

/-- A flit whose CRC fails (R150, R151): counted; 64 within 10 µs ask for a retraining. -/
def badCrc (m : Mach) (p : Nat) : Mach :=
  let m := raiseCount m F.SHF_LNK_EVENT_CRC_ERR F.SHF_LNK_CNT0_CRC_ERR p
  let now := m.time.now
  let ts := (now :: (portOf m p).crcTimes).filter (fun t => lessSince now t 10001)
  if ts.length ≥ 64 ∧ (portOf m p).phy = .l0 then requestRetrain (setPort m p (fun s => { s with crcTimes := [] })) p
  else setPort m p (fun s => { s with crcTimes := ts })

/-- A flit type that the port's mode does not allow to arrive (R147). -/
def typeRefused (m : Mach) (p type : Nat) : Bool :=
  match type, cameraPort m p with
  | 0, _ => false
  | 1, _ => false
  | 3, true => false
  | 4, false => false
  | 5, false => false
  | 6, false => false
  | _, _ => true

/-- The module is entering DORMANT: the ports' requests are not refused (R139). -/
def dormantDue (m : Mach) : Bool :=
  match m.ctl.powerReq with
  | some (.dormant _) => true
  | _ => false

/-- PM of an LCTL (R140, R148, R162). A scrub of the port puts the answer off to its end (R163). LP_REFUSED is set at the end whose request
is refused, not at the one that refuses (assumption 116). -/
def takePm (m : Mach) (p pm : Nat) : Mach :=
  let s := portOf m p
  let refuse := cameraPort m p && ticking m
  let request := fun (r : LpReq) =>
    if s.scrubIdle then setPort m p (fun s => { s with lpPeer := some r })
    else if refuse then sendLctl m p 0 4
    else
      -- both ends asking at once: the deeper state (R140)
      let r := if s.lpOut == some .deep then LpReq.deep else r
      if s.replay.isEmpty then sendLctl (setPort m p (fun s => { s with lpAcked := some r })) p 0 3
      else setPort m p (fun s => { s with lpPeer := some r })
  match pm with
  | 1 => request .quiet
  | 2 => request .deep
  | 3 => if s.lpAcked.isSome then m else setPort m p (fun s => { s with lpAcked := s.lpOut })
  | 4 => if s.lpOut.isSome && !dormantDue m then raise (setPort m p (fun s => { s with lpOut := none })) F.SHF_PHY_EVENT_LP_REFUSED p else m
  | _ => m

/-- Does the port hold any link state that FRESH would clear (R152)? Writes that only wait to be sent are none. -/
def holdsLink (s : SheafPort) : Bool :=
  s.txSeq != 0 || s.rxAck != 0xFFF || !s.replay.isEmpty || s.outWrites.any (fun w => w.sent) || s.usedW != 0 || s.usedR != 0
    || s.credW != 0 || s.credR != 0 || s.freedW != 0 || s.freedR != 0 || s.rxHdr.isSome || !s.rxWrites.isEmpty || !s.rxRsps.isEmpty

/-- An LCTL (R148): FRESH, credits, ACK_SEQ, NAK, RETRAIN_REQ, PM. -/
def takeLctl (m : Mach) (p : Nat) (f : BitVec 256) : Mach :=
  let b := flitPayload f
  let fl := leAt b 0 1
  let m := if bitOf fl 2 && holdsLink (portOf m p) then
      setPort (clearLink m p) p (fun s => { s with awaitAck := true, fresh := false }) else m
  let m := setPort m p (fun s => { s with credW := BitVec.ofNat 12 (leAt b 2 2), credR := BitVec.ofNat 12 (leAt b 4 2) })
  let first := (portOf m p).awaitAck
  let m := takeAck m p (flitLow f)
  let m := if bitOf fl 0 && !first then replayDue m p else m
  if bitOf fl 1 && (portOf m p).phy == .l0 then retrain137 m p .clock else takePm m p (leAt b 1 1)

/-- Checks 1 to 4 of a WR_HDR, when it arrives (R157, R161): RESULT, and whether it is a late write: of another generation, or to a window
that is closed again. -/
def checkHdr (m : Mach) (p window gen ofs len : Nat) : Nat × Bool :=
  let w := winOf m window
  let r := if !w.isOpen then 1 else if w.gen.toNat ≠ gen then 1 else if w.port ≠ p then 2
    else if ofs + len > w.sizeKib * 1024 then 3 else 0
  (r, r == 1 && (w.isOpen || w.openedAt.isSome))

/-- A WR_HDR has come in order. -/
def takeHdr (m : Mach) (p : Nat) (b : List Byte) : Mach :=
  let window := leAt b 0 2 % 4096
  let gen := leAt b 2 2
  let ofs := leAt b 4 4
  let len := leAt b 8 2
  let c := checkHdr m p window gen ofs len
  let m := if c.2 then raiseCount m F.SHF_LNK_EVENT_LATE_WRITE F.SHF_LNK_CNT1_LATE_WRITE p else m
  let w : InWrite := { window := window, gen := gen, offset := ofs, length := len, tag := leAt b 10 2, result := c.1
                       late := c.2, owner := (winOf m window).owner, granary := (winOf m window).granary
                       tiller := (winOf m window).tiller, baseKib := (winOf m window).baseKib, sizeKib := (winOf m window).sizeKib }
  setPort m p (fun s => { s with rxHdr := some w })

/-- A WR_DATA has come in order: with the last one the write is complete (R157). Data whose header a scrub discarded frees its place. -/
def takeData (m : Mach) (p : Nat) (b : List Byte) : Mach :=
  match (portOf m p).rxHdr with
  | none => setPort m p (fun s => { s with freedW := s.freedW + 1 })
  | some w =>
    let d := (w.data ++ b).take w.length
    let w := { w with data := d }
    if d.length ≥ w.length then setPort m p (fun s => { s with rxHdr := none, rxWrites := s.rxWrites ++ [w] })
    else setPort m p (fun s => { s with rxHdr := some w })

/-- A sequenced flit in order (R149): taken, discarded while a scrub owns the port (R163), and acknowledged. -/
def takeSeq (m : Mach) (p : Nat) (f : BitVec 256) : Mach :=
  let type := flitType f
  let b := flitPayload f
  let m := setPort m p (fun s => { s with rxAck := flitLow f, nakSent := false })
  let m := if (portOf m p).scrubIdle then
      setPort (inc m F.SHF_LNK_CNT2_SCRUB_DROP p) p (fun s => { s with
        dropW := s.dropW + b2n (classW type), dropR := s.dropR + b2n (classR type) })
    else match type with
      | 3 => setPort m p (fun s => { s with rxLine := s.rxLine ++ [b] })
      | 4 => takeHdr m p b
      | 5 => takeData m p b
      | _ => setPort m p (fun s => { s with rxRsps := s.rxRsps ++ [b] })
  emitFlit m p (idleFlit m p)

/-- FLIT_RECEIVED (R145 to R153): a flit on a port in L0; a camera that sends while it is held is heard too (R78, R134). -/
def flitReceived (p : Nat) (f : BitVec 256) (m : Mach) : Mach :=
  let s := portOf m p
  if s.phy == .hold then
    if flitCrcOk f && flitType f == 3 then setPort m p (fun s => { s with rxLine := s.rxLine ++ [flitPayload f] }) else m
  else if s.phy != .l0 then m
  else if !flitCrcOk f then badCrc m p
  else
    let type := flitType f
    if typeRefused m p type then raiseCount m F.SHF_LNK_EVENT_PROTO_ERR F.SHF_LNK_CNT2_PROTO_ERR p
    else match type with
      | 0 => takeAck m p (flitLow f)
      | 1 => takeLctl m p f
      | _ =>
        if flitLow f = s.rxAck + 1 then takeSeq m p f
        else if s.nakSent || s.scrubIdle then emitFlit m p (idleFlit m p)
        else sendLctl (setPort m p (fun s => { s with nakSent := true })) p 1 0

/-- LCTL (R148): a received flit of that TYPE. -/
def lctlReceived (p : Nat) (f : BitVec 256) (m : Mach) : Mach := if flitType f = 1 then flitReceived p f m else m

/-- REPLAY_TIMEOUT (R150): resending from the oldest flit. -/
def replayTimeout (p : Nat) (m : Mach) : Mach := if (portOf m p).phy == .l0 then replayDue m p else m

/-- LINK_DOWN (R152): the port has not returned to L0 within 20 ms of leaving it. -/
def linkDown (p : Nat) (m : Mach) : Mach :=
  let s := portOf m p
  if s.phy == .l0 || s.phy == .quiet || s.phy == .deep then m else clearLink m p

def execLinkDown (port : Fin 16) (s : State) : Host.Outcome State Fault Refusal := s.run (linkDown port)

/-- Bind the PEER handles of a context to a grant (R326). -/
def bindGrant (m : Mach) (c p window owner idx gen delta : Nat) : Mach :=
  match (ctxOf m c).program with
  | none => m
  | some q => match q.peer.find? (fun d => d.window == window && d.owner == owner && d.port == p && d.owner != q.moduleIndex) with
    | none => m
    | some d =>
      let m := setCtx m c (fun x => { x with
        grants := x.grants.filter (fun g => g.1 != window) ++ [(window, idx, gen, delta)] })
      -- writes refused wait for this grant and go out once more (R327)
      let mine := fun (w : OutWrite) => w.held != 0 && (match cmdOf m w.queue w.seq with
        | some k => k.ctx == c && logicalHandle m c k.tiller k.dst == d.handle
        | none => false)
      let m := setPort m p (fun s => { s with outWrites := s.outWrites.map (fun w =>
        if mine w then { w with window := idx, gen := gen, held := 0, again := true } else w) })
      forEach ((ctxOf m c).bins.filter (fun b => b.space == 2 && b.handle == d.handle)) m (fun m b =>
        setBin m b.tiller c b.phys (fun e => { e with
          valid := true, gen := e.gen + 1, winGen := gen, winPort := p, window := idx, size := b.size }))

/-- A 32-byte grant that has landed in a bootstrap window (R326). The owner's tick count is kept as its distance from ours. -/
def takeGrant (m : Mach) (p : Nat) (b : List Byte) : Mach :=
  let hash := slice b 0 16
  let owners := m.fab.ctxs.filter (fun c => match c.2.program with
    | some q => q.split && (digestBytes q.hash).take 16 == hash
    | none => false)
  let delta := (leAt b 24 6 + 2 ^ 48 - m.ctl.tickCount.toNat) % 2 ^ 48
  pump (forEach owners m (fun m c => bindGrant m c.1 p (leAt b 16 1) (leAt b 17 1) (leAt b 18 2) (leAt b 20 2) delta)) p

/-- The store in which a write lands. -/
def landStore (m : Mach) (w : InWrite) : Store := if w.granary then (tilOf m w.tiller).granary else m.fab.hbm

/-- A write cut at lines: what lies in lines that are not the owner's any more is discarded (R161, R268, R271). -/
def landParts (m : Mach) (w : InWrite) : List (Nat × Nat × List Byte) :=
  (cutWrites (w.baseKib * 1024) [(w.offset, w.data)]).filter (fun x => lineOwner (landStore m w) x.1 == w.owner)

/-- The staging lines for the Granary lines that it covers, from the owner's pool (R275, R276); none: the pool has not enough. -/
def landLines (m : Mach) (w : InWrite) : Option (List (Nat × Nat × Nat)) :=
  takeLines ((landParts m w).map (fun x => (0, x.1))) (freeStage m w.tiller w.owner 0) []

/-- A write can land: in HBM; in a Granary through staging, or, where the owner has no pool there any more, in place (assumption 106). -/
def landRoom (m : Mach) (w : InWrite) : Bool := !w.granary || (poolOf m w.tiller w.owner 0).isEmpty || (landLines m w).isSome

/-- Bytes written in place. -/
def putParts (hbm : Bool) (s : Store) (ws : List (Nat × Nat × List Byte)) : Store :=
  ws.foldl (fun s x => initBytes hbm s (x.1 * lineBytes + x.2.1) x.2.2) s

/-- A write lands whole in the region that its window had when its header passed (R157, R161, R276); the bytes count for the window as
long as it has not been opened again (R325). -/
def landWrite (m : Mach) (w : InWrite) : Mach :=
  let ws := landParts m w
  let m := if !w.granary then setFab m (fun b => { b with hbm := putParts true b.hbm ws })
    else if (poolOf m w.tiller w.owner 0).isEmpty then setTil m w.tiller (fun t => { t with granary := putParts false t.granary ws })
    else
      let ls := (landLines m w).getD []
      publishSpace (fillLines m w.tiller ls) w.tiller false ls ws
  let first := decide (w.offset < w.sizeKib * 512)
  let m := setWin m w.window (fun x =>
    if x.gen.toNat ≠ w.gen then x
    else if first then { x with landed0 := x.landed0 + w.length } else { x with landed1 := x.landed1 + w.length })
  if w.window ≥ 4080 ∧ w.length = 32 then takeGrant m (w.window - 4080) w.data else m

/-- REMOTE_WRITE (R157 to R159, R161): the oldest complete write lands whole or is refused, and is answered. It stays in the receive
buffer while its owner's pool has no staging line for it (assumption 106). -/
def remoteWrite (p : Nat) (m : Mach) : Mach :=
  match (portOf m p).rxWrites with
  | [] => m
  | w :: ws =>
    if w.result = 0 ∧ !landRoom m w then m else
    let m := setPort m p (fun s => { s with
      rxWrites := ws, freedW := s.freedW + 1 + BitVec.ofNat 12 (cdiv w.length 28) })
    let m := if w.result = 0 then landWrite m w else inc m F.SHF_LNK_CNT1_NACK_SENT p
    let gen := (winOf m w.window).gen.toNat
    let m := produce m p (mkFlit 6 0 (leBytes 2 w.tag ++ leBytes 1 w.result ++ leBytes 1 0 ++ leBytes 2 gen ++ leBytes 2 w.window))
    if (portOf m p).phy == .l0 then sendLctl m p 0 0 else m

def execRemoteWrite (port : Fin 16) (s : State) : Host.Outcome State Fault Refusal := s.run (remoteWrite port)

/-- The completion status of a RESULT (R157). -/
def resultStatus (r : Nat) : Nat := if r = 0 then 0 else if r = 1 then stWinClosed else stDenied

/-- WR_RSP (R158, R277): the sender's write ends with its result. -/
def wrRsp (p : Nat) (m : Mach) : Mach :=
  match (portOf m p).rxRsps with
  | [] => m
  | b :: bs =>
    let tag := leAt b 0 2
    let old := (portOf m p).outWrites.find? (fun w => w.tag == tag && w.sent)
    let m := setPort m p (fun s => { s with
      rxRsps := bs, freedR := s.freedR + 1, outWrites := s.outWrites.filter (fun w => !(w.tag == tag && w.sent)) })
    let m := if (portOf m p).phy == .l0 then sendLctl m p 0 0 else m
    let m := match old with
      | some w => endWrite m p w (resultStatus (leAt b 2 1))
      | none => m
    pump m p

def execWrRsp (port : Fin 16) (s : State) : Host.Outcome State Fault Refusal := s.run (wrRsp port)

/-- WR_TIMEOUT (R159): a write that has not sent its WR_HDR is abandoned. -/
def wrTimeout (p tag : Nat) (m : Mach) : Mach :=
  match (portOf m p).outWrites.find? (fun w => w.tag == tag && !w.sent && w.held == 0) with
  | none => m
  | some w =>
    let m := setPort m p (fun s => { s with outWrites := s.outWrites.filter (fun x => !(x.tag == tag && !x.sent && x.held == 0)) })
    endWrite (raiseCount m F.SHF_LNK_EVENT_WR_TIMEOUT F.SHF_LNK_CNT2_WR_TIMEOUT p) p w stWinClosed

def execWrTimeout (port : Fin 16) (tag : Nat) (s : State) : Host.Outcome State Fault Refusal := s.run (wrTimeout port tag)

/-- Open a window (R160): a new generation; not while it is open, nor twice within 1 µs. -/
def openWindow (m : Mach) (i owner p : Nat) (granary : Bool) (t baseKib sizeKib : Nat) : Mach :=
  let w := winOf m i
  let soon := match w.openedAt with
    | some t => lessSince m.time.now t 1000
    | none => false
  if w.isOpen || soon then m
  else setWin m i (fun w => { w with
    isOpen := true, gen := w.gen + 1, owner := owner, port := p, granary := granary, tiller := if granary then t else 0
    baseKib := baseKib, sizeKib := sizeKib, openedAt := some m.time.now, landed0 := 0, landed1 := 0 })

def execWindowOpen (idx : Fin 4096) (owner port : Fin 16) (granary : Bool) (tiller : Fin 8) (baseKib sizeKib : Nat) (s : State) :
    Host.Outcome State Fault Refusal :=
  s.run (fun m => if m.ctl.st = .powering ∨ m.ctl.st = .dormant then m else openWindow m idx owner port granary tiller baseKib sizeKib)

/-- Close a window (R161): writes whose headers passed still land; bootstrap windows are never closed (R326). -/
def closeWindow (m : Mach) (i : Nat) : Mach := if i ≥ 4080 then m else setWin m i (fun w => { w with isOpen := false })

def execWindowClose (idx : Fin 4096) (s : State) : Host.Outcome State Fault Refusal := s.run (fun m => closeWindow m idx)

/-- The bootstrap windows are opened at step 8 of R73 (R326); their region lies in the module region of HBM (assumption 39). -/
def bootWindows (m : Mach) : Mach :=
  forEach (List.range 16) m (fun m p => openWindow m (4080 + p) 0 p false 0 (hbmPages * 4 + 8 * p) 8)

/-- The owner's window of a logical window: its region is that of the bin under the same handle (R325). -/
def openPeer (m : Mach) (c : Nat) (d : PeerDecl) : Mach :=
  let x := ctxOf m c
  match x.bins.find? (fun b => b.ltiller == d.ltiller && b.handle == d.handle),
      (List.range 4080).find? (fun i => !(winOf m i).isOpen && (match (winOf m i).openedAt with
        | some t => !lessSince m.time.now t 1000
        | none => true)) with
  | some b, some i =>
    let m := openWindow m i c d.port d.granary b.tiller b.base (2 * d.halfKib)
    setCtx m c (fun x => { x with winOpen := tset 0 x.winOpen d.window i })
  | _, _ => m

/-- Send the grant of a logical window of ours to its writer (R326). -/
def sendGrant (m : Mach) (c : Nat) (q : Program) (d : PeerDecl) : Mach :=
  match (ctxOf m c).winOpen.find? (fun w => w.1 == d.window) with
  | none => m
  | some w =>
    let g := (digestBytes q.hash).take 16 ++ leBytes 1 d.window ++ leBytes 1 q.moduleIndex ++ leBytes 2 w.2
      ++ leBytes 2 (winOf m w.2).gen.toNat ++ leBytes 2 0 ++ leBytes 6 m.ctl.tickCount.toNat ++ leBytes 2 0
    pump (queueWrite m d.port (4080 + d.port) 1 (32 * d.window) g 0x10000 0 none) d.port

/-- The windows of a context's part: closed, opened again and granted (R326, at a placement and at MACHINE_READY). -/
def grantAll (m : Mach) (c : Nat) (reopen : Bool) : Mach :=
  match (ctxOf m c).program with
  | none => m
  | some q =>
    if !q.split || (ctxOf m c).map.isEmpty then m
    else
      let ours := q.peer.filter (fun d => d.owner == q.moduleIndex)
      let m := if reopen then
          let m := forEach (ctxOf m c).winOpen m (fun m w => closeWindow m w.2)
          forEach ours (setCtx m c (fun x => { x with winOpen := [] })) (fun m d => openPeer m c d)
        else m
      forEach ours m (fun m d => sendGrant m c q d)

/-- Close every window of a context (R163, R418). -/
def closeCtxWindows (m : Mach) (c : Nat) : Mach :=
  let is := (m.wins.filter (fun w => w.2.isOpen && w.2.owner == c)).map (fun w => w.1)
  setCtx (forEach is m closeWindow) c (fun x => { x with winOpen := [], grants := [] })

/-- Peer-mode ports that a context owns: those its program's windows use (R163). -/
def peerPorts (m : Mach) (c : Nat) : List Nat :=
  match (ctxOf m c).program with
  | some q => (q.peer.map (fun d => d.port)).dedup
  | none => []

/-- A scrub begins on a port (R163): a write received in part is discarded, its flits with those that follow. -/
def scrubPort (m : Mach) (p : Nat) : Mach :=
  setPort m p (fun s => { s with
    scrubIdle := true, rxHdr := none
    dropW := (if s.scrubIdle then s.dropW else 0) + (match s.rxHdr with | some w => 1 + cdiv w.data.length 28 | none => 0)
    dropR := if s.scrubIdle then s.dropR else 0 })

/-- The scrub ends on a port that no other scrub holds (R163): an LCTL with the discarded flits' credit, FRESH if it is due; then a power-state
request that waited (R162). -/
def scrubPortEnd (m : Mach) (p : Nat) : Mach :=
  if m.glume.scrubs.any (fun c => (peerPorts m c).contains p) then m else
  let m := setPort m p (fun s => { s with
    scrubIdle := false, freedW := s.freedW + BitVec.ofNat 12 s.dropW, freedR := s.freedR + BitVec.ofNat 12 s.dropR, dropW := 0, dropR := 0 })
  let fresh := (portOf m p).fresh
  let m := if (portOf m p).phy == .l0 then setPort (sendLctl m p (if fresh then 4 else 0) 0) p (fun s => { s with fresh := false }) else m
  let m := match (portOf m p).phy, (portOf m p).lpWait with
    | .l0, some r => lpRequest (setPort m p (fun s => { s with lpWait := none })) p r
    | _, _ => m
  answerPeer m p

end Sys2Proof.Machine
end

