-- ==== Sys2Proof/Machine/Flash.lean ====
section
/-!
DEFINITION. Machine/Flash.lean: record storage on the module flash (R392 to R403): the audit log, reject records, blocks, health,
backups; and the storage commands of the table.
-/

namespace Sys2Proof.Machine

/-- Local time as the 12 bytes SEC, NS, FRAC (R399, R457). -/
def timeBytes (t : LTime) : List Byte :=
  leBytes 6 t.sec.toNat ++ leBytes 4 t.ns.toNat ++ leBytes 2 (t.frac.toNat / 2 ^ 24)

/-- Bytes of an audit entry before its reserved end (R399). -/
def auditHead (m : Mach) (type ctx : Nat) (payload : List Byte) : List Byte :=
  leBytes 8 m.flash.aseq ++ timeBytes m.time.now ++ leBytes 2 type ++ leBytes 1 ctx ++ [0]
    ++ slice payload 0 48 ++ digestBytes m.flash.lastHash

/-- The flash is powered (R396): not in DORMANT, nor before power-good. -/
def flashPowered (m : Mach) : Bool := alive m && m.ctl.st != .dormant

/-- The flash may work (R394): it is powered, and its system region has been scanned since power-on. -/
def flashReady (m : Mach) : Bool := flashPowered m && m.flash.scanAt.isSome

/-- The next program begins when none is in progress: system entries first, then audit entries, then reject records (R395). -/
def startProg (m : Mach) : Mach :=
  if m.flash.inProg.isSome || !flashReady m then m
  else setFlash m (fun f => { f with
    inProg := if f.bufSys > 0 then some .system else if !f.bufAudit.isEmpty then some .audit else if !f.bufReject.isEmpty then some .reject else none })

/-- A system entry is buffered (R392, R395). -/
def noteSystem (m : Mach) : Mach := startProg (setFlash m (fun f => { f with bufSys := f.bufSys + 1 }))

/-- Make an audit entry (R399, R400). In READ_ONLY it is counted in AUDIT_LOST (R401). -/
def audit (m : Mach) (type ctx : Nat) (payload : List Byte) : Mach :=
  if rd m F.FLS_HEALTH_STATE 0 = 3 then inc m F.FLS_CNT_AUDIT_LOST 0
  else
    let head := auditHead m type ctx payload
    startProg (setFlash m (fun f => { f with aseq := f.aseq + 1, lastHash := sha384 head,
                                             bufAudit := f.bufAudit ++ [head ++ leBytes 8 0] }))

/-- Enter FAULT for a cause, with its audit entry (R22, R400 type 0x000A). Causes, a choice of the model (assumption 8): 1 no image that may run, or a
RETURN or RETIRE under way (R430); 2 supply; 3 Glume integrity; 4 no Tiller in service. -/
def enterFault (m : Mach) (cause : Nat) : Mach :=
  if m.ctl.st = .fault || m.ctl.st = .powering then m
  else
    let prev := match m.ctl.st with
      | .powering => 0 | .booting => 1 | .configured => 2 | .machineReady => 3 | .running => 4
      | .degraded => 5 | .standby => 6 | .dormant => 7 | .fault => 15
    audit (enter m .fault) 0x000A 0 (leBytes 1 prev ++ leBytes 1 cause)

/-- Blocks (R392). -/
def flashBlocks : Nat := 131072
/-- First logical block of the audit region: after 64 system and 32 backup blocks. -/
def auditBlock0 : Nat := 96
/-- First logical block of the reject region. -/
def rejectBlock0 : Nat := 96 + 6144
/-- Bytes of a TLC block: 1,024 pages of 16 KiB (R392). -/
def tlcBlock : Nat := 16777216
/-- Bytes of the reject ring: 119,712 blocks (R392). -/
def rejectBytes : Nat := 119712 * 16777216
/-- Entries of the audit ring: 32 GiB of 128 bytes (R392, R399). -/
def auditRing : Nat := 268435456
/-- Mean erase count, rounded down (FLS_HEALTH.MEAN_PE). -/
def meanPe (m : Mach) : Nat := (m.flash.erases.map (fun e => e.2)).sum / flashBlocks

/-- Physical blocks that a region holds. -/
def mappedBlocks (f : Flash) : List Nat := (f.regionOf.filter (fun e => e.2 != 0)).map (fun e => e.2 - 1)

/-- No block can be found for the system or audit region: none is free, and the reject region holds none (R401). -/
def noBlockLeft (f : Flash) : Bool :=
  decide (flashBlocks ≤ (f.badBlocks ++ (mappedBlocks f).filter (fun p => !f.badBlocks.contains p)).length)
    && f.regionOf.all (fun e => decide (e.1 < rejectBlock0) || e.2 == 0)

/-- Health after spares, wear and lack of blocks (R401). -/
def healthWanted (m : Mach) (mean : Nat) : Nat :=
  let spares := rd m F.FLS_STATUS_SPARES 0
  if noBlockLeft m.flash then 3
  else if spares = 0 then 2
  else if mean ≥ 2400 || spares < 1280 then 1 else 0

/-- Move the health state forward, with its event and its audit entry (R400, R401). -/
def healthCheck (m : Mach) : Mach :=
  let old := rd m F.FLS_HEALTH_STATE 0
  let new := healthWanted m (meanPe m)
  let m := wr m F.FLS_HEALTH_MEAN_PE 0 (meanPe m)
  if new ≤ old then m
  else
    let m := audit m 0x000C 0 (leBytes 1 old ++ leBytes 1 new)
    noteSystem (raise (wr m F.FLS_HEALTH_STATE 0 new) F.FLS_EVENT_HEALTH 0)

/-- A physical block is free: mapped by no logical block and not bad (R393). -/
def blockFree (f : Flash) (p : Nat) : Bool :=
  !(f.badBlocks.contains p) && f.regionOf.all (fun e => e.2 != p + 1)

/-- The free block with the lowest erase count among the first `n` (R393). -/
def bestFree (f : Flash) : Nat → Option Nat
  | 0 => none
  | n + 1 =>
    match bestFree f n with
    | none => if blockFree f n then some n else none
    | some b => if blockFree f n && tget 0 f.erases n < tget 0 f.erases b then some n else some b

/-- Free a physical block: it is erased before its next write (R393). -/
def eraseBlock (f : Flash) (p : Nat) : Flash := { f with erases := tmod 0 f.erases p (· + 1) }

/-- Bytes of records. -/
def totalBytes (rs : List (List Byte)) : Nat := (rs.map List.length).sum

/-- The records that begin at a byte or above, of records that follow each other from a byte on. -/
def dropOld (floor : Nat) : Nat → List (List Byte) → List (List Byte)
  | _, [] => []
  | at_, r :: rs => if floor ≤ at_ then r :: rs else dropOld floor (at_ + r.length) rs

/-- With no block free for another region, a block of the reject region becomes a spare (R401): that of the oldest record, with the
records that begin in it. -/
def giveReject (f : Flash) (l : Nat) : Flash :=
  if bestFree f flashBlocks = none ∧ l < rejectBlock0 then
    let from_ := f.rejectEnd - totalBytes f.rejects
    let old := rejectBlock0 + from_ / tlcBlock % 119712
    let b := if tget 0 f.regionOf old ≠ 0 then some old
      else (f.regionOf.find? (fun e => decide (rejectBlock0 ≤ e.1) && e.2 != 0)).map (fun e => e.1)
    match b with
    | none => f
    | some b => eraseBlock { f with
        regionOf := tset 0 f.regionOf b 0
        rejects := if b = old then dropOld (from_ / tlcBlock * tlcBlock + tlcBlock) from_ f.rejects else f.rejects } (tget 0 f.regionOf b - 1)
  else f

/-- Write a logical block to a fresh block; the block it held is erased and freed (R393, R394). -/
def rewriteBlock (f : Flash) (l : Nat) : Flash :=
  let f := giveReject f l
  match bestFree f flashBlocks with
  | none => f
  | some p =>
    let old := tget 0 f.regionOf l
    let f := { f with regionOf := tset 0 f.regionOf l (p + 1), reads := tset 0 f.reads l 0,
                      scanFlags := f.scanFlags.filter (· != l) }
    if old = 0 then f else eraseBlock f (old - 1)

/-- A physical block becomes bad; a spare takes its place (R393). -/
def markBlock (m : Mach) (p : Nat) : Mach :=
  raise (wr (setFlash m (fun f => { f with badBlocks := f.badBlocks ++ [p] })) F.FLS_STATUS_SPARES 0 (rd m F.FLS_STATUS_SPARES 0 - 1))
    F.FLS_EVENT_BAD_BLOCK 0

/-- A block fails a program, or more than 1 % of its codewords need a threshold retry: its data is rewritten elsewhere (R393). -/
def retireBlock (m : Mach) (l : Nat) : Mach :=
  let old := tget 0 m.flash.regionOf l
  if old = 0 then healthCheck m else healthCheck (setFlash (markBlock m (old - 1)) (fun f => rewriteBlock f l))

/-- The erase of the blocks that have been freed since fails: they become bad (R393). -/
def eraseFails (f0 : Flash) (m : Mach) : Mach :=
  let now := mappedBlocks m.flash
  healthCheck (forEach ((mappedBlocks f0).filter (fun p => !now.contains p && !m.flash.badBlocks.contains p)) m markBlock)

/-- Wear levelling: a written block more than 200 erases below the mean is moved (R393). -/
def wearLevel (m : Mach) : Mach :=
  match m.flash.regionOf.find? (fun e => tget 0 m.flash.erases (e.2 - 1) + 200 < meanPe m) with
  | none => m
  | some e => setFlash m (fun f => rewriteBlock f e.1)

/-- Block of the audit region, counted without end, in which an audit entry begins. -/
def auditRun (aseq : Nat) : Nat := aseq * 6144 / auditRing
/-- Logical block of an audit entry. -/
def auditBlockOf (aseq : Nat) : Nat := auditBlock0 + auditRun aseq % 6144

/-- Store an audit entry: when the ring is full its oldest block is dropped (R399). -/
def storeAudit (f : Flash) (e : List Byte) : Flash :=
  let q := leAt e 0 8
  let f := { f with audit := f.audit.filter (fun x => decide (auditRun q < auditRun (leAt x 0 8) + 6144)) ++ [e] }
  if q = 0 || auditRun (q - 1) ≠ auditRun q || tget 0 f.regionOf (auditBlockOf q) = 0 then rewriteBlock f (auditBlockOf q) else f

/-- Pages of an SLC block: a third of a TLC block's 1,024 (R392). -/
def slcPages : Nat := 341

/-- Logical block of a system entry, the first of its two copies; the other lies 32 blocks on (R392). -/
def sysBlockOf (n : Nat) : Nat := n / slcPages % 32

/-- Store a system entry: a page in both copies (R392; how many pages an entry takes is DESIGN CHOICE, assumption 88). -/
def storeSystem (f : Flash) : Flash :=
  let n := f.sysSeq
  let f := { f with sysSeq := n + 1 }
  let put := fun (f : Flash) (l : Nat) => if n % slcPages = 0 || tget 0 f.regionOf l = 0 then rewriteBlock f l else f
  put (put f (sysBlockOf n)) (sysBlockOf n + 32)

/-- Logical blocks of a backup generation, counted from the first written: both copies of an image of so many bytes (R392, R402). -/
def backupBlocks (no len : Nat) : List Nat :=
  let n := cdiv len tlcBlock
  let b := 64 + no % 8 * 4
  (List.range (min 2 n)).flatMap (fun k => [b + k, b + 2 + k])

/-- Bytes of a stored image. -/
def imageBytes (i : Image) : Nat := min 32505856 (max 1 i.length)

/-- First byte of the reject ring that is still there once the ring has been written up to a byte: room is made a block at a time (R398). -/
def rejectFloor (upTo : Nat) : Nat := (upTo - 1) / tlcBlock * tlcBlock + tlcBlock - rejectBytes

/-- Store a reject record in the ring (R398). -/
def storeReject (f : Flash) (r : List Byte) : Flash :=
  let at_ := f.rejectEnd
  let f := { f with
    rejects := dropOld (rejectFloor (at_ + r.length)) (at_ - totalBytes f.rejects) (f.rejects ++ [r]), rejectEnd := at_ + r.length }
  -- every block that the record begins, or that is not mapped yet
  (List.range ((at_ + r.length - 1) / tlcBlock - at_ / tlcBlock + 1)).foldl (fun f j =>
    let k := at_ / tlcBlock + j
    let l := rejectBlock0 + k % 119712
    if decide (at_ ≤ k * tlcBlock) || tget 0 f.regionOf l = 0 then rewriteBlock f l else f) f

/-- The margin trims in force, in 5 mV steps (R441): compute 0, compute 1, intake, IO. -/
def trimsNow (m : Mach) : List Int :=
  [rd m F.PWR_VTRIM_COMPUTE0 0, rd m F.PWR_VTRIM_COMPUTE1 0, rd m F.PWR_VTRIM_INTAKE 0, rd m F.PWR_VTRIM_IO 0].map (sext 8)

/-- In READ_ONLY nothing is written: audit entries that wait are counted in AUDIT_LOST (R401). -/
def readOnlyDrop (m : Mach) : Mach :=
  if rd m F.FLS_HEALTH_STATE 0 = 3 then
    setFlash (incBy m F.FLS_CNT_AUDIT_LOST 0 m.flash.bufAudit.length) (fun f => { f with bufAudit := [], bufSys := 0, inProg := none })
  else m

/-- Step 1 of R396: the program of a reject record that is in progress is finished. -/
def finishProg (m : Mach) : Mach :=
  match m.flash.inProg, m.flash.bufReject with
  | some .reject, r :: rs => if rd m F.FLS_HEALTH_STATE 0 ≥ 2 then m else setFlash m (fun f => storeReject { f with bufReject := rs } r)
  | _, _ => m

/-- Close the flash: the program in progress is finished, buffered system and audit entries and the trims are programmed, buffered reject
records dropped (R396, R401, R441). -/
def flashClose (m : Mach) : Mach :=
  let trims := if rd m F.FLS_HEALTH_STATE 0 = 3 then m.flash.trims else trimsNow m
  setFlash (readOnlyDrop (finishProg m)) (fun f =>
    let g := f.bufAudit.foldl storeAudit ((List.range f.bufSys).foldl (fun g _ => storeSystem g) f)
    { g with
      trims := trims, inProg := none
      bufSys := 0, bufAudit := [], bufReject := [], dropped := f.dropped + f.bufReject.length, reading := none })

/-- The count of records dropped at the last close becomes an audit entry (R396). -/
def flashOpen (m : Mach) : Mach :=
  let n := m.flash.dropped
  if n = 0 then m else setFlash (audit m 0x000D 0 (leBytes 4 n)) (fun f => { f with dropped := 0 })

/-- Bytes that wait in the buffer (R395). -/
def bufferBytes (f : Flash) : Nat := f.bufSys * 64 + totalBytes f.bufAudit + totalBytes f.bufReject

/-- The budget's bucket, filled to the present (R395): BUDGET MiB/s, 1 s deep. -/
def bucketNow (m : Mach) : Nat :=
  let budget := m.cfg.machine.budget * 1048576
  min budget (m.flash.bucket + (nsDiff m.time.now m.flash.bucketAt).toNat * budget / giga)

/-- Buffer a reject record made of its object, decision and fixed fields, with its crop if one may be stored (R395, R397, R398).
`tail` is bytes 108 to 119. -/
def putReject (m : Mach) (objDec : List Byte) (ctx : Nat) (conf : Bool) (crop tail : List Byte) : Mach :=
  let bucket := bucketNow m
  let wanted := if conf then [] else crop
  let skip := decide (128 + wanted.length > bucket) && !wanted.isEmpty
  let kept := if skip then [] else wanted
  let flags := b2n skip + 2 * b2n conf + 4 * b2n m.flash.lostBefore
  let rec_ := slice objDec 0 96 ++ leBytes 6 m.flash.rseq ++ leBytes 1 ctx ++ leBytes 1 flags
    ++ leBytes 4 kept.length ++ slice tail 0 12 ++ leBytes 8 0 ++ kept
  if rd m F.FLS_HEALTH_STATE 0 ≥ 2 then m
  else if bufferBytes m.flash + rec_.length > 16777216 then
    setFlash (raiseCount m F.FLS_EVENT_LOST F.FLS_CNT_LOST 0) (fun f => { f with lostBefore := true })
  else
    startProg (setFlash m (fun f => { f with
      bufReject := f.bufReject ++ [rec_], rseq := f.rseq + 1, lostBefore := false,
      bucket := bucket - rec_.length, bucketAt := m.time.now,
      recent := (m.time.now, rec_.length) :: f.recent.filter (fun e => lessSince m.time.now e.1 giga) }))

/-- FLS_REC_RATE: KiB of the last second. -/
def recRate (m : Mach) : Nat :=
  ((m.flash.recent.filter (fun e => lessSince m.time.now e.1 giga)).map (fun e => e.2)).sum / 1024

/-- A confirmed image that differs from the newest backup becomes a new generation (R402). -/
def backupImage (m : Mach) (i : Image) : Mach :=
  if rd m F.FLS_HEALTH_STATE 0 = 3 || m.flash.backups.head? = some i then m
  else setFlash m (fun f => (backupBlocks f.backupSeq (imageBytes i)).foldl rewriteBlock
    { f with backups := (i :: f.backups).take 8, backupSeq := f.backupSeq + 1 })

/-- The program in progress has ended: what was programmed is stored, and with it the logical block that it went to (R395, R401). -/
def programDone (m : Mach) : Mach × Option Nat :=
  let m0 := setFlash m (fun f => { f with inProg := none })
  match m.flash.inProg, m.flash.bufAudit, m.flash.bufReject with
  | some .system, _, _ => (setFlash m0 (fun f => storeSystem { f with bufSys := f.bufSys - 1 }), some (sysBlockOf m.flash.sysSeq))
  | some .audit, e :: es, _ => (setFlash m0 (fun f => storeAudit { f with bufAudit := es } e), some (auditBlockOf (leAt e 0 8)))
  | some .reject, _, r :: rs =>
    if rd m F.FLS_HEALTH_STATE 0 ≥ 2 then
      (setFlash (raiseCount m0 F.FLS_EVENT_LOST F.FLS_CNT_LOST 0) (fun f => { f with bufReject := rs, lostBefore := true }), none)
    else (setFlash m0 (fun f => storeReject { f with bufReject := rs } r), some (rejectBlock0 + m.flash.rejectEnd / tlcBlock % 119712))
  | _, _, _ => (m0, none)

/-- NAND_PROGRAM_COMPLETE (R393, R395): the program in progress ends; it may fail, or the erase that it needed. From REJECTS_OFF on no reject
record is programmed, in READ_ONLY nothing (R401). -/
def nandProgram (res : NandResult) (m : Mach) : Mach :=
  if !flashReady m then m
  else
    let m := startProg (readOnlyDrop m)
    let f0 := m.flash
    let r := programDone m
    let m := match r.2, res with
      | some l, .programFails => retireBlock r.1 l
      | some _, .eraseFails => eraseFails f0 r.1
      | _, _ => healthCheck r.1
    startProg (if r.2.isSome then wearLevel m else m)

def execNandProgramComplete (res : NandResult) (s : State) : Host.Outcome State Fault Refusal :=
  s.run (nandProgram res)

/-- Pages written of a logical block (R392, R394). -/
def writtenPages (f : Flash) (l : Nat) : Nat :=
  if tget 0 f.regionOf l = 0 then 0
  else if l < 64 then (if l % 32 = sysBlockOf (f.sysSeq - 1) then (f.sysSeq - 1) % slcPages + 1 else slcPages)
  else if l < auditBlock0 then
    let age := (f.backupSeq + 7 - (l - 64) / 4) % 8
    let pages := cdiv (imageBytes (f.backups.getD age {})) 16384
    if l % 2 = 0 then min 1024 pages else pages - 1024
  else if l < rejectBlock0 then
    let q := (f.audit.getLast?.map (fun e => leAt e 0 8)).getD 0
    if auditRun q % 6144 = l - auditBlock0 then cdiv ((q + 1 - cdiv (auditRun q * auditRing) 6144) * 128) 16384 else slcPages + 1
  else if (f.rejectEnd - 1) / tlcBlock % 119712 = l - rejectBlock0 then (f.rejectEnd - 1) % tlcBlock / 16384 + 1
  else 1024

/-- Sequence number of a stored record: ASEQ in bytes 0 to 7, RSEQ in bytes 96 to 101. -/
def seqOf (audit : Bool) (r : List Byte) : Nat := if audit then leAt r 0 8 else leAt r 96 6

/-- The stored records of a region that can be read: not those that uncorrectable reads have lost (R392). -/
def heldOf (f : Flash) (audit : Bool) : List (List Byte) :=
  if audit then f.audit.filter (fun x => !f.lostAudit.contains (seqOf true x)) else f.rejects.filter (fun x => !f.lostReject.contains (seqOf false x))

/-- A record is lost by an uncorrectable read: not one of the newest 4,096 audit entries, which the system region holds too (R392). -/
def losable (f : Flash) (audit : Bool) (q : Nat) : Bool :=
  (heldOf f audit).any (fun x => seqOf audit x == q) && !(audit && decide (q + 4096 ≥ f.aseq))

/-- Codewords found uncorrectable, each by the region (audit or not) and the sequence number of its record (R392): each is counted, and the
record is lost. -/
def loseRecords (bad : List (Bool × Nat)) (m : Mach) : Mach :=
  let mine := bad.filter (fun x => losable m.flash x.1 x.2)
  if mine.isEmpty then m
  else setFlash (incBy (raise m F.FLS_EVENT_UNCORRECTABLE 0) F.FLS_CNT_UNCORRECTABLE 0 mine.length) (fun f => { f with
    lostAudit := (f.lostAudit ++ (mine.filter (fun x => x.1)).map (fun x => x.2)).dedup.filter (fun q => f.audit.any (fun x => seqOf true x == q))
    lostReject := (f.lostReject ++ (mine.filter (fun x => !x.1)).map (fun x => x.2)).dedup.filter (fun q => f.rejects.any (fun x => seqOf false x == q)) })

/-- The records asked for by a request: up to `count` from the first at or above `from_`, or from the oldest (R403). -/
def askedFor (f : Flash) (audit : Bool) (from_ count : Nat) : List (List Byte) :=
  ((heldOf f audit).filter (fun x => decide (from_ ≤ seqOf audit x))).take count

/-- RECORD_READ (R403): a write of FLS_READ_CTRL. A refused GO stores nothing. -/
def recordRead (v : Word) (m : Mach) : Mach :=
  let go := bitOf v.toNat 31
  let put := fun (m : Mach) => wr (wr m F.FLS_READ_CTRL_REGION 0 (bits v.toNat 24 1)) F.FLS_READ_CTRL_COUNT 0 (bits v.toNat 0 24)
  if m.ctl.st = .dormant && !go then m
  else if !go then put m
  else if m.flash.reading.isSome || !flashPowered m then raise m F.FLS_EVENT_ERR 0
  else
    let lo := rd m F.FLS_READ_SEQ_LO_SEQ 0
    let hi := rd m F.FLS_READ_SEQ_HI_SEQ 0
    let audit := bits v.toNat 24 1 == 1
    let first := lo + (if audit then hi else hi % 65536) * 2 ^ 32
    let addr := BitVec.ofNat 64 (rd m F.FLS_READ_ADDR_LO_ADDR 0 / 64 * 64 + rd m F.FLS_READ_ADDR_HI_ADDR 0 * 2 ^ 32)
    let seqs := (askedFor m.flash audit first (bits v.toNat 0 24)).map (seqOf audit)
    setFlash (put m) (fun f => { f with
      reading := some { audit := audit, first := seqs.headD 0, stop := (seqs.getLast?.map (· + 1)).getD 0, addr := addr } })

def execRecordRead (v : Word) (s : State) : Host.Outcome State Fault Refusal := s.run (fun m => bar0 m (recordRead v))

/-- The records of a record read that are still there: one overwritten since is skipped (R403). -/
def asked (f : Flash) (r : FlashRead) : List (List Byte) :=
  (heldOf f r.audit).filter (fun x => decide (r.first ≤ seqOf r.audit x) && decide (seqOf r.audit x < r.stop))

/-- Pages, counted from the start of the flash's logical blocks, of bytes `at_` to `at_ + len` of a region whose first block is `b0`
and which has `n` blocks of `size` bytes. -/
def pagesAt (b0 n size at_ len : Nat) : List (Nat × Nat) :=
  (List.range ((at_ % size + (len - 1)) / 16384 - at_ % size / 16384 + 1)).map (fun k =>
    let page := at_ % size / 16384 + k
    (b0 + (at_ / size + page / (size / 16384)) % n, page % (size / 16384)))

/-- Where the records of a region begin, with each record (R398, R399). -/
def recordsAt : Nat → List (List Byte) → List (Nat × List Byte)
  | _, [] => []
  | at_, r :: rs => (at_, r) :: recordsAt (at_ + r.length) rs

/-- Pages that a record read reads, by logical block: each once (R394, R403). -/
def pagesRead (f : Flash) (r : FlashRead) : List (Nat × Nat) :=
  if r.audit then
    ((asked f r).map (fun x => (auditBlockOf (seqOf true x), seqOf true x * 128 / 16384))).dedup
  else
    let want := (asked f r).map (seqOf false)
    (((recordsAt (f.rejectEnd - totalBytes f.rejects) f.rejects).filter (fun x => want.contains (seqOf false x.2))).flatMap
      (fun x => pagesAt rejectBlock0 119712 tlcBlock x.1 x.2.length)).dedup

/-- Each block keeps a count of its reads (R394). -/
def countReads (f : Flash) (r : FlashRead) : Flash :=
  { f with reads := (pagesRead f r).foldl (fun t x => tmod 0 t x.1 (· + 1)) f.reads }

/-- Where a record lies: its logical blocks (R392). -/
def blocksOf (f : Flash) (audit : Bool) (q : Nat) : List Nat :=
  if audit then [auditBlockOf q]
  else ((recordsAt (f.rejectEnd - totalBytes f.rejects) f.rejects).filter (fun x => seqOf false x.2 == q)).flatMap
    (fun x => (pagesAt rejectBlock0 119712 tlcBlock x.1 x.2.length).map (fun y => y.1))

/-- BLOCK_REFRESH (R392 to R394): a block with 100,000 reads, or flagged by a scan, is rewritten to a fresh block. `weak`: more than 1 % of its
codewords needed a threshold retry, so it becomes bad; `eraseFail`: its erase fails. In READ_ONLY nothing is written (R401). -/
def blockRefresh (l : Nat) (weak eraseFail : Bool) (bad : List (Bool × Nat)) (m : Mach) : Mach :=
  if flashReady m && rd m F.FLS_HEALTH_STATE 0 != 3 && (tget 0 m.flash.reads l ≥ 100000 || m.flash.scanFlags.contains l)
      && tget 0 m.flash.regionOf l != 0 then
    let m := loseRecords (bad.filter (fun x => (blocksOf m.flash x.1 x.2).contains l)) m
    let f0 := m.flash
    if weak then retireBlock m l
    else
      let m := healthCheck (setFlash m (fun f => rewriteBlock f l))
      if eraseFail then eraseFails f0 m else m
  else m

def execBlockRefresh (block : Nat) (weak eraseFail : Bool) (bad : List (Bool × Nat)) (s : State) : Host.Outcome State Fault Refusal :=
  s.run (blockRefresh block weak eraseFail bad)

/-- A retention scan is due: the first after the flash is powered on, then one every 24 h of powered time (R394). -/
def scanDue (m : Mach) : Bool := flashPowered m && !m.flash.scanAt.any (fun t => lessSince m.time.now t (86400 * giga))

/-- RETENTION_SCAN (R392, R394): every written page is read, the system region's first; blocks with weak codewords are flagged. The flash then
works (R394). -/
def retentionScan (flags : List Nat) (bad : List (Bool × Nat)) (m : Mach) : Mach :=
  if scanDue m then
    startProg (loseRecords bad (setFlash m (fun f => { f with
      scanAt := some m.time.now,
      reads := f.regionOf.foldl (fun t e => tmod 0 t e.1 (· + writtenPages f e.1)) f.reads,
      scanFlags := flags.filter (fun l => tget 0 f.regionOf l != 0) })))
  else m

def execRetentionScan (flags : List Nat) (bad : List (Bool × Nat)) (s : State) : Host.Outcome State Fault Refusal :=
  s.run (retentionScan flags bad)

/-- A RESTORE reads one copy of a generation (R394, R402). -/
def countRestore (f : Flash) (g : Nat) : Flash :=
  let ls := (backupBlocks (f.backupSeq - 1 - g) (imageBytes (f.backups.getD g {}))).filter (fun l => decide (l % 4 < 2))
  { f with reads := ls.foldl (fun t l => tmod 0 t l (· + writtenPages f l)) f.reads }

/-- The data of a record read: header, then the records (R403). `bad`: sequence numbers that read uncorrectable. -/
def readData (f : Flash) (r : FlashRead) (bad : List Nat) : List Byte :=
  let all := heldOf f r.audit
  let chosen := (asked f r).filter (fun x =>
    !bad.contains (seqOf r.audit x) || (r.audit && seqOf true x + 4096 ≥ f.aseq))
  let oldest := (all.head?.map (seqOf r.audit)).getD 0
  let newest := (all.getLast?.map (seqOf r.audit)).getD 0
  let first := (chosen.head?.map (seqOf r.audit)).getD 0
  leBytes 6 oldest ++ leBytes 6 newest ++ leBytes 6 first ++ leBytes 4 chosen.length ++ leBytes 42 0 ++ chosen.flatten

/-- READ_DONE (R392, R403): the read's DMA ends. `bad`: the codewords found uncorrectable, each by its record's sequence number. -/
def readDone (ok : Bool) (bad : List Nat) (m : Mach) : Mach :=
  match m.flash.reading with
  | none => m
  | some r =>
    if !flashReady m then m else
    let read := (asked m.flash r).map (seqOf r.audit)
    let data := readData m.flash r bad
    let m := setFlash m (fun f => { countReads f r with reading := none })
    let m := loseRecords ((bad.filter (read.contains ·)).map (fun q => (r.audit, q))) m
    if ok then raise (emit m (.dmaWrite r.addr data)) F.FLS_EVENT_READ_DONE 0
    else raise (raiseCount m F.HST_EVENT_DMA_ERR F.HST_CNT_DMA_ERR 0) F.FLS_EVENT_ERR 0

def execReadDone (ok : Bool) (bad : List Nat) (s : State) : Host.Outcome State Fault Refusal := s.run (readDone ok bad)

end Sys2Proof.Machine
end

