-- ==== Sys2Proof/Machine/Position.lean ====
section
/-!
DEFINITION. Machine/Position.lean: encoder channels (R104 to R117), the speed estimate, pos(t) and the virtual count (R113, R114,
R465), the high-water position (R119), and the encoder commands of the table. The forward direction of QUAD, A before B, is the
usual one: PRESUMED (assumption 18).
-/

namespace Sys2Proof.Machine

/-- The master encoder channel (R115). -/
def master (m : Mach) : Nat := m.cfg.machine.masterEnc

/-- The tick source is free-running (R9). -/
def freeRun (m : Mach) : Bool := m.cfg.machine.freeRun

/-- Signed difference of two counts (R113). -/
def cdiff (a b : BitVec 48) : Int := (a - b).toInt

/-- Speed of a window with its newest edge first: the newest over the oldest held, at most W apart (R113). Times that do not
advance give 0 (assumption 19: edges never share a stamp). -/
def speedOf (w : Nat) (hist : List (BitVec 48 × Int)) : Speed :=
  match hist, hist[min w (hist.length - 1)]? with
  | (c, t) :: _, some (c0, t0) => if 0 < smod (t - t0) then { dc := cdiff c c0, dt := smod (t - t0) } else {}
  | _, _ => {}

/-- The speed estimate formed at the last edge; 0 while STILL (R113). -/
def vEdge (m : Mach) (ch : Nat) : Speed :=
  let e := encOf m ch
  if e.still then {} else speedOf (2 ^ (encCfg m ch).spdWinLog2) e.hist

/-- The estimate in force at a time, with its replacement between edges (R113). -/
def vAt (m : Mach) (ch : Nat) (t : Int) : Speed :=
  let v := vEdge m ch
  match (encOf m ch).last with
  | none => v
  | some (_, te) =>
    let d := smod (t - fine te)
    if v.dc ≠ 0 ∧ d * v.dc.natAbs > v.dt then { dc := v.dc.sign, dt := d } else v

/-- v × time, in 1/256 count, truncated toward zero (R114). -/
def travel (v : Speed) (d : Int) : Int := (v.dc * d * 256).tdiv v.dt

/-- The channel has seen an index or a reference (ENC_STATUS.REF_SEEN). -/
def refSeen (e : EncCh) : Bool := e.lastRef.isSome

/-- Illegal transitions of the last 1 ms (R116). -/
def illegalNow (m : Mach) (e : EncCh) : List LTime := e.illegal.filter (fun t => lessSince m.time.now t 1000000)

/-- A channel is valid (R116). -/
def encValid (m : Mach) (ch : Nat) : Bool :=
  let e := encOf m ch
  let c := encCfg m ch
  e.started && !e.los && match c.mode with
    | 0 => false
    | 1 => decide ((illegalNow m e).length ≤ 16) && (c.zmode != 2 || refSeen e)
    | 4 | 5 => decide (e.ssiBad < 3) && e.ssiPrev.isSome
    | _ => e.refErrs.take 2 != [true, true]

/-- What holdover extrapolates from, while the channel is not valid again (R117). -/
def holdover (m : Mach) (ch : Nat) : Option (BitVec 48 × LTime × Speed) := if encValid m ch then none else (encOf m ch).held

/-- Position of a channel at a time, in 1/256 count (R114; in holdover R117). -/
def posCh (m : Mach) (ch : Nat) (t : Int) : Int :=
  let e := encOf m ch
  match holdover m ch with
  | some (c, te, v) => c.toInt * 256 + travel v (smod (t - fine te))
  | none => match e.last with
    | none => e.count.toInt * 256
    | some (c, te) => c.toInt * 256 + clampI (-255) 255 (travel (vAt m ch t) (smod (t - fine te)))

/-- The virtual count at a time, in 1/256 count (R465). -/
def posVirtual (m : Mach) (t : Int) : Int :=
  (smod (t - fine m.trig.start) * m.cfg.machine.pitch * m.cfg.machine.s * 256).tdiv
    (65536 * (max 1 m.cfg.machine.periodNs : Nat))

/-- pos(t) of the master, or the virtual count, in 1/256 count (R114, R465). -/
def posAt (m : Mach) (t : Int) : Int := if freeRun m then posVirtual m t else posCh m (master m) t

/-- pos(t) now. -/
def posNow (m : Mach) : Int := posAt m (fine m.time.now)

/-- pos(t) relative to the origin, carried past the count's wrap by the high-water position (R113, R119). -/
def relPos (m : Mach) (t : Int) : Int :=
  if freeRun m then posVirtual m t
  else m.trig.high + sext 56 (twos 56 (posAt m t - m.trig.origin * 256 - m.trig.high))

/-- Last edge and speed that a prediction starts from: position in 1/256 count from O, time, speed (R117, R120, R465). -/
def predictFrom (m : Mach) : Int × Int × Speed :=
  if freeRun m then
    (0, fineNear m.time.now m.trig.start, { dc := m.cfg.machine.pitch * m.cfg.machine.s, dt := 65536 * (max 1 m.cfg.machine.periodNs : Nat) })
  else
    let e := encOf m (master m)
    let rel (c : BitVec 48) : Int := m.trig.high + sext 56 (twos 56 (c.toInt * 256 - m.trig.origin * 256 - m.trig.high))
    match holdover m (master m) with
    | some (c, te, v) => (rel c, fineNear m.time.now te, v)
    | none => match e.last with
      | some (c, te) => (rel c, fineNear m.time.now te, vEdge m (master m))
      | none => (rel e.count, fine m.time.now, {})

/-- Predicted local time, in 2^-16 ns, at which pos(t) reaches a position (1/256 count from O); none while the speed is 0 or
backward (R120, R379). -/
def crossing (m : Mach) (p : Int) : Option Int :=
  let (p0, t0, v) := predictFrom m
  if v.dc ≤ 0 then none else some (t0 + ((p - p0) * v.dt) / (v.dc * 256))

/-- The master becomes invalid while ticks run: holdover starts. It is valid again: holdover ends (R117). Of a master without an edge yet it
goes on from the count, the present time and speed 0 (assumption 114). -/
def masterCheck (m : Mach) (ch : Nat) : Mach :=
  if ch ≠ master m || freeRun m then m
  else
    let e := encOf m ch
    match e.held with
    | none =>
      if ticking m && !encValid m ch then
        let base := e.last.getD (e.count, m.time.now)
        raise (setEnc m ch (fun e => { e with held := some (base.1, base.2, vEdge m ch), heldFrom := m.time.now })) F.ENC_EVENT_HOLD_START ch
      else m
    | some _ => if encValid m ch then setEnc m ch (fun e => { e with held := none }) else m

/-- Position of the tick that closes the present swath, in 1/256 count from the origin; in an alignment from O_a (R118, R184). -/
def tickPos (m : Mach) : Int :=
  (((if m.ctl.align then m.align.ticks else m.ctl.tickCount.toNat) + 1) * m.cfg.machine.s * m.cfg.machine.pitch * 256 : Nat)

/-- When pos(t) came to where it is: the crossing of a position in holdover, else the stamp of the last edge, the only place where pos(t)
reaches a whole count (R114, R117, R121). -/
def reachedAt (m : Mach) (p : Int) : LTime :=
  match holdover m (master m), crossing m p, (encOf m (master m)).last with
  | some _, some t, _ => timeOfFine t
  | none, _, some (_, te) => te
  | _, _, _ => m.time.now

/-- H at or beyond the next tick's position: that tick is due from then on (R119, R121). -/
def noteReached (m : Mach) : Mach :=
  if m.trig.tickAt.isNone && decide (tickPos m ≤ m.trig.high) then setTrig m (fun g => { g with tickAt := some (reachedAt m (tickPos m)) })
  else m

/-- The high-water position follows pos(t); a backward excursion of more than one count is counted once (R119). -/
def advanceHigh (m : Mach) : Mach :=
  if !ticking m && !m.ctl.align then m
  else
    let p := relPos m (fine m.time.now)
    if p ≥ m.trig.high then noteReached (setTrig m (fun g => { g with high := p, backward := false }))
    else if m.trig.high - p > 256 && !m.trig.backward then
      inc (setTrig m (fun g => { g with backward := true })) F.ENC_TRIG_STAT_REVERSALS 0
    else m

/-- What time alone has done to the master before a command acts: its validity, and H by pos(t) up to now (R117, R119). -/
def refresh (m : Mach) : Mach := advanceHigh (masterCheck m (master m))

/-- The local time of the tick that is due, if one is: in encoder mode once H has passed its position, in free-running mode one period
after the tick before (R9, R121, R124). -/
def tickDue (m : Mach) : Option LTime :=
  if freeRun m then
    let t := shiftBy ((m.cfg.machine.periodNs : Int) * 2 ^ 40) m.trig.t0
    if atOrAfter m.time.now t then some t else none
  else m.trig.tickAt

/-- A counting edge or good word: the count, its stamp, and the window (R113). -/
def countTo (m : Mach) (ch : Nat) (c : BitVec 48) (t : LTime) : Mach :=
  let w := 2 ^ (encCfg m ch).spdWinLog2
  setEnc m ch (fun e => { e with count := c, last := some (c, t), still := false,
                                 hist := ((c, fine t) :: e.hist).take (w + 1) })

/-- After anything that moved a count: validity and high water. -/
def afterCount (m : Mach) (ch : Nat) : Mach :=
  let m := masterCheck m ch
  if ch = master m then advanceHigh m else m

/-- A count stepped by an amount in the channel's direction (R107, R109). -/
def stepped (m : Mach) (ch : Nat) (d : Int) : BitVec 48 :=
  (encOf m ch).count + BitVec.ofInt 48 (if (encCfg m ch).invert then -d else d)

/-- The edge filter of R105: `run` consecutive samples, one every 2 ns up to now, agree on the new level. It is accepted once they are
FILT + 1, and stamped at the first of them. -/
def filtered (m : Mach) (ch run : Nat) : Option LTime :=
  if (encCfg m ch).filt + 1 ≤ run then some (shiftBy (-(((run - 1) * 2 : Nat) : Int) * 2 ^ 40) m.time.now) else none

/-- ENCODER_EDGE (R105, R107): new levels of A and B in one sample, and how many samples agree on them. -/
def encoderEdge (ch : Nat) (a b : Bool) (run : Nat) (m : Mach) : Mach :=
  let e := encOf m ch
  match filtered m ch run with
  | none => m
  | some t =>
  if !e.started || (encCfg m ch).mode ≠ 1 || (a == e.lvA && b == e.lvB) then m
  else if a != e.lvA && b != e.lvB then
    let m := refresh m
    let m := setEnc m ch (fun e => { e with lvA := a, lvB := b, illegal := t :: illegalNow m e })
    afterCount (raiseCount m F.ENC_EVENT_ILLEGAL F.ENC_ERRCNT_ILLEGAL ch) ch
  else
    let fwd := if a != e.lvA then a != b else a == b
    let m := refresh m
    let c := stepped m ch (if fwd then 1 else -1)
    afterCount (countTo (setEnc m ch (fun e => { e with lvA := a, lvB := b })) ch c t) ch

/-- Latch the count at an index or reference (R108, R109). -/
def latchRef (m : Mach) (ch : Nat) : Mach :=
  let c := (encOf m ch).count
  wr (setEnc m ch (fun e => { e with lastRef := some c })) F.ENC_REF_REF_LO ch (c.toNat % 2 ^ 32)

/-- The count moved by other than REF_COUNT since the last reference; REF_COUNT 0 checks nothing (R108, R109). -/
def refWrong (m : Mach) (ch : Nat) : Bool :=
  let e := encOf m ch
  let n := (encCfg m ch).refCount
  match e.lastRef with
  | none => false
  | some r => n != 0 && decide ((cdiff e.count r).natAbs ≠ n)

/-- INDEX (R105, R108): a rising edge on Z that `run` samples agree on, an index when A and B are both high. -/
def index (ch run : Nat) (m : Mach) : Mach :=
  let e := encOf m ch
  let c := encCfg m ch
  if (filtered m ch run).isNone || !e.started || c.mode ≠ 1 || !(e.lvA && e.lvB) then m
  else if c.zmode = 2 && !refSeen e then
    let m := refresh m
    let d := e.count
    let m := setEnc m ch (fun e => { e with count := 0, last := e.last.map (fun x => (x.1 - d, x.2)),
                                            hist := e.hist.map (fun x => (x.1 - d, x.2)) })
    afterCount (latchRef m ch) ch
  else
    let wrong := c.zmode ≠ 0 && refWrong m ch
    let m := if wrong then raiseCount m F.ENC_EVENT_REF_ERR F.ENC_ERRCNT_REF_ERR ch else m
    afterCount (latchRef m ch) ch

/-- Is this tooth the reference? The interval to the previous tooth against the mean of the two before it (R109). Before two intervals are
known there is no mean: the tooth is taken as no reference (assumption 101). -/
def toothRef (mode : Nat) (now : LTime) (teeth : List LTime) : Bool :=
  match teeth with
  | t1 :: t2 :: t3 :: _ =>
    let i := tdiff now t1
    let two := tdiff t1 t3
    let _ := t2
    if mode = 2 then decide (4 * i ≥ 3 * two) else decide (4 * i ≤ two)
  | _ => false

/-- A counting tooth whose interval to the one before holds a reference: the interval is kept out of the speed window by moving the older
edges over it (R109, R113). -/
def countOver (m : Mach) (ch : Nat) (c : BitVec 48) (now : LTime) : Mach :=
  let e := encOf m ch
  let dc := c - e.count
  let dt := (e.last.map (fun x => tdiff now x.2)).getD 0
  countTo (setEnc m ch (fun e => { e with hist := (e.hist.drop 1).map (fun x => (x.1 + dc, x.2 + dt)) })) ch c now

/-- TOOTH (R105, R109): a rising edge on A in a pulse mode that `run` samples agree on. An extra tooth does not count; the interval between
the counting teeth on its two sides is the one that holds the reference (assumption 101). -/
def tooth (ch run : Nat) (m : Mach) : Mach :=
  let e := encOf m ch
  let mode := (encCfg m ch).mode
  match filtered m ch run with
  | none => m
  | some now =>
  if !e.started || !(mode = 2 || mode = 3) then m
  else
    let m := refresh m
    let ref := toothRef mode now e.teeth
    let m := setEnc m ch (fun e => { e with teeth := (now :: e.teeth).take 4, refGap := ref && mode == 3 })
    let m :=
      if !ref then (if e.refGap then countOver m ch (stepped m ch 1) now else countTo m ch (stepped m ch 1) now)
      else if mode = 2 then countOver m ch (stepped m ch 2) now
      else m
    let m :=
      if ref then
        let wrong := refWrong m ch
        let m := if wrong then raiseCount m F.ENC_EVENT_REF_ERR F.ENC_ERRCNT_REF_ERR ch else m
        latchRef (setEnc m ch (fun e => { e with refErrs := (wrong :: e.refErrs).take 2 })) ch
      else m
    afterCount m ch

/-- The channel runs in an SSI mode. -/
def ssiMode (m : Mach) (ch : Nat) : Bool := (encOf m ch).started && ((encCfg m ch).mode == 4 || (encCfg m ch).mode == 5)

/-- A bad word: its flags, the count of bad words, validity (R111, R116). -/
def badWord (m : Mach) (ch : Nat) (timeout crc errBit : Bool) : Mach :=
  let m := raiseIf timeout (refresh m) F.ENC_EVENT_TIMEOUT ch
  let m := raiseIf crc m F.ENC_EVENT_CRC ch
  let m := raiseIf errBit m F.ENC_EVENT_ERR_BIT ch
  let m := inc (setEnc m ch (fun e => { e with ssiRead := none, ssiBad := e.ssiBad + 1 })) F.ENC_ERRCNT_SSI_ERR ch
  afterCount m ch

/-- The next word of a channel is due: none is being read, and PERIOD_US has passed since the last one began (R110). -/
def ssiDue (m : Mach) (ch : Nat) : Bool :=
  let e := encOf m ch
  e.ssiRead.isNone && !e.ssiFrom.any (fun t => lessSince m.time.now t ((encCfg m ch).refCount * 1000))

/-- SSI_READ_START (R110): the clock pulses of one word go out, once every PERIOD_US; A must be idle-high (R111). -/
def ssiReadStart (ch : Nat) (dataHigh : Bool) (m : Mach) : Mach :=
  if !ssiMode m ch || !ssiDue m ch then m
  else
    let m := emit (setEnc m ch (fun e => { e with ssiRead := some m.time.now, ssiFrom := some m.time.now })) (.ssiClock ch ((encCfg m ch).bits + 8))
    if dataHigh then m else badWord m ch true false false

def execSsiReadStart (ch : Fin 4) (dataHigh : Bool) (s : State) : Host.Outcome State Fault Refusal := s.run (ssiReadStart ch dataHigh)

/-- CRC-6 of R110, most significant bit first. -/
def crc6 : List Bool → Nat → Nat
  | [], c => c
  | b :: bs, c =>
    let top := bitOf c 5 != b
    crc6 bs (((c * 2) % 64) ^^^ (if top then 3 else 0))

/-- The `n` low bits of a number, most significant first. -/
def msbBits : Nat → Nat → List Bool
  | 0, _ => []
  | n + 1, v => bitOf v n :: msbBits n v

/-- Gray code to binary (R104, SSI_GRAY). -/
def grayToBin : Nat → Nat → Nat
  | 0, g => g
  | n + 1, g => g ^^^ (grayToBin n (g / 2))

/-- SSI_WORD (R111): a complete word is checked and, if good, moves the count by the signed difference of the positions, whatever INVERT
says (assumption 101). -/
def ssiWord (ch : Nat) (pos : BitVec 40) (err : Bool) (crc : BitVec 6) (m : Mach) : Mach :=
  let e := encOf m ch
  let c := encCfg m ch
  match e.ssiRead with
  | none => m
  | some t =>
    let raw := pos.toNat % 2 ^ c.bits
    let crcBad := crc6 (msbBits c.bits raw ++ [err]) 0 != crc.toNat
    if crcBad || err then badWord m ch false crcBad err
    else
      let m := refresh m
      let p := if c.mode = 5 then grayToBin 40 raw else raw
      let count := match e.ssiPrev with
        | none => BitVec.ofNat 48 p
        | some q => e.count + BitVec.ofInt 48 (sext c.bits (twos c.bits ((p : Int) - q)))
      let m := setEnc m ch (fun e => { e with ssiRead := none, ssiBad := 0, ssiPrev := some p })
      afterCount (countTo m ch count t) ch

/-- ns from the latching clock edge of a word until A must be high again: 20 µs after the last of its pulses (R110, R111). -/
def ssiLimit (m : Mach) (ch : Nat) : Nat :=
  let c := encCfg m ch
  (c.bits + 7) * 10000 / max 1 c.clk100k + 20000

/-- SSI_TIMEOUT (R111): A has not returned high within 20 µs of the last clock pulse. -/
def ssiTimeout (ch : Nat) (m : Mach) : Mach :=
  match (encOf m ch).ssiRead with
  | none => m
  | some t => if lessSince m.time.now t (ssiLimit m ch) then m else badWord m ch true false false

def execSsiTimeout (ch : Fin 4) (s : State) : Host.Outcome State Fault Refusal := s.run (ssiTimeout ch)

/-- LOSS_OF_SIGNAL (R106): not in 24 V single-ended mode. -/
def lossOfSignal (ch : Nat) (m : Mach) : Mach :=
  if (encOf m ch).started && (encCfg m ch).mode != 0 && !(encCfg m ch).se24 then
    masterCheck (raise (setEnc (refresh m) ch (fun e => { e with los := true, losAt := m.time.now })) F.ENC_EVENT_LOS ch) ch
  else m

def execLossOfSignal (ch : Fin 4) (s : State) : Host.Outcome State Fault Refusal := s.run (lossOfSignal ch)

/-- LOS_CLEAR (R106): 1 ms has passed in which no further loss was detected. -/
def losClear (ch : Nat) (m : Mach) : Mach :=
  if (encOf m ch).los && !lessSince m.time.now (encOf m ch).losAt 1000000 then
    afterCount (setEnc (refresh m) ch (fun e => { e with los := false })) ch
  else m

/-- No edge has come for STILL_MS (R113); of a channel that has had no edge, at once (assumption 114). -/
def stillDue (m : Mach) (ch : Nat) : Bool :=
  !(encOf m ch).last.any (fun x => lessSince m.time.now x.2 ((encCfg m ch).stillMs * 1000000))

/-- STANDSTILL (R113): no edge for STILL_MS; the window restarts. -/
def standstill (ch : Nat) (m : Mach) : Mach :=
  if (encOf m ch).started && (encCfg m ch).mode != 0 && stillDue m ch then setEnc (refresh m) ch (fun e => { e with still := true, hist := [] }) else m

def execStandstill (ch : Fin 4) (s : State) : Host.Outcome State Fault Refusal := s.run (standstill ch)

/-- ENC_SPEED: 16 times the estimate in force, truncated toward zero and saturated (R125). -/
def speedReg (m : Mach) (ch : Nat) : Int :=
  let v := vAt m ch (fine m.time.now)
  clampI (-(2 : Int) ^ 31) ((2 : Int) ^ 31 - 1) ((v.dc * 16 * (giga * 65536 : Nat)).tdiv v.dt)

end Sys2Proof.Machine
end

