-- ==== Sys2Proof/Machine/Eject.lean ====
section
/-!
DEFINITION. Machine/Eject.lean: decisions, the valve map, fire times, the Awn bus, direct outputs and the field I/O (R51 to R61, R368 to
R391), and their commands.
-/

namespace Sys2Proof.Machine

/-- An object record's 64 bytes (R230). -/
def objBytes (o : ObjRec) : List Byte :=
  leBytes 6 o.tick.toNat ++ leBytes 2 o.index ++ leBytes 1 (o.port + 16 * o.group) ++ leBytes 1 o.cls
    ++ leBytes 2 o.flags.toNat ++ leBytes 6 o.leadCount.toNat ++ leBytes 6 o.trailCount.toNat
    ++ leBytes 4 o.firstLine.toNat ++ leBytes 4 o.lastLine.toNat ++ leBytes 2 o.colMin ++ leBytes 2 o.colMax
    ++ leBytes 4 o.centroid ++ leBytes 4 o.area ++ leBytes 2 o.batch ++ leBytes 2 o.slot
    ++ leBytes 2 o.cropH ++ leBytes 2 o.cropW ++ leBytes 12 0

/-- First valve fired, and the number of adjacent valves fired from it (R371). -/
def firedRun (vs : List Nat) : Nat × Nat :=
  match vs.min? with
  | none => (0xFFFF, 0)
  | some v => (v, ((List.range 256).takeWhile (fun i => vs.contains (v + i))).length)

/-- A decision record's 32 bytes (R371). -/
def decBytes (d : Decision) : List Byte :=
  let (v, n) := firedRun d.fired
  leBytes 6 d.obj.tick.toNat ++ leBytes 2 d.obj.index ++ leBytes 1 d.obj.port ++ leBytes 1 d.action
    ++ leBytes 1 d.status ++ leBytes 1 d.flags ++ leBytes 2 d.result ++ leBytes 2 v ++ leBytes 1 n ++ leBytes 3 0
    ++ leBytes 4 (d.onAt.getD 0) ++ leBytes 4 d.dur ++ leBytes 4 0

/-- A decision is recorded (R397). -/
def recordable (m : Mach) (d : Decision) : Bool :=
  m.cfg.machine.recordAct.getLsbD d.action
    || (m.cfg.machine.recordErr && (d.status == 4 || decide (d.status ≥ 0x20)))

/-- A decision becomes final: its reject record, if it gets one, is buffered (R371, R397). The program and the context are those that the
object had in its Prepare stage. -/
def finalize (m : Mach) (d : Decision) : Mach :=
  let m := setEject m (fun e => { e with decisions := e.decisions.filter (fun x => x.id != d.id) })
  if recordable m d then
    putReject m (objBytes d.obj ++ decBytes d) d.obj.context d.obj.conf d.obj.roi
      (leBytes 4 d.obj.ispSet.toNat ++ leBytes 4 d.obj.chaffSet.toNat ++ slice d.obj.prog 0 4)
  else m

/-- Change a decision by number. -/
def modDec (m : Mach) (ids : List Nat) (f : Decision → Decision) : Mach :=
  setEject m (fun e => { e with decisions := e.decisions.map (fun d => if ids.contains d.id then f d else d) })

/-- The decisions of a list that no interval serves any more become final, in order. -/
def finalizeDone (m : Mach) (ids : List Nat) : Mach :=
  forEach (m.eject.decisions.filter (fun d => ids.contains d.id)) m (fun m d =>
    if m.eject.fires.any (fun f => f.decs.contains d.id) then m else finalize m d)

/-- Take an interval away. -/
def removeFire (m : Mach) (id : Nat) : Mach :=
  setEject m (fun e => { e with fires := e.fires.filter (fun f => f.id != id) })

/-- Set bit `i` of a number. -/
def setBit (n i : Nat) : Nat := n ||| (1 <<< i)

/-- An interval's decisions carry DEADLINE_MISSED and a flag; it is gone (R378 to R380, R81). -/
def missFire (m : Mach) (f : Fire) (flagBit : Nat) : Mach :=
  let m := modDec (removeFire m f.id) f.decs (fun d => { d with status := 0x30, flags := setBit d.flags flagBit })
  finalizeDone m f.decs

/-- An interval is dropped with DROPPED (R378, R379). -/
def dropFire (m : Mach) (f : Fire) : Mach :=
  missFire (raiseCount m F.EJC_EVENT_DROPPED F.EJC_CNT0_DROPPED 0) f 1

/-- An interval is dropped with INHIBITED (R380). -/
def inhibitFire (m : Mach) (f : Fire) : Mach :=
  missFire (raiseCount m F.EJC_EVENT_INHIBITED F.EJC_CNT1_INHIBITED 0) f 2

/-- A valve's configuration (R375). -/
def valveCfg (m : Mach) (v : Nat) : ValveCfg := tget {} m.cfg.valve.valves v

/-- L_ON in use (R389; R390 for a direct output). -/
def lOnOf (m : Mach) (v : Nat) : Nat :=
  if v ≥ 2048 then (valveCfg m v).lOnSeed + 4000
  else match tget none m.eject.lOn v with
    | some (l, _) => l
    | none => (valveCfg m v).lOnSeed

/-- L_OFF (R375, R390). -/
def lOffOf (m : Mach) (v : Nat) : Nat := (valveCfg m v).lOff + (if v ≥ 2048 then 6000 else 0)

/-- A number of ns, in 2^-16 ns. -/
def nsFine (n : Nat) : Int := (n * 65536 : Nat)

/-- Switch-on and switch-off time of an interval as it stands (R377, R378); none while a crossing is unknown (R379). -/
def fireTimes (m : Mach) (f : Fire) : Option (Int × Int) :=
  match f.tOn, f.tOff with
  | some a, some b => some (nearBy m.time.now a, nearBy m.time.now b)
  | _, _ =>
    match crossing m f.posOn, crossing m f.posOff with
    | some c1, some c2 =>
      let on := (f.tOn.map (nearBy m.time.now)).getD (c1 - nsFine (lOnOf m f.valve))
      some (on, max (c2 - nsFine (lOffOf m f.valve)) (on + nsFine (m.cfg.valve.minOnUs * 1000)))
    | _, _ => none

/-- A position in counts, in 1/256 count from the origin (R113, R118). -/
def relCount (m : Mach) (c : Int) : Int :=
  m.trig.high + sext 56 (twos 56 (c * 256 - m.trig.origin * 256 - m.trig.high))

/-- A valve can be selected: an Awn valve of a line, or a direct output in VALVE mode (R374). -/
def valveUsable (m : Mach) (v : Nat) : Bool :=
  (valveCfg m v).line != 0 && (decide (v < 2048) || (decide (v < 2064) && doMode m (v - 2048) == 1))

/-- The valves an object selects for an action, ascending (R376). -/
def selectValves (m : Mach) (o : ObjRec) (a : Nat) : List Nat :=
  let w := (m.cfg.valve.mapPorts.getD o.port {}).widen
  (m.cfg.valve.valves.filter (fun e =>
    valveUsable m e.1 && e.2.line == a && e.2.port == o.port && decide (e.2.colLo ≤ o.colMax + w)
      && decide (o.colMin ≤ e.2.colHi + w))).map (fun e => e.1)

/-- The action, status, flags and RESULT of an object (R369, R370). -/
def decideObj (m : Mach) (o : ObjRec) : Nat × Nat × Nat × Nat :=
  let mc := m.cfg.machine
  let res := o.result.getD 0xFFFF
  if o.status = 0x40 then (0, 0x40, 0, 0xFFFF)
  else if o.flags.getLsbD 4 then (mc.overflowAct, 0, 0, 0xFFFF)
  else if o.status ≠ 0 then (mc.defaultAct, o.status, 0, 0xFFFF)
  else match o.result, ((ctxOf m o.context).program.bind (fun p => p.decide)) with
    | some r, some d =>
      let chaff := d.chaffAct.getD o.cls 0xFF
      if o.flags.getLsbD 0 then (mc.voidAct, 4, 0, res)
      else if chaff ≠ 0xFF then (chaff, 0, 32, res)
      else if r < d.nclass then (d.classAct.getD r 0, 0, 0, res)
      else (d.noclass, 0, 0, res)
    | _, _ => (mc.defaultAct, 0x30, 0, 0xFFFF)

/-- Add the interval of a decision on a valve; the 65,537th is dropped (R377, R381). -/
def addFire (m : Mach) (d : Decision) (a v : Nat) : Mach :=
  let mp := m.cfg.valve.mapPorts.getD d.obj.port {}
  let dist : Int := mp.dist.getD (a - 1) 0
  let f : Fire := { id := m.eject.nextId, valve := v, decs := [d.id],
                    posOn := relCount m (d.obj.leadCount.toNat + dist - mp.lead),
                    posOff := relCount m (d.obj.trailCount.toNat + dist + mp.trail) }
  if m.eject.fires.length ≥ 65536 then
    modDec (raiseCount m F.EJC_EVENT_DROPPED F.EJC_CNT0_DROPPED 0) [d.id]
      (fun d => { d with status := 0x30, flags := setBit d.flags 1 })
  else setEject m (fun e => { e with fires := e.fires ++ [f], nextId := e.nextId + 1 })

/-- The decisions of a split program are formed on its EJECT_MODULE alone (R373). -/
def formsDecision (m : Mach) (o : ObjRec) : Bool :=
  ((ctxOf m o.context).program).all (fun p => !p.split || p.moduleIndex == p.ejectModule)

/-- The Eject stage for one object: action, valves, intervals (R370 to R377). -/
def ejectObj (m : Mach) (o : ObjRec) : Mach :=
  let (a, st_, fl, r) := decideObj m o
  let vs := if a = 0 then [] else selectValves m o a
  let fl := if a ≠ 0 && vs.isEmpty then setBit fl 4 else fl
  let d : Decision := { id := m.eject.nextId, obj := o, action := a, status := st_, flags := fl, result := r }
  let m := setEject m (fun e => { e with decisions := e.decisions ++ [d], nextId := e.nextId + 1 })
  finalizeDone (forEach vs m (fun m v => addFire m d a v)) [d.id]

/-- A record whose object is never ejected: DEADLINE_MISSED, nothing fired (R184). -/
def abandonObj (m : Mach) (o : ObjRec) : Mach :=
  let d : Decision := { id := m.eject.nextId, obj := o, action := m.cfg.machine.defaultAct, status := 0x30 }
  finalize (setEject m (fun e => { e with nextId := e.nextId + 1 })) d

/-- On leaving RUNNING or DEGRADED every unsent and every unfinished sent command is dropped; the boards are in bus reset
(R61, R379, R386). -/
def dropAllFires (m : Mach) : Mach :=
  let m := forEach m.eject.fires m dropFire
  setEject m (fun e => { e with
    valveOut := 0,
    ports := e.ports.map (fun p => (p.1, { p.2 with
      frames := [], polled := false, nextSeq := 0,
      boards := p.2.boards.map (fun b => (b.1, { b.2 with seen := false, sentNs := none, configDue := none, nextSeq := 0 })) })) })

/-- What a port's DN drivers do (R61, R382). -/
inductive DnDrive where
  | highZ | busReset | frames
  deriving DecidableEq, Repr, Inhabited

/-- High-impedance without the main supply; bus reset outside RUNNING and DEGRADED and in a partial reset; else frames (R61, R81). -/
def dnDrive (m : Mach) (p : Nat) : DnDrive :=
  if !m.ctl.powerGood then .highZ else if !pipelineOn m || (awnOf m p).inReset then .busReset else .frames

/-- The multiple of 10 µs at or before a local time: when the last beacon was due (R384). -/
def beaconTime (t : LTime) : LTime := { t with ns := BitVec.ofNat 30 (t.ns.toNat / 10000 * 10000), frac := 0 }

/-- A port has room for one more FIRE entry in these 10 µs (R381). -/
def fireRoom (m : Mach) (p : Nat) : Bool :=
  (awnOf m p).slot != some (beaconTime m.time.now) || decide ((awnOf m p).entries < 5)

/-- A port has room for a CONFIG frame in these 10 µs: it takes the place of a FIRE frame (R381). -/
def configRoom (m : Mach) (p : Nat) : Bool :=
  (awnOf m p).slot != some (beaconTime m.time.now) || (awnOf m p).entries == 0

/-- A frame takes the room of `n` entries (R381); a CONFIG frame that of a FIRE frame, 5. -/
def takeRoom (m : Mach) (p n : Nat) : Mach :=
  let slot := some (beaconTime m.time.now)
  setAwn m p (fun a => { a with slot := slot, entries := if a.slot = slot then a.entries + n else n })

/-- How far ahead of now a time in 2^-16 ns lies (R85); not above 0 once it has come. -/
def ahead (m : Mach) (t : Int) : Int := smod (t - fine m.time.now)

/-- SEND_AHEAD, of 0.1 ms, in 2^-16 ns (R381). -/
def sendAhead (m : Mach) : Int := nsFine (m.cfg.machine.sendAhead * 100000)

/-- Awn time of a time in 2^-16 ns (R383). -/
def awnTime (t : Int) : Nat := ((t / 65536).toNat / 4) % 2 ^ 32

/-- A downlink frame: TYPE, data, CRC-16 low byte first (R382, R468). -/
def awnFrame (data : List Byte) : List Byte := data ++ leBytes 2 (crc16 0x1021 0xFFFF data)

/-- Earlier interval whose end and another's start overlap or leave a gap below MIN_OFF_US (R377). -/
def touches (m : Mach) (x y : Int × Int) : Bool :=
  let gap := nsFine (m.cfg.valve.minOffUs * 1000)
  decide (x.1 < y.2 + gap) && decide (y.1 < x.2 + gap)

/-- Join unsent intervals of one valve into an interval, as long as one touches (R377). -/
def joinUnsent (m : Mach) : Nat → Fire → Int × Int → Mach × Fire × (Int × Int)
  | 0, f, t => (m, f, t)
  | n + 1, f, t =>
    match m.eject.fires.find? (fun g => g.id != f.id && g.valve == f.valve && !g.sent &&
        (match fireTimes m g with | some u => touches m t u | none => false)) with
    | none => (m, f, t)
    | some g =>
      match fireTimes m g with
      | none => (m, f, t)
      | some u =>
        let m := inc (removeFire m g.id) F.EJC_CNT1_MERGED 0
        let f := { f with decs := f.decs ++ g.decs.filter (fun d => !f.decs.contains d) }
        let m := modDec m f.decs (fun d => { d with flags := setBit d.flags 3 })
        joinUnsent m n f (min t.1 u.1, max t.2 u.2)

/-- 20 µs. -/
def lead20 : Int := nsFine 20000

/-- An interval with one of its valve that is sent already, which it touches: the board joins them where one ends at the ON of the next
(R377, R386). A gap that is over, or that a command can no longer fill, stays. -/
def carryOn (m : Mach) (t u : Int × Int) : Int × Int :=
  if t.1 < u.1 then (t.1, max t.2 u.1)
  else (if t.1 ≤ u.2 then u.2 else min t.1 (max u.2 (fine m.time.now + lead20)), max t.2 u.2)

/-- Sent intervals of the valve that this one touches, in the order of their times (R377). -/
def afterSent (m : Mach) (f : Fire) (t : Int × Int) : Mach × (Int × Int) :=
  let sent := (m.eject.fires.filter (fun g => g.valve == f.valve && g.sent)).filterMap (fun g => (fireTimes m g).map (fun u => (g, u)))
  (isort (fun x y => decide (x.2.1 ≤ y.2.1)) sent).foldl (fun r x =>
    if touches m r.2 x.2 then
      (modDec (inc r.1 F.EJC_CNT1_MERGED 0) (f.decs ++ x.1.decs) (fun d => { d with flags := setBit d.flags 3 }), carryOn m r.2 x.2)
    else r) (m, t)

/-- An interval as it is sent: joined with every other of its valve that it touches (R372, R377). -/
def joined (m : Mach) (f : Fire) (t : Int × Int) : Mach × Fire × (Int × Int) :=
  let r := joinUnsent m m.eject.fires.length f t
  let a := afterSent r.1 r.2.1 r.2.2
  (a.1, r.2.1, a.2)

/-- Fewer than 8 sent intervals of a valve are unfinished (R381). -/
def valveOpen (m : Mach) (v : Nat) : Bool := decide ((m.eject.fires.filter (fun g => g.valve == v && g.sent)).length < 8)

/-- Intervals of adjacent valves on the same board that have the same times once they are joined on their own valves, unsent, ascending
from `v` (R376, R377, R381, R384). -/
def runFrom (m : Mach) (t : Int × Int) : Nat → Nat → Mach × List Fire
  | 0, _ => (m, [])
  | n + 1, v =>
    if v % 32 = 0 || !valveOpen m v then (m, [])
    else match (m.eject.fires.filter (fun g => g.valve == v && !g.sent)).findSome? (fun g =>
        (fireTimes m g).bind (fun u => let r := joined m g u; if r.2.2 == t then some r else none)) with
      | some r =>
        let s := runFrom r.1 t n (v + 1)
        (s.1, r.2.1 :: s.2)
      | none => (m, [])

/-- Mark an interval sent with its times; its decisions record the valve, and ON_AT and DUR of their first switch-on (R371, R377). What is
left of a long on time is a chain of the interval that leads its run; a direct output needs none (R388). -/
def markSent (m : Mach) (f : Fire) (t : Int × Int) (run : Nat) : Mach :=
  let units := ((t.2 - t.1) / (4 * 65536)).toNat
  let g := { f with sent := true, tOn := some t.1, tOff := some t.2, run := run,
                    chain := if run = 0 || f.valve ≥ 2048 then 0 else units - 0xFFFFFF, chainOn := t.1 + (0xFFFFFF * 4 * 65536 : Nat) }
  let m := setEject m (fun e => { e with fires := e.fires.map (fun x => if x.id = f.id then g else x) })
  let first := fun (d : Decision) => d.onAt.all (fun o => decide (sext 32 (twos 32 ((awnTime t.1 : Int) - o)) < 0))
  modDec m f.decs (fun d => { d with
    fired := d.fired ++ [f.valve],
    onAt := if first d then some (awnTime t.1) else d.onAt,
    dur := if first d then units else d.dur })

/-- Send a FIRE frame of one entry on an Awn port and keep it (R384, R387). -/
def sendFire (m : Mach) (v run : Nat) (on : Int) (units : Nat) : Mach :=
  let p := v / 256
  let seq := (awnOf m p).nextSeq
  let data := [0x02, seq, 1] ++ leBytes 1 (v % 256) ++ leBytes 1 run ++ leBytes 4 (awnTime on) ++ leBytes 3 units
  let fr := awnFrame data
  emit (setAwn (takeRoom m p 1) p (fun a => { a with nextSeq := seq + 1, frames := a.frames ++ [{ seq := seq, data := fr, first := on, last := on }] }))
    (.awn p fr)

/-- An interval may be sent: fewer than 8 sent intervals of its valve are unfinished, and its Awn port has room (R381). -/
def mayFire (m : Mach) (f : Fire) : Bool :=
  valveOpen m f.valve && (decide (f.valve ≥ 2048) || fireRoom m (f.valve / 256))

/-- Send an interval: join, group the run, send (R376, R377, R381, R388). -/
def fireNow (m : Mach) (f : Fire) (t : Int × Int) : Mach :=
  let (m, f, t) := joined m f t
  let (m, more) := if f.valve ≥ 2048 then (m, []) else runFrom m t 31 (f.valve + 1)
  let m := forEach more (markSent m f t (1 + more.length)) (fun m g => markSent m g t 0)
  let units := ((t.2 - t.1) / (4 * 65536)).toNat
  if f.valve ≥ 2048 || units = 0 then m
  else sendFire m f.valve (1 + more.length) t.1 (min units 0xFFFFFF)

/-- The next entry of a chain (R388). -/
def fireChain (m : Mach) (f : Fire) : Mach :=
  let n := min f.chain 0xFFFFFF
  let m := setEject m (fun e => { e with fires := e.fires.map (fun x =>
    if x.id = f.id then { x with chain := f.chain - n, chainOn := f.chainOn + (n * 4 * 65536 : Nat) } else x) })
  sendFire m f.valve f.run f.chainOn n

/-- The next entry of a chain, whose send time falls while the inhibit input is OFF, is dropped (R380, R388). -/
def chainInhibited (m : Mach) (f : Fire) : Mach :=
  let n := min f.chain 0xFFFFFF
  let m := setEject (raiseCount m F.EJC_EVENT_INHIBITED F.EJC_CNT1_INHIBITED 0) (fun e => { e with fires := e.fires.map (fun x =>
    if x.id = f.id then { x with chain := f.chain - n, chainOn := f.chainOn + (n * 4 * 65536 : Nat) } else x) })
  modDec m f.decs (fun d => { d with status := 0x30, flags := setBit d.flags 2 })

/-- A command not sent before t_on − 20 µs moves later or is dropped (R378). It counts as late once. -/
def fireLate (m : Mach) (f : Fire) (t : Int × Int) : Mach × Option (Fire × (Int × Int)) :=
  let now := fine m.time.now
  if ahead m (t.2 - nsFine (m.cfg.valve.minOnUs * 1000)) > lead20 then
    let m := if f.tOn.isSome then m else raiseCount m F.EJC_EVENT_LATE_FIRE F.EJC_CNT0_LATE_FIRE 0
    let f := { f with tOn := some (now + lead20) }
    let m := setEject m (fun e => { e with fires := e.fires.map (fun x => if x.id = f.id then f else x) })
    (modDec m f.decs (fun d => { d with flags := setBit d.flags 0 }), some (f, (now + lead20, t.2)))
  else (dropFire m f, none)

/-- The interval's Awn port is in partial reset (R81). -/
def portInReset (m : Mach) (v : Nat) : Bool := decide (v < 2048) && (awnOf m (v / 256)).inReset

/-- FIRE_SEND (R377, R388): the command, or the next entry of its chain, leaves at t_on − SEND_AHEAD, when its port can take it. -/
def fireSend (id : Nat) (m : Mach) : Mach :=
  match m.eject.fires.find? (fun f => f.id == id) with
  | none => m
  | some f =>
    if !pipelineOn m || !m.ctl.powerGood then m
    else if f.sent then
      (if f.chain = 0 || decide (ahead m f.chainOn > sendAhead m) then m
        else if inhibited m then chainInhibited m f
        else if fireRoom m (f.valve / 256) then fireChain m f else m)
    else match fireTimes m f with
    | none => m
    | some t =>
      if ahead m t.1 > sendAhead m then m
      else if inhibited m then inhibitFire m f
      else if portInReset m f.valve then missFire m f 1
      else if !mayFire m f then m
      else if ahead m t.1 ≤ lead20 then
        match fireLate m f t with
        | (m, some (f, t)) => fireNow m f t
        | (m, none) => m
      else fireNow m f t

def execFireSend (id : Nat) (s : State) : Host.Outcome State Fault Refusal := s.run (fireSend id)

/-- FIRE_DEADLINE (R378): a command unsent at t_on − 20 µs. -/
def fireDeadline (id : Nat) (m : Mach) : Mach :=
  match m.eject.fires.find? (fun f => f.id == id) with
  | none => m
  | some f =>
    if f.sent || !pipelineOn m then m
    else match fireTimes m f with
    | none => m
    | some t => if ahead m t.1 ≤ lead20 then (fireLate m f t).1 else m

def execFireDeadline (id : Nat) (s : State) : Host.Outcome State Fault Refusal := s.run (fireDeadline id)

/-- The end of a sent interval has come. -/
def fireOver (m : Mach) (f : Fire) : Bool :=
  f.sent && (match f.tOff with
    | some b => decide (ahead m b ≤ 0)
    | none => false)

/-- FIRE_INTERVAL_END (R371): a sent interval ends; a decision without further intervals is final. -/
def fireIntervalEnd (id : Nat) (m : Mach) : Mach :=
  match m.eject.fires.find? (fun f => f.id == id) with
  | none => m
  | some f => if fireOver m f then finalizeDone (removeFire m id) f.decs else m

def execFireIntervalEnd (id : Nat) (s : State) : Host.Outcome State Fault Refusal := s.run (fireIntervalEnd id)

/-- A sent interval of a valve covers the present time. -/
def firingNow (m : Mach) (v : Nat) : Bool :=
  m.eject.fires.any (fun f => f.valve == v && f.sent && !fireOver m f && (match f.tOn with
    | some a => decide (ahead m a ≤ 0)
    | none => false))

/-- DIRECT_OUTPUT_SWITCH (R390): an output in VALVE mode switches on while a sent interval covers the present time, off while none
does. -/
def directOutputSwitch (n : Nat) (on : Bool) (m : Mach) : Mach :=
  if pipelineOn m && doMode m n == 1 && firingNow m (2048 + n) == on then
    setEject m (fun e => { e with valveOut := if on then e.valveOut ||| (1#16 <<< n) else e.valveOut &&& ~~~ (1#16 <<< n) })
  else m

def execDirectOutputSwitch (n : Fin 16) (on : Bool) (s : State) : Host.Outcome State Fault Refusal :=
  s.run (directOutputSwitch n on)

/-- The next fitted board after one (R385). -/
def nextBoard (mask last : Nat) : Option Nat :=
  ((List.range 8).map (fun i => (last + 1 + i) % 8)).find? (fun b => bitOf mask b)

/-- A CONFIG that waits leaves when its port has room (R381, R385). -/
def sendConfig (m : Mach) (p : Nat) : Mach :=
  match (List.range 8).findSome? (fun b => (tget {} (awnOf m p).boards b).configDue.map (fun d => (b, d))) with
  | none => m
  | some x =>
    if !configRoom m p then m
    else emit (setAwn (takeRoom m p 5) p (fun a => { a with
        boards := tmod {} a.boards x.1 (fun y => { y with sentNs := some x.2, configDue := none }) }))
      (.awn p (awnFrame ([0x03] ++ leBytes 1 x.1 ++ leBytes 2 x.2 ++ leBytes 2 m.cfg.valve.maxOnMs)))

/-- BEACON on one port: an unanswered poll counts as missed; the next fitted board is polled (R384, R385). -/
def beaconPort (m : Mach) (p : Nat) : Mach :=
  let a := awnOf m p
  if dnDrive m p ≠ .frames then m
  else
    let m :=
      if a.polled then
        inc (setAwn m p (fun a => { a with boards := tmod {} a.boards a.lastPoll (fun b => { b with missed := b.missed + 1 }) }))
          F.EJC_AWN_CNT_MISSED_POLLS p
      else m
    let next := nextBoard (boardMask m p) a.lastPoll
    let poll := match next with | some b => b + 8 | none => 0
    let m := setAwn m p (fun a => { a with polled := next.isSome, lastPoll := next.getD a.lastPoll })
    sendConfig (emit m (.awn p (awnFrame ([0x01] ++ leBytes 4 (awnTime (fine (beaconTime m.time.now))) ++ leBytes 1 poll)))) p

/-- BEACON (R384): once for each local time whose NS is a multiple of 10,000. Outside RUNNING and DEGRADED the downlinks send bus reset
instead (R61). -/
def beacon (m : Mach) : Mach :=
  let t := beaconTime m.time.now
  if m.eject.beaconAt = some t then m
  else forEach (List.range 8) (setEject m (fun e => { e with beaconAt := some t })) beaconPort

def execBeacon (s : State) : Host.Outcome State Fault Refusal := s.run beacon

/-- A board fitted on a port, by number. -/
def fitted (m : Mach) (p b : Nat) : Bool := decide (b < 8) && bitOf (boardMask m p) b

/-- A board's delay: CONFIG after its first STATUS and on a change above 8 ns (R385). -/
def configBoard (m : Mach) (p b delay : Nat) : Mach :=
  let old := (tget {} (awnOf m p).boards b).sentNs
  let send := match old with | none => true | some d => decide (delay > d + 8 || d > delay + 8)
  if send then sendConfig (setAwn m p (fun a => { a with boards := tmod {} a.boards b (fun x => { x with configDue := some delay }) })) p
  else m

/-- An OPEN report moves L_ON, or counts as an outlier (R389). -/
def learn (m : Mach) (v open_ : Nat) : Mach :=
  let c := valveCfg m v
  let x := open_ * 4 + m.cfg.valve.airNs.getD (c.line - 1) 0
  let l := lOnOf m v
  let n := match tget none m.eject.lOn v with | some (_, n) => n | none => 0
  if !m.cfg.machine.learn || open_ = 0 || c.line = 0 then m
  else if ((x : Int) - c.lOnSeed).natAbs * 4 ≤ c.lOnSeed then
    setEject m (fun e => { e with lOn := tset none e.lOn v (some ((l + divNear ((x : Int) - l) 16).toNat, min 255 (n + 1))) })
  else raiseCount m F.EJC_EVENT_LAT_OUTLIER F.EJC_CNT1_LAT_OUTLIER 0

/-- A frame is needed by some fitted board, and not past (R387). -/
def frameKept (m : Mach) (p : Nat) (k : KeptFrame) : Bool :=
  decide (ahead m k.last ≥ 0) && (List.range 8).any (fun b =>
    fitted m p b && decide (0 ≤ (k.seq - (tget {} (awnOf m p).boards b).nextSeq).toInt))

/-- Frames that a board still lacks are resent while their earliest ON is more than 20 µs ahead (R387), as the port has room (R381). -/
def resend (m : Mach) (p b : Nat) : Mach :=
  let m := setAwn m p (fun a => { a with frames := a.frames.filter (frameKept m p) })
  let next := (tget {} (awnOf m p).boards b).nextSeq
  forEach ((awnOf m p).frames.filter (fun k =>
      decide (0 ≤ (k.seq - next).toInt) && decide (ahead m k.first > lead20))) m
    (fun m k => if fireRoom m p then inc (emit (takeRoom m p 1) (.awn p k.data)) F.EJC_AWN_CNT_RESENT p else m)

/-- AWN_STATUS (R385): a STATUS frame of a polled board. A wrong CRC, an unknown TYPE or a board not fitted is ignored and
counted; outside RUNNING and DEGRADED it is ignored (R78). -/
def awnStatus (p : Nat) (frame : List Byte) (roundTripNs : Nat) (m : Mach) : Mach :=
  if dnDrive m p ≠ .frames then m
  else
    let body := frame.take 8
    let b := leAt frame 1 1
    if frame.length ≠ 10 || leAt frame 0 1 ≠ 0x81 || leAt frame 8 2 ≠ crc16 0x1021 0xFFFF body || !fitted m p b then
      inc m F.EJC_AWN_CNT_CRC_ERR p
    else
      let fl := leAt frame 2 1
      let m := setAwn m p (fun a => { a with
        polled := if a.lastPoll = b then false else a.polled,
        boards := tmod {} a.boards b (fun x => { x with
          seen := true, missed := 0, lost := false, flags := fl, nextSeq := BitVec.ofNat 8 (leAt frame 3 1) }) })
      let m := configBoard m p b ((roundTripNs - 1000) / 2)
      let m := raiseIf (decide (fl % 32 ≠ 0)) m F.EJC_EVENT_BOARD_FAULT 0
      resend (learn m (p * 256 + leAt frame 4 1) (leAt frame 5 3)) p b

def execAwnStatus (port : Fin 8) (frame : List Byte) (roundTripNs : Nat) (s : State) : Host.Outcome State Fault Refusal :=
  s.run (awnStatus port frame roundTripNs)

/-- BOARD_LOST (R385): a fitted board has missed 100 consecutive polls; its port is out of service. -/
def boardLost (p b : Nat) (m : Mach) : Mach :=
  let x := tget {} (awnOf m p).boards b
  if fitted m p b && decide (x.missed ≥ 100) && !x.lost then
    raise (setAwn m p (fun a => { a with boards := tmod {} a.boards b (fun x => { x with lost := true, seen := false }) }))
      F.EJC_EVENT_BOARD_LOST 0
  else m

def execBoardLost (port : Fin 8) (board : Fin 8) (s : State) : Host.Outcome State Fault Refusal := s.run (boardLost port board)

/-- The state of a port with boards (R22, R61, R385): 0 RESET, 1 SYNC, 2 UP, 3 OUT_OF_SERVICE. -/
def awnState (m : Mach) (p : Nat) : Nat :=
  let a := awnOf m p
  if dnDrive m p ≠ .frames then 0
  else if a.boards.any (fun b => b.2.lost) then 3
  else if (List.range 8).all (fun b => !fitted m p b || (tget {} a.boards b).seen) then 2 else 1

/-- One input at the end of a sampling window: its state, a wire break, undetermined (R55). An undetermined sample holds the whole result
before it, a wire break with it. -/
def classify (wb old oldWb : Bool) (d : DiSample) : Bool × Bool × Bool :=
  if d.mv ≥ 11000 then (true, false, false)
  else if d.mv ≤ 5000 && d.ua ≥ 500 then (false, false, false)
  else if d.mv ≤ 5000 && d.ua < 300 then (false, wb, false)
  else (old, oldWb, true)

/-- The end of a sampling window, stamped with the local time (R90): states, undetermined samples, the common fault (R55, R56, R391). -/
def sampleInputs (samples : List DiSample) (overload : Bool) (m : Mach) : Mach :=
  let old := rd m F.FIO_DI_STATE 0
  let rs := (List.range 24).map (fun n => classify (m.cfg.early.wbEn.getLsbD n) (bitOf old n) (m.eject.wireBreak.getLsbD n) (samples.getD n {}))
  let m := wr m F.FIO_DI_STATE 0 (ofBits (rs.map (fun r => r.1)))
  let m := incBy m F.FIO_CNT_UNDETERMINED 0 (rs.filter (fun r => r.2.2)).length
  let bad := rs.any (fun r => r.2.1) || m.eject.limitNew || m.eject.fieldBad || overload
  let m := setEject m (fun e => { e with limitNew := false, diAt := some m.time.now, wireBreak := BitVec.ofNat 24 (ofBits (rs.map (fun r => r.2.1))) })
  if bad then raiseCount m F.FIO_EVENT_FAULT F.FIO_CNT_FAULTS 0 else m

/-- 24V_F found out of range by a module that has power (R51): the fault bit and the event. -/
def fieldFault (m : Mach) : Mach := raise (raise m F.FIO_EVENT_FAULT 0) F.FIO_EVENT_SUPPLY 0

/-- FIELD_SUPPLY_FAULT (R51, R52): the outputs are off; the fault bit is set; the module state does not change. A module without main
power finds it at its next power-good. -/
def fieldSupplyFault (m : Mach) : Mach :=
  let m := setEject m (fun e => { e with fieldBad := true })
  if alive m then fieldFault m else m

def execFieldSupplyFault (s : State) : Host.Outcome State Fault Refusal := s.run fieldSupplyFault

/-- FIELD_SUPPLY_RECOVERED (R51): the outputs follow their commands again; the fault bit stays. -/
def fieldSupplyRecovered (m : Mach) : Mach := setEject m (fun e => { e with fieldBad := false })

def execFieldSupplyRecovered (s : State) : Host.Outcome State Fault Refusal := s.run fieldSupplyRecovered

/-- OUTPUT_CURRENT_LIMIT (R58): an output that is on switches off and the fault bit is set. -/
def outputCurrentLimit (n : Nat) (m : Mach) : Mach :=
  if (doOn m).getLsbD n then
    raise (setEject m (fun e => { e with limited := e.limited ||| (1#16 <<< n), limitNew := true })) F.FIO_EVENT_FAULT 0
  else m

def execOutputCurrentLimit (n : Fin 16) (s : State) : Host.Outcome State Fault Refusal := s.run (outputCurrentLimit n)

/-- DO_HOST_SET (R390): a write of FIO_DO_SET. -/
def doHostSet (v : Word) (m : Mach) : Mach := bar0P m (fun m => wr m F.FIO_DO_SET_SET 0 (bits v.toNat 0 16))

def execDoHostSet (v : Word) (s : State) : Host.Outcome State Fault Refusal := s.run (doHostSet v)

/-- The module stops for a cause (R22, R23, R27, R379): outputs safe, fire commands dropped, every other change given up. -/
def stopModule (m : Mach) (cause : Nat) : Mach :=
  let m := if pipelineOn m then dropAllFires m else m
  setCtl (enterFault m cause) (fun c => { c with
    drain := false, drainLeft := 0, align := false, realignDue := false, powerReq := none, heldReqs := [], waking := false })

end Sys2Proof.Machine
end

