-- ==== Sys2Proof/Machine/Work.lean ====
section
/-!
DEFINITION. Machine/Work.lean: the work of the Tillers: doorbells and fetching (R331, R332, R334), the operators (R253 to R306),
checks and their recovery (R350 to R360), queues and rings (R328 to R339), the statistics window (R346).
-/

namespace Sys2Proof.Machine

/-- Note the commands that have become ready (R333, R346). -/
def markReady (m : Mach) : Mach :=
  setFab m (fun b => { b with inflight := b.inflight.map (fun c =>
    if c.readyAt = none ∧ ready m c then { c with readyAt := some m.time.now } else c) })

/-- An UNLOAD ends once no command of the context runs any more (R269, R341): its lines stay the context's. -/
def unloadDone (m : Mach) : Mach :=
  match m.fab.ctxRun with
  | some (c, 3) =>
    if m.fab.inflight.any (fun x => x.ctx == c && x.phase != .done) || !(parked (ctxOf m c)).isEmpty then m
    else
      let m := setCtx m c (fun x => { x with
        st := .admitted, program := none, progState := 0, result := 0, decideFrom := none, grants := []
        stepsIssued := [], stepsDone := [], stepSeqs := [], carry := [] })
      let m := forEach (List.range 8) m (fun m t => sizePool m c t)
      raiseCtx (setFab m (fun b => { b with ctxRun := none })) F.QUE_EVENT_CTX_DONE 0 c
  | _ => m

/-- BE commands that a re-placement has taken out of flight come back in the order of their queues, as there is room (R20, R332; assumption
118). -/
def unpark (m : Mach) : Mach :=
  forEach (seqSort (m.fab.ctxs.flatMap (fun x => parked x.2))) m (fun m c =>
    let first := (parked (ctxOf m c.ctx)).all (fun x => x.queue != c.queue || !seqBefore x.seq c.seq)
    match (ctxOf m c.ctx).workMap[c.lt]? with
    | none => m
    | some t =>
      if !first || !fabricOn m || !tilUp m t || decide (beInflight m t ≥ 768) || decide (allInflight m t ≥ 1024) then m
      else
        let m := setCtx (wakeTiller m t) c.ctx (fun x => { x with carry := x.carry.filter (fun y => !(y.queue == c.queue && y.seq == c.seq)) })
        setTil (setFab m (fun b => { b with inflight := b.inflight ++ [relatch m c] })) t (fun x => { x with lastCmd := some m.time.now }))

/-- After a change of what is ready: ready times, and units freed for LC work (R333, R343). -/
def resched (m : Mach) : Mach := unloadDone (forEach (List.range 8) (markReady (unpark m)) preempt)

/-- Commands and entries of a queue that still need room in its ring. -/
def queInflight (m : Mach) (q : Nat) : Nat :=
  ((m.fab.inflight ++ parked (ctxOf m (q / 4096))).filter (fun c => c.queue == q)).length + (queOf m q).waiting.length

/-- The time to the end of the Judge stage, ns, if ticks fall at T_min (R359; assumption 24). -/
def judgeLeft (m : Mach) : Nat :=
  match m.ctl.lastTick with
  | some t => ((tMinNs m : Int) - nsDiff m.time.now t).toNat
  | none => 0

/-- Repetitions of a step once per batch at full batches (R310). -/
def fullReps (p : Program) (lt : Nat) : Nat := max 1 (cdiv (cdiv p.roiMax (max 1 p.batch)) (max 1 (members p lt).length))

/-- What the steps of a batch that are not committed still take, ns at the guaranteed clock (R359). -/
def batchLeft (m : Mach) (c : Nat) (b : Batch) : Nat :=
  match (ctxOf m c).program with
  | none => 0
  | some p => ((List.range p.logical).map (fun lt =>
      if assignedTo p lt b then
        ((runSteps p lt).zipIdx.map (fun s =>
          if (ctxOf m c).stepsDone.contains (lt, s.2, if s.1.perBatch then b.no else 0) then 0
          else wcNs m p (if s.1.perBatch then cdiv s.1.wcCycles (fullReps p lt) else s.1.wcCycles))).sum
      else 0)).sum

/-- Is there time for a re-run or a refetch of a batch's work (R359)? -/
def timeFits (m : Mach) (c : Nat) (batch : Option Nat) : Bool :=
  match batch with
  | none => true
  | some no => match m.fab.batches.find? (fun b => b.context == c && b.no == no) with
    | some b => decide (batchLeft m c b ≤ judgeLeft m)
    | none => true

/-- The same for an LC command. -/
def lcFits (m : Mach) (c : Cmd) : Bool := timeFits m c.ctx c.batch

/-- Abandon a batch that cannot be in time (R359). -/
def missWork (m : Mach) (t c : Nat) (batch : Option Nat) : Mach :=
  let m := raiseAs (inc m F.GEN_CHECK_CNT2_MISS 0) F.GEN_CHECK_EVENT_MISS 0 t c
  match batch with
  | some no => abandonBatch m c no stDeadline
  | none => m

/-- Abandon the batch of an LC command that cannot be in time (R359). -/
def missBatch (m : Mach) (c : Cmd) : Mach := finish (missWork m c.tiller c.ctx c.batch) c stDeadline

/-- A detection on a Tiller under its source (R350, R352; GEN_CHECK_LAST.SOURCE names the sources). -/
def detect (m : Mach) (t c source run : Nat) : Mach :=
  let m := setTil m t (fun x => { x with detections := x.detections + 1 })
  let m := raiseCtx (inc m F.TIL_ERR_CNT_DATA_CHECK t) F.TIL_EVENT_DATA_CHECK t c
  let m := checkLast m source c t run
  if source = 4 then inc (inc m F.GEN_CHECK_CNT0_SRAM 0) F.TIL_GRN_CNT_PARITY t
  else if source = 5 ∨ source = 6 then inc m F.GEN_CHECK_CNT0_SRAM 0
  else if source = 7 then raiseAs m F.GEN_CHECK_EVENT_RACHIS 0 t c
  else if source = 8 then inc (inc m F.GEN_CHECK_CNT1_HBM 0) F.TIL_GRN_CNT_HBM_CRC t
  else raiseAs (inc m F.GEN_CHECK_CNT0_COMPUTE 0) F.GEN_CHECK_EVENT_COMPUTE 0 t c

/-- A read fails and its repeat passes (R357): it counts under SRAM or HBM only. -/
def readRepeated (m : Mach) (t c source : Nat) : Mach :=
  inc (checkLast m source c t 0) (if source = 8 then F.GEN_CHECK_CNT1_HBM else F.GEN_CHECK_CNT0_SRAM) 0

/-- Automatic returns of the last hour (R356). -/
def recentReturns (m : Mach) (t : Nat) : List LTime :=
  (tilOf m t).returns.filter (fun x => lessSince m.time.now x (3600 * giga))

/-- Quarantine a Tiller (R355, R356) for a cause (1 failed runs, 2 rate of detections, 3 Stem core memory, 4 thermal: the model's
codes for the audit entry of R400): its work moves, an automatic reset is requested once, and the module stops when no
Tiller is left. -/
def quarantine (m : Mach) (t cause : Nat) : Mach :=
  if tilLost m t then m
  else
    let m := raise (raiseAs m F.GEN_CHECK_EVENT_QUARANTINE 0 t 0) F.TIL_EVENT_QUARANTINED t
    let m := audit m 0x0008 0 (leBytes 1 t ++ leBytes 1 cause)
    let m := setTil m t (fun x => { x with quar := true, thermQuar := cause == 4, autoSpent := false })
    let m := loseTiller m t .quarantined
    let m := if flag m F.GEN_CHECK_CFG_AUTO_RETURN 0 && decide ((recentReturns m t).length < 3) then
        setCtl (setTil m t (fun x => { x with autoSpent := true })) (fun k =>
          { k with resets := k.resets ++ [{ kind := .tiller, item := t, phase := .requested, auto := true, at_ := m.time.now, tick := m.ctl.tickCount }] })
      else m
    if (List.range 8).all (tilLost m) then stopModule m 4 else m

/-- The rate limit of R355. -/
def rateQuarantine (m : Mach) (t : Nat) : Mach :=
  if decide ((tilOf m t).detections ≥ max 1 (rd m F.GEN_CHECK_CFG_QUAR_RATE 0)) then quarantine m t 2 else m

/-- A check fires during a command's run (R352 to R354). -/
def checkFires (m : Mach) (c : Cmd) (source : Nat) : Mach :=
  let run := c.runs + 1 + if c.second then 4 else 0
  let m := detect m c.tiller c.ctx source run
  let m := noteKill (stopRun m c) c
  let m := setCmd m c.queue c.seq (fun x => { x with runs := c.runs + 1, kills := x.kills + 1, rechecked := true })
  let m :=
    if source = 6 then quarantine m c.tiller 3
    else if c.runs + 1 < 4 then
      (if c.lc && !lcFits m c then missBatch m c else m)
    else if !c.second then
      quarantine (setCmd m c.queue c.seq (fun x => { x with second := true, runs := 0 })) c.tiller 1
    else
      let m := raiseAs m F.GEN_CHECK_EVENT_INPUT_SUSPECT 0 c.tiller c.ctx
      let m := match c.batch with
        | some no => abandonBatch m c.ctx no stFailed
        | none => m
      finish m c stFailed
  rateQuarantine m c.tiller

/-- Take a descriptor into flight (R332, R273): decoded, its generations latched, or ended by a check. -/
def takeDesc (m : Mach) (c : Cmd) (dupTag : Bool) : Mach :=
  let c := { c with desc := mapDesc m c.ctx c.lt c.raw }
  let c := { c with gens := latchGens m c }
  let m := setTil (wakeTiller m c.tiller) c.tiller (fun t => { t with lastCmd := some m.time.now })
  let m := setFab m (fun b => { b with inflight := b.inflight ++ [c] })
  if dupTag then finish m c stBadDesc
  else match decodeCheck m c with
    | some s => finish m c s
    | none => m

/-- The repetition in which a logical Tiller runs a batch (R311). -/
def repOf (m : Mach) (c : Nat) (p : Program) (lt no : Nat) : Nat := (ltBatches m c p lt).findIdx (fun b => b.no == no)

/-- The raw descriptors of a step for a batch (R311). -/
def rawDescs (m : Mach) (c : Nat) (p : Program) (lt : Nat) (st : SchedStep) (no : Nat) : List (BitVec 512) :=
  (stepDescs p st).map (fun d => if st.perBatch then rotateDesc p lt (repOf m c p lt no) d else d)

/-- What a descriptor of a program may write and read, an accumulator bin as a whole. -/
def allWrites (bin : Nat → Bin) (d : BitVec 512) : List (Nat × Nat × Nat) :=
  if usesAcc d && dOut d = 7 then [(dBinAcc d, 0, (bin (dBinAcc d)).size * 1024)] else mayWrite bin 0 d
def allReads (bin : Nat → Bin) (d : BitVec 512) : List (Nat × Nat × Nat) :=
  (readRanges bin 0 d).map (fun r => if r.1 = dBinAcc d then (r.1, 0, (bin r.1).size * 1024) else r)
    ++ if dOp d = 0x08 then [(dBinA d, dBytes d 24 4, dBytes d 32 4)] else []

/-- Two ranges share a byte; the first lies within the second. -/
def rangesMeet (a b : Nat × Nat × Nat) : Bool := a.1 == b.1 && decide (a.2.1 < b.2.1 + b.2.2) && decide (b.2.1 < a.2.1 + a.2.2)
def rangeWithin (a b : Nat × Nat × Nat) : Bool := a.1 == b.1 && decide (b.2.1 ≤ a.2.1) && decide (a.2.1 + a.2.2 ≤ b.2.1 + b.2.2)

/-- The inputs of a step: what its descriptors read that none before has written. -/
def stepInputs (bin : Nat → Bin) : List (BitVec 512) → List (Nat × Nat × Nat) → List (Nat × Nat × Nat)
  | [], _ => []
  | d :: ds, had => (allReads bin d).filter (fun r => !had.any (rangeWithin r)) ++ stepInputs bin ds (had ++ allWrites bin d)

/-- The committed step of the same batch repetition, before the command's own, that wrote a byte last (R357). -/
def producer (m : Mach) (c : Cmd) (p : Program) (h ofs : Nat) : Option Nat :=
  match c.step with
  | none => none
  | some (lt, sn) =>
    let wrote := fun (s : Nat) => match (runSteps p lt)[s]? with
      | none => false
      | some st => (ctxOf m c.ctx).stepsDone.contains (stepKey lt s st (c.batch.getD 0))
        && (rawDescs m c.ctx p lt st (c.batch.getD 0)).any (fun d =>
          (allWrites (cmdBin m c) (mapDesc m c.ctx lt d)).any (rangeWithin (h, ofs, 1)))
    ((List.range sn).filter wrote).getLast?

/-- The inputs of a committed step have been overwritten since (R357): by a later step, by itself, or by a later batch in its INPUT slot. -/
def overwritten (m : Mach) (c : Cmd) (p : Program) (lt s no : Nat) (st : SchedStep) (seq : Nat) : Bool :=
  let x := ctxOf m c.ctx
  let bin := cmdBin m c
  let descs := fun (st : SchedStep) (no : Nat) => (rawDescs m c.ctx p lt st no).map (mapDesc m c.ctx lt)
  let ins := stepInputs bin (descs st no) []
  let later := x.stepSeqs.filter (fun e => e.1.1 == lt && e.1 != stepKey lt s st no && x.stepsDone.contains e.1 && seqBefore seq e.2.1)
  let writes := (descs st no).flatMap (allWrites bin) ++ later.flatMap (fun e => match (runSteps p lt)[e.1.2.1]? with
    | some st => (descs st e.1.2.2).flatMap (allWrites bin)
    | none => [])
  let r := repOf m c.ctx p lt no
  let copied := (ltBatches m c.ctx p lt).zipIdx.any (fun b => decide (b.2 > r) && b.2 % 2 == r % 2 && b.1.copied.contains lt)
  ins.any (fun i => writes.any (rangesMeet i)) || (copied && st.perBatch && (p.bins.filter (fun b => b.ltiller == lt && b.input)).any (fun b =>
    ins.any (fun i => i.1 == mapHandle m c.ctx lt b.handle)))

/-- A batch starts again from its first step on a logical Tiller, copied again from the batch buffer (R312, R357). -/
def restartBatch (m : Mach) (c lt : Nat) (no : Nat) : Mach :=
  let mine := fun (x : Cmd) => x.ctx == c && x.lt == lt && x.lc
  let cut := m.fab.inflight.filter (fun x => mine x && !x.committed)
  let open_ := fun (k : Nat × Nat × Nat) => k.1 == lt && (k.2.2 == no || cut.any (fun x => x.step == some (k.1, k.2.1) && x.batch.getD 0 == k.2.2))
  let m := setCtx (dropCmds m mine) c (fun x => { x with
    stepsIssued := x.stepsIssued.filter (fun k => !open_ k), stepsDone := x.stepsDone.filter (fun k => !open_ k) })
  setFab m (fun f => { f with batches := f.batches.map (fun b =>
    if b.context = c ∧ b.no = no then { b with copied := b.copied.filter (· != lt) } else b) })

/-- A committed step runs again for bad activations, as commands that are not reported again, while the command that waits gives up its units
(R357; assumption 119). Each re-run counts as a run under R352. -/
def rerunStep (m : Mach) (c : Cmd) (p : Program) (lt s no : Nat) (st : SchedStep) (seq runs : Nat) : Mach :=
  let key := stepKey lt s st no
  let m := setCtx (leaveUnits m c) c.ctx (fun x => { x with
    stepsDone := x.stepsDone.filter (· != key)
    stepSeqs := x.stepSeqs.map (fun e => if e.1 = key then (e.1, e.2.1, runs + 1) else e) })
  forEach (rawDescs m c.ctx p lt st no).zipIdx m (fun m d => takeDesc m
    { queue := c.queue, seq := seq / 2 ^ 32 * 2 ^ 32 + (seq + d.2) % 2 ^ 32, ctx := c.ctx, tiller := c.tiller, lc := true, lt := lt
      raw := d.1, desc := d.1, batch := if st.perBatch then some no else none, step := some (lt, s), ix := d.2, tick := c.tick
      readyAt := some m.time.now, silent := true, rechecked := true, runs := runs + 1 } false)

/-- Bad activations of LC work (R357): the step that produced them runs again; from the batch's first step where its inputs are gone, or where
it cannot run again beside what is in flight. After its fourth run the Tiller is quarantined (R352). -/
def rerunFor (m : Mach) (c : Cmd) (h ofs : Nat) : Mach :=
  let lt := c.lt
  let no := c.batch.getD 0
  let x := ctxOf m c.ctx
  let again := restartBatch m c.ctx lt no
  if x.stepSeqs.any (fun e => e.1.1 == lt && e.1.2.2 == no && decide (e.2.2 ≥ 3)) then quarantine m c.tiller 1
  else match x.program with
    | none => again
    | some p => match (producer m c p h ofs).bind (fun s => (runSteps p lt)[s]?.map (fun st => (s, st))) with
      | none => again
      | some (s, st) => match x.stepSeqs.find? (fun e => e.1 == stepKey lt s st no) with
        | none => again
        | some e =>
          let there := m.fab.inflight.any (fun x => x.queue == c.queue && x.step == some (lt, s) && x.batch.getD 0 == e.1.2.2)
          if there || overwritten m c p lt s no st e.2.1 || decide (allInflight m c.tiller + st.count > 1024) then again
          else rerunStep m c p lt s no st e.2.1 e.2.2

/-- The line in which a bad word lies (R358): space, Tiller, physical line; an entry of the page map by its logical page. -/
def badLineOf (m : Mach) (c : Cmd) (kind : DataKind) (h ofs : Nat) : Nat × Nat × Nat :=
  let b := cmdBin m c h
  let l := (b.base * 1024 + ofs) / lineBytes
  match kind with
  | .map => (3, 0, l)
  | .weights | .activations => if b.space = 1 then (1, 0, physLine m.fab.hbm l) else (0, c.tiller, physLine (tilOf m c.tiller).granary l)

/-- Does the command read a handle in the space that a check's source names? -/
def readsBin (m : Mach) (c : Cmd) (source : Nat) (kind : DataKind) (h : Nat) : Bool :=
  (match kind with
    | .map => source == 8 && (dHandles c.desc).contains h
    | .weights | .activations => (dReads c.desc).contains h)
  && (cmdBin m c h).space == (if source = 8 then 1 else 0)

/-- Stored data read bad twice (R357): the command is held while they are fetched again, or ends when no good source remains. The activations
of BE work have none; an entry of the page map always has one, since the Sower computes it again. -/
def dataBad (m : Mach) (c : Cmd) (source : Nat) (good : Bool) (kind : DataKind) (h ofs : Nat) : Mach :=
  let good := match kind with
    | .weights => good
    | .activations => c.lc
    | .map => true
  let weights := kind == .weights
  let m := detect m c.tiller c.ctx source 0
  let m := if source = 8 then raiseAs (inc m F.GEN_CHECK_CNT1_HBM 0) F.GEN_CHECK_EVENT_HBM 0 c.tiller c.ctx
    else raiseAs (inc m F.GEN_CHECK_CNT0_SRAM 0) F.GEN_CHECK_EVENT_SRAM 0 c.tiller c.ctx
  let m :=
    if c.lc && !lcFits m c then missBatch (stopRun m c) c
    else if good then
      let m' := setCmd m c.queue c.seq (fun x => { x with
        phase := .held, rechecked := true, heldAt := some m.time.now, badLine := some (badLineOf m c kind h ofs) })
      if kind ≠ .activations then m'
      else
        let m' := rerunFor m' { c with phase := .held } h ofs
        if timeFits m' c.ctx c.batch || tilLost m' c.tiller then m' else missBatch (stopRun m c) c
    else
      let m := if weights then raiseAs m F.GEN_CHECK_EVENT_COPY_LOST 0 c.tiller c.ctx else m
      let m := match c.batch with
        | some no => abandonBatch m c.ctx no stFailed
        | none => m
      finish (stopRun m c) c stFailed
  rateQuarantine m c.tiller

/-- Does a command read a Granary, HBM? -/
def readsSpace (m : Mach) (c : Cmd) (sp : Nat) : Bool := (cmdReads m c).any (fun r => (cmdBin m c r.1).space == sp && r.2.2 != 0)

/-- A command that is running meets what the checks say. -/
def meetCheck (m : Mach) (q seq : Nat) (chk : CheckIn) : Mach :=
  match cmdOf m q seq with
  | none => m
  | some c =>
    if c.phase ≠ .running then m
    else match chk with
      | .pass => m
      | .fired s => checkFires m c s
      | .repeated s => if readsSpace m c (if s = 8 then 1 else 0) then readRepeated m c.tiller c.ctx s else m
      | .badData s good kind h ofs => if readsBin m c s kind h then dataBad m c s good kind h ofs else m

/-- The source code of a command's arithmetic check (GEN_CHECK_LAST). -/
def residueSource (d : BitVec 512) : Nat :=
  match dUnit d with
  | .grid => if isInt (dFmtA d) then 1 else 2
  | .flail => 3
  | .chute => 3
  | .stem => 3

/-- Injections armed on the Tiller act on the run that starts (R367): a first read that fails is repeated and passes, a
residue error fires. -/
def applyInject (m : Mach) (c : Cmd) : Mach × CheckIn :=
  let j := (tilOf m c.tiller).inject
  let setJ := fun (m : Mach) (f : Inject → Inject) => setTil m c.tiller (fun t => { t with inject := f t.inject })
  let m := if j.parity && readsSpace m c 0 then setJ (readRepeated m c.tiller c.ctx 4) (fun j => { j with parity := false }) else m
  let m := if j.hbmCrc && readsSpace m c 1 then setJ (readRepeated m c.tiller c.ctx 8) (fun j => { j with hbmCrc := false }) else m
  if dUnit c.desc = .chute then (m, .pass)
  else if j.persistent then (m, .fired (residueSource c.desc))
  else if j.once then (setJ m (fun j => { j with once := false }), .fired (residueSource c.desc))
  else (m, .pass)

/-- The DBG command trace buffer takes a command that starts, at TRACE or above (R428; what it holds and how many is DESIGN CHOICE,
assumption 99). -/
def noteTrace (m : Mach) (c : Cmd) : Mach :=
  if traceOn m then setFab m (fun b => { b with trace := ((c.queue, c.seq) :: b.trace).take Config.traceDepth }) else m

/-- Start a command on its unit (R254, R258, R285): the checks that the run itself decides, then its results as staging. -/
def startRun (m : Mach) (c : Cmd) : Mach :=
  let d := c.desc
  let denied := finish (inc m F.TIL_GRN_CNT_OWNER_FAULT c.tiller) c stDenied
  if genChanged m c then finish m c stHandle
  else if deniedAccess m c then denied
  else if (usesAcc d && (accCheck m c).isNone) || noVersion m c then finish m c stBadDesc
  else
    let e := envOf m c
    let binA := cmdBin m c (dBinA d)
    let binD := cmdBin m c (dBinD d)
    let reason := if dOp d = 0x08
      then huskReason d (fun i => e.rdr (dBinA d) (dBytes d 24 4 + i)) (binA.size * 1024 - dBytes d 24 4) (binD.size * 1024 - dBytes d 28 4)
      else 0
    let dim := finish (wr m F.TIL_HUSK_LAST_REASON c.tiller reason) c stDim
    if within 1 reason 4 then dim
    else if deniedHusk m c (reason == 0) then denied
    else if reason ≠ 0 then dim
    else
      let r := compute d e
      let hs := huskSizes d e
      let hbm := binA.space == 1 || (dBinD d != noBin && binD.space == 1)
      let cyc := cycleFigure d hs.1 hs.2 hbm
      let dst := if dOut d = 7 && usesAcc d then dBinAcc d else dBinD d
      let c' := { c with
        phase := .running, out := r.out, dst := dst, sat := r.sat, nanInt := r.nan, macs := usefulMacs d
        accOut := if dOut d = 7 && usesAcc d then (accCheck m c).map (fun n => (dBinAcc d, if isInt (dFmtA d) then 1 else 2, n)) else none
        cycles := cyc, startAt := m.time.now, heldNs := 0
        soloMhz := if c.soloMhz = 0 then max 1 (rd m F.TIL_CLK_FREQ_MHZ c.tiller) else c.soloMhz }
      if (dOp d == 0x07 || dOp d == 0x08) && r.out.any (fun w => foreignRange m c (dst, w.1, w.2.length)) then denied
      else if r.bad then finish m c stBadDesc
      else match takeStage m c' with
        | none => finish m c stBadDesc
        | some ls =>
          let m := fillLines { m with draws := m.draws + 2 ^ 80 } c.tiller ls
          let m := if c.lc then m else setTil m c.tiller (fun t => { t with lastQueue := tset 0 t.lastQueue c.ctx c.queue })
          setUnits (noteTrace (setCmd m c.queue c.seq (fun _ => { c' with taken := ls })) c) c' (some (c.queue, c.seq))

/-- A command of an opcode: it takes its unit when it is ready and chosen, or meets a check while it runs. -/
def runOp (op : Nat) (m : Mach) (q seq : Nat) (chk : CheckIn) : Mach :=
  match cmdOf m q seq with
  | none => m
  | some c =>
    if dOp c.desc ≠ op ∨ !fabricOn m then m
    else match c.phase with
      | .fetched =>
        if ready m c && unitsFree m c && chosen m c then
          let m := startRun m c
          let j : Mach × CheckIn := match cmdOf m q seq with
            | some c' => if c'.phase = CmdPhase.running then applyInject m c' else (m, CheckIn.pass)
            | none => (m, CheckIn.pass)
          resched (meetCheck j.1 q seq (if chk = CheckIn.pass then j.2 else chk))
        else m
      | .running => resched (meetCheck m q seq chk)
      | .held => m
      | .done => m

def execConv (q seq : Nat) (chk : CheckIn) (s : State) := s.run (fun m => runOp 0x01 m q seq chk)
def execGemm (q seq : Nat) (chk : CheckIn) (s : State) := s.run (fun m => runOp 0x02 m q seq chk)
def execPool (q seq : Nat) (chk : CheckIn) (s : State) := s.run (fun m => runOp 0x03 m q seq chk)
def execEltw (q seq : Nat) (chk : CheckIn) (s : State) := s.run (fun m => runOp 0x04 m q seq chk)
def execArgmax (q seq : Nat) (chk : CheckIn) (s : State) := s.run (fun m => runOp 0x05 m q seq chk)
def execCopy (q seq : Nat) (chk : CheckIn) (s : State) := s.run (fun m => runOp 0x06 m q seq chk)
def execHusk (q seq : Nat) (chk : CheckIn) (s : State) := s.run (fun m => runOp 0x07 m q seq chk)
def execUnhusk (q seq : Nat) (chk : CheckIn) (s : State) := s.run (fun m => runOp 0x08 m q seq chk)
def execResize (q seq : Nat) (chk : CheckIn) (s : State) := s.run (fun m => runOp 0x09 m q seq chk)

/-- BARRIER (R261): complete once every earlier command of its queue is. -/
def execBarrier (q seq : Nat) (s : State) := s.run (fun m =>
  match cmdOf m q seq with
  | none => m
  | some c =>
    if dOp c.desc = 0x0A ∧ c.phase = .fetched ∧ fabricOn m ∧ tilUp m c.tiller ∧ (earlier m c).all (fun x => x.phase == .done)
    then resched (finish m c (if noVersion m c then stBadDesc else stOk)) else m)

/-- A running command's accesses to HBM wait: its context is confidential and the encryption engine is in reset (R412). -/
def cryptoWaits (m : Mach) (c : Cmd) : Bool :=
  m.glume.cryptoBusy && (ctxOf m c.ctx).conf && (readsSpace m c 1 || (cmdWrites m c).any (fun r => (cmdBin m c r.1).space == 1 && r.2.2 != 0))

/-- COMMAND_COMPLETE (R261, R345, R346): the run ends, its staging stands, its units are free. -/
def execCommandComplete (q seq : Nat) (s : State) := s.run (fun m =>
  match cmdOf m q seq with
  | none => m
  | some c =>
    if c.phase ≠ .running ∨ cryptoWaits m c then m
    else
      resched (finish (leaveUnits m c) c stOk))

/-- Physical HBM page of the k-th spare: the last 1,024 pages of the module region (R358; assumption 39). -/
def sparePage (k : Nat) : Nat := hbmPages + 262144 - 1024 + k

/-- Move a physical page's map entry, owner and bytes to another page (R358). -/
def movePage (s : Store) (p q : Nat) : Store :=
  let l := match s.map.find? (fun e => e.2 == some p) with
    | some e => e.1
    | none => p
  { s with
    map := tset none s.map l (some q)
    owner := tset 0 (tset 0 s.owner q (tget 0 s.owner p)) p 0
    mem := (lineCells s.mem p q).foldl (fun m c => tset 0 m c.1 c.2) (dropLine s.mem p) }

/-- Retire an HBM page to a spare (R358, R400): with no spare left it stays in service. Was it retired? The list that the record storage keeps
grows, but not in READ_ONLY (R401). -/
def retirePage (m : Mach) (c p : Nat) : Mach × Bool :=
  if rd m F.GEN_CHECK_SPARE_SPARE_PAGES 0 = 0 || m.flash.retired.contains p then (m, false)
  else
    let m := raiseAs (inc m F.GEN_CHECK_CNT2_RETIRED 0) F.GEN_CHECK_EVENT_PAGE_RETIRED 0 0xFF c
    let left := rd m F.GEN_CHECK_SPARE_SPARE_PAGES 0
    let m := wr m F.GEN_CHECK_SPARE_SPARE_PAGES 0 (left - 1)
    let m := audit m 0x0009 0 (leBytes 4 p)
    let m := setFab m (fun b => { b with hbm := movePage b.hbm p (sparePage (1024 - left)) })
    (if rd m F.FLS_HEALTH_STATE 0 = 3 then m else noteSystem (setFlash m (fun f => { f with retired := f.retired ++ [p] })), true)

/-- A held command can go on (R357): the step that it waits for has run again, and its units are its own or free. -/
def mayResume (m : Mach) (c : Cmd) : Bool :=
  c.phase == .held && (holdsUnits m c || unitsFree m c)
    && (queueCmds m c.queue).all (fun x => !x.silent || !seqBefore x.seq c.seq || (c.silent && x.step == c.step))

/-- It goes on. -/
def resumeRun (m : Mach) (c : Cmd) : Mach :=
  if !mayResume m c then m
  else
    let own := holdsUnits m c
    let m := setCmd m c.queue c.seq (fun x => { x with
      phase := .running, heldAt := none, badLine := none
      startAt := if own then x.startAt else m.time.now
      heldNs := if own then x.heldNs + (x.heldAt.map (nsSince m)).getD 0 else 0 })
    if own then m else setUnits m c (some (c.queue, c.seq))

/-- REFETCH_COMPLETE (R357, R358): the held command goes on, and with it every command that waits for the same bad line. `page`: the HBM page
that failed again after its rewrite. -/
def execRefetchComplete (q seq : Nat) (page : Option Nat) (s : State) := s.run (fun m =>
  match cmdOf m q seq with
  | none => m
  | some c =>
    if !mayResume m c then m
    else
      let m := raiseAs (inc m F.GEN_CHECK_CNT2_REFETCH 0) F.GEN_CHECK_EVENT_REFETCH 0 c.tiller c.ctx
      let m := forEach (c :: m.fab.inflight.filter (fun x => x.badLine.isSome && x.badLine == c.badLine && !(x.queue == q && x.seq == seq))) m resumeRun
      resched (match page with
        | none => m
        | some p => (retirePage m c.ctx p).1))

/-- RACHIS_FLIT_CRC_FAIL (R351): the flit is resent; after 3 failed resends its transaction is abandoned: a Tiller command's
counts a detection, a host access is retried once. -/
def execRachisFlitCrcFail (resends : Nat) (cmd : Option (Nat × Nat)) (retried read : Bool) (s : State) := s.run (fun m =>
  if !alive m then m
  else if resends < 3 then inc m F.GEN_CHECK_CNT1_RACHIS_HOP 0
  else match cmd with
    | some (q, seq) => resched (meetCheck m q seq (.fired 7))
    | none =>
      if !retried then m
      else
        let m := checkLast (raiseAs m F.GEN_CHECK_EVENT_RACHIS 0 0xFF 0) 7 0 0xF 0
        if read then emit m (.readData 0xFFFFFFFF) else m)

/-- DOORBELL (R331, R445, R447): `size` bytes at BAR2 offset `off`. -/
def doorbell (m : Mach) (off size : Nat) (v : BitVec 64) : Mach :=
  if !m.ctl.fnReady then m
  else if !((size == 4 && off % 4 == 0) || (size == 8 && off % 8 == 0)) || decide (off + size > 524288) then m
  else if off % 8 = 4 then m
  else
    let q := off / 8
    let c := q / 4096
    let pi : BitVec 32 := v.setWidth 32
    let x := queOf m q
    let k := ctxOf m c
    let drop := fun (m : Mach) => raiseCount m F.QUE_EVENT_DB_DROP F.QUE_CNT_DB_DROP 0
    if m.ctl.st = .booting ∨ m.ctl.st = .powering ∨ (m.ctl.st = .fault ∧ m.ctl.prev = .booting) then inc m F.GEN_EARLY_DROP_DOORBELL 0
    else if m.ctl.d3hot ∨ x.st ≠ .enabled ∨ k.st = .free then drop m
    else if x.lc ∨ k.st = .sealed ∨ c = 0 then raiseCtx m F.QUE_EVENT_DENIED 0 c
    else if pi = x.pi then m
    else if k.st ≠ .scrubbing ∧ (pi - x.ci).toNat > 2 ^ x.log2Size then
      let m := raiseCtx m F.QUE_EVENT_OVERFLOW 0 c
      putEntry m q (entryBytes q pi.toNat 0 stOverflow 0 m.ctl.tickCount.toNat 0 (k.workMap.getD x.ltiller 0))
    else setQue m q (fun x => { x with pi := pi })

def execDoorbell (off size : Nat) (v : BitVec 64) (s : State) := s.run (fun m => doorbell m off size v)

/-- Unreported TAGs of a queue (R334). -/
def openTags (m : Mach) (q : Nat) : List Nat :=
  ((m.fab.inflight ++ parked (ctxOf m (q / 4096))).filter (fun c => c.queue == q)).map (fun c => dTag c.desc) ++ (waitingCmds (queOf m q)).map (fun e => leAt e 0 4)

/-- Read the slot of a queue's next descriptor, SEQ mod 2^LOG2_SIZE (R329). A program's ring lies in HBM: no DMA. -/
def readSlot (m : Mach) (q : Nat) : Mach :=
  let x := queOf m q
  if x.hbmRing then m else emit m (.dmaRead (x.base + BitVec.ofNat 64 (64 * (x.ci.toNat % 2 ^ x.log2Size))) 64)

/-- DESCRIPTOR_FETCH (R329, R332): the queue's next descriptor, as read from its slot. A context that is being scrubbed has its descriptors
completed in STANDBY too (R342). -/
def fetchDesc (m : Mach) (q : Nat) (d : BitVec 512) : Mach :=
  let x := queOf m q
  let c := q / 4096
  let k := ctxOf m c
  let r := ringOf m (queRing m q)
  let seq := nextSeq m q
  let on := fabricOn m || (k.st == .scrubbing && (m.ctl.st == .standby || m.ctl.st == .fault))
  if !on || (parked k).any (fun y => y.queue == q) || x.st != .enabled || x.ci == x.pi || x.lc || (m.ctl.d3hot && !x.hbmRing) then m
  else if !r.enable || decide (2 ^ r.log2Size < ringUsed r + queInflight m q + 1) then m
  else if k.st = .scrubbing then
    let m := setQue (readSlot m q) q (fun x => { x with ci := x.ci + 1 })
    reportCmd m { queue := q, seq := seq, ctx := c, tiller := k.workMap.getD x.ltiller 0, lc := false, lt := x.ltiller, raw := d
                  desc := d, phase := .done, status := stScrubbed, doneTick := m.ctl.tickCount }
  else match k.workMap[x.ltiller]? with
    | none => m
    | some t =>
      if !tilUp m t || decide (beInflight m t ≥ 768) || decide (allInflight m t ≥ 1024) then m
      else
        let m' := setQue (readSlot m q) q (fun x => { x with ci := x.ci + 1 })
        let cmd : Cmd := { queue := q, seq := seq, ctx := c, tiller := t, lc := false, lt := x.ltiller, raw := d, desc := d }
        resched (takeDesc m' cmd ((openTags m q).contains (dTag d)))

/-- RING_FETCH_FAILURE (R339): the queue stops at the descriptor that failed. In D3hot no descriptor is read from host memory (R445). -/
def ringFail (m : Mach) (q : Nat) : Mach :=
  if (queOf m q).st = .enabled ∧ (queOf m q).ci ≠ (queOf m q).pi ∧ (!m.ctl.d3hot || (queOf m q).hbmRing) then
    raiseCtx (setQue (readSlot m q) q (fun x => { x with st := .stopped })) F.QUE_EVENT_FETCH_ERR 0 (q / 4096)
  else m

def execDescriptorFetch (q : Nat) (d : Option (BitVec 512)) (s : State) := s.run (fun m =>
  match d with
  | some d => fetchDesc m q d
  | none => ringFail m q)

def execRingFetchFailure (q : Nat) (s : State) := s.run (fun m => ringFail m q)

/-- COMPLETION_WRITE_FAILURE (R339). -/
def execCompletionWriteFailure (r : Nat) (s : State) := s.run (fun m =>
  if !(ringOf m r).enable then m
  else
    let m := raiseCtx (inc m F.QUE_CNT_CR_LOST 0) F.QUE_EVENT_CR_LOST 0 (r / 256)
    setFab m (fun b => { b with queues := b.queues.map (fun x =>
      if x.1 / 4096 * 256 + x.2.cr = r ∧ !x.2.lc ∧ x.2.st = .enabled then (x.1, { x.2 with st := .stopped }) else x) }))

/-- The queue that QUE_Q_SEL names. -/
def selQueue (m : Mach) : Nat := rd m F.QUE_Q_SEL_QUEUE 0

/-- The host may not command a queue: C0's, LC and sealed ones; one of the program's 256 where no program is loaded (R328). -/
def queueBarred (m : Mach) (q : Nat) : Bool :=
  q / 4096 == 0 || (queOf m q).lc || (ctxOf m (q / 4096)).st == .sealed
    || (decide (q % 4096 < 256) && (ctxOf m (q / 4096)).program.isNone)

/-- QUEUE_ENABLE (R328, R329, R339). A queue without a legal size is refused (DEDUCED, assumption 25). -/
def execQueueEnable (s : State) := s.run (fun m => bar0P m (fun m =>
  let q := selQueue m
  let x := queOf m q
  if queueBarred m q || !within 4 x.log2Size 16 then raiseCtx m F.QUE_EVENT_DENIED 0 (q / 4096)
  else match x.st with
    | .disabled => setQue m q (fun x => { x with st := .enabled, pi := 0, ci := 0, era := x.era + 1 })
    | .stopped => setQue m q (fun x => { x with st := .enabled })
    | .enabled => m))

/-- QUEUE_DISABLE (QUE_Q_CMD): fetching stops; fetched commands run and report. -/
def execQueueDisable (s : State) := s.run (fun m => bar0P m (fun m =>
  let q := selQueue m
  if queueBarred m q then raiseCtx m F.QUE_EVENT_DENIED 0 (q / 4096)
  else setQue m q (fun x => { x with st := .disabled })))

/-- CR_CFG_WRITE (R337; QUE_CR_CFG): the ring that QUE_CR_SEL names. -/
def execCrCfgWrite (v : Word) (s : State) := s.run (fun m => bar0P m (fun m =>
  let r := rd m F.QUE_CR_SEL_CR 0
  let n := v.toNat
  if r / 256 = 0 ∨ (ringOf m r).enable ∨ bits n 13 11 < 32 ∨ !within 4 (bits n 0 5) 16 then raiseCtx m F.QUE_EVENT_DENIED 0 (r / 256)
  else
    let m := setRing m r (fun g => { g with
      enable := bitOf n 31, coalUs := bits n 24 6, vector := bits n 13 11, coalN := bits n 5 8, log2Size := bits n 0 5
      head := if bitOf n 31 then 0 else g.head, tail := if bitOf n 31 then 0 else g.tail, phase := true, unsig := 0, unsigAt := none, lost := false })
    flushWaiting m r))

/-- CR_HEAD_WRITE (R335; QUE_CR_HEAD). -/
def execCrHeadWrite (v : Word) (s : State) := s.run (fun m => bar0P m (fun m =>
  let r := bits v.toNat 20 12
  let h : BitVec 17 := BitVec.ofNat 17 v.toNat
  let g := ringOf m r
  if r / 256 = 0 ∨ (h - g.head).toNat > ringUsed g then raiseCtx m F.QUE_EVENT_DENIED 0 (r / 256)
  else
    let m := wr (wr m F.QUE_CR_HEAD_CR 0 r) F.QUE_CR_HEAD_HEAD 0 h.toNat
    flushWaiting (setRing m r (fun g => { g with head := h })) r))

/-- COALESCING_TIMER (R337): COAL_US after the first unsignalled entry. -/
def execCoalescingTimer (r : Nat) (s : State) := s.run (fun m =>
  let g := ringOf m r
  let due := match g.unsigAt with
    | some t => !lessSince m.time.now t (g.coalUs * 1000)
    | none => false
  if !g.enable || g.coalUs == 0 || g.unsig == 0 || !due then m
  else sendVector (setRing m r (fun g => { g with unsig := 0, unsigAt := none })) g.vector)

/-- A statistics window has lasted 1,024 ticks, or 1.024 s without a tick (R346; assumption 112). -/
def windowOver (m : Mach) : Bool :=
  let quiet := fun (t : LTime) => !lessSince m.time.now t 1024000000
  decide (m.fab.winTicks ≥ 1024) || (quiet m.fab.winFrom && (m.fab.winTicks == 0 || m.ctl.lastTick.all quiet))

/-- STATISTICS_WINDOW_END (R346, R347, R355; TIL_UTIL). -/
def execStatisticsWindowEnd (s : State) := s.run (fun m =>
  if !(fabricOn m || m.ctl.st == .standby) || !windowOver m then m
  else
    let hid := confPresent m
    let dt := max 1 (min (since m m.fab.winFrom) (since m m.fab.countFrom))
    let running := fun (t : Nat) => ((m.fab.inflight.filter (fun x => x.tiller == t && dUnit x.desc == .grid)).map (fun x =>
      min (runPart m x m.fab.winFrom) (runPart m x m.fab.countFrom))).sum
    let m := setFab m (fun b => { b with
      winFrom := m.time.now, winTicks := 0
      ctxs := b.ctxs.map (fun x => (x.1, { x.2 with
        slow := if hid || x.2.winSolo.1 == 0 then 0 else min 65535 (256 * x.2.winLat * x.2.winSolo.2 / (65536 * x.2.winSolo.1))
        slowKills := if hid then 0 else min 65535 x.2.winKills
        winLat := 0, winSolo := (0, 1), winKills := 0 })) })
    forEach (List.range 8) m (fun m t =>
      let x := tilOf m t
      let cyc := max 1 (dt * rd m F.TIL_CLK_FREQ_MHZ t / 65536000)
      let m := wr m F.TIL_UTIL_BUSY t (if hid then 0 else min 1000 (1000 * (x.winBusy + running t) / dt))
      let m := wr m F.TIL_UTIL_UTIL t (if hid then 0 else min 1000 (1000 * x.winMacs / (65536 * cyc)))
      setTil m t (fun x => { x with detections := 0, winTime := [], winBusy := 0, winMacs := 0 })))

/-- Arm or disarm an injection (R367; GEN_CHECK_INJ). -/
def inject (m : Mach) (t kind : Nat) (f : Inject → Inject) : Mach :=
  bar0 m (fun m =>
    if !traceOn m || confPresent m then deny m
    else setTil (wr (wr m F.GEN_CHECK_INJ_TARGET 0 t) F.GEN_CHECK_INJ_KIND 0 kind) t (fun x => { x with inject := f x.inject }))

def execInjectDisarm (t : Fin 8) (s : State) := s.run (fun m => inject m t.val 0 (fun _ => {}))
def execInjectResidueOnce (t : Fin 8) (s : State) := s.run (fun m => inject m t.val 1 (fun j => { j with once := true }))
def execInjectResiduePersistent (t : Fin 8) (s : State) := s.run (fun m => inject m t.val 2 (fun j => { j with persistent := true }))
def execInjectGranaryParity (t : Fin 8) (s : State) := s.run (fun m => inject m t.val 3 (fun j => { j with parity := true }))
def execInjectHbmCrc (t : Fin 8) (s : State) := s.run (fun m => inject m t.val 4 (fun j => { j with hbmCrc := true }))

/-- PLACEMENT_RECORD_READ (R321): the word at GEN_REC_ADDR, which moves on; bins and windows of a confidential context read 0. -/
def recordWord (m : Mach) : Mach × Nat :=
  let c := rd m F.GEN_PROG_SEL_CONTEXT 0
  let a := rd m F.GEN_REC_ADDR_ADDR 0
  let r := tget [] m.fab.records c
  let w := if (ctxOf m c).conf && confPresent m && decide (a ≥ 32) then 0 else leAt r (4 * a) 4
  (wr m F.GEN_REC_ADDR_ADDR 0 ((a + 1) % 2 ^ 14), w)

def execPlacementRecordRead (s : State) := s.run (fun m => barRead m true (fun m =>
  let r := recordWord m
  emit r.1 (.readData (BitVec.ofNat 32 r.2))))

end Sys2Proof.Machine
end

