-- ==== Sys2Proof/Machine/Steps.lean ====
section
/-!
DEFINITION. Machine/Steps.lean: the static schedule at work (R310 to R313, R319, R323, R325): steps issued, batches copied into
INPUT bins, load balancing.
-/

namespace Sys2Proof.Machine

/-- Has a step committed, for a batch or for every batch assigned (R310)? -/
def stepCommitted (m : Mach) (c : Nat) (p : Program) (lt s : Nat) (b : Option Nat) : Bool :=
  let x := ctxOf m c
  match (runSteps p lt)[s]? with
  | none => true
  | some st =>
    if !st.perBatch then x.stepsDone.contains (lt, s, 0)
    else match b with
      | some no =>
        -- the member of the replica set to which the batch is assigned
        (members p lt).any (fun k => x.stepsDone.contains (k, s, no))
      | none => (ltBatches m c p lt).all (fun y => y.filled == 0 || y.abandoned != 0 || x.stepsDone.contains (lt, s, y.no))

/-- Has a step been issued for a batch, or for every batch? -/
def stepIssued (m : Mach) (c : Nat) (p : Program) (lt s : Nat) (b : Option Nat) : Bool :=
  let x := ctxOf m c
  match (runSteps p lt)[s]? with
  | none => true
  | some st =>
    if !st.perBatch then x.stepsIssued.contains (lt, s, 0)
    else match b with
      | some no => x.stepsIssued.contains (lt, s, no)
      | none => (ltBatches m c p lt).all (fun y => y.filled == 0 || y.abandoned != 0 || x.stepsIssued.contains (lt, s, y.no))

/-- The half of a window that is consumed in this tick (R325, R326). -/
def tickHalf (m : Mach) : Nat := m.ctl.tickCount.toNat % 2

/-- Bytes landed in a half. -/
def landed (w : Window) (half : Nat) : Nat := if half = 0 then w.landed0 else w.landed1

/-- Has the data that a step waits for landed (R325)? -/
def peerReady (m : Mach) (c : Nat) (p : Program) (pw : Nat) : Bool :=
  pw == 255 || (match p.peer.find? (fun w => w.window == pw), (ctxOf m c).winOpen.find? (fun w => w.1 == pw) with
    | some d, some w => decide (landed (winOf m w.2) (tickHalf m) ≥ d.perTick)
    | _, _ => false)

/-- The bytes of a batch: its descriptor and slot tensors (R313). -/
def batchBytes (b : Batch) : List Byte :=
  leBytes 6 b.tick.toNat ++ leBytes 2 b.no ++ leBytes 1 b.context ++ leBytes 1 b.filled ++ leBytes 2 b.firstIndex ++ leBytes 1 b.packW
    ++ leBytes 3 0 ++ leBytes 8 b.fillMask.toNat ++ leBytes 8 b.voidMask.toNat ++ leBytes 32 0 ++ b.tensors.flatten

/-- Copy a batch into a logical Tiller's INPUT bin, slot r mod 2 (R311, R312). -/
def copyBatch (m : Mach) (c : Nat) (p : Program) (lt t r : Nat) (b : Batch) : Mach :=
  let m := forEach (p.bins.filter (fun d => d.ltiller == lt && d.input)) m (fun m d =>
    let e := binOf m t c (mapHandle m c lt d.handle)
    let a := e.base * 1024 + r % 2 * (e.size * 512)
    let data := (batchBytes b).take (e.size * 512)
    if e.space = 0 then setTil m t (fun x => { x with granary := initBytes false x.granary a data })
    else setFab m (fun f => { f with hbm := initBytes true f.hbm a data }))
  setFab m (fun f => { f with batches := f.batches.map (fun x =>
    if x.context = c ∧ x.no = b.no then { x with copied := x.copied ++ [lt] } else x) })

/-- The hardware queue that carries a logical Tiller's commands (R320, R466). -/
def ltQueue (c : Nat) (p : Program) (lt : Nat) : Nat :=
  4096 * c + (match p.queues.find? (fun q => q.ltiller == lt) with
    | some q => q.queue
    | none => lt)

/-- A batch on a logical Tiller has not started. -/
def unstarted (m : Mach) (c : Nat) (lt : Nat) (b : Batch) : Bool :=
  b.filled != 0 && b.abandoned == 0 && !(ctxOf m c).stepsIssued.any (fun s => s.1 == lt && s.2.2 == b.no &&
    (match (ctxOf m c).program with
      | some p => ((runSteps p lt).getD s.2.1 {}).perBatch
      | none => false))

/-- Load balancing (R323): a member that has started its last batch takes the highest unstarted batch of another that holds
two or more. -/
def balance (m : Mach) (c lt : Nat) : Mach :=
  match (ctxOf m c).program with
  | none => m
  | some p =>
    if !dlbOn (ctxOf m c) then m
    else
      let free := fun (k : Nat) => (ltBatches m c p k).filter (unstarted m c k)
      if !(free lt).isEmpty || (ltBatches m c p lt).isEmpty then m
      else match (members p lt).find? (fun k => k != lt && decide ((free k).length ≥ 2)) with
        | none => m
        | some k =>
          let no := ((free k).map (fun b => b.no)).foldl max 0
          let m := setFab m (fun f => { f with batches := f.batches.map (fun b =>
            if b.context = c ∧ b.no = no then { b with moved := some lt, moveNo := 1 + (f.batches.map (fun x => x.moveNo)).foldl max 0 } else b) })
          inc m F.GEN_DLB_CNT_MOVES 0

/-- Slots of a batch whose words in the batch buffer are bad: their objects are VOID (R223, R314, R357). -/
def voidSlots (m : Mach) (c no : Nat) (bad : BitVec 64) : Mach :=
  let n := ((List.range 64).filter (bad.getLsbD ·)).length
  let m := (List.range n).foldl (fun m _ => intakeParity m 2) m
  setFab m (fun f => { f with
    batches := f.batches.map (fun b => if b.context = c ∧ b.no = no then { b with voidMask := b.voidMask ||| (bad &&& b.fillMask) } else b)
    judgeObjs := f.judgeObjs.map (fun o =>
      if o.context = c ∧ o.batch = no ∧ o.slot < 64 ∧ bad.getLsbD o.slot then { o with flags := o.flags ||| 1 } else o) })

/-- Issue a step (R310 to R312, R330): its conditions hold, its batch is copied, its descriptors are in flight. The queue is
filled and fetched in one act (assumption 8). `r`: repetition, for a step once per batch. `bad`: slots that the batch's copying finds bad. -/
def issueStep (m : Mach) (c lt sn r : Nat) (bad : BitVec 64) : Mach :=
  let x := ctxOf m c
  match x.program, x.workMap[lt]? with
  | some p, some t =>
    match (runSteps p lt)[sn]? with
    | none => m
    | some st =>
      let b := if st.perBatch then (ltBatches m c p lt)[r]? else some { (default : Batch) with filled := 1 }
      match b with
      | none => m
      | some b =>
        let bo := if st.perBatch then some b.no else none
        let key := stepKey lt sn st b.no
        let waits := st.waitT == 255 || stepCommitted m c p st.waitT st.waitS bo
        let before := (List.range sn).all (fun k => stepIssued m c p lt k bo)
        if !p.tick || !pipelineOn m || m.fab.ctxRun == some (c, 3) || !tilUp m t || b.filled == 0 || b.abandoned != 0 || x.stepsIssued.contains key
            || !waits || !before || !peerReady m c p st.peerWait || decide (allInflight m t + st.count > 1024) then m
        else
          -- a re-run goes ahead only when the Judge stage has time for it (R359)
          let again := bo.isSome && x.carry.any (fun y => y.lc && y.lt == lt && y.batch == bo)
          if again && !timeFits m c bo then
            missWork (setCtx m c (fun y => { y with carry := y.carry.filter (fun z => !(z.lc && z.lt == lt && z.batch == bo)) })) t c bo
          else
          let b' := { b with voidMask := b.voidMask ||| (bad &&& b.fillMask) }
          let m := if st.perBatch ∧ !b.copied.contains lt then copyBatch (voidSlots m c b.no bad) c p lt t r b' else m
          let q := ltQueue c p lt
          let m := setQue m q (fun y => { y with lc := true, hbmRing := true, ltiller := lt })
          let runs := ((x.stepSeqs.find? (fun e => e.1 == key)).map (fun e => e.2.2 + 1)).getD 0
          let m := setCtx m c (fun y => { y with
            stepsIssued := y.stepsIssued ++ [key]
            stepSeqs := y.stepSeqs.filter (fun e => e.1 != key) ++ [(key, nextSeq m q, runs)] })
          let m := forEach (stepDescs p st).zipIdx m (fun m d =>
            let raw := if st.perBatch then rotateDesc p lt r d.1 else d.1
            let seq := nextSeq m q
            let old := (ctxOf m c).carry.find? (fun y => y.lc && y.step == some (lt, sn) && y.ix == d.2 && y.batch == bo)
            let m := setQue m q (fun y => { y with ci := y.ci + 1, pi := y.ci + 1 })
            let cmd : Cmd := { queue := q, seq := seq, ctx := c, tiller := t, lc := true, lt := lt, raw := raw, desc := raw
                               batch := bo, step := some (lt, sn), ix := d.2, tick := m.ctl.tickCount - 2, runs := runs
                               readyAt := some m.time.now }
            let cmd := match old with
              | some y => { cmd with killed := y.killed, rechecked := y.rechecked, second := y.second, kills := y.kills
                                     engine := y.engine, readyAt := y.readyAt, soloMhz := y.soloMhz }
              | none => cmd
            let m := setCtx m c (fun y => { y with carry := y.carry.filter (fun z => !(z.lc && z.step == some (lt, sn) && z.ix == d.2 && z.batch == bo)) })
            takeDesc m cmd false)
          resched (balance m c lt)
  | _, _ => m

def execStepIssue (c : Fin 16) (lt : Fin 8) (sn r : Nat) (bad : BitVec 64) (s : State) := s.run (fun m => issueStep m c.val lt.val sn r bad)

/-- Has a step committed for all its repetitions, on every logical Tiller that runs it (R319, R325)? -/
def stepOver (m : Mach) (c : Nat) (p : Program) (lt sn : Nat) : Bool :=
  (members p lt).all (fun k => stepCommitted m c p k sn none)

/-- A COMMIT of a step. Its last one commits the step (R310): its batch's progress, and, once every repetition has committed, the
landed count of the half that it consumed (R325). -/
def stepDone (m : Mach) (k : Cmd) : Mach :=
  match k.step, (ctxOf m k.ctx).program with
  | some (lt, sn), some p =>
    match (runSteps p lt)[sn]? with
    | none => m
    | some st =>
      if k.ix + 1 ≠ st.count then m
      else
        let key := stepKey lt sn st (k.batch.getD 0)
        let m := setCtx m k.ctx (fun x => { x with stepsDone := if x.stepsDone.contains key then x.stepsDone else x.stepsDone ++ [key] })
        let m := if k.silent then m else match (ctxOf m k.ctx).winOpen.find? (fun w => w.1 == st.peerWait) with
          | some w =>
            if stepOver m k.ctx p lt sn then setWin m w.2 (fun w => if tickHalf m = 0 then { w with landed0 := 0 } else { w with landed1 := 0 }) else m
          | none => m
        balance m k.ctx lt
  | _, _ => m

/-- Has the network finished a batch (R310)? -/
def batchDone (m : Mach) (c : Nat) (b : Batch) : Bool :=
  match (ctxOf m c).program with
  | none => false
  | some p => (List.range p.logical).all (fun lt => (runSteps p lt).zipIdx.all (fun s =>
      if s.1.perBatch then !assignedTo p lt b || (ctxOf m c).stepsDone.contains (lt, s.2, b.no)
      else (ctxOf m c).stepsDone.contains (lt, s.2, 0)))

/-- The DECISION bin that holds a batch's results (R309, R319, R368): that of the logical Tiller that runs the batch, where several have one. -/
def decisionBin (p : Program) (b : Option Batch) : Option BinDecl :=
  let ds := p.bins.filter (fun d => d.decision)
  match ds.find? (fun d => b.any (assignedTo p d.ltiller)) with
  | some d => some d
  | none => ds.head?

/-- The RESULT of a slot, from the DECISION bin (R368); none where the program has no such bin placed. Where the bin is a window of ours, the
other parts write the half of this tick, and that half is read (R325, R327; assumption 120). -/
def resultAt (m : Mach) (c no slot : Nat) : Option Nat :=
  match (ctxOf m c).program with
  | none => none
  | some p => match decisionBin p (m.fab.batches.find? (fun b => b.context == c && b.no == no)) with
    | none => none
    | some d => match (ctxOf m c).workMap[d.ltiller]? with
      | none => none
      | some t =>
        let e := binOf m t c (mapHandle m c d.ltiller d.handle)
        let half := match p.peer.find? (fun w => w.owner == p.moduleIndex && w.ltiller == d.ltiller && w.handle == d.handle) with
          | some w => tickHalf m * w.halfKib * 1024
          | none => 0
        let a := e.base * 1024 + half + 2 * (no * p.batch + slot)
        let rd1 := fun (a : Nat) => (if e.space = 1 then readByte true m.fab.hbm c a else readByte false (tilOf m t).granary c a).toNat
        some (rd1 a + 256 * rd1 (a + 1))

end Sys2Proof.Machine
end

