-- ==== Sys2Proof/Machine/Contexts.lean ====
section
/-!
DEFINITION. Machine/Contexts.lean: COMMIT; contexts admitted, loaded, unloaded and released (R340 to R342, R413 to R415); scrubs
(R342, R418 to R420); the loads of a re-placement (R322).
-/

namespace Sys2Proof.Machine

/-- COMMIT (R261, R276, R277): once every earlier command of its queue is done, the group is published and reported. -/
def commit (q seq : Nat) (m : Mach) : Mach :=
  match cmdOf m q seq with
  | none => m
  | some k =>
    if dOp k.desc = 0x0B ∧ k.phase = .fetched ∧ fabricOn m ∧ tilUp m k.tiller ∧ (earlier m k).all (fun x => x.phase == .done) then
      resched (trimPools (stepDone (commitGroup m k sendWrites) k) k.ctx k.tiller)
    else m

def execCommit (q seq : Nat) (s : State) := s.run (commit q seq)

/-- REPLACEMENT_LOADS_COMPLETE (R322 step 2, R357). `lost`: contexts whose program image had no good copy left. -/
def execReplacementLoadsComplete (lost : BitVec 16) (s : State) := s.run (fun m =>
  match m.fab.pend with
  | some p => if p.loaded || !fabricOn m then m else resched (loadMoved (loseImages m lost))
  | none => m)

/-- Change the measurement list (R406, R407). -/
def setMeas (m : Mach) (f : List (Nat × Nat × List Byte) → List (Nat × Nat × List Byte)) : Mach :=
  let m := setGlume m (fun g => { g with meas := f g.meas })
  wr m F.GLM_MEAS_GEN_GEN 0 ((rd m F.GLM_MEAS_GEN_GEN 0 + 1) % 2 ^ 32)

/-- Put one measurement in its place. -/
def putMeas (m : Mach) (ix type : Nat) (v : List Byte) : Mach :=
  setMeas m (fun l => insBy (fun a b => decide (a.1 ≤ b.1)) (ix, type, v) (l.filter (fun x => x.1 != ix)))

/-- Code of a context's state (R340). -/
def ctxCode (c : CtxState) : Nat :=
  match c with
  | .free => 0 | .admitted => 1 | .loaded => 2 | .sealed => 3 | .scrubbing => 4 | .module => 5

/-- The state a context shows: C0 is the module's (R340). -/
def ctxState (m : Mach) (c : Nat) : CtxState := if c = 0 then .module else (ctxOf m c).st

/-- Audit entry 0x0007 (R400): a context's state and its program hash. -/
def auditCtxAs (m : Mach) (c : Nat) (st : CtxState) : Mach :=
  audit m 0x0007 c (leBytes 1 (ctxCode st) ++ (match (ctxOf m c).program with
    | some p => (digestBytes p.hash).take 47
    | none => []))

/-- The entry of a context as it is now. -/
def auditCtx (m : Mach) (c : Nat) : Mach := auditCtxAs m c (ctxState m c)

/-- The first confidential context arrives (R414): probes and injections are disarmed (R208, R367), the DBG trace buffer is cleared. -/
def confArrives (m : Mach) : Mach :=
  let m := if m.isp.probe.isSome then
      forEach [F.INT_ISP_PROBE_D0_S3_B0, F.INT_ISP_PROBE_D0_S3_B1, F.INT_ISP_PROBE_D1_S3_B2, F.INT_ISP_PROBE_D1_S6_C0,
        F.INT_ISP_PROBE_D2_S6_C1, F.INT_ISP_PROBE_D2_S6_C2, F.INT_ISP_PROBE_D3_S7_C0, F.INT_ISP_PROBE_D3_S7_C1,
        F.INT_ISP_PROBE_D3_S7_C2] (setIsp m (fun i => { i with probe := none })) (fun m f => wr m f 0 0)
    else m
  setFab m (fun b => { b with tillers := b.tillers.map (fun t => (t.1, { t.2 with inject := {} })), trace := [] })

/-- The last confidential context has gone: the figures count again from 0 (R347, R365). -/
def confGone (m : Mach) : Mach :=
  let m := setFab m (fun b => { b with
    countFrom := m.time.now
    ctxs := b.ctxs.map (fun x => (x.1, { x.2 with
      time := 0, slow := 0, slowKills := 0, winLat := 0, winSolo := (0, 1), winKills := 0 })) })
  forEach (List.range 8) m (fun m t =>
    let m := forEach [F.TIL_UTIL_BUSY, F.TIL_UTIL_UTIL, F.TIL_ARITH_CNT_SAT, F.TIL_ARITH_CNT_NAN_INT] m (fun m f => wr m f t 0)
    setTil m t (fun x => { x with winBusy := 0, winMacs := 0 }))

/-- Bind the logical queues of a context's program (R320, R328, R466). -/
def bindQueues (m : Mach) (c : Nat) (p : Program) : Mach :=
  forEach p.queues m (fun m q => setQue m (4096 * c + q.queue) (fun x =>
    { era := x.era + 1, st := .enabled, lc := q.cls == 1, hbmRing := true, cr := q.cr, ordered := q.flags.getLsbD 0, ltiller := q.ltiller, log2Size := q.log2Size }))

/-- Disable the queues of a context's program (R341). -/
def stopProgramQueues (m : Mach) (c : Nat) : Mach :=
  setFab m (fun b => { b with queues := b.queues.map (fun q =>
    if q.1 / 4096 = c ∧ q.1 % 4096 < 256 then (q.1, { q.2 with st := .disabled }) else q) })

/-- The address of QUE_CTX_ARG. -/
def ctxArg (m : Mach) : BitVec 64 := BitVec.ofNat 64 (rd m F.QUE_CTX_ARG_HI_ADDR_HI 0 * 2 ^ 32 + rd m F.QUE_CTX_ARG_LO_ADDR_LO 0 * 4096)

/-- The context that QUE_CTX_SEL names. -/
def selCtx (m : Mach) : Nat := rd m F.QUE_CTX_SEL_CONTEXT 0

/-- End a context command at once: its RESULT, and CTX_DONE. -/
def ctxEnd (m : Mach) (c r : Nat) : Mach := raiseCtx (setCtx m c (fun x => { x with result := r })) F.QUE_EVENT_CTX_DONE 0 c

/-- A context command that is ignored: RESULT DENIED and the event DENIED (R341). -/
def ctxDenied (m : Mach) (c : Nat) : Mach := raiseCtx (setCtx m c (fun x => { x with result := 1 })) F.QUE_EVENT_DENIED 0 c

/-- The host may command the context now (R341). -/
def ctxCommand (f : Nat → Mach → Mach) (m : Mach) : Mach :=
  bar0P m (fun m =>
    let c := selCtx m
    if m.fab.ctxRun.isSome || c == 0 || (ctxOf m c).st == .sealed || !bitOf (rd m F.QUE_HOST_MASK_MASK 0) c then ctxDenied m c
    else f c m)

/-- May a confidential context be admitted (R413)? There is a key slot for every context, so one is free (R405). -/
def confAllowed (m : Mach) : Bool :=
  m.fuses.life == .owned && m.ctl.st != .dormant && !m.glume.dormScrub
    && m.glume.sessions.any (fun s => s.isOpen && s.id == BitVec.ofNat 32 (rd m F.GLM_CONF_SESSION_SESSION_ID 0))

/-- A new placement of one context stands. -/
def placed (m : Mach) (c : Nat) (mp : List Nat) : Mach := placementDone (bindCtx m c mp)

/-- A fresh key pair for a confidential context, a free value (R414). -/
def newKey (m : Mach) (c : Nat) : Mach :=
  let r := draw m
  setCtx r.1 c (fun x => { x with key := some (BitVec.ofNat 512 r.2) })

/-- ADMIT (R341, R413, R414). -/
def admitCtx (v : Word) (c : Nat) (m : Mach) : Mach :=
  let share := bits v.toNat 16 8
  let logical := bits v.toNat 8 4
  let conf := bitOf v.toNat 3
  if share = 0 || !within 1 logical 8 then ctxDenied m c
  else if (ctxOf m c).st ≠ .free then ctxEnd m c 2
  else if (if conf then !confAllowed m else m.fuses.confOnly) then ctxEnd m c 1
  else
    let m1 := setCtx m c (fun x => { ({} : Ctx) with
      st := .admitted, conf := conf, share := share, logical := logical, scrubbed := x.scrubbed
      session := if conf then BitVec.ofNat 32 (rd m F.GLM_CONF_SESSION_SESSION_ID 0) else 0 })
    match placeNew m1 c with
    | none => ctxEnd m c 3
    | some mp =>
      let first := conf && !confPresent m
      let m1 := if conf then newKey m1 c else m1
      let m2 := placed (if first then confArrives m1 else m1) c mp
      ctxEnd (auditCtx m2 c) c 0

def execAdmitCtx (v : Word) (s : State) := s.run (ctxCommand (admitCtx v))

/-- The swath from which a program's decisions count when it is placed now (R341): the next whose Judge stage begins. -/
def nextJudged (m : Mach) : BitVec 48 := if ticking m && m.ctl.tickCount != 0 then m.ctl.tickCount - 1 else 0

/-- A program of a context is placed: queues, windows and grants, held peer ports, the objects it judges (R134, R326, R328,
R341, R419). -/
def programPlaced (m : Mach) (c : Nat) (p : Program) : Mach :=
  let m := bindQueues m c p
  let m := setCtx m c (fun x => { x with decideFrom := some (nextJudged m), scrubbed := if p.tick then false else x.scrubbed })
  let m := holdRelease (grantAll m c true)
  placementDone m

/-- The bytes of the label "Y8 ctx load" (R415). -/
def loadLabel : List Byte := [0x59, 0x38, 0x20, 0x63, 0x74, 0x78, 0x20, 0x6C, 0x6F, 0x61, 0x64]

/-- The key that wraps an image for a context: of the secret of the session that it is bound to (R413, R415); none once that session has
ended (DEDUCED, assumption 41). -/
def wrapKey (m : Mach) (c : Nat) : Option (List Byte) :=
  (m.glume.sessions.find? (fun s => s.isOpen && s.id == (ctxOf m c).session)).map (fun s =>
    hkdfExpand s.secret (loadLabel ++ leBytes 1 c) 32)

/-- A wrapped image's tag holds (R415). -/
def unwraps (m : Mach) (c : Nat) (d : LoadData) : Bool :=
  d.wrapped && decide (d.iv.length = 12) && (wrapKey m c).any (fun k => gcmTag k d.iv d.text == d.tag)

/-- LOAD (R318, R341, R415). The wrapped image of a confidential context has an IV of 12 bytes before it and a tag of 16 after it. -/
def load (data : Option LoadData) (c : Nat) (m : Mach) : Mach :=
  let x := ctxOf m c
  if x.st ≠ .admitted then ctxEnd m c 2
  else
    let m := emit m (.dmaRead (ctxArg m) (match data with
      | some d => if d.wrapped then d.text.length + 28 else d.program.length
      | none => 0))
    match data with
    | none => ctxEnd m c 5
    | some d =>
      let fail := fun (r : Nat) => ctxEnd (raiseCtx (setCtx m c (fun x => { x with progState := 3, reason := r }))
        F.GEN_PLACE_EVENT_REFUSED 0 c) c 4
      if x.conf && !unwraps m c d then fail 0xA
      else if !x.conf && d.wrapped then fail 1
      else
        let p := d.program
        let r := loadReason m c x.conf p
        if r ≠ 0 then fail r
        else
          let m1 := setCtx m c (fun x => { x with program := some p, logical := p.logical })
          match placeNew m1 c with
          | none => fail 8
          | some mp =>
            let m2 := setCtx (releaseCtx m1 c) c (fun x => { x with st := .loaded, reason := 0 })
            let m3 := programPlaced (bindCtx m2 c mp) c p
            let m4 := if x.conf then putMeas m3 (0x10 + c) 3 (digestBytes p.hash) else m3
            ctxEnd (auditCtx m4 c) c 0

/-- LOAD: `data` is what QUE_CTX_ARG names in host memory; none: host memory fails. -/
def execLoad (data : Option LoadData) (s : State) := s.run (ctxCommand (load data))

/-- UNLOAD (R341): the program's queues stop; it ends once the commands of the context have ended (R269). -/
def execUnload (s : State) := s.run (ctxCommand (fun c m =>
  if (ctxOf m c).st ≠ .loaded then ctxEnd m c 2
  else
    let m := closeCtxWindows (stopProgramQueues m c) c
    unloadDone (setFab m (fun b => { b with ctxRun := some (c, 3) }))))

/-- Begin the scrub of a context (R342, R418 step 1, R163). -/
def startScrub (m : Mach) (c : Nat) : Mach :=
  let m := setCtx m c (fun x => { x with st := .scrubbing, scrubbed := true })
  let mine := m.fab.inflight.filter (fun x => x.ctx == c) ++ parked (ctxOf m c)
  let m := forEach (mine.filter (fun x => x.phase == .running || x.phase == .held)) m stopRun
  -- in the order of R336: an ordered queue's by SEQ; else those that had completed first, in the order of their completion
  let order := (mine.map (fun x => x.queue)).dedup.flatMap (fun q =>
    let cs := mine.filter (fun x => x.queue == q)
    if isOrdered m q then seqSort cs else cs.filter (fun x => x.phase == .done) ++ seqSort (cs.filter (fun x => x.phase != .done)))
  let m := forEach order m (fun m k =>
    let x := (cmdOf m k.queue k.seq).getD k
    reportCmd m { x with status := stScrubbed, kills := x.kills + b2n (x.phase != .done) })
  let m := setCtx m c (fun x => { x with carry := [] })
  let m := forEach (peerPorts m c) (closeCtxWindows m c) scrubPort
  let m := setGlume m (fun g => { g with scrubs := sins c g.scrubs })
  -- its batches are no longer judged
  setFab m (fun b => { b with batches := b.batches.map (fun y => if y.context = c ∧ y.abandoned = 0 then { y with abandoned := stScrubbed } else y) })

/-- RELEASE (R341, R342, R420). -/
def release (m : Mach) : Mach :=
  bar0P m (fun m =>
    let c := selCtx m
    -- a second RELEASE of a context being scrubbed is ignored; RESULT := STATE (R420)
    if c ≠ 0 ∧ (ctxOf m c).st = .scrubbing ∧ bitOf (rd m F.QUE_HOST_MASK_MASK 0) c then setCtx m c (fun x => { x with result := 2 })
    else ctxCommand (fun c m =>
      if (ctxOf m c).st = .admitted ∨ (ctxOf m c).st = .loaded then
        setFab (startScrub m c) (fun b => { b with ctxRun := some (c, 4) })
      else ctxEnd m c 2) m)

def execRelease (s : State) := s.run release

/-- SET_SHARE (R341). -/
def execSetShare (v : Word) (s : State) := s.run (ctxCommand (fun c m =>
  let share := bits v.toNat 16 8
  if share = 0 then ctxDenied m c
  else if (ctxOf m c).st = .admitted ∨ (ctxOf m c).st = .loaded then
    resched (ctxEnd (setCtx m c (fun x => { x with share := share })) c 0)
  else ctxEnd m c 2))

/-- A context that is being scrubbed still owes completions (R342): descriptors not yet fetched, or entries that wait for room in a ring that
can take them (assumption 121). A warm reset waits for none (R79). -/
def scrubOwes (m : Mach) (c : Nat) : Bool :=
  (fabricOn m || m.ctl.st == .standby || m.ctl.st == .fault) && !m.ctl.d3hot && !m.ctl.warmDue && m.fab.queues.any (fun q =>
    q.1 / 4096 == c && !q.2.lc && (ringOf m (queRing m q.1)).enable
      && ((q.2.st == .enabled && q.2.ci != q.2.pi) || !q.2.waiting.isEmpty))

/-- What the HBM itself holds of the 64-byte line at a logical address: of a confidential context the ciphertext under its key, the tweak its
number, the logical page and the line (R416; the tweak's bytes are DESIGN CHOICE, assumption 126). Zeros that a scrub writes bypass it (R418). -/
def hbmLine (m : Mach) (a : Nat) : List Byte :=
  let plain := (List.range 64).map (fun i => rawByte true m.fab.hbm (a / 64 * 64 + i))
  let c := lineOwner m.fab.hbm (a / lineBytes)
  match (ctxOf m c).key with
  | some k => xts k (leBytes 1 c ++ leBytes 4 (a / lineBytes) ++ leBytes 1 (a / 64 % 64)) plain
  | none => plain

/-- The CRC-16 in the spare bits of that line: it covers the ciphertext (R350, R416). -/
def hbmCrc (m : Mach) (a : Nat) : Nat := crc16 0x1021 0xFFFF (hbmLine m a)

/-- The HBM pages a context owns (R271). -/
def ownedPages (m : Mach) (c : Nat) : List Nat := (m.fab.hbm.owner.filter (fun o => o.2 == c)).map (fun o => o.1)

/-- Zero a context's pages and let it go (R342, R418 steps 2 to 4): `bad`: pages whose lines failed twice. -/
def endScrub (m : Mach) (c : Nat) (bad : List Nat) : Mach :=
  let pages := ownedPages m c
  let wasConf := (ctxOf m c).conf
  let m := setFab m (fun b => { b with hbm := zeroPages b.hbm pages })
  let m := forEach (bad.filter (pages.contains ·)) m (fun m p =>
    let r := retirePage m c p
    if r.2 then raiseCtx r.1 F.GLM_EVENT_SCRUB_RETIRE 0 c else r.1)
  let m := if m.glume.meas.any (fun x => x.1 == 0x10 + c) then setMeas m (fun l => l.filter (fun x => x.1 != 0x10 + c)) else m
  let ports := peerPorts m c
  let m := raiseCtx (auditCtxAs m c .free) F.GLM_EVENT_SCRUB_DONE 0 c
  let m := releaseCtx m c
  let m := setFab m (fun b => { b with
    hbm := { b.hbm with owner := b.hbm.owner.filter (fun o => o.2 != c) }
    queues := b.queues.filter (fun q => q.1 / 4096 != c)
    rings := b.rings.filter (fun r => r.1 / 256 != c) })
  let m := setCtx m c (fun x => { ({} : Ctx) with scrubbed := x.scrubbed, result := x.result })
  let m := setGlume m (fun g => { g with scrubs := g.scrubs.filter (· != c) })
  let m := forEach ports m scrubPortEnd
  let m := if wasConf && !confPresent m then confGone m else m
  let m := placementDone m
  if m.fab.ctxRun = some (c, 4) then ctxEnd (setFab m (fun b => { b with ctxRun := none })) c 0 else m

end Sys2Proof.Machine
end

