-- ==== Sys2Proof/Machine/Intake.lean ====
section
/-!
DEFINITION. Machine/Intake.lean: camera intake (R165 to R186, R464): triggers, line packets, deadlines, fills, the closing of a
swath, alignment.
-/

namespace Sys2Proof.Machine

/-- Lines of a port in a swath: S × m (R10). -/
def swathLen (m : Mach) (p : Nat) : Nat := m.cfg.machine.s * 2 ^ (camOf m p).mult / 4

/-- Bits and bytes of a sample, and the bands of a line (R165, R175). -/
def sampleBits (c : CamPort) : Nat :=
  match c.width with
  | 0 => 8
  | 1 => 10
  | 2 => 12
  | _ => 16
def allBands (c : CamPort) : BitVec 6 := BitVec.ofNat 6 (2 ^ c.bands - 1)

/-- L_p and the LINE flits of a packet (R167). -/
def payloadBytes (c : CamPort) : Nat := cdiv (c.pixels * sampleBits c) 32 * 4
def packetFlits (c : CamPort) : Nat := cdiv (20 + payloadBytes c) 28

/-- Applied offsets; 0 while alignment runs, and of a port that is not fused (R179, R180, R184). -/
def lineOfs (m : Mach) (p : Nat) : Int := if m.ctl.align || (camOf m p).group == 0 then 0 else sext 24 (rd m F.INT_PORT_LOFS_LINE_OFS p)
def pixOfs (m : Mach) (p : Nat) : Int := if m.ctl.align || (camOf m p).group == 0 then 0 else sext 13 (rd m F.INT_PORT_POFS_PIX_OFS p)

/-- The number of the swath being acquired: the tick counter, or the count of alignment swaths (R28, R184). -/
def swathNow (m : Mach) : Nat := if m.ctl.align then m.align.ticks else m.ctl.tickCount.toNat

/-- Trigger position of a line, 1/256 count from the origin (R118, R180). -/
def linePos (m : Mach) (p l : Nat) : Int :=
  ((l * m.cfg.machine.pitch * 1024 / 2 ^ (camOf m p).mult : Nat) : Int) + lineOfs m p * m.cfg.machine.pitch

/-- COUNT of a line: master or virtual count at its trigger position (R155, R465). -/
def lineCountStamp (m : Mach) (p l : Nat) : BitVec 48 :=
  BitVec.ofInt 48 (((if freeRun m then 0 else m.trig.origin * 256) + linePos m p l) / 256)

/-- Trigger latency in force, in 2^-16 ns (R170). -/
def latFine (m : Mach) (p : Nat) : Int := ((ipOf m p).latencyPs * 65536 / 1000 : Nat)

/-- Time at which a line falls, in 2^-16 ns (R120, R124, R180); none while the speed gives no prediction. -/
def lineTime (m : Mach) (p l : Nat) : Option Int :=
  if freeRun m then
    let n := max 1 (swathLen m p)
    let t := m.cfg.machine.periodNs
    let t0 := fineNear m.time.now m.trig.t0 + ((l / n : Nat) - (swathNow m : Int)) * t * 65536
    some (t0 + (l % n * t * 65536 / n : Nat) + lineOfs m p * t * 65536 / (256 * (max 1 m.cfg.machine.s : Nat)))
  else crossing m (linePos m p l)

/-- Trigger instant of a line whose trigger has not been sent (R172): the issue time that R120 or R124 gave it, plus the latency; now, where
there is no prediction. -/
def unsentInstant (m : Mach) (p l : Nat) : LTime :=
  match (ipOf m p).spacing, (ipOf m p).lineCount.toNat == l, lineTime m p l with
  | some t, true, _ => timeOfFine (fine t + latFine m p)
  | _, _, some t => timeOfFine t
  | _, _, none => m.time.now

/-- A port is a camera port that the running image uses, selected if alignment runs (R184). -/
def portActive (m : Mach) (p : Nat) : Bool :=
  cameraPort m p && (!m.ctl.align || ((camOf m p).group != 0 && (m.align.group == 0 || (camOf m p).group == m.align.group)))

/-- Alignment goes on: its origin is set, and the master is valid (R184 step 2). -/
def alignRuns (m : Mach) : Bool := m.ctl.align && !m.align.waiting && (freeRun m || encValid m (master m))

/-- Lines fall: ticks are generated without drain, or alignment goes on (R22, R26, R184). -/
def acquiring (m : Mach) : Bool := (ticking m && !m.ctl.drain) || alignRuns m

/-- A new line of a port: its record (R174). -/
def newLine (m : Mach) (p l : Nat) (t : LTime) (sent : Bool) (mk : Mark) : Line :=
  { lineNo := BitVec.ofNat 32 l, count := lineCountStamp m p l, trigTime := t, mark := mk, sent := sent
    filled := if mk = .outside then allBands (camOf m p) else 0, inReset := mk == .missing, closed := false }

/-- Put the next line of a port into its fill half. -/
def pushLine (m : Mach) (p : Nat) (t : LTime) (sent : Bool) (mk : Mark) : Mach :=
  let ln := newLine m p (ipOf m p).lineCount.toNat t sent mk
  setIp m p (fun i => { i with fill := i.fill ++ [ln], lineCount := i.lineCount + 1, spacing := none })

/-- Lines of the present swath whose shifted position lies before the origin are not triggered (R181). Their TRIG_TIME is the time predicted
for that position, now where there is none, and their deadline follows from it (assumption 115). -/
def pushOutside (fuel : Nat) (m : Mach) (p : Nat) : Mach :=
  match fuel with
  | 0 => m
  | fuel + 1 =>
    let l := (ipOf m p).lineCount.toNat
    if linePos m p l < 0 ∧ l < (swathNow m + 1) * swathLen m p then pushOutside fuel (pushLine m p (unsentInstant m p l) false .outside) p else m

/-- A fill of one band (R173). -/
def fillBand (c : CamPort) (prev : List (List Nat)) (b : Nat) : List Nat :=
  match c.fill with
  | 0 => let x := prev.getD b []; if x.isEmpty then List.replicate c.pixels 0 else x
  | 1 => List.replicate c.pixels 0
  | _ => List.replicate c.pixels c.fillConst

/-- Settle a line (R172 to R174): the bands that are missing or bad are filled. `reset`: the port was in reset, nothing is late. -/
def settleLine (m : Mach) (p : Nat) (ln : Line) (reset : Bool) : Mach × Line :=
  let c := camOf m p
  let missing := allBands c &&& ~~~ ln.got
  let late := missing ≠ 0 ∧ ln.mark ≠ .outside
  let filled := ln.filled ||| missing
  let i := ipOf m p
  let bands := (List.range c.bands).map (fun b =>
    if filled.getLsbD b then fillBand c i.prevBands b else ln.bands.getD b [])
  let m := if late ∧ !reset then raiseCount m F.INT_PORT_EVENT_LATE F.INT_PORT_CNT0_LATE p else m
  (setIp m p (fun i => { i with prevBands := bands }),
    { ln with filled := filled, bands := bands, closed := true, mark := if late then .missing else ln.mark })

/-- Settle lines in ascending order. -/
def settleAll (p : Nat) (reset : Bool) : List Line → Mach → Mach × List Line
  | [], m => (m, [])
  | ln :: ls, m =>
    let a := if ln.closed then (m, ln) else settleLine m p ln reset
    let b := settleAll p reset ls a.1
    (b.1, a.2 :: b.2)

/-- The flit boundary of a trigger lies at the local time at which the command comes, within one cycle of the time base (R86, R155). -/
def atBoundary (m : Mach) (b : LTime) : Bool := decide ((tdiff b m.time.now).natAbs ≤ 3 * 65536)

/-- TRIGGER_ISSUE (R120 to R122, R124, R155, R169 to R172, R181): the next trigger of a port; `boundary` is the last flit boundary at
or before its issue time, or the first after a time already past. A symbol due before its spacing allows waits for it and is counted once. -/
def triggerIssue (p : Nat) (boundary : LTime) (m : Mach) : Mach :=
  if !(acquiring m && portActive m p) || (ipOf m p).inReset || !atBoundary m boundary then m
  else
    let m := pushOutside (swathLen m p) m p
    let l := (ipOf m p).lineCount.toNat
    -- a line before the origin waits for its own swath (R181)
    match if linePos m p l < 0 then none else lineTime m p l with
      | none => m
      | some t =>
        let lat := latFine m p
        let b := fineNear m.time.now boundary
        let due := t - lat
        -- 32 UI of 1/28 ns
        if due ≥ b + 32 * 65536 / 28 then m
        else
          let issue := match (ipOf m p).spacing with
            | some x => fineNear m.time.now x
            | none => max due b
          let free := match (ipOf m p).lastTrig with
            | some x => fineNear m.time.now x + (camOf m p).minPeriod * 10 * 65536
            | none => due
          let m := if max due b < free ∧ (ipOf m p).spacing.isNone then
              inc (setIp m p (fun i => { i with spacing := some (timeOfFine issue) })) F.ENC_TRIG_STAT_SPACED 0
            else m
          if free ≥ b + 32 * 65536 / 28 then m
          else
            let want := max (max due b) free
            let q := ((want - b) * 56 + 65536) / 131072
            let f := q % 32
            let start := b + q / 32 * (32 * 65536 / 28)
            let sym := start + f * 65536 / 28
            if (portOf m p).phy ≠ .l0 then
              let m := pushLine m p (timeOfFine (issue + lat)) false .good
              raiseCount m F.SHF_LNK_EVENT_TRIG_LOST F.SHF_LNK_CNT2_TRIG_LOST p
            else
              let m := pushLine (setIp m p (fun i => { i with lastTrig := some (timeOfFine sym) })) p (timeOfFine (sym + lat)) true .good
              emitFlit m p (mkFlit 2 0 (leBytes 1 f.toNat ++ leBytes 4 (l % 2 ^ 32) ++ leBytes 6 (lineCountStamp m p l).toNat))

def execTriggerIssue (port : Fin 16) (boundary : LTime) (s : State) : Host.Outcome State Fault Refusal :=
  s.run (triggerIssue port boundary)

/-- Check 1 of R171 on the first flit of a packet. -/
def headerOk (c : CamPort) (p : Nat) (b : List Byte) : Bool :=
  let bf := leAt b 3 1
  leAt b 0 1 == 0xA5 && leAt b 1 1 == 1 && leAt b 2 1 == p && decide (bits bf 0 3 < c.bands) && !bitOf bf 3 && !bitOf bf 7
    && bits bf 4 2 == c.width && leAt b 14 2 == c.pixels % 65536

/-- Samples of a payload (R167), in the order stored (R179). -/
def unpackLine (c : CamPort) (payload : List Byte) : List Nat :=
  let w := sampleBits c
  let n := leNat payload
  let xs := (List.range c.pixels).map (fun i => bits n (w * i) w)
  if c.mirror then xs.reverse else xs

/-- Change the line of a number in a list of lines. -/
def onLine (no : BitVec 32) (f : Line → Line) (ls : List Line) : List Line := ls.map (fun l => if l.lineNo = no then f l else l)

/-- A framed packet meets checks 2 to 5 of R171. -/
def takePacket (m : Mach) (p : Nat) (b : List Byte) : Mach :=
  let c := camOf m p
  let i := ipOf m p
  let no : BitVec 32 := BitVec.ofNat 32 (leAt b 4 4)
  let band := bits (leAt b 3 1) 0 3
  let unexpected := raiseCount m F.INT_PORT_EVENT_UNEXPECTED F.INT_PORT_CNT1_UNEXPECTED p
  let late := raiseCount m F.INT_PORT_EVENT_LATE_ARRIVED F.INT_PORT_CNT2_LATE_ARRIVED p
  if i.inReset then unexpected
  else match i.fill.find? (fun l => l.lineNo == no) with
    | none => if i.recent.contains no then late else unexpected
    | some l =>
      if !l.sent then unexpected
      else if l.closed then late
      else if l.count.toNat ≠ leAt b 8 6 || l.got.getLsbD band then unexpected
      else
        let one := 1#6 <<< band
        let n := 16 + payloadBytes c
        let put := fun (f : Line → Line) => setIp m p (fun i => { i with fill := onLine no f i.fill })
        let bad := put (fun l => { l with got := l.got ||| one, filled := l.filled ||| one, mark := if l.mark = .good then .bad else l.mark })
        if crc32 (slice b 0 n) ≠ leAt b n 4 then raiseCount bad F.INT_PORT_EVENT_CRC_ERR F.INT_PORT_CNT0_CRC_ERR p
        else if bitOf (leAt b 3 1) 6 then raiseCount bad F.INT_PORT_EVENT_CAM_ERR F.INT_PORT_CNT2_CAM_ERR p
        else
          let xs := unpackLine c (slice b 16 (payloadBytes c))
          put (fun l => { l with got := l.got ||| one
                                 bands := (List.range c.bands).map (fun k => if k = band then xs else l.bands.getD k []) })

/-- Drop the flits that fail check 1; HDR_ERR counts once a run (R464). -/
def dropHeaders (m : Mach) (p : Nat) : List (List Byte) → Mach × List (List Byte)
  | [] => (m, [])
  | f :: fs =>
    if headerOk (camOf m p) p f then (setIp m p (fun i => { i with hdrRun := false }), f :: fs)
    else
      let m := if (ipOf m p).hdrRun then m
        else raiseCount (setIp m p (fun i => { i with hdrRun := true })) F.INT_PORT_EVENT_HDR_ERR F.INT_PORT_CNT1_HDR_ERR p
      dropHeaders m p fs

/-- The deadline of a line (R172): its trigger instant plus 0.75 × MIN_PERIOD, in 2^-16 ns. -/
def deadline (m : Mach) (p : Nat) (l : Line) : Int :=
  fineNear m.time.now l.trigTime + ((camOf m p).minPeriod * 10 * 65536 * 3 / 4 : Nat)

/-- A line's deadline has passed (R172). -/
def overdue (m : Mach) (p : Nat) (l : Line) : Bool := decide (deadline m p l ≤ fine m.time.now)

/-- Settle the first `k` lines of the fill half. -/
def settleFirst (m : Mach) (p k : Nat) : Mach :=
  let i := ipOf m p
  let r := settleAll p false (i.fill.take k) m
  setIp r.1 p (fun i => { i with fill := r.2 ++ i.fill.drop k })

/-- What deadlines have passed by now on a port act before anything that asks for them (R171 check 2, R172). -/
def passDeadlines (m : Mach) (p : Nat) : Mach :=
  let i := ipOf m p
  if i.inReset then m else settleFirst m p ((i.fill.takeWhile (fun l => l.closed || overdue m p l)).length)

/-- LINE_PACKET (R78, R171, R464): the next packet among the LINE flits received. On a held port it is discarded and counted; its
length is then what its own header says (assumption 41). -/
def linePacket (p : Nat) (m : Mach) : Mach :=
  let fs := (portOf m p).rxLine
  if fs.isEmpty then m
  else if !m.ctl.cameraApplied || (portOf m p).phy == .hold then
    let h := fs.headD []
    let c : CamPort := { width := bits (leAt h 3 1) 4 2, pixels := leAt h 14 2 }
    let m := setPort m p (fun s => { s with rxLine := s.rxLine.drop (packetFlits c) })
    raiseCount (inc m F.GEN_EARLY_DROP_CAMERA 0) F.INT_PORT_EVENT_EARLY_DROP F.INT_PORT_CNT1_EARLY_DROP p
  else if !cameraPort m p then setPort m p (fun s => { s with rxLine := [] })
  else
    let r := dropHeaders m p fs
    let m := setPort r.1 p (fun s => { s with rxLine := r.2 })
    let n := packetFlits (camOf m p)
    if r.2.length < n ∨ r.2.isEmpty then m
    else takePacket (passDeadlines (setPort m p (fun s => { s with rxLine := r.2.drop n })) p) p (r.2.take n).flatten

def execLinePacket (port : Fin 16) (s : State) : Host.Outcome State Fault Refusal := s.run (linePacket port)

/-- LINE_DEADLINE (R172, R173): a line's deadline has come; those of the lines before it have passed too. -/
def lineDeadline (p : Nat) (no : BitVec 32) (m : Mach) : Mach :=
  let i := ipOf m p
  match i.fill.findIdx? (fun l => l.lineNo == no && !l.closed && overdue m p l) with
  | none => m
  | some k => if i.inReset then m else settleFirst m p (k + 1)

def execLineDeadline (port : Fin 16) (line : BitVec 32) (s : State) : Host.Outcome State Fault Refusal :=
  s.run (lineDeadline port line)

/-- Bring a port's lines up to the end of the swath that closes: lines before the origin, lines whose trigger was withdrawn or
that fell while the port was in reset (R81, R172, R181). -/
def completeLines (fuel : Nat) (m : Mach) (p stop : Nat) : Mach :=
  match fuel with
  | 0 => m
  | fuel + 1 =>
    let l := (ipOf m p).lineCount.toNat
    if l ≥ stop then m
    else
      let t := unsentInstant m p l
      let m := if linePos m p l < 0 then pushLine m p t false .outside
        else if (ipOf m p).inReset then pushLine m p t false .missing
        else pushLine (raiseCount m F.SHF_LNK_EVENT_TRIG_LOST F.SHF_LNK_CNT2_TRIG_LOST p) p t false .good
      completeLines fuel m p stop

/-- Close a port's swath at the tick (R16, R172 to R175): the halves exchange. -/
def closePort (m : Mach) (p : Nat) : Mach :=
  let n := swathLen m p
  let stop := (swathNow m + 1) * n
  let m := completeLines (n + 1) m p stop
  let i := ipOf m p
  let mine := i.fill.length - (i.lineCount.toNat - stop)
  let r := settleAll p i.inReset (i.fill.take mine) m
  let m := r.1
  let marked := r.2.any (fun l => l.mark != .good)
  let m := if marked then raiseCount m F.INT_PORT_EVENT_SWATH_MARKED F.INT_PORT_CNT2_MARKED_SWATHS p else m
  let m := wr m F.INT_PORT_STATUS_MARKED p (b2n marked)
  let m := wr m F.INT_PORT_LAST_BAD_LINES p (sat 16 ((r.2.filter (fun l => l.mark == .bad)).length))
  let m := wr m F.INT_PORT_LAST_FILLED_LINES p (sat 16 ((r.2.filter (fun l => l.filled != 0)).length))
  setIp m p (fun i => { i with
    fill := i.fill.drop mine, drain := r.2
    recent := if i.inReset then [] else (r.2.filter (fun l => l.sent)).map (fun l => l.lineNo) })

/-- Start a port's line state (R169, R191): line number 0, no line before. -/
def startPort (m : Mach) (p : Nat) : Mach :=
  setIp m p (fun i => { i with
    lineCount := 0, fill := [], drain := [], recent := [], prevBands := [], spacing := none, startLine := some 0
    prep := [], latencyPs := i.nextLatPs })

/-- A measured trigger latency takes effect at a tick boundary (R170). -/
def takeLatency (m : Mach) : Mach := { m with intake := m.intake.map (fun p => (p.1, { p.2 with latencyPs := p.2.nextLatPs })) }

/-- Set the origin (R118, R465): pos(t) of the master rounded up to a whole count, or the virtual count at 0. -/
def setOrigin (m : Mach) : Mach :=
  let now := m.time.now
  let o := if freeRun m then 0 else -((-(posNow m)) / 256)
  let m := setTrig m (fun g => { g with origin := o, start := now, t0 := now, high := 0, tickAt := none, backward := false })
  forEach ((List.range 16).filter (cameraPort m)) m startPort

/-- Fields of the alignment registers. -/
def alignState (m : Mach) (st fail : Nat) : Mach :=
  wr (wr m F.INT_ALIGN_STATUS_STATE 0 st) F.INT_ALIGN_STATUS_FAIL 0 fail

/-- Start alignment in CONFIGURED (R184 step 2). GROUP and APPLY are those of the START (assumption 115). -/
def startAlign (m : Mach) (group : Nat) (apply startup : Bool) : Mach :=
  let m := setAlign m (fun _ => { group := group, apply := apply, startup := startup, waiting := true })
  let m := setCtl m (fun c => { c with align := true })
  let m := alignState (wr m F.INT_ALIGN_STATUS_PASS 0 0) 1 0
  if freeRun m || encValid m (master m) then setOrigin (setAlign m (fun a => { a with waiting := false })) else m

/-- Alignment that waits for its master goes on once the master is valid (R184 step 2). -/
def alignReady (m : Mach) : Mach :=
  if m.ctl.align && m.align.waiting && (freeRun m || encValid m (master m)) then
    setOrigin (setAlign m (fun a => { a with waiting := false }))
  else m

/-- Alignment fails (R185). -/
def alignFail (m : Mach) (reason : Nat) : Mach :=
  if !m.ctl.align then m
  else alignState (setAlign (setCtl m (fun c => { c with align := false })) (fun a => { a with lines := [], passes := [] })) 3 reason

/-- A port of a selected group left L0 or was reset (R185). -/
def alignPortLost (m : Mach) (p : Nat) : Mach := if m.ctl.align && portActive m p then alignFail m 5 else m

/-- Mean of a list of numbers, times 65,536. -/
def meanFine (xs : List Nat) : Int := if xs.isEmpty then 0 else (xs.sum * 65536 / xs.length : Nat)

/-- The mean over the central half of the columns of a line, band REF_BAND, times 65,536 (R184 step 3). -/
def lineMean (c : CamPort) (l : Line) : Int := meanFine (((l.bands.getD c.refBand []).drop (c.pixels / 4)).take (c.pixels / 2))

/-- The edge among a port's lines (R184 step 3): index of the line before it and E_p in 1/256 count. The levels must differ by
1/16 of the range (R183). -/
def findEdge (c : CamPort) (ls : List Line) : Option (Nat × Int) :=
  let v := ls.map (lineMean c)
  let at_ := fun (i : Nat) => v.getD i 0
  let avg := fun (i : Nat) => (((v.drop i).take 16).foldl (· + ·) 0) / 16
  ((List.range ls.length).filterMap (fun i =>
    if i + 1 < 16 ∨ i + 17 > ls.length then none
    else
      let a := avg (i - 15)
      let b := avg (i + 1)
      let mid := (a + b) / 2
      if (b - a) * 16 ≥ 2 ^ sampleBits c * 65536 ∧ at_ i < mid ∧ mid ≤ at_ (i + 1) then
        let k0 := (ls.getD i default).count
        let k1 := (ls.getD (i + 1) default).count
        some (i, k0.toInt * 256 + divNear (cdiff k1 k0 * 256 * (mid - at_ i)) (at_ (i + 1) - at_ i).toNat)
      else none)).head?

/-- First run of dark columns 8 to 64 wide: first column and width (R183, R184 step 4). -/
def findRun : List Bool → Nat → Nat → Option (Nat × Nat)
  | [], i, n => if 8 ≤ n ∧ n ≤ 64 then some (i - n, n) else none
  | d :: ds, i, n => if d then findRun ds (i + 1) (n + 1)
    else if 8 ≤ n ∧ n ≤ 64 then some (i - n, n) else findRun ds (i + 1) 0

/-- The column of the dark stripe (R184 step 4). -/
def findStripe (c : CamPort) (ls : List Line) (edge : Nat) : Option Int :=
  let rows := (ls.drop (edge + 9)).take 16
  let col := fun (j : Nat) => (rows.map (fun l => (l.bands.getD c.refBand []).getD j 0)).sum
  let dark := ((ls.drop (edge - 15)).take 16).map (lineMean c)
  let bright := (((ls.drop (edge + 1)).take 16).map (lineMean c)).foldl (· + ·) 0
  let mid := (dark.foldl (· + ·) 0 + bright) / 2
  if rows.length < 16 then none
  else (findRun ((List.range c.pixels).map (fun j => decide ((col j : Int) * 65536 < mid))) 0 0).map (fun r =>
    ((2 * r.1 + r.2 - 1 + 1) / 2 : Nat))

/-- Selected ports. -/
def alignPorts (m : Mach) : List Nat := (List.range 16).filter (portActive m)

/-- What a pass gave for a port: E_p and C_p. -/
def passOf (m : Mach) (p : Nat) : Option (Int × Int) :=
  let ls := tget [] m.align.lines p
  match findEdge (camOf m p) ls with
  | none => none
  | some (i, e) => (findStripe (camOf m p) ls i).map (fun c => (e, c))

/-- The reference of a group: greatest E_p, then lowest port (R184 step 5). -/
def refPort (xs : List (Nat × Int × Int)) : Option (Nat × Int × Int) :=
  xs.foldl (fun r x => match r with
    | none => some x
    | some y => if x.2.1 > y.2.1 then some x else some y) none

/-- The results of a pass (R184 step 5). -/
def passResults (m : Mach) (xs : List (Nat × Int × Int)) : Tab PassRes :=
  xs.filterMap (fun x =>
    let g := (camOf m x.1).group
    (refPort (xs.filter (fun y => (camOf m y.1).group == g))).map (fun r =>
      (x.1, ({ lineOfs := divNear (x.2.1 - r.2.1) (max 1 m.cfg.machine.pitch), pixOfs := r.2.2 - x.2.2 } : PassRes))))

/-- Median of three. -/
def median3 (a b c : Int) : Int := max (min a b) (min (max a b) c)

/-- Write one group's offsets to the audit log (R400 type 0x0004): port, LINE_OFS, PIX_OFS, eight ports an entry. -/
def auditOffsets (m : Mach) (ps : List Nat) : Mach :=
  let put := fun (ps : List Nat) => ps.flatMap (fun p =>
    leBytes 1 p ++ leBytes 3 (rd m F.INT_PORT_LOFS_LINE_OFS p) ++ leBytes 2 (rd m F.INT_PORT_POFS_PIX_OFS p))
  let m := audit m 0x0004 0 (put (ps.take 8))
  if ps.length > 8 then audit m 0x0004 0 (put (ps.drop 8)) else m

/-- Apply the measured offsets of a group (R184 step 7). -/
def applyOffsets (m : Mach) (res : Tab PassRes) (g : Nat) : Mach :=
  let mine := res.filter (fun x => (camOf m x.1).group == g)
  if mine.isEmpty then m
  else
    let m := forEach mine m (fun m x =>
      wr (wr m F.INT_PORT_LOFS_LINE_OFS x.1 (twos 24 (clampI (-8388608) 0 x.2.lineOfs))) F.INT_PORT_POFS_PIX_OFS x.1
        (twos 13 (clampI (-4095) 4095 x.2.pixOfs)))
    auditOffsets m (mine.map (fun x => x.1))

/-- Alignment ends: three passes stand (R184 steps 6 and 7). -/
def alignEnd (m : Mach) : Mach :=
  match m.align.passes with
  | [a, b, c] =>
    let ps := alignPorts m
    let g := fun (t : Tab PassRes) (p : Nat) => tget ({} : PassRes) t p
    let med : Tab PassRes := ps.map (fun p =>
      (p, { lineOfs := median3 (g a p).lineOfs (g b p).lineOfs (g c p).lineOfs, pixOfs := median3 (g a p).pixOfs (g b p).pixOfs (g c p).pixOfs }))
    let ok := med.all (fun x => [a, b, c].all (fun t =>
      decide (((g t x.1).lineOfs - x.2.lineOfs).natAbs ≤ 64) && decide (((g t x.1).pixOfs - x.2.pixOfs).natAbs ≤ 1)))
    if !ok then alignFail m 2
    else
      let m := forEach med m (fun m x => wr (wr m F.INT_ALIGN_RES_L_LINE_OFS x.1 (twos 24 x.2.lineOfs)) F.INT_ALIGN_RES_P_PIX_OFS x.1
        (twos 13 x.2.pixOfs))
      let use := m.align.startup || m.align.apply
      let m := alignState (setAlign (setCtl m (fun c => { c with align := false, alignDue := false }))
        (fun a => { a with lines := [], passes := [] })) 2 0
      if use then forEach [1, 2, 3, 4, 5, 6, 7] m (fun m g => applyOffsets m med g) else m
  | _ => m

/-- ALIGNMENT_PASS_COMPLETE (R184, R185): the target has passed; the lines acquired since the last pass are measured. -/
def alignPass (m : Mach) : Mach :=
  if !m.ctl.align || m.align.waiting then m
  else
    let ps := alignPorts m
    let xs := ps.filterMap (fun p => (passOf m p).map (fun r => (p, r)))
    if xs.length ≠ ps.length ∨ ps.isEmpty then alignFail m 1
    else
      let m := setAlign m (fun a => { a with passes := a.passes ++ [passResults m xs], lines := [] })
      let m := wr m F.INT_ALIGN_STATUS_PASS 0 m.align.passes.length
      alignEnd m

def execAlignmentPassComplete (s : State) : Host.Outcome State Fault Refusal := s.run alignPass

/-- ALIGNMENT_TIMEOUT (R185). -/
def execAlignmentTimeout (s : State) : Host.Outcome State Fault Refusal := s.run (fun m => alignFail m 3)

/-- A tick has been taken at its local time: the next one counts from there (R9, R121, R124, R170). -/
def tickTaken (t : LTime) (m : Mach) : Mach :=
  let m := setTrig (takeLatency m) (fun g => { g with t0 := t, tickAt := none })
  if decide (tickPos m ≤ m.trig.high) then setTrig m (fun g => { g with tickAt := some t }) else m

/-- A swath of alignment closes at the local time of its tick (R184): its lines join the pass. -/
def alignTick (t : LTime) (m : Mach) : Mach :=
  let m := forEach ((List.range 16).filter (portActive m)) m closePort
  let m := forEach ((List.range 16).filter (portActive m)) m (fun m p =>
    let ls := (ipOf m p).drain
    setIp (setAlign m (fun a => { a with lines := tmod [] a.lines p (· ++ ls) })) p (fun i => { i with drain := [] }))
  tickTaken t (setAlign m (fun a => { a with ticks := a.ticks + 1 }))

/-- The commands that can make the master valid: alignment that waits for it then goes on (R184 step 2). -/
def execEncoderEdge (ch : Fin 4) (a b : Bool) (run : Nat) (s : State) : Host.Outcome State Fault Refusal :=
  s.run (fun m => alignReady (encoderEdge ch a b run m))

def execIndex (ch : Fin 4) (run : Nat) (s : State) : Host.Outcome State Fault Refusal := s.run (fun m => alignReady (index ch run m))

def execTooth (ch : Fin 4) (run : Nat) (s : State) : Host.Outcome State Fault Refusal := s.run (fun m => alignReady (tooth ch run m))

def execSsiWord (ch : Fin 4) (pos : BitVec 40) (err : Bool) (crc : BitVec 6) (s : State) :
    Host.Outcome State Fault Refusal := s.run (fun m => alignReady (ssiWord ch pos err crc m))

def execLosClear (ch : Fin 4) (s : State) : Host.Outcome State Fault Refusal := s.run (fun m => alignReady (losClear ch m))

/-- A port command that can take the port out of L0, where a selected group's alignment then fails (R185). -/
def portOut (p : Nat) (f : Mach → Mach) (m : Mach) : Mach :=
  let was := (portOf m p).phy == .l0
  let m := f m
  if was && (portOf m p).phy != .l0 then alignPortLost m p else m

def execFlitReceived (port : Fin 16) (flit : BitVec 256) (s : State) : Host.Outcome State Fault Refusal :=
  s.run (portOut port (flitReceived port flit))

def execLctl (port : Fin 16) (flit : BitVec 256) (s : State) : Host.Outcome State Fault Refusal :=
  s.run (portOut port (lctlReceived port flit))

def execReplayTimeout (port : Fin 16) (s : State) : Host.Outcome State Fault Refusal := s.run (portOut port (replayTimeout port))

def execLowPowerEntry (port : Fin 16) (s : State) : Host.Outcome State Fault Refusal := s.run (portOut port (lowPowerEntry port))

def execTestWrite (port : Fin 16) (on : Bool) (s : State) : Host.Outcome State Fault Refusal := s.run (portOut port (testWrite port on))

def execClkLoss (port : Fin 16) (s : State) : Host.Outcome State Fault Refusal := s.run (portOut port (clkLoss port))

def execDeskewErr (port : Fin 16) (s : State) : Host.Outcome State Fault Refusal := s.run (portOut port (deskewErr port))

def execRetrain (port : Fin 16) (s : State) : Host.Outcome State Fault Refusal := s.run (portOut port (retrain port))

end Sys2Proof.Machine
end

