-- ==== Sys2Proof/Machine/Isp.lean ====
section
/-!
DEFINITION. Machine/Isp.lean: the image pipeline (R187 to R200), its parameter sets (R201 to R207), the pixel probe (R208), and the
commands that change parameters.
-/

namespace Sys2Proof.Machine

/-- rnd of R188: round half up. -/
def rnd (v : Int) (n : Nat) : Int := (v + 2 ^ (n - 1)) / 2 ^ n

/-- Clamp to a working value (R188). -/
def wv (v : Int) : Int := clampI 0 65535 v

/-- Words of a port's area of a set. -/
def areaWord (set : Tab Word) (p off : Nat) : Nat := (tget 0 set (p * 0x40000 + off / 4)).toNat

/-- A 16-bit and an 8-bit field of a port's area (R201). -/
def areaHalf (set : Tab Word) (p off : Nat) : Nat := bits (areaWord set p off) (off % 4 * 8) 16
def areaByte (set : Tab Word) (p off : Nat) : Nat := bits (areaWord set p off) (off % 4 * 8) 8

/-- The active and the inactive set (R201, R206). -/
def activeSet (m : Mach) : Tab Word := if m.isp.active1 then m.isp.set1 else m.isp.set0
def inactiveSet (m : Mach) : Tab Word := if m.isp.active1 then m.isp.set0 else m.isp.set1
def setInactive (m : Mach) (s : Tab Word) : Mach := setIsp m (fun i => if i.active1 then { i with set0 := s } else { i with set1 := s })

/-- Spatial noise reduction of one band (R190). -/
def spatial (set : Tab Word) (p : Nat) (u : List Int) : List Int :=
  let n := u.length
  let k0 := areaHalf set p 4
  let k1 := areaByte set p 6
  let k2 := areaByte set p 7
  let at_ := fun (j : Int) => u.getD (clampI 0 ((n : Int) - 1) j).toNat 0
  (List.range n).map (fun j => wv (rnd (k0 * at_ j + k1 * (at_ (j - 1) + at_ (j + 1)) + k2 * (at_ ((j : Int) - 2) + at_ (j + 2))) 8))

/-- Temporal noise reduction of one sample (R191): output, which is also the next y_p. -/
def temporal1 (alpha th : Nat) (yp ys : Int) : Int :=
  let d := ys - yp
  if d.natAbs > th then ys else wv (yp + rnd (alpha * d) 8)

/-- Stages 1 to 3 of one band (R190 to R193): the temporal output and the stage-3 values by stored column. -/
def stages13 (set : Tab Word) (p nb b : Nat) (prev : Option (List Nat)) (w : Nat) (xs : List Nat) : List Nat × List Int :=
  let ctrl := areaWord set p 0
  let u := xs.map (fun x => ((x * 2 ^ (16 - w) : Nat) : Int))
  let ys := if bitOf ctrl 0 then spatial set p u else u
  let yt := if !bitOf ctrl 1 then ys
    else match prev with
      | none => ys
      | some yp => (ys.zip yp).map (fun z => temporal1 (areaHalf set p (8 + 4 * b)) (areaHalf set p (10 + 4 * b)) z.2 z.1)
  let y3 := yt.zipIdx.map (fun z =>
    let o := 0x4000 + 4 * (z.2 * nb + b)
    let f := if bitOf ctrl 2 then wv (rnd ((z.1 - areaHalf set p o) * areaHalf set p (o + 2)) 14) else z.1
    if bitOf ctrl 3 then wv (rnd (f * areaHalf set p (0x20 + 2 * b)) 14) else f)
  (yt.map Int.toNat, y3)

/-- Colour matrix of one column (R194). -/
def colourMatrix (set : Tab Word) (p nb nc : Nat) (x : List Int) : List Int :=
  (List.range nc).map (fun c =>
    let s := (List.range nb).foldl (fun s b => s + sext 16 (areaHalf set p (0x30 + 12 * c + 2 * b)) * x.getD b 0) 0
    wv (rnd (s + sext 32 (areaWord set p (0x78 + 4 * c)) * 4096) 12))

/-- Tone curve of one channel (R195). -/
def tone (set : Tab Word) (p c : Nat) (v : Int) : Int :=
  let t := fun (n : Nat) => (areaHalf set p (0x1000 + 2048 * c + 2 * n) : Int)
  let n := (v / 64).toNat
  let f := v - n * 64
  if n = 1023 then t 1023 else wv (t n + rnd ((t (n + 1) - t n) * f) 6)

/-- HSV of R197. -/
def hsv (r g b : Int) : Int × Int × Int :=
  let v := max r (max g b)
  let d := v - min r (min g b)
  if d = 0 then (0, 0, v)
  else
    let s := ((2 * d * 65535 + v) / 2) / v
    let n := if v = r then g - b else if v = g then 2 * d + (b - r) else 4 * d + (r - g)
    ((((2 * n * 65536 + 6 * d) / 2) / (6 * d)) % 65536, s, v)

/-- Colour-space conversion of channels 0 to 2 (R196, R197). -/
def convertCsc (csc : Nat) (x : List Int) : List Int :=
  match csc, x with
  | 1, r :: g :: b :: rest =>
    wv (rnd (19595 * r + 38470 * g + 7471 * b) 16) :: wv (rnd (-11058 * r - 21710 * g + 32768 * b) 16 + 32768)
      :: wv (rnd (32768 * r - 27439 * g - 5329 * b) 16 + 32768) :: rest
  | 2, r :: g :: b :: rest =>
    wv (rnd (13933 * r + 46871 * g + 4732 * b) 16) :: wv (rnd (-7509 * r - 25259 * g + 32768 * b) 16 + 32768)
      :: wv (rnd (32768 * r - 29763 * g - 3005 * b) 16 + 32768) :: rest
  | 3, r :: g :: b :: rest => let h := hsv r g b; h.1 :: h.2.1 :: h.2.2 :: rest
  | _, _ => x

/-- Stages 4 to 6 of one aligned column (R194 to R197): channel values. -/
def stages46 (set : Tab Word) (p nb : Nat) (x : List Int) : List Int :=
  let ctrl := areaWord set p 0
  let nc := bits ctrl 12 3
  let y := if bitOf ctrl 4 then colourMatrix set p nb nc x else x
  let y := if bitOf ctrl 5 then y.zipIdx.map (fun z => tone set p z.2 z.1) else y
  convertCsc (bits ctrl 8 2) y

/-- Stage 7 (R199): z of a channel's value. -/
def normZ (set : Tab Word) (p c : Nat) (v : Int) : Val :=
  roundTo 24 (Val.mul (Val.ofInt (v - areaHalf set p (0x90 + 8 * c))) (ofF32 (areaWord set p (0x94 + 8 * c))))

/-- An INT8 element of z (R200). -/
def zInt8 (z : Val) : Int :=
  match z with
  | .fin n mg e => clampI (-128) 127 (let q : Int := roundMag false mg e; if n then -q else q)
  | .nan => 0
  | .inf _ => 0

/-- What the pipeline makes of a line (R187, R189): the temporal state by band, stage-3 values by band and stored column, stage-6
values by channel and aligned column. -/
def pipeLine (m : Mach) (p : Nat) (ln : Line) : List (List Nat) × List (List Int) × List (List Int) :=
  let c := camOf m p
  let set := activeSet m
  let i := ipOf m p
  let fresh := i.startLine == some ln.lineNo || i.temporal.isEmpty
  let bands := (List.range c.bands).map (fun b =>
    stages13 set p c.bands b (if fresh then none else i.temporal[b]?) (sampleBits c) (ln.bands.getD b []))
  let s3 := bands.map (fun x => x.2)
  let ofs := pixOfs m p
  let cols := (List.range c.pixels).map (fun (k : Nat) =>
    let j := (k : Int) - ofs
    stages46 set p c.bands (s3.map (fun b => if j < 0 then 0 else b.getD j.toNat 0)))
  let nc := bits (areaWord set p 0) 12 3
  (bands.map (fun x => x.1), s3, (List.range nc).map (fun k => cols.map (fun x => x.getD k 0)))

/-- The probe captures a line of its port (R208). -/
def probeLine (m : Mach) (p : Nat) (s3 s6 : List (List Int)) : Mach :=
  match m.isp.probe with
  | none => m
  | some (q, col) =>
    if q ≠ p then m
    else
      let m := wr (setIsp m (fun i => { i with probe := none })) F.INT_ISP_PROBE_CTRL_DONE 0 1
      let c := camOf m p
      let inside := decide (col < c.pixels)
      let j := (col : Int) - pixOfs m p
      let v3 := fun (b : Nat) => if inside && decide (0 ≤ j) then ((s3.getD b []).getD j.toNat 0).toNat else 0
      let v6 := fun (k : Nat) => if inside then ((s6.getD k []).getD col 0).toNat else 0
      let set := activeSet m
      let int8 := bits (areaWord set p 0) 10 2 == 0
      let v7 := fun (k : Nat) => if inside && int8 && decide (k < s6.length) then twos 8 (zInt8 (normZ set p k (v6 k))) else 0
      forEach [(F.INT_ISP_PROBE_D0_S3_B0, v3 0), (F.INT_ISP_PROBE_D0_S3_B1, v3 1), (F.INT_ISP_PROBE_D1_S3_B2, v3 2),
        (F.INT_ISP_PROBE_D1_S6_C0, v6 0), (F.INT_ISP_PROBE_D2_S6_C1, v6 1), (F.INT_ISP_PROBE_D2_S6_C2, v6 2),
        (F.INT_ISP_PROBE_D3_S7_C0, v7 0), (F.INT_ISP_PROBE_D3_S7_C1, v7 1), (F.INT_ISP_PROBE_D3_S7_C2, v7 2)] m
        (fun m x => wr m x.1 0 x.2)

/-- A set is consistent (R202) on the enabled ports. -/
def setConsistent (m : Mach) (set : Tab Word) : Bool :=
  (List.range 16).all (fun p =>
    let c := camOf m p
    c.mode != .camera ||
      (let ctrl := areaWord set p 0
       let nc := bits ctrl 12 3
       let scaleOk := fun (w : Nat) => w == 0 || (decide (103 ≤ bits w 23 8) && (decide (bits w 23 8 < 143) || (bits w 23 8 == 143 && bits w 0 23 == 0)))
       areaHalf set p 4 + 2 * areaByte set p 6 + 2 * areaByte set p 7 == 256
        && (List.range 6).all (fun b => within 1 (areaHalf set p (8 + 4 * b)) 256)
        && decide (bits ctrl 10 2 ≤ 2) && within 1 nc 6 && (bitOf ctrl 4 || nc == c.bands) && (bits ctrl 8 2 == 0 || decide (nc ≥ 3))
        && (List.range 6).all (fun k => scaleOk (areaWord set p (0x94 + 8 * k)) && areaHalf set p (0x92 + 8 * k) == 0)
        && bits ctrl 6 2 == 0 && bits ctrl 15 17 == 0 && areaWord set p 0x2C == 0
        && set.all (fun e => !(e.1 / 0x40000 == p && decide (0xC0 ≤ e.1 % 0x40000 * 4) && decide (e.1 % 0x40000 * 4 < 0x1000)))))

/-- CHANNELS and OUT_TYPE agree with the active set (R206). -/
def setShape (m : Mach) (set : Tab Word) : Bool :=
  (List.range 16).all (fun p => (camOf m p).mode != .camera || bits (areaWord set p 0) 10 5 == bits (areaWord (activeSet m) p 0) 10 5)

/-- A word address of the window lies in a field of an enabled port (R201, R205). -/
def ispField (m : Mach) (a : Nat) : Bool :=
  let c := camOf m (a / 0x40000)
  c.mode == .camera && decide (a % 0x40000 * 4 < 0x4000 + 4 * c.pixels * c.bands)

/-- HOST_WRITE, SWAP_PENDING, COPYING (R205, R206). -/
def ispHost (m : Mach) : Bool := m.cfg.isp.hostWrite
def ispPending (m : Mach) : Bool := flag m F.INT_ISP_STATUS_SWAP_PENDING 0
def ispCopying (m : Mach) : Bool := flag m F.INT_ISP_STATUS_COPYING 0

/-- ADDR moves on (R205). -/
def ispNext (m : Mach) : Mach := wr m F.INT_ISP_ADDR_ADDR 0 ((rd m F.INT_ISP_ADDR_ADDR 0 + 1) % 2 ^ 22)

/-- ISP_DATA_WRITE (R205). -/
def ispDataWrite (v : Word) (m : Mach) : Mach :=
  bar0P m (fun m =>
    let a := rd m F.INT_ISP_ADDR_ADDR 0
    let m1 := ispNext m
    if !ispHost m || ispPending m || ispCopying m || !ispField m a then deny m1
    else setIsp (setInactive m1 (tset 0 (inactiveSet m1) a v)) (fun i => { i with dirty := true }))

def execIspDataWrite (v : Word) (s : State) : Host.Outcome State Fault Refusal := s.run (ispDataWrite v)

/-- The word of the inactive set at INT_ISP_ADDR (R205). -/
def ispDataWord (m : Mach) : Word :=
  let a := rd m F.INT_ISP_ADDR_ADDR 0
  if ispField m a then tget 0 (inactiveSet m) a else 0

/-- ISP_DATA_READ (R205). -/
def ispDataRead (m : Mach) : Mach := barRead m false (fun m => emit (ispNext m) (.readData (ispDataWord m)))

def execIspDataRead (s : State) : Host.Outcome State Fault Refusal := s.run ispDataRead

/-- ISP_SWAP (R205, R206): a check of the inactive set starts. -/
def ispSwap (m : Mach) : Mach :=
  bar0P m (fun m => if !ispHost m || ispPending m || ispCopying m then deny m else setIsp m (fun i => { i with checking := true }))

def execIspSwap (s : State) : Host.Outcome State Fault Refusal := s.run ispSwap

/-- The pending set becomes active (R206): SET_ID, the event, the audit entry, the copy back begins. -/
def ispExchange (m : Mach) : Mach :=
  let old := rd m F.INT_ISP_SET_ID_SET_ID 0
  let new := rd m F.INT_ISP_NEXT_ID_NEXT_ID 0
  let m := setIsp m (fun i => { i with active1 := !i.active1, dirty := false, badPorts := [] })
  let m := wr (wr m F.INT_ISP_STATUS_SWAP_PENDING 0 0) F.INT_ISP_STATUS_ACTIVE_SET 0 (b2n m.isp.active1)
  let m := raise (inc (wr m F.INT_ISP_SET_ID_SET_ID 0 new) F.INT_ISP_STATUS_SWAPS 0) F.INT_ISP_EVENT_SWAPPED 0
  wr (audit m 0x0005 0 (leBytes 4 old ++ leBytes 4 new)) F.INT_ISP_STATUS_COPYING 0 1

/-- ISP_SWAP_CHECK_COMPLETE (R206, R207). -/
def ispChecked (m : Mach) : Mach :=
  if !m.isp.checking then m
  else
    let m := setIsp m (fun i => { i with checking := false })
    let set := inactiveSet m
    if !setConsistent m set then raise (wr m F.INT_ISP_STATUS_CHECK 0 1) F.INT_ISP_EVENT_SWAP_REFUSED 0
    else if !setShape m set then raise (wr m F.INT_ISP_STATUS_CHECK 0 2) F.INT_ISP_EVENT_SWAP_REFUSED 0
    else
      let m := wr m F.INT_ISP_STATUS_CHECK 0 0
      if m.ctl.st = .configured ∨ m.ctl.st = .standby then ispExchange m
      else wr (setIsp m (fun i => { i with pendTick := m.ctl.tickCount })) F.INT_ISP_STATUS_SWAP_PENDING 0 1

def execIspSwapCheckComplete (s : State) : Host.Outcome State Fault Refusal := s.run ispChecked

/-- The pending set becomes active at the first tick boundary after the check, before a line of the swath closed there is processed
(R206). -/
def ispBoundary (m : Mach) : Mach :=
  if ispPending m && ticking m && m.ctl.tickCount != m.isp.pendTick then ispExchange m else m

/-- ISP_SWAP_TAKES_EFFECT (R206). -/
def execIspSwapTakesEffect (s : State) : Host.Outcome State Fault Refusal := s.run ispBoundary

/-- ISP_COPY_COMPLETE (R206): the inactive set equals the active one. -/
def execIspCopyComplete (s : State) : Host.Outcome State Fault Refusal := s.run (fun m =>
  if ispCopying m then wr (setInactive m (activeSet m)) F.INT_ISP_STATUS_COPYING 0 0 else m)

/-- PROBE_ARM (R208): a write of INT_ISP_PROBE_CTRL. PORT and COLUMN are stored; ARM arms, at TRACE or FULL. -/
def probeArm (v : Word) (m : Mach) : Mach :=
  bar0P m (fun m =>
    let p := bits v.toNat 16 4
    let c := bits v.toNat 0 15
    let m1 := wr (wr m F.INT_ISP_PROBE_CTRL_PORT 0 p) F.INT_ISP_PROBE_CTRL_COLUMN 0 c
    if !bitOf v.toNat 20 then m1
    else if !traceOn m || confPresent m then deny m
    else setIsp (wr m1 F.INT_ISP_PROBE_CTRL_DONE 0 0) (fun i => { i with probe := some (p, c) }))

def execProbeArm (v : Word) (s : State) : Host.Outcome State Fault Refusal := s.run (probeArm v)

end Sys2Proof.Machine
end

