-- ==== Sys2Proof/Machine/Chaff.lean ====
section
/-!
DEFINITION. Machine/Chaff.lean: the Chaff table (R209 to R217), the lines of the Prepare stage (R177, R187, R211, R213) and the commands
that replace the table.
-/

namespace Sys2Proof.Machine

/-- The active table: that of the pair that took the last new table first, which serves in every STATE (R212, R215, R216). -/
def lastPair (m : Mach) : Nat := rd m F.CHF_STATUS_LAST_PAIR 0
def chaffPair (m : Mach) (k : Nat) : Tab Byte := if k = 0 then m.chaff.pair0 else m.chaff.pair1
def setPair (m : Mach) (k : Nat) (t : Tab Byte) : Mach := setChaff m (fun c => if k = 0 then { c with pair0 := t } else { c with pair1 := t })
def activeTable (m : Mach) : Tab Byte := chaffPair m (lastPair m)

/-- CHF_STATUS.STATE. -/
def chaffState (m : Mach) : Nat := rd m F.CHF_STATUS_STATE 0
def setChaffState (m : Mach) (n : Nat) : Mach := wr m F.CHF_STATUS_STATE 0 n

/-- Replicas in service: all four in IDLE and while lost words are refilled, else those of the serving pair (R212, R213, R215). -/
def replicasIn (m : Mach) : List Nat :=
  if chaffState m = 0 ∨ (chaffState m = 3 ∧ m.chaff.lostRefill) then [0, 1, 2, 3]
  else [2 * lastPair m, 2 * lastPair m + 1]

/-- A word fails in every replica in service (R213). -/
def wordLost (m : Mach) (w : Nat) : Bool := (replicasIn m).all (fun r => m.chaff.badWords.contains (w, r))

/-- Fields and width of a field by SPLIT (R209). -/
def splitFields (s : Nat) : Nat × Nat :=
  match s with
  | 0 => (3, 8)
  | 1 => (4, 6)
  | _ => (6, 4)

/-- The table address of a column's channel values (R209). -/
def chaffAddr (c : CamPort) (vals : List Nat) : Nat :=
  let (n, w) := splitFields c.split
  (List.range n).foldl (fun a i => a * 2 ^ w + bits (vals.getD (c.ch.getD i 0) 0) (c.lsb.getD i 0) w) 0

/-- The addresses of a line's columns (R211). -/
def lineAddrs (c : CamPort) (chans : List (List Nat)) : List Nat :=
  (List.range c.pixels).map (fun j => chaffAddr c (chans.map (fun ch => ch.getD j 0)))

/-- Refill the failing replicas from the shadow (R213): the refill starts in IDLE; a swap under way replaces the words itself. -/
def startFailRefill (m : Mach) : Mach :=
  if m.chaff.dirty then setChaff m (fun c => { c with needSwap := true })
  else if chaffState m = 0 then setChaffState (setChaff m (fun c => { c with failRefill := true, lostRefill := true })) 3
  else m

/-- Words that a line's lookups found failing parity, with the replica (R213): a word that is good in some replica in service is
rewritten; one bad in all of them is lost. -/
def parityFails (m : Mach) (p : Nat) (fails : List (Nat × Nat)) : Mach :=
  let live := replicasIn m
  let fails := (fails.filter (fun x => live.contains x.2)).eraseDups
  let ws := (fails.map (fun x => x.1)).eraseDups
  let m := if fails.isEmpty then m else incBy (raise m F.CHF_EVENT_PARITY 0) F.CHF_OBJ_CNT1_PARITY 0 fails.length
  let lost := ws.filter (fun w => live.all (fun r => fails.contains (w, r)))
  if lost.isEmpty then m
  else
    let m := setChaff m (fun c => { c with badWords := (c.badWords ++ lost.flatMap (fun w => live.map (fun r => (w, r)))).eraseDups })
    let m := setFab m (fun f => { f with lostPorts := if f.lostPorts.contains p then f.lostPorts else f.lostPorts ++ [p] })
    startFailRefill (raise m F.CHF_EVENT_CHAFF_LOST 0)

/-- The lookups of a line (R211, R213): entries by column. A lost word returns 0x00 and its swath meets CHAFF_LOST. -/
def lookupLine (m : Mach) (p : Nat) (chans : List (List Nat)) (parity : List (Nat × Nat)) : Mach × List Nat :=
  let c := camOf m p
  if !c.chaffEn then (m, [])
  else
    let as := lineAddrs c chans
    let m := parityFails m p (parity.filter (fun x => as.any (fun a => a / 4 == x.1)))
    let es := as.map (fun a => if wordLost m (a / 4) then 0 else (tget 0 (activeTable m) a).toNat)
    let hit := as.any (fun a => wordLost m (a / 4))
    let m := if hit && !m.fab.lostPorts.contains p then
        raise (setFab m (fun f => { f with lostPorts := f.lostPorts ++ [p] })) F.CHF_EVENT_CHAFF_LOST 0
      else m
    (m, es)

/-- One line goes through an engine (R187, R191, R208, R211). -/
def processLine (m : Mach) (p : Nat) (ln : Line) (parity : List (Nat × Nat)) : Mach :=
  let r := pipeLine m p ln
  let m := probeLine m p r.2.1 r.2.2
  let chans := r.2.2.map (fun ch => ch.map Int.toNat)
  let l := lookupLine m p chans parity
  setIp l.1 p (fun i => { i with
    temporal := r.1
    startLine := if i.startLine = some ln.lineNo then none else i.startLine
    prep := i.prep ++ [{ line := ln, chans := chans, entries := l.2 }] })

/-- The port that the next free engine serves: the next after the last port served that still has an unprocessed line (R177). -/
def nextPort (m : Mach) : Option Nat :=
  ((List.range 16).map (fun i => (m.isp.lastPort + 1 + i) % 16)).find? (fun p => !(ipOf m p).drain.isEmpty)

/-- The standby pair takes the new table (R215): SWAPPED, the audit entry, REFILL begins. -/
def chaffExchange (m : Mach) : Mach :=
  let k := 1 - lastPair m
  let old := rd m F.CHF_TABLE_ID_TABLE_ID 0
  let new := rd m F.CHF_NEXT_ID_NEXT_ID 0
  let m := wr (wr m F.CHF_STATUS_LAST_PAIR 0 k) F.CHF_TABLE_ID_TABLE_ID 0 new
  let m := setChaff m (fun c => { c with
    dirty := false, needSwap := false, failRefill := false, lostRefill := false, badWords := c.badWords.filter (fun x => x.2 / 2 != k) })
  audit (raise (setChaffState m 3) F.CHF_EVENT_SWAPPED 0) 0x0006 0 (leBytes 4 old ++ leBytes 4 new)

/-- The swap takes effect at the first tick boundary after COPY ended (R215). -/
def chaffBoundary (m : Mach) : Mach :=
  if chaffState m = 2 && ticking m && m.ctl.tickCount != m.chaff.pendTick then chaffExchange m else m

/-- The swaps of parameters and of the table whose boundary has passed (R206, R215). -/
def swapBoundary (m : Mach) : Mach := chaffBoundary (ispBoundary m)

/-- A line whose swath buffer word is bad, or whose port has lost its parameters, is marked BAD (R174, R357). -/
def markBad (bad : Bool) (ln : Line) : Line := if bad && ln.mark = .good then { ln with mark := .bad } else ln

/-- An ISP parameter word of a port fails `n` readings. Failing both, it is fetched again from the inactive set, where no host write has
changed that since the last swap; else the port's lines are BAD until the next swap (R206, R357). -/
def ispParity (m : Mach) (p n : Nat) : Mach :=
  let m := intakeParity m n
  if n < 2 then m
  else if m.isp.dirty then setIsp m (fun i => { i with badPorts := sins p i.badPorts })
  else raiseAs (inc m F.GEN_CHECK_CNT2_REFETCH 0) F.GEN_CHECK_EVENT_REFETCH 0 0xFF 0

/-- PREPARE_LINE (R177, R357): a free engine takes the next line. `parity`: table words that this line's lookups find failing parity,
with the replica. `buf`, `par`: how many readings of a word of its swath buffer, and of its port's ISP parameters, fail. -/
def prepareLine (parity : List (Nat × Nat)) (buf par : Nat) (m : Mach) : Mach :=
  if !pipelineOn m then m
  else
    let m := swapBoundary m
    match nextPort m with
    | none => m
    | some p => match (ipOf m p).drain with
      | [] => m
      | ln :: rest =>
        let m := ispParity (intakeParity m buf) p par
        let ln := markBad (decide (buf ≥ 2) || m.isp.badPorts.contains p) ln
        processLine (setIp (setIsp m (fun i => { i with lastPort := p })) p (fun i => { i with drain := rest })) p ln parity

def execPrepareLine (parity : List (Nat × Nat)) (buf par : Fin 3) (s : State) : Host.Outcome State Fault Refusal :=
  s.run (prepareLine parity buf.val par.val)

/-- PROBE_CAPTURE (R208): the first line of the armed port whose processing begins after the ARM write. It is captured here or, at the
latest, when an engine takes it. -/
def probeCapture (m : Mach) : Mach :=
  match m.isp.probe with
  | none => m
  | some (p, _) => match (ipOf m p).drain with
    | [] => m
    | ln :: _ => let r := pipeLine m p ln; probeLine m p r.2.1 r.2.2

def execProbeCapture (s : State) : Host.Outcome State Fault Refusal := s.run (fun m => if pipelineOn m then probeCapture (swapBoundary m) else m)

/-- CHAFF_WRITE of MACHINE. -/
def chaffWrite (m : Mach) : Bool := m.cfg.machine.chaffWrite

/-- SHADOW_LOAD (R214): a write of CHF_LOAD_CTRL; a refused one stores nothing, and the load that runs keeps its pages. -/
def shadowLoad (v : Word) (m : Mach) : Mach :=
  bar0 m (fun m =>
    let page := bits v.toNat 0 12
    let count := bits v.toNat 12 12
    let go := bitOf v.toNat 31
    if m.ctl.st = .dormant then (if go then deny m else m)
    else
      let m1 := wr (wr m F.CHF_LOAD_CTRL_PAGE 0 page) F.CHF_LOAD_CTRL_COUNT 0 count
      if !go then m1
      else if chaffState m ≠ 0 ∨ flag m F.CHF_STATUS_LOAD_BUSY 0 ∨ !chaffWrite m ∨ page + count > 4095 then deny m
      else
        let at_ := rd m F.CHF_LOAD_ADDR_LO_ADDR_LO 0 * 4096 + rd m F.CHF_LOAD_ADDR_HI_ADDR_HI 0 * 2 ^ 32
        let m := setChaff m1 (fun c => { c with loadPage := page, loadCount := count })
        emit (wr m F.CHF_STATUS_LOAD_BUSY 0 1) (.dmaRead (BitVec.ofNat 64 at_) ((count + 1) * 4096)))

def execShadowLoad (v : Word) (s : State) : Host.Outcome State Fault Refusal := s.run (shadowLoad v)

/-- Entries put over a table from an address on. -/
def putEntries (t : Tab Byte) (at_ : Nat) (bs : List Byte) : Tab Byte :=
  t.filter (fun e => decide (e.1 < at_)) ++ (bs.zipIdx at_).filterMap (fun x => if x.1 = 0 then none else some (x.2, x.1))
    ++ t.filter (fun e => decide (at_ + bs.length ≤ e.1))

/-- LOAD_DONE (R214): the load ends. `data`: the bytes read; none, a host read failed and the pages hold undefined content
(assumption 7). -/
def loadDone (data : Option (List Byte)) (m : Mach) : Mach :=
  if !flag m F.CHF_STATUS_LOAD_BUSY 0 then m
  else
    let m := wr m F.CHF_STATUS_LOAD_BUSY 0 0
    let at_ := m.chaff.loadPage * 4096
    let n := (m.chaff.loadCount + 1) * 4096
    let put := fun (m : Mach) (bs : List Byte) => setChaff m (fun c => { c with shadow := putEntries c.shadow at_ bs, dirty := true })
    match data with
    | some bs => raise (put m (slice bs 0 n)) F.CHF_EVENT_LOAD_DONE 0
    | none =>
      let bs := (List.range n).map (fun i => BitVec.ofNat 8 (Config.free (m.draws + i)))
      raise (put { m with draws := m.draws + n } bs) F.CHF_EVENT_LOAD_ERR 0

def execLoadDone (data : Option (List Byte)) (s : State) : Host.Outcome State Fault Refusal := s.run (loadDone data)

/-- CHAFF_SWAP (R215). -/
def chaffSwap (m : Mach) : Mach :=
  bar0 m (fun m => if m.ctl.st = .dormant ∨ chaffState m ≠ 0 ∨ !chaffWrite m then deny m else setChaffState m 1)

def execChaffSwap (s : State) : Host.Outcome State Fault Refusal := s.run chaffSwap

/-- CHAFF_COPY_COMPLETE (R215 to R217). `bad`: the page of the shadow whose word failed parity. -/
def chaffCopied (bad : Option (Fin 4096)) (m : Mach) : Mach :=
  if chaffState m ≠ 1 then m
  else match bad with
  | some page =>
    let m := setChaff (wr m F.CHF_STATUS_CHECK 0 1) (fun c => { c with failRefill := true, badPage := page })
    setChaffState (raise m F.CHF_EVENT_SWAP_REFUSED 0) 3
  | none =>
    let m := setPair (wr m F.CHF_STATUS_CHECK 0 0) (1 - lastPair m) m.chaff.shadow
    if m.ctl.st = .configured ∨ m.ctl.st = .standby then chaffExchange m
    else setChaffState (setChaff m (fun c => { c with pendTick := m.ctl.tickCount })) 2

def execChaffCopyComplete (bad : Option (Fin 4096)) (s : State) : Host.Outcome State Fault Refusal := s.run (chaffCopied bad)

/-- CHAFF_SWAP_TAKES_EFFECT (R215): at the first tick boundary after the copy. -/
def execChaffSwapTakesEffect (s : State) : Host.Outcome State Fault Refusal :=
  s.run chaffBoundary

/-- The serving pair's lost words, in every replica: what a copy of that pair leaves bad (R213, R216, R217). -/
def stillLost (m : Mach) : List (Nat × Nat) :=
  let k := lastPair m
  let ws := ((m.chaff.badWords.map (fun x => x.1)).filter (fun w =>
    m.chaff.badWords.contains (w, 2 * k) && m.chaff.badWords.contains (w, 2 * k + 1))).eraseDups
  ws.flatMap (fun w => (List.range 4).map (fun r => (w, r)))

/-- CHAFF_REFILL_COMPLETE (R213, R215, R216): all four replicas hold the active table again. After a refused swap the words that the serving
pair had lost are lost still: they are refilled now from the shadow, or wait for a swap. -/
def chaffRefilled (m : Mach) : Mach :=
  if chaffState m ≠ 3 then m
  else
    let m1 := setPair (setChaffState m 0) (1 - lastPair m) (activeTable m)
    let bad := if m.chaff.failRefill && !m.chaff.lostRefill then stillLost m else []
    let m2 := setChaff m1 (fun c => { c with failRefill := false, lostRefill := false, badWords := bad })
    let m2 := if bad.isEmpty then m2 else startFailRefill m2
    if m.chaff.failRefill then m2 else inc m2 F.CHF_STATUS_SWAPS 0

def execChaffRefillComplete (s : State) : Host.Outcome State Fault Refusal := s.run chaffRefilled

/-- ENTRY of CHF_PEEK: the active entry at ADDR (register table CHF_PEEK). -/
def peekEntry (m : Mach) : Byte := tget 0 (activeTable m) (rd m F.CHF_PEEK_ADDR 0)

/-- CHAFF_PEEK: a write of CHF_PEEK, and the word that a read gives back after it. -/
def chaffPeek (v : Word) (m : Mach) : Mach :=
  bar0P m (fun m =>
    let m := wr m F.CHF_PEEK_ADDR 0 (bits v.toNat 0 24)
    emit m (.readData (BitVec.ofNat 32 ((peekEntry m).toNat * 2 ^ 24 + rd m F.CHF_PEEK_ADDR 0))))

def execChaffPeek (v : Word) (s : State) : Host.Outcome State Fault Refusal := s.run (chaffPeek v)

end Sys2Proof.Machine
end

