-- ==== Sys2Proof/Machine/Objects.lean ====
section
/-!
DEFINITION. Machine/Objects.lean: objects, crops, tensors and batches (R218 to R230, R313), made at the tick that ends the Prepare
stage of a swath.
-/

namespace Sys2Proof.Machine

/-- A port is a map port (R218). -/
def mapPort (m : Mach) (p : Nat) : Bool :=
  let c := camOf m p
  cameraPort m p && c.chaffEn && (c.group == 0 || (List.range p).all (fun q =>
    !(cameraPort m q && (camOf m q).chaffEn && (camOf m q).group == c.group)))

/-- A connected component being found: its number, the open objects it carries on, whether it touches a cut object, its pixels
(line of the swath, column, class). -/
structure Comp where
  id    : Nat
  seeds : List Obj := []
  cont  : Bool := false
  pix   : List (Nat × Nat × Nat) := []

/-- The state of the scan of a swath (R219): components, the line above and the present line (component of each column, 0 none; the
present line reversed), labels assigned, pixels refused one. -/
structure Scan where
  comps  : List Comp := []
  nextId : Nat := 1
  prev   : List Nat := []
  cur    : List Nat := []
  labels : Nat := 0
  full   : Nat := 0

/-- Change a component. -/
def onComp (s : Scan) (id : Nat) (f : Comp → Comp) : Scan := { s with comps := s.comps.map (fun c => if c.id = id then f c else c) }

/-- Component `b` becomes part of component `a`. -/
def joinComp (s : Scan) (a b : Nat) : Scan :=
  if a = b then s
  else match s.comps.find? (fun c => c.id == b) with
    | none => s
    | some x =>
      let ren := fun (i : Nat) => if i = b then a else i
      let s := onComp s a (fun c => { c with seeds := c.seeds ++ x.seeds, cont := c.cont || x.cont, pix := c.pix ++ x.pix })
      { s with comps := s.comps.filter (fun c => c.id != b), prev := s.prev.map ren, cur := s.cur.map ren }

/-- One pixel (R210, R219): entry `e` at line `l`, column `j`; `ghosts`: columns of the line above that belong to cut objects. -/
def scanPixel (conn8 : Bool) (ghosts : List Nat) (l j e : Nat) (s : Scan) : Scan :=
  if e < 128 then { s with cur := 0 :: s.cur }
  else
    let ups := j :: (if conn8 then (if j = 0 then [] else [j - 1]) ++ [j + 1] else [])
    let ns := ((s.cur.headD 0 :: ups.map (fun i => s.prev.getD i 0)).filter (fun i => i != 0)).eraseDups
    let cont := ups.any (fun i => ghosts.contains i)
    let pix := (l, j, e % 128)
    match ns.min? with
    | none =>
      if s.labels ≥ 65536 then { s with full := s.full + 1, cur := 0 :: s.cur }
      else { s with comps := s.comps ++ [{ id := s.nextId, cont := cont, pix := [pix] }], nextId := s.nextId + 1,
                    cur := s.nextId :: s.cur, labels := s.labels + 1 }
    | some a =>
      let s := ns.foldl (fun s b => joinComp s a b) s
      let s := onComp s a (fun c => { c with cont := c.cont || cont, pix := c.pix ++ [pix] })
      { s with cur := a :: s.cur }

/-- One line of the scan. -/
def scanRow (conn8 : Bool) (ghosts : List Nat) (l : Nat) (es : List Nat) (s : Scan) : Scan :=
  let s := es.zipIdx.foldl (fun s x => scanPixel conn8 ghosts l x.2 x.1 s) s
  { s with prev := s.cur.reverse, cur := [] }

/-- The scan of a map port's swath (R219, R220): it starts from the objects open at the end of the swath before. -/
def scanSwath (conn8 : Bool) (px : Nat) (opens : List Obj) (rows : List (List Nat)) : Scan :=
  let real := opens.filter (fun o => !o.ghost)
  let lastCols := fun (o : Obj) => (o.pixels.filter (fun x => x.1 == o.lastLine)).map (fun x => x.2.1)
  let comps := real.zipIdx.map (fun x => ({ id := x.2 + 1, seeds := [x.1] } : Comp))
  let prev := (List.range px).map (fun j => match real.findIdx? (fun o => (lastCols o).contains j) with
    | some i => i + 1
    | none => 0)
  let ghosts := (opens.filter (fun o => o.ghost)).flatMap lastCols
  rows.zipIdx.foldl (fun s x => scanRow conn8 (if x.2 = 0 then ghosts else []) x.2 x.1 s)
    { comps := comps, nextId := real.length + 1, prev := prev }

/-- Lines of port `q` that a map-port line covers (R225): first and last, by whole line count. -/
def linesOn (m : Mach) (p q l : Nat) : Nat × Nat :=
  let a := l * 2 ^ (camOf m q).mult / 2 ^ (camOf m p).mult
  (a, max a ((l + 1) * 2 ^ (camOf m q).mult / 2 ^ (camOf m p).mult - 1))

/-- Columns of port `q` that a range of map-port columns covers (R225). -/
def colsOn (m : Mach) (p q lo hi : Nat) : Nat × Nat :=
  let pp := max 1 (camOf m p).pixels
  let a := lo * (camOf m q).pixels / pp
  (a, max (hi * (camOf m q).pixels / pp) ((hi + 1) * (camOf m q).pixels / pp - 1))

/-- First line of swath `k` on a port. -/
def baseLine (m : Mach) (q k : Nat) : Nat := k * swathLen m q

/-- The prepared line of a port, by whole line count, if it belongs to swath `k`. -/
def prepAt (m : Mach) (k q l : Nat) : Option PrepLine := if l < baseLine m q k then none else (ipOf m q).prep[l - baseLine m q k]?

/-- Bytes of a kept row (R224). -/
def rowBytes (r : KeptRow) : Nat := cdiv (2 * (r.chans.map List.length).sum) 64 * 64

/-- Bytes that objects hold in the open-object store. -/
def storeUsed (os : List Obj) : Nat := ((os.flatMap (fun o => o.rows)).map rowBytes).sum

/-- The contributing ports' lines that a range of map-port lines covers, port by port, without repeats (R225). -/
def coveredLines (m : Mach) (p l0 l1 : Nat) : List (Nat × Nat) :=
  (groupPorts m p).flatMap (fun q =>
    let a := (linesOn m p q l0).1
    let b := (linesOn m p q l1).2
    (List.range (b + 1 - a)).map (fun i => (q, a + i)))

/-- Keep the rows of an object's window (R224): those that do not fit in the store are not kept. -/
def keepRows (m : Mach) (k used : Nat) (o : Obj) (l0 l1 : Nat) : Nat × Obj :=
  match o.window with
  | none => (used, o)
  | some (lo, hi) =>
    (coveredLines m o.port l0 l1).foldl (fun a x => match prepAt m k x.1 x.2 with
      | none => a
      | some pl =>
        let w := colsOn m o.port x.1 lo hi
        let r : KeptRow := { port := x.1, line := x.2, col0 := w.1, chans := pl.chans.map (fun c => (c.drop w.1).take (w.2 + 1 - w.1)) }
        if a.1 + rowBytes r > m.cfg.machine.steerKib * 1024 then (a.1, { a.2 with flags := a.2.flags ||| 0x21 })
        else (a.1 + rowBytes r, { a.2 with rows := a.2.rows ++ [r] })) (used, o)

/-- Lowest column of an object's first line, lowest and highest column (R222, R230). -/
def firstCol (o : Obj) : Nat := (((o.pixels.filter (fun x => x.1 == o.firstLine)).map (fun x => x.2.1)).min?).getD 0
def colMin (o : Obj) : Nat := ((o.pixels.map (fun x => x.2.1)).min?).getD 0
def colMax (o : Obj) : Nat := ((o.pixels.map (fun x => x.2.1)).max?).getD 0

/-- The order of R222. -/
def objBefore (a b : Obj) : Bool :=
  decide (a.port < b.port) || (a.port == b.port && (decide (a.firstLine < b.firstLine)
    || (a.firstLine == b.firstLine && decide (firstCol a ≤ firstCol b))))

/-- The kept rows hold every column of a window of every contributing port for a range of map-port lines (R224, R225). -/
def rowsWhole (m : Mach) (p l0 l1 lo hi : Nat) (rows : List KeptRow) : Bool :=
  (coveredLines m p l0 l1).all (fun x =>
    let w := colsOn m p x.1 lo hi
    let rs := rows.filter (fun r => r.port == x.1 && r.line == x.2)
    (List.range (w.2 + 1 - w.1)).all (fun j => rs.any (fun r =>
      decide (r.col0 ≤ w.1 + j) && decide (w.1 + j < r.col0 + (r.chans.headD []).length))))

/-- Open objects join (R220, R224): the union window; a column of an earlier line that no part holds reads 0, CLIPPED. -/
def joinObjs (m : Mach) (os : List Obj) : Option Obj :=
  match isort objBefore os with
  | [] => none
  | [o] => some o
  | o :: more =>
    let all := o :: more
    let ws := all.filterMap (fun x => x.window)
    let lo := ((ws.map (fun w => w.1)).min?).getD 0
    let hi := ((ws.map (fun w => w.2)).max?).getD 0
    let rows := all.flatMap (fun x => x.rows)
    let last := ((all.map (fun x => x.lastLine)).max?).getD 0
    let whole := rowsWhole m o.port o.firstLine last lo hi rows
    some { o with
      pixels := all.flatMap (fun x => x.pixels)
      lastLine := last
      trailCount := ((all.find? (fun x => x.lastLine == last)).map (fun x => x.trailCount)).getD o.trailCount
      swaths := ((all.map (fun x => x.swaths)).max?).getD 1
      window := some (lo, hi)
      rows := rows
      flags := all.foldl (fun f x => f ||| x.flags) (if whole then 0 else 8) }

/-- The swath of a port was not acquired: a line fell while the port was in partial reset (R81, R223). -/
def unacquired (ls : List PrepLine) : Bool := ls.any (fun l => l.line.inReset)

/-- What a component makes of its objects in swath `k` (R220 to R224): the object, and whether it is open. -/
def buildObj (m : Mach) (k p used : Nat) (c : Comp) : Nat × Option (Obj × Bool) :=
  let prep := (ipOf m p).prep
  let base := baseLine m p k
  let old := joinObjs m c.seeds
  let ls := c.pix.map (fun x => x.1)
  match old, ls.max? with
  | none, none => (used, none)
  | _, hi? =>
    let o : Obj := old.getD { port := p, swaths := 0, firstLine := base + (ls.min?).getD 0
                              leadCount := ((prep[(ls.min?).getD 0]?).map (fun l => l.line.count)).getD 0 }
    let l0 := if old.isSome then 0 else (ls.min?).getD 0
    let lost := m.fab.lostPorts.contains p
    let ports := groupPorts m p
    let gap := old.isSome && ports.any (fun q => unacquired (ipOf m q).prep)
    let f0 := o.flags ||| (if c.cont then 4 else 0) ||| (if lost then 0x81 else 0) ||| (if gap then 1 else 0)
    match hi? with
    | none => (used, some ({ o with flags := f0 }, false))
    | some l1 =>
      let crop := coveredLines m p (base + l0) (base + l1)
      let bad := crop.any (fun x => ((prepAt m k x.1 x.2).map (fun l => l.line.mark != .good)).getD false)
      let marked := ports.any (fun q => (ipOf m q).prep.any (fun l => l.line.mark != .good))
      let clip := match o.window with
        | some (lo, hi) => c.pix.any (fun x => decide (x.2.1 < lo) || decide (hi < x.2.1))
        | none => false
      let o := { o with
        pixels := o.pixels ++ c.pix.map (fun x => (base + x.1, x.2.1, x.2.2))
        lastLine := base + l1
        trailCount := ((prep[l1]?).map (fun l => l.line.count)).getD 0
        swaths := o.swaths + 1
        flags := f0 ||| (if bad then 1 else 0) ||| (if marked then 0x40 else 0) ||| (if clip then 8 else 0) }
      let isOpen := l1 + 1 == prep.length
      let mg := m.cfg.machine.steerMargin
      let o := if isOpen && o.window.isNone then
          { o with window := some (colMin o - mg, min (colMax o + mg) ((camOf m p).pixels - 1)) }
        else o
      let r := keepRows m k used o (base + l0) (base + l1)
      (r.1, some (r.2, isOpen))

/-- Objects of one map port in swath `k`: store bytes in use, the objects with whether each is open. -/
def portObjects (m : Mach) (k used p : Nat) : Mach × Nat × List (Obj × Bool) :=
  let s := scanSwath m.cfg.machine.conn8 (camOf m p).pixels (m.fab.openObjs.filter (fun o => o.port == p))
    ((ipOf m p).prep.map (fun l => l.entries))
  let n := m.chaff.refused + s.full
  let m := incBy (setChaff m (fun c => { c with refused := n % 256 })) F.CHF_OBJ_CNT1_LABEL_FULL 0 (n / 256)
  let r := s.comps.foldl (fun a c => let b := buildObj m k p a.1 c; (b.1, a.2 ++ b.2.toList)) (used, ([] : List (Obj × Bool)))
  (m, r.1, r.2)

/-- Objects that stay open across the boundary and those that are cut (R220): open over MAX_SWATHS swaths, or beyond 4,096. -/
def cutOpen (maxSwaths : Nat) : List Obj → Nat → List Obj × List Obj
  | [], _ => ([], [])
  | o :: os, n =>
    if o.swaths ≥ maxSwaths ∨ n ≥ 4096 then
      let r := cutOpen maxSwaths os n
      (r.1, { o with flags := o.flags ||| 2 } :: r.2)
    else
      let r := cutOpen maxSwaths os (n + 1)
      (o :: r.1, r.2)

/-- All objects of swath `k`: those closed in it, in the order of R222; those open and the cut ones' last lines are carried on. -/
def closeObjects (m : Mach) (k : Nat) : Mach × List Obj :=
  let ps := (List.range 16).filter (mapPort m)
  let r := ps.foldl (fun a p => let b := portObjects a.1 k a.2.1 p; (b.1, b.2.1, a.2.2 ++ b.2.2))
    (m, storeUsed m.fab.openObjs, ([] : List (Obj × Bool)))
  let m := r.1
  let opens := isort objBefore ((r.2.2.filter (fun x => x.2)).map (fun x => x.1))
  let cut := cutOpen m.cfg.machine.maxSwaths opens 0
  let closed := (r.2.2.filter (fun x => !x.2)).map (fun x => x.1) ++ cut.2
  let ghosts := cut.2.map (fun o => ({ port := o.port, lastLine := o.lastLine, ghost := true
                                       pixels := o.pixels.filter (fun x => x.1 == o.lastLine) } : Obj))
  let m := setFab m (fun f => { f with openObjs := cut.1 ++ ghosts, lostPorts := [] })
  let m := wr m F.CHF_OBJ_CNT0_LAST_TICK 0 (sat 16 closed.length)
  let small := closed.filter (fun o => decide (o.pixels.length < m.cfg.machine.minArea))
  let m := incBy m F.CHF_OBJ_CNT1_SMALL 0 small.length
  (m, isort objBefore (closed.filter (fun o => !decide (o.pixels.length < m.cfg.machine.minArea))))

/-- The class held by most pixels; a tie goes to the lowest (R221). -/
def majority (o : Obj) : Nat :=
  let n := fun (c : Nat) => (o.pixels.filter (fun x => x.2.2 == c)).length
  (List.range 128).foldl (fun b c => if n c > n b then c else b) 0

/-- Columns of the crop on the map port (R225). -/
def cropCols (m : Mach) (o : Obj) : Nat × Nat :=
  let w := o.window.getD (0, (camOf m o.port).pixels - 1)
  let pad := m.cfg.machine.cropPad
  (max (colMin o - pad) w.1, min (colMax o + pad) w.2)

/-- A stage-6 value of a crop (R224, R225): from a kept row, else from the swath's own lines; a row not kept reads 0. -/
def cropVal (m : Mach) (k : Nat) (o : Obj) (q ch l x : Nat) : Int :=
  match o.rows.find? (fun r => r.port == q && r.line == l && decide (r.col0 ≤ x) && decide (x < r.col0 + (r.chans.getD ch []).length)) with
  | some r => (r.chans.getD ch []).getD (x - r.col0) 0
  | none =>
    if o.window.isSome then 0
    else ((prepAt m k q l).map (fun pl => (((pl.chans.getD ch []).getD x 0 : Nat) : Int))).getD 0

/-- The elements z of an ROI (R199, R225, R226): by output row and column, the channels of each contributing port in turn. -/
def roiGrid (m : Mach) (k : Nat) (o : Obj) (pr : Program) : List (List (List Val)) :=
  let c := cropCols m o
  let parts := (groupPorts m o.port).flatMap (fun q =>
    let y0 := (linesOn m o.port q o.firstLine).1
    let hc := (linesOn m o.port q o.lastLine).2 + 1 - y0
    let w := colsOn m o.port q c.1 c.2
    (List.range (portChannels m q)).map (fun ch => (q, ch, y0, hc, w.1, w.2 + 1 - w.1)))
  (List.range pr.hIn).map (fun y => (List.range pr.wIn).map (fun x => parts.map (fun (q, ch, y0, hc, x0, wc) =>
    normZ (activeSet m) q ch (resizeInt (pr.resize == 0) (srcPos y hc pr.hIn) (srcPos x wc pr.wIn) hc wc
      (fun i j => cropVal m k o q ch (y0 + i) (x0 + j))))))

/-- Pad a column's channels to a multiple of 4 (R227). -/
def padCol (zs : List Val) : List Val := zs ++ List.replicate (cdiv zs.length 4 * 4 - zs.length) (Val.ofInt 0)

/-- Elements of a tensor as bytes, padded to a multiple of 64 (R200, R227). -/
def encodeTensor (outType : Nat) (zs : List Val) : List Byte :=
  let raw : List Byte :=
    match outType with
    | 0 => zs.map (fun z => BitVec.ofInt 8 (zInt8 z))
    | 2 => zs.flatMap (fun z => leBytes 2 (toBf16 z))
    | _ =>
      let n := cdiv zs.length 32
      let zs := zs ++ List.replicate (n * 32 - zs.length) (Val.ofInt 0)
      let bl := (List.range n).map (fun i => bsBlock { fmt := 3, mode := 0, act := 0, away := false } ((zs.drop (32 * i)).take 32))
      bl.flatMap (fun b => b.1.map (BitVec.ofNat 8)) ++ bl.map (fun b => BitVec.ofNat 8 b.2)
  raw ++ List.replicate (cdiv raw.length 64 * 64 - raw.length) 0

/-- One slot tensor of PACK_W ROIs side by side, GAP zero columns between them (R313); an empty slot is zeros (R228). -/
def packTensor (pr : Program) (grids : List (List (List (List Val)))) : List Byte :=
  let zeroCol := padCol (List.replicate pr.channels (Val.ofInt 0))
  encodeTensor pr.outType ((List.range pr.hIn).flatMap (fun y => (List.range pr.packW).flatMap (fun j =>
    let gap := if j = 0 then [] else List.replicate pr.gap zeroCol
    let row := match grids[j]? with
      | some g => (g.getD y []).map padCol
      | none => List.replicate pr.wIn zeroCol
    (gap ++ row).flatten)))

/-- The tick program of a context that is placed and decides for swath `k` (R222, R341). -/
def deciding (m : Mach) (c k : Nat) : Option Program :=
  let x := ctxOf m c
  match x.program, x.decideFrom with
  | some pr, some k0 =>
    if pr.tick && x.progState == 1 && !x.map.isEmpty && decide (k0.toNat ≤ k) && x.st != .scrubbing && !x.scrubbed then some pr else none
  | _, _ => none

/-- Status of an object without an ROI whose context holds no deciding program (R370, R419). -/
def statusNoRoi (m : Mach) (c : Nat) : Nat :=
  let x := ctxOf m c
  if x.st == .scrubbing || x.scrubbed then 0x40 else if x.progState == 2 then 0x21 else 0x30

/-- Records made so far in a tick: each with its ROI grid, and the counts of R222. -/
structure RecState where
  recs  : List (ObjRec × Option (List (List (List Val)))) := []
  rois  : List (Nat × Nat) := []
  noRoi : Nat := 0
  spills : Nat := 0
  lost  : Nat := 0

/-- ROIs a context has. -/
def roisOf (r : RecState) (c : Nat) : Nat := tget 0 r.rois c

/-- One closed object gets its record, and its ROI if it may (R221 to R223, R230). `overrun`: the Prepare stage has not finished
(R317). -/
def recordObj (m : Mach) (k : Nat) (overrun : Bool) (r : RecState) (o : Obj) : RecState :=
  let c := (camOf m o.port).context
  let cols := cropCols m o
  let pr := deciding m c k
  let total := (r.rois.map (fun x => x.2)).sum
  let spill := match pr with
    | some p => !overrun && (decide (total ≥ 4096) || decide (roisOf r c ≥ p.roiMax))
    | none => false
  let rec0 : ObjRec := {
    tick := BitVec.ofNat 48 k, index := r.recs.length, port := o.port, group := (camOf m o.port).group, cls := majority o
    flags := o.flags ||| (if spill then 0x10 else 0), leadCount := o.leadCount, trailCount := o.trailCount
    firstLine := BitVec.ofNat 32 o.firstLine, lastLine := BitVec.ofNat 32 o.lastLine, colMin := colMin o, colMax := colMax o
    centroid := (o.pixels.map (fun x => x.2.1)).sum * 256 / max 1 o.pixels.length, area := o.pixels.length
    cropH := o.lastLine + 1 - o.firstLine, cropW := cols.2 + 1 - cols.1, context := c
    ispSet := BitVec.ofNat 32 (rd m F.INT_ISP_SET_ID_SET_ID 0), chaffSet := BitVec.ofNat 32 (rd m F.CHF_TABLE_ID_TABLE_ID 0)
    prog := ((ctxOf m c).program.map (fun p => (digestBytes p.hash).take 4)).getD [], conf := (ctxOf m c).conf }
  let bare := fun (x : ObjRec) =>
    if r.noRoi ≥ 4096 then { r with lost := r.lost + 1 }
    else { r with recs := r.recs ++ [(x, none)], noRoi := r.noRoi + 1, spills := r.spills + b2n spill }
  match pr with
  | none => bare { rec0 with status := statusNoRoi m c }
  | some p =>
    if overrun then bare { rec0 with status := 0x31 }
    else if spill then bare rec0
    else
      let n := roisOf r c
      let g := roiGrid m k o p
      { r with recs := r.recs ++ [({ rec0 with batch := n / max 1 p.batch, slot := n % max 1 p.batch
                                               roi := encodeTensor p.outType ((g.flatten.map padCol).flatten) }, some g)]
               rois := tset 0 r.rois c (n + 1) }

/-- One batch of a context (R228, R313). -/
def makeBatch (k c no : Nat) (pr : Program) (mine : List (ObjRec × Option (List (List (List Val))))) : Batch :=
  let xs := mine.filter (fun x => x.1.batch == no)
  let gs := xs.filterMap (fun x => x.2)
  { context := c, tick := BitVec.ofNat 48 k, no := no, filled := xs.length, firstIndex := ((xs.head?).map (fun x => x.1.index)).getD 0
    packW := pr.packW, fillMask := BitVec.ofNat 64 (2 ^ xs.length - 1)
    voidMask := BitVec.ofNat 64 (ofBits (xs.map (fun x => x.1.flags.getLsbD 0)))
    tensors := (List.range (pr.batch / max 1 pr.packW)).map (fun t => packTensor pr ((gs.drop (t * pr.packW)).take pr.packW)) }

/-- The Prepare stage of swath `k` ends (R16, R220 to R230): object records and batches go to Judge; the events of R222. -/
def endPrepare (m : Mach) (k : Nat) (overrun : Bool) : Mach :=
  let r := closeObjects m k
  let m := r.1
  let s := r.2.foldl (recordObj m k overrun) {}
  let batches := s.rois.flatMap (fun x => match deciding m x.1 k with
    | none => []
    | some pr =>
      let mine := s.recs.filter (fun y => y.1.context == x.1 && y.2.isSome)
      (List.range (cdiv x.2 (max 1 pr.batch))).map (fun no => makeBatch k x.1 no pr mine))
  let m := if s.spills = 0 then m else incBy (raise m F.CHF_EVENT_OVERFLOW 0) F.CHF_OBJ_CNT0_OVERFLOW 0 s.spills
  let m := incBy m F.CHF_OBJ_CNT1_LOST_OBJ 0 s.lost
  let m := setFab m (fun f => { f with batches := batches, judgeObjs := s.recs.map (fun x => x.1) })
  forEach (List.range 16) m (fun m p => setIp m p (fun i => { i with prep := [] }))

/-- Lines that Prepare has not taken when the tick comes (R17, R317): they are taken then, those of a port that has lost its parameters BAD
(R357). -/
def prepareRest (m : Mach) : Mach × Bool :=
  let ps := (List.range 16).filter (fun p => !(ipOf m p).drain.isEmpty)
  (forEach ps m (fun m p =>
    let ls := (ipOf m p).drain
    forEach ls (setIp m p (fun i => { i with drain := [] })) (fun m l => processLine m p (markBad (m.isp.badPorts.contains p) l) [])), !ps.isEmpty)

end Sys2Proof.Machine
end

