-- ==== Sys2Proof/Machine/Time.lean ====
section
/-!
DEFINITION. Machine/Time.lean: the time base, the PTP domains and their servos, steps and slews, switchover (R84 to R103), and their
commands but for HOLD_EXPIRED (Machine/Tick.lean). What a measurement is compared with, and the servo of an inactive domain,
are read from the worked example: DEDUCED (assumption 17).
-/

namespace Sys2Proof.Machine

/-- A tracked domain by number: 0 A, 1 B. -/
def domOf (m : Mach) (d : Nat) : Domain := if d = 0 then m.time.domA else m.time.domB
def setDom (m : Mach) (d : Nat) (f : Domain → Domain) : Mach :=
  if d = 0 then setTime m (fun t => { t with domA := f t.domA }) else setTime m (fun t => { t with domB := f t.domB })

/-- A domain's settings in TIME. -/
def domCfg (m : Mach) (d : Nat) : DomCfg := if d = 0 then m.cfg.time.domA else m.cfg.time.domB

/-- The active domain's number (R97). -/
def active (m : Mach) : Nat := b2n m.time.activeB

/-- The correction range of R86, in 2^-32 ppb. -/
def maxFreq : Int := 200000 * (2 : Int) ^ 32

/-- Increment of one time-base cycle at a frequency in 2^-32 ppb, in 2^-40 ns, rounded to the nearest count (R86). -/
def increment (f : Int) : Int := (2 : Int) ^ 41 + divNear ((2 : Int) ^ 41 * f) (giga * 2 ^ 32)

/-- 20 ppm, in 2^-32 ppb (R95). -/
def slewMax : Int := 20000 * (2 : Int) ^ 32

/-- Cycles of the time base in the 1 ms over which a change of frequency spreads (R95). -/
def rampCycles : Nat := 500000

/-- What an extra frequency in 2^-32 ppb adds to the local time in one cycle, in 2^-40 ns. -/
def extraInc (x : Int) : Int := divNear (512 * x) giga

/-- What a closing ramp of 1 ms from an extra frequency adds in all, in 2^-40 ns (R95). -/
def stopDist (x : Int) : Int := x * 16 / 125

/-- One cycle of a slew (R95, R98): the time base after it, and what the cycle adds to the local time, in 2^-40 ns. `rem` is the
offset still to be removed. The extra frequency moves to 20 ppm over 1 ms; once a ramp of 1 ms would remove what is left, that
ramp runs, and its last cycle leaves an offset of 0. A slew that has passed its target turns round. -/
def slewCycle (t : TimeBase) (rem : Int) : TimeBase × Int :=
  let n : Int := t.rampLeft
  if t.closing then
    let a := if n = 0 then 0 else (rem * (2 * n - 1)).tdiv (n * n)
    ({ t with slewFreq := a * 1953125, rampLeft := t.rampLeft - 1 }, a)
  else
    let dir : Int := if t.slewUp then 1 else -1
    let x := if n = 0 then dir * slewMax else t.slewFreq + (dir * slewMax - t.slewFreq).tdiv n
    let a := extraInc x
    let t := { t with slewFreq := x, rampLeft := t.rampLeft - 1 }
    if 0 ≤ x * dir ∧ (rem - a) * dir < 0 then ({ t with slewUp := !t.slewUp, rampLeft := rampCycles }, a)
    else if 0 ≤ x * dir ∧ (rem - a).natAbs ≤ (stopDist x).natAbs then ({ t with closing := true, rampLeft := rampCycles }, a)
    else (t, a)

/-- A slew begins, or has a new target (R95, R98): the local frequency carries on, `x` above the active domain's servo frequency. -/
def startSlew (x : Int) (t : TimeBase) : TimeBase :=
  { t with slew := true, slewFreq := x, rampLeft := rampCycles, closing := false,
           slewUp := decide (stopDist x ≤ (if t.activeB then t.domB else t.domA).offset) }

/-- No slew. -/
def endSlew (t : TimeBase) : TimeBase := { t with slew := false, slewFreq := 0, rampLeft := 0, closing := false }

/-- One cycle of the time-base clock (R86): local time, the slew, and each domain's offset, whose own clock runs at its servo's
frequency (R91, R92). What the active servo has still to remove shrinks by its proportional part (assumption 17). -/
def clockTick (m : Mach) : Mach :=
  if !m.ctl.powerGood then m
  else
    let d := active m
    let x := domOf m d
    let c := if m.time.slew then slewCycle m.time x.offset else (m.time, 0)
    let inc := increment x.freq + c.2
    let m := { m with time := { c.1 with now := timeOf (unitsOf c.1.now + inc) } }
    let drift (e : Nat) (y : Domain) : Domain :=
      if e = d then { y with offset := y.offset - c.2, resid := if y.resid = 0 then 0 else y.resid + increment y.freq - increment (-y.integ) }
      else if y.st = .disabled then y
      else { y with offset := y.offset + increment y.freq - inc }
    setDom (setDom m 0 (drift 0)) 1 (drift 1)

/-- A line whose stamp moves (R94, R174). -/
def shiftLine (sh : LTime → LTime) (l : Line) : Line := { l with trigTime := sh l.trigTime }

/-- A command whose stamps move. -/
def shiftCmd (sh : LTime → LTime) (c : Cmd) : Cmd :=
  { c with readyAt := c.readyAt.map sh, startAt := sh c.startAt, heldAt := c.heldAt.map sh }

/-- Step the local time (R94): every past stamp that a block holds moves with it; the other domain's offset follows. -/
def stepTime (m : Mach) (d : Int) : Mach :=
  let sh := shiftBy d
  let fineD := d / 2 ^ 24
  let enc := m.enc.map (fun e => (e.1, { e.2 with
    last := e.2.last.map (fun x => (x.1, sh x.2)),
    hist := e.2.hist.map (fun x => (x.1, x.2 + fineD)),
    teeth := e.2.teeth.map sh, ssiRead := e.2.ssiRead.map sh, ssiFrom := e.2.ssiFrom.map sh, losAt := sh e.2.losAt, illegal := e.2.illegal.map sh,
    held := e.2.held.map (fun x => (x.1, sh x.2.1, x.2.2)), heldFrom := sh e.2.heldFrom }))
  let shDom (a : Bool) (x : Domain) : Domain := { x with
    offset := if a then 0 else x.offset - d, resid := if a then 0 else x.resid,
    lockedAt := x.lockedAt.map sh, heldAt := x.heldAt.map sh,
    pendSync := x.pendSync.map (fun p => (sh p.1, p.2)), lastSync := x.lastSync.map (fun p => (p.1, sh p.2)),
    reqSent := x.reqSent.map sh }
  let t := m.time
  let m := { m with
    enc := enc,
    time := { endSlew t with
      now := sh t.now, dormantAt := t.dormantAt.map sh,
      domA := shDom (!t.activeB) t.domA, domB := shDom t.activeB t.domB },
    trig := { m.trig with start := sh m.trig.start, t0 := sh m.trig.t0, tickAt := m.trig.tickAt.map sh },
    ctl := { m.ctl with
      lastTick := m.ctl.lastTick.map sh, lastWatchdog := m.ctl.lastWatchdog.map sh,
      resets := m.ctl.resets.map (fun r => { r with at_ := sh r.at_ }) },
    intake := m.intake.map (fun p => (p.1, { p.2 with
      lastTrig := p.2.lastTrig.map sh, spacing := p.2.spacing.map sh, fill := p.2.fill.map (shiftLine sh), drain := p.2.drain.map (shiftLine sh),
      prep := p.2.prep.map (fun x => { x with line := shiftLine sh x.line }) })),
    wins := m.wins.map (fun w => (w.1, { w.2 with openedAt := w.2.openedAt.map sh })),
    fab := { m.fab with
      winFrom := sh m.fab.winFrom, countFrom := sh m.fab.countFrom,
      rings := m.fab.rings.map (fun r => (r.1, { r.2 with unsigAt := r.2.unsigAt.map sh })),
      inflight := m.fab.inflight.map (shiftCmd sh),
      ctxs := m.fab.ctxs.map (fun c => (c.1, { c.2 with carry := c.2.carry.map (shiftCmd sh) })),
      tillers := m.fab.tillers.map (fun x => (x.1, { x.2 with returns := x.2.returns.map sh, lastCmd := x.2.lastCmd.map sh })) },
    glume := { m.glume with
      nonce := m.glume.nonce.map (fun x => (x.1, sh x.2))
      grantEnd := m.glume.grantEnd.map sh, activateAt := m.glume.activateAt.map sh },
    align := { m.align with lines := m.align.lines.map (fun p => (p.1, p.2.map (shiftLine sh))) },
    eject := { m.eject with
      diAt := m.eject.diAt.map sh, beaconAt := m.eject.beaconAt.map sh
      ports := m.eject.ports.map (fun p => (p.1, { p.2 with slot := p.2.slot.map sh })) },
    host := { m.host with uartAt := m.host.uartAt.map sh },
    power := { m.power with
      droopFrom := m.power.droopFrom.map sh, periodAt := m.power.periodAt.map sh,
      trimAt := m.power.trimAt.map (fun x => (x.1, x.2.map sh)), savedAt := m.power.savedAt.map sh },
    sheaf := m.sheaf.map (fun p => (p.1, { p.2 with crcTimes := p.2.crcTimes.map sh })),
    flash := { m.flash with bucketAt := sh m.flash.bucketAt, scanAt := m.flash.scanAt.map sh, recent := m.flash.recent.map (fun r => (sh r.1, r.2)) } }
  raise m F.TIM_EVENT_STEP 0

/-- The module may step its time: BOOTING or CONFIGURED (R94). -/
def maySte (m : Mach) : Bool := m.ctl.st == .booting || m.ctl.st == .configured

/-- Make a domain active: its offset becomes the slew's target; the local frequency carries on from its present value (R95, R97,
R98). The domain left behind takes what it had still to remove into its offset. TIM_STATUS.VALID stays as it is: a switch is no
LOCKED reached (assumption 44). -/
def switchTo (m : Mach) (d : Nat) : Mach :=
  let old := domOf m (active m)
  let x := old.freq + m.time.slewFreq - (domOf m d).freq
  let m := setDom m (active m) (fun y => { y with offset := y.offset - y.resid, resid := 0 })
  let m := setTime m (fun t => { t with activeB := d == 1, reqHeld := false })
  let m := setTime m (fun t => if x = 0 ∧ (domOf m d).offset = 0 then endSlew t else startSlew x t)
  raise m F.TIM_EVENT_SWITCH 0

/-- A held request takes effect once its domain is LOCKED (R97). -/
def requestCheck (m : Mach) : Mach :=
  let d := rd m F.TIM_CTRL_REQ_DOMAIN 0
  if m.time.reqHeld && d != active m && (domOf m d).st == .locked then switchTo m d else m

/-- The active domain has left LOCKED: the event, and the switch if it is automatic and the other domain is LOCKED at that moment
(R97; that the other domain's later LOCKED switches nothing is assumption 100). -/
def leftLocked (m : Mach) (d : Nat) : Mach :=
  if d ≠ active m then m
  else
    let m := raise m F.TIM_EVENT_LOST 0
    if flag m F.TIM_CTRL_AUTO_SWITCH 0 && (domOf m (1 - d)).st == .locked then switchTo m (1 - d) else m

/-- The PI servo on a residual, in 2^-16 ns (R92): at a clamp the integrator keeps its value. -/
def servo (c : DomCfg) (x : Domain) (e : Int) : Domain :=
  let i := x.integ + c.ki * e
  let raw := -((c.kp : Int) * e * 256 + i)
  let f := clampI (-maxFreq) maxFreq raw
  { x with freq := f, integ := if f = raw then i else x.integ }

/-- Lock state after a residual (R93). -/
def lockCheck (m : Mach) (d : Nat) (e : Int) : Mach :=
  let lock := nsFine' m.cfg.time.lockNs
  let x := domOf m d
  let unlock := fun (x : Domain) => { x with st := .acquiring, good := 0, bad := 0, lockedAt := none }
  let good := if e.natAbs ≤ lock then x.good + 1 else 0
  let bad := if e.natAbs > 4 * lock then x.bad + 1 else 0
  let m := setDom m d (fun x => { x with good := good, bad := bad })
  match x.st with
  | .acquiring =>
    if good ≥ 16 then
      let m := setDom m d (fun x => { x with st := .locked, good := 0, bad := 0, lockedAt := some m.time.now })
      let m := if d = active m then raise (setTime m (fun t => { t with valid := true })) F.TIM_EVENT_LOCKED 0 else m
      requestCheck m
    else m
  | .locked =>
    if bad ≥ 4 then leftLocked (setDom m d unlock) d else m
  | _ => m
where nsFine' (n : Nat) : Nat := n * 65536

/-- Accept an offset as it is (R94, R95, R96): a step where steps are allowed, else a slew; an inactive domain's O_d. With what
is left to the servo, in 2^-16 ns. -/
def acceptOffset (m : Mach) (d : Nat) (theta : Int) (always : Bool) : Mach × Int :=
  if d ≠ active m then (setDom m d (fun x => { x with offset := -theta * 2 ^ 24 }), 0)
  else if maySte m then
    if always || theta.natAbs > m.cfg.time.stepNs * 65536 then (stepTime m (-theta * 2 ^ 24), 0)
    else (m, theta + (domOf m d).offset / 2 ^ 24)
  else (setTime (setDom m d (fun x => { x with offset := -theta * 2 ^ 24 })) (fun t => startSlew t.slewFreq t), 0)

/-- The servo on a residual; an inactive domain's O_d follows the measurement (R92). -/
def servoUpdate (m : Mach) (d : Nat) (theta r : Int) : Mach :=
  let m := setDom m d (fun x => servo (domCfg m d) x r)
  setDom m d (fun x => if d = active m then { x with resid := r * 2 ^ 24 } else { x with offset := -theta * 2 ^ 24 })

/-- A measured offset is an outlier: it differs from the prediction by more than OUTLIER_NS (R96). Before a first measurement
there is no prediction, and the step that is due (R94) asks for none. -/
def isOutlier (m : Mach) (x : Domain) (theta : Int) : Bool :=
  x.measured && !x.stepDue
    && decide ((theta + x.offset / 2 ^ 24 - x.resid / 2 ^ 24).natAbs > m.cfg.time.outlierNs * 65536)

/-- A Sync has completed a measurement of θ, in 2^-16 ns (R92 to R96). The servo runs on every measurement but a discarded one, on what neither a
step nor a slew removes; the lock state counts every measurement, with what lay before the step or slew (assumption 17). The fourth
outlier in a row is counted as one, and its offset is accepted (assumption 113). -/
def measure (m : Mach) (d : Nat) (theta : Int) : Mach :=
  let cnt := if d = 0 then F.TIM_SERVO_A_CNT_SYNCS else F.TIM_SERVO_B_CNT_SYNCS
  let cntO := if d = 0 then F.TIM_SERVO_A_CNT_OUTLIERS else F.TIM_SERVO_B_CNT_OUTLIERS
  let m := inc m cnt 0
  let x := domOf m d
  let out := isOutlier m x theta
  let fourth := out && decide (x.outliers + 1 ≥ 4)
  let e := theta + x.offset / 2 ^ 24
  let m := setDom m d (fun x => { x with
    theta := theta, measured := true, stepDue := false, outliers := if out && !fourth then x.outliers + 1 else 0 })
  let m := if x.st = .holdover then setDom m d (fun x => { x with st := .acquiring, good := 0, bad := 0, heldAt := none }) else m
  let m := if out then inc m cntO 0 else m
  let m := if fourth then raise m F.TIM_EVENT_OUTLIER 0 else m
  let m :=
    if out && !fourth then m
    else
      let r := if !x.measured || x.stepDue || fourth || (d == active m && maySte m && decide (theta.natAbs > m.cfg.time.stepNs * 65536))
        then acceptOffset m d theta x.stepDue else (m, e)
      servoUpdate r.1 d theta r.2
  lockCheck m d e

/-- A packet's domains: configured with its domainNumber and transport, on its port (R88). -/
def domsOf (m : Mach) (h : PtpHead) : List Nat :=
  [0, 1].filter (fun d =>
    let c := domCfg m d
    c.enable && c.domainNum == h.domNum && c.l2 == h.l2 && (c.port == h.eth.val || c.port == 2))

/-- A PTP packet: before TIME is applied it is discarded and counted; in DORMANT and without power there is none (R89, R102). -/
def ptpIn (m : Mach) (h : PtpHead) (f : Mach → Nat → Mach) : Mach :=
  if m.ctl.st = .powering || m.ctl.st = .dormant then m
  else if !m.ctl.timeApplied then inc m F.GEN_EARLY_DROP_PTP 0
  else forEach (domsOf m h) m f

/-- The packet is the domain's selected master's, on the port where its Announce came in (R88). -/
def fromMaster (m : Mach) (d : Nat) (h : PtpHead) : Bool :=
  (domOf m d).master.any (fun a => a.sender == h.sender) && (domOf m d).eth == h.eth.val

/-- Receive stamp: local time less RX_LAT (R90). -/
def rxStamp (m : Mach) (eth : Nat) : LTime :=
  shiftBy (-((if eth = 0 then m.cfg.time.rxLat0 else m.cfg.time.rxLat1) * 2 ^ 40 : Nat)) m.time.now

/-- Transmit stamp: local time plus TX_LAT (R90). -/
def txStamp (m : Mach) (eth : Nat) : LTime :=
  shiftBy (((if eth = 0 then m.cfg.time.txLat0 else m.cfg.time.txLat1) * 2 ^ 40 : Nat)) m.time.now

/-- A Sync's origin is known: the measurement, if the path delay is (R92). `origin` in 2^-16 ns. -/
def syncDone (m : Mach) (d : Nat) (origin : Int) (rx : LTime) : Mach :=
  let m := setDom m d (fun x => { x with lastSync := some (origin, rx), pendSync := none })
  if (domOf m d).delayKnown then measure m d (smod (fine rx - (origin + (domOf m d).delay))) else m

/-- PTP_SYNC (R92): the selected master's, one-step with its origin, or two-step. Every Sync gives its VLAN tag to what the module
sends (R88). -/
def ptpSync (h : PtpHead) (vlan : Option Nat) (corr : Int) (origin : Option LTime) (m : Mach) : Mach :=
  ptpIn m h (fun m d =>
    let m := setDom m d (fun x => { x with vlan := vlan })
    if !fromMaster m d h then m
    else
      let rx := rxStamp m h.eth
      match origin with
      | some t => syncDone m d (fine t + corr) rx
      | none => setDom m d (fun x => { x with pendSync := some (rx, corr) }))

def execPtpSync (h : PtpHead) (vlan : Option Nat) (corr : Int) (origin : Option LTime) (s : State) :
    Host.Outcome State Fault Refusal := s.run (ptpSync h vlan corr origin)

/-- PTP_FOLLOW_UP (R88): of the selected master. -/
def ptpFollowUp (h : PtpHead) (corr : Int) (origin : LTime) (m : Mach) : Mach :=
  ptpIn m h (fun m d =>
    match fromMaster m d h, (domOf m d).pendSync with
    | true, some (rx, c) => syncDone m d (fine origin + c + corr) rx
    | _, _ => m)

def execPtpFollowUp (h : PtpHead) (corr : Int) (origin : LTime) (s : State) :
    Host.Outcome State Fault Refusal := s.run (ptpFollowUp h corr origin)

/-- An Announce data set is better than another: IEEE 1588's order, PRESUMED (assumption 14). -/
def better (a b : Announce) : Bool :=
  let k (x : Announce) : List Nat :=
    [x.priority1, x.clockClass, x.accuracy, x.variance, x.priority2, x.gmId.toNat, x.steps, x.sender.toNat]
  lexLt (k a) (k b)
where
  lexLt : List Nat → List Nat → Bool
    | a :: as, b :: bs => decide (a < b) || (a == b && lexLt as bs)
    | _, _ => false

/-- The best of the data sets received, with the port it came in on. -/
def bestOf : List (Nat × Announce) → Option (Nat × Announce)
  | [] => none
  | a :: as => match bestOf as with
    | none => some a
    | some b => if better b.2 a.2 then some b else some a

/-- PTP_ANNOUNCE (R88, R93, R94, R101): best-master selection in the domain. GM_CHANGE is raised whenever the grandmaster identity differs,
also where the same sender names another (assumption 113). The path delay measured with the master before stays in use
until the new master's is measured, and a master heard after DORMANT is no first one while one was selected before (assumption 100). -/
def ptpAnnounce (h : PtpHead) (msg : Announce) (m : Mach) : Mach :=
  ptpIn m h (fun m d =>
    let x := domOf m d
    let msg := { msg with sender := h.sender }
    let foreign := (h.eth.val, msg) :: x.foreign.filter (fun a => !(a.1 == h.eth.val && a.2.sender == h.sender))
    let best := bestOf foreign
    let sel := best.map (fun b => b.2)
    let eth := (best.map (fun b => b.1)).getD x.eth
    let gm := sel.map (fun a => a.gmId)
    let first := x.lastGm.isNone && d == active m
    let same := sel.map (fun a => a.sender) == x.master.map (fun a => a.sender) && eth == x.eth
    let m := setDom m d (fun x => { x with
      foreign := foreign, master := sel, lastGm := gm, eth := eth,
      pendSync := if same then x.pendSync else none, lastSync := if same then x.lastSync else none,
      reqSent := if same then x.reqSent else none, heldAt := none,
      stepDue := x.stepDue || first,
      st := match x.st with | .listening | .holdover => .acquiring | s => s })
    if x.lastGm.isSome && gm != x.lastGm then
      raise m (if d = 0 then F.TIM_EVENT_GM_CHANGE_A else F.TIM_EVENT_GM_CHANGE_B) 0
    else m)

def execPtpAnnounce (h : PtpHead) (msg : Announce) (s : State) : Host.Outcome State Fault Refusal :=
  s.run (ptpAnnounce h msg)

/-- Messages the module sends: kinds 1 Delay_Req, 2 Pdelay_Req, 3 one-step Pdelay_Resp, 4 two-step Pdelay_Resp with its
Follow_Up. They carry the VLAN tag of the last Sync (R88). -/
def ptpOut (m : Mach) (eth kind : Nat) (d : Nat) : Mach := emit m (.ptp (eth == 1) kind (domOf m d).vlan)

/-- A request leaves: end-to-end or peer-to-peer as the domain is configured (R88). Neither is sent before a master is selected:
for Pdelay_Req that is the model's choice (assumption 100). -/
def sendReq (d : Nat) (p2p : Bool) (m : Mach) : Mach :=
  let c := domCfg m d
  if m.ctl.timeApplied && m.ctl.st != .dormant && c.enable && c.p2p == p2p && (domOf m d).master.isSome then
    let eth := (domOf m d).eth
    ptpOut (setDom m d (fun x => { x with reqSent := some (txStamp m eth) })) eth (if p2p then 2 else 1) d
  else m

/-- DELAY_REQ_TRANSMIT (R88). -/
def execDelayReqTransmit (dom : Fin 2) (s : State) : Host.Outcome State Fault Refusal := s.run (sendReq dom false)

/-- PDELAY_REQ_TRANSMIT (R88). -/
def execPdelayReqTransmit (dom : Fin 2) (s : State) : Host.Outcome State Fault Refusal := s.run (sendReq dom true)

/-- PTP_DELAY_RESP (R88): mean path delay from Sync and Delay_Req, of the selected master. -/
def ptpDelayResp (h : PtpHead) (corr : Int) (rx : LTime) (m : Mach) : Mach :=
  ptpIn m h (fun m d =>
    match (domCfg m d).p2p || !fromMaster m d h, (domOf m d).reqSent, (domOf m d).lastSync with
    | false, some t3, some (t1, t2) =>
      let delay := (smod (fine t2 - t1) + (tdiff rx t3 - corr)) / 2
      setDom m d (fun x => { x with delay := delay, delayKnown := true, reqSent := none })
    | _, _, _ => m)

def execPtpDelayResp (h : PtpHead) (corr : Int) (rx : LTime) (s : State) :
    Host.Outcome State Fault Refusal := s.run (ptpDelayResp h corr rx)

/-- PTP_PDELAY_REQ (R88, R90): answered one-step or two-step; the answer, or its Follow_Up, carries the stamps of the request's arrival and of
the answer's departure. -/
def ptpPdelayReq (h : PtpHead) (m : Mach) : Mach :=
  ptpIn m h (fun m d =>
    if (domCfg m d).p2p then
      let m1 := ptpOut m h.eth (if (domCfg m d).pdOneStep then 3 else 4) d
      emit (emit m1 (.ptpStamp (h.eth == 1) (rxStamp m h.eth))) (.ptpStamp (h.eth == 1) (txStamp m h.eth))
    else m)

def execPtpPdelayReq (h : PtpHead) (s : State) : Host.Outcome State Fault Refusal := s.run (ptpPdelayReq h)

/-- PTP_PDELAY_RESP (R88): mean path delay from the peer's stamps, on the port of the request. -/
def ptpPdelayResp (h : PtpHead) (corr : Int) (t2 t3 : LTime) (m : Mach) : Mach :=
  ptpIn m h (fun m d =>
    match (domCfg m d).p2p && (domOf m d).eth == h.eth.val, (domOf m d).reqSent with
    | true, some t1 =>
      let delay := (tdiff (rxStamp m h.eth) t1 - tdiff t3 t2 - corr) / 2
      setDom m d (fun x => { x with delay := delay, delayKnown := true, reqSent := none })
    | _, _ => m)

def execPtpPdelayResp (h : PtpHead) (corr : Int) (t2 t3 : LTime) (s : State) :
    Host.Outcome State Fault Refusal := s.run (ptpPdelayResp h corr t2 t3)

/-- PTP_UNSUPPORTED_MESSAGE (R88): discarded and counted. -/
def ptpUnsupported (h : PtpHead) (m : Mach) : Mach :=
  ptpIn m h (fun m d => inc m (if d = 0 then F.TIM_SERVO_A_CNT_DISCARDED else F.TIM_SERVO_B_CNT_DISCARDED) 0)

def execPtpUnsupportedMessage (h : PtpHead) (s : State) : Host.Outcome State Fault Refusal :=
  s.run (ptpUnsupported h)

/-- A domain without its master (R93, R99): a LOCKED one enters HOLDOVER on its frozen integrator, an ACQUIRING one listens. -/
def loseMaster (m : Mach) (d : Nat) : Mach :=
  setDom m d (fun x => match x.master with
    | none => x
    | some a => { x with
      master := none, foreign := x.foreign.filter (fun b => !(b.1 == x.eth && b.2.sender == a.sender)),
      pendSync := none, reqSent := none, good := 0, bad := 0, lockedAt := none,
      heldAt := if x.st = .locked then some m.time.now else x.heldAt,
      st := match x.st with | .locked => .holdover | .acquiring => .listening | s => s,
      freq := if x.st = .locked then clampI (-maxFreq) maxFreq (-x.integ) else x.freq,
      resid := if x.st = .locked then 0 else x.resid })

/-- The local time goes on in holdover, on the frozen integrator of the active domain, whatever state that domain was in (R99, R102). -/
def coast (m : Mach) : Mach :=
  setDom m (active m) (fun x => { x with freq := clampI (-maxFreq) maxFreq (-x.integ), resid := 0 })

/-- MASTER_LOST (R93, R97, R99). Another master that was heard before is selected by its next Announce, not at once (assumption 100). -/
def masterLost (d : Nat) (m : Mach) : Mach :=
  let x := domOf m d
  if x.master.isNone then m
  else
    let m := loseMaster m d
    if x.st = .locked then leftLocked m d else m

def execMasterLost (dom : Fin 2) (s : State) : Host.Outcome State Fault Refusal := s.run (masterLost dom)

/-- REQ_DOMAIN_WRITE (R97): a write of TIM_CTRL. -/
def reqDomainWrite (v : Word) (m : Mach) : Mach :=
  bar0 m (fun m =>
    let m := wr (wr (wr m F.TIM_CTRL_REVERT 0 (bits v.toNat 2 1)) F.TIM_CTRL_AUTO_SWITCH 0 (bits v.toNat 1 1))
      F.TIM_CTRL_REQ_DOMAIN 0 (bits v.toNat 0 1)
    requestCheck (setTime m (fun t => { t with reqHeld := decide (bits v.toNat 0 1 ≠ active m) })))

def execReqDomainWrite (v : Word) (s : State) : Host.Outcome State Fault Refusal := s.run (reqDomainWrite v)

/-- A domain has been LOCKED for at least `n` ns (R97). -/
def lockedFor (m : Mach) (d n : Nat) : Bool :=
  (domOf m d).st == .locked && (domOf m d).lockedAt.any (fun t => !lessSince m.time.now t n)

/-- REVERT_TIMER (R97): acts once the requested domain has been LOCKED for 10 s. -/
def revertTimer (m : Mach) : Mach :=
  let d := rd m F.TIM_CTRL_REQ_DOMAIN 0
  if flag m F.TIM_CTRL_REVERT 0 && d != active m && lockedFor m d (10 * giga) then switchTo m d else m

def execRevertTimer (s : State) : Host.Outcome State Fault Refusal := s.run revertTimer

/-- SLEW_END (R95): the remaining offset is zero and the closing ramp has run; the slew ends. -/
def slewEnd (m : Mach) : Mach :=
  if m.time.slew && m.time.closing && m.time.rampLeft == 0 && (domOf m (active m)).offset == 0 then setTime m endSlew
  else m

def execSlewEnd (s : State) : Host.Outcome State Fault Refusal := s.run slewEnd

/-- A domain's state as TIM_STATUS shows it (R93). -/
def domStateCode (x : DomState) : Nat :=
  match x with
  | .disabled => 0 | .listening => 1 | .acquiring => 2 | .locked => 3 | .holdover => 4

/-- TIM_STATUS.HOLDOVER (R99, R102). -/
def timeHoldover (m : Mach) : Bool := (domOf m (active m)).st == .holdover

/-- A signed number of ns for a register, saturating at ±(2^31 − 1) (TIM_SLEW, THETA). -/
def satNs (ns : Int) : Nat := twos 32 (clampI (-(2 ^ 31 - 1)) (2 ^ 31 - 1) ns)

/-- Apply TIME (R73 step 7): the domains listen, TIM_CTRL is loaded, the domain it names is active. -/
def applyTime (m : Mach) : Mach :=
  let t := m.cfg.time
  let start (c : DomCfg) (x : Domain) : Domain := if c.enable then { x with st := .listening } else { x with st := .disabled }
  let m := wr (wr (wr m F.TIM_CTRL_REVERT 0 (b2n t.revert)) F.TIM_CTRL_AUTO_SWITCH 0 (b2n t.autoSwitch))
    F.TIM_CTRL_REQ_DOMAIN 0 (b2n t.reqDomain)
  let m := setTime m (fun b => { b with domA := start t.domA b.domA, domB := start t.domB b.domB, activeB := t.reqDomain })
  setCtl m (fun c => { c with timeApplied := true, txDisable := false })

end Sys2Proof.Machine
end

