-- ==== Sys2Proof/Machine/Tick.lean ====
section
/-!
DEFINITION. Machine/Tick.lean: the swath tick (R9 to R18), the module's changes between its working states (R22 to R28), and the
commands that take it out of them: loss of time, loss of the master, alignment.
-/

namespace Sys2Proof.Machine

/-- Latency-critical work of the swath in Judge is killed and discarded (R317). -/
def killLc (m : Mach) : Mach :=
  let mine := m.fab.inflight.filter (fun c => c.lc && !c.committed)
  let m := forEach (mine.filter (fun c => c.phase == .running || c.phase == .held)) m stopRun
  setFab m (fun b => { b with inflight := b.inflight.filter (fun c => !(c.lc && !c.committed)) })

/-- Work of a context is held up by the loss of a Tiller (R322). -/
def movedByLoss (m : Mach) (c : Nat) : Bool :=
  let x := ctxOf m c
  x.progState == 2 || x.carry.any (fun y => y.lc) || (match m.fab.pend with
    | some p => !p.ret && p.maps.any (fun y => y.1 == c && y.2 != x.map)
    | none => false)

/-- A step of the batch waits for data of another module that has not landed (R327). -/
def peerMissing (m : Mach) (c : Nat) (b : Batch) : Bool :=
  match (ctxOf m c).program with
  | none => false
  | some p => (List.range p.logical).any (fun lt => (runSteps p lt).zipIdx.any (fun s =>
      s.1.peerWait != 255 && (!s.1.perBatch || assignedTo p lt b) && !peerReady m c p s.1.peerWait
        && !(ctxOf m c).stepsIssued.contains (stepKey lt s.2 s.1 b.no)))

/-- A command of the batch is still under recovery (R359): it runs again for a check, here or on a second Tiller, it is held for data, or it
waits or has waited for the encryption engine (R412). -/
def recovering (m : Mach) (c : Nat) (b : Batch) : Bool :=
  b.waited
    || m.fab.inflight.any (fun x => x.lc && !x.committed && x.ctx == c && x.batch == some b.no
        && (decide (x.runs > 0) || x.second || x.silent || x.phase == .held || (x.phase == .running && cryptoWaits m x)))
    || (ctxOf m c).carry.any (fun x => x.lc && x.second && x.batch == some b.no)

/-- Why a batch that is not complete when the stage ends has no result: DEADLINE_MISSED where it is under recovery (R359), or waits for
data of another module (R326, R327); TILLER_QUARANTINED (R322); else TICK_OVERRUN (R317). -/
def lateStatus (m : Mach) (b : Batch) : Nat :=
  if splitWaits (ctxOf m b.context) || recovering m b.context b then 0x30
  else if movedByLoss m b.context then 0x21
  else if peerMissing m b.context b then 0x30
  else 0x31

/-- Steps once per tick, of a context whose swath in Judge has no batch, that did not run because data of another module are missing
(R327). -/
def peerStepsLate (m : Mach) : Bool :=
  decide (m.ctl.tickCount.toNat ≥ 2) && m.fab.ctxs.any (fun x => x.2.progState == 1 && !movedByLoss m x.1 && (match x.2.program with
    | none => false
    | some p => p.tick && (List.range p.logical).any (fun lt => (runSteps p lt).zipIdx.any (fun s =>
        s.1.peerWait != 255 && !s.1.perBatch && !x.2.stepsIssued.contains (lt, s.2, 0) && !peerReady m x.1 p s.1.peerWait))))

/-- The Judge stage ends: batches that are not complete lose their objects' results (R16, R17, R317, R322, R327, R359). -/
def endJudge (m : Mach) : Mach :=
  let late := m.fab.batches.filter (fun b => b.abandoned == 0 && !batchDone m b.context b)
  let peers := late.any (fun b => !movedByLoss m b.context && peerMissing m b.context b) || peerStepsLate m
  let live := fun (c : Cmd) => match c.batch with
    | some no => m.fab.batches.any (fun b => b.context == c.ctx && b.no == no && b.abandoned == 0)
    | none => true
  let beyond := late.any (fun b => movedByLoss m b.context || !peerMissing m b.context b)
    || m.fab.inflight.any (fun c => c.lc && !c.committed && live c)
  let r := forEach late m (fun m' b =>
    let m' := abandonBatch m' b.context b.no (lateStatus m b)
    if lateStatus m b == 0x30 && recovering m b.context b then
      raiseAs (inc m' F.GEN_CHECK_CNT2_MISS 0) F.GEN_CHECK_EVENT_MISS 0 0xFF b.context
    else m')
  let r := killLc r
  let r := raiseIf peers r F.GEN_PLACE_EVENT_PEER_LATE 0
  if beyond then raise (inc r F.GEN_STAGE_CNT_JUDGE 0) F.GEN_PLACE_EVENT_OVERRUN 0 else r

/-- An object with what the Judge stage has for it (R326, R368, R370, R419). -/
def judged (m : Mach) (o : ObjRec) : ObjRec :=
  let x := ctxOf m o.context
  if x.st == .scrubbing || x.scrubbed then { o with status := 0x40 }
  else if splitWaits x then { o with status := 0x30 }
  else if o.status ≠ 0 || o.batch == 0xFFFF then o
  else { o with result := resultAt m o.context o.batch o.slot }

/-- The Eject stage of the swath that has been judged (R15, R368, R372, R373). -/
def ejectSwath (m : Mach) : Mach :=
  let os := (m.fab.judgeObjs.filter (formsDecision m)).map (judged m)
  let m := setFab m (fun f => { f with
    batches := [], judgeObjs := []
    ctxs := f.ctxs.map (fun c => (c.1, { c.2 with stepsIssued := [], stepsDone := [], stepSeqs := [], carry := parked c.2 })) })
  forEach os m ejectObj

/-- Something that is assigned is out of service (R22 to R24): a Tiller in reset, or quarantined with its re-placement in effect; an
intake, Sheaf or Awn port. -/
def outOfService (m : Mach) : Bool :=
  (List.range 8).any (fun t => (tilOf m t).st == .reset && !(tilOf m t).quar || (tilLost m t && (tilOf m t).quar && m.fab.pend.isNone))
    || m.ctl.resets.any (fun r => r.phase != .requested && (match r.kind with
        | .tiller => false
        | .intake => cameraPort m r.item
        | .sheaf => assigned m r.item
        | .awn => boardMask m r.item != 0))
    || !awnAllIn m

/-- Every Tiller that is not fused off works under a placement that is in effect (R22, R23). -/
def tillersIn (m : Mach) : Bool :=
  m.fab.pend.isNone && (List.range 8).all (fun t => !(tilOf m t).quar && ((tilOf m t).st == .fusedOff || tilUp m t))

/-- The change between RUNNING and DEGRADED that a tick boundary brings (R23, R24). -/
def decideState (m : Mach) : Mach :=
  match m.ctl.st with
  | .running => if outOfService m then enter m .degraded else m
  | .degraded => if tillersIn m && !outOfService m then enter m .running else m
  | .machineReady => if tillersIn m && !outOfService m then enter m .running else enter m .degraded
  | .powering => m
  | .booting => m
  | .configured => m
  | .standby => m
  | .dormant => m
  | .fault => m

/-- The pipeline's contents go (R28, R184): swaths, objects, batches. -/
def clearPipeline (m : Mach) : Mach :=
  let m := killLc m
  let m := setFab m (fun f => { f with
    batches := [], judgeObjs := [], openObjs := [], lostPorts := []
    ctxs := f.ctxs.map (fun c => (c.1, { c.2 with stepsIssued := [], stepsDone := [], stepSeqs := [], carry := parked c.2 })) })
  forEach (List.range 16) m (fun m p => setIp m p (fun i => { i with fill := [], drain := [], prep := [], recent := [] }))

/-- MACHINE_READY, RUNNING or DEGRADED goes back to CONFIGURED (R23, R61, R184, R379): fire commands are dropped, and the records of
swaths not yet ejected carry DEADLINE_MISSED. -/
def leavePipeline (m : Mach) : Mach :=
  let os := m.fab.judgeObjs.filter (formsDecision m)
  let m := if pipelineOn m then dropAllFires m else m
  let m := forEach os m abandonObj
  let m := setEnc (clearPipeline m) (master m) (fun e => { e with held := none })
  setCtl (enter m .configured) (fun c => { c with drain := false, drainLeft := 0, realignDue := false })

/-- The figures of the tick itself, at its local time (R9, R12, R13, R28, GEN_TICK_PERIOD). -/
def noteTick (now : LTime) (m : Mach) : Mach :=
  let m := match m.ctl.lastTick with
    | none => m
    | some t =>
      let d := (nsDiff now t).toNat
      let m := wr m F.GEN_TICK_PERIOD_PERIOD_NS 0 (sat 32 d)
      if !freeRun m && decide (d < tMinNs m) then raiseCount m F.GEN_EVENT_TICK_OVERSPEED F.GEN_CNT_OVERSPEED 0 else m
  let m := setFab (setCtl m (fun c => { c with lastTick := some now, tickCount := c.tickCount + 1 })) (fun f => { f with winTicks := f.winTicks + 1 })
  setEject (tickTaken now m) (fun e => { e with tickLevel := !e.tickLevel })

/-- The stages of a working tick (R15 to R17): Eject for the swath judged, the end of Prepare, the end of Acquire. -/
def stages (m : Mach) : Mach :=
  let k := m.ctl.tickCount.toNat
  let m := endJudge (swapBoundary m)
  let m := ejectSwath m
  let m :=
    if k = 0 then m
    else
      let r := prepareRest m
      let m := if r.2 then raise (inc r.1 F.GEN_STAGE_CNT_PREPARE 0) F.GEN_PLACE_EVENT_OVERRUN 0 else r.1
      endPrepare m (k - 1) r.2
  let ports := (List.range 16).filter (cameraPort m)
  -- without a swath to close, the lines of the swath before are no longer held (R171)
  if m.ctl.drain then forEach ports m (fun m p => setIp m p (fun i => { i with recent := [] })) else forEach ports m closePort

/-- HOLD_EXPIRED (R99, R100, R102): the active domain's HOLD_S has run out; in DORMANT the timer is suspended. Only a REQUIRED time base
counts as lost. -/
def holdExpired (m : Mach) : Mach :=
  let out := (domOf m (active m)).heldAt.any (fun t => !lessSince m.time.now t (m.cfg.time.holdS * giga))
  if !timeHoldover m || !m.cfg.time.required || m.ctl.st == .dormant || !out then m
  else
    let m := raise (setTime m (fun t => { t with valid := false })) F.TIM_EVENT_HOLD_EXPIRED 0
    if ticking m then leavePipeline m else m

def execHoldExpired (s : State) : Host.Outcome State Fault Refusal := s.run holdExpired

/-- MASTER_HOLDOVER_EXPIRED (R117): HOLD_MS has run out and the master is not valid again: it is lost. -/
def masterExpired (m : Mach) : Mach :=
  let m := refresh m
  let e := encOf m (master m)
  if !ticking m || freeRun m || e.held.isNone || lessSince m.time.now e.heldFrom (m.cfg.machine.holdMs * 1000000) then m
  else leavePipeline (raise m F.ENC_EVENT_LOST (master m))

def execMasterHoldoverExpired (s : State) : Host.Outcome State Fault Refusal := s.run masterExpired

/-- Losses of time or of the master that are due (R27: they come before a quarantine, a port removal or a power request). -/
def applyLosses (m : Mach) : Mach := masterExpired (holdExpired m)

/-- SWATH_TICK: a tick boundary, once it is due by position or by time (R9 to R17, R23 to R28; during alignment R184); a loss that is due comes
first (R27). -/
def swathTick (m : Mach) : Mach :=
  let m := refresh (applyLosses m)
  match tickDue m with
  | none => if m.ctl.align && m.align.waiting then alignReady m else m
  | some t =>
    if m.ctl.align then (if m.align.waiting then alignReady m else if alignRuns m then alignTick t m else m)
    else if !ticking m || (m.ctl.drain && m.ctl.drainLeft == 0) then m
    else
      let m := endHeld (noteTick t (stages m))
      let m := setCtl m (fun c => { c with drainLeft := if c.drain then c.drainLeft - 1 else c.drainLeft })
      resched (decideState m)

def execSwathTick (s : State) : Host.Outcome State Fault Refusal := s.run swathTick

/-- The conditions of MACHINE_READY (R22, R76). -/
def readyConditions (m : Mach) : Bool :=
  m.ctl.st == .configured && !m.ctl.align && !m.ctl.alignDue && m.ctl.powerReq.isNone && !m.ctl.warmDue && timeValid m
    && (freeRun m || encValid m (master m))
    && (List.range 16).all (fun p => !cameraPort m p || (portOf m p).phy == .l0)

/-- Glume's boot control block as bytes (R66). -/
def bcbBytes (seq active trial confirmed : Nat) : Bcb :=
  let h := leBytes 4 0x43425654 ++ leBytes 4 seq ++ leBytes 1 active ++ leBytes 1 trial ++ leBytes 1 confirmed ++ leBytes 1 0
  h ++ leBytes 4 (crc32 h)

/-- A boot control block copy is valid (R66): its CRC-32, and nothing else. An erased copy has no bytes. -/
def bcbOk (b : Bcb) : Bool := decide (b.length = 16) && crc32 (slice b 0 12) == leAt b 12 4

/-- The copy that Glume uses: the valid one, the higher SEQ by signed difference (R66). Copy 1 if true. With equal SEQ copy 0 is used
(assumption 102). -/
def bcbPick (n : Nor) : Option Bool :=
  match bcbOk n.bcb0, bcbOk n.bcb1 with
  | false, false => none
  | true, false => some false
  | false, true => some true
  | true, true => some (decide (0 < (BitVec.ofNat 32 (leAt n.bcb1 4 4) - BitVec.ofNat 32 (leAt n.bcb0 4 4)).toInt))

/-- ACTIVE, TRIAL, CONFIRMED and SEQ in use (R66). -/
structure Bc where
  active    : Nat := 0
  trial     : Nat := 0
  confirmed : Nat := 3
  seq       : Nat := 0

def bcOf (n : Nor) : Bc :=
  match bcbPick n with
  | none => {}
  | some c =>
    let b := if c then n.bcb1 else n.bcb0
    { active := leAt b 8 1, trial := leAt b 9 1, confirmed := leAt b 10 1, seq := leAt b 4 4 }

/-- Write the boot control block: the copy not read last, with the next SEQ (R66). With no valid copy read, copy 0 is written, SEQ 1
(assumption 102). -/
def writeBc (m : Mach) (active trial confirmed : Nat) : Mach :=
  setNor m (fun n =>
    let b := bcbBytes (((bcOf n).seq + 1) % 2 ^ 32) active trial confirmed
    if bcbPick n = some false then { n with bcb1 := b } else { n with bcb0 := b })

/-- A slot's number. -/
def slotNo (s : Slot) : Nat :=
  match s with
  | .a => 0
  | .b => 1

/-- A ledger entry's 16 bytes (R427). -/
def ledgerBytes (e : LedgerEntry) : List Byte :=
  leBytes 1 e.kind ++ leBytes 1 (b2n e.recovered) ++ leBytes 2 0 ++ leBytes 4 e.value.toNat ++ leBytes 6 e.sec.toNat ++ leBytes 2 0

/-- GLM_LIFECYCLE.STATE. -/
def lifeCode (l : Lifecycle) : Nat :=
  match l with
  | .blank => 0 | .owned => 1 | .returned => 2 | .retired => 3

/-- GLM_LIFECYCLE (register table). -/
def lifecycleWord (f : Fuses) : Nat :=
  f.ar * 2 ^ 24 + f.rollback * 2 ^ 17 + f.tillerOff.toNat * 2 ^ 8 + b2n f.arLock * 2 ^ 7 + b2n f.confOnly * 2 ^ 6 + b2n f.debugOff * 2 ^ 5
    + (f.ownerKeys.length - 1) % 4 * 4 + lifeCode f.life

/-- Measurement 0x05 set anew, a change of the list where its value changes (R406, R407). -/
def measureFuses (m : Mach) : Mach :=
  let v := leBytes 4 (lifecycleWord m.fuses) ++ leBytes 4 (levelCode m.glume.granted)
  if m.glume.meas.contains (5, 0x82, v) then m else putMeas m 5 0x82 v

/-- Program a fuse and record it in the ledger, of 128 entries, with an audit entry and a new measurement 0x05 (R400, R406, R427): kinds
are those of R427. -/
def fuseLedger (m : Mach) (kind : Nat) (v : Word) (recovered : Bool) (f : Fuses → Fuses) : Mach :=
  let e : LedgerEntry := { kind := kind, recovered := recovered, value := v, sec := m.time.now.sec }
  let m := setFuses m (fun x => { f x with ledger := (x.ledger ++ [e]).take 128 })
  measureFuses (audit m 0x0003 0 (ledgerBytes e))

/-- The running slot is confirmed at its first entry to MACHINE_READY (R72). An ACTIVE slot whose CONFIRMED bit reads 1 is not confirmed
again (assumption 113). -/
def confirmSlot (m : Mach) : Mach :=
  match m.ctl.runSlot with
  | none => m
  | some s =>
    let n := slotNo s
    let b := bcOf m.nor
    let fell := b.active != n
    if bitOf b.confirmed n && !fell then m
    else
      let conf := if fell then 2 ^ n else b.confirmed ||| 2 ^ n
      let m := writeBc m n 0 conf
      let m := wr m F.GEN_BOOT_STATUS_CONFIRMED 0 1
      let m :=
        if m.cfg.flags.getLsbD 0 && decide (m.cfg.rollback > m.fuses.rollback) then
          fuseLedger m 3 (BitVec.ofNat 32 m.cfg.rollback) false (fun f => { f with rollback := m.cfg.rollback })
        else m
      backupImage (audit m 0x0002 0 (leBytes 1 n ++ leBytes 4 m.cfg.rollback)) m.cfg

/-- MACHINE_READY_ENTRY (R22, R23, R25, R28, R72, R76, R118, R326). -/
def machineReady (m : Mach) : Mach :=
  if !readyConditions m then m
  else
    -- grants held stay (R326), their owner's tick counted from our 0
    let before := m.ctl.tickCount.toNat
    let m := clearPipeline (enter m .machineReady)
    let m := setCtl m (fun c => { c with
      tickCount := 0, lastTick := none, drain := false, drainLeft := 0, realignDue := false, reqTick := 0
      resets := c.resets.map (fun r => { r with tick := 0 }) })
    let m := setIsp (setChaff m (fun c => { c with pendTick := 0 })) (fun i => { i with pendTick := 0 })
    let m := setOrigin (wr m F.GEN_TICK_PERIOD_PERIOD_NS 0 0)
    let m := setFab m (fun f => { f with ctxs := f.ctxs.map (fun c => (c.1, { c.2 with
      decideFrom := c.2.decideFrom.map (fun _ => 0)
      grants := c.2.grants.map (fun g => (g.1, g.2.1, g.2.2.1, (g.2.2.2 + before) % 2 ^ 48)) })) })
    let m := forEach (m.fab.ctxs.map (fun c => c.1)) m (fun m c => grantAll m c false)
    confirmSlot m

def execMachineReadyEntry (s : State) : Host.Outcome State Fault Refusal := s.run machineReady

/-- ALIGNMENT_START (R184, R185): a write of INT_ALIGN_CTRL. GROUP and APPLY are stored; START starts. With START written while alignment
runs the whole write is ignored (assumption 115). -/
def alignmentStart (v : Word) (m : Mach) : Mach :=
  bar0 m (fun m =>
    let start := bitOf v.toNat 0
    let dorm := m.ctl.st == .dormant
    let group := bits v.toNat 4 3
    let apply := bitOf v.toNat 7
    if m.ctl.align && start then m
    else
      let m := if dorm then m else wr (wr m F.INT_ALIGN_CTRL_GROUP 0 group) F.INT_ALIGN_CTRL_APPLY 0 (b2n apply)
      if !start then m
      else match m.ctl.st with
        | .configured => startAlign m group apply false
        | .machineReady => startAlign (leavePipeline m) group apply false
        | .running => setAlign (setCtl m (fun c => { c with realignDue := true, realignTick := c.tickCount }))
            (fun a => { a with group := group, apply := apply })
        | .degraded => setAlign (setCtl m (fun c => { c with realignDue := true, realignTick := c.tickCount }))
            (fun a => { a with group := group, apply := apply })
        | .powering => deny (alignState m 3 4)
        | .booting => deny (alignState m 3 4)
        | .standby => deny (alignState m 3 4)
        | .dormant => deny (alignState m 3 4)
        | .fault => deny (alignState m 3 4))

def execAlignmentStart (v : Word) (s : State) : Host.Outcome State Fault Refusal := s.run (alignmentStart v)

/-- REALIGN_TAKES_EFFECT (R184): at the tick boundary after a START in RUNNING or DEGRADED. -/
def realign (m : Mach) : Mach :=
  let m := applyLosses m
  if pipelineOn m && m.ctl.realignDue && m.ctl.tickCount != m.ctl.realignTick then
    let a := m.align
    startAlign (leavePipeline m) a.group a.apply false
  else m

def execRealignTakesEffect (s : State) : Host.Outcome State Fault Refusal := s.run realign

end Sys2Proof.Machine
end

