-- ==== Sys2Proof/Machine/Boot.lean ====
section
/-!
DEFINITION. Machine/Boot.lean: from power-good to CONFIGURED or FAULT (R65 to R78): what a reset leaves, the checks of a slot (R70), the
slot chosen (R71), the image applied (R73). The boot is one command: the spec's steps 1 to 8 in one (assumption 8).
-/

namespace Sys2Proof.Machine

/-- Write fields. -/
def wrs (m : Mach) (i : Nat) (fs : List (Fld × Nat)) : Mach := forEach fs m (fun m x => wr m x.1 i x.2)

/-- The reasons of R443 that hold now are shown (PWR_THROTTLE). -/
def setReason (m : Mach) (r : Nat) (on : Bool) : Mach :=
  let a := rd m F.PWR_THROTTLE_ACTIVE 0
  wr m F.PWR_THROTTLE_ACTIVE 0 (ofBits ((List.range 6).map (fun k => if k = r then on else bitOf a k)))

/-- Time accrues to a reason, in ns; the count of µs saturates at 48 bits (R443). -/
def accrue (m : Mach) (r ns : Nat) : Mach :=
  setPower m (fun p => { p with thrNs := tset 0 p.thrNs r (min (tget 0 p.thrNs r + ns) ((2 ^ 48 - 1) * 1000)) })

/-- The time of the droop under way up to now accrues (R443); it goes on while a Tiller is stretched. -/
def accrueDroop (m : Mach) : Mach :=
  let on := (List.range 8).any (fun t => (tilOf m t).stretched)
  let m := match m.power.droopFrom with
    | some t => accrue m 2 (nsDiff m.time.now t).toNat
    | none => m
  setReason (setPower m (fun p => { p with droopFrom := if on then some m.time.now else none })) 2 on

/-- A Tiller that its own sensor quarantined and that still reads above 90 degrees C: no self-test returns it (R356, R442). -/
def tooHot (m : Mach) (t : Nat) : Bool := (tilOf m t).thermQuar && decide ((tilOf m t).temp > 90)

/-- What stays when everything volatile goes (R79, R358, R401, R442, R443): fuses, serial NOR, flash; the records' health and spares; the
throttling counts and what the sensors of hot Tillers read, but not through a power-on; what the field supply, a supply of its own, is at
(R52). `keep`: other register words kept. -/
def wiped (m : Mach) (powerOn : Bool) (keep : List Nat) : Mach :=
  let spares := rd m F.FLS_STATUS_SPARES 0
  let health := rd m F.FLS_HEALTH_STATE 0
  let pe := rd m F.FLS_HEALTH_MEAN_PE 0
  let m0 : Mach := {
    regs := m.regs.filter (fun e => keep.contains e.1)
    fuses := m.fuses
    nor := m.nor
    eject := { fieldBad := m.eject.fieldBad }
    flash := { m.flash with bufSys := 0, bufAudit := [], bufReject := [], inProg := none,
                            bucket := 67108864, bucketAt := {}, recent := [], scanAt := none, restoring := none, reading := none }
    glume := { wiping := m.glume.wiping, retireDue := m.glume.retireDue }
    power := { thrNs := if powerOn then [] else (accrueDroop m).power.thrNs }
    fab := { tillers := if powerOn then [] else ((List.range 8).filter (tooHot m)).map (fun t =>
      (t, { ({} : Tiller) with quar := true, thermQuar := true, temp := (tilOf m t).temp })) }
    ctl := { perstHigh := m.ctl.perstHigh, tripped := m.ctl.tripped, prev := m.ctl.prev, st := m.ctl.st, supplyOut := m.ctl.supplyOut && !powerOn }
    draws := m.draws
    out := m.out }
  wrs m0 0 [(F.FLS_STATUS_SPARES, spares), (F.FLS_HEALTH_STATE, health), (F.FLS_HEALTH_MEAN_PE, pe),
    (F.GEN_CHECK_SPARE_SPARE_PAGES, 1024 - m.flash.retired.length)]

/-- The image of a slot, and a slot's image changed. -/
def slotImage (m : Mach) (s : Slot) : Option Image :=
  match s with
  | .a => m.nor.slotA
  | .b => m.nor.slotB

def setSlot (m : Mach) (s : Slot) (i : Option Image) : Mach :=
  match s with
  | .a => setNor m (fun n => { n with slotA := i })
  | .b => setNor m (fun n => { n with slotB := i })

/-- A slot by number, and the other slot. -/
def slotOf (n : Nat) : Slot := if n = 1 then .b else .a

def otherSlot (s : Slot) : Slot :=
  match s with
  | .a => .b
  | .b => .a

/-- Is a section there exactly as R69 wants it: one of each type, PROGRAM 0 to 15 with distinct contexts? -/
def sectTypesOk (xs : List SectEntry) : Bool :=
  let progs := xs.filter (fun x => x.type == 10)
  xs.all (fun x => decide (1 ≤ x.type) && decide (x.type ≤ 11))
    && [1, 2, 3, 4, 5, 6, 7, 8, 9, 11].all (fun t => (xs.filter (fun x => x.type == t)).length == 1)
    && decide (progs.length ≤ 15) && (progs.map (fun x => x.context)).dedup.length == progs.length
    && xs.all (fun x => if x.type = 10 then decide (1 ≤ x.context) && decide (x.context ≤ 15) else x.context == 0)

/-- Sections lie on 4 KiB boundaries from 0x2000 within LENGTH, and no two overlap (R68). -/
def sectPlacesOk (len : Nat) (xs : List SectEntry) : Bool :=
  xs.all (fun x => x.reservedZero && x.offset % 4096 == 0 && decide (0x2000 ≤ x.offset) && decide (x.offset + x.length ≤ len))
    && (xs.zipIdx.all (fun x => (xs.drop (x.2 + 1)).all (fun y =>
        decide (x.1.offset + x.1.length ≤ y.offset) || decide (y.offset + y.length ≤ x.1.offset))))

/-- Bytes of a slot: 31 MiB (R65). -/
def slotBytes : Nat := 31 * 1048576

/-- Check 1 (R67 to R70). -/
def check1 (i : Image) : Bool :=
  i.magic == 0x44455654 && i.format == 1 && decide (1 ≤ i.nsect) && decide (i.nsect ≤ 64)
    && decide (0x2000 ≤ i.length) && decide (i.length ≤ slotBytes) && decide (i.rollback ≤ 96) && decide (i.keySlot ≤ 3)
    && decide (i.flags.toNat < 8) && i.reservedZero && sectTypesOk i.sects && sectPlacesOk i.length i.sects
    && i.sects.all (fun x => if x.type = 3 then decide (x.length ≤ 4096) else if x.type = 8 then x.length == 16777216 else true)

/-- Check 2: the owner key in the slot named is the newest programmed (R70). -/
def check2 (f : Fuses) (i : Image) : Bool :=
  decide (i.keySlot + 1 = f.ownerKeys.length) && f.ownerKeys[i.keySlot]? == some i.ownerHash

/-- The digests of the sections of some types match. -/
def digestsOk (i : Image) (early : Bool) : Bool :=
  i.sects.all (fun x => (decide (x.type = 1 ∨ x.type = 3)) != early || x.digest == x.actual)

/-- One encoder channel of EARLY_IO obeys its field rules (R70 check 5, R104, R108, R110, R112). -/
def encOk (e : EncCfg) : Bool :=
  decide (e.mode ≤ 5) && decide (e.zmode ≤ 2) && decide (e.filt ≤ 15) && decide (2 ≤ e.spdWinLog2) && decide (e.spdWinLog2 ≤ 7)
    && decide (1 ≤ e.stillMs) && decide (e.stillMs ≤ 255) && decide (e.refCount ≤ 65535)
    && (e.mode < 4 || (decide (8 ≤ e.bits) && decide (e.bits ≤ 40) && decide (1 ≤ e.clk100k) && decide (e.clk100k ≤ 40)
        && decide ((e.bits + 8) * 10 + 22 * e.clk100k ≤ e.refCount * e.clk100k)))

/-- Check 5 (R70). -/
def check5 (i : Image) : Bool :=
  digestsOk i true && i.early.reservedZero && decide (i.early.enc.length ≤ 4) && i.early.enc.all encOk

/-- Reject code of checks 1 to 5, 0 passed; an erased slot is code 1 (GEN_BOOT_STATUS). -/
def earlyCode (f : Fuses) (i : Option Image) : Nat :=
  match i with
  | none => 1
  | some i =>
    if !check1 i then 2
    else if !check2 f i then 3
    else if !i.sigOk then 4
    else if i.rollback < f.rollback then 5
    else if !check5 i then 6
    else 0

/-- Checks 1 to 6 (R410). -/
def stageCode (f : Fuses) (i : Option Image) : Nat :=
  match i with
  | none => 1
  | some j => if earlyCode f i ≠ 0 then earlyCode f i else if !digestsOk j false then 7 else 0

/-- A port's line rate at v_max, or in free-running mode, as lines a second: a fraction's two parts (R10, R123, R178). -/
def rateNum (m : Mach) (c : CamPort) : Nat :=
  if freeRun m then m.cfg.machine.s * 2 ^ c.mult * giga else m.cfg.machine.vMaxCps * 2 ^ c.mult
def rateDen (m : Mach) : Nat := 4 * (if freeRun m then m.cfg.machine.periodNs else m.cfg.machine.pitch)

/-- Σ load_p as a numerator over `rateDen` (R178). -/
def loadSum (m : Mach) : Nat := ((camPorts m).map (fun p => ((camOf m p).pixels * (camOf m p).bands + 96) * rateNum m (camOf m p))).sum

/-- Chaff fields of a port (R209): `nc` its CHANNELS. -/
def chaffFieldsOk (c : CamPort) (nc : Nat) : Bool :=
  let n := if c.split = 0 then 3 else if c.split = 1 then 4 else 6
  let top := if c.split = 0 then 8 else if c.split = 1 then 10 else 12
  decide (c.split ≤ 2) && (List.range 6).all (fun k =>
    if k < n then decide (c.ch.getD k 0 < nc) && decide (c.lsb.getD k 0 ≤ top) else c.ch.getD k 0 == 0 && c.lsb.getD k 0 == 0)

/-- The limits of one camera port (R10, R123, R165, R173, R175, R209). -/
def portOk (m : Mach) (p : Nat) : Bool :=
  let c := camOf m p
  let n := rateNum m c
  let d := rateDen m
  let b := if c.width = 0 then 1 else 2
  decide (64 ≤ c.pixels) && decide (c.pixels ≤ 32768) && c.pixels % 8 == 0 && decide (1 ≤ c.bands) && decide (c.bands ≤ 6)
    && decide (c.width ≤ 3) && decide (c.mult ≤ 4) && decide (c.fill ≤ 2) && decide (c.group ≤ 7) && decide (c.context ≤ 15)
    && decide (-8388608 ≤ c.lineOfs) && decide (c.lineOfs ≤ 0) && decide (-4095 ≤ c.pixOfs) && decide (c.pixOfs ≤ 4095)
    && decide (n ≤ 400000 * d) && decide (c.pixels * c.bands * n ≤ 4000000000 * d)
    && decide (250 ≤ c.minPeriod) && decide (c.minPeriod ≤ 65535) && decide (c.minPeriod * 10 * n ≤ giga * d)
    && decide (swathLen m p * (64 + c.pixels * c.bands * b) ≤ 8388608)
    && (c.fill != 2 || decide (c.fillConst < 2 ^ sampleBits c))
    && (!c.chaffEn || chaffFieldsOk c (portChannels m p))

/-- A port is a map port of the image (R218). -/
def isMapPort (m : Mach) (p : Nat) : Bool :=
  let c := camOf m p
  c.mode == .camera && c.chaffEn && (c.group == 0 || (List.range p).all (fun q =>
    !((camOf m q).mode == .camera && (camOf m q).chaffEn && (camOf m q).group == c.group)))

/-- The ranges of VALVE's fields (R375). -/
def valveRanges (v : ValveSec) : Bool :=
  within 20 v.minOnUs 65535 && decide (v.minOffUs ≤ 65535) && within 1 v.maxOnMs 65535 && v.airNs.all (fun n => decide (n < 2 ^ 32))
    && v.mapPorts.all (fun p => p.dist.all (fun d => decide (d < 2 ^ 31)) && decide (p.lead ≤ 65535)
      && decide (p.trail ≤ 65535) && decide (p.widen ≤ 65535))
    && v.valves.all (fun e => decide (e.1 < 2064) && decide (e.2.line ≤ 3) && decide (e.2.colHi ≤ 65535) && decide (e.2.colLo ≤ 65535)
      && decide (e.2.lOnSeed < 2 ^ 32) && decide (e.2.lOff < 2 ^ 32))

/-- VALVE (R375). -/
def valveOk (m : Mach) : Bool :=
  let v := m.cfg.valve
  let used := v.valves.filter (fun e => e.2.line != 0)
  valveRanges v && used.all (fun e => isMapPort m e.2.port && decide (e.2.colLo ≤ e.2.colHi)
      && ((v.mapPorts.getD e.2.port {}).dist.getD (e.2.line - 1) 0 != 0))
    && (List.range 64).all (fun b => !bitOf (boardMask m (b / 8)) (b % 8)
      || used.any (fun e => decide (e.1 < 2048) && e.1 / 32 == b))

/-- The count can change by more than half its range between two words at v_max (R112 check 7), on the master encoder. -/
def ssiTooFast (m : Mach) : Bool :=
  let e := encCfg m (master m)
  !freeRun m && decide (4 ≤ e.mode) && decide (2 ^ (e.bits - 1) * 1000000 < e.refCount * m.cfg.machine.vMaxCps)

/-- The programs of an image, one for each PROGRAM section. -/
def imagePrograms (i : Image) : List (Nat × Program) :=
  (i.sects.filter (fun x => x.type == 10)).map (fun x => (x.context, ((i.programs.find? (fun p => p.1 == x.context)).map (fun p => p.2)).getD {}))

/-- The ranges that R88, R92 to R94 and R99 give the fields of TIME (assumption 103). -/
def timeOk (t : TimeSec) : Bool :=
  let dom := fun (c : DomCfg) => !c.enable || (decide (c.port ≤ 2) && decide (c.domainNum ≤ 127) && decide (c.kp < 65536) && decide (c.ki < 65536))
  dom t.domA && dom t.domB && decide (50 ≤ t.lockNs) && decide (t.lockNs ≤ 100000) && decide (10000 ≤ t.stepNs) && decide (t.stepNs ≤ giga)
    && decide (1 ≤ t.holdS) && decide (t.holdS ≤ 65535)

/-- The load checks but for the programs (check 7 of R70), with the image's configuration in place. -/
def machineOk (m : Mach) : Bool :=
  let c := m.cfg.machine
  decide (16 ≤ c.s) && decide (c.s ≤ 512) && c.s % 4 == 0 && decide (40000 ≤ tMinNs m) && decide (c.masterEnc ≤ 3)
    && decide (1 ≤ c.pitch) && decide (c.pitch ≤ 65535) && decide (c.holdMs ≤ 255) && timeOk m.cfg.time
    && (freeRun m || decide (c.vMaxCps ≤ 20000000)) && !ssiTooFast m
    && c.doSrc.zipIdx.all (fun x => doMode m x.2 != 2 || decide (x.1 ≤ 6))
    && (camPorts m).all (portOk m) && decide (loadSum m ≤ 48000000000 * rateDen m)
    && (List.range 8).all (fun g => g == 0 || (camPorts m).all (fun p => (camOf m p).group != g)
        || (camPorts m).any (fun p => (camOf m p).group == g && (camOf m p).chaffEn))
    && m.cfg.isp.hdrZero && m.cfg.isp.portMask == BitVec.ofNat 16 (ofBits ((List.range 16).map (fun p => (camOf m p).mode == .camera)))
    && m.cfg.isp.length == 16 + ((camPorts m).map (fun p => 0x4000 + 4 * (camOf m p).pixels * (camOf m p).bands)).sum
    && setConsistent m m.cfg.isp.words && valveOk m
    && within 1 c.sendAhead 255 && decide (c.defaultAct ≤ 3) && decide (c.voidAct ≤ 3) && decide (c.overflowAct ≤ 3)
    && (decide (c.inhibitDi ≤ 23) || c.inhibitDi == 31)
    && m.cfg.stem.magic == 0x4D455453 && m.cfg.stem.format == 1 && m.cfg.stem.reservedZero
    && decide (250 ≤ m.cfg.power.capW) && decide (m.cfg.power.capW ≤ 400) && decide (m.cfg.power.order ≤ 5)
    && decide (10 ≤ m.cfg.power.gateUs) && decide (m.cfg.power.gateUs ≤ 32767)
    && (decide (m.cfg.power.wakeDi ≤ 23) || m.cfg.power.wakeDi == 31)
    && decide (stagingBytes m ((imagePrograms m.cfg).map (fun p => p.2)) ≤ 50331648)
    && (!m.fuses.confOnly || (imagePrograms m.cfg).isEmpty)

/-- A Tiller's clock, and the voltage that goes with it (R440, TIL_CLK). -/
def setClock (m : Mach) (t f : Nat) : Mach := wr (setTil m t (fun x => { x with relock := none, locked := false, voltMhz := f })) F.TIL_CLK_FREQ_MHZ t f

/-- Every Tiller that is not fused off runs at the nominal clock (R2, TIL_CLK). -/
def nominalClocks (m : Mach) : Mach :=
  forEach ((List.range 8).filter (fun t => !m.fuses.tillerOff.getLsbD t)) m (fun m t => setClock m t (nominalMhz m))

/-- Put the image's configuration in place: the ISP sets, the Stem cores' Tillers (R73 steps 7 and 8). A Tiller that was quarantined
runs its self-test first (R356): its result is a free value, `bad` the Tillers that fail. One that is too hot waits in its self-test until
its sensor reads 90 degrees C or less (R442). -/
def configure (m : Mach) (i : Image) (bad : List Nat) : Mach :=
  let m := { m with cfg := i }
  let m := setIsp m (fun x => { x with set0 := i.isp.words, set1 := i.isp.words })
  forEach (List.range 8) m (fun m t => setTil m t (fun x => { x with
    st := if m.fuses.tillerOff.getLsbD t then .fusedOff else if bad.contains t then .quarantined else if tooHot m t then .reset else .idle
    quar := !m.fuses.tillerOff.getLsbD t && (bad.contains t || tooHot m t) }))
  |> nominalClocks

/-- Seal a program into its context (R307, R340). The SHARE of a sealed best-effort program is not stated: a free value. -/
def sealProgram (m : Mach) (c : Nat) (p : Program) : Mach :=
  let r := draw m
  setCtx r.1 c (fun x => { x with st := .sealed, program := some p, logical := p.logical, share := if p.tick then 0 else 1 + r.2 % 255 })

/-- Place the image's programs in the Sower's order (R318, R320): none when a check fails. -/
def placeImage (m : Mach) : Option Mach :=
  let m := forEach (imagePrograms m.cfg) m (fun m x => sealProgram m x.1 x.2)
  ((placeOrder m).map (fun x => x.1)).foldl (fun (r : Option Mach) c =>
    match r with
    | none => none
    | some m =>
      match (ctxOf m c).program with
      | none => some m
      | some p =>
        if loadReason m c false p ≠ 0 then none
        else match placeNew m c with
          | none => none
          | some mp => some (bindCtx m c mp)) (some m)

/-- Checks 6 and 7 of a slot (R70), with the machine that results when they pass. -/
def lateCheck (m : Mach) (i : Image) (bad : List Nat) : Nat × Mach :=
  if !digestsOk i false then (7, m)
  else
    let m1 := configure m i bad
    if !machineOk m1 then (9, m)
    else match placeImage m1 with
      | none => (9, m)
      | some m2 => (0, m2)

/-- What the boot of a slot gave: its reject code, and the machine when it passed. -/
def trySlot (m : Mach) (s : Slot) (bad : List Nat) : Nat × Mach :=
  match slotImage m s with
  | none => (1, m)
  | some i =>
    let c := earlyCode m.fuses (some i)
    if c ≠ 0 then (c, m)
    else
      -- EARLY_IO is applied once checks 1 to 5 pass (R73 step 3)
      let m := setCtl { m with cfg := { m.cfg with early := i.early } } (fun c => { c with earlyApplied := true })
      lateCheck m i bad

/-- DIGEST of a section of an image. -/
def sectDigest (i : Image) (t : Nat) : Digest := ((i.sects.find? (fun x => x.type == t)).map (fun x => x.digest)).getD 0

/-- The first measurement list of a boot (R406, R407): GLM_MEAS_GEN is 1. -/
def firstMeas (m : Mach) : Mach :=
  let fw := if m.ctl.runSlot.isSome then
      [(2, 1, digestBytes (sectDigest m.cfg 1)), (3, 1, digestBytes (sectDigest m.cfg 2)), (4, 3, digestBytes m.cfg.headerDigest)]
    else []
  let m := setGlume m (fun g => { g with meas := (1, 0, digestBytes Config.romDigest) :: fw })
  wr (measureFuses m) F.GLM_MEAS_GEN_GEN 0 1

/-- Erase what a RETURN wipes (R423). -/
def wipeReturn (m : Mach) : Mach :=
  let m := setNor m (fun n => { n with bcb0 := [], bcb1 := [], slotA := none, slotB := none })
  let gone := fun (e : Nat × Nat) => (within 64 e.1 (auditBlock0 - 1) || decide (rejectBlock0 ≤ e.1)) && e.2 != 0
  let m := setFlash m (fun f => (f.regionOf.filter gone).foldl (fun f e => eraseBlock { f with regionOf := tset 0 f.regionOf e.1 0 } (e.2 - 1))
    { f with
      rejects := [], bufReject := [], backups := [], lostReject := []
      inProg := if f.inProg = some .reject then none else f.inProg })
  setGlume m (fun g => { g with wiping := false, returnDue := false })

/-- A move of the lifecycle (R422): a ledger entry. -/
def moveLife (m : Mach) (l : Lifecycle) : Mach := fuseLedger m 1 (BitVec.ofNat 32 (lifeCode l)) false (fun f => { f with life := l })

/-- The move of a RETIRE that was carried out (R425). -/
def retireMove (m : Mach) : Mach :=
  if m.glume.retireDue then moveLife (setGlume m (fun g => { g with retireDue := false })) .retired else m

/-- A ledger entry missing after a power loss is written with RECOVERED set (R427). -/
def recoverLedger (m : Mach) : Mach :=
  match m.fuses.unlogged with
  | none => m
  | some e => raise (fuseLedger m e.kind e.value true (fun f => { f with unlogged := none })) F.GLM_EVENT_FUSE_RECOVERED 0

/-- The Tiller map of the fuses is shown in every state, FAULT included (R22, R426). -/
def fusedTillers (m : Mach) : Mach :=
  forEach ((List.range 8).filter (fun t => m.fuses.tillerOff.getLsbD t)) m (fun m t => setTil m t (fun x => { x with st := .fusedOff }))

/-- Step 1 of R73, and what Glume does before it chooses a slot: a wipe of RETURN resumes (R423), the ledger is completed (R427), BOOT_ID
is drawn (R456), a field supply out of range is found (R52), the debug grant is that of the lifecycle (R429), encoders and trims as stored. -/
def bootStart (m : Mach) : Mach :=
  let m := enter (setCtl m (fun c => { c with powerGood := true })) .booting
  let m := retireMove (if m.glume.wiping then wipeReturn m else m)
  let m := fusedTillers m
  let r := draw m
  let m := setHost r.1 (fun h => { h with bootId := BitVec.ofNat 64 r.2 })
  let m := setGlume m (fun g => { g with granted := if m.fuses.life = .blank then .full else .none })
  let m := setFab m (fun b => { b with hbm := (m.flash.retired.zipIdx).foldl (fun s x => movePage s x.1 (sparePage x.2)) {} })
  let trim := fun (k : Nat) => twos 8 (m.flash.trims.getD k 0)
  let m := wrs m 0 [(F.PWR_VTRIM_COMPUTE0, trim 0), (F.PWR_VTRIM_COMPUTE1, trim 1), (F.PWR_VTRIM_INTAKE, trim 2), (F.PWR_VTRIM_IO, trim 3)]
  let m := if m.eject.fieldBad then fieldFault m else m
  setCtl (flashOpen (recoverLedger m)) (fun c => { c with linkTraining := c.perstHigh })

/-- The result of choosing a slot (R71): the slot that runs, and the machine; codes of the ACTIVE and of the other slot. -/
structure Chosen where
  slot   : Option Slot
  mach   : Mach
  codeA  : Nat
  codeO  : Nat

/-- R71: the ACTIVE slot under its CONFIRMED bit and TRIAL, then the other. RETIRED checks none (R422). -/
def choose (m : Mach) (bad : List Nat) : Chosen :=
  let b := bcOf m.nor
  let act := slotOf (b.active % 2)
  if m.fuses.life = .retired then ⟨none, m, 0, 0⟩
  else
    let spent := !bitOf b.confirmed (slotNo act) && b.trial == 0
    let m := if !bitOf b.confirmed (slotNo act) && b.trial != 0 then writeBc m b.active (b.trial - 1) b.confirmed else m
    let r := if spent then (8, m) else trySlot m act bad
    if r.1 = 0 then ⟨some act, r.2, 0, 0⟩
    else
      let o := trySlot r.2 (otherSlot act) bad
      if o.1 = 0 then ⟨some (otherSlot act), o.2, r.1, 0⟩ else ⟨none, o.2, r.1, o.1⟩

/-- GEN_BOOT_STATUS (register table). With no slot running, SLOT names the ACTIVE slot and REJECT is the other's. -/
def bootStatus (m0 m : Mach) (c : Chosen) : Mach :=
  let b := bcOf m.nor
  let act := slotOf (b.active % 2)
  let run := c.slot.getD act
  wrs m 0 [
    (F.GEN_BOOT_STATUS_REJECT, if run = act then c.codeO else c.codeA)
    , (F.GEN_BOOT_STATUS_ROLLBACK, if c.slot.isSome then m.cfg.rollback else 0)
    , (F.GEN_BOOT_STATUS_TRIAL, b.trial)
    , (F.GEN_BOOT_STATUS_BC_DEFAULT, b2n (bcbPick m0.nor).isNone)
    , (F.GEN_BOOT_STATUS_CONFIRMED, b2n (c.slot.isSome && bitOf b.confirmed (slotNo run)))
    , (F.GEN_BOOT_STATUS_FALLBACK, b2n (c.slot.isSome && run != act))
    , (F.GEN_BOOT_STATUS_SLOT, slotNo run)]

/-- Start the encoders under EARLY_IO (R73 step 4, R75, R104). The filtered levels of A and B start low (assumption 101). -/
def startEncoders (m : Mach) : Mach :=
  forEach (List.range 4) m (fun m ch => setEnc m ch (fun _ => { ({} : EncCh) with started := (encCfg m ch).mode != 0 }))

/-- The values that registers load from the image and that can change afterwards (R179, R180, R184, R348, QUE_HOST_MASK). A port
that is not fused has offsets 0. -/
def loadRegisters (m : Mach) : Mach :=
  let m := wrs m 0 [(F.GEN_CHECK_CFG_QUAR_RATE, m.cfg.machine.quarRate), (F.GEN_CHECK_CFG_AUTO_RETURN, b2n m.cfg.machine.autoReturn)
    , (F.QUE_HOST_MASK_MASK, m.cfg.machine.hostCtxMask.toNat), (F.INT_ISP_SET_ID_SET_ID, m.cfg.isp.setId.toNat)]
  forEach ((List.range 16).filter (fun p => (camOf m p).group != 0)) m (fun m p => wrs m p [
    (F.INT_PORT_LOFS_LINE_OFS, twos 24 (camOf m p).lineOfs), (F.INT_PORT_POFS_PIX_OFS, twos 13 (camOf m p).pixOfs)])

/-- All five copies of the Chaff table are those of the image (R212, R217). -/
def loadChaff (m : Mach) : Mach :=
  setChaff m (fun _ => { pair0 := m.cfg.chaff, pair1 := m.cfg.chaff, shadow := m.cfg.chaff })

/-- Sheaf ports that the image assigns start training (R73 step 7, R131). -/
def startPorts (m : Mach) : Mach :=
  forEach ((List.range 16).filter (assigned m)) m (fun m p => if (portOf m p).phy = .off then startTraining m p .detect false else m)

/-- Queues, windows and grants of every program placed; the placement stands (R320, R321, R326, R328). -/
def programsPlaced (m : Mach) : Mach :=
  let m := forEach (m.fab.ctxs.map (fun c => c.1)) m (fun m c => match (ctxOf m c).program with
    | none => m
    | some p => if (ctxOf m c).map.isEmpty then m
      else grantAll (setCtx (bindQueues m c p) c (fun x => { x with decideFrom := some 0, scrubbed := false })) c true)
  holdRelease (placementDone m)

/-- Steps 7 and 8 of R73 for the running image: CONFIGURED; the start-up alignment of FLAGS[2] is due (R76, R184). -/
def applyImage (m : Mach) : Mach :=
  let m := applyTime (loadChaff (loadRegisters m))
  let m := startPorts (setCtl m (fun c => { c with cameraApplied := true, alignDue := m.cfg.flags.getLsbD 2 }))
  enter (programsPlaced (bootWindows m)) .configured

/-- Start-up alignment begins in CONFIGURED (R76, R184, R185). -/
def startupAlign (m : Mach) : Mach := if m.ctl.alignDue && m.ctl.st = .configured then startAlign m 0 true true else m

/-- Hot Tillers stay in their self-test (R356, R442). -/
def hotTests (m : Mach) : Mach :=
  setCtl m (fun c => { c with resets := ((List.range 8).filter (tooHot m)).map (fun t =>
    { kind := .tiller, item := t, phase := .selfTest, auto := true, at_ := m.time.now }) })

/-- Tillers whose self-test after a reset fails: free values, one for each Tiller that was quarantined (R356, assumption 8). -/
def testQuarantined (m : Mach) (quar : List Nat) : Mach × List Nat :=
  quar.foldl (fun r t => let d := draw r.1; (d.1, if d.2 % 2 = 1 then r.2 ++ [t] else r.2)) (m, [])

/-- The self-tests' events and audit entries (R356, R400 type 0x0008; causes of Work's quarantine, 0 returned). -/
def testEvents (m : Mach) (quar bad : List Nat) : Mach :=
  forEach quar m (fun m t =>
    if bad.contains t then raiseAs m F.GEN_CHECK_EVENT_SELFTEST_FAIL 0 t 0
    else audit (raiseAs m F.GEN_CHECK_EVENT_RETURNED 0 t 0) 0x0008 0 (leBytes 1 t ++ leBytes 1 0))

/-- The boot of R73 from BOOTING on: to CONFIGURED, or to FAULT with no valid image or no Tiller (R23, R71, R355). `quar`: the Tillers
that were quarantined before the reset. -/
def boot (m : Mach) (quar : List Nat) : Mach :=
  let m := bootStart m
  let t := testQuarantined m quar
  let c := choose t.1 t.2
  let m1 := startEncoders (bootStatus m c.mach c)
  match c.slot with
  | none =>
    let m2 := firstMeas m1
    enterFault (audit m2 0x0001 0 (leBytes 4 (word m2 0 0x30).toNat ++ leBytes 4 (word m2 0 0x34).toNat)) 1
  | some s =>
    let m2 := firstMeas (setCtl m1 (fun x => { x with runSlot := some s }))
    let m3 := audit m2 0x0001 0 (leBytes 4 (word m2 0 0x30).toNat ++ leBytes 4 (word m2 0 0x34).toNat)
    let m4 := hotTests (testEvents (applyImage m3) quar t.2)
    if (List.range 8).all (tilLost m4) then stopModule m4 4 else startupAlign m4

/-- Tillers quarantined now. -/
def quarantined (m : Mach) : List Nat := (List.range 8).filter (fun t => (tilOf m t).quar)

/-- Those of them that a self-test at the next boot can return: not a hot one (R442). -/
def testable (m : Mach) : List Nat := (quarantined m).filter (fun t => !tooHot m t)

/-- POWER_GOOD (R48, R73, R79, R85): power-on. Everything volatile is at its reset value; local time starts at 0. -/
def powerGood (m : Mach) : Mach :=
  if m.ctl.st ≠ .powering || m.ctl.tripped || m.ctl.powerGood then m
  else boot (wiped m true []) (quarantined m)

def execPowerGood (s : State) : Host.Outcome State Fault Refusal := s.run powerGood

/-- FUNCTION_READY (R74): at CONFIGURED or FAULT, at the latest 900 ms after power-good. -/
def functionReady (m : Mach) : Mach :=
  if alive m then setCtl m (fun c => { c with fnReady := true }) else m

def execFunctionReady (s : State) : Host.Outcome State Fault Refusal := s.run functionReady

/-- R444: the function's identity; the Subsystem ID follows the ordering code of R2. -/
def cfgId (m : Mach) : CfgId :=
  { vendor := 0x1F7B, device := 0x0008, subsystem := BitVec.ofNat 16 m.nor.code, classCode := 0x120000, serial := m.nor.serial }

/-- CONFIGURATION_REQUEST (R74): Retry Status until the function is ready; then the identity of R444. -/
def configurationRequest (m : Mach) : Mach :=
  if !alive m || !m.ctl.linkTraining then m else emit m (if m.ctl.fnReady then .cfgOk (cfgId m) else .cfgRetry)

def execConfigurationRequest (s : State) : Host.Outcome State Fault Refusal := s.run configurationRequest

/-- PERST_DEASSERTION (R73): link training starts. -/
def perstDeassertion (m : Mach) : Mach := setCtl m (fun c => { c with perstHigh := true, linkTraining := alive m })

def execPerstDeassertion (s : State) : Host.Outcome State Fault Refusal := s.run perstDeassertion

end Sys2Proof.Machine
end

