-- ==== Sys2Proof/Machine/Resets.lean ====
section
/-!
DEFINITION. Machine/Resets.lean: the resets of R79 to R83; the supply's commands (R48 to R50); the self-test and the return of an item
(R81, R356); placements and scrubs that end (R322, R418).
-/

namespace Sys2Proof.Machine

/-- Module reset (R79, R83): as power-on with the supplies kept, then the boot of R73. In the 2 ms between the loss of power-good and the end
of the hold-up none runs: power-good comes back with the next power-on only (R50; assumption 104). -/
def moduleReset (cause : Nat) (m : Mach) : Mach :=
  if !m.ctl.powerGood then m else
  let quar := testable m
  let m := wiped (flashClose m) false [0x34]
  let m := wr (inc m F.GEN_RESET_CAUSE_RESETS 0) F.GEN_RESET_CAUSE_CAUSE 0 cause
  boot (emit m .linkDown) quar

/-- The host may request module and warm resets (FLAGS[1], R67, R83). -/
def hostResets (m : Mach) : Bool := m.cfg.flags.getLsbD 1

/-- MODULE_RESET (R79, R82, R83). In FAULT it always acts. -/
def moduleResetReq (key : BitVec 8) (m : Mach) : Mach :=
  bar0 m (fun m =>
    if key ≠ 0x5A then m
    else if m.ctl.st = .fault || hostResets m then moduleReset 1 m
    else deny m)

def execModuleReset (key : BitVec 8) (s : State) : Host.Outcome State Fault Refusal := s.run (moduleResetReq key)

/-- A host context goes at a warm reset without a scrub (R79, R342): its queues, rings, pages, windows. -/
def clearHostCtx (m : Mach) (c : Nat) : Mach :=
  let m := releaseCtx (closeCtxWindows (auditCtxAs m c .free) c) c
  let m := setFab m (fun b => { b with hbm := { b.hbm with owner := b.hbm.owner.filter (fun o => o.2 != c) } })
  setCtx m c (fun _ => {})

/-- Queues, rings and commands in flight go (R79). -/
def clearQueues (m : Mach) : Mach :=
  setFab m (fun b => { b with inflight := [], queues := [], rings := [], ctxRun := none })

/-- Place the image's programs again where they are placed, or anew while a re-placement was under way (R79, R80, R320, R322). -/
def replaceImage (m : Mach) : Mach :=
  let maps := if m.fab.pend.isSome then placeAll m (inService m) else (placeOrder m).map (fun c => (c.1, c.2.map))
  let m := setFab m (fun b => { b with pend := none, home := [] })
  let m := forEach maps m (fun m x => releaseCtx m x.1)
  programsPlaced (forEach maps m (fun m x => bindCtx m x.1 x.2))

/-- The Stem cores restart (R80, R420): Tillers come up; one that was quarantined runs its self-test first (R356). -/
def restartStem (m : Mach) : Mach :=
  let back := fun (t : Nat) (x : Tiller) =>
    if m.fuses.tillerOff.getLsbD t then { x with st := TilState.fusedOff }
    else if m.ctl.resets.any (fun r => r.kind == .tiller && r.item == t) then x else { x with st := TilState.idle }
  let m := setCtl (forEach (List.range 8) m (fun m t => setTil m t (back t))) (fun c => { c with warmDue := false })
  startupAlign (replaceImage m)

/-- Every Tiller's logic is reset (R79, R268): nothing runs, no owner tag, every line unwritten, no injection, no quarantine; what
its sensor reads stays, and with it the condition of R442. -/
def resetTillers (m : Mach) : Mach :=
  forEach (List.range 8) m (fun m t => setTil m t (fun x => { x with
    st := .reset, quar := false, autoSpent := false, detections := 0, inject := {}, grid := none, flail := none, chute := none
    granary := { x.granary with owner := [], written := [] }, winTime := [], lastQueue := [] }))

/-- A Chaff swap in COPY or PENDING is discarded, one in REFILL completes, the other copies are refilled from the pair in service (R217): words
that it has lost are then lost in every copy, and a swap is required (R213). -/
def warmChaff (m : Mach) : Mach :=
  let m := if chaffState m = 3 then chaffRefilled m else m
  let k := lastPair m
  let m := wr (setPair (setChaffState m 0) (1 - k) (activeTable m)) F.CHF_STATUS_LOAD_BUSY 0 0
  setChaff m (fun c => { c with
    shadow := activeTable m, dirty := false, failRefill := false, lostRefill := false
    badWords := stillLost m
    needSwap := c.needSwap || !(stillLost m).isEmpty })

/-- A pending parameter swap is discarded, the inactive set recopied (R207). -/
def warmIsp (m : Mach) : Mach :=
  let m := wrs m 0 [(F.INT_ISP_STATUS_SWAP_PENDING, 0), (F.INT_ISP_STATUS_COPYING, 0)]
  setIsp (setInactive m (activeSet m)) (fun i => { i with checking := false, dirty := false })

/-- The slot that does not run; with none running, the one that ACTIVE does not name (R65, R410). -/
def inactiveSlot (m : Mach) : Slot := otherSlot (m.ctl.runSlot.getD (slotOf ((bcOf m.nor).active % 2)))

/-- Staging stops; the inactive slot is left erased (R79, R410). -/
def stopStaging (m : Mach) : Mach :=
  if rd m F.GLM_UPD_STATUS_STATE 0 = 1 then
    wr (setGlume (setSlot m (inactiveSlot m) none) (fun g => { g with staging := none })) F.GLM_UPD_STATUS_STATE 0 0
  else m

/-- Link-layer state goes with a reset stronger than a partial one (R152); a port in L0 tells its partner with FRESH. Out of STANDBY or
DORMANT every port returns to L0 (R139). -/
def warmLinks (low : Bool) (m : Mach) : Mach :=
  forEach ((List.range 16).filter (assigned m)) m (fun m p =>
    let m := setPort (clearLink m p) p (fun s => { s with dark := false })
    -- on a port that a scrub holds, FRESH goes out at its end (R163)
    if (portOf m p).phy = .l0 then setPort (sendLctl m p 4 0) p (fun s => { s with fresh := s.scrubIdle })
    else if (portOf m p).phy = .off then startTraining m p .detect false
    else if low then lpExit m p
    else m)

/-- Leave whatever runs for CONFIGURED at a warm reset (R79): alignment is abandoned, power requests are given up. -/
def warmStop (m : Mach) : Mach :=
  let m := if m.ctl.align then alignState (setCtl m (fun c => { c with align := false })) 0 0 else m
  let m := if ticking m then leavePipeline m else enter (clearPipeline m) .configured
  let m := setGlume m (fun g => { g with dormScrub := false })
  setCtl m (fun c => { c with powerReq := none, heldReqs := [], waking := false, resets := [] })

/-- What leaving DORMANT reloads from the running slot (R207, R217, R421, R433): HBM zeroed, Chaff and ISP copies, encoders, programs
placed from their PROGRAM sections, in contexts that hold nothing else. -/
def reloadDormant (m : Mach) : Mach :=
  let m := setFab m (fun b => { b with
    hbm := (m.flash.retired.zipIdx).foldl (fun s x => movePage s x.1 (sparePage x.2)) {}, hbmPools := [], bins := [], ctxs := [], queues := [], rings := [] })
  let m := startEncoders (loadChaff m)
  let m := setIsp m (fun i => { i with set0 := m.cfg.isp.words, set1 := m.cfg.isp.words, active1 := false, checking := false, dirty := false })
  let m := wrs m 0 [(F.INT_ISP_SET_ID_SET_ID, m.cfg.isp.setId.toNat), (F.CHF_TABLE_ID_TABLE_ID, 0), (F.INT_ISP_STATUS_SWAP_PENDING, 0)
    , (F.INT_ISP_STATUS_COPYING, 0), (F.INT_ISP_STATUS_ACTIVE_SET, 0)]
  let m := forEach (imagePrograms m.cfg) (setChaffState m 0) (fun m x => sealProgram m x.1 x.2)
  forEach (placeAll m (inService m)) m (fun m x => bindCtx m x.1 x.2)

/-- Out of DORMANT the HOLD_S timer and the flash's count of powered time go on where they stood (R102, R394). -/
def resumeHold (m : Mach) : Mach :=
  match m.time.dormantAt with
  | none => m
  | some t =>
    let on (x : Domain) : Domain := { x with heldAt := x.heldAt.map (shiftBy (udiff m.time.now t)) }
    let m := setFlash m (fun f => { f with scanAt := f.scanAt.map (shiftBy (udiff m.time.now t)) })
    setTime m (fun b => { b with domA := on b.domA, domB := on b.domB, dormantAt := none })

/-- WARM_RESET, however requested (R79, R80, R207, R217, R356, R420). -/
def warmReset (cause : Nat) (m : Mach) : Mach :=
  let m0 := m
  let quar := quarantined m
  let dorm := decide (m.ctl.st = .dormant)
  let low := dorm || m.ctl.st == .standby
  let m := wr (inc m F.GEN_RESET_CAUSE_RESETS 0) F.GEN_RESET_CAUSE_CAUSE 0 cause
  let m := clearQueues (warmStop m)
  -- partial resets under way are abandoned (R82)
  let m := forEach (List.range 16) m (fun m p => setIp m p (fun i => { i with inReset := false }))
  let m := setEject m (fun e => { e with ports := e.ports.map (fun a => (a.1, { a.2 with inReset := false })) })
  let m := stopStaging (warmLinks low (resetTillers m))
  let m := setCtl m (fun c => { c with
    resets := (quar.filter (fun t => !m.fuses.tillerOff.getLsbD t)).map (fun t => { kind := .tiller, item := t, phase := .selfTest, auto := true }) })
  if dorm then
    let up := fun (t : Nat) => if m.fuses.tillerOff.getLsbD t then TilState.fusedOff
      else if m.ctl.resets.any (fun r => r.item == t) then TilState.reset else TilState.idle
    let m := forEach (List.range 8) m (fun m t => setTil m t (fun x => { x with st := up t }))
    notePower m0 (startupAlign (programsPlaced (reloadDormant (flashOpen (resumeHold m)))))
  else
    let m := warmIsp (warmChaff m)
    let host := (m.fab.ctxs.filter (fun c => c.2.st == .admitted || c.2.st == .loaded)).map (fun c => c.1)
    let conf := host.filter (fun c => (ctxOf m c).conf)
    let m := forEach (host.filter (fun c => !conf.contains c)) m clearHostCtx
    let m := forEach conf m startScrub
    notePower m0 (if m.glume.scrubs.isEmpty then restartStem m else setCtl m (fun c => { c with warmDue := true }))

/-- WARM_RESET (R79, R82, R83). While one is in progress another is ignored and counted. -/
def warmResetReq (key : BitVec 8) (m : Mach) : Mach :=
  bar0 m (fun m =>
    if key ≠ 0x5A || m.ctl.st = .fault then m
    else if !hostResets m then deny m
    else if m.ctl.warmDue then inc m F.GEN_RESET_CAUSE_IGNORED 0
    else warmReset 5 m)

def execWarmReset (key : BitVec 8) (s : State) : Host.Outcome State Fault Refusal := s.run (warmResetReq key)

/-- STEM_WATCHDOG_EXPIRY (R79): warm, or module at the second within 10 s. No Stem core runs in STANDBY, DORMANT or FAULT. -/
def watchdog (m : Mach) : Mach :=
  let runs := (m.ctl.st = .configured || ticking m) && !m.ctl.warmDue
  if !runs then m
  else
    let again := match m.ctl.lastWatchdog with
      | some t => lessSince m.time.now t (10 * giga)
      | none => false
    if again then moduleReset 3 m
    else warmReset 6 (setCtl m (fun c => { c with lastWatchdog := some m.time.now }))

def execStemWatchdogExpiry (s : State) : Host.Outcome State Fault Refusal := s.run watchdog

/-- GLUME_INTEGRITY_FAILURE (R23, R79): FAULT, then a module reset. -/
def glumeIntegrity (m : Mach) : Mach := if alive m then moduleReset 2 (stopModule m 3) else m

def execGlumeIntegrityFailure (s : State) : Host.Outcome State Fault Refusal := s.run glumeIntegrity

/-- DEBUG_HEADER_RESET (R79, R428): at FULL only. -/
def debugHeaderReset (m : Mach) : Mach := if alive m && effLevel m = .full then moduleReset 4 m else m

def execDebugHeaderReset (s : State) : Host.Outcome State Fault Refusal := s.run debugHeaderReset

/-- An item is in reset, or a reset of it is requested. -/
def resetting (m : Mach) (k : ItemKind) (n : Nat) : Bool := m.ctl.resets.any (fun r => r.kind == k && r.item == n)

/-- Change the entry of an item. -/
def setPhase (m : Mach) (k : ItemKind) (n : Nat) (p : ResetPhase) : Mach :=
  setCtl m (fun c => { c with resets := c.resets.map (fun r =>
    if r.kind = k ∧ r.item = n then { r with phase := p, at_ := m.time.now, tick := c.tickCount } else r) })

/-- A tick boundary has come since a tick count was noted; in a state that has ticks. -/
def boundarySince (m : Mach) (k : BitVec 48) : Bool := ticking m && m.ctl.tickCount != k

/-- A requested partial reset is due (R81): a tick boundary has come since, or 1 ms has passed. -/
def partialDue (m : Mach) (r : ResetItem) : Bool :=
  r.phase == .requested && (boundarySince m r.tick || !lessSince m.time.now r.at_ 1000000)

def dropItem (m : Mach) (k : ItemKind) (n : Nat) : Mach :=
  setCtl m (fun c => { c with resets := c.resets.filter (fun r => !(r.kind == k && r.item == n)) })

/-- A line whose data a reset of its port has cleared: it will be filled and marked MISSING (R81). -/
def clearLine (l : Line) : Line := if l.mark = .outside then l else { l with got := 0, filled := 0, bands := [], sent := false, closed := false, inReset := true }

/-- The first swath whose acquisition begins when a port's reset takes effect, or later (R191): the one that began at that boundary. -/
def firstSwath (m : Mach) (p : Nat) : Nat :=
  if m.ctl.resets.any (fun r => r.kind == .intake && r.item == p && boundarySince m r.tick) then swathNow m else swathNow m + 1

/-- An intake port goes into reset (R79, R81, R136, R191): its link retrains fast from L0 or QUIET, and comes out of DEEP; a training goes on.
The temporal filter runs on over the lines of earlier swaths. -/
def resetIntake (m : Mach) (p : Nat) : Mach :=
  let i := ipOf m p
  let d := settleAll p true (i.drain.map clearLine) (setIp m p (fun i => { i with prevBands := [] }))
  let f := settleAll p true (i.fill.map clearLine) d.1
  let m := setIp f.1 p (fun i => { i with
    inReset := true, drain := d.2, fill := f.2, recent := [], hdrRun := false
    startLine := some (BitVec.ofNat 32 (firstSwath m p * swathLen m p)) })
  let m := setPort (alignPortLost m p) p (fun s => { s with rxLine := [] })
  let s := portOf m p
  match s.phy with
  | .l0 | .quiet => retrainFrom m p .clock
  | .deep => lpExit m p
  | _ => m

/-- A Sheaf port goes into reset: lanes and link layer; it sends nothing until its logic is out of it (R64, R79, R136, R152). -/
def resetSheaf (m : Mach) (p : Nat) : Mach :=
  let m := clearLink (startTraining m p .off false) p
  let m := setPort m p (fun s => { ({} : SheafPort) with
    fresh := true, nextTag := s.nextTag, dark := true, scrubIdle := s.scrubIdle, outWrites := s.outWrites })
  alignPortLost m p

/-- The port's logic comes out of its reset: it trains again, or stays OFF (R81, R131, R142). -/
def lightSheaf (m : Mach) (p : Nat) : Mach :=
  let m := setPort m p (fun s => { s with dark := false })
  if assigned m p || testSet m p then startTraining m p .detect false else m

/-- An Awn port goes into reset: its pending fire commands are dropped, its boards see a bus reset (R79, R81). -/
def resetAwn (m : Mach) (p : Nat) : Mach :=
  let mine := m.eject.fires.filter (fun f => decide (f.valve < 2048) && f.valve / 256 == p)
  let m := forEach mine m (fun m f => missFire m f 1)
  setAwn m p (fun a => { ({} : AwnPort) with
    inReset := true, boards := a.boards.map (fun b => (b.1, { ({} : Board) with flags := b.2.flags })) })

/-- A Tiller goes into reset (R79, R81, R261, R268, R322, R356): its lines have no owner and are unwritten. A persistent injection stays
(GEN_CHECK_INJ). -/
def resetTiller (m : Mach) (t : Nat) : Mach :=
  if (tilOf m t).st = .fusedOff then m
  else
    let m := if (tilOf m t).quar then setTil m t (fun x => { x with st := .reset }) else loseTiller m t .reset
    setTil m t (fun x => { x with granary := { x.granary with owner := [], written := [] }, inject := { persistent := x.inject.persistent } })

/-- A partial reset takes effect (R79, R81): taken in RUNNING, it makes the module DEGRADED. -/
def partialEffect (m : Mach) (k : ItemKind) (n : Nat) : Mach :=
  let m0 := m
  let m := notePower m0 (match k with
    | .tiller => resetTiller m n
    | .intake => resetIntake m n
    | .sheaf => resetSheaf m n
    | .awn => resetAwn m n)
  let m := setPhase m k n .inReset
  if m.ctl.st = .running then decideState m else m

/-- A request for a partial reset (R81 to R83): ignored and counted for an item in reset, and while a warm reset, which is stronger, is in
progress. -/
def partialRequest (k : ItemKind) (key : BitVec 8) (n : Nat) (m : Mach) : Mach :=
  bar0 m (fun m =>
    let top := match k with
      | .tiller => 8
      | .intake => 16
      | .sheaf => 16
      | .awn => 8
    let off := m.ctl.st = .dormant || (m.ctl.st = .standby && (k == .tiller || k == .intake))
    if key ≠ 0x5A || m.ctl.st = .fault || n ≥ top then m
    else if off || resetting m k n || m.ctl.warmDue then inc m F.GEN_RESET_CAUSE_IGNORED 0
    else
      let r : ResetItem := { kind := k, item := n, phase := .requested, at_ := m.time.now, tick := m.ctl.tickCount }
      let m' := setCtl m (fun c => { c with resets := c.resets ++ [r] })
      if m.ctl.st = .standby then partialEffect m' k n else m')

def execTillerPartialReset (key : BitVec 8) (t : BitVec 4) (s : State) : Host.Outcome State Fault Refusal :=
  s.run (partialRequest .tiller key t.toNat)

def execIntakePortPartialReset (key : BitVec 8) (t : BitVec 4) (s : State) : Host.Outcome State Fault Refusal :=
  s.run (partialRequest .intake key t.toNat)

def execSheafPortPartialReset (key : BitVec 8) (t : BitVec 4) (s : State) : Host.Outcome State Fault Refusal :=
  s.run (partialRequest .sheaf key t.toNat)

def execAwnPortPartialReset (key : BitVec 8) (t : BitVec 4) (s : State) : Host.Outcome State Fault Refusal :=
  s.run (partialRequest .awn key t.toNat)

/-- The phase of an item. -/
def phaseIs (m : Mach) (k : ItemKind) (n : Nat) (p : ResetPhase) : Bool :=
  m.ctl.resets.any (fun r => r.kind == k && r.item == n && r.phase == p)

/-- PARTIAL_RESET_TAKES_EFFECT (R27, R81): at a tick boundary, or 1 ms after the request; after losses that are due. -/
def partialTakes (k : ItemKind) (n : Nat) (m : Mach) : Mach :=
  let m := applyLosses m
  if m.ctl.resets.any (fun r => r.kind == k && r.item == n && partialDue m r) then resched (partialEffect m k n) else m

def execPartialResetTakesEffect (kind : ItemKind) (n : Fin 16) (s : State) : Host.Outcome State Fault Refusal :=
  s.run (partialTakes kind n)

/-- No tick boundary can follow now (R81). -/
def noTick (m : Mach) : Bool := !ticking m || (!freeRun m && (encOf m (master m)).still)

/-- Lines of an intake port that have fallen up to now while it was in reset (R81), those of later swaths that LINE_OFS puts so early
among them (R180). -/
def pushFallen (fuel : Nat) (m : Mach) (p : Nat) : Mach :=
  match fuel with
  | 0 => m
  | fuel + 1 =>
    let l := (ipOf m p).lineCount.toNat
    match lineTime m p l with
    | none => m
    | some t =>
      if t ≤ fine m.time.now ∧ (0 ≤ linePos m p l ∨ l < (swathNow m + 1) * swathLen m p) then
        pushFallen fuel (pushLine m p (timeOfFine t) false (if linePos m p l < 0 then .outside else .missing)) p
      else m

/-- Lines that LINE_OFS can bring forward: 32,768 base lines at 4 lines each (R10, R180). -/
def fallenAhead : Nat := 131072

/-- The item returns to service (R81, R322). -/
def itemReturns (m : Mach) (k : ItemKind) (n : Nat) : Mach :=
  let m := dropItem m k n
  match k with
  | .tiller => if (tilOf m n).st = .reset then returnTiller (setTil m n (fun x => { x with st := .idle })) else m
  | .intake =>
    let m := if acquiring m && portActive m n then pushFallen (swathLen m n + fallenAhead) m n else m
    let r := settleAll n true (ipOf m n).fill m
    setIp r.1 n (fun i => { i with inReset := false, fill := r.2 })
  | .sheaf => m
  | .awn => setAwn m n (fun a => { a with inReset := false })

/-- The port's link is up again, or need not be (R81: completion includes link training). -/
def linkBack (m : Mach) (p : Nat) : Bool :=
  !assigned m p || (match (portOf m p).phy with
    | .l0 => true
    | .hold => true
    | .quiet => true
    | .deep => true
    | .off => true
    | .test => true
    | .detect => false
    | .clock => false
    | .frame => false
    | .eq => false
    | .measure => false
    | .wake => false)

/-- The self-test of a Tiller begins (R356). -/
def startTest (m : Mach) (t : Nat) : Mach :=
  setCtl (setPhase m .tiller t .selfTest) (fun c => { c with
    resets := c.resets.map (fun r => if r.kind == .tiller && r.item == t then { r with at_ := m.time.now } else r) })

/-- A Tiller's self-test has lasted its 2 ms (R356). -/
def testOver (m : Mach) (t : Nat) : Bool :=
  m.ctl.resets.any (fun r => r.kind == .tiller && r.item == t && r.phase == .selfTest && !lessSince m.time.now r.at_ 2000000)

/-- PARTIAL_RESET_COMPLETE (R64, R81, R356). Of a Sheaf port that is dark, its logic is out of reset and training starts; once the link is up
it is complete. -/
def partialComplete (k : ItemKind) (n : Nat) (m : Mach) : Mach :=
  if !phaseIs m k n .inReset then m
  else match k with
    | .tiller =>
      if (tilOf m n).quar then startTest m n
      else if noTick m then itemReturns m k n else setPhase m k n .awaitTick
    | .intake => if !linkBack m n then m else if noTick m then itemReturns m k n else setPhase m k n .awaitTick
    | .sheaf =>
      let m := if (portOf m n).dark then lightSheaf m n else m
      if !linkBack m n then m else if noTick m then itemReturns m k n else setPhase m k n .awaitTick
    | .awn => if noTick m then itemReturns m k n else setPhase m k n .awaitTick

def execPartialResetComplete (kind : ItemKind) (n : Fin 16) (s : State) : Host.Outcome State Fault Refusal :=
  s.run (partialComplete kind n)

/-- ITEM_RETURNS_TO_SERVICE (R81): at the first tick boundary after completion. -/
def itemReturnsCmd (k : ItemKind) (n : Nat) (m : Mach) : Mach :=
  if m.ctl.resets.any (fun r => r.kind == k && r.item == n && r.phase == .awaitTick && boundarySince m r.tick) then itemReturns m k n else m

def execItemReturnsToService (kind : ItemKind) (n : Fin 16) (s : State) : Host.Outcome State Fault Refusal :=
  s.run (itemReturnsCmd kind n)

/-- SELFTEST_COMPLETE (R356, R367, R442). `pass`: what the test found, but for an injection that stays armed. -/
def selftestComplete (t : Nat) (pass : Bool) (m : Mach) : Mach :=
  if !testOver m t then m
  else
    let x := tilOf m t
    let auto := m.ctl.resets.any (fun r => r.kind == .tiller && r.item == t && r.auto) && x.autoSpent
    if pass && !x.inject.persistent then
      if tooHot m t then m
      else
        let m := setTil (dropItem m .tiller t) t (fun x => { x with
          st := .idle, quar := false, thermQuar := false, autoSpent := false
          returns := if auto then m.time.now :: recentReturns m t else x.returns })
        let m := audit (raiseAs m F.GEN_CHECK_EVENT_RETURNED 0 t 0) 0x0008 0 (leBytes 1 t ++ leBytes 1 0)
        resched (returnTiller m)
    else
      let m := setTil (dropItem m .tiller t) t (fun x => { x with st := .quarantined, quar := true })
      let m := raiseAs m F.GEN_CHECK_EVENT_SELFTEST_FAIL 0 t 0
      if (List.range 8).all (tilLost m) then stopModule m 4 else m

def execSelftestComplete (t : Fin 8) (pass : Bool) (s : State) : Host.Outcome State Fault Refusal := s.run (selftestComplete t pass)

/-- PLACEMENT_TAKES_EFFECT (R23, R27, R322): once the moved bins are loaded, at the tick boundary that follows, where ticks are generated;
after losses that are due. -/
def placementTakes (m : Mach) : Mach :=
  let m := applyLosses m
  match m.fab.pend with
  | none => m
  | some p =>
    if !p.loaded || (ticking m && m.ctl.tickCount == p.tick) then m
    else
      let m := if p.ret then moveWork m p.maps p.gone else m
      let m := forEach p.maps m (fun m x =>
        let old := (ctxOf m x.1).map
        let m := setMap m x.1 x.2
        if old = x.2 then m
        else if x.2.isEmpty then raiseCtx m F.GEN_PLACE_EVENT_UNPLACED 0 x.1
        else raiseCtx m F.GEN_PLACE_EVENT_REPLACED 0 x.1)
      let m := forEach (p.maps.filter (fun x => !x.2.isEmpty)) (setFab m (fun b => { b with pend := none })) (fun m x => grantAll m x.1 true)
      let m := holdRelease (placementDone m)
      resched (if pipelineOn m then decideState m else m)

def execPlacementTakesEffect (s : State) : Host.Outcome State Fault Refusal := s.run placementTakes

/-- The scrubs of RETURN or RETIRE have ended: the wipe (R423), the move (R425, R430). -/
def finishReturn (m : Mach) : Mach :=
  if !m.glume.scrubs.isEmpty then m
  else retireMove (if m.glume.returnDue then wipeReturn m else m)

/-- SCRUB_COMPLETE (R418 to R420): scrubs run one after another in ascending context number. -/
def scrubComplete (c : Nat) (bad : List Nat) (m : Mach) : Mach :=
  if m.glume.scrubs.head? ≠ some c ∨ scrubOwes m c then m
  else
    let m := endScrub m c bad
    if !m.glume.scrubs.isEmpty then m
    else
      let m := if m.ctl.warmDue then restartStem m else m
      finishReturn m

def execScrubComplete (ctx : Fin 16) (badPages : List Nat) (s : State) : Host.Outcome State Fault Refusal :=
  s.run (scrubComplete ctx badPages)

/-- The module loses its power (R50, R442): POWERING, with what is not volatile. Which Tillers were quarantined is known to the self-test
that follows (R356). -/
def powerDown (m : Mach) : Mach :=
  let quar := quarantined m
  let m := emit (wiped m true []) .linkDown
  let m := setCtl m (fun c => { ({} : Ctl) with perstHigh := c.perstHigh, tripped := c.tripped })
  forEach quar m (fun m t => setTil m t (fun x => { x with quar := true }))

/-- SUPPLY_EXCURSION_START (R49). -/
def excursionStart (m : Mach) : Mach := if m.ctl.powerGood then setCtl m (fun c => { c with supplyOut := true }) else m

def execSupplyExcursionStart (s : State) : Host.Outcome State Fault Refusal := s.run excursionStart

/-- SUPPLY_DIP (R49): back within 100 µs. -/
def supplyDip (m : Mach) : Mach :=
  if m.ctl.supplyOut then
    raiseCount (setCtl m (fun c => { c with supplyOut := false })) F.GEN_EVENT_SUPPLY_DIP F.GEN_CNT_SUPPLY_DIP 0
  else m

def execSupplyDip (s : State) : Host.Outcome State Fault Refusal := s.run supplyDip

/-- SUPPLY_FAULT (R23, R49). -/
def supplyFault (m : Mach) : Mach :=
  if m.ctl.supplyOut then stopModule (setCtl m (fun c => { c with supplyOut := false })) 2 else m

def execSupplyFault (s : State) : Host.Outcome State Fault Refusal := s.run supplyFault

/-- POWER_GOOD_LOST (R50, R396): the flash closes. What else still acts before HOLDUP_EXPIRY, but for frames and outputs (R52, R61), is the
model's choice (assumption 104). Of a module that a thermal trip holds off, the supply is now removed (R442). -/
def powerGoodLost (m : Mach) : Mach :=
  if m.ctl.powerGood then setCtl (flashClose m) (fun c => { c with powerGood := false, supplyOut := false })
  else if m.ctl.st = .powering then setCtl m (fun c => { c with tripped := false })
  else m

def execPowerGoodLost (s : State) : Host.Outcome State Fault Refusal := s.run powerGoodLost

/-- HOLDUP_EXPIRY (R50, R396): 2 ms later the module powers down. Audit entries made since the loss have been programmed too. -/
def holdupExpiry (m : Mach) : Mach := if alive m && !m.ctl.powerGood then powerDown (flashClose m) else m

def execHoldupExpiry (s : State) : Host.Outcome State Fault Refusal := s.run holdupExpiry

/-- THERMAL_TRIP (R442): regulators off, the flash closing as at a loss of power-good; off until the supply is removed. -/
def thermalTrip (m : Mach) : Mach :=
  if alive m then setCtl (powerDown (flashClose m)) (fun c => { c with tripped := true }) else m

def execThermalTrip (s : State) : Host.Outcome State Fault Refusal := s.run thermalTrip

end Sys2Proof.Machine
end

