-- ==== Sys2Proof/Machine/Power.lean ====
section
/-!
DEFINITION. Machine/Power.lean: power states and requests (R431 to R433), the cap and its sharing (R434 to R438), droop and clock
changes (R439, R440), margin trims (R441), thermal limits (R442), throttling reasons (R443).
-/

namespace Sys2Proof.Machine

/-- A request whose state or lifecycle forbids it (R430, R433): `code` is RESULT. -/
def refusePower (code : Nat) (m : Mach) : Mach :=
  deny (raise (wr m F.PWR_CTRL_RESULT 0 code) F.PWR_EVENT_REFUSED 0)

/-- An entry or an exit is in progress (R433). -/
def powerBusy (m : Mach) : Bool := m.ctl.powerReq.isSome || m.ctl.waking

/-- A working state from which STANDBY may be entered (R433). -/
def workState (m : Mach) : Bool := m.ctl.st == .configured || ticking m

/-- A port whose partner is to be asked before it enters DEEP (R162). -/
def linkedPort (m : Mach) (p : Nat) : Bool := (portOf m p).phy == .l0 || (portOf m p).phy == .quiet

/-- A port asks its partner for DEEP at entry to DORMANT (R139, R162); a port that a scrub holds asks after it (R163). -/
def askDeep (m : Mach) (p : Nat) : Mach :=
  let s := portOf m p
  if s.scrubIdle then m
  else match s.phy with
    | .l0 => if s.lpOut == some .deep || s.lpAcked.isSome then m else lpRequest m p .deep
    | .quiet => lpExit (setPort m p (fun s => { s with lpWait := some .deep })) p
    | _ => m

/-- The handshake is done where there is a partner: every port that the image assigns, or that is in TEST or trains for it, is in DEEP
(R139, R431, R433). A port that is not assigned stays OFF (R131). -/
def portDeep (m : Mach) (p : Nat) : Mach :=
  if (portOf m p).phy = .deep ∨ ((portOf m p).phy = .off ∧ !assigned m p) then m
  else
    let m := setPort m p (fun s => { s with
      phy := .deep, backoff := false, dark := false, lpWait := none, lpOut := none, lpPeer := none, lpAcked := none })
    raise (wr m F.SHF_PHY_STATUS_CK_LOCK p 0) F.SHF_PHY_EVENT_DEEP p

/-- Start the scrubs of a dormant request in STANDBY (R418, R433): every confidential context that is not being scrubbed. -/
def beginDormant (scrub : Bool) (m : Mach) : Mach :=
  let conf := (m.fab.ctxs.filter (fun c => c.2.conf && (c.2.st == .admitted || c.2.st == .loaded))).map (fun c => c.1)
  if confPresent m && !scrub then refusePower 3 (setCtl m (fun c => { c with powerReq := none }))
  else
    let m := setCtl (wr m F.PWR_CTRL_RESULT 0 0) (fun c => { c with powerReq := some (.dormant scrub) })
    forEach (List.range 16) (forEach conf (setGlume m (fun g => { g with dormScrub := scrub })) startScrub) askDeep

/-- A request while no other is carried out (R433): a standby request made while alignment runs is held until alignment ends. -/
def tryPower (r : PowerReq) (m : Mach) : Mach :=
  match r with
  | .wake =>
    if m.ctl.st = .standby ∨ m.ctl.st = .dormant then setCtl (wr m F.PWR_CTRL_RESULT 0 0) (fun c => { c with waking := true })
    else refusePower 2 m
  | .standby =>
    if m.fuses.life ≠ .owned || !workState m then refusePower 2 m
    else setCtl (wr m F.PWR_CTRL_RESULT 0 (b2n m.ctl.align)) (fun c => { c with powerReq := some .standby, reqTick := c.tickCount })
  | .dormant scrub =>
    if m.fuses.life ≠ .owned || !(workState m || m.ctl.st = .standby) then refusePower 2 m
    else if confPresent m && !scrub then refusePower 3 m
    else if m.ctl.st = .standby then beginDormant scrub m
    else setCtl (wr m F.PWR_CTRL_RESULT 0 (b2n m.ctl.align)) (fun c => { c with powerReq := some (.dormant scrub), reqTick := c.tickCount })

/-- A request (R433): held while another is carried out. -/
def powerRequest (r : PowerReq) (m : Mach) : Mach :=
  if !alive m then m
  else if powerBusy m then setCtl (wr m F.PWR_CTRL_RESULT 0 1) (fun c => { c with heldReqs := c.heldReqs ++ [r] })
  else tryPower r m

/-- The requests held are taken up, oldest first (R433). -/
def takeHeld (m : Mach) : Mach := forEach m.ctl.heldReqs (setCtl m (fun c => { c with heldReqs := [] })) (fun m r => powerRequest r m)

def execStandbyRequest (s : State) : Host.Outcome State Fault Refusal := s.run (fun m => bar0 m (powerRequest .standby))

def execDormantRequest (scrub : Bool) (s : State) : Host.Outcome State Fault Refusal := s.run (fun m => bar0 m (powerRequest (.dormant scrub)))

def execWakeRequest (s : State) : Host.Outcome State Fault Refusal := s.run (fun m => bar0 m (powerRequest .wake))

/-- DI_SAMPLE (R55, R56, R433): the inputs, once every 1 ms; an OFF-to-ON change of WAKE_DI in STANDBY or DORMANT is a wake request. -/
def diSample (samples : List DiSample) (overload : Bool) (m : Mach) : Mach :=
  if !m.ctl.earlyApplied || m.eject.diAt.any (fun t => lessSince m.time.now t 1000000) then m
  else
    let n := m.cfg.power.wakeDi
    let was := bitOf (rd m F.FIO_DI_STATE 0) n
    let m' := sampleInputs samples overload m
    if decide (n < 24) && !was && bitOf (rd m' F.FIO_DI_STATE 0) n && (m.ctl.st == .standby || m.ctl.st == .dormant) then powerRequest .wake m'
    else m'

def execDiSample (samples : List DiSample) (overload : Bool) (s : State) : Host.Outcome State Fault Refusal :=
  s.run (diSample samples overload)

/-- The request being carried out enters STANDBY first (R433). -/
def wantsStandby (m : Mach) : Bool :=
  match m.ctl.powerReq with
  | some .standby => true
  | some (.dormant _) => true
  | some .wake => false
  | none => false

/-- What comes before a power request at a tick boundary (R27): losses of time or of the master, then quarantines and port removals. -/
def boundaryFirst (m : Mach) : Mach :=
  let m := applyLosses m
  placementTakes (forEach (m.ctl.resets.filter (partialDue m)) m (fun m r => partialTakes r.kind r.item m))

/-- STANDBY_DRAIN_START (R26, R27, R433): at the tick boundary after the request, after what else that boundary brings. -/
def drainStart (m : Mach) : Mach :=
  let m := if ticking m && wantsStandby m && boundarySince m m.ctl.reqTick then boundaryFirst m else m
  if ticking m && wantsStandby m && boundarySince m m.ctl.reqTick && !m.ctl.drain && !m.ctl.align then setCtl m (fun c => { c with drain := true, drainLeft := 3 }) else m

def execStandbyDrainStart (s : State) : Host.Outcome State Fault Refusal := s.run drainStart

/-- Best-effort commands in flight are killed, and held for the wake (R261, R433). -/
def holdBe (m : Mach) : Mach :=
  let mine := m.fab.inflight.filter (fun c => !c.lc && !c.committed && (c.phase == .running || c.phase == .held))
  forEach mine m (fun m c =>
    setCmd (noteKill (stopRun m c) c) c.queue c.seq (fun x => { x with killed := true, kills := x.kills + 1 }))

/-- DRAIN_COMPLETE (R26, R27, R433). -/
def drainComplete (m : Mach) : Mach :=
  let m := if ticking m then boundaryFirst m else m
  if m.ctl.drain && m.ctl.drainLeft == 0 then resched (holdBe m) else m

def execDrainComplete (s : State) : Host.Outcome State Fault Refusal := s.run drainComplete

/-- The trim of a die: compute 0, compute 1, intake, IO. -/
def trimFld (die : Nat) : Fld :=
  match die with
  | 0 => F.PWR_VTRIM_COMPUTE0
  | 1 => F.PWR_VTRIM_COMPUTE1
  | 2 => F.PWR_VTRIM_INTAKE
  | _ => F.PWR_VTRIM_IO

/-- Compute die of a Tiller (R2): T0 to T3 on die 0, T4 to T7 on die 1. -/
def dieOf (t : Nat) : Nat := t / 4

/-- Trims of a die wait for the frequency changes of its Tillers (R440). -/
def trimWaits (m : Mach) (die : Nat) : Bool := (List.range 8).any (fun t => dieOf t == die && (tilOf m t).relock.isSome)

/-- A die's trim moves to a step, at this time. -/
def setTrim (m : Mach) (die : Nat) (v : Int) : Mach :=
  setPower (wr m (trimFld die) 0 (twos 8 v)) (fun p => { p with trimAt := tset none p.trimAt die (some m.time.now) })

/-- The steps that a die's trim holds back are made once no frequency change of its Tillers is pending (R440), within the window of R441. -/
def freeTrim (m : Mach) (die : Nat) : Mach :=
  let h := tget 0 m.power.trimHeld die
  if h = 0 ∨ trimWaits m die then m
  else setPower (setTrim m die (max (-12) (min 8 (sext 8 (rd m (trimFld die) 0) + h)))) (fun p => { p with trimHeld := tset 0 p.trimHeld die 0 })

/-- A frequency change has ended, or is given up: trims that waited for it (R440), and the droop that ended with the clock (R443). -/
def clockSettled (m : Mach) : Mach := accrueDroop (forEach (List.range 4) m freeTrim)

/-- Tillers and Granaries go off (R431): they read GATED. -/
def tillersOff (m : Mach) : Mach :=
  clockSettled (forEach (List.range 8) m (fun m t => setTil m t (fun x => { x with
    st := if x.st = .idle ∨ x.st = .busy then .gated else x.st
    stretched := false, relock := none, locked := false, grid := none, flail := none, chute := none })))

/-- STANDBY_ENTRY_COMPLETE (R23, R26, R27, R102, R139, R431, R433). -/
def standbyEntry (m : Mach) : Mach :=
  let m := if ticking m then boundaryFirst m else m
  let ready := m.ctl.st = .configured || (ticking m && m.ctl.drain && m.ctl.drainLeft == 0)
  if !ready || !wantsStandby m || m.ctl.align then m
  else
    let m0 := m
    let m := if pipelineOn m then dropAllFires m else m
    let m := setEnc (clearPipeline (holdBe m)) (master m) (fun e => { e with held := none })
    let m := setCtl (enter (tillersOff m) .standby) (fun c => { c with drain := false, drainLeft := 0, realignDue := false })
    let m := forEach ((List.range 16).filter (fun p => cameraPort m p && (portOf m p).phy != .quiet && (portOf m p).phy != .deep)) m
      (fun m p => lpRequest m p .quiet)
    let m := notePower m0 (wr m F.PWR_CTRL_RESULT 0 0)
    match m.ctl.powerReq with
    | some (.dormant scrub) => let m := beginDormant scrub m; if m.ctl.powerReq.isNone then takeHeld m else m
    | _ => takeHeld (setCtl m (fun c => { c with powerReq := none }))

def execStandbyEntryComplete (s : State) : Host.Outcome State Fault Refusal := s.run standbyEntry

/-- Every SPDM session ends (R405, R409). -/
def endSessions (m : Mach) : Mach :=
  if m.glume.sessions.isEmpty then m
  else raise (setGlume m (fun g => { g with sessions := [] })) F.GLM_EVENT_SESSION_END 0

/-- The Ethernet ports go off (R102): both masters are lost in one moment, so that no domain is LOCKED to switch to; HOLD_S is suspended. -/
def ethernetOff (m : Mach) : Mach :=
  let was := (domOf m (active m)).st == .locked
  let m := setTime (coast (loseMaster (loseMaster m 0) 1)) (fun t => { t with dormantAt := some t.now })
  raiseIf was m F.TIM_EVENT_LOST 0

/-- DORMANT_ENTRY_COMPLETE (R23, R102, R139, R162, R207, R217, R396, R405, R431, R433): once the scrubs have ended and no port is in L0
or QUIET; until then the ports ask for DEEP. -/
def dormantEntry (m : Mach) : Mach :=
  match m.ctl.powerReq with
  | some (.dormant _) =>
    if m.ctl.st ≠ .standby || !m.glume.scrubs.isEmpty || confPresent m then m
    else if (List.range 16).any (linkedPort m) then forEach (List.range 16) m askDeep
    else
      let m0 := m
      let host := (m.fab.ctxs.filter (fun c => c.2.st == .admitted || c.2.st == .loaded)).map (fun c => c.1)
      let m := endSessions (forEach host m clearHostCtx)
      let m := flashClose m
      let m := forEach (m.fab.ctxs.map (fun c => c.1)) (clearQueues m) (fun m c => setMap (releaseCtx m c) c [])
      let m := forEach (List.range 8) m (fun m t => setTil m t (fun x => { x with
        granary := { ({} : Store) with map := x.granary.map }, pools := [], winTime := [], lastQueue := [] }))
      let m := setFab m (fun b => { b with hbm := {}, hbmPools := [], pend := none, prepared := [], home := [] })
      let m := setIsp (setChaff m (fun _ => {})) (fun i => { i with set0 := [], set1 := [], checking := false, dirty := false })
      let m := forEach (List.range 16) { m with enc := [] } portDeep
      let m := ethernetOff m
      let m := setGlume m (fun g => { g with dormScrub := false })
      let m := setCtl (enter m .dormant) (fun c => { c with powerReq := none, resets := [] })
      takeHeld (notePower m0 m)
  | _ => m

def execDormantEntryComplete (s : State) : Host.Outcome State Fault Refusal := s.run dormantEntry

/-- A port returns to L0 (R139): requests that wait are given up; a state that is acknowledged already is left as soon as it is entered. -/
def portUp (m : Mach) (p : Nat) : Mach :=
  let m := setPort m p (fun s => { s with lpOut := none, lpWait := if s.lpAcked.isSome then some .l0 else none })
  if (portOf m p).phy = .quiet ∨ (portOf m p).phy = .deep then lpExit m p else m

/-- Tillers come on at the nominal clock (R433). -/
def tillersOn (m : Mach) : Mach :=
  nominalClocks (forEach (List.range 8) m (fun m t =>
    setTil m t (fun x => { x with st := if x.st = .gated then .idle else x.st })))

/-- WAKE_COMPLETE (R23, R102, R139, R207, R217, R421, R433): held commands run again; out of DORMANT everything is loaded anew. -/
def wakeComplete (m : Mach) : Mach :=
  if !m.ctl.waking || !(m.ctl.st = .standby || m.ctl.st = .dormant) then m
  else
    let m0 := m
    let dorm := decide (m.ctl.st = .dormant)
    let m := forEach ((List.range 16).filter (fun p => assigned m p || testSet m p)) (tillersOn m) portUp
    let m := if dorm then programsPlaced (reloadDormant (resumeHold m)) else m
    let m := setCtl (enter m .configured) (fun c => { c with waking := false })
    let m := raise (notePower m0 (if dorm then flashOpen m else m)) F.PWR_EVENT_WAKE 0
    takeHeld (resched m)

def execWakeComplete (s : State) : Host.Outcome State Fault Refusal := s.run wakeComplete

/-- A Tiller holds an LC logical Tiller (R432). -/
def lcTiller (m : Mach) (t : Nat) : Bool :=
  m.fab.ctxs.any (fun c => (c.2.map.contains t || c.2.workMap.contains t) && (match c.2.program with
    | some p => p.tick
    | none => false))

/-- TILLER_GATE (R432): no LC logical Tiller, and for GATE_US nothing fetched, ready or in flight. -/
def tillerGate (t : Nat) (m : Mach) : Mach :=
  let rest := (tilOf m t).lastCmd.all (fun x => !lessSince m.time.now x (m.cfg.power.gateUs * 1000))
  if alive m && (tilOf m t).st = .idle && !lcTiller m t && allInflight m t == 0 && rest then
    notePower m (clockSettled (setTil m t (fun x => { x with st := .gated, stretched := false, relock := none, locked := false })))
  else m

def execTillerGate (t : Fin 8) (s : State) : Host.Outcome State Fault Refusal := s.run (tillerGate t)

/-- A Tiller's clock runs. -/
def clocked (m : Mach) (t : Nat) : Bool := (tilOf m t).st = .idle || (tilOf m t).st = .busy

/-- DROOP (R439): the clocks stretch within 2 cycles. A droop that goes on is the same response. -/
def droop (t : Nat) (m : Mach) : Mach :=
  if clocked m t && !(tilOf m t).stretched then accrueDroop (setTil (inc m F.PWR_DROOP_CNT_DROOPS 0) t (fun x => { x with stretched := true })) else m

def execDroop (t : Fin 8) (s : State) : Host.Outcome State Fault Refusal := s.run (droop t)

/-- The Tiller switches to the PLL that has locked (R440); after a fall the voltage falls last. -/
def switchClock (m : Mach) (t : Nat) : Mach :=
  match (tilOf m t).relock with
  | some f => clockSettled (setClock m t f)
  | none => m

/-- DROOP_RELEASE (R439, R440): a deferred switch applies. -/
def droopRelease (t : Nat) (m : Mach) : Mach :=
  if (tilOf m t).stretched then
    let m := accrueDroop (setTil m t (fun x => { x with stretched := false }))
    if (tilOf m t).locked then switchClock m t else m
  else m

def execDroopRelease (t : Fin 8) (s : State) : Host.Outcome State Fault Refusal := s.run (droopRelease t)

/-- PLL_RELOCK_COMPLETE (R440): the switch waits for a droop's release. -/
def relockDone (t : Nat) (m : Mach) : Mach :=
  if (tilOf m t).relock.isNone || (tilOf m t).locked then m
  else if (tilOf m t).stretched then inc (setTil m t (fun x => { x with locked := true })) F.PWR_DROOP_CNT_DEFERRED 0
  else switchClock m t

def execPllRelockComplete (t : Fin 8) (s : State) : Host.Outcome State Fault Refusal := s.run (relockDone t)

/-- A new target (R440): only the latest is applied. Before a rise the voltage rises first. -/
def setTarget (m : Mach) (t f : Nat) : Mach :=
  let x := tilOf m t
  let cur := rd m F.TIL_CLK_FREQ_MHZ t
  if x.relock = some f || (x.relock.isNone && cur = f) then m
  else setTil m t (fun x => { x with relock := some f, locked := false, voltMhz := max cur f })

/-- A trim step: made at once, or held while a frequency change of the die's Tillers is pending (R440). -/
def trimStep (m : Mach) (die : Nat) (d : Int) : Mach :=
  if trimWaits m die then setPower m (fun p => { p with
    trimHeld := tset 0 p.trimHeld die (tget 0 p.trimHeld die + d)
    trimAt := tset none p.trimAt die (some m.time.now) })
  else setTrim m die (sext 8 (rd m (trimFld die) 0) + d)

/-- A die's trim with the steps that wait. -/
def trimNext (m : Mach) (die : Nat) : Int := sext 8 (rd m (trimFld die) 0) + tget 0 m.power.trimHeld die

/-- TRIM_RAISE (R441): one step of 5 mV up within 1 µs of short slack, to +40 mV; at the top, MARGIN_EXHAUSTED. -/
def trimRaise (die : Nat) (m : Mach) : Mach :=
  if !alive m then m
  else if trimNext m die ≥ 8 then raise m F.PWR_EVENT_MARGIN_EXHAUSTED 0
  else trimStep m die 1

def execTrimRaise (die : Fin 4) (s : State) : Host.Outcome State Fault Refusal := s.run (trimRaise die)

/-- TRIM_LOWER (R441): one step down after 10 s of ample slack, to -60 mV: not within 10 s of a step before. -/
def trimLower (die : Nat) (m : Mach) : Mach :=
  let soon := (tget none m.power.trimAt die).any (fun t => lessSince m.time.now t (10 * giga))
  if !alive m || trimNext m die ≤ -12 || soon then m else trimStep m die (-1)

def execTrimLower (die : Fin 4) (s : State) : Host.Outcome State Fault Refusal := s.run (trimLower die)

/-- TRIM_SAVE (R441): hourly, into the system region of the flash. -/
def trimSave (m : Mach) : Mach :=
  let soon := m.power.savedAt.any (fun t => lessSince m.time.now t (3600 * giga))
  if flashPowered m && !soon && rd m F.FLS_HEALTH_STATE 0 != 3 then
    setPower (noteSystem (setFlash m (fun f => { f with trims := trimsNow m }))) (fun p => { p with savedAt := some m.time.now })
  else m

def execTrimSave (s : State) : Host.Outcome State Fault Refusal := s.run trimSave

/-- THERMAL_WARN (R442): a compute die at 95 °C or above. -/
def thermalWarn (die temp : Nat) (m : Mach) : Mach :=
  if alive m && decide (die < 2) && decide (temp ≥ 95) then raise m F.PWR_EVENT_THERMAL_WARN 0 else m

def execThermalWarn (die : Fin 4) (temp : BitVec 8) (s : State) : Host.Outcome State Fault Refusal := s.run (thermalWarn die temp.toNat)

/-- THERMAL_LIMIT (R442): any of the four dies at 105 °C or above. -/
def thermalLimit (temp : Nat) (m : Mach) : Mach :=
  if alive m && decide (temp ≥ 105) then raise m F.PWR_EVENT_THERMAL_LIMIT 0 else m

def execThermalLimit (_die : Fin 4) (temp : BitVec 8) (s : State) : Host.Outcome State Fault Refusal := s.run (thermalLimit temp.toNat)

/-- THERMAL_QUAR (R442): a Tiller's own sensor at 110 °C: it is quarantined. -/
def thermalQuar (t : Nat) (m : Mach) : Mach :=
  if !(fabricOn m || m.ctl.st = .standby) || tilLost m t then m
  else
    let m1 := setTil (raise m F.PWR_EVENT_THERMAL_QUAR 0) t (fun x => { x with temp := max x.temp 110 })
    notePower m (resched (quarantine m1 t 4))

def execThermalQuar (t : Fin 8) (s : State) : Host.Outcome State Fault Refusal := s.run (thermalQuar t)

/-- HBM_THERMAL (R442): refresh doubled from 85 °C, BE traffic limited from 95 °C. -/
def hbmThermal (stack temp : Nat) (m : Mach) : Mach :=
  let put := fun (b : BitVec 2) (on : Bool) => if on then b ||| (1#2 <<< stack) else b &&& ~~~ (1#2 <<< stack)
  if alive m && m.ctl.st != .dormant then
    setPower m (fun p => { p with refresh2 := put p.refresh2 (decide (temp ≥ 85)), beLimit := put p.beLimit (decide (temp ≥ 95)) })
  else m

def execHbmThermal (stack : Fin 2) (temp : BitVec 8) (s : State) : Host.Outcome State Fault Refusal := s.run (hbmThermal stack temp.toNat)

/-- The highest coolant inlet temperature of the ordering code, degrees C (R2). -/
def coolantTop (m : Mach) : Nat := if m.nor.code = 2 then 55 else 45

/-- COOLANT_HIGH (R442): an inlet above the range of R2; no other action. -/
def coolantHigh (temp : Nat) (m : Mach) : Mach :=
  if alive m && decide (temp > coolantTop m) then raise m F.PWR_EVENT_COOLANT_HIGH 0 else m

def execCoolantHigh (temp : BitVec 8) (s : State) : Host.Outcome State Fault Refusal := s.run (coolantHigh temp.toNat)

/-- The LC floor (R436): the lowest 25 MHz step f with f × 63/64 at or above the guaranteed clock of every tick program on the Tiller;
0 without one. -/
def lcFloor (m : Mach) (t : Nat) : Nat :=
  let gs := m.fab.ctxs.filterMap (fun c => if c.2.map.contains t || c.2.workMap.contains t then
    (match c.2.program with
      | some p => if p.tick then some (fG16 m p) else none
      | none => none) else none)
  gs.foldl (fun a g => max a (25 * cdiv (4 * g) (63 * 25))) 0

/-- A class of the cap (R434): what it wants, and what of it cannot be taken away, in units of `capUnit`. -/
structure Class where
  demand : Int
  floor  : Int

/-- Power is computed exactly, in 1/(2000 f_nom²) W: with a in 1/1000 a Tiller takes 22.5 W × a × (f/f_nom)² = 45 a f² units. -/
def capUnit (m : Mach) : Nat := 2000 * nominalMhz m * nominalMhz m

def tillerCost (a f : Nat) : Int := ((45 * a * f * f : Nat) : Int)

/-- The classes in ORDER, highest priority first: 0 links, 1 memory, 2 compute (PWR_CFG.ORDER). -/
def classOrder (o : Nat) : List Nat :=
  match o with
  | 0 => [0, 1, 2]
  | 1 => [0, 2, 1]
  | 2 => [1, 0, 2]
  | 3 => [1, 2, 0]
  | 4 => [2, 0, 1]
  | _ => [2, 1, 0]

/-- Give each class its demand while budget remains (R434). -/
def giveDown : Int → List Class → List Int
  | _, [] => []
  | r, c :: cs => let g := max 0 (min c.demand r); g :: giveDown (r - g) cs

/-- What a class cannot absorb is taken from the next class up (R434), lowest first: the lists are in reverse order. The deficit that no
class absorbs is the second part. -/
def takeUp : Int → List (Class × Int) → List Int × Int
  | d, [] => ([], d)
  | d, x :: xs =>
    let want := x.2 - d
    let g := max x.1.floor want
    let r := takeUp (g - want) xs
    (g :: r.1, r.2)

/-- Shares of the classes in priority order, and the deficit left (R434, R436). -/
def shares (budget : Int) (cs : List Class) : List Int × Int :=
  let g := giveDown budget cs
  let r := takeUp 0 ((cs.zip g).reverse)
  (r.1.reverse, r.2)

/-- Ceilings of a Tiller outside the cap (R437, R442): the host's and the die's, rounded down to a 25 MHz step, at least 400 MHz; an LC
Tiller keeps its floor, but for a die at 105 °C. -/
def hostCeil (m : Mach) (t : Nat) : Nat :=
  let c := rd m F.PWR_HOST_LIMIT_CEIL_MHZ 0
  let n := nominalMhz m
  if c = 0 then n else max (max 400 (lcFloor m t)) (min n (c / 25 * 25))

def thermCeil (m : Mach) (hot : Nat → Nat) (t : Nat) : Nat :=
  let c := (tilOf m t).thermCeil
  if c = 0 then nominalMhz m else if hot (dieOf t) ≥ 105 then c else max c (lcFloor m t)

def ceilOf (m : Mach) (hot : Nat → Nat) (t : Nat) : Nat := min (hostCeil m t) (thermCeil m hot t)

/-- Lowest clock that the cap may set: 400 MHz, for an LC Tiller its floor, in each case not above the ceiling. -/
def floorOf (m : Mach) (hot : Nat → Nat) (t : Nat) : Nat := min (ceilOf m hot t) (max 400 (lcFloor m t))

/-- Cost of Tillers at one common clock under their ceilings and over their floors. -/
def costAt (m : Mach) (hot act : Nat → Nat) (ts : List Nat) (f : Nat) : Int :=
  (ts.map (fun t => tillerCost (act t) (max (floorOf m hot t) (min (ceilOf m hot t) f)))).foldl (· + ·) 0

/-- The highest 25 MHz step from the nominal clock down at which the Tillers fit (R435); 400 MHz where none fits. -/
def commonClock (m : Mach) (hot act : Nat → Nat) (ts : List Nat) (budget : Int) : Nat :=
  let n := nominalMhz m / 25
  ((List.range (n - 15)).map (fun k => (n - k) * 25)).find? (fun f => decide (costAt m hot act ts f ≤ budget)) |>.getD 400

/-- A die's sensors (R442): its own and its Tillers'. -/
def hottest (v : PowerMeas) (d : Nat) : Nat := ((List.range 4).map (fun k => v.tillerTemps.getD (4 * d + k) 0)).foldl max (v.temps.getD d 0)

/-- The die's ceiling after this period (R442): 25 MHz down at 95 °C and above, 25 MHz up below 93 °C. -/
def stepCeil (n c temp : Nat) : Nat :=
  let cur := if c = 0 then n else c
  if temp ≥ 95 then max 400 (cur - 25)
  else if c = 0 then 0
  else if temp < 93 then (if cur + 25 ≥ n then 0 else cur + 25)
  else c

/-- The measured temperatures (PWR_TEMP, PWR_TEMP2). -/
def noteTemps (v : PowerMeas) (m : Mach) : Mach :=
  let b := fun (k : Nat) => min 255 (v.temps.getD k 0)
  let m := wrs m 0 [(F.PWR_TEMP_COMPUTE0, min 255 (hottest v 0)), (F.PWR_TEMP_COMPUTE1, min 255 (hottest v 1)), (F.PWR_TEMP_INTAKE, b 2)
    , (F.PWR_TEMP_IO, b 3), (F.PWR_TEMP2_HBM0, b 4), (F.PWR_TEMP2_HBM1, b 5), (F.PWR_TEMP2_COOLANT_IN, b 6)]
  let m := coolantHigh (v.temps.getD 6 0) m
  forEach (List.range 8) m (fun m t => setTil m t (fun x => { x with
    temp := v.tillerTemps.getD t 0, thermCeil := stepCeil (nominalMhz m) x.thermCeil (hottest v (dieOf t)) }))

/-- The estimate E at the present clocks, in units (R438). -/
def estimate (m : Mach) (v : PowerMeas) (act : Nat → Nat) : Int :=
  ((capUnit m * (175 + v.linksW + v.memoryW) : Nat) : Int)
    + ((List.range 8).map (fun t => tillerCost (act t) (rd m F.TIL_CLK_FREQ_MHZ t))).foldl (· + ·) 0

/-- Estimate against measurement (R438): mismatch after 1,000 periods beyond 0.15, ended after 10,000 periods within 0.10. -/
def mismatchStep (m : Mach) (e8 m8 : Int) : Mach :=
  let top := max e8 m8
  let diff := max (e8 - m8) (m8 - e8)
  let out := decide (diff * 20 > top * 3)
  let inn := decide (diff * 10 ≤ top)
  let p := m.power
  let mis := if out then min 1000 (p.mismPeriods + 1) else 0
  let agr := if inn && p.mismatch then p.agreePeriods + 1 else 0
  let now := if p.mismatch then decide (agr < 10000) else decide (mis ≥ 1000)
  let m := setPower m (fun p => { p with mismPeriods := mis, agreePeriods := if now then agr else 0, mismatch := now })
  if now && !p.mismatch then raise m F.PWR_EVENT_MISMATCH 0 else m

/-- POWER_CONTROL_PERIOD (R434 to R438, R442, R443): every 100 µs. -/
def controlPeriod (v : PowerMeas) (m : Mach) : Mach :=
  if !alive m || m.power.periodAt.any (fun t => lessSince m.time.now t 100000) then m
  else
    let m := setPower m (fun p => { p with periodAt := some m.time.now })
    let u := capUnit m
    let act := fun (t : Nat) => if clocked m t then min 1000 (v.activity.getD t 0) else 0
    let hot := hottest v
    -- what held during the period that ends
    let m := forEach ([0, 1, 3, 4, 5].filter (fun r => bitOf (rd m F.PWR_THROTTLE_ACTIVE 0) r)) m (fun m r => accrue m r 100000)
    let m := accrueDroop (noteTemps v m)
    let e := estimate m v act
    let meas : Int := ((v.inputEighthW * u / 8 : Nat) : Int)
    let m := wr (wr m F.PWR_INPUT_MEAS 0 (sat 16 v.inputEighthW)) F.PWR_INPUT_EST 0 (sat 16 (e * 8 / u).toNat)
    let m := mismatchStep m (e * 8) ((v.inputEighthW * u : Nat) : Int)
    -- the budget that remains (R434): the cap acts on M, or on max(E, M) in a mismatch; E predicts what a change brings
    let acting := if m.power.mismatch then max e meas else meas
    let budget := ((m.cfg.power.capW * u : Nat) : Int) - ((175 * u : Nat) : Int) - (acting - e)
    let ts := (List.range 8).filter (clocked m)
    let lc := ts.filter (lcTiller m)
    let be := ts.filter (fun t => !lcTiller m t)
    let top := nominalMhz m
    let cls := fun (k : Nat) => match k with
      | 0 => Class.mk ((v.linksW * u : Nat) : Int) ((min v.linksW v.linksFloorW * u : Nat) : Int)
      | 1 => Class.mk ((v.memoryW * u : Nat) : Int) ((min v.memoryW v.memoryFloorW * u : Nat) : Int)
      | _ => Class.mk (costAt m hot act ts top) (costAt m hot act ts 0)
    let order := classOrder m.cfg.power.order
    let sh := shares budget (order.map cls)
    let share := fun (k : Nat) => (((order.zip sh.1).find? (fun x => x.1 == k)).map (fun x => x.2)).getD 0
    let fb := commonClock m hot act be (share 2 - costAt m hot act lc top)
    let fl := commonClock m hot act lc (share 2 - costAt m hot act be fb)
    let clock := fun (t : Nat) => max (floorOf m hot t) (min (ceilOf m hot t) (if lcTiller m t then fl else fb))
    let m' := forEach ts m (fun m t => setTarget m t (clock t))
    let linkL := decide (share 0 < (cls 0).demand)
    let memL := decide (share 1 < (cls 1).demand)
    let cap := linkL || memL || ts.any (fun t => decide (clock t < ceilOf m hot t))
    let capFloor := decide (sh.2 > 0)
    let m' := setPower m' (fun p => { p with linkLimited := linkL, memLimited := memL })
    let m' := wrs m' 0 [(F.PWR_SHARE_COMPUTE, sat 9 (share 2 / u).toNat), (F.PWR_SHARE_MEMORY, sat 8 (share 1 / u).toNat)
      , (F.PWR_SHARE_LINKS, sat 8 (share 0 / u).toNat)]
    let m' := setReason m' 0 cap
    let m' := setReason m' 1 (m.power.beLimit != 0 || ts.any (fun t => decide (thermCeil m hot t < top)))
    let m' := setReason m' 3 (cap && m.power.mismatch)
    let m' := setReason m' 4 (ts.any (fun t => decide (hostCeil m t < top)))
    raiseIf capFloor (setReason m' 5 capFloor) F.PWR_EVENT_CAP_FLOOR 0

def execPowerControlPeriod (meas : PowerMeas) (s : State) : Host.Outcome State Fault Refusal := s.run (controlPeriod meas)

end Sys2Proof.Machine
end

