-- ==== Sys2Proof/Machine/Security.lean ====
section
/-!
DEFINITION. Machine/Security.lean: Glume's commands (R404 to R430): SPDM, staging and activation, authorisations, debug grants, the
crypto reset; RESTORE of a backup (R402).
-/

namespace Sys2Proof.Machine

/-- SPDM is answered from the moment the function is ready (R409); ResponseNotReady during a crypto
reset (R412) and while a staged image is activated (R411). Codes of messages and of
errors are the SPDM standard's (assumption 41). -/
def spdmWith (m : Mach) (f : Mach → Mach) : Mach :=
  if !alive m || !m.ctl.fnReady then m
  else if rd m F.GLM_UPD_STATUS_STATE 0 = 4 then emit m (.spdmError 0x42 20)
  else if m.glume.cryptoBusy then emit m (.spdmError 0x42 13)
  else f m

/-- GET_VERSION (R408): 1.2. -/
def execGetVersion (s : State) : Host.Outcome State Fault Refusal := s.run (fun m => spdmWith m (fun m => emit m (.spdm 0x04 (leBytes 2 0x1200))))

/-- GET_CAPABILITIES (R408): CTExponent, the capabilities by name, DataTransferSize and MaxSPDMmsgSize. Flags: CERT 1, CHAL 2, MEAS 3-4,
MEAS_FRESH 5, ENCRYPT 6, MAC 7, KEY_EX 9. -/
def execGetCapabilities (s : State) : Host.Outcome State Fault Refusal :=
  s.run (fun m => spdmWith m (fun m => emit m (.spdm 0x61 (leBytes 1 16
    ++ leBytes 4 (2 ^ 1 + 2 ^ 2 + 2 * 2 ^ 3 + 2 ^ 5 + 2 ^ 6 + 2 ^ 7 + 2 ^ 9) ++ leBytes 4 4096 ++ leBytes 4 4096))))

/-- NEGOTIATE_ALGORITHMS (R408): DMTF measurements, SHA-384 twice, ECDSA P-384, secp384r1, AES-256-GCM. -/
def execNegotiateAlgorithms (s : State) : Host.Outcome State Fault Refusal :=
  s.run (fun m => spdmWith m (fun m => emit m (.spdm 0x63 (leBytes 1 1 ++ leBytes 4 (2 ^ 2) ++ leBytes 4 (2 ^ 7) ++ leBytes 4 (2 ^ 1)
    ++ leBytes 2 (2 ^ 4) ++ leBytes 2 (2 ^ 1)))))

/-- Certificate slot 0, the only one: a chain of at most 4,096 bytes (R404). -/
def certChain : List Byte := Config.certChain.take 4096

def chainDigest : List Byte := digestBytes (sha384 certChain)

/-- A message's answer, signed with the device identity key over a text (R404, R407, R408); the signature's secret number is a free value. -/
def signed (m : Mach) (code : Nat) (body text : List Byte) : Mach :=
  let r := draw m
  emit r.1 (.spdm code (body ++ ecdsaSign m.fuses.devKey r.2 text))

/-- GET_DIGESTS (R404, R408): slot 0. -/
def execGetDigests (s : State) : Host.Outcome State Fault Refusal :=
  s.run (fun m => spdmWith m (fun m => emit m (.spdm 0x01 (leBytes 1 1 ++ chainDigest))))

/-- GET_CERTIFICATE (R404): a part of the chain, and what remains after it. The message with its 8 bytes before the part has at most 4,096 (R408). -/
def getCertificate (offset len : Nat) (m : Mach) : Mach :=
  let c := certChain
  let part := (c.drop offset).take (min len 4088)
  emit m (.spdm 0x02 (leBytes 2 part.length ++ leBytes 2 (c.length - (offset + part.length)) ++ part))

def execGetCertificate (offset len : Nat) (s : State) : Host.Outcome State Fault Refusal :=
  s.run (fun m => spdmWith m (getCertificate offset len))

/-- CHALLENGE (R408): signed with the device identity key over the requester's nonce and the answer. -/
def challenge (nonce : List Byte) (m : Mach) : Mach :=
  let r := draw m
  let body := chainDigest ++ leBytes 32 r.2
  signed r.1 0x03 body (nonce ++ body)

def execChallenge (nonce : List Byte) (s : State) : Host.Outcome State Fault Refusal := s.run (fun m => spdmWith m (challenge nonce))

/-- TIL_ARITH of T0 (register table). -/
def arithWord (m : Mach) : Nat := m.cfg.stem.libVer % 65536 * 2 ^ 8 + m.fuses.ar % 256

/-- Block 0x30 (R406): of the generation of the list. -/
def genBlock (m : Mach) : Nat × Nat × List Byte :=
  (0x30, 0x82, leBytes 4 (rd m F.GLM_MEAS_GEN_GEN 0) ++ leBytes 4 (arithWord m))

/-- One measurement block of an answer: index, type, length, value. -/
def measBytes (b : Nat × Nat × List Byte) : List Byte := leBytes 1 b.1 ++ leBytes 1 b.2.1 ++ leBytes 2 b.2.2.length ++ b.2.2

/-- GET_MEASUREMENTS (R407): all blocks (0xFF), their number (0), or one with block 0x30. An absent index is an error. -/
def getMeasurements (idx : Nat) (nonce : List Byte) (m : Mach) : Mach :=
  let all := m.glume.meas ++ [genBlock m]
  let one := m.glume.meas.filter (fun b => b.1 == idx)
  let say := fun (body : List Byte) => signed m 0x60 body (nonce ++ body)
  if idx = 0xFF then say (all.flatMap measBytes)
  else if idx = 0 then say (leBytes 1 all.length)
  else if idx = 0x30 then say (measBytes (genBlock m))
  else if one.isEmpty then emit m (.spdmError 0x01 0)
  else say ((one ++ [genBlock m]).flatMap measBytes)

def execGetMeasurements (idx : Nat) (nonce : List Byte) (s : State) : Host.Outcome State Fault Refusal :=
  s.run (fun m => spdmWith m (getMeasurements idx nonce))

/-- A session ID not in use: a free value, or the next after it (R409). -/
def freshId (m : Mach) (d : Nat) : Word :=
  let ids := (List.range 5).map (fun k => BitVec.ofNat 32 (d + k))
  (ids.find? (fun i => !m.glume.sessions.any (fun s => s.id == i))).getD 0

/-- KEY_EXCHANGE (R405, R409): a fifth session gets SessionLimitExceeded. Its keys and secret follow from the SPDM standard's exchange of both ends
and are free values (assumption 41). -/
def keyExchange (m : Mach) : Mach :=
  if m.glume.sessions.length ≥ 4 then emit m (.spdmError 0x0A 0)
  else
    let r := draw m
    let id := freshId m r.2
    let a := draw r.1
    let b := draw a.1
    let m := setGlume b.1 (fun g => { g with
      sessions := g.sessions ++ [{ id := id, secret := BitVec.ofNat 384 a.2, keys := BitVec.ofNat 704 b.2 }] })
    signed m 0x64 (leBytes 4 id.toNat) (leBytes 4 id.toNat)

def execKeyExchange (s : State) : Host.Outcome State Fault Refusal := s.run (fun m => spdmWith m keyExchange)

/-- FINISH (R408): the session is open. -/
def finishSession (id : Word) (m : Mach) : Mach :=
  if m.glume.sessions.any (fun s => s.id == id && !s.isOpen) then
    emit (setGlume m (fun g => { g with sessions := g.sessions.map (fun s => if s.id = id then { s with isOpen := true } else s) })) (.secured id 0x65 [])
  else emit m (.spdmError 0x01 0)

def execFinish (id : Word) (s : State) : Host.Outcome State Fault Refusal := s.run (fun m => spdmWith m (finishSession id))

/-- END_SESSION (R409). -/
def endSession (id : Word) (m : Mach) : Mach :=
  if m.glume.sessions.any (fun s => s.id == id && s.isOpen) then
    emit (raise (setGlume m (fun g => { g with sessions := g.sessions.filter (fun s => s.id != id) })) F.GLM_EVENT_SESSION_END 0) (.secured id 0x6C [])
  else emit m (.spdmError 0x01 0)

def execEndSession (id : Word) (s : State) : Host.Outcome State Fault Refusal := s.run (fun m => spdmWith m (endSession id))

/-- SPDM_UNSUPPORTED_REQUEST (R408). -/
def execSpdmUnsupportedRequest (_code : Nat) (s : State) : Host.Outcome State Fault Refusal :=
  s.run (fun m => spdmWith m (fun m => emit m (.spdmError 0x07 0)))

/-- A slot's CONFIRMED bit goes to 0 (R66). -/
def unconfirm (m : Mach) (s : Slot) : Mach :=
  let b := bcOf m.nor
  writeBc m b.active b.trial (ofBits ((List.range 2).map (fun k => bitOf b.confirmed k && k != slotNo s)))

/-- A DMA read of the module fails (HST_EVENT). -/
def dmaErr (m : Mach) : Mach := raiseCount m F.HST_EVENT_DMA_ERR F.HST_CNT_DMA_ERR 0

/-- STAGE (R66, R410): a write of GLM_UPD_CTRL; refused too while a staged image is activated (assumption 124). `image`: the LEN_4K × 4 KiB at
GLM_UPD_ADDR decoded; none: host memory fails. A refused STAGE stores nothing. -/
def stage (v : Word) (image : Option Image) (m : Mach) : Mach :=
  bar0 m (fun m =>
    let len := bits v.toNat 8 13
    if rd m F.GLM_UPD_STATUS_STATE 0 = 1 || rd m F.GLM_UPD_STATUS_STATE 0 = 4 || m.flash.restoring.isSome || m.ctl.st = .dormant
        || m.fuses.life = .returned || m.fuses.life = .retired || len = 0 || decide (len > 7936) then deny m
    else
      let s := inactiveSlot m
      let addr := BitVec.ofNat 64 (rd m F.GLM_UPD_ADDR_LO_ADDR 0 / 4096 * 4096 + rd m F.GLM_UPD_ADDR_HI_ADDR 0 * 2 ^ 32)
      let m := emit (setSlot (unconfirm (wr m F.GLM_UPD_CTRL_LEN_4K 0 len) s) s none) (.dmaRead addr (len * 4096))
      let m := if image.isNone then dmaErr m else m
      setGlume (wrs m 0 [(F.GLM_UPD_STATUS_STATE, 1), (F.GLM_UPD_STATUS_PROGRESS, 0), (F.GLM_UPD_STATUS_REJECT, 0)])
        (fun g => { g with staging := image }))

def execStage (v : Word) (image : Option Image) (s : State) : Host.Outcome State Fault Refusal := s.run (stage v image)

/-- The image that has been copied into the inactive slot is checked (R402, R410): checks 1 to 6 of R70. -/
def checkStaged (m : Mach) : Mach :=
  let c := stageCode m.fuses (slotImage m (inactiveSlot m))
  let m := wrs m 0 [(F.GLM_UPD_STATUS_PROGRESS, 100), (F.GLM_UPD_STATUS_REJECT, c), (F.GLM_UPD_STATUS_STATE, if c = 0 then 2 else 3)]
  raise m (if c = 0 then F.GLM_EVENT_STAGED else F.GLM_EVENT_STAGE_FAIL) 0

/-- STAGE_COMPLETE (R410). -/
def stageComplete (m : Mach) : Mach :=
  if rd m F.GLM_UPD_STATUS_STATE 0 ≠ 1 then m
  else
    let i := m.glume.staging
    checkStaged (setGlume (setSlot m (inactiveSlot m) i) (fun g => { g with staging := none }))

def execStageComplete (s : State) : Host.Outcome State Fault Refusal := s.run stageComplete

/-- ACTIVATE (R411 step 1): ACTIVATING from the accepted write on. -/
def activate (m : Mach) : Mach :=
  bar0 m (fun m =>
    let may := m.ctl.st = .fault || ((m.ctl.st = .configured || m.ctl.st = .standby) && hostResets m)
    if rd m F.GLM_UPD_STATUS_STATE 0 ≠ 2 || !may then deny m
    else wr (setGlume m (fun g => { g with activateAt := some m.time.now })) F.GLM_UPD_STATUS_STATE 0 4)

/-- Steps 2 and 3 of R411: the boot control block names the staged slot (R66), then the module reset. -/
def activateReset (m : Mach) : Mach :=
  let s := inactiveSlot m
  let b := bcOf m.nor
  moduleReset 1 (writeBc m (slotNo s) 3 (ofBits ((List.range 2).map (fun k => bitOf b.confirmed k && k != slotNo s))))

/-- An activation goes on by itself (R411): the table of commands has none for it, so it comes with the clock, 2 ms after the write
(DESIGN CHOICE, assumption 124). -/
def activateDue (m : Mach) : Mach :=
  if m.ctl.powerGood && rd m F.GLM_UPD_STATUS_STATE 0 == 4 && !m.glume.activateAt.any (fun t => lessSince m.time.now t 2000000) then activateReset m
  else m

def execActivate (s : State) : Host.Outcome State Fault Refusal := s.run activate

/-- ABORT (R410): the inactive slot is left erased. -/
def execAbort (s : State) : Host.Outcome State Fault Refusal := s.run (fun m => bar0 m stopStaging)

/-- RESTORE (R66, R402): a write of FLS_BACKUP_CTRL. A refused RESTORE stores nothing. -/
def restore (v : Word) (m : Mach) : Mach :=
  bar0 m (fun m =>
    let dorm := m.ctl.st == .dormant
    let g := bits v.toNat 0 3
    if !bitOf v.toNat 31 then (if dorm then m else wr m F.FLS_BACKUP_CTRL_GEN 0 g)
    else if dorm || rd m F.GLM_UPD_STATUS_STATE 0 = 1 || rd m F.GLM_UPD_STATUS_STATE 0 = 4 || m.flash.restoring.isSome
        || decide (g ≥ m.flash.backups.length) then
      raise m F.FLS_EVENT_ERR 0
    else
      let s := inactiveSlot m
      setFlash (setSlot (unconfirm (wr m F.FLS_BACKUP_CTRL_GEN 0 g) s) s none) (fun f =>
        { countRestore f g with restoring := f.backups[g]?.map (fun i => (g, i)) }))

def execRestore (v : Word) (s : State) : Host.Outcome State Fault Refusal := s.run (restore v)

/-- RESTORE_COMPLETE (R400 type 0x000B, R402, R410): the generation that GEN named at the write, the readback and the checks of R410. A check that
fails raises ERR too. -/
def restoreComplete (m : Mach) : Mach :=
  match m.flash.restoring with
  | none => m
  | some (g, i) =>
    if !flashReady m then m else
    let s := inactiveSlot m
    let m := setFlash (setSlot m s (some i)) (fun f => { f with restoring := none })
    let m := checkStaged (audit m 0x000B 0 (leBytes 1 g ++ leBytes 1 (slotNo s)))
    if rd m F.GLM_UPD_STATUS_STATE 0 = 3 then raise m F.FLS_EVENT_ERR 0 else m

def execRestoreComplete (s : State) : Host.Outcome State Fault Refusal := s.run restoreComplete

/-- A new nonce, latched (R424). -/
def drawNonce (m : Mach) : Mach :=
  let r := draw m
  let n := BitVec.ofNat 128 r.2
  setGlume r.1 (fun g => { g with nonce := some (n, m.time.now), nonceHeld := n })

/-- NONCE_READ (R424): a read of GLM_NONCE_0. -/
def nonceRead (m : Mach) : Mach :=
  barRead m true (fun m =>
    let m := drawNonce m
    emit m (.readData (m.glume.nonceHeld.setWidth 32)))

def execNonceRead (s : State) : Host.Outcome State Fault Refusal := s.run nonceRead

/-- SIG verifies under the newest owner key slot (R422, R423). -/
def byOwner (m : Mach) (b : Auth) : Bool :=
  b.keySlot + 1 == m.fuses.ownerKeys.length && m.fuses.ownerKeys[b.keySlot]? == some (sha384 b.pub) && b.signedBy b.pub

/-- SIG verifies under the vendor key, which acts only in RETURN (R423). -/
def byVendor (m : Mach) (b : Auth) : Bool :=
  m.fuses.life == .returned && b.keySlot == 0xFF && m.fuses.vendor == sha384 b.pub && b.signedBy b.pub

/-- The SHA-384 of the device identity public key (R404, R424). -/
def deviceHash (f : Fuses) : Digest := sha384 (ecdsaPub f.devKey)

/-- Who may sign an operation (R425). -/
def authSigned (m : Mach) (b : Auth) : Bool :=
  match b.op with
  | 1 => b.keySlot == 0xFF && b.signedBy (slice b.arg 0 96)
  | 2 => if m.fuses.life = .returned then byVendor m b else byOwner m b
  | 3 => if m.fuses.life = .returned then byVendor m b else byOwner m b
  | 4 => byOwner m b
  | 5 => byOwner m b || byVendor m b
  | _ => if b.arg0 = 4 then byVendor m b else byOwner m b

/-- The lifecycle states in which an operation is allowed (R425, R426). -/
def authAllowed (m : Mach) (b : Auth) : Bool :=
  let l := m.fuses.life
  match b.op with
  | 1 => l == .blank
  | 2 => (l == .owned && !confPresent m) || l == .returned
  | 3 => l == .owned || l == .returned
  | 4 => l == .owned
  | 5 => l == .owned || l == .returned
  | _ => if b.arg0 = 4 then l == .returned else l == .owned || l == .returned

/-- A request beyond a limit of R426, the four owner key slots among them. NO_SLOT of GLM_AUTH_CTRL is then never answered (DEDUCED,
assumption 125). -/
def fuseLimit (m : Mach) (b : Auth) : Bool :=
  (b.op == 2 && decide (m.fuses.ownerKeys.length ≥ 4)) || b.op == 6 && (match b.arg0 with
    | 1 => m.fuses.debugOff
    | 2 => m.fuses.confOnly
    | 3 => m.fuses.arLock
    | _ => m.fuses.arLock || decide (b.arg1 ≤ m.fuses.ar))

/-- The format of an authorisation (R424, R425). -/
def authFormat (b : Auth) : Bool :=
  b.magic == 0x54554147 && b.reservedZero && decide (b.keySlot ≤ 255) && decide (1 ≤ b.op) && decide (b.op ≤ 6)
    && (b.op != 3 || (decide (b.arg0 ≤ 3) && decide (b.arg1 ≤ 65535)))
    && (b.op != 6 || (decide (1 ≤ b.arg0) && decide (b.arg0 ≤ 4) && decide (b.arg1 ≤ 255)))

/-- The nonce named was read at most 60 s ago and not used (R424). -/
def nonceOk (m : Mach) (b : Auth) : Bool :=
  match m.glume.nonce with
  | some x => x.1 == b.nonce && lessSince m.time.now x.2 (60 * giga + 1)
  | none => false

/-- RESULT of an authorisation (GLM_AUTH_CTRL): the first check that fails; none fetched is FETCH. -/
def authResult (m : Mach) (block : Option Auth) : Nat :=
  match block with
  | none => 8
  | some b =>
    if !authFormat b then 1
    else if !nonceOk m b then 2
    else if b.device ≠ deviceHash m.fuses then 3
    else if !authSigned m b then 4
    else if !authAllowed m b then 5
    else if fuseLimit m b then 7
    else 0

/-- A debug level by code. -/
def levelOf (n : Nat) : DebugLevel :=
  match n with
  | 0 => .none
  | 1 => .telemetry
  | 2 => .trace
  | _ => .full

/-- The highest level that a lifecycle state allows (R430). -/
def levelCap (l : Lifecycle) : Nat :=
  match l with
  | .blank => 3
  | .owned => 2
  | .returned => 3
  | .retired => 0

/-- GRANTED := a level, at most what lifecycle and DEBUG_OFF allow (R426, R429). -/
def grantLevel (m : Mach) (n : Nat) : Mach :=
  setGlume m (fun g => { g with granted := levelOf (if m.fuses.debugOff then 0 else min n (levelCap m.fuses.life)) })

/-- The next owner key slot is programmed (R425, R426). -/
def addOwner (m : Mach) (d : Digest) : Mach :=
  fuseLedger m 2 (BitVec.ofNat 32 m.fuses.ownerKeys.length) false (fun f => { f with ownerKeys := f.ownerKeys ++ [d] })

/-- TAKE_OWNERSHIP (R425): slot 0; OWNED. BLANK's FULL is no grant: GRANTED is NONE. -/
def takeOwnership (m : Mach) (b : Auth) : Mach :=
  moveLife (addOwner (setGlume m (fun g => { g with granted := .none, grantEnd := none })) b.argHash) .owned

/-- TRANSFER (R425): the next slot; OWNED. -/
def transfer (m : Mach) (b : Auth) : Mach :=
  let m := addOwner m b.argHash
  if m.fuses.life = .owned then m
  else moveLife (setGlume m (fun g => { g with granted := levelOf (min (levelCode g.granted) 2) })) .owned

/-- DEBUG (R425, R429): a duration of 0 lasts until reset. -/
def debugGrant (m : Mach) (b : Auth) : Mach :=
  let t := m.time.now
  let m := setGlume (grantLevel m b.arg0) (fun g => { g with
    grantEnd := if b.arg1 = 0 then none else some { t with sec := t.sec + BitVec.ofNat 48 b.arg1 } })
  measureFuses m

/-- RETURN (R418, R423, R430): the module is in FAULT, every context is scrubbed, then the wipe. A stage or a RESTORE ends with it. -/
def returnStart (m : Mach) : Mach :=
  let m := stopModule (moveLife m .returned) 1
  let cs := (m.fab.ctxs.filter (fun c => c.1 != 0 && c.2.st != .free && c.2.st != .scrubbing)).map (fun c => c.1)
  let m := wr (setFlash m (fun f => { f with restoring := none })) F.GLM_UPD_STATUS_STATE 0 0
  let m := setGlume m (fun g => { g with staging := none, activateAt := none, wiping := true, returnDue := true })
  finishReturn (forEach cs m startScrub)

/-- RETIRE (R425, R430): nothing is granted, and the module is in FAULT. No confidential context outlives it: they are scrubbed first, and
the lifecycle moves when they are (DESIGN CHOICE, assumption 125). -/
def retire (m : Mach) : Mach :=
  let m := stopModule (setGlume m (fun g => { g with granted := .none, grantEnd := none, retireDue := true })) 1
  let cs := (m.fab.ctxs.filter (fun c => c.2.conf && (c.2.st == .admitted || c.2.st == .loaded))).map (fun c => c.1)
  finishReturn (forEach cs m startScrub)

/-- FUSE (R425, R426): DEBUG_OFF caps the granted level at NONE. -/
def fuse (m : Mach) (b : Auth) : Mach :=
  match b.arg0 with
  | 1 => fuseLedger (setGlume m (fun g => { g with granted := .none, grantEnd := none })) 4 1 false (fun f => { f with debugOff := true })
  | 2 => fuseLedger m 5 1 false (fun f => { f with confOnly := true })
  | 3 => fuseLedger m 7 1 false (fun f => { f with arLock := true })
  | _ => fuseLedger m 6 (BitVec.ofNat 32 b.arg1) false (fun f => { f with ar := b.arg1 })

/-- The effect of an operation (R425). -/
def authEffect (m : Mach) (b : Auth) : Mach :=
  match b.op with
  | 1 => takeOwnership m b
  | 2 => transfer m b
  | 3 => debugGrant m b
  | 4 => returnStart m
  | 5 => retire m
  | _ => fuse m b

/-- A write of GLM_AUTH_CTRL.GO with the 264 bytes at GLM_AUTH_ADDR (R424, R425): none, host memory fails. A nonce that is named is used up. -/
def authorise (block : Option Auth) (m : Mach) : Mach :=
  bar0 m (fun m =>
    let r := authResult m block
    let addr := BitVec.ofNat 64 (rd m F.GLM_AUTH_ADDR_LO_ADDR 0 / 64 * 64 + rd m F.GLM_AUTH_ADDR_HI_ADDR 0 * 2 ^ 32)
    let m := emit m (.dmaRead addr 264)
    let m := if r ≥ 3 ∧ r ≠ 8 ∨ r = 0 then setGlume m (fun g => { g with nonce := none }) else m
    let m := wr m F.GLM_AUTH_CTRL_RESULT 0 r
    match block with
    | some b => if r = 0 then raise (authEffect m b) F.GLM_EVENT_AUTH_DONE 0 else raise m F.GLM_EVENT_AUTH_REFUSED 0
    | none => raise (dmaErr m) F.GLM_EVENT_AUTH_REFUSED 0)

/-- The block of a command carries that command's OP (R425). -/
def withOp (op : Nat) (block : Option Auth) : Option Auth := block.map (fun b => { b with op := op })

def execTakeOwnership (block : Option Auth) (s : State) : Host.Outcome State Fault Refusal := s.run (authorise (withOp 1 block))

def execTransferAuth (block : Option Auth) (s : State) : Host.Outcome State Fault Refusal := s.run (authorise (withOp 2 block))

def execDebugAuth (block : Option Auth) (s : State) : Host.Outcome State Fault Refusal := s.run (authorise (withOp 3 block))

def execReturnAuth (block : Option Auth) (s : State) : Host.Outcome State Fault Refusal := s.run (authorise (withOp 4 block))

def execRetireAuth (block : Option Auth) (s : State) : Host.Outcome State Fault Refusal := s.run (authorise (withOp 5 block))

def execFuseAuth (block : Option Auth) (s : State) : Host.Outcome State Fault Refusal := s.run (authorise (withOp 6 block))

/-- DEBUG_GRANT_EXPIRY (R429): the grant's duration has ended. -/
def grantExpiry (m : Mach) : Mach :=
  if m.glume.grantEnd.any (atOrAfter m.time.now) then setGlume m (fun g => { g with granted := .none, grantEnd := none }) else m

def execDebugGrantExpiry (s : State) : Host.Outcome State Fault Refusal := s.run grantExpiry

/-- CRYPTO_RESET (R412): sessions and keys survive. -/
def execCryptoReset (s : State) : Host.Outcome State Fault Refusal :=
  s.run (fun m => if alive m then raise (setGlume m (fun g => { g with cryptoBusy := true })) F.GLM_EVENT_CRYPTO_RESET 0 else m)

/-- CRYPTO_RESET_COMPLETE (R412): LC work that has waited falls under R359 if it is late. -/
def execCryptoResetComplete (s : State) : Host.Outcome State Fault Refusal :=
  s.run (fun m =>
    let waits := m.fab.inflight.filter (fun c => c.lc && c.phase == .running && cryptoWaits m c)
    let m := setFab m (fun f => { f with batches := f.batches.map (fun b =>
      if waits.any (fun c => c.ctx == b.context && c.batch == some b.no) then { b with waited := true } else b) })
    setGlume m (fun g => { g with cryptoBusy := false }))

end Sys2Proof.Machine
end

