-- ==== Sys2Proof/Machine/RegView.lean ====
section
/-!
DEFINITION. Machine/RegView.lean: what a read of a register returns (R4 to R7, R446 to R448, R452): the stored word, or the fields of the
typed state that the register shows. No side effect is here; Machine/HostIf.lean adds them.
-/

namespace Sys2Proof.Machine

/-- Put fields together: lowest bit and value of each. -/
def pack (fs : List (Nat × Nat)) : Nat := fs.foldl (fun a f => a + f.2 * 2 ^ f.1) 0

/-- The stored word of a register, by address and reset word. -/
def stored (m : Mach) (rst : Word) (a : Nat) : Nat := (word m rst a).toNat

/-- GEN_STATE's encoding of a state (R22). -/
def stateCode (s : ModState) : Nat :=
  match s with
  | .powering => 0 | .booting => 1 | .configured => 2 | .machineReady => 3 | .running => 4
  | .degraded => 5 | .standby => 6 | .dormant => 7 | .fault => 15

/-- GEN_STATE (R22, R362, R366, R428). -/
def genState (m : Mach) : Nat :=
  let prog := fun (f : Ctx → Program → Bool) => m.fab.ctxs.any (fun c => match c.2.program with
    | some p => f c.2 p
    | none => false)
  pack [(21, b2n (effLevel m != .none)), (20, b2n (confPresent m)), (19, b2n (prog (fun _ p => p.split)))
    , (18, b2n (prog (fun c p => p.exact && !c.map.isEmpty))), (17, b2n m.ctl.align), (16, b2n m.ctl.drain)
    , (8, ofBits ((List.range 8).map (tilLost m))), (4, stateCode m.ctl.prev), (0, stateCode m.ctl.st)]

/-- A partial or warm reset requested through GEN_RESET_CTRL is in progress (R81). -/
def resetBusy (m : Mach) : Bool := m.ctl.warmDue || m.ctl.resets.any (fun r => !r.auto)

/-- GEN_PROG_STATUS of a context (register table). -/
def progStatus (m : Mach) (c : Nat) : Nat :=
  let x := ctxOf m c
  pack [(24, x.reason), (20, x.map.dedup.length), (16, x.logical)
    , (7, b2n (splitReady x)), (6, b2n (match x.program with
      | some p => p.split
      | none => false)), (5, b2n (dlbOn x)), (4, b2n (ctxExact m c)), (3, b2n (x.st == .sealed)), (2, b2n x.folded), (0, x.progState)]

/-- GEN_PLACE_MAP of a context. -/
def placeMap (m : Mach) (c : Nat) : Nat := pack ((List.range 8).map (fun l => (4 * l, (ctxOf m c).map.getD l 15)))

/-- GEN_PROG_WC_NS of a context. -/
def progWcNs (m : Mach) (c : Nat) : Nat := ((ctxOf m c).map.map (fun t => tget 0 m.fab.judgeNs t)).foldl max 0

/-- The context that GEN_PROG_SEL names. -/
def progSel (m : Mach) : Nat := rd m F.GEN_PROG_SEL_CONTEXT 0

/-- Registers of GEN that show typed state. -/
def viewGen (m : Mach) (a : Nat) : Option Nat :=
  match a with
  | 0x4 => some (pack [(16, 1), (8, if alive m then m.nor.code else 0), (0, if alive m then m.nor.board else 0)])
  | 0x8 => some (if alive m then m.nor.serial.toNat % 2 ^ 32 else 0)
  | 0xC => some (if alive m then m.nor.serial.toNat / 2 ^ 32 else 0)
  | 0x10 => some (genState m)
  | 0x18 => some (m.ctl.tickCount.toNat % 2 ^ 32)
  | 0x1C => some (m.ctl.tickCount.toNat / 2 ^ 32)
  | 0x20 => some (pack [(12, b2n m.cfg.machine.freeRun), (10, m.cfg.machine.masterEnc % 4), (0, m.cfg.machine.s % 1024)])
  | 0x38 => some (b2n (resetBusy m))
  | 0x104 => some (progStatus m (progSel m))
  | 0x108 => some (progWcNs m (progSel m))
  | 0x10C => some (placeMap m (progSel m))
  | 0x128 => some m.fab.prepNs
  | 0x214 => if (ctxOf m (rd m F.GEN_CHECK_LAST_CONTEXT 0)).conf && confPresent m then
      some (stored m 0 a - rd m F.GEN_CHECK_LAST_CONTEXT 0 * 2 ^ F.GEN_CHECK_LAST_CONTEXT.lo) else none
  | _ => none

/-- HST_LINK: width and speed are what link training gave, which the spec leaves open (assumption 7). -/
def viewHst (m : Mach) (a : Nat) : Option Nat :=
  match a with
  | 0x10000 =>
    let up := alive m && m.ctl.linkTraining
    some (pack [(8, if up then 2 ^ (Config.pcieWidth % 4) else 0), (5, if up then 1 + Config.pcieSpeed % 5 else 0)
      , (3, if m.ctl.d3hot then 3 else 0), (0, b2n up)])
  | _ => none

/-- A domain's state (R93). -/
def domCode (s : DomState) : Nat :=
  match s with
  | .disabled => 0 | .listening => 1 | .acquiring => 2 | .locked => 3 | .holdover => 4

/-- A signed quantity in a 32-bit register, saturated at plus or minus 2^31 - 1. -/
def sat32 (i : Int) : Nat := twos 32 (clampI (-(2 ^ 31 - 1)) (2 ^ 31 - 1) i)

/-- The servo registers of a domain, by offset (R88, R92, R93). -/
def viewServo (m : Mach) (d k : Nat) : Option Nat :=
  let x := domOf m d
  let c := domCfg m d
  match k with
  | 0x0 => some (pack [(13, b2n c.enable), (12, b2n c.pdOneStep), (11, b2n c.p2p), (10, b2n c.l2), (8, c.port), (0, c.domainNum)])
  | 0x4 => some (pack [(16, c.ki), (0, c.kp)])
  | 0x8 => some (sat32 (x.theta / 2 ^ 16))
  | 0xC => some (twos 32 (x.freq / 2 ^ 24))
  | 0x10 => some (sat 32 (x.delay / 2 ^ 16).toNat)
  | _ => none

/-- Registers of TIM (R84, R91 to R103). -/
def viewTim (m : Mach) (a : Nat) : Option Nat :=
  let t := m.time.now
  match a with
  | 0xC0000 => some (t.frac.toNat / 2 ^ 24)
  | 0xC0004 => some t.ns.toNat
  | 0xC0008 => some (t.sec.toNat % 2 ^ 32)
  | 0xC000C => some (t.sec.toNat / 2 ^ 32)
  | 0xC0014 => some (pack [(9, b2n (timeHoldover m || (m.ctl.st == .dormant))), (8, b2n (timeValid m)), (7, b2n m.time.slew)
      , (6, b2n m.time.activeB), (3, domCode m.time.domB.st), (0, domCode m.time.domA.st)])
  | 0xC001C => some (if m.time.slew then sat32 ((domOf m (active m)).offset / 2 ^ 40) else 0)
  | 0xC0060 => some (pack [(16, b2n m.cfg.time.required), (0, m.cfg.time.holdS)])
  | 0xC0064 => some (pack [(16, m.cfg.time.rxLat0), (0, m.cfg.time.txLat0)])
  | 0xC0068 => some (pack [(16, m.cfg.time.rxLat1), (0, m.cfg.time.txLat1)])
  | _ => if a / 32 = 0x6001 then viewServo m 0 (a % 32) else if a / 32 = 0x6002 then viewServo m 1 (a % 32) else none

/-- Registers of ENC (R104 to R117, R125). -/
def viewEnc (m : Mach) (a : Nat) : Option Nat :=
  if a = 0xC8100 then some (pack [(16, m.cfg.machine.holdMs), (0, m.cfg.machine.pitch)])
  else if 0xC8000 ≤ a ∧ a < 0xC8100 then
    let ch := (a - 0xC8000) / 64
    let e := encOf m ch
    let c := encCfg m ch
    let edge := (e.last.map (fun x => x.2)).getD {}
    match (a - 0xC8000) % 64 with
    | 0x0 => some (pack [(16, c.stillMs), (13, c.spdWinLog2), (9, c.filt), (7, c.zmode), (6, b2n c.invert), (5, b2n c.term), (4, b2n c.se24), (0, c.mode)])
    | 0x4 => some (e.count.toNat % 2 ^ 32)
    | 0x8 => some (e.count.toNat / 2 ^ 32)
    | 0xC => some edge.ns.toNat
    | 0x10 => some (edge.sec.toNat % 2 ^ 32)
    | 0x14 => some (twos 32 (speedReg m ch))
    | 0x1C => some (pack [(24, c.clk100k), (18, c.bits), (0, c.refCount)])
    | 0x20 => some (pack [(7, b2n e.los), (6, b2n (holdover m ch).isSome), (5, b2n e.still), (4, b2n (decide ((vAt m ch (fine m.time.now)).dc < 0))), (3, b2n (refSeen e))
        , (2, b2n (encValid m ch)), (1, b2n (m.ctl.cameraApplied && !freeRun m && master m == ch))])
    | _ => none
  else none

/-- Registers of SHF: port registers, and the selected window (R131, R134, R149, R153, R160, R162, R163). -/
def viewShf (m : Mach) (a : Nat) : Option Nat :=
  let w := winOf m (rd m F.SHF_WIN_SEL_INDEX 0)
  match a with
  | 0xB4004 => some (pack [(16, w.gen.toNat), (12, w.owner), (8, w.port), (3, b2n w.granary), (1, b2n w.isOpen)])
  | 0xB4008 => some (pack [(26, w.tiller), (0, w.baseKib)])
  | 0xB400C => some (if w.isOpen then w.sizeKib else 0)
  | 0xB4010 => some (m.wins.filter (fun x => x.2.isOpen)).length
  | _ =>
    if a < 0xB0000 ∨ 0xB4000 ≤ a then none
    else
      let p := (a - 0xB0000) / 1024
      let s := portOf m p
      match (a - 0xB0000) % 1024 with
      | 0x0 => some (stored m 0 a + pack [(2, if assigned m p then (match portMode m p with
          | .unassigned => 0
          | .camera => 1
          | .peer => 2) else 0), (0, b2n (assigned m p))])
      | 0x4 => some (stored m 0 a + pack [(9, b2n (s.phy == .hold)), (0, phyCode s.phy)])
      | 0x100 => some (pack [(16, s.replay.length), (5, (s.outWrites.filter (fun x => x.sent)).length), (4, b2n s.scrubIdle)
          , (3, b2n (s.lpOut.isSome || s.lpPeer.isSome || s.lpAcked.isSome))
          , (2, b2n (portMode m p == .peer && s.phy == .l0 && (creditW s == 0 || creditR s == 0))), (1, b2n (s.phy == .l0))])
      | _ => none

/-- Load of the running image in 1/1000 (R178): the highest port's samples of 4.0 × 10^9, and the sum of 48 × 10^9. -/
def loadPermille (m : Mach) : Nat × Nat :=
  let d := rateDen m
  let one := fun (p : Nat) => (camOf m p).pixels * (camOf m p).bands * rateNum m (camOf m p) / (4000000 * max 1 d)
  (((camPorts m).map one).foldl max 0, loadSum m / (48000000 * max 1 d))

/-- An intake port issues triggers (R26, R118). -/
def triggering (m : Mach) (p : Nat) : Bool := cameraPort m p && acquiring m && !(ipOf m p).inReset

/-- Registers of INT (R165 to R180, R202, R205). -/
def viewInt (m : Mach) (a : Nat) : Option Nat :=
  match a with
  | 0x81000 => some (if m.ctl.cameraApplied then pack [(16, (loadPermille m).1), (0, (loadPermille m).2)] else 0)
  | 0x81004 => some (stored m 0x3C0000 a % 2 ^ 16 + m.cfg.camera.alignTimeoutS * 2 ^ 16)
  | 0x82100 => some (pack [(8, b2n m.cfg.isp.hostWrite)])
  | _ =>
    if 0x82000 ≤ a ∧ a < 0x82040 then
      let p := (a - 0x82000) / 4
      some (if cameraPort m p then ispCtrl m p % 2 ^ 15 else 0)
    else if 0x80000 ≤ a ∧ a < 0x81000 then
      let p := (a - 0x80000) / 256
      let c := camOf m p
      let on := cameraPort m p
      match (a - 0x80000) % 256 with
      | 0x0 => some (if on then pack [(16, c.group), (15, b2n c.mirror), (12, c.refBand), (10, c.fill), (8, c.width), (5, c.bands), (2, c.mult), (0, 1)] else 0)
      | 0x4 => some (if on then pack [(16, c.minPeriod), (0, c.pixels)] else 0)
      | 0x8 => some (if on then c.fillConst else 0)
      | 0x14 => some (stored m 0 a + pack [(16, if on then ((ipOf m p).latencyPs + 500) / 1000 else 0)
          , (2, b2n (on && !(ipOf m p).inReset)), (1, b2n ((portOf m p).phy == .hold && on)), (0, b2n (triggering m p))])
      | _ => none
    else none

/-- Registers of CHF (R209, R212). -/
def viewChf (m : Mach) (a : Nat) : Option Nat :=
  let k := m.cfg.machine
  match a with
  | 0xA0000 => some (pack [(8, b2n k.chaffWrite)])
  | 0xA0020 => some (pack [(24, (peekEntry m).toNat), (0, rd m F.CHF_PEEK_ADDR 0)])
  | 0xA0024 => some (pack [(16, k.steerMargin), (8, k.cropPad), (4, k.maxSwaths), (0, b2n k.conn8)])
  | 0xA0028 => some (pack [(16, k.steerKib), (0, k.minArea)])
  | _ =>
    if 0xA0100 ≤ a ∧ a < 0xA0180 then
      let p := (a - 0xA0100) / 8
      let c := camOf m p
      if (a - 0xA0100) % 8 = 0 then
        some (pack ((24, c.context) :: (20, b2n c.chaffEn) :: (18, c.split) :: (List.range 6).map (fun j => (3 * j, c.ch.getD j 0))))
      else some (pack ((List.range 6).map (fun j => (4 * j, c.lsb.getD j 0))))
    else none

/-- TIL_STATUS.STATE. -/
def tilCode (s : TilState) : Nat :=
  match s with
  | .fusedOff => 0 | .idle => 1 | .busy => 2 | .gated => 3 | .quarantined => 4 | .reset => 5

/-- TIL_STATUS of a Tiller (R332, R362): EXACT while a command of an exact context holds one of its units. -/
def tilStatus (m : Mach) (t : Nat) : Nat :=
  let x := tilOf m t
  let exact := [x.grid, x.flail, x.chute].any (fun h => h.any (fun g => (cmdOf m g.1 g.2).any (fun k => ctxExact m k.ctx)))
  let c := match x.grid with
    | some g => (match cmdOf m g.1 g.2 with
      | some k => k.ctx
      | none => 0)
    | none => 0
  pack [(16, allInflight m t), (12, c), (8, b2n exact), (0, tilCode x.st)]

/-- Lines of a Tiller's staging pools, and of its bins and pools together (TIL_GRN_STATUS). -/
def poolLines (m : Mach) (t : Nat) : Nat := ((tilOf m t).pools.map (fun p => p.2.length)).sum
def takenCount (m : Mach) (t : Nat) : Nat := ((takenLines m (some t)).map (fun r => r.2)).sum

/-- TIL_GRN_STATUS of a Tiller. -/
def grnStatus (m : Mach) (t : Nat) : Nat := pack [(16, granaryLines - takenCount m t), (0, poolLines m t)]

/-- Registers of TIL (R272, R275): hidden figures read 0 while a confidential context is present (R347). -/
def viewTil (m : Mach) (a : Nat) : Option Nat :=
  let t := (a - 0x40000) / 16384
  let e := binOf m t (rd m F.TIL_BIN_SEL_CONTEXT t) (rd m F.TIL_BIN_SEL_HANDLE t)
  let hid := (ctxOf m (rd m F.TIL_BIN_SEL_CONTEXT t)).conf && confPresent m
  match (a - 0x40000) % 16384 with
  | 0x0 => some (tilStatus m t)
  | 0x4 => some (if alive m then arithWord m else 0)
  | 0x14 => if confPresent m then some 0 else none
  | 0x18 => if confPresent m then some 0 else none
  | 0x104 => some (if hid then pack [(31, b2n e.valid), (20, e.owner), (0, e.gen.toNat)] else pack [(31, b2n e.valid), (29, e.space), (28, b2n e.narrow), (27, b2n e.acc), (26, b2n e.cur), (24, e.kind)
      , (20, e.owner), (0, e.gen.toNat)])
  | 0x108 => some (if hid then 0 else if e.space = 2 then pack [(16, e.winGen), (12, e.winPort), (0, e.window)] else e.base)
  | 0x10C => some (if hid then 0 else e.size)
  | 0x110 => some (if hid then 0 else e.stride)
  | 0x114 => some (grnStatus m t)
  | _ => none

/-- QUE_Q_CFG.STATE of a queue. -/
def queStateCode (s : QueState) : Nat :=
  match s with
  | .disabled => 0 | .enabled => 1 | .stopped => 2

/-- QUE_INFLIGHT, BE and all: commands fetched whose completion is not written (R332); the entries of refused doorbells are no commands. -/
def inflightCounts (m : Mach) : Nat × Nat :=
  let w := fun (lc : Bool) => ((m.fab.queues.filter (fun q => q.2.lc == lc)).map (fun q => (waitingCmds q.2).length)).sum
  ((m.fab.inflight.filter (fun c => !c.lc)).length + w false, m.fab.inflight.length + w false + w true)

/-- Registers of QUE: the selected queue, ring and context (R329, R335, R340 to R347). -/
def viewQue (m : Mach) (a : Nat) : Option Nat :=
  let q := queOf m (selQueue m)
  let r := ringOf m (rd m F.QUE_CR_SEL_CR 0)
  let c := selCtx m
  let x := ctxOf m c
  let hid := confPresent m
  match a with
  | 0x20004 => some (pack [(30, queStateCode q.st), (29, b2n q.lc), (28, b2n q.hbmRing), (16, q.cr), (15, b2n q.ordered), (8, q.ltiller), (0, q.log2Size)])
  | 0x20008 => some (q.base.toNat % 2 ^ 32)
  | 0x2000C => some (q.base.toNat / 2 ^ 32)
  | 0x20024 => some (pack [(31, b2n r.enable), (24, r.coalUs), (13, r.vector), (5, r.coalN), (0, r.log2Size)])
  | 0x20028 => some (r.base.toNat % 2 ^ 32)
  | 0x2002C => some (r.base.toNat / 2 ^ 32)
  | 0x20034 => some r.tail.toNat
  | 0x20044 => some (pack [(31, b2n m.fab.ctxRun.isSome)])
  | 0x20050 => some (pack [(16, x.share), (12, x.result), (8, x.logical), (3, b2n x.conf), (0, ctxCode (ctxState m c))])
  | 0x20054 => some (if hid then 0 else ctxTime m c / 65536000 % 2 ^ 32)
  | 0x20058 => some (if hid then 0 else ctxTime m c / 65536000 / 2 ^ 32 % 2 ^ 16)
  | 0x2005C => some (if hid then 0 else pack [(16, x.slowKills), (0, x.slow)])
  | 0x20060 => some (pack [(16, (inflightCounts m).1), (0, (inflightCounts m).2)])
  | _ => none

/-- EJC_AWN_STATUS.STATE: 0 for a port without boards. -/
def awnCode (m : Mach) (p : Nat) : Nat := if boardMask m p = 0 then 0 else awnState m p

/-- Registers of EJC (R370, R380, R385, R389). -/
def viewEjc (m : Mach) (a : Nat) : Option Nat :=
  let k := m.cfg.machine
  let v := rd m F.EJC_LAT_SEL_VALVE 0
  match a with
  | 0xD0000 => some (pack [(24, b2n k.learn), (16, k.sendAhead), (12, k.overflowAct), (10, k.voidAct), (8, k.defaultAct), (0, k.inhibitDi)])
  | 0xD0004 => some (pack [(16, b2n (inhibited m)), (0, ofBits ((List.range 8).map (awnInService m)))])
  | 0xD0018 => some (pack [(24, sat 8 (((tget none m.eject.lOn v).map (fun x => x.2)).getD 0)), (0, lOnOf m v % 2 ^ 24)])
  | _ =>
    if 0xD0100 ≤ a ∧ a < 0xD0180 ∧ a % 16 = 0 then
      let p := (a - 0xD0100) / 16
      let bs := fun (f : Board → Bool) => ofBits ((List.range 8).map (fun b => f (tget {} (awnOf m p).boards b)))
      some (pack [(24, bs (fun b => b.seen && !b.lost)), (16, bs (fun b => b.flags != 0)), (0, awnCode m p)])
    else none

/-- Registers of FIO (R55, R390). -/
def viewFio (m : Mach) (a : Nat) : Option Nat :=
  match a with
  | 0xD8004 => some m.cfg.early.wbEn.toNat
  | 0xD8008 => some (pack ((List.range 16).map (fun n => (2 * n, doMode m n % 4))))
  | 0xD800C => some (pack ((List.range 8).map (fun n => (4 * n, doSrc m n % 16))))
  | 0xD8010 => some (pack ((List.range 8).map (fun n => (4 * n, doSrc m (8 + n) % 16))))
  | 0xD8018 => some (doOn m).toNat
  | _ => none

/-- Registers of FLS (R395, R402, R403). A retention scan is one command, so SCAN reads 0. -/
def viewFls (m : Mach) (a : Nat) : Option Nat :=
  match a with
  | 0xE0000 => some (pack [(16, m.cfg.machine.budget), (4, b2n m.cfg.machine.recordErr), (0, m.cfg.machine.recordAct.toNat)])
  | 0xE0004 => some (stored m 0x14000000 a + pack [(2, b2n m.flash.reading.isSome), (0, b2n (flashPowered m))])
  | 0xE0014 => some (recRate m)
  | 0xE002C => some (stored m 0 a + m.flash.backups.length * 16)
  | _ => none

/-- GLM_DEBUG (R425, R428, R429). PROBE is the pin of J8. -/
def glmDebug (m : Mach) : Nat :=
  let left := match m.glume.grantEnd with
    | some t => min 65535 (t.sec - m.time.now.sec).toInt.toNat
    | none => 0
  pack [(16, left), (9, b2n Config.probePresent), (8, b2n m.fuses.debugOff), (4, levelCode (effLevel m)), (0, levelCode m.glume.granted)]

/-- GLM_CONF (R418). -/
def glmConf (m : Mach) : Nat :=
  pack [(16, ofBits ((List.range 16).map (fun c => (ctxOf m c).conf && (ctxOf m c).st != .free)))
    , (0, ofBits ((List.range 16).map (fun c => m.glume.scrubs.contains c)))]

/-- Registers of GLM (R404 to R429). -/
def viewGlm (m : Mach) (a : Nat) : Option Nat :=
  let entry := match m.fuses.ledger[rd m F.GLM_LEDGER_SEL_INDEX 0]? with
    | some e => ledgerBytes e
    | none => []
  match a with
  | 0xF0000 => some (if alive m then lifecycleWord m.fuses else 0)
  | 0xF0004 => some (glmDebug m)
  | 0xF0008 => some (glmConf m)
  | 0xF0020 => some (m.glume.nonceHeld.toNat % 2 ^ 32)
  | 0xF0024 => some (m.glume.nonceHeld.toNat / 2 ^ 32 % 2 ^ 32)
  | 0xF0028 => some (m.glume.nonceHeld.toNat / 2 ^ 64 % 2 ^ 32)
  | 0xF002C => some (m.glume.nonceHeld.toNat / 2 ^ 96)
  | 0xF0040 => some (pack [(16, m.fuses.ledger.length), (0, rd m F.GLM_LEDGER_SEL_INDEX 0)])
  | 0xF0044 => some (leAt entry 0 4)
  | 0xF0048 => some (leAt entry 4 4)
  | 0xF004C => some (leAt entry 8 4)
  | 0xF0050 => some (leAt entry 12 4)
  | _ => none

/-- A throttling count in µs (R443). -/
def thrUs (m : Mach) (r : Nat) : Nat := if r ≤ 5 then tget 0 m.power.thrNs r / 1000 else 0

/-- PWR_STATE (R431, R433). -/
def pwrState (m : Mach) : Nat :=
  pack [(8, ofBits ((List.range 8).map (isGated m))), (3, b2n m.ctl.waking), (2, b2n (m.ctl.powerReq.isSome && !m.ctl.align)), (0, powerState m)]

/-- Registers of PWR. -/
def viewPwr (m : Mach) (a : Nat) : Option Nat :=
  let k := m.cfg.power
  let us := thrUs m (rd m F.PWR_THR_SEL_REASON 0)
  match a with
  | 0xF8000 => some (pwrState m)
  | 0xF8008 => some (pack [(29, k.order % 8), (24, k.wakeDi % 32), (9, k.gateUs % 2 ^ 15), (0, k.capW % 512)])
  | 0xF8020 => some (us % 2 ^ 32)
  | 0xF8024 => some (us / 2 ^ 32)
  | _ => none

/-- Blocks that DORMANT leaves unpowered (R431, R452): TIL, QUE, INT, CHF, SHF, ENC, EJC, FIO, FLS. -/
def unpowered (m : Mach) (a : Nat) : Bool :=
  m.ctl.st == .dormant && ((decide (0x20000 ≤ a) && decide (a < 0xC0000)) || (decide (0xC8000 ≤ a) && decide (a < 0xF0000)))

/-- The register at an address, if there is one (R448): its row, and its instance. -/
def rowOf (a : Nat) : Option RegRow :=
  regTable.find? (fun r => decide (r.base ≤ a) && (if r.stride = 0 then a == r.base
    else (a - r.base) % r.stride == 0 && decide ((a - r.base) / r.stride < r.count)))

/-- The MSI-X table and its pending bits (R449): words that are not in the register tables. -/
def msixWord (m : Mach) (a : Nat) : Option Nat :=
  if 0x18000 ≤ a ∧ a < 0x20000 then some (stored m (if a % 16 = 12 then 1 else 0) a)
  else if 0x11000 ≤ a ∧ a < 0x11100 then some (stored m 0 a)
  else none

/-- What a read of the aligned word at `a` shows, without its side effects (R4 to R6, R448, R452). -/
def regValue (m : Mach) (a : Nat) : Nat :=
  if unpowered m a then 0
  else match msixWord m a with
    | some v => v
    | none => match rowOf a with
      | none => 0
      | some r =>
        let v :=
          if a < 0x10000 then viewGen m a
          else if a < 0x20000 then viewHst m a
          else if a < 0x40000 then viewQue m a
          else if a < 0x80000 then viewTil m a
          else if a < 0xA0000 then viewInt m a
          else if a < 0xB0000 then viewChf m a
          else if a < 0xC0000 then viewShf m a
          else if a < 0xC8000 then viewTim m a
          else if a < 0xD0000 then viewEnc m a
          else if a < 0xD8000 then viewEjc m a
          else if a < 0xE0000 then viewFio m a
          else if a < 0xF0000 then viewFls m a
          else if a < 0xF8000 then viewGlm m a
          else viewPwr m a
        v.getD (stored m r.rst a)

end Sys2Proof.Machine
end

