-- ==== Sys2Proof/Machine/Glean.lean ====
section
/-!
DEFINITION. Machine/Glean.lean: the GLEAN record (R450 to R462) and the commands that ask for it.
-/

namespace Sys2Proof.Machine

/-- Bytes at offsets, ascending, with 0 between them, up to a length. -/
def assemble (n : Nat) (xs : List (Nat × List Byte)) : List Byte :=
  let r := xs.foldl (fun (acc : List Byte) x => acc ++ List.replicate (x.1 - acc.length) 0 ++ x.2) []
  (r ++ List.replicate (n - r.length) 0).take n

/-- The SEQ below which everything of a queue has been reported since it was last enabled (R460): the lowest SEQ not reported. -/
def doneSeq (m : Mach) (q : Nat) : BitVec 32 :=
  let x := queOf m q
  let mine := (m.fab.inflight ++ parked (ctxOf m (q / 4096))).filter (fun c => c.queue == q && !c.silent && c.seq / 2 ^ 32 == x.era)
  let late := ((waitingCmds x).map (fun e => BitVec.ofNat 32 (leAt e 4 4))).filter (fun s => decide ((x.ci - s).toNat < 2 ^ 31))
  let open_ := mine.map (fun c => BitVec.ofNat 32 c.seq) ++ late
  open_.foldl (fun a s => if (x.ci - s).toNat > (x.ci - a).toNat then s else a) x.ci

/-- A queue is non-empty (R460). -/
def queueBusy (m : Mach) (q : Nat) : Bool := (queOf m q).st == .stopped || (queOf m q).pi != doneSeq m q

/-- The non-empty queues from one on, ascending (R460). -/
def busyQueues (m : Mach) (from' : Nat) : List Nat :=
  (m.fab.queues.map (fun q => q.1)).filter (fun q => decide (4096 ≤ q) && decide (from' ≤ q) && queueBusy m q)

/-- A queue entry (R460). -/
def queueEntry (m : Mach) (q : Nat) : List Byte :=
  let x := queOf m q
  leBytes 2 q ++ leBytes 1 (pack [(0, queStateCode x.st), (2, b2n x.lc), (3, b2n x.ordered)]) ++ leBytes 1 x.cr
    ++ leBytes 4 x.pi.toNat ++ leBytes 4 x.ci.toNat ++ leBytes 4 (doneSeq m q).toNat

/-- A copy of a register (R452, R454). -/
def copyReg (m : Mach) (a : Nat) : List Byte := leBytes 4 (regValue m a)

/-- A Tiller entry (R452, R458). -/
def tillerEntry (m : Mach) (t : Nat) : List Byte :=
  let b := 0x40000 + 0x4000 * t
  if m.ctl.st = .dormant then leBytes 4 (if (tilOf m t).st = .fusedOff then 0 else 3) ++ leBytes 12 0
  else copyReg m b ++ leBytes 2 (regValue m (b + 0x1C)) ++ leBytes 2 (regValue m (b + 0x18) % 1024) ++ copyReg m (b + 0x10) ++ copyReg m (b + 0x114)

/-- A context entry (R347, R452, R459): entry 0 and every entry in DORMANT hold STATE only. -/
def ctxEntry (m : Mach) (c : Nat) : List Byte :=
  let x := ctxOf m c
  let hid := confPresent m
  let state := leBytes 1 (ctxCode (ctxState m c))
  if c = 0 ∨ m.ctl.st = .dormant then state ++ leBytes 31 0
  else
    let queues := (m.fab.queues.filter (fun q => q.1 / 4096 == c && q.2.st != .disabled)).length
    let flying := (m.fab.inflight.filter (fun k => k.ctx == c)).length
      + ((m.fab.queues.filter (fun q => q.1 / 4096 == c)).map (fun q => (waitingCmds q.2).length)).sum
    let hash := match x.program with
      | some p => if x.conf then leBytes 8 0 else (digestBytes p.hash).take 8
      | none => leBytes 8 0
    state ++ leBytes 1 x.logical ++ leBytes 1 x.share ++ leBytes 1 (progStatus m c % 256) ++ leBytes 4 (placeMap m c)
      ++ leBytes 6 (if hid then 0 else ctxTime m c / 65536000 % 2 ^ 48) ++ leBytes 2 (if hid then 0 else x.slow)
      ++ leBytes 2 flying ++ leBytes 2 queues ++ hash ++ leBytes 1 x.reason ++ leBytes 3 0

/-- The counter section (R461). -/
def counterBytes (m : Mach) : List Byte :=
  copyReg m 0x208 ++ copyReg m 0x20C ++ copyReg m 0x210 ++ copyReg m 0x20068 ++ copyReg m 0x20060 ++ copyReg m 0xF8038
    ++ copyReg m 0xF8010 ++ copyReg m 0xF8018 ++ (List.range 6).flatMap (fun r => leBytes 8 (thrUs m r))
    ++ copyReg m 0xE000C ++ copyReg m 0xE0010 ++ copyReg m 0xD000C ++ copyReg m 0x118 ++ copyReg m 0x3C ++ copyReg m 0x28
    ++ copyReg m 0xF8028 ++ copyReg m 0xF802C

/-- The event section (R462): 64 entries, oldest first. -/
def eventBytes (m : Mach) : List Byte :=
  let one := fun (e : EventRec) => leBytes 4 e.us.toNat ++ leBytes 1 e.vector ++ leBytes 1 e.bit ++ leBytes 1 e.inst ++ leBytes 1 e.ctx
  m.host.events.flatMap one ++ (List.replicate (64 - m.host.events.length) (leBytes 4 0 ++ leBytes 1 0xFF ++ leBytes 3 0)).flatten

/-- The record but for its CRC (R457). -/
def gleanBody (m : Mach) (n from' : Nat) : List (Nat × List Byte) :=
  let all := busyQueues m from'
  let qs := all.take 160
  let more := decide (all.length > 160)
  let c := fun (a : Nat) => copyReg m a
  let ports := ofBits ((List.range 16).map (fun p => bitOf (regValue m (0x80014 + 256 * p)) 2))
    + 2 ^ 16 * ofBits ((List.range 16).map (fun p => bitOf (regValue m (0xB0100 + 1024 * p)) 1))
  [(0x000, leBytes 4 0x4E454C47 ++ leBytes 2 1 ++ leBytes 2 0x1000 ++ leBytes 8 n ++ timeBytes m.time.now ++ leBytes 2 from'
      ++ leBytes 2 qs.length ++ leBytes 2 (if more then qs.getLastD 0 + 1 else 0) ++ leBytes 1 m.host.events.length
      ++ leBytes 1 (ofBits [more, confPresent m, m.ctl.st == .dormant]))
    , (0x040, c 0x0 ++ c 0x4 ++ c 0x8 ++ c 0xC ++ c 0xF0000 ++ c 0xF0004 ++ c 0x30 ++ c 0x34 ++ c 0x40004 ++ c 0xF0010 ++ leBytes 8 m.host.bootId.toNat)
    , (0x080, c 0x10 ++ c 0xF8000 ++ c 0xC0014 ++ c 0xC001C ++ leBytes 6 m.ctl.tickCount.toNat ++ leBytes 2 0 ++ c 0x14 ++ c 0x20
      ++ c (0xC8020 + 64 * master m) ++ c 0xD0004 ++ leBytes 4 ports ++ c 0xF0008 ++ c 0x110 ++ c 0xA001C ++ c 0x82118 ++ c 0xF003C
      ++ c 0xA0004 ++ c 0x82104)
    , (0x100, (List.range 8).flatMap (tillerEntry m))
    , (0x180, (List.range 16).flatMap (ctxEntry m))
    , (0x380, qs.flatMap (queueEntry m))
    , (0xD80, counterBytes m)
    , (0xE00, eventBytes m)]

/-- The record (R457): its CRC-32 is taken with its own field as 0. -/
def gleanRecord (m : Mach) (n from' : Nat) : List Byte :=
  let b := assemble 4096 (gleanBody m n from')
  putAt b 0x3C (leBytes 4 (crc32 b))

/-- GEN_GLEAN_NUM. -/
def gleanNum (m : Mach) : Nat := rd m F.GEN_GLEAN_NUM_LO_NUM 0 + 2 ^ 32 * rd m F.GEN_GLEAN_NUM_HI_NUM 0

/-- A request starts (R450, R453, R456): its number is used, the record sampled, its DMA begins. -/
def gleanStart (m : Mach) : Mach :=
  let n := (gleanNum m + 1) % 2 ^ 64
  let rec_ := gleanRecord m n (rd m F.GEN_GLEAN_CTRL_QUEUE_FROM 0)
  let addr := BitVec.ofNat 64 (rd m F.GEN_GLEAN_ADDR_LO_ADDR 0 / 4096 * 4096 + rd m F.GEN_GLEAN_ADDR_HI_ADDR 0 * 2 ^ 32)
  let m := wrs m 0 [(F.GEN_GLEAN_NUM_LO_NUM, n % 2 ^ 32), (F.GEN_GLEAN_NUM_HI_NUM, n / 2 ^ 32), (F.GEN_GLEAN_CTRL_BUSY, 1)]
  setHost m (fun h => { h with glean := rec_, gleanAddr := addr })

/-- GLEAN (R450, R453): a write of GEN_GLEAN_CTRL; GO is ignored while a request waits. -/
def glean (v : Word) (m : Mach) : Mach :=
  bar0 m (fun m =>
    if bitOf v.toNat 31 && flag m F.GEN_GLEAN_CTRL_BUSY 0 && flag m F.GEN_GLEAN_CTRL_PENDING 0 then m
    else
    let m := wr m F.GEN_GLEAN_CTRL_QUEUE_FROM 0 (bits v.toNat 0 16)
    if !bitOf v.toNat 31 then m
    else if flag m F.GEN_GLEAN_CTRL_BUSY 0 then wr m F.GEN_GLEAN_CTRL_PENDING 0 1
    else gleanStart m)

def execGlean (v : Word) (s : State) : Host.Outcome State Fault Refusal := s.run (glean v)

/-- A request that waits starts once none runs (R453); no DMA starts in D3hot (R445). -/
def gleanNext (m : Mach) : Mach :=
  if flag m F.GEN_GLEAN_CTRL_PENDING 0 && !flag m F.GEN_GLEAN_CTRL_BUSY 0 && !m.ctl.d3hot then
    gleanStart (wr m F.GEN_GLEAN_CTRL_PENDING 0 0)
  else m

/-- GLEAN_DONE (R450, R453, R454): the DMA ends; a pending request starts. -/
def gleanDone (ok : Bool) (m : Mach) : Mach :=
  if !flag m F.GEN_GLEAN_CTRL_BUSY 0 then m
  else
    let m := if ok then raiseQuiet (emit m (.dmaWrite m.host.gleanAddr m.host.glean)) F.GEN_EVENT_GLEAN_DONE else raiseQuiet m F.GEN_EVENT_GLEAN_FAIL
    gleanNext (setHost (wrs m 0 [(F.GEN_GLEAN_CTRL_BUSY, 0), (F.GEN_GLEAN_CTRL_FAILED, b2n (!ok))]) (fun h => { h with glean := [] }))

def execGleanDone (ok : Bool) (s : State) : Host.Outcome State Fault Refusal := s.run (gleanDone ok)

end Sys2Proof.Machine
end

