-- ==== Sys2Proof/Machine/HostIf.lean ====
section
/-!
DEFINITION. Machine/HostIf.lean: register accesses with their side effects (R4 to R7, R103, R125, R348, R447, R448), the resets and power
states of the PCI Express function (R79, R445), MSI-X (R449), JTAG and the UART of J8 (R42, R428).
-/

namespace Sys2Proof.Machine

/-- The registers that hold one value, lower address first (R7). -/
def pairs : List (Nat × Nat) :=
  [(0x8, 0xC), (0x18, 0x1C), (0x40, 0x44), (0x4C, 0x50), (0x20008, 0x2000C), (0x20028, 0x2002C), (0x20048, 0x2004C), (0x20054, 0x20058),
    (0xA000C, 0xA0010), (0xD800C, 0xD8010), (0xE0018, 0xE001C), (0xE0020, 0xE0024), (0xF0014, 0xF0018), (0xF0030, 0xF0034), (0xF8020, 0xF8024)]

/-- The registers that a read latches (R7, R103, R125). -/
def latched (a : Nat) : List Nat :=
  if a = 0xC0000 then [0xC0004, 0xC0008, 0xC000C]
  else if 0xC8000 ≤ a ∧ a < 0xC8100 ∧ (a - 0xC8000) % 64 = 4 then [a + 4, a + 8, a + 12, a + 16]
  else (pairs.filter (fun p => p.1 == a)).map (fun p => p.2)

/-- A register of ENC or TIM that only shows its holding register: what the last latching read left there, 0 before one (R103, R125). -/
def encHeld (a : Nat) : Bool :=
  (decide (0xC8000 ≤ a) && decide (a < 0xC8100) && [8, 12, 16, 20].contains ((a - 0xC8000) % 64)) || [0xC0004, 0xC0008, 0xC000C].contains a

/-- What a read returns: a holding register's copy where there is one (R7, R125). -/
def readValue (m : Mach) (a : Nat) : Nat :=
  if unpowered m a then 0
  else match tget none m.host.hold a with
    | some w => w.toNat
    | none => if encHeld a then 0 else regValue m a

/-- RC fields go to their reset value (R5). -/
def clearRc (m : Mach) (r : RegRow) (a : Nat) : Mach :=
  let mask := (r.fields.filter (fun f => f.2.2 == .rc)).foldl (fun w f => w ||| (BitVec.ofNat 32 (2 ^ f.2.1 - 1) <<< f.1)) (0 : Word)
  if mask = 0 then m else setWord m r.rst a ((word m r.rst a &&& ~~~ mask) ||| (r.rst &&& mask))

/-- A byte mask for the enabled bytes (R447). -/
def byteMask (be : BitVec 4) : Word :=
  BitVec.ofNat 32 (ofBits ((List.range 32).map (fun i => be.getLsbD (i / 8))))

/-- An address of the DBG block at a debug level that gives it functions (R428, R463). No rule says what a read there returns: a free value
(assumption 99). -/
def dbgServes (m : Mach) (a : Nat) : Bool := decide (0xFC000 ≤ a) && decide (a < 0x100000) && effLevel m != .none

/-- A read of the aligned word at `a` with some bytes enabled (R447): every side effect of the read, and the enabled bytes returned. The
reads that draw or move on (GLM_NONCE_0, GEN_REC_DATA, INT_ISP_DATA) do so. -/
def busRead (a : Nat) (be : BitVec 4) (m : Mach) : Mach :=
  let say := fun (m : Mach) (v : Word) => emit m (.readData (v &&& byteMask be))
  barRead m true (fun m =>
    if be = 0 then m
    else if dbgServes m a then let r := draw m; say r.1 (BitVec.ofNat 32 r.2)
    else if unpowered m a || ((rowOf a).isNone && (msixWord m a).isNone) then say m 0
    else if a = 0xF0020 then let m := drawNonce m; say m (m.glume.nonceHeld.setWidth 32)
    else if a = 0x124 then let r := recordWord m; say r.1 (BitVec.ofNat 32 r.2)
    else if a = 0x82110 then say (ispNext m) (ispDataWord m)
    else
      let v := BitVec.ofNat 32 (readValue m a)
      let keep := fun (m : Mach) (b : Nat) => setHost m (fun h => { h with hold := tset none h.hold b (some (BitVec.ofNat 32 (regValue m b))) })
      let m := if encHeld a then m else setHost m (fun h => { h with hold := tset none h.hold a none })
      let m := forEach (latched a) m keep
      say (match rowOf a with
        | some r => clearRc m r a
        | none => m) v)

/-- TIM_NOW_READ (R103): FRAC is returned; NS and SEC are latched. -/
def execTimNowRead (s : State) : Host.Outcome State Fault Refusal := s.run (busRead 0xC0000 15)

/-- A read of a queue's doorbell (R331, R447): the accepted PI, then CI; a part of a word reads 0. -/
def bar2Read (off : Nat) (be : BitVec 4) (m : Mach) : Mach :=
  barRead m true (fun m =>
    let x := queOf m (off / 8)
    emit m (.readData (if be ≠ 15 ∨ m.ctl.st = .dormant then 0 else if off % 8 < 4 then x.pi else x.ci)))

/-- A host read by its place: BAR0 below 2^24, BAR2 from there on (assumption 107). -/
def hostRead (addr : Nat) (be : BitVec 4) (m : Mach) : Mach :=
  if addr < 2 ^ 24 then busRead (addr / 4 * 4) be m else bar2Read (addr / 4 * 4 - 2 ^ 24) be m

/-- LOW_REGISTER_READ (R7, R125, R331): a read of any register; of the lower of a pair, it latches the upper. -/
def execLowRegisterRead (addr : Nat) (be : BitVec 4) (s : State) : Host.Outcome State Fault Refusal := s.run (hostRead addr be)

/-- RC_REGISTER_READ (R5): a read of any register; its RC fields are cleared. -/
def execRcRegisterRead (addr : Nat) (be : BitVec 4) (s : State) : Host.Outcome State Fault Refusal := s.run (hostRead addr be)

/-- Bits of registers that REGISTER_WRITE leaves to the commands that carry their writes: by base, of every instance (assumption 11). -/
def ownBits : List (Nat × Nat) :=
  [(0x48, 0xFFFFFFFF), (0xC0010, 0xFFFFFFFF), (0xB0000, 0x302), (0xB0030, 0x8), (0x81004, 0xFFFFFFFF), (0x82110, 0xFFFFFFFF),
    (0x8211C, 0xFFFFFFFF), (0xA0014, 0xFFFFFFFF), (0xA0020, 0xFFFFFFFF), (0x20024, 0xFFFFFFFF), (0x20030, 0xFFFFFFFF),
    (0xD8014, 0xFFFFFFFF), (0xE0028, 0xFFFFFFFF), (0xE002C, 0xFFFFFFFF)]

/-- The bits of a register that fields of an access type take. -/
def accMask (r : RegRow) (a : Acc) : Word :=
  (r.fields.filter (fun f => f.2.2 == a)).foldl (fun w f => w ||| (BitVec.ofNat 32 (2 ^ f.2.1 - 1) <<< f.1)) 0

/-- The bits that REGISTER_WRITE stores. -/
def rwMask (r : RegRow) : Word := accMask r .rw &&& ~~~ BitVec.ofNat 32 (tget 0 (isort (fun x y => decide (x.1 ≤ y.1)) ownBits) r.base)

/-- A queue that the host may configure now: it created it, and it is not enabled (QUE registers). -/
def queueOpen (m : Mach) (q : Nat) : Bool :=
  let x := queOf m q
  q / 4096 != 0 && x.st != .enabled && !x.lc && !x.hbmRing && (ctxOf m (q / 4096)).st != .sealed && decide (256 ≤ q % 4096)

/-- A completion ring that the host may configure now: any but C0's, while it is not enabled. Completion rings lie in host memory, so none
belongs to a program (R335; assumption 25). -/
def ringOpen (m : Mach) (r : Nat) : Bool := r / 256 != 0 && !(ringOf m r).enable

/-- A write of QUE_Q_CFG: LOG2_SIZE out of range is refused (QUE registers). -/
def writeQueueCfg (m : Mach) (v : Nat) : Mach :=
  let q := selQueue m
  if !queueOpen m q || !within 4 (bits v 0 5) 16 then raiseCtx m F.QUE_EVENT_DENIED 0 (q / 4096)
  else setQue m q (fun x => { x with cr := bits v 16 8, ordered := bitOf v 15, ltiller := bits v 8 3, log2Size := bits v 0 5 })

/-- What is stored of the lower register of a pair: what was written to it last (R7). -/
def lowOf (m : Mach) (a : Nat) (old : Word) : Word := (tget none m.host.wrHold a).getD old

/-- What a write of SHF_TX_EQ or SHF_PAT_CTRL stores (R130, R141). -/
def shfWrite (m : Mach) (r : RegRow) (a : Nat) (v : Word) : Word :=
  if 0xB0010 ≤ r.base ∧ r.base ≤ 0xB001C then txEqWrite m ((a - 0xB0000) / 1024) (word m r.rst a) v
  else if r.base = 0xB0030 then patCtrlWrite (word m r.rst a) v
  else v

/-- Store a plain register: of a pair, the lower part waits for the upper (R7); ring bases go to the selected queue or ring. -/
def storeReg (m : Mach) (r : RegRow) (a : Nat) (v : Word) : Mach :=
  let v := shfWrite m r a v
  let put := fun (m : Mach) (a : Nat) (v : Word) => setWord m r.rst a ((word m r.rst a &&& ~~~ rwMask r) ||| (v &&& rwMask r))
  let q := selQueue m
  let cr := rd m F.QUE_CR_SEL_CR 0
  let queOk := !(a = 0x20008 || a = 0x2000C) || queueOpen m q
  let crOk := !(a = 0x20028 || a = 0x2002C) || ringOpen m cr
  if !queOk then raiseCtx m F.QUE_EVENT_DENIED 0 (q / 4096)
  else if !crOk then raiseCtx m F.QUE_EVENT_DENIED 0 (cr / 256)
  else if pairs.any (fun p => p.1 == a) && rwMask r != 0 then
    setHost m (fun h => { h with wrHold := tset none h.wrHold a (some (v &&& rwMask r)) })
  else match pairs.find? (fun p => p.2 == a) with
    | none => if r.base = 0xB0030 ∧ bits v.toNat 3 1 = 0 then checkersOff (put m a v) ((a - 0xB0000) / 1024) else put m a v
    | some p =>
      if rwMask r = 0 then m
      else if a = 0x2000C then
        let lo := lowOf m p.1 (BitVec.ofNat 32 (queOf m q).base.toNat)
        setHost (setQue m q (fun x => { x with base := v ++ lo })) (fun h => { h with wrHold := tset none h.wrHold p.1 none })
      else if a = 0x2002C then
        let lo := lowOf m p.1 (BitVec.ofNat 32 (ringOf m cr).base.toNat)
        setHost (setRing m cr (fun x => { x with base := v ++ lo })) (fun h => { h with wrHold := tset none h.wrHold p.1 none })
      else
        let m := match tget none m.host.wrHold p.1 with
          | some lo => setWord m 0 p.1 lo
          | none => m
        put (setHost m (fun h => { h with wrHold := tset none h.wrHold p.1 none })) a v

/-- The block vector of an EVENT register (R449). -/
def regVector (r : RegRow) (a : Nat) : Nat := vectorOf ⟨r.base, r.stride, r.rst, 0, 1, .w1c⟩ (if r.stride = 0 then 0 else (a - r.base) / r.stride)

/-- A write of an EVENT register (R5, R213, R348): 1 clears; a flag left set sends its vector again while that is unmasked. CHAFF_LOST stays
while a swap is required. -/
def clearFlags (m : Mach) (r : RegRow) (a : Nat) (v : Word) : Mach :=
  let keep : Word := if a = F.CHF_EVENT_CHAFF_LOST.base ∧ m.chaff.needSwap then 1#32 <<< F.CHF_EVENT_CHAFF_LOST.lo else 0
  let mask := accMask r .w1c
  let m := setWord m r.rst a (word m r.rst a &&& ~~~ (v &&& mask &&& ~~~ keep))
  let vec := regVector r a
  if word m r.rst a &&& mask ≠ 0 ∧ !msixMasked m vec ∧ !m.ctl.d3hot then emit m (.msix vec) else m

/-- Send a vector that is pending and no longer masked (R449). -/
def sendPending (m : Mach) (v : Nat) : Mach :=
  let w := word m 0 (pbaAddr v)
  if w.getLsbD (v % 32) && !msixMasked m v && !m.ctl.d3hot then
    emit (setWord m 0 (pbaAddr v) (w &&& ~~~ (1#32 <<< (v % 32)))) (.msix v)
  else m

/-- A write of the MSI-X table (R449): of a vector control word, only the mask bit. -/
def writeMsix (m : Mach) (a : Nat) (v : Word) : Mach :=
  if a % 16 = 12 then sendPending (setWord m 1 a (v &&& 1)) ((a - 0x18000) / 16) else setWord m 0 a v

/-- A write of the aligned word at `a` (R5, R6, R447, R448, R452). -/
def busWrite (a : Nat) (be : BitVec 4) (v : Word) (m : Mach) : Mach :=
  bar0 m (fun m =>
    if be = 0 || unpowered m a then m
    else
      let there := (rowOf a).isSome || (msixWord m a).isSome
      if be ≠ 15 then
        let m := if there then raiseCount m F.HST_EVENT_PARTIAL_WRITE F.HST_CNT_PARTIAL_WRITE 0 else m
        if a = 0x82110 then ispNext m else m
      else if 0x18000 ≤ a ∧ a < 0x20000 then writeMsix m a v
      else match rowOf a with
        | none => m
        | some r =>
          if accMask r .w1c ≠ 0 then clearFlags m r a v
          else if a = 0x20004 then writeQueueCfg m v.toNat
          else if rwMask r = 0 then m
          else storeReg m r a v)

/-- REGISTER_WRITE (R5, R7, R348, R447). -/
def execRegisterWrite (addr : Nat) (be : BitVec 4) (v : Word) (s : State) : Host.Outcome State Fault Refusal :=
  s.run (busWrite (addr / 4 * 4) be v)

/-- In D0 again, entries that wait are written to their rings, and a GLEAN that waits starts (R338, R445). -/
def backInD0 (m : Mach) : Mach := gleanNext (forEach (m.fab.rings.map (fun r => r.1)) m flushWaiting)

/-- The PCI Express reset of R79: host DMA in progress is abandoned (R339, R410, R453), sessions end (R409), the HST block and the MSI-X table are
cleared; the function is in D0. -/
def pcieClear (m : Mach) : Mach :=
  if !m.ctl.linkTraining then m
  else
    let m := loadDone none m
    let m := if m.flash.reading.isSome then raise (setFlash m (fun f => { f with reading := none })) F.FLS_EVENT_ERR 0 else m
    let m := setHost (wrs m 0 [(F.GEN_GLEAN_CTRL_BUSY, 0), (F.GEN_GLEAN_CTRL_PENDING, 0)]) (fun h => { h with glean := [] })
    let m := setGlume m (fun g => { g with staging := none })
    let m := endSessions m
    let m := { m with regs := m.regs.filter (fun e => e.1 / 65536 != 1) }
    backInD0 (setCtl m (fun c => { c with d3hot := false }))

/-- PCIE_RESET (R79): PERST#, hot reset or link down. -/
def execPcieReset (s : State) : Host.Outcome State Fault Refusal := s.run pcieClear

/-- FUNCTION_LEVEL_RESET (R445). -/
def execFunctionLevelReset (s : State) : Host.Outcome State Fault Refusal := s.run (fun m => if m.ctl.fnReady then pcieClear m else m)

/-- POWER_MANAGEMENT_STATE_CHANGE (R445): everything is kept; back in D0 the pending vectors are sent. -/
def pmChange (d3 : Bool) (m : Mach) : Mach :=
  if !m.ctl.fnReady then m
  else
    let m := setCtl m (fun c => { c with d3hot := d3 })
    if d3 then m
    else
      let ws := (List.range 64).filter (fun k => (word m 0 (0x11000 + 4 * k)) != 0)
      backInD0 (forEach (ws.flatMap (fun k => (List.range 32).map (fun i => 32 * k + i))) m sendPending)

def execPowerManagementStateChange (d3hot : Bool) (s : State) : Host.Outcome State Fault Refusal := s.run (pmChange d3hot)

/-- JTAG_INSTRUCTION (R42, R428): below FULL every instruction but IDCODE acts as BYPASS. What the others do at FULL is not stated. -/
def execJtagInstruction (ir : JtagIr) (s : State) : Host.Outcome State Fault Refusal :=
  let shift := fun (id : Bool) => s.run (fun m =>
    if alive m then emit (setHost m (fun h => { h with jtagId := id })) (.jtag (if id then Config.jtagIdcode else 0)) else m)
  match ir with
  | .idcode => shift true
  | .bypass => shift false
  | .other _ => if alive s.mach && effLevel s.mach = .full then .refused .jtagInstructionUndefined else shift false

/-- UART_STATUS_LINE (R428): once per second; silent at NONE. -/
def uartLine (m : Mach) : Mach :=
  if alive m && decide (levelCode (effLevel m) ≥ 1) && !m.host.uartAt.any (fun t => lessSince m.time.now t giga) then
    let r := draw m
    emit (setHost r.1 (fun h => { h with uartAt := some m.time.now })) (.uart (Config.uartLine r.2))
  else m

def execUartStatusLine (s : State) : Host.Outcome State Fault Refusal := s.run uartLine

end Sys2Proof.Machine
end

