-- ==== Sys2Proof/Machine/Dispatch.lean ====
section
/-!
DEFINITION. Machine/Dispatch.lean: the meaning of every command, one arm per constructor of Instr.
-/

namespace Sys2Proof.Machine

def exec (i : Instr) (s : State) : Host.Outcome State Fault Refusal :=
  match i with
  | .powerGood => Sys2Proof.Machine.execPowerGood s
  | .functionReady => Sys2Proof.Machine.execFunctionReady s
  | .configurationRequest => Sys2Proof.Machine.execConfigurationRequest s
  | .machineReadyEntry => Sys2Proof.Machine.execMachineReadyEntry s
  | .swathTick => Sys2Proof.Machine.execSwathTick s
  | .supplyExcursionStart => Sys2Proof.Machine.execSupplyExcursionStart s
  | .supplyDip => Sys2Proof.Machine.execSupplyDip s
  | .supplyFault => Sys2Proof.Machine.execSupplyFault s
  | .powerGoodLost => Sys2Proof.Machine.execPowerGoodLost s
  | .holdupExpiry => Sys2Proof.Machine.execHoldupExpiry s
  | .moduleReset key => Sys2Proof.Machine.execModuleReset key s
  | .warmReset key => Sys2Proof.Machine.execWarmReset key s
  | .tillerPartialReset key target => Sys2Proof.Machine.execTillerPartialReset key target s
  | .intakePortPartialReset key target => Sys2Proof.Machine.execIntakePortPartialReset key target s
  | .sheafPortPartialReset key target => Sys2Proof.Machine.execSheafPortPartialReset key target s
  | .awnPortPartialReset key target => Sys2Proof.Machine.execAwnPortPartialReset key target s
  | .partialResetTakesEffect kind n => Sys2Proof.Machine.execPartialResetTakesEffect kind n s
  | .partialResetComplete kind n => Sys2Proof.Machine.execPartialResetComplete kind n s
  | .itemReturnsToService kind n => Sys2Proof.Machine.execItemReturnsToService kind n s
  | .stemWatchdogExpiry => Sys2Proof.Machine.execStemWatchdogExpiry s
  | .glumeIntegrityFailure => Sys2Proof.Machine.execGlumeIntegrityFailure s
  | .debugHeaderReset => Sys2Proof.Machine.execDebugHeaderReset s
  | .pcieReset => Sys2Proof.Machine.execPcieReset s
  | .functionLevelReset => Sys2Proof.Machine.execFunctionLevelReset s
  | .powerManagementStateChange d3hot => Sys2Proof.Machine.execPowerManagementStateChange d3hot s
  | .ptpSync h vlan corr origin => Sys2Proof.Machine.execPtpSync h vlan corr origin s
  | .ptpFollowUp h corr origin => Sys2Proof.Machine.execPtpFollowUp h corr origin s
  | .ptpAnnounce h msg => Sys2Proof.Machine.execPtpAnnounce h msg s
  | .delayReqTransmit dom => Sys2Proof.Machine.execDelayReqTransmit dom s
  | .ptpDelayResp h corr rx => Sys2Proof.Machine.execPtpDelayResp h corr rx s
  | .ptpPdelayReq h => Sys2Proof.Machine.execPtpPdelayReq h s
  | .ptpPdelayResp h corr t2 t3 => Sys2Proof.Machine.execPtpPdelayResp h corr t2 t3 s
  | .ptpUnsupportedMessage h => Sys2Proof.Machine.execPtpUnsupportedMessage h s
  | .masterLost dom => Sys2Proof.Machine.execMasterLost dom s
  | .reqDomainWrite v => Sys2Proof.Machine.execReqDomainWrite v s
  | .revertTimer => Sys2Proof.Machine.execRevertTimer s
  | .slewEnd => Sys2Proof.Machine.execSlewEnd s
  | .holdExpired => Sys2Proof.Machine.execHoldExpired s
  | .timNowRead => Sys2Proof.Machine.execTimNowRead s
  | .lowRegisterRead addr be => Sys2Proof.Machine.execLowRegisterRead addr be s
  | .rcRegisterRead addr be => Sys2Proof.Machine.execRcRegisterRead addr be s
  | .registerWrite addr be v => Sys2Proof.Machine.execRegisterWrite addr be v s
  | .encoderEdge ch a b run => Sys2Proof.Machine.execEncoderEdge ch a b run s
  | .index ch run => Sys2Proof.Machine.execIndex ch run s
  | .tooth ch run => Sys2Proof.Machine.execTooth ch run s
  | .ssiReadStart ch dataHigh => Sys2Proof.Machine.execSsiReadStart ch dataHigh s
  | .ssiWord ch pos err crc => Sys2Proof.Machine.execSsiWord ch pos err crc s
  | .ssiTimeout ch => Sys2Proof.Machine.execSsiTimeout ch s
  | .lossOfSignal ch => Sys2Proof.Machine.execLossOfSignal ch s
  | .losClear ch => Sys2Proof.Machine.execLosClear ch s
  | .standstill ch => Sys2Proof.Machine.execStandstill ch s
  | .masterHoldoverExpired => Sys2Proof.Machine.execMasterHoldoverExpired s
  | .triggerIssue port boundary => Sys2Proof.Machine.execTriggerIssue port boundary s
  | .partnerCkDetected port => Sys2Proof.Machine.execPartnerCkDetected port s
  | .trainingFrame port lane frame meas => Sys2Proof.Machine.execTrainingFrame port lane frame meas s
  | .trainFail port => Sys2Proof.Machine.execTrainFail port s
  | .trainBackoffEnd port => Sys2Proof.Machine.execTrainBackoffEnd port s
  | .fastRetrainTimeout port => Sys2Proof.Machine.execFastRetrainTimeout port s
  | .clkLoss port => Sys2Proof.Machine.execClkLoss port s
  | .deskewErr port => Sys2Proof.Machine.execDeskewErr port s
  | .retrain port => Sys2Proof.Machine.execRetrain port s
  | .lpReqL0 port => Sys2Proof.Machine.execLpReqL0 port s
  | .lpReqQuiet port => Sys2Proof.Machine.execLpReqQuiet port s
  | .lpReqDeep port => Sys2Proof.Machine.execLpReqDeep port s
  | .quietIdleTimeout port => Sys2Proof.Machine.execQuietIdleTimeout port s
  | .quietExit port => Sys2Proof.Machine.execQuietExit port s
  | .lowPowerEntry port => Sys2Proof.Machine.execLowPowerEntry port s
  | .testWrite port on => Sys2Proof.Machine.execTestWrite port on s
  | .checkerEnable port rx => Sys2Proof.Machine.execCheckerEnable port rx s
  | .injOne port => Sys2Proof.Machine.execInjOne port s
  | .patternWindowEnd port runs => Sys2Proof.Machine.execPatternWindowEnd port runs s
  | .flitReceived port flit => Sys2Proof.Machine.execFlitReceived port flit s
  | .lctl port flit => Sys2Proof.Machine.execLctl port flit s
  | .replayTimeout port => Sys2Proof.Machine.execReplayTimeout port s
  | .linkDown port => Sys2Proof.Machine.execLinkDown port s
  | .remoteWrite port => Sys2Proof.Machine.execRemoteWrite port s
  | .wrRsp port => Sys2Proof.Machine.execWrRsp port s
  | .wrTimeout port tag => Sys2Proof.Machine.execWrTimeout port tag s
  | .windowOpen idx owner port granary tiller baseKib sizeKib => Sys2Proof.Machine.execWindowOpen idx owner port granary tiller baseKib sizeKib s
  | .windowClose idx => Sys2Proof.Machine.execWindowClose idx s
  | .linePacket port => Sys2Proof.Machine.execLinePacket port s
  | .lineDeadline port line => Sys2Proof.Machine.execLineDeadline port line s
  | .alignmentStart v => Sys2Proof.Machine.execAlignmentStart v s
  | .realignTakesEffect => Sys2Proof.Machine.execRealignTakesEffect s
  | .alignmentPassComplete => Sys2Proof.Machine.execAlignmentPassComplete s
  | .alignmentTimeout => Sys2Proof.Machine.execAlignmentTimeout s
  | .prepareLine parity buf par => Sys2Proof.Machine.execPrepareLine parity buf par s
  | .ispDataWrite v => Sys2Proof.Machine.execIspDataWrite v s
  | .ispDataRead => Sys2Proof.Machine.execIspDataRead s
  | .ispSwap => Sys2Proof.Machine.execIspSwap s
  | .ispSwapCheckComplete => Sys2Proof.Machine.execIspSwapCheckComplete s
  | .ispSwapTakesEffect => Sys2Proof.Machine.execIspSwapTakesEffect s
  | .ispCopyComplete => Sys2Proof.Machine.execIspCopyComplete s
  | .probeArm v => Sys2Proof.Machine.execProbeArm v s
  | .probeCapture => Sys2Proof.Machine.execProbeCapture s
  | .shadowLoad v => Sys2Proof.Machine.execShadowLoad v s
  | .loadDone data => Sys2Proof.Machine.execLoadDone data s
  | .chaffSwap => Sys2Proof.Machine.execChaffSwap s
  | .chaffCopyComplete bad => Sys2Proof.Machine.execChaffCopyComplete bad s
  | .chaffSwapTakesEffect => Sys2Proof.Machine.execChaffSwapTakesEffect s
  | .chaffRefillComplete => Sys2Proof.Machine.execChaffRefillComplete s
  | .chaffPeek v => Sys2Proof.Machine.execChaffPeek v s
  | .doorbell off size v => Sys2Proof.Machine.execDoorbell off size v s
  | .descriptorFetch queue desc => Sys2Proof.Machine.execDescriptorFetch queue desc s
  | .stepIssue ctx lt step rep bad => Sys2Proof.Machine.execStepIssue ctx lt step rep bad s
  | .conv queue seq chk => Sys2Proof.Machine.execConv queue seq chk s
  | .gemm queue seq chk => Sys2Proof.Machine.execGemm queue seq chk s
  | .pool queue seq chk => Sys2Proof.Machine.execPool queue seq chk s
  | .eltw queue seq chk => Sys2Proof.Machine.execEltw queue seq chk s
  | .argmax queue seq chk => Sys2Proof.Machine.execArgmax queue seq chk s
  | .copy queue seq chk => Sys2Proof.Machine.execCopy queue seq chk s
  | .husk queue seq chk => Sys2Proof.Machine.execHusk queue seq chk s
  | .unhusk queue seq chk => Sys2Proof.Machine.execUnhusk queue seq chk s
  | .resize queue seq chk => Sys2Proof.Machine.execResize queue seq chk s
  | .barrier queue seq => Sys2Proof.Machine.execBarrier queue seq s
  | .commit queue seq => Sys2Proof.Machine.execCommit queue seq s
  | .commandComplete queue seq => Sys2Proof.Machine.execCommandComplete queue seq s
  | .refetchComplete queue seq page => Sys2Proof.Machine.execRefetchComplete queue seq page s
  | .rachisFlitCrcFail resends cmd retried read => Sys2Proof.Machine.execRachisFlitCrcFail resends cmd retried read s
  | .replacementLoadsComplete lost => Sys2Proof.Machine.execReplacementLoadsComplete lost s
  | .placementTakesEffect => Sys2Proof.Machine.execPlacementTakesEffect s
  | .selftestComplete t pass => Sys2Proof.Machine.execSelftestComplete t pass s
  | .injectDisarm target => Sys2Proof.Machine.execInjectDisarm target s
  | .injectResidueOnce target => Sys2Proof.Machine.execInjectResidueOnce target s
  | .injectResiduePersistent target => Sys2Proof.Machine.execInjectResiduePersistent target s
  | .injectGranaryParity target => Sys2Proof.Machine.execInjectGranaryParity target s
  | .injectHbmCrc target => Sys2Proof.Machine.execInjectHbmCrc target s
  | .queueEnable => Sys2Proof.Machine.execQueueEnable s
  | .queueDisable => Sys2Proof.Machine.execQueueDisable s
  | .crCfgWrite v => Sys2Proof.Machine.execCrCfgWrite v s
  | .crHeadWrite v => Sys2Proof.Machine.execCrHeadWrite v s
  | .coalescingTimer ring => Sys2Proof.Machine.execCoalescingTimer ring s
  | .ringFetchFailure queue => Sys2Proof.Machine.execRingFetchFailure queue s
  | .completionWriteFailure ring => Sys2Proof.Machine.execCompletionWriteFailure ring s
  | .admitCtx v => Sys2Proof.Machine.execAdmitCtx v s
  | .load data => Sys2Proof.Machine.execLoad data s
  | .unload => Sys2Proof.Machine.execUnload s
  | .release => Sys2Proof.Machine.execRelease s
  | .setShare v => Sys2Proof.Machine.execSetShare v s
  | .scrubComplete ctx badPages => Sys2Proof.Machine.execScrubComplete ctx badPages s
  | .statisticsWindowEnd => Sys2Proof.Machine.execStatisticsWindowEnd s
  | .placementRecordRead => Sys2Proof.Machine.execPlacementRecordRead s
  | .fireSend id => Sys2Proof.Machine.execFireSend id s
  | .fireDeadline id => Sys2Proof.Machine.execFireDeadline id s
  | .fireIntervalEnd id => Sys2Proof.Machine.execFireIntervalEnd id s
  | .directOutputSwitch n on => Sys2Proof.Machine.execDirectOutputSwitch n on s
  | .beacon => Sys2Proof.Machine.execBeacon s
  | .awnStatus port frame roundTripNs => Sys2Proof.Machine.execAwnStatus port frame roundTripNs s
  | .boardLost port board => Sys2Proof.Machine.execBoardLost port board s
  | .diSample samples overload => Sys2Proof.Machine.execDiSample samples overload s
  | .fieldSupplyFault => Sys2Proof.Machine.execFieldSupplyFault s
  | .fieldSupplyRecovered => Sys2Proof.Machine.execFieldSupplyRecovered s
  | .outputCurrentLimit n => Sys2Proof.Machine.execOutputCurrentLimit n s
  | .doHostSet v => Sys2Proof.Machine.execDoHostSet v s
  | .nandProgramComplete res => Sys2Proof.Machine.execNandProgramComplete res s
  | .blockRefresh block weak eraseFail bad => Sys2Proof.Machine.execBlockRefresh block weak eraseFail bad s
  | .retentionScan flags bad => Sys2Proof.Machine.execRetentionScan flags bad s
  | .recordRead v => Sys2Proof.Machine.execRecordRead v s
  | .readDone ok bad => Sys2Proof.Machine.execReadDone ok bad s
  | .restore v => Sys2Proof.Machine.execRestore v s
  | .restoreComplete => Sys2Proof.Machine.execRestoreComplete s
  | .getVersion => Sys2Proof.Machine.execGetVersion s
  | .getCapabilities => Sys2Proof.Machine.execGetCapabilities s
  | .negotiateAlgorithms => Sys2Proof.Machine.execNegotiateAlgorithms s
  | .getDigests => Sys2Proof.Machine.execGetDigests s
  | .getCertificate offset len => Sys2Proof.Machine.execGetCertificate offset len s
  | .challenge nonce => Sys2Proof.Machine.execChallenge nonce s
  | .getMeasurements idx nonce => Sys2Proof.Machine.execGetMeasurements idx nonce s
  | .keyExchange => Sys2Proof.Machine.execKeyExchange s
  | .finish id => Sys2Proof.Machine.execFinish id s
  | .endSession id => Sys2Proof.Machine.execEndSession id s
  | .spdmUnsupportedRequest code => Sys2Proof.Machine.execSpdmUnsupportedRequest code s
  | .stage v image => Sys2Proof.Machine.execStage v image s
  | .stageComplete => Sys2Proof.Machine.execStageComplete s
  | .activate => Sys2Proof.Machine.execActivate s
  | .abort => Sys2Proof.Machine.execAbort s
  | .nonceRead => Sys2Proof.Machine.execNonceRead s
  | .takeOwnership block => Sys2Proof.Machine.execTakeOwnership block s
  | .transferAuth block => Sys2Proof.Machine.execTransferAuth block s
  | .debugAuth block => Sys2Proof.Machine.execDebugAuth block s
  | .returnAuth block => Sys2Proof.Machine.execReturnAuth block s
  | .retireAuth block => Sys2Proof.Machine.execRetireAuth block s
  | .fuseAuth block => Sys2Proof.Machine.execFuseAuth block s
  | .debugGrantExpiry => Sys2Proof.Machine.execDebugGrantExpiry s
  | .cryptoReset => Sys2Proof.Machine.execCryptoReset s
  | .cryptoResetComplete => Sys2Proof.Machine.execCryptoResetComplete s
  | .standbyRequest => Sys2Proof.Machine.execStandbyRequest s
  | .dormantRequest scrub => Sys2Proof.Machine.execDormantRequest scrub s
  | .wakeRequest => Sys2Proof.Machine.execWakeRequest s
  | .standbyDrainStart => Sys2Proof.Machine.execStandbyDrainStart s
  | .drainComplete => Sys2Proof.Machine.execDrainComplete s
  | .standbyEntryComplete => Sys2Proof.Machine.execStandbyEntryComplete s
  | .dormantEntryComplete => Sys2Proof.Machine.execDormantEntryComplete s
  | .wakeComplete => Sys2Proof.Machine.execWakeComplete s
  | .powerControlPeriod meas => Sys2Proof.Machine.execPowerControlPeriod meas s
  | .tillerGate t => Sys2Proof.Machine.execTillerGate t s
  | .droop t => Sys2Proof.Machine.execDroop t s
  | .droopRelease t => Sys2Proof.Machine.execDroopRelease t s
  | .pllRelockComplete t => Sys2Proof.Machine.execPllRelockComplete t s
  | .trimRaise die => Sys2Proof.Machine.execTrimRaise die s
  | .trimLower die => Sys2Proof.Machine.execTrimLower die s
  | .trimSave => Sys2Proof.Machine.execTrimSave s
  | .thermalWarn die temp => Sys2Proof.Machine.execThermalWarn die temp s
  | .thermalLimit die temp => Sys2Proof.Machine.execThermalLimit die temp s
  | .thermalQuar t => Sys2Proof.Machine.execThermalQuar t s
  | .hbmThermal stack temp => Sys2Proof.Machine.execHbmThermal stack temp s
  | .thermalTrip => Sys2Proof.Machine.execThermalTrip s
  | .coolantHigh temp => Sys2Proof.Machine.execCoolantHigh temp s
  | .glean v => Sys2Proof.Machine.execGlean v s
  | .gleanDone ok => Sys2Proof.Machine.execGleanDone ok s
  | .pdelayReqTransmit dom => Sys2Proof.Machine.execPdelayReqTransmit dom s
  | .perstDeassertion => Sys2Proof.Machine.execPerstDeassertion s
  | .jtagInstruction ir => Sys2Proof.Machine.execJtagInstruction ir s
  | .uartStatusLine => Sys2Proof.Machine.execUartStatusLine s

end Sys2Proof.Machine
end

