-- ==== Sys2Proof/Machine/Step.lean ====
section
/-!
DEFINITION. Machine/Step.lean: one step of the module. It takes the command at the front of the queue; with nothing waiting, one cycle of
the 500 MHz time-base clock passes (R86), and an activation that is due goes on (R411; DESIGN CHOICE, assumptions 1 and 124).
-/

namespace Sys2Proof.Machine

def step (s : State) : Host.Outcome State Fault Refusal :=
  match s.pending with
  | [] => .next { s with mach := activateDue (clockTick (fresh s.mach)) }
  | c :: rest => exec c { s with pending := rest }

/-- The command that a table word spells, at the front of the queue; the table gives its rows no bits, so no word spells one. -/
def State.withFetchWord (s : State) (nbits w : Nat) : State :=
  match Sys2Proof.decodeTableWord nbits w with
  | some c => { s with pending := c :: s.pending }
  | none => s

end Sys2Proof.Machine
end

