-- ==== Sys2Proof/Safety.lean ====
section
/-!
DEFINITION. Safety.lean: the terms that claims are made in: a command completes; what stays the same between two machines; the invariants.
-/

namespace Sys2Proof.Machine

/-- The command answers a next state, leaves the queue as it was, and the machine of that next state meets `P`. -/
def Completes (c : Instr) (s : State) (P : Mach → Prop) : Prop := ∃ t, exec c s = .next t ∧ t.pending = s.pending ∧ P t.mach

/-- A part of the machine; `regs` are the register words, `out` what a command sends, which each command sets anew. -/
inductive Part where
  | ctl | fuses | nor | cfg | time | enc | trig | sheaf | wins | intake | align | isp | chaff | fab | eject | flash | glume | power | host | draws
  deriving DecidableEq, Repr

/-- Two machines agree in a part. Outputs held in current limit are the rule R58's own (`settle`) and stand apart. -/
def Part.same (p : Part) (m t : Mach) : Prop :=
  match p with
  | .ctl => t.ctl = m.ctl
  | .fuses => t.fuses = m.fuses
  | .nor => t.nor = m.nor
  | .cfg => t.cfg = m.cfg
  | .time => t.time = m.time
  | .enc => t.enc = m.enc
  | .trig => t.trig = m.trig
  | .sheaf => t.sheaf = m.sheaf
  | .wins => t.wins = m.wins
  | .intake => t.intake = m.intake
  | .align => t.align = m.align
  | .isp => t.isp = m.isp
  | .chaff => t.chaff = m.chaff
  | .fab => t.fab = m.fab
  | .eject => { t.eject with limited := 0 } = { m.eject with limited := 0 }
  | .flash => t.flash = m.flash
  | .glume => t.glume = m.glume
  | .power => t.power = m.power
  | .host => t.host = m.host
  | .draws => t.draws = m.draws

/-- Every part but those named is as it was. -/
def Keeps (but : List Part) (m t : Mach) : Prop := ∀ p, p ∉ but → p.same m t

/-- Every register word but those at the addresses named is as it was; the pending words of R449 (0x1_1000 to 0x1_107C) stand apart: an
event may set a bit there. -/
def RegsKeep (but : List Nat) (m t : Mach) : Prop :=
  ∀ (rst : Word) (a : Nat), a ∉ but → (a < 0x11000 ∨ 0x11080 ≤ a) → word t rst a = word m rst a

/-- The register words are as they were, all of them. -/
def RegsSame (m t : Mach) : Prop := t.regs = m.regs

/-- The local time's nanoseconds lie below 10^9 (R84). -/
def TimeInRange (s : State) : Prop := s.mach.time.now.ns.toNat < 1000000000

/-- The byte memories, the Granaries and the HBM, stand in their canonical form. -/
def MemoriesWf (s : State) : Prop := Memory.wf s.mach.fab.hbm.mem = true ∧ ∀ x ∈ s.mach.fab.tillers, Memory.wf x.2.granary.mem = true

/-- The host may reach the registers: the function is ready and outside D3hot (R74, R445). -/
def HostMay (m : Mach) : Prop := m.ctl.fnReady = true ∧ m.ctl.d3hot = false

/-- The changes of state that R23 allows, and those to POWERING: the end of the hold-up (R50), a thermal trip (R442). The boot is one command
(assumption 8): BOOTING is passed through. -/
def mayChange (a b : ModState) : Bool :=
  match a, b with
  | .powering, .configured => true
  | .powering, .fault => true
  | .booting, .configured => true
  | .configured, .machineReady => true
  | .machineReady, .running => true
  | .machineReady, .degraded => true
  | .running, .degraded => true
  | .degraded, .running => true
  | .machineReady, .configured => true
  | .running, .configured => true
  | .degraded, .configured => true
  | .configured, .standby => true
  | .machineReady, .standby => true
  | .running, .standby => true
  | .degraded, .standby => true
  | .standby, .dormant => true
  | .standby, .configured => true
  | .dormant, .configured => true
  | .fault, .configured => true
  | a, .fault => a != .powering
  | a, .powering => a != .powering
  | _, _ => false

/-- In POWERING the PCI Express function is not ready, and power-good does not stand (R48, R74). -/
def OffIsOff (s : State) : Prop := s.mach.ctl.st = .powering → s.mach.ctl.fnReady = false ∧ s.mach.ctl.powerGood = false

/-- An event register's word after an event may have been raised there: it holds every flag that it held, and this one. -/
def Raised (f : Fld) (i : Nat) (m t : Mach) : Prop :=
  rd t f i = 1 ∧ word t f.rst (f.addr i) = word m f.rst (f.addr i) ||| f.mask

/-- A field counts up by `n` and saturates. -/
def Counted (f : Fld) (i n : Nat) (m t : Mach) : Prop := rd t f i = min (rd m f i + n) (2 ^ f.w - 1)

/-- What a command sends is interrupt vectors only. -/
def OnlyVectors (t : Mach) : Prop := ∀ o ∈ t.out, ∃ v, o = .msix v

end Sys2Proof.Machine
end

