-- ==== Sys2Proof/Certificates/Slice0/Obligations.lean ====
section
/-!
DEFINITION. Certificates/Slice0/Obligations.lean: the statements for the provers. In each, `s` is the state in which a command is run, `t` the
machine of its next state; `Completes` says that there is one and what it holds.
-/

open Sys2Proof Sys2Proof.Machine

/-- A step runs the command at the front of the queue. For every command c and every state s, the step of s with c at the front of its queue
is exec of c on s, whose queue is the rest. With an empty queue a step is one cycle of the time-base clock: everything but the time and
what the last command sent stays (the idle step is the model's choice, assumption 1), unless an activation is due (R411), which goes on
then: module and time base are reset (assumption 124). -/
def Obligations.StepRunsTheFrontCommand : Prop :=
  (∀ (c : Instr) (s : State), step { s with pending := c :: s.pending } = exec c s) ∧
  ∀ s : State, s.pending = [] → ∃ t, step s = .next t ∧ t.pending = [] ∧
    ((s.mach.ctl.powerGood = false ∨ rd s.mach F.GLM_UPD_STATUS_STATE 0 ≠ 4 ∨
        ∃ since, s.mach.glume.activateAt = some since ∧ lessSince (clockTick s.mach).time.now since 2000000 = true) →
      Keeps [.time] s.mach t.mach ∧ RegsSame s.mach t.mach ∧ t.mach.out = []) ∧
    (s.mach.ctl.powerGood = true → rd s.mach F.GLM_UPD_STATUS_STATE 0 = 4 →
      (∀ since, s.mach.glume.activateAt = some since → lessSince (clockTick s.mach).time.now since 2000000 = false) →
      t.mach = activateReset (clockTick (fresh s.mach)))

/-- No command stops the module but an undefined JTAG instruction. Every command but JTAG_INSTRUCTION with an instruction other than IDCODE
and BYPASS answers a next state in every state, and leaves the waiting commands as they were. Such a JTAG instruction below debug level
FULL acts as BYPASS and answers a next state too; at FULL, where the spec names it and gives it no effect, it is refused by name. What the
spec leaves open here is the model's in assumption 74. -/
def Obligations.EveryCommandAnswersANextState : Prop :=
  ∀ (c : Instr) (s : State),
    ((∀ code, c ≠ .jtagInstruction (.other code)) → ∃ t, exec c s = .next t ∧ t.pending = s.pending) ∧
    (∀ code, c = .jtagInstruction (.other code) → alive s.mach = true →
      (effLevel s.mach = .full → exec c s = .refused .jtagInstructionUndefined) ∧
      (effLevel s.mach ≠ .full → ∃ t, exec c s = .next t ∧ t.pending = s.pending))

/-- At reset the local time is in range and the memories are canonical. The state after reset meets the invariant that the local time's
nanoseconds lie below 10^9: SEC, NS and FRAC are 0, nothing is pending, and the memories stand in their canonical form (which values the
memories and the time have at power-on is the model's choice, assumption 3). -/
def Obligations.LocalTimeIsInRangeAtReset : Prop :=
  TimeInRange State.reset ∧ MemoriesWf State.reset ∧ State.reset.mach.time.now = {} ∧ State.reset.pending = []

/-- Every step keeps the local time's nanoseconds below 10^9. For every state whose local time has its nanoseconds below 10^9, every next
state of a step has so too, whatever command was at the front, and whatever the free values are. -/
def Obligations.EveryStepKeepsLocalTimeInRange : Prop :=
  ∀ s t : State, TimeInRange s → step s = .next t → TimeInRange t

/-- Every step keeps the Granaries and the HBM in their canonical form. For every state whose byte memories (each Tiller's Granary and the
HBM) stand in canonical form, addresses strictly rising and no listed byte equal to what an unlisted one reads as, every next state of a
step has them so, whatever command was at the front. -/
def Obligations.EveryStepKeepsTheMemoriesCanonical : Prop :=
  ∀ s t : State, MemoriesWf s → step s = .next t → MemoriesWf t

/-- PTP packets before TIME is applied are discarded and counted. While TIME is not applied and the module has power and is not DORMANT, each
of PTP_SYNC, PTP_FOLLOW_UP, PTP_ANNOUNCE, PTP_DELAY_RESP, PTP_PDELAY_REQ, PTP_PDELAY_RESP and PTP_UNSUPPORTED_MESSAGE raises
GEN_EARLY_DROP.PTP by one (it saturates) and changes no other register and no other part of the machine; SFP+ TX_DISABLE stays as it is.
TX_DISABLE is asserted at reset, and applying TIME is what clears it. -/
def Obligations.PtpIsDiscardedUntilTimeIsApplied : Prop :=
  (∀ (s : State) (h : PtpHead) (c : Instr) (vlan : Option Nat) (corr : Int) (o : Option LTime) (t1 t2 : LTime) (a : Announce),
    s.mach.ctl.timeApplied = false → s.mach.ctl.st ≠ .powering → s.mach.ctl.st ≠ .dormant →
    c ∈ [.ptpSync h vlan corr o, .ptpFollowUp h corr t1, .ptpAnnounce h a, .ptpDelayResp h corr t1, .ptpPdelayReq h,
      .ptpPdelayResp h corr t1 t2, .ptpUnsupportedMessage h] →
    Completes c s (fun t => rd t F.GEN_EARLY_DROP_PTP 0 = min (rd s.mach F.GEN_EARLY_DROP_PTP 0 + 1) (2 ^ F.GEN_EARLY_DROP_PTP.w - 1) ∧
      RegsKeep [F.GEN_EARLY_DROP_PTP.addr 0] s.mach t ∧ Keeps [] s.mach t ∧ t.ctl.txDisable = s.mach.ctl.txDisable)) ∧
  State.reset.mach.ctl.txDisable = true ∧
  ∀ m : Mach, (applyTime m).ctl.timeApplied = true ∧ (applyTime m).ctl.txDisable = false

/-- A Sync of the selected master, or its Follow_Up, measures the offset of its domain. With TIME applied, outside DORMANT and one domain d
configured for the packet: of the selected master and with the mean path delay known, a one-step PTP_SYNC, and a PTP_FOLLOW_UP of a two-
step Sync that waits, set the domain's last offset to receive stamp less origin, corrections and mean path delay (R85: modulo 2^48 s, in
units of 2^-16 ns), count the Sync, and leave nothing waiting; the other domain keeps its state, its servo and its master. With the path
delay not known, they keep origin and receive stamp and change nothing else. A Sync of another sender gives only its VLAN tag; a Follow_Up
of another sender, or one with no Sync waiting, changes nothing. -/
def Obligations.SyncMeasuresTheOffset : Prop :=
  ∀ (s : State) (h : PtpHead) (d : Fin 2) (vlan : Option Nat) (corr : Int) (o : LTime),
    s.mach.ctl.timeApplied = true → s.mach.ctl.st ≠ .powering → s.mach.ctl.st ≠ .dormant → domsOf s.mach h = [d.val] →
    let measured := fun (theta : Int) (t : Mach) =>
      (domOf t d).theta = theta ∧ (domOf t d).measured = true ∧ (domOf t d).pendSync = none ∧
      rd t (if d.val = 0 then F.TIM_SERVO_A_CNT_SYNCS else F.TIM_SERVO_B_CNT_SYNCS) 0 =
        min (rd s.mach (if d.val = 0 then F.TIM_SERVO_A_CNT_SYNCS else F.TIM_SERVO_B_CNT_SYNCS) 0 + 1) (2 ^ F.TIM_SERVO_A_CNT_SYNCS.w - 1) ∧
      (domOf t (1 - d.val)).st = (domOf s.mach (1 - d.val)).st ∧ (domOf t (1 - d.val)).freq = (domOf s.mach (1 - d.val)).freq ∧
      (domOf t (1 - d.val)).integ = (domOf s.mach (1 - d.val)).integ ∧ (domOf t (1 - d.val)).master = (domOf s.mach (1 - d.val)).master
    (fromMaster s.mach d h = true →
      ((domOf s.mach d).delayKnown = true → Completes (.ptpSync h vlan corr (some o)) s
        (measured (smod (fine (rxStamp s.mach h.eth) - (fine o + corr + (domOf s.mach d).delay))))) ∧
      ((domOf s.mach d).delayKnown = false → Completes (.ptpSync h vlan corr (some o)) s (fun t =>
        domOf t d = { domOf s.mach d with vlan := vlan, lastSync := some (fine o + corr, rxStamp s.mach h.eth), pendSync := none } ∧
        domOf t (1 - d.val) = domOf s.mach (1 - d.val) ∧ Keeps [.time] s.mach t ∧ RegsSame s.mach t)) ∧
      (∀ rx c, (domOf s.mach d).pendSync = some (rx, c) →
        ((domOf s.mach d).delayKnown = true → Completes (.ptpFollowUp h corr o) s
          (measured (smod (fine rx - (fine o + c + corr + (domOf s.mach d).delay))))) ∧
        ((domOf s.mach d).delayKnown = false → Completes (.ptpFollowUp h corr o) s (fun t =>
          domOf t d = { domOf s.mach d with lastSync := some (fine o + c + corr, rx), pendSync := none } ∧
          domOf t (1 - d.val) = domOf s.mach (1 - d.val) ∧ Keeps [.time] s.mach t ∧ RegsSame s.mach t)))) ∧
    (fromMaster s.mach d h = false → Completes (.ptpSync h vlan corr (some o)) s (fun t =>
      domOf t d = { domOf s.mach d with vlan := vlan } ∧ domOf t (1 - d.val) = domOf s.mach (1 - d.val) ∧
      Keeps [.time] s.mach t ∧ RegsSame s.mach t)) ∧
    (fromMaster s.mach d h = false ∨ (domOf s.mach d).pendSync = none → Completes (.ptpFollowUp h corr o) s (fun t =>
      Keeps [] s.mach t ∧ RegsSame s.mach t ∧ t.out = []))

/-- A two-step Sync of the selected master is held for its Follow_Up. With TIME applied, outside DORMANT, one domain d configured for the
packet, a two-step PTP_SYNC of the selected master keeps its receive stamp, its correction and the VLAN tag; one of another sender gives
only its VLAN tag. No register and no other part of the machine but the time base changes, and neither the local time nor the other
domain. -/
def Obligations.TwoStepSyncWaitsForItsFollowUp : Prop :=
  ∀ (s : State) (h : PtpHead) (d : Fin 2) (vlan : Option Nat) (corr : Int),
    s.mach.ctl.timeApplied = true → s.mach.ctl.st ≠ .powering → s.mach.ctl.st ≠ .dormant → domsOf s.mach h = [d.val] →
    Completes (.ptpSync h vlan corr none) s (fun t =>
      domOf t d = (if fromMaster s.mach d h
        then { domOf s.mach d with vlan := vlan, pendSync := some (rxStamp s.mach h.eth, corr) } else { domOf s.mach d with vlan := vlan }) ∧
      domOf t (1 - d.val) = domOf s.mach (1 - d.val) ∧ t.time.now = s.mach.time.now ∧ Keeps [.time] s.mach t ∧ RegsSame s.mach t)

/-- The servo follows R92: integrator, output and clamp. For a domain that has measured before and expects no step, a measured offset that is
no outlier and does not step the local time (the module is not in BOOTING or CONFIGURED, the domain is not the active one, or the offset
is at most STEP_NS) gives, with e the part of it that no slew removes: i' = i + KI e, raw = -(KP e + i'); the output is raw clamped to
plus or minus 200,000 ppb, and the integrator becomes i' unless the clamp acts, when it keeps its value. The local time is not stepped.
Units are 2^-32 ppb, e in 2^-16 ns; that the servo runs on e is the model's choice (assumption 17). -/
def Obligations.ServoIsProportionalIntegral : Prop :=
  ∀ (m : Mach) (d : Fin 2) (theta e i raw : Int),
    (domOf m d).measured = true → (domOf m d).stepDue = false → isOutlier m (domOf m d) theta = false →
    (maySte m = false ∨ d.val ≠ active m ∨ theta.natAbs ≤ m.cfg.time.stepNs * 65536) →
    e = theta + (domOf m d).offset / 2 ^ 24 →
    i = (domOf m d).integ + (domCfg m d).ki * e → raw = -((domCfg m d).kp * e * 256 + i) →
    (domOf (measure m d theta) d).freq = max (-(200000 * 2 ^ 32)) (min (200000 * 2 ^ 32) raw) ∧
    (domOf (measure m d theta) d).integ =
      (if -(200000 * 2 ^ 32) ≤ raw ∧ raw ≤ 200000 * 2 ^ 32 then i else (domOf m d).integ) ∧
    (measure m d theta).time.now = m.time.now

/-- PTP_ANNOUNCE, DELAY_REQ_TRANSMIT, PDELAY_REQ_TRANSMIT and the responses do what R88 and R92 give. With TIME applied, outside DORMANT, one
domain d configured for the packet: an Announce replaces its sender's last one on its port, the best data set becomes the master, and a
LISTENING or HOLDOVER domain turns ACQUIRING; a Delay_Req (end-to-end) or Pdelay_Req (peer-to-peer) of an enabled domain with a master
leaves with the last Sync's VLAN tag and its transmit stamp is kept (that none leaves without a master is the model's choice for
Pdelay_Req, assumption 100); a Delay_Resp of the selected master, and a Pdelay_Resp on the domain's port, to a request that waits set the
mean path delay from the four stamps, and others change nothing; a Pdelay_Req of a peer-to-peer domain is answered with the stamps of its
arrival and departure; an unsupported message is counted (the count saturates). What the spec leaves open here is the model's in
assumption 14. -/
def Obligations.PtpRequestsAndResponses : Prop :=
  ∀ (s : State) (h : PtpHead) (d : Fin 2) (corr : Int) (a : Announce) (r t2 t3 : LTime),
    s.mach.ctl.timeApplied = true → s.mach.ctl.st ≠ .powering → s.mach.ctl.st ≠ .dormant → domsOf s.mach h = [d.val] →
    let x := domOf s.mach d
    let heard := (h.eth.val, { a with sender := h.sender }) :: x.foreign.filter (fun b => !(b.1 == h.eth.val && b.2.sender == h.sender))
    Completes (.ptpAnnounce h a) s (fun t =>
      (domOf t d).foreign = heard ∧ (domOf t d).master = (bestOf heard).map (fun b => b.2) ∧
      (domOf t d).st = (if x.st = .listening ∨ x.st = .holdover then .acquiring else x.st) ∧
      domOf t (1 - d.val) = domOf s.mach (1 - d.val) ∧ t.time.now = s.mach.time.now) ∧
    (∀ p2p : Bool, (domCfg s.mach d).enable = true → (domCfg s.mach d).p2p = p2p →
      (x.master.isSome = true → Completes (if p2p then .pdelayReqTransmit d else .delayReqTransmit d) s (fun t =>
        domOf t d = { x with reqSent := some (txStamp s.mach x.eth) } ∧
        t.out = [.ptp (x.eth == 1) (if p2p then 2 else 1) x.vlan] ∧ Keeps [.time] s.mach t ∧ RegsSame s.mach t)) ∧
      (x.master = none → Completes (if p2p then .pdelayReqTransmit d else .delayReqTransmit d) s (fun t =>
        t.out = [] ∧ Keeps [] s.mach t ∧ RegsSame s.mach t)) ∧
      Completes (if p2p then .delayReqTransmit d else .pdelayReqTransmit d) s (fun t => t.out = [] ∧ Keeps [] s.mach t ∧ RegsSame s.mach t)) ∧
    (∀ (q : LTime) (y : Int × LTime), (domCfg s.mach d).p2p = false → fromMaster s.mach d h = true → x.reqSent = some q → x.lastSync = some y →
      Completes (.ptpDelayResp h corr r) s (fun t =>
        domOf t d = { x with delay := (smod (fine y.2 - y.1) + (tdiff r q - corr)) / 2, delayKnown := true, reqSent := none } ∧
        Keeps [.time] s.mach t ∧ RegsSame s.mach t)) ∧
    ((domCfg s.mach d).p2p = true ∨ fromMaster s.mach d h = false ∨ x.reqSent = none ∨ x.lastSync = none →
      Completes (.ptpDelayResp h corr r) s (fun t => Keeps [] s.mach t ∧ RegsSame s.mach t)) ∧
    (∀ q : LTime, (domCfg s.mach d).p2p = true → x.eth = h.eth.val → x.reqSent = some q →
      Completes (.ptpPdelayResp h corr t2 t3) s (fun t =>
        domOf t d = { x with delay := (tdiff (rxStamp s.mach h.eth) q - tdiff t3 t2 - corr) / 2, delayKnown := true, reqSent := none } ∧
        Keeps [.time] s.mach t ∧ RegsSame s.mach t)) ∧
    ((domCfg s.mach d).p2p = false ∨ x.eth ≠ h.eth.val ∨ x.reqSent = none →
      Completes (.ptpPdelayResp h corr t2 t3) s (fun t => Keeps [] s.mach t ∧ RegsSame s.mach t)) ∧
    Completes (.ptpPdelayReq h) s (fun t =>
      t.out = (if (domCfg s.mach d).p2p then [.ptp (h.eth.val == 1) (if (domCfg s.mach d).pdOneStep then 3 else 4) x.vlan,
        .ptpStamp (h.eth.val == 1) (rxStamp s.mach h.eth), .ptpStamp (h.eth.val == 1) (txStamp s.mach h.eth)] else []) ∧
      Keeps [] s.mach t ∧ RegsSame s.mach t) ∧
    Completes (.ptpUnsupportedMessage h) s (fun t =>
      let f := if d.val = 0 then F.TIM_SERVO_A_CNT_DISCARDED else F.TIM_SERVO_B_CNT_DISCARDED
      rd t f 0 = min (rd s.mach f 0 + 1) 255 ∧ RegsKeep [f.addr 0] s.mach t ∧ Keeps [] s.mach t)

/-- MASTER_LOST, REQ_DOMAIN_WRITE, REVERT_TIMER, SLEW_END and HOLD_EXPIRED: the active domain is lost, requested, reverted to. A master lost
takes a LOCKED domain to HOLDOVER with its frozen integrator as output, and an ACQUIRING one to LISTENING; if the active domain leaves
LOCKED, TIM_EVENT.LOST is raised, and exactly with AUTO_SWITCH and the other domain LOCKED that one becomes active, with SWITCH. A write
of TIM_CTRL stores its three fields; a request for the other domain takes effect at once if that is LOCKED, with SWITCH, and is held
otherwise. The revert timer switches to the requested domain under REVERT once that has been LOCKED for 10 s, and does nothing before. A
slew that has nothing left and whose closing ramp has run ends; until then SLEW_END does nothing. HOLD_EXPIRED, once HOLD_S has run out,
of a REQUIRED time base in holdover outside DORMANT clears VALID, raises HOLD_EXPIRED and takes a module with ticks to CONFIGURED; with
time left, or not REQUIRED, it does nothing. None of them steps the local time. What the spec leaves open here is the model's in
assumptions 44, 45 and 100. -/
def Obligations.DomainSwitchover : Prop :=
  (∀ (s : State) (d : Fin 2) (a : Announce), (domOf s.mach d).master = some a →
    Completes (.masterLost d) s (fun t =>
      (domOf t d).master = none ∧ t.time.now = s.mach.time.now ∧
      ((domOf s.mach d).st = .acquiring → (domOf t d).st = .listening ∧ t.time.activeB = s.mach.time.activeB ∧ RegsSame s.mach t) ∧
      ((domOf s.mach d).st = .locked → (domOf t d).st = .holdover ∧
        (domOf t d).freq = max (-(200000 * 2 ^ 32)) (min (200000 * 2 ^ 32) (-(domOf s.mach d).integ)) ∧
        (d.val ≠ active s.mach → t.time.activeB = s.mach.time.activeB ∧ RegsSame s.mach t) ∧
        (d.val = active s.mach → rd t F.TIM_EVENT_LOST 0 = 1 ∧
          (flag s.mach F.TIM_CTRL_AUTO_SWITCH 0 = true → (domOf s.mach (1 - d.val)).st = .locked →
            active t = 1 - d.val ∧ rd t F.TIM_EVENT_SWITCH 0 = 1) ∧
          (flag s.mach F.TIM_CTRL_AUTO_SWITCH 0 = false ∨ (domOf s.mach (1 - d.val)).st ≠ .locked → active t = d.val))))) ∧
  (∀ (s : State) (v : Word), HostMay s.mach → Completes (.reqDomainWrite v) s (fun t =>
    rd t F.TIM_CTRL_REQ_DOMAIN 0 = v.toNat % 2 ∧ rd t F.TIM_CTRL_AUTO_SWITCH 0 = v.toNat / 2 % 2 ∧
    rd t F.TIM_CTRL_REVERT 0 = v.toNat / 4 % 2 ∧ t.time.now = s.mach.time.now ∧
    (v.toNat % 2 = active s.mach → active t = active s.mach ∧ t.time.reqHeld = false) ∧
    (v.toNat % 2 ≠ active s.mach → (domOf s.mach (v.toNat % 2)).st = .locked →
      active t = v.toNat % 2 ∧ t.time.reqHeld = false ∧ rd t F.TIM_EVENT_SWITCH 0 = 1) ∧
    (v.toNat % 2 ≠ active s.mach → (domOf s.mach (v.toNat % 2)).st ≠ .locked →
      active t = active s.mach ∧ t.time.reqHeld = true))) ∧
  (∀ s : State, flag s.mach F.TIM_CTRL_REVERT 0 = true → rd s.mach F.TIM_CTRL_REQ_DOMAIN 0 ≠ active s.mach →
    (lockedFor s.mach (rd s.mach F.TIM_CTRL_REQ_DOMAIN 0) (10 * 1000000000) = true →
      Completes .revertTimer s (fun t => active t = rd s.mach F.TIM_CTRL_REQ_DOMAIN 0 ∧ rd t F.TIM_EVENT_SWITCH 0 = 1 ∧
        t.time.now = s.mach.time.now ∧ Keeps [.time, .host] s.mach t)) ∧
    (lockedFor s.mach (rd s.mach F.TIM_CTRL_REQ_DOMAIN 0) (10 * 1000000000) = false →
      Completes .revertTimer s (fun t => Keeps [] s.mach t ∧ RegsSame s.mach t))) ∧
  (∀ s : State, s.mach.time.slew = true →
    (s.mach.time.closing = true → s.mach.time.rampLeft = 0 → (domOf s.mach (active s.mach)).offset = 0 →
      Completes .slewEnd s (fun t => t.time.slew = false ∧ t.time.slewFreq = 0 ∧ (domOf t (active t)).offset = 0 ∧
        t.time.now = s.mach.time.now ∧ Keeps [.time] s.mach t ∧ RegsSame s.mach t)) ∧
    (s.mach.time.closing = false ∨ s.mach.time.rampLeft ≠ 0 ∨ (domOf s.mach (active s.mach)).offset ≠ 0 →
      Completes .slewEnd s (fun t => Keeps [] s.mach t ∧ RegsSame s.mach t))) ∧
  (∀ (s : State) (since : LTime), timeHoldover s.mach = true → (domOf s.mach (active s.mach)).heldAt = some since →
    (s.mach.cfg.time.required = true → s.mach.ctl.st ≠ .dormant → lessSince s.mach.time.now since (s.mach.cfg.time.holdS * 1000000000) = false →
      Completes .holdExpired s (fun t => t.time.valid = false ∧ rd t F.TIM_EVENT_HOLD_EXPIRED 0 = 1 ∧ t.time.now = s.mach.time.now ∧
        t.ctl.st = (if ticking s.mach then .configured else s.mach.ctl.st))) ∧
    (s.mach.cfg.time.required = false ∨ s.mach.ctl.st = .dormant ∨ lessSince s.mach.time.now since (s.mach.cfg.time.holdS * 1000000000) = true →
      Completes .holdExpired s (fun t => Keeps [] s.mach t ∧ RegsSame s.mach t)))

/-- A read of TIM_NOW_FRAC, or of the lower register of a pair, latches the upper ones; other host reads. With the function ready and outside
D3hot: TIM_NOW_READ returns the FRAC part of the local time, in 2^-16 ns, and its NS and SEC parts are held for the reads that follow; a
read of the lower register of each pair of R7 that is powered returns its enabled bytes and holds the value that the upper register has
then; neither changes a register or another part of the machine but the host interface. A read of a queue's doorbell, at BAR2, returns the
accepted PI, or CI in its upper word, when all bytes are enabled (the place of BAR2 in the command's address is the model's choice,
assumption 107). Before the function is ready a read gets Unsupported Request, in D3hot nothing; where there is no register it returns 0,
and these change nothing. In the block DBG, at a debug level above NONE, a read returns a free value (the model's choice, assumption 99).
What the spec leaves open here is the model's in assumption 69. -/
def Obligations.HostReadsLatchTheUpperParts : Prop :=
  (∀ s : State, HostMay s.mach → tget none s.mach.host.hold 0xC0000 = none →
    Completes .timNowRead s (fun t =>
      let now := s.mach.time.now
      t.out = [.readData (BitVec.ofNat 32 (now.frac.toNat / 2 ^ 24))] ∧
      tget none t.host.hold 0xC0004 = some (BitVec.ofNat 32 now.ns.toNat) ∧
      tget none t.host.hold 0xC0008 = some (BitVec.ofNat 32 (now.sec.toNat % 2 ^ 32)) ∧
      tget none t.host.hold 0xC000C = some (BitVec.ofNat 32 (now.sec.toNat / 2 ^ 32)) ∧ Keeps [.host] s.mach t ∧ RegsSame s.mach t)) ∧
  (∀ (s : State) (p : Nat × Nat) (be : BitVec 4), HostMay s.mach → p ∈ pairs → be ≠ 0 → unpowered s.mach p.1 = false →
    Completes (.lowRegisterRead p.1 be) s (fun t =>
      t.out = [.readData (BitVec.ofNat 32 (readValue s.mach p.1) &&& byteMask be)] ∧
      tget none t.host.hold p.2 = some (BitVec.ofNat 32 (regValue s.mach p.2)) ∧ Keeps [.host] s.mach t ∧ RegsSame s.mach t)) ∧
  (∀ (s : State) (q : Fin 65536), HostMay s.mach → s.mach.ctl.st ≠ .dormant →
    Completes (.lowRegisterRead (2 ^ 24 + 8 * q) 15) s (fun t => t.out = [.readData (queOf s.mach q).pi] ∧ Keeps [] s.mach t ∧ RegsSame s.mach t) ∧
    Completes (.lowRegisterRead (2 ^ 24 + 8 * q + 4) 15) s (fun t => t.out = [.readData (queOf s.mach q).ci] ∧ Keeps [] s.mach t ∧
      RegsSame s.mach t)) ∧
  ∀ (s : State) (a : Nat) (be : BitVec 4) (c : Instr), alive s.mach = true → c = .lowRegisterRead a be ∨ c = .rcRegisterRead a be →
    (s.mach.ctl.fnReady = false → Completes c s (fun t => t.out = [.unsupported] ∧ Keeps [] s.mach t ∧ RegsSame s.mach t)) ∧
    (s.mach.ctl.fnReady = true → s.mach.ctl.d3hot = true → Completes c s (fun t => t.out = [] ∧ Keeps [] s.mach t ∧ RegsSame s.mach t)) ∧
    (HostMay s.mach → a < 2 ^ 24 → be ≠ 0 → rowOf (a / 4 * 4) = none → msixWord s.mach (a / 4 * 4) = none → dbgServes s.mach a = false →
      Completes c s (fun t => t.out = [.readData 0] ∧ Keeps [] s.mach t ∧ RegsSame s.mach t)) ∧
    (HostMay s.mach → be ≠ 0 → dbgServes s.mach a = true → Completes c s (fun t =>
      t.out = [.readData (BitVec.ofNat 32 (Config.free s.mach.draws) &&& byteMask be)] ∧ Keeps [.draws] s.mach t ∧ RegsSame s.mach t))

/-- A read clears the RC fields of its register and nothing else. RC_REGISTER_READ of a register that exists and is powered, returns the
enabled bytes of the value that it had; every bit of an RC field then stands at its reset value, every other bit of the word, every other
register word and every part of the machine but the host interface is as before. The three registers whose read draws or moves on
(GLM_NONCE_0, GEN_REC_DATA, INT_ISP_DATA) stand apart: a read of all four bytes acts as NONCE_READ, PLACEMENT_RECORD_READ and
ISP_DATA_READ do. -/
def Obligations.RcFieldsClearOnRead : Prop :=
  (∀ (s : State) (a : Nat) (be : BitVec 4) (r : RegRow), HostMay s.mach → be ≠ 0 → a % 4 = 0 → unpowered s.mach a = false → rowOf a = some r →
    a ∉ [0xF0020, 0x124, 0x82110] →
    Completes (.rcRegisterRead a be) s (fun t =>
      t.out = [.readData (BitVec.ofNat 32 (readValue s.mach a) &&& byteMask be)] ∧
      (∀ i < 32, (word t r.rst a).getLsbD i =
        if ∃ f ∈ r.fields, f.2.2 = .rc ∧ f.1 ≤ i ∧ i < f.1 + f.2.1 then r.rst.getLsbD i else (word s.mach r.rst a).getLsbD i) ∧
      (∀ (q : Word) (b : Nat), b ≠ a → word t q b = word s.mach q b) ∧ Keeps [.host] s.mach t)) ∧
  ∀ s : State, HostMay s.mach → s.mach.ctl.st ≠ .dormant →
    exec (.rcRegisterRead 0xF0020 15) s = exec .nonceRead s ∧ exec (.rcRegisterRead 0x124 15) s = exec .placementRecordRead s ∧
    exec (.rcRegisterRead 0x82110 15) s = exec .ispDataRead s

/-- A register write stores RW bits, clears W1C bits that are written 1, and a partial write stores nothing. A REGISTER_WRITE of all four
bytes to a powered register changes exactly the bits of its RW fields that the command owns (assumption 11 names the others), SHF_TX_EQ
after its caps; of a pair that is no ring base the lower word is held until the upper is written, and both then stand; of an EVENT
register it clears exactly the flags written 1 (CHAFF_LOST stays while a swap is required); of an MSI-X table word it stores all, of a
vector control word the mask. A write of one to three bytes of a register stores nothing, raises HST_EVENT.PARTIAL_WRITE and counts it. A
write where there is no register, without any byte, or to an unpowered block does nothing. QUE_Q_CFG (LOG2_SIZE 4 to 16), QUE_Q_RING and
QUE_CR_BASE are stored for the selected queue or ring while it is open to the host, and otherwise the write only raises QUE_EVENT.DENIED.
The caps of SHF_TX_EQ, and that the block DBG takes no write, are the model's choices (assumptions 105, 99). SHF_PAT_CTRL and partial
writes of INT_ISP_DATA have their own statements. What the spec leaves open here is the model's in assumptions 25 and 69. -/
def Obligations.RegisterWritesFollowTheAccessTypes : Prop :=
  (∀ (s : State) (a : Nat) (v : Word) (r : RegRow), HostMay s.mach → a % 4 = 0 → unpowered s.mach a = false → rowOf a = some r →
    a ∉ [0x20004, 0x20008, 0x2000C, 0x20028, 0x2002C] → (∀ p ∈ pairs, p.1 ≠ a ∧ p.2 ≠ a) → (a < 0x18000 ∨ 0x20000 ≤ a) →
    accMask r .w1c = 0 → r.base ≠ 0xB0030 →
    Completes (.registerWrite a 15 v) s (fun t =>
      word t r.rst a = (word s.mach r.rst a &&& ~~~ rwMask r) ||| (shfWrite s.mach r a v &&& rwMask r) ∧
      (∀ (q : Word) (b : Nat), b ≠ a → word t q b = word s.mach q b) ∧ Keeps [] s.mach t ∧ t.out = [])) ∧
  (∀ (s : State) (p : Nat × Nat) (v : Word) (lo hi : RegRow), HostMay s.mach → p ∈ pairs → p.1 ∉ [0x20008, 0x20028] →
    rowOf p.1 = some lo → rowOf p.2 = some hi → unpowered s.mach p.1 = false → unpowered s.mach p.2 = false → rwMask lo ≠ 0 → rwMask hi ≠ 0 →
    accMask lo .w1c = 0 → accMask hi .w1c = 0 →
    Completes (.registerWrite p.1 15 v) s (fun t => tget none t.host.wrHold p.1 = some (v &&& rwMask lo) ∧ Keeps [.host] s.mach t ∧
      RegsSame s.mach t ∧ t.out = []) ∧
    (∀ w : Word, tget none s.mach.host.wrHold p.1 = some w → Completes (.registerWrite p.2 15 v) s (fun t =>
      word t 0 p.1 = w ∧ word t hi.rst p.2 = (word s.mach hi.rst p.2 &&& ~~~ rwMask hi) ||| (v &&& rwMask hi) ∧
      tget none t.host.wrHold p.1 = none ∧ (∀ (q : Word) (b : Nat), b ≠ p.1 → b ≠ p.2 → word t q b = word s.mach q b) ∧
      Keeps [.host] s.mach t ∧ t.out = []))) ∧
  (∀ (s : State) (k : Fin 8192) (v : Word), HostMay s.mach → Completes (.registerWrite (0x18000 + 4 * k.val) 15 v) s (fun t =>
    word t (if k.val % 4 = 3 then 1 else 0) (0x18000 + 4 * k.val) = (if k.val % 4 = 3 then v &&& 1 else v) ∧
    (∀ (q : Word) (b : Nat), b ≠ 0x18000 + 4 * k.val → (b < 0x11000 ∨ 0x11100 ≤ b) → word t q b = word s.mach q b) ∧ Keeps [] s.mach t ∧
    OnlyVectors t)) ∧
  (∀ (s : State) (a : Nat) (v : Word) (r : RegRow), HostMay s.mach → a % 4 = 0 → unpowered s.mach a = false → rowOf a = some r →
    (a < 0x18000 ∨ 0x20000 ≤ a) → accMask r .w1c ≠ 0 →
    Completes (.registerWrite a 15 v) s (fun t =>
      (∀ i < 32, (word t r.rst a).getLsbD i = ((word s.mach r.rst a).getLsbD i && !(v.getLsbD i && (accMask r .w1c).getLsbD i &&
        !(decide (a = F.CHF_EVENT_CHAFF_LOST.base ∧ i = F.CHF_EVENT_CHAFF_LOST.lo) && s.mach.chaff.needSwap)))) ∧
      (∀ (q : Word) (b : Nat), b ≠ a → word t q b = word s.mach q b) ∧ Keeps [] s.mach t)) ∧
  (∀ (s : State) (a : Nat) (be : BitVec 4) (v : Word), HostMay s.mach → a % 4 = 0 → unpowered s.mach a = false → (rowOf a).isSome = true →
    be ≠ 0 → be ≠ 15 → a ≠ 0x82110 →
    Completes (.registerWrite a be v) s (fun t => rd t F.HST_EVENT_PARTIAL_WRITE 0 = 1 ∧
      rd t F.HST_CNT_PARTIAL_WRITE 0 = min (rd s.mach F.HST_CNT_PARTIAL_WRITE 0 + 1) (2 ^ F.HST_CNT_PARTIAL_WRITE.w - 1) ∧
      RegsKeep [F.HST_EVENT_PARTIAL_WRITE.addr 0, F.HST_CNT_PARTIAL_WRITE.addr 0] s.mach t ∧ Keeps [.host] s.mach t)) ∧
  (∀ (s : State) (a : Nat) (be : BitVec 4) (v : Word), HostMay s.mach → a % 4 = 0 →
    (be = 0 ∨ unpowered s.mach a = true ∨ (rowOf a = none ∧ msixWord s.mach a = none)) →
    Completes (.registerWrite a be v) s (fun t => t.out = [] ∧ Keeps [] s.mach t ∧ RegsSame s.mach t)) ∧
  ∀ (s : State) (v : Word), HostMay s.mach → unpowered s.mach 0x20004 = false →
    let q := selQueue s.mach
    let r := rd s.mach F.QUE_CR_SEL_CR 0
    let denied : Mach → Prop := fun t => rd t F.QUE_EVENT_DENIED 0 = 1 ∧ RegsKeep [F.QUE_EVENT_DENIED.addr 0] s.mach t ∧ Keeps [.host] s.mach t
    let queueIs : Queue → Mach → Prop := fun x t => queOf t q = x ∧ (∀ k, k ≠ q → queOf t k = queOf s.mach k) ∧
      t.fab = { s.mach.fab with queues := t.fab.queues } ∧ RegsSame s.mach t ∧ t.out = []
    let ringIs : Ring → Mach → Prop := fun x t => ringOf t r = x ∧ (∀ k, k ≠ r → ringOf t k = ringOf s.mach k) ∧
      t.fab = { s.mach.fab with rings := t.fab.rings } ∧ RegsSame s.mach t ∧ t.out = []
    let held : Nat → Mach → Prop := fun a t => tget none t.host.wrHold a = some (v &&& 0xFFFFF000#32) ∧ Keeps [.host] s.mach t ∧ RegsSame s.mach t ∧ t.out = []
    (queueOpen s.mach q = true → 4 ≤ v.toNat % 32 → v.toNat % 32 ≤ 16 → Completes (.registerWrite 0x20004 15 v) s (fun t =>
      queueIs { queOf s.mach q with
        cr := v.toNat / 65536 % 256, ordered := v.getLsbD 15, ltiller := v.toNat / 256 % 8,
        log2Size := v.toNat % 32 } t ∧ Keeps [.fab] s.mach t)) ∧
    (queueOpen s.mach q = false ∨ v.toNat % 32 < 4 ∨ 16 < v.toNat % 32 → Completes (.registerWrite 0x20004 15 v) s denied) ∧
    (queueOpen s.mach q = true → Completes (.registerWrite 0x20008 15 v) s (held 0x20008) ∧
      Completes (.registerWrite 0x2000C 15 v) s (fun t =>
        queueIs { queOf s.mach q with base := v ++ (tget none s.mach.host.wrHold 0x20008).getD (BitVec.ofNat 32 (queOf s.mach q).base.toNat) } t ∧
        tget none t.host.wrHold 0x20008 = none ∧ Keeps [.fab, .host] s.mach t)) ∧
    (queueOpen s.mach q = false → ∀ a ∈ [0x20008, 0x2000C], Completes (.registerWrite a 15 v) s denied) ∧
    (ringOpen s.mach r = true → Completes (.registerWrite 0x20028 15 v) s (held 0x20028) ∧
      Completes (.registerWrite 0x2002C 15 v) s (fun t =>
        ringIs { ringOf s.mach r with base := v ++ (tget none s.mach.host.wrHold 0x20028).getD (BitVec.ofNat 32 (ringOf s.mach r).base.toNat) } t ∧
        tget none t.host.wrHold 0x20028 = none ∧ Keeps [.fab, .host] s.mach t)) ∧
    (ringOpen s.mach r = false → ∀ a ∈ [0x20028, 0x2002C], Completes (.registerWrite a 15 v) s denied)

/-- PERST#, the function's resets and its power states do what R73, R74, R79 and R445 give. PERST_DEASSERTION starts link training of a module
that has power. FUNCTION_READY makes the function ready; until then a configuration request is answered Retry, afterwards it succeeds and
says what R444 gives: vendor, device, subsystem by ordering code, class, serial number, the capabilities and no other, link, payload and
read request sizes, tags, power states, the two BARs; and neither changes anything. PCIE_RESET of a port in use, and FUNCTION_LEVEL_RESET
of a ready one, end every session, a GLEAN under way or pending, a read of records and the fetch of a stage, put the HST block and the
MSI-X table to their reset values and leave D3hot; fuses, serial NOR, configuration, time, position, ports, windows, contexts, Tillers
(but for when a command was last in flight there), commands in flight and outputs stay. Otherwise they do nothing. Into D3hot everything
is kept. Back in D0, entries that wait go to their rings, a pending GLEAN starts, and vectors that were held are sent; with none of these
only the vectors are. What the spec leaves open here is the model's in assumption 72. -/
def Obligations.PcieFunctionResetsAndPowerStates : Prop :=
  (∀ s : State, alive s.mach = true →
    Completes .perstDeassertion s (fun t => t.ctl = { s.mach.ctl with perstHigh := true, linkTraining := true } ∧
      Keeps [.ctl] s.mach t ∧ RegsSame s.mach t ∧ t.out = []) ∧
    Completes .functionReady s (fun t => t.ctl = { s.mach.ctl with fnReady := true } ∧ Keeps [.ctl] s.mach t ∧ RegsSame s.mach t) ∧
    (s.mach.ctl.linkTraining = true → Completes .configurationRequest s (fun t =>
      t.out = [if s.mach.ctl.fnReady then .cfgOk {
        vendor := 0x1F7B, device := 8, subsystem := BitVec.ofNat 16 s.mach.nor.code, classCode := 0x120000, serial := s.mach.nor.serial,
        caps := [.pciExpress, .powerManagement, .msix, .aer, .doe, .serialNumber], topSpeed := 32000, widths := [1, 2, 4, 8], maxPayload := 512,
        maxRead := 4096, tagBits := 10, maxTags := 256, d3hot := true, noSoftReset := true, aspmL1 := true, aspmL0s := false, flr := true,
        bars := [(0, 16777216), (2, 524288)] } else .cfgRetry] ∧ Keeps [] s.mach t ∧ RegsSame s.mach t))) ∧
  (∀ (s : State) (c : Instr), s.mach.ctl.linkTraining = true → (c = .pcieReset ∨ (c = .functionLevelReset ∧ s.mach.ctl.fnReady = true)) →
    Completes c s (fun t => t.ctl = { s.mach.ctl with d3hot := false } ∧ t.glume.sessions = [] ∧ t.host.glean = [] ∧
      (∀ (q : Word) (a : Nat), a / 65536 = 1 → word t q a = q) ∧
      rd t F.GEN_GLEAN_CTRL_BUSY 0 = 0 ∧ rd t F.GEN_GLEAN_CTRL_PENDING 0 = 0 ∧ t.flash.reading = none ∧ t.glume.staging = none ∧
      t.fab.ctxs = s.mach.fab.ctxs ∧ (∀ k, { tilOf t k with lastCmd := none } = { tilOf s.mach k with lastCmd := none }) ∧
      t.fab.inflight = s.mach.fab.inflight ∧ t.fab.hbm = s.mach.fab.hbm ∧ ((∀ x ∈ s.mach.fab.queues, x.2.waiting = []) → t.fab = s.mach.fab) ∧
      Keeps [.ctl, .chaff, .fab, .flash, .glume, .host, .draws] s.mach t)) ∧
  (∀ s : State, s.mach.ctl.linkTraining = false ∨ s.mach.ctl.fnReady = false →
    (s.mach.ctl.linkTraining = false → Completes .pcieReset s (fun t => Keeps [] s.mach t ∧ RegsSame s.mach t ∧ t.out = [])) ∧
    Completes .functionLevelReset s (fun t => Keeps [] s.mach t ∧ RegsSame s.mach t ∧ t.out = [])) ∧
  ∀ s : State, s.mach.ctl.fnReady = true →
    Completes (.powerManagementStateChange true) s (fun t => t.ctl = { s.mach.ctl with d3hot := true } ∧ Keeps [.ctl] s.mach t ∧
      RegsSame s.mach t ∧ t.out = []) ∧
    Completes (.powerManagementStateChange false) s (fun t => t.ctl = { s.mach.ctl with d3hot := false } ∧ Keeps [.ctl, .fab, .host] s.mach t ∧
      t.fab.ctxs = s.mach.fab.ctxs ∧ (∀ k, { tilOf t k with lastCmd := none } = { tilOf s.mach k with lastCmd := none }) ∧
      t.fab.inflight = s.mach.fab.inflight ∧ (∀ (q : Word) (a : Nat), a < 0x11000 ∨ 0x11100 ≤ a → a ∉ [0x48, 0x4C, 0x50] → word t q a = word s.mach q a) ∧
      ((∀ x ∈ s.mach.fab.queues, x.2.waiting = []) → rd s.mach F.GEN_GLEAN_CTRL_PENDING 0 = 0 →
        t.fab = s.mach.fab ∧ t.host = s.mach.host ∧ OnlyVectors t))

/-- JTAG and the UART of J8 act by the effective debug level. While the module has power: IDCODE shifts the identity out, BYPASS shifts a 0;
the UART sends its status line at TELEMETRY or above, not within a second of the last, and is silent at NONE. None changes a register. The
identity and the line's text are free (assumption 7). What the spec leaves open here is the model's in assumption 74. -/
def Obligations.BoardInterfacesByDebugLevel : Prop :=
  ∀ s : State, alive s.mach = true →
    Completes (.jtagInstruction .idcode) s (fun t => t.out = [.jtag Config.jtagIdcode] ∧ t.host.jtagId = true ∧ Keeps [.host] s.mach t ∧
      RegsSame s.mach t) ∧
    Completes (.jtagInstruction .bypass) s (fun t => t.out = [.jtag 0] ∧ t.host.jtagId = false ∧ Keeps [.host] s.mach t ∧
      RegsSame s.mach t) ∧
    (effLevel s.mach ≠ .none → (∀ u, s.mach.host.uartAt = some u → lessSince s.mach.time.now u 1000000000 = false) →
      Completes .uartStatusLine s (fun t => t.out = [.uart (Config.uartLine (Config.free s.mach.draws))] ∧
        t.host = { s.mach.host with uartAt := some s.mach.time.now } ∧ Keeps [.draws, .host] s.mach t ∧ RegsSame s.mach t)) ∧
    (effLevel s.mach = .none ∨ (∃ u, s.mach.host.uartAt = some u ∧ lessSince s.mach.time.now u 1000000000 = true) → Completes .uartStatusLine s (fun t => t.out = [] ∧ Keeps [] s.mach t ∧ RegsSame s.mach t))

/-- GLEAN samples the record under the next number; GLEAN_DONE writes it to the host. With the function ready and outside D3hot, GLEAN with
its request bit, none under way, counts the number up by one, becomes busy and samples the record for the queues from QUEUE_FROM on; with
one under way it is held PENDING, and with one pending already it is ignored; without the bit only QUEUE_FROM is stored, and where the
host may not write nothing happens. GLEAN_DONE of a DMA that succeeded writes exactly that record to the address, raises GLEAN_DONE and
ends BUSY; one that failed writes nothing, raises GLEAN_FAIL and sets FAILED. A request that is pending starts then, under the next
number, but not in D3hot. With none under way GLEAN_DONE does nothing. What the spec leaves open here is the model's in assumption 73. -/
def Obligations.GleanRecordIsSampledAndWritten : Prop :=
  let nothing : State → Mach → Prop := fun s t => Keeps [] s.mach t ∧ RegsSame s.mach t ∧ t.out = []
  (∀ (s : State) (v : Word), (¬ HostMay s.mach → Completes (.glean v) s (nothing s)) ∧
    (HostMay s.mach → v.getLsbD 31 = false → Completes (.glean v) s (fun t => rd t F.GEN_GLEAN_CTRL_QUEUE_FROM 0 = v.toNat % 65536 ∧
      gleanNum t = gleanNum s.mach ∧ t.out = [] ∧ RegsKeep [0x48] s.mach t ∧ Keeps [] s.mach t))) ∧
  (∀ (s : State) (ok : Bool), rd s.mach F.GEN_GLEAN_CTRL_BUSY 0 = 0 → Completes (.gleanDone ok) s (nothing s)) ∧
  (∀ (s : State) (v : Word), HostMay s.mach → v.getLsbD 31 = true →
    (rd s.mach F.GEN_GLEAN_CTRL_BUSY 0 = 0 → Completes (.glean v) s (fun t =>
      gleanNum t = (gleanNum s.mach + 1) % 2 ^ 64 ∧ rd t F.GEN_GLEAN_CTRL_BUSY 0 = 1 ∧
      rd t F.GEN_GLEAN_CTRL_QUEUE_FROM 0 = v.toNat % 65536 ∧
      t.host.glean = gleanRecord (wr (fresh s.mach) F.GEN_GLEAN_CTRL_QUEUE_FROM 0 (v.toNat % 65536)) (gleanNum t) (v.toNat % 65536) ∧
      t.out = [] ∧ RegsKeep [0x48, 0x4C, 0x50] s.mach t ∧ Keeps [.host] s.mach t)) ∧
    (rd s.mach F.GEN_GLEAN_CTRL_BUSY 0 = 1 → rd s.mach F.GEN_GLEAN_CTRL_PENDING 0 = 0 → Completes (.glean v) s (fun t =>
      rd t F.GEN_GLEAN_CTRL_PENDING 0 = 1 ∧ rd t F.GEN_GLEAN_CTRL_QUEUE_FROM 0 = v.toNat % 65536 ∧
      t.host = s.mach.host ∧ gleanNum t = gleanNum s.mach ∧ RegsKeep [0x48] s.mach t ∧ Keeps [] s.mach t)) ∧
    (rd s.mach F.GEN_GLEAN_CTRL_BUSY 0 = 1 → rd s.mach F.GEN_GLEAN_CTRL_PENDING 0 = 1 → Completes (.glean v) s (fun t =>
      t.out = [] ∧ Keeps [] s.mach t ∧ RegsSame s.mach t))) ∧
  (∀ (s : State) (ok : Bool), rd s.mach F.GEN_GLEAN_CTRL_BUSY 0 = 1 → rd s.mach F.GEN_GLEAN_CTRL_PENDING 0 = 1 →
    Completes (.gleanDone ok) s (fun t => rd t (if ok then F.GEN_EVENT_GLEAN_DONE else F.GEN_EVENT_GLEAN_FAIL) 0 = 1 ∧
      rd t F.GEN_GLEAN_CTRL_BUSY 0 = b2n (!s.mach.ctl.d3hot) ∧ rd t F.GEN_GLEAN_CTRL_PENDING 0 = b2n s.mach.ctl.d3hot ∧
      gleanNum t = (if s.mach.ctl.d3hot then gleanNum s.mach else (gleanNum s.mach + 1) % 2 ^ 64) ∧ Keeps [.host] s.mach t)) ∧
  ∀ s : State, rd s.mach F.GEN_GLEAN_CTRL_BUSY 0 = 1 → rd s.mach F.GEN_GLEAN_CTRL_PENDING 0 = 0 →
    Completes (.gleanDone true) s (fun t => (∃ r, t.out = .dmaWrite s.mach.host.gleanAddr s.mach.host.glean :: r) ∧
      rd t F.GEN_EVENT_GLEAN_DONE 0 = 1 ∧ rd t F.GEN_GLEAN_CTRL_BUSY 0 = 0 ∧ rd t F.GEN_GLEAN_CTRL_FAILED 0 = 0 ∧
      RegsKeep [0x24, 0x48] s.mach t ∧ Keeps [.host] s.mach t) ∧
    Completes (.gleanDone false) s (fun t => OnlyVectors t ∧ rd t F.GEN_EVENT_GLEAN_FAIL 0 = 1 ∧
      rd t F.GEN_GLEAN_CTRL_BUSY 0 = 0 ∧ rd t F.GEN_GLEAN_CTRL_FAILED 0 = 1 ∧
      RegsKeep [0x24, 0x48] s.mach t ∧ Keeps [.host] s.mach t)

/-- No step changes the module state otherwise than R23, R50 and R442 allow. For every command and every state in which POWERING means that
the function is not ready and power-good does not stand: where the command answers a next state, the module state is the same as before,
or the change is one of R23's table, or one to POWERING: at the end of the hold-up (R50) or by a thermal trip (R442), which that table
does not list. The boot is one command of the model (assumption 8), so a power-on or a module reset shows the state that it ends in. An
idle step changes the state so too, by an activation that is due (assumption 124), and otherwise not at all. -/
def Obligations.EveryStateChangeIsInTheTable : Prop :=
  (∀ (c : Instr) (s t : State), OffIsOff s → exec c s = .next t →
    t.mach.ctl.st = s.mach.ctl.st ∨ mayChange s.mach.ctl.st t.mach.ctl.st = true) ∧
  ∀ s t : State, OffIsOff s → s.pending = [] → step s = .next t → t.mach.ctl.st = s.mach.ctl.st ∨
    (rd s.mach F.GLM_UPD_STATUS_STATE 0 = 4 ∧ (t.mach.ctl.st = .configured ∨ t.mach.ctl.st = .fault))

/-- Every step keeps: in POWERING the function is not ready and power-good does not stand. For every state in which POWERING means that the
PCI Express function is not ready and power-good does not stand, every next state of a step is such a state too; the state after reset is
one. -/
def Obligations.EveryStepKeepsOffOff : Prop :=
  OffIsOff State.reset ∧ ∀ s t : State, OffIsOff s → step s = .next t → OffIsOff t

/-- Supply excursions, dips and faults, the loss of power-good, the end of the hold-up and a thermal trip. An excursion of the input starts
the filter and changes nothing else; back within 100 µs it is SUPPLY_DIP, raised and counted (it saturates), and nothing else; beyond, a
module that has power enters FAULT with PREV_STATE the state before, gives up drain, alignment and power requests, switches every output
off, and keeps fuses, NOR, configuration, time, encoders, Sheaf and Glume. Losing power-good closes the flash (its buffers are empty; in
READ_ONLY the audit entries that wait are counted in AUDIT_LOST). When the hold-up ends, and at a thermal trip, the module is in POWERING
with no output on and local time 0, its link down, and keeps fuses and NOR; after the trip POWER_GOOD does nothing until power-good is
lost. With no excursion pending SUPPLY_DIP and SUPPLY_FAULT do nothing. What the spec leaves open here is the model's in assumption 8. -/
def Obligations.SupplySupervision : Prop :=
  (∀ s : State, s.mach.ctl.powerGood = true →
    Completes .supplyExcursionStart s (fun t => t.ctl = { s.mach.ctl with supplyOut := true } ∧ Keeps [.ctl] s.mach t ∧ RegsSame s.mach t) ∧
    Completes .powerGoodLost s (fun t => t.ctl = { s.mach.ctl with powerGood := false, supplyOut := false } ∧ t.flash.bufSys = 0 ∧
      t.flash.bufAudit = [] ∧ t.flash.bufReject = [] ∧ Keeps [.ctl, .flash] s.mach t ∧
      RegsKeep (if rd s.mach F.FLS_HEALTH_STATE 0 = 3 then [F.FLS_CNT_AUDIT_LOST.addr 0] else []) s.mach t)) ∧
  (∀ s : State, s.mach.ctl.supplyOut = true →
    Completes .supplyDip s (fun t => t.ctl = { s.mach.ctl with supplyOut := false } ∧ Raised F.GEN_EVENT_SUPPLY_DIP 0 s.mach t ∧
      Counted F.GEN_CNT_SUPPLY_DIP 0 1 s.mach t ∧ OnlyVectors t ∧ Keeps [.ctl, .host] s.mach t ∧
      RegsKeep [F.GEN_EVENT_SUPPLY_DIP.addr 0, F.GEN_CNT_SUPPLY_DIP.addr 0] s.mach t) ∧
    (alive s.mach = true → Completes .supplyFault s (fun t => t.ctl.st = .fault ∧
      (s.mach.ctl.st ≠ .fault → t.ctl.prev = s.mach.ctl.st ∧ rd t F.GEN_EVENT_STATE_CHANGE 0 = 1) ∧
      t.ctl.supplyOut = false ∧ t.ctl.drain = false ∧ t.ctl.align = false ∧ t.ctl.powerReq = none ∧ t.ctl.heldReqs = [] ∧
      t.ctl.waking = false ∧ doOn t = 0 ∧
      Keeps [.ctl, .intake, .fab, .eject, .flash, .host, .draws] s.mach t))) ∧
  (∀ s : State, s.mach.ctl.supplyOut = false → ∀ c ∈ [Instr.supplyDip, .supplyFault], Completes c s (fun t => Keeps [] s.mach t ∧ RegsSame s.mach t)) ∧
  ∀ s : State, alive s.mach = true →
    (s.mach.ctl.powerGood = true → Completes .holdupExpiry s (fun t => Keeps [] s.mach t ∧ RegsSame s.mach t)) ∧
    (s.mach.ctl.powerGood = false → Completes .holdupExpiry s (fun t => t.ctl.st = .powering ∧ t.ctl.tripped = s.mach.ctl.tripped ∧
      t.time = {} ∧ t.fuses = s.mach.fuses ∧ t.nor = s.mach.nor ∧ doOn t = 0 ∧ t.out = [.linkDown])) ∧
    Completes .thermalTrip s (fun t => t.ctl.st = .powering ∧ t.ctl.tripped = true ∧ t.time = {} ∧ t.fuses = s.mach.fuses ∧
      t.nor = s.mach.nor ∧ doOn t = 0 ∧ t.out = [.linkDown] ∧ powerGood t = t ∧
      (powerGoodLost t).ctl = { t.ctl with tripped := false })

/-- POWER_GOOD boots the slot that R71 chooses, of those that pass their checks, and enters FAULT when none does. From POWERING, not tripped
and without power-good, with local time 0: the ACTIVE slot is tried unless its CONFIRMED bit is 0 and TRIAL is 0; with that bit 0 a TRIAL
above 0 counts down first. A slot passes with an image in it whose checks 1 to 7 pass. The ACTIVE slot runs if it passes, else the other
if that passes; REJECT shows why the one that does not run was rejected, 0 if it was not tried. If none passes the module is in FAULT with
PREV_STATE BOOTING, no running slot and REJECT the other slot's code. RETIRED tries none. The slot that runs holds the image in force, its
early checks and digests pass, TIME, CAMERA and EARLY_IO are applied, and the module is CONFIGURED, unless every Tiller is lost: with one
not fused off and none quarantined before, it is CONFIGURED. Fuses but for a ledger entry that was missing or a RETIRE that was due, and
the slots of the NOR but for a wipe that was due, are kept. A module that is not in POWERING, or is tripped, takes no notice. What the
spec leaves open here is the model's in assumptions 4, 5, 8 and 102. -/
def Obligations.PowerGoodBootsAValidSlot : Prop :=
  (∀ s : State, s.mach.ctl.st = .powering → s.mach.ctl.tripped = false → s.mach.ctl.powerGood = false →
    let m := testQuarantined (bootStart (wiped s.mach true [])) (quarantined s.mach)
    let b := bcOf m.1.nor
    let act := slotOf (b.active % 2)
    let good := bitOf b.confirmed (slotNo act)
    let m1 := if good = false ∧ b.trial ≠ 0 then writeBc m.1 b.active (b.trial - 1) b.confirmed else m.1
    let a := if good = false ∧ b.trial = 0 then (8, m1) else trySlot m1 act m.2
    let o := trySlot a.2 (otherSlot act) m.2
    Completes .powerGood s (fun t => t.ctl.powerGood = true ∧ (t.ctl.st = .configured ∨ t.ctl.st = .fault) ∧ t.time.now = {} ∧
      (t.fuses.life ≠ .retired →
        (a.1 = 0 → t.ctl.runSlot = some act ∧ rd t F.GEN_BOOT_STATUS_REJECT 0 = 0) ∧
        (a.1 ≠ 0 → o.1 = 0 → t.ctl.runSlot = some (otherSlot act) ∧ rd t F.GEN_BOOT_STATUS_REJECT 0 = a.1) ∧
        (a.1 ≠ 0 → o.1 ≠ 0 → t.ctl.st = .fault ∧ t.ctl.prev = .booting ∧ t.ctl.runSlot = none ∧ rd t F.GEN_BOOT_STATUS_REJECT 0 = o.1)) ∧
      (t.fuses.life = .retired → t.ctl.st = .fault ∧ t.ctl.prev = .booting ∧ t.ctl.runSlot = none) ∧
      (t.ctl.st = .configured → t.ctl.runSlot.isSome = true) ∧
      (∀ sl : Slot, t.ctl.runSlot = some sl →
        slotImage t sl = some t.cfg ∧ earlyCode t.fuses (some t.cfg) = 0 ∧ digestsOk t.cfg false = true ∧
        t.ctl.timeApplied = true ∧ t.ctl.cameraApplied = true ∧ t.ctl.txDisable = false ∧ t.ctl.earlyApplied = true ∧
        (quarantined s.mach = [] → (∃ k : Fin 8, t.fuses.tillerOff.getLsbD k = false) → t.ctl.st = .configured)) ∧
      (s.mach.fuses.unlogged = none → s.mach.glume.retireDue = false → t.fuses = s.mach.fuses) ∧
      (s.mach.glume.retireDue = true → t.fuses.life = .retired) ∧
      (s.mach.glume.wiping = false → t.nor.slotA = s.mach.nor.slotA ∧ t.nor.slotB = s.mach.nor.slotB) ∧
      (s.mach.glume.wiping = true → t.nor.slotA = none ∧ t.nor.slotB = none))) ∧
  ∀ s : State, s.mach.ctl.st ≠ .powering ∨ s.mach.ctl.tripped = true → Completes .powerGood s (fun t => Keeps [] s.mach t ∧ RegsSame s.mach t)

/-- Module and warm resets, by the host, the watchdog, Glume and the debug header, with their causes. With the function ready and outside
D3hot. Module reset, with power-good: local time starts again at 0, the link goes down, RESETS counts, CAUSE names the requester, and the
module ends in CONFIGURED or FAULT. Warm reset: the module ends in CONFIGURED, keeps local time, fuses and the running image, and no
command is in flight. The host's requests act with key 0x5A: MODULE_RESET always in FAULT, otherwise both as FLAGS[1] allows, with
ACCESS_DENIED where it does not; a wrong key does nothing, nor does WARM_RESET in FAULT; while a warm reset waits for its scrubs another
is counted in IGNORED. While Stem cores run (CONFIGURED or with ticks, no warm reset waiting), the watchdog takes a warm reset, and a
module reset at the second expiry within 10 s. A Glume integrity failure and, at debug level FULL, the reset of J8 are module resets.
Between the loss of power-good and the end of the hold-up a module reset does nothing (the model's choice, assumption 104). What a module
reset keeps beside what R79 names is assumption 33. What the spec leaves open here is the model's in assumption 34. -/
def Obligations.ModuleAndWarmResets : Prop :=
  let module : Nat → State → Mach → Prop := fun cause s t => (t.ctl.st = .configured ∨ t.ctl.st = .fault) ∧ t.time.now = {} ∧
    rd t F.GEN_RESET_CAUSE_CAUSE 0 = cause ∧ Counted F.GEN_RESET_CAUSE_RESETS 0 1 s.mach t ∧ .linkDown ∈ t.out ∧ t.ctl.fnReady = false
  let warm : Nat → State → Mach → Prop := fun cause s t => t.ctl.st = .configured ∧ t.time.now = s.mach.time.now ∧ t.fuses = s.mach.fuses ∧
    t.cfg = s.mach.cfg ∧ t.ctl.runSlot = s.mach.ctl.runSlot ∧ t.ctl.fnReady = s.mach.ctl.fnReady ∧ t.fab.inflight = [] ∧
    rd t F.GEN_RESET_CAUSE_CAUSE 0 = cause ∧ Counted F.GEN_RESET_CAUSE_RESETS 0 1 s.mach t
  let ignored : State → Mach → Prop := fun s t => t.out = [] ∧ Keeps [] s.mach t ∧ RegsSame s.mach t
  let denied : State → Mach → Prop := fun s t => t.out = [.accessDenied] ∧ Keeps [] s.mach t ∧ RegsSame s.mach t
  (∀ s : State, HostMay s.mach →
    (s.mach.ctl.st = .fault ∨ hostResets s.mach = true →
      (s.mach.ctl.powerGood = true → Completes (.moduleReset 0x5A) s (module 1 s)) ∧
      (s.mach.ctl.powerGood = false → Completes (.moduleReset 0x5A) s (ignored s))) ∧
    (s.mach.ctl.st ≠ .fault → hostResets s.mach = false → Completes (.moduleReset 0x5A) s (denied s)) ∧
    (s.mach.ctl.st ≠ .fault → hostResets s.mach = true → s.mach.ctl.warmDue = false → Completes (.warmReset 0x5A) s (warm 5 s)) ∧
    (s.mach.ctl.st ≠ .fault → hostResets s.mach = true → s.mach.ctl.warmDue = true → Completes (.warmReset 0x5A) s (fun t =>
      Counted F.GEN_RESET_CAUSE_IGNORED 0 1 s.mach t ∧ RegsKeep [F.GEN_RESET_CAUSE_IGNORED.addr 0] s.mach t ∧ Keeps [] s.mach t)) ∧
    (s.mach.ctl.st ≠ .fault → hostResets s.mach = false → Completes (.warmReset 0x5A) s (denied s)) ∧
    (s.mach.ctl.st = .fault → Completes (.warmReset 0x5A) s (ignored s)) ∧
    (∀ key : BitVec 8, key ≠ 0x5A → Completes (.moduleReset key) s (ignored s) ∧ Completes (.warmReset key) s (ignored s))) ∧
  (∀ s : State, s.mach.ctl.st = .configured ∨ ticking s.mach = true → s.mach.ctl.warmDue = false →
    let again := ∃ e : LTime, s.mach.ctl.lastWatchdog = some e ∧ lessSince s.mach.time.now e 10000000000 = true
    (¬ again → Completes .stemWatchdogExpiry s (fun t => warm 6 s t ∧ t.ctl.lastWatchdog = some s.mach.time.now)) ∧
    (again → s.mach.ctl.powerGood = true → Completes .stemWatchdogExpiry s (module 3 s))) ∧
  ∀ s : State, alive s.mach = true → (s.mach.ctl.powerGood = true → Completes .glumeIntegrityFailure s (module 2 s)) ∧
    (effLevel s.mach = .full → s.mach.ctl.powerGood = true → Completes .debugHeaderReset s (module 4 s)) ∧
    (effLevel s.mach ≠ .full → Completes .debugHeaderReset s (ignored s))

/-- A partial reset is requested once per item, ignored and counted where the item is off or in reset, with the right key only. With the
function ready and outside D3hot, key 0x5A and a target in range, outside FAULT: the item joins the resets as requested, with the time and
the tick of the request, and nothing else changes; a request for an item already in reset, one in DORMANT, one for a Tiller or an intake
port in STANDBY, and any while a warm reset waits for its scrubs, is counted in GEN_RESET_CAUSE.IGNORED and changes nothing else; in
STANDBY one for a Sheaf or Awn port takes effect at once. A wrong key, a target out of range, or FAULT: nothing. What the spec leaves open
here is the model's in assumption 36. -/
def Obligations.PartialResetsAreRequested : Prop :=
  let req : ItemKind → BitVec 8 → BitVec 4 → Instr := fun k key n => match k with
    | .tiller => .tillerPartialReset key n
    | .intake => .intakePortPartialReset key n
    | .sheaf => .sheafPortPartialReset key n
    | .awn => .awnPortPartialReset key n
  let top : ItemKind → Nat := fun k => match k with
    | .tiller => 8
    | .awn => 8
    | .intake => 16
    | .sheaf => 16
  ∀ (s : State) (k : ItemKind) (n : BitVec 4), HostMay s.mach →
    (n.toNat < top k → s.mach.ctl.st ≠ .fault →
      (resetting s.mach k n.toNat = true ∨ s.mach.ctl.warmDue = true ∨ s.mach.ctl.st = .dormant ∨
        (s.mach.ctl.st = .standby ∧ (k = .tiller ∨ k = .intake)) → Completes (req k 0x5A n) s (fun t =>
        Counted F.GEN_RESET_CAUSE_IGNORED 0 1 s.mach t ∧ RegsKeep [F.GEN_RESET_CAUSE_IGNORED.addr 0] s.mach t ∧ Keeps [] s.mach t)) ∧
      (resetting s.mach k n.toNat = false → s.mach.ctl.warmDue = false → s.mach.ctl.st ≠ .dormant → s.mach.ctl.st ≠ .standby →
        Completes (req k 0x5A n) s (fun t =>
          t.ctl = { s.mach.ctl with resets := s.mach.ctl.resets ++
            [{ kind := k, item := n.toNat, phase := .requested, at_ := s.mach.time.now, tick := s.mach.ctl.tickCount }] } ∧
          Keeps [.ctl] s.mach t ∧ RegsSame s.mach t)) ∧
      (resetting s.mach k n.toNat = false → s.mach.ctl.warmDue = false → s.mach.ctl.st = .standby → k = .sheaf ∨ k = .awn →
        Completes (req k 0x5A n) s (fun t => phaseIs t k n.toNat .inReset = true ∧ t.ctl.st = .standby))) ∧
    ∀ key : BitVec 8, key ≠ 0x5A ∨ top k ≤ n.toNat ∨ s.mach.ctl.st = .fault → Completes (req k key n) s (fun t => Keeps [] s.mach t ∧ RegsSame s.mach t)

/-- What a partial reset clears as it takes effect, and when its item returns. A loss of time or of the master that is due comes first (R27).
As a requested reset then takes effect, at a tick boundary that has come since the request or 1 ms after it: a Tiller that is not fused
off is in reset, without owner tags and with no injection but a persistent one; an intake port is in reset and keeps no line packet to
come; a Sheaf port is OFF and dark with an empty link layer, also out of TEST; an Awn port is in reset, its fire commands are dropped and
their decisions carry DEADLINE_MISSED and DROPPED. A request that is not due stays. Out of RUNNING no state changes; fuses, NOR,
configuration, time and encoders stay. When a dark Sheaf port's logic is out of reset it trains from DETECT, if it is assigned or set for
a test. When a reset completes, an item whose port's link is back returns at once if no tick boundary can follow, else it waits for one; a
quarantined Tiller goes through its self-test first. At the boundary that comes since, the item returns: it is out of the list and of
reset. What the spec leaves open here is the model's in assumption 36. -/
def Obligations.PartialResetsTakeEffectAndComplete : Prop :=
  (∀ (s : State) (k : ItemKind) (n : Fin 16),
    let m := applyLosses (fresh s.mach)
    (∃ r ∈ m.ctl.resets, r.kind = k ∧ r.item = n.val ∧ partialDue m r = true) →
    Completes (.partialResetTakesEffect k n) s (fun t => phaseIs t k n .inReset = true ∧ phaseIs t k n .requested = false ∧
      (k = .tiller → n.val < 8 → (tilOf m n).st ≠ .fusedOff → (tilOf t n).st = .reset ∧ (tilOf t n).granary.owner = [] ∧
        (tilOf t n).inject = { persistent := (tilOf m n).inject.persistent }) ∧
      (k = .intake → (ipOf t n).inReset = true ∧ (ipOf t n).recent = []) ∧
      (k = .sheaf → (portOf t n).phy = .off ∧ (portOf t n).dark = true ∧ (portOf t n).replay = []) ∧
      (k = .awn → (awnOf t n).inReset = true ∧ (∀ f ∈ t.eject.fires, f.valve < 2048 → f.valve / 256 ≠ n.val) ∧
        ∀ f ∈ m.eject.fires, f.valve < 2048 → f.valve / 256 = n.val → ∀ d ∈ t.eject.decisions, d.id ∈ f.decs →
          d.status = 0x30 ∧ d.flags.testBit 1 = true) ∧
      (m.ctl.st ≠ .running → t.ctl.st = m.ctl.st) ∧ t.fuses = m.fuses ∧ t.nor = m.nor ∧ t.cfg = m.cfg ∧
      t.time = m.time ∧ t.enc = m.enc)) ∧
  (∀ (s : State) (k : ItemKind) (n : Fin 16),
    let m := applyLosses (fresh s.mach)
    (∀ r ∈ m.ctl.resets, r.kind = k → r.item = n.val → partialDue m r = false) →
    Completes (.partialResetTakesEffect k n) s (fun t => Keeps [] m t ∧ RegsSame m t)) ∧
  (∀ (s : State) (n : Fin 16), phaseIs s.mach .sheaf n .inReset = true → (portOf s.mach n).dark = true →
    (assigned s.mach n = true → Completes (.partialResetComplete .sheaf n) s (fun t =>
      (portOf t n).phy = .detect ∧ (portOf t n).dark = false ∧ phaseIs t .sheaf n .inReset = true ∧ Keeps [.sheaf] s.mach t)) ∧
    (testSet s.mach n = true → Completes (.partialResetComplete .sheaf n) s (fun t =>
      (portOf t n).phy = .detect ∧ (portOf t n).dark = false ∧ t.ctl.st = s.mach.ctl.st))) ∧
  (∀ (s : State) (k : ItemKind) (n : Fin 16), phaseIs s.mach k n .inReset = true →
    (k = .sheaf ∨ k = .intake → linkBack s.mach n = true) → (k = .sheaf → (portOf s.mach n).dark = false) → (k = .tiller → (tilOf s.mach n).quar = false) →
    (noTick s.mach = true → Completes (.partialResetComplete k n) s (fun t => resetting t k n = false ∧ t.ctl.st = s.mach.ctl.st ∧
      (k = .tiller → (tilOf s.mach n).st = .reset → (tilOf t n).st = .idle) ∧ (k = .intake → (ipOf t n).inReset = false) ∧
      (k = .awn → (awnOf t n).inReset = false))) ∧
    (noTick s.mach = false → Completes (.partialResetComplete k n) s (fun t => phaseIs t k n .awaitTick = true ∧ Keeps [.ctl] s.mach t ∧
      RegsSame s.mach t))) ∧
  (∀ (s : State) (n : Fin 8), phaseIs s.mach .tiller n .inReset = true → (tilOf s.mach n).quar = true →
    Completes (.partialResetComplete .tiller ⟨n, by omega⟩) s (fun t => phaseIs t .tiller n .selfTest = true ∧ Keeps [.ctl] s.mach t ∧
      RegsSame s.mach t)) ∧
  ∀ (s : State) (k : ItemKind) (n : Fin 16), (∃ r ∈ s.mach.ctl.resets, r.kind = k ∧ r.item = n.val ∧ r.phase = .awaitTick ∧
      boundarySince s.mach r.tick = true) →
    Completes (.itemReturnsToService k n) s (fun t => resetting t k n = false ∧ t.ctl.st = s.mach.ctl.st ∧
      (k = .tiller → (tilOf s.mach n).st = .reset → (tilOf t n).st = .idle) ∧ (k = .intake → (ipOf t n).inReset = false) ∧
      (k = .awn → (awnOf t n).inReset = false) ∧ t.fuses = s.mach.fuses ∧ t.cfg = s.mach.cfg ∧ t.time = s.mach.time)

/-- MACHINE_READY is entered when every condition holds; a tick moves the swaths on, ejects, counts and decides between RUNNING and DEGRADED.
Where the conditions of R22 hold in CONFIGURED, MACHINE_READY_ENTRY enters MACHINE_READY with PREV_STATE CONFIGURED, the tick counter 0
and no batch or object. With the conditions not all holding it does nothing. A loss of time or of the master that is due comes before a
tick (R27). A tick that is due in MACHINE_READY, RUNNING or DEGRADED, outside alignment and the last stage of a drain, counts the 48-bit
tick counter up by one and notes its own time; from MACHINE_READY the module goes to RUNNING when every Tiller not fused off and every
assigned port is in service, else to DEGRADED; from RUNNING and DEGRADED it goes to no third state. At the boundary the swath in Prepare
goes to Judge, the lines that fell go to Prepare, all settled, and the swath judged is ejected: its objects form decisions, and those of a
batch that is not done have a status and take the default action. A tick that is not due counts nothing and closes no swath. A master in
holdover for HOLD_MS returns a ticking module to CONFIGURED and raises LOST. What the spec leaves open here is the model's in assumptions
65, 66, 67 and 87. -/
def Obligations.MachineReadyAndTheTick : Prop :=
  (∀ s : State, readyConditions s.mach = true → Completes .machineReadyEntry s (fun t => t.ctl.st = .machineReady ∧ t.ctl.prev = .configured ∧
      t.ctl.tickCount = 0 ∧ t.ctl.lastTick = none ∧ t.fab.batches = [] ∧ t.fab.judgeObjs = [] ∧ t.fab.openObjs = [] ∧
      rd t F.GEN_EVENT_STATE_CHANGE 0 = 1 ∧ rd t F.GEN_TICK_PERIOD_PERIOD_NS 0 = 0 ∧ t.time = s.mach.time ∧ t.cfg = s.mach.cfg)) ∧
  (∀ s : State, readyConditions s.mach = false → Completes .machineReadyEntry s (fun t => Keeps [] s.mach t ∧ RegsSame s.mach t)) ∧
  (∀ (s : State) (due : LTime),
    let m := refresh (applyLosses (fresh s.mach))
    ticking m = true → m.ctl.align = false → ¬ (m.ctl.drain = true ∧ m.ctl.drainLeft = 0) → tickDue m = some due →
    Completes .swathTick s (fun t => t.ctl.tickCount = m.ctl.tickCount + 1 ∧ t.ctl.lastTick = some due ∧
      t.time = m.time ∧ t.fuses = m.fuses ∧ t.cfg = m.cfg ∧ t.eject.tickLevel = !m.eject.tickLevel ∧
      (m.ctl.st = .machineReady → t.ctl.st = if tillersIn t && !outOfService t then .running else .degraded) ∧
      (pipelineOn m = true → t.ctl.st = .running ∨ t.ctl.st = .degraded) ∧
      -- R16: what was in Prepare is in Judge, and what fell is in Prepare
      (m.ctl.tickCount = 0 → t.fab.batches = [] ∧ t.fab.judgeObjs = []) ∧
      (m.ctl.tickCount ≠ 0 → (∀ b ∈ t.fab.batches, b.tick = m.ctl.tickCount - 1) ∧ (∀ o ∈ t.fab.judgeObjs, o.tick = m.ctl.tickCount - 1) ∧
        ∀ p : Fin 16, (ipOf t p).prep = []) ∧
      (∀ p : Fin 16, cameraPort m p = true →
        let x := ipOf m p
        let n := swathLen m p
        let first := m.ctl.tickCount.toNat * n
        (m.ctl.drain = true → (ipOf t p).recent = [] ∧ (ipOf t p).fill = x.fill) ∧
        (m.ctl.drain = false → first + n + x.fill.length < 2 ^ 32 → x.lineCount.toNat = first + x.fill.length →
          x.fill.map (fun l => l.lineNo) = (List.range x.fill.length).map (fun i => BitVec.ofNat 32 (first + i)) →
          (ipOf t p).drain.map (fun l => l.lineNo) = (List.range n).map (fun i => BitVec.ofNat 32 (first + i)) ∧
          (∀ l ∈ (ipOf t p).drain, l.closed = true) ∧ (ipOf t p).fill = x.fill.drop n)) ∧
      -- R370: a decision is an old one, or one of an object judged; an object with a status takes the default action
      (∀ d ∈ t.eject.decisions, (∃ e ∈ m.eject.decisions, e.id = d.id) ∨
        ((∃ o ∈ m.fab.judgeObjs, formsDecision m o = true ∧ d.obj.tick = o.tick ∧ d.obj.index = o.index) ∧
         (d.obj.status = 0x40 → d.action = 0) ∧
         (d.obj.status ≠ 0 → d.obj.status ≠ 0x40 → d.obj.flags.getLsbD 4 = false → d.action = m.cfg.machine.defaultAct))) ∧
      (m.eject.fires.length + m.fab.judgeObjs.length * m.cfg.valve.valves.length < 65536 → m.cfg.machine.defaultAct ≠ 0 →
        ∀ o ∈ m.fab.judgeObjs, formsDecision m o = true → o.status = 0x31 → o.flags.getLsbD 4 = false →
          (ctxOf m o.context).st ≠ .scrubbing → (ctxOf m o.context).scrubbed = false → splitWaits (ctxOf m o.context) = false →
          selectValves m o m.cfg.machine.defaultAct ≠ [] →
          ∃ d ∈ t.eject.decisions, d.obj = o ∧ d.action = m.cfg.machine.defaultAct ∧ d.status = 0x31 ∧ ∃ f ∈ t.eject.fires, d.id ∈ f.decs) ∧
      -- R17: the objects of a batch that is not done have a status, so the default
      (∀ b ∈ m.fab.batches, b.abandoned = 0 → batchDone m b.context b = false → ∀ d ∈ t.eject.decisions,
        (∀ e ∈ m.eject.decisions, e.id ≠ d.id) → d.obj.context = b.context → d.obj.batch = b.no → d.obj.status ≠ 0))) ∧
  (∀ s : State,
    let m := refresh (applyLosses (fresh s.mach))
    m.ctl.align = false → tickDue m = none ∨ ticking m = false →
    Completes .swathTick s (fun t => Keeps [] m t ∧ RegsSame m t)) ∧
  (∀ s : State, timeHoldover s.mach = false → freeRun s.mach = true ∨
      (encOf (refresh (fresh s.mach)) (master s.mach)).held = none → applyLosses (fresh s.mach) = refresh (fresh s.mach)) ∧
  ∀ s : State, ticking s.mach = true → freeRun s.mach = false →
    (encOf (refresh (fresh s.mach)) (master s.mach)).held.isSome = true →
    lessSince s.mach.time.now (encOf (refresh (fresh s.mach)) (master s.mach)).heldFrom (s.mach.cfg.machine.holdMs * 1000000) = false →
    Completes .masterHoldoverExpired s (fun t => t.ctl.st = .configured ∧ t.ctl.prev = s.mach.ctl.st ∧
      rd t F.ENC_EVENT_LOST (master s.mach) = 1 ∧ t.fab.batches = [] ∧ t.fab.openObjs = [] ∧ t.time = s.mach.time ∧ t.cfg = s.mach.cfg)

/-- A quarantined Tiller returns only after a self-test that passes. Once its self-test has lasted 2 ms, with no persistent injection and not
held hot by a thermal quarantine: a test that passes raises RETURNED and takes the Tiller out of quarantine into service, with a re-
placement begun; a test that fails raises SELFTEST_FAIL and leaves it quarantined, and the module in FAULT exactly when no Tiller is left.
Before the 2 ms are over SELFTEST_COMPLETE does nothing. Other Tillers' quarantine is untouched. -/
def Obligations.SelfTestReturnsOrHolds : Prop :=
  (∀ (s : State) (n : Fin 8) (pass : Bool), testOver s.mach n = false → Completes (.selftestComplete n pass) s (fun t => Keeps [] s.mach t ∧
    RegsSame s.mach t)) ∧
  ∀ (s : State) (n : Fin 8), testOver s.mach n = true →
    ((tilOf s.mach n).inject.persistent = false → ((tilOf s.mach n).thermQuar = true → (tilOf s.mach n).temp ≤ 90) →
      Completes (.selftestComplete n true) s (fun t => (tilOf t n).quar = false ∧ resetting t .tiller n = false ∧
        rd t F.GEN_CHECK_EVENT_RETURNED 0 = 1 ∧ t.fab.pend.isSome = true ∧ t.ctl.st = s.mach.ctl.st ∧
        ∀ k : Fin 8, k ≠ n → (tilOf t k).quar = (tilOf s.mach k).quar)) ∧
    Completes (.selftestComplete n false) s (fun t => (tilOf t n).quar = true ∧ (tilOf t n).st = .quarantined ∧
      resetting t .tiller n = false ∧ rd t F.GEN_CHECK_EVENT_SELFTEST_FAIL 0 = 1 ∧
      (alive s.mach = true → (∀ k : Fin 8, k = n ∨ tilLost s.mach k = true) → t.ctl.st = .fault) ∧
      ((∃ k : Fin 8, k ≠ n ∧ tilLost s.mach k = false) → t.ctl.st = s.mach.ctl.st) ∧
      ∀ k : Fin 8, k ≠ n → (tilOf t k).quar = (tilOf s.mach k).quar)

/-- An edge of A or B counts by the quadrature sequence; an illegal transition does not; an index latches the count. On a channel in QUAD that
has started, with FILT + 1 samples that agree: an edge in the forward sequence 00, 10, 11, 01 of A and B counts up by one (down with
INVERT), one in the reverse sequence down; the count's time is that of the first of these samples, 2 ns apart, and STILL ends. A and B
changing at once leaves count, time and window, raises ILLEGAL and counts it. A rise of Z with A and B high latches the count's low 32
bits in ENC_REF; in ZMODE 2 the first sets the count to 0; else with ZMODE not 0 one that is not REF_COUNT apart from the last raises
REF_ERR and counts it, and one that is raises nothing. With fewer samples, no change of level, another mode or no start, and Z without A
and B high, nothing happens. Other channels stay but for the holdover of the master. Which sense of the sequence is forward is the model's
choice (assumption 18). What the spec leaves open here is the model's in assumption 46. -/
def Obligations.QuadratureEdgesAndIndexes : Prop :=
  let frame : State → Fin 4 → Mach → Prop := fun s ch t =>
    (∀ k : Fin 4, k ≠ ch → encOf t k = { encOf s.mach k with held := (encOf t k).held, heldFrom := (encOf t k).heldFrom }) ∧
    (∀ k : Fin 4, k ≠ ch → k.val ≠ master s.mach → encOf t k = encOf s.mach k) ∧ Keeps [.enc, .trig, .host] s.mach t ∧
    RegsKeep [F.ENC_EVENT_ILLEGAL.addr ch, F.ENC_ERRCNT_ILLEGAL.addr ch, F.ENC_REF_REF_LO.addr ch, F.ENC_EVENT_HOLD_START.addr (master s.mach),
      F.ENC_TRIG_STAT_REVERSALS.addr 0] s.mach t
  let forward : List (Bool × Bool × Bool × Bool) :=
    [(false, false, true, false), (true, false, true, true), (true, true, false, true), (false, true, false, false)]
  (∀ (s : State) (ch : Fin 4) (a b : Bool) (run : Nat),
    (encOf s.mach ch).started = false ∨ (encCfg s.mach ch).mode ≠ 1 ∨ run ≤ (encCfg s.mach ch).filt →
    Completes (.encoderEdge ch a b run) s (fun t => Keeps [] s.mach t ∧ RegsSame s.mach t) ∧
    Completes (.index ch run) s (fun t => Keeps [] s.mach t ∧ RegsSame s.mach t)) ∧
  (∀ (s : State) (ch : Fin 4) (a b : Bool) (run : Nat), (encOf s.mach ch).started = true → (encCfg s.mach ch).mode = 1 →
    (encCfg s.mach ch).filt < run →
    let e := encOf s.mach ch
    let stamp := shiftBy (-(((run - 1) * 2 : Nat) : Int) * 2 ^ 40) s.mach.time.now
    (a = e.lvA → b = e.lvB → Completes (.encoderEdge ch a b run) s (fun t => Keeps [] s.mach t ∧ RegsSame s.mach t)) ∧
    (e.lvA = false ∨ e.lvB = false → Completes (.index ch run) s (fun t => Keeps [] s.mach t ∧ RegsSame s.mach t)) ∧
    let one : BitVec 48 := if (encCfg s.mach ch).invert then -1 else 1
    (((e.lvA, e.lvB, a, b) ∈ forward ∨ (a, b, e.lvA, e.lvB) ∈ forward) → Completes (.encoderEdge ch a b run) s (fun t =>
      (encOf t ch).count = (if (e.lvA, e.lvB, a, b) ∈ forward then e.count + one else e.count - one) ∧
      (encOf t ch).last = some ((encOf t ch).count, stamp) ∧ (encOf t ch).still = false ∧ (encOf t ch).lvA = a ∧ (encOf t ch).lvB = b ∧
      frame s ch t)) ∧
    (a ≠ e.lvA → b ≠ e.lvB → Completes (.encoderEdge ch a b run) s (fun t => (encOf t ch).count = e.count ∧ (encOf t ch).last = e.last ∧
      (encOf t ch).hist = e.hist ∧ (encOf t ch).lvA = a ∧ (encOf t ch).lvB = b ∧ rd t F.ENC_EVENT_ILLEGAL ch = 1 ∧
      Counted F.ENC_ERRCNT_ILLEGAL ch 1 s.mach t ∧ frame s ch t)) ∧
    (e.lvA = true → e.lvB = true →
      ((encCfg s.mach ch).zmode = 2 → e.lastRef = none → Completes (.index ch run) s (fun t => (encOf t ch).count = 0 ∧
        (encOf t ch).last = e.last.map (fun x => (x.1 - e.count, x.2)) ∧ (encOf t ch).lastRef = some 0 ∧ rd t F.ENC_REF_REF_LO ch = 0 ∧
        frame s ch t)) ∧
      (¬ ((encCfg s.mach ch).zmode = 2 ∧ e.lastRef = none) → Completes (.index ch run) s (fun t => (encOf t ch).count = e.count ∧
        (encOf t ch).last = e.last ∧ (encOf t ch).hist = e.hist ∧ (encOf t ch).lastRef = some e.count ∧
        rd t F.ENC_REF_REF_LO ch = e.count.toNat % 2 ^ 32 ∧
        ((encCfg s.mach ch).zmode ≠ 0 → (encCfg s.mach ch).refCount ≠ 0 →
          (∃ r : BitVec 48, e.lastRef = some r ∧ (e.count - r).toInt.natAbs ≠ (encCfg s.mach ch).refCount) →
          rd t F.ENC_EVENT_REF_ERR ch = 1 ∧ Counted F.ENC_ERRCNT_REF_ERR ch 1 s.mach t) ∧
        ((encCfg s.mach ch).zmode = 0 ∨ (∃ r : BitVec 48, e.lastRef = some r ∧ (e.count - r).toInt.natAbs = (encCfg s.mach ch).refCount) →
          rd t F.ENC_EVENT_REF_ERR ch = rd s.mach F.ENC_EVENT_REF_ERR ch) ∧ frame s ch t))))

/-- A tooth counts one pitch; the reference counts two where a tooth is missing and none where one is extra. On a started channel in a pulse
mode, with FILT + 1 samples that agree: a tooth that is no reference counts one (down with INVERT) and its time is that of the first of
these samples; with the three teeth before it known, in PULSE_MISSING an interval of at least 1.5 times the mean of the two before it is
the reference, which counts two; in PULSE_EXTRA one of at most half the mean is the reference, which counts none. A reference is latched
in ENC_REF, and raises REF_ERR where the count since the last one is not REF_COUNT. With fewer than three teeth before it a tooth is no
reference (the model's choice, assumption 101). With fewer samples, in another mode or before the start nothing happens. -/
def Obligations.TeethCountByPitch : Prop :=
  (∀ (s : State) (ch : Fin 4) (run : Nat), (encOf s.mach ch).started = false ∨ ((encCfg s.mach ch).mode ≠ 2 ∧ (encCfg s.mach ch).mode ≠ 3) ∨
    run ≤ (encCfg s.mach ch).filt → Completes (.tooth ch run) s (fun t => Keeps [] s.mach t ∧ RegsSame s.mach t)) ∧
  ∀ (s : State) (ch : Fin 4) (run : Nat), (encOf s.mach ch).started = true → (encCfg s.mach ch).filt < run →
    let e := encOf s.mach ch
    let c := encCfg s.mach ch
    let stamp := shiftBy (-(((run - 1) * 2 : Nat) : Int) * 2 ^ 40) s.mach.time.now
    let step : Int → BitVec 48 := fun d => e.count + BitVec.ofInt 48 (if c.invert then -d else d)
    let frame : Mach → Prop := fun t =>
      (∀ k : Fin 4, k ≠ ch → encOf t k = { encOf s.mach k with held := (encOf t k).held, heldFrom := (encOf t k).heldFrom }) ∧
      (∀ k : Fin 4, k ≠ ch → k.val ≠ master s.mach → encOf t k = encOf s.mach k) ∧ Keeps [.enc, .trig, .host] s.mach t ∧
      RegsKeep [F.ENC_EVENT_HOLD_START.addr (master s.mach), F.ENC_EVENT_REF_ERR.addr ch, F.ENC_ERRCNT_REF_ERR.addr ch, F.ENC_REF_REF_LO.addr ch, F.ENC_TRIG_STAT_REVERSALS.addr 0] s.mach t
    let latched : Mach → Prop := fun t => (encOf t ch).lastRef = some (encOf t ch).count ∧
      rd t F.ENC_REF_REF_LO ch = (encOf t ch).count.toNat % 2 ^ 32 ∧
      (∀ r : BitVec 48, e.lastRef = some r → c.refCount ≠ 0 → ((encOf t ch).count - r).toInt.natAbs ≠ c.refCount → rd t F.ENC_EVENT_REF_ERR ch = 1)
    let plain : Mach → Prop := fun t => (encOf t ch).count = step 1 ∧ (encOf t ch).last = some (step 1, stamp) ∧
      (encOf t ch).lastRef = e.lastRef ∧ frame t
    (c.mode = 2 ∨ c.mode = 3 → e.teeth.length < 3 → Completes (.tooth ch run) s plain) ∧
    ∀ (t1 t2 t3 : LTime) (older : List LTime), e.teeth = t1 :: t2 :: t3 :: older →
      let gap := tdiff stamp t1
      let mean2 := tdiff t1 t3
      ((c.mode = 2 ∧ 4 * gap < 3 * mean2) ∨ (c.mode = 3 ∧ 4 * gap > mean2) → Completes (.tooth ch run) s plain) ∧
      (c.mode = 2 → 4 * gap ≥ 3 * mean2 → Completes (.tooth ch run) s (fun t => (encOf t ch).count = step 2 ∧
        (encOf t ch).last = some (step 2, stamp) ∧ latched t ∧ frame t)) ∧
      (c.mode = 3 → 4 * gap ≤ mean2 → Completes (.tooth ch run) s (fun t => (encOf t ch).count = e.count ∧ (encOf t ch).last = e.last ∧
        latched t ∧ frame t))

/-- An SSI read clocks out a word; a good word moves the count by its difference, a bad one does not. On a started channel in SSI mode with no
read under way, once PERIOD_US has passed since the last one began: SSI_READ_START sends BITS + 8 clock pulses and notes the time; with A
not idle-high it is a TIMEOUT; otherwise it does nothing. Of a read under way, a word whose CRC-6 and error bit are right moves the count
by the signed difference to the previous good word modulo 2^BITS (the first sets it) at the time of the latching edge; a CRC that fails
raises CRC, an error bit ERR_BIT, an A that has not returned high 20 µs after the last clock pulse TIMEOUT: each counts in SSI_ERR and
leaves the count. Before that time, and with no read under way, SSI_TIMEOUT and SSI_WORD do nothing. INVERT does not turn an SSI position
(the model's choice, assumption 101). What the spec leaves open here is the model's in assumption 46. -/
def Obligations.SsiWordsMoveTheCount : Prop :=
  ∀ (s : State) (ch : Fin 4),
    let e := encOf s.mach ch
    let c := encCfg s.mach ch
    let frame : Mach → Prop := fun t =>
      (∀ k : Fin 4, k ≠ ch → encOf t k = { encOf s.mach k with held := (encOf t k).held, heldFrom := (encOf t k).heldFrom }) ∧
      (∀ k : Fin 4, k ≠ ch → k.val ≠ master s.mach → encOf t k = encOf s.mach k) ∧ Keeps [.enc, .trig, .host] s.mach t ∧
      RegsKeep [F.ENC_EVENT_HOLD_START.addr (master s.mach), F.ENC_EVENT_CRC.addr ch, F.ENC_ERRCNT_SSI_ERR.addr ch, F.ENC_TRIG_STAT_REVERSALS.addr 0] s.mach t
    let bad : Mach → Prop := fun t => (encOf t ch).count = e.count ∧ (encOf t ch).last = e.last ∧ (encOf t ch).ssiRead = none ∧
      Counted F.ENC_ERRCNT_SSI_ERR ch 1 s.mach t ∧ frame t
    (e.started = false ∨ (c.mode ≠ 4 ∧ c.mode ≠ 5) ∨ e.ssiRead.isSome = true ∨
      (∃ u, e.ssiFrom = some u ∧ lessSince s.mach.time.now u (c.refCount * 1000) = true) →
      ∀ high : Bool, Completes (.ssiReadStart ch high) s (fun t => Keeps [] s.mach t ∧ RegsSame s.mach t ∧ t.out = [])) ∧
    (e.started = true → c.mode = 4 ∨ c.mode = 5 → e.ssiRead = none →
      (∀ u, e.ssiFrom = some u → lessSince s.mach.time.now u (c.refCount * 1000) = false) →
      Completes (.ssiReadStart ch true) s (fun t => t.out = [.ssiClock ch (c.bits + 8)] ∧ (encOf t ch).ssiRead = some s.mach.time.now ∧
        (encOf t ch).ssiFrom = some s.mach.time.now ∧ (encOf t ch).count = e.count ∧ Keeps [.enc] s.mach t ∧ RegsSame s.mach t) ∧
      Completes (.ssiReadStart ch false) s (fun t => rd t F.ENC_EVENT_TIMEOUT ch = 1 ∧ bad t)) ∧
    (e.ssiRead = none → Completes (.ssiTimeout ch) s (fun t => Keeps [] s.mach t ∧ RegsSame s.mach t) ∧
      ∀ (pos : BitVec 40) (err : Bool) (crc : BitVec 6), Completes (.ssiWord ch pos err crc) s (fun t => Keeps [] s.mach t ∧ RegsSame s.mach t)) ∧
    ∀ (st : LTime), e.ssiRead = some st →
      (lessSince s.mach.time.now st ((c.bits + 7) * 10000 / max 1 c.clk100k + 20000) = true → Completes (.ssiTimeout ch) s (fun t =>
        Keeps [] s.mach t ∧ RegsSame s.mach t)) ∧
      (lessSince s.mach.time.now st ((c.bits + 7) * 10000 / max 1 c.clk100k + 20000) = false → Completes (.ssiTimeout ch) s (fun t =>
        rd t F.ENC_EVENT_TIMEOUT ch = 1 ∧ bad t)) ∧
      ∀ (pos : BitVec 40) (err : Bool) (crc : BitVec 6), (c.mode = 4 ∨ c.mode = 5) → c.bits ≤ 40 →
        let raw := pos.toNat % 2 ^ c.bits
        let right := crc6 (msbBits c.bits raw ++ [err]) 0 = crc.toNat
        let p := if c.mode = 5 then grayToBin 40 raw else raw
        (¬ right → Completes (.ssiWord ch pos err crc) s (fun t => rd t F.ENC_EVENT_CRC ch = 1 ∧ bad t)) ∧
        (err = true → Completes (.ssiWord ch pos err crc) s (fun t => rd t F.ENC_EVENT_ERR_BIT ch = 1 ∧ bad t)) ∧
        (right → err = false → Completes (.ssiWord ch pos err crc) s (fun t => (encOf t ch).ssiRead = none ∧ (encOf t ch).ssiBad = 0 ∧
          (encOf t ch).last = some ((encOf t ch).count, st) ∧ (e.ssiPrev = none → (encOf t ch).count = BitVec.ofNat 48 p) ∧
          (∀ q : Nat, e.ssiPrev = some q → ∃ d : Int, (encOf t ch).count = e.count + BitVec.ofInt 48 d ∧ (d - ((p : Int) - q)) % 2 ^ c.bits = 0 ∧
            -(2 ^ (c.bits - 1)) ≤ d ∧ d < 2 ^ (c.bits - 1)) ∧ frame t))

/-- Loss of signal, its end, and a standstill. On a started channel that is not OFF: loss of signal on a channel that is not in 24 V single-
ended mode sets LOS and raises it, and LOS_CLEAR ends it once 1 ms has passed without a further loss; STANDSTILL, once no edge has come
for STILL_MS (of a channel without an edge yet at once, the model's choice, assumption 114), sets STILL and starts the speed window anew,
and before does nothing; in 24 V single-ended mode LOSS_OF_SIGNAL does nothing. None of them moves the count. A master that so becomes
invalid while ticks run goes into holdover, from its last edge at the speed formed there, and HOLD_START is raised. Other channels stay
but for the holdover of the master. What the spec leaves open here is the model's in assumption 46. -/
def Obligations.SignalLossAndStandstill : Prop :=
  ∀ (s : State) (ch : Fin 4), (encOf s.mach ch).started = true → (encCfg s.mach ch).mode ≠ 0 →
    let e := encOf s.mach ch
    let frame : Mach → Prop := fun t =>
      (∀ k : Fin 4, k ≠ ch → encOf t k = { encOf s.mach k with held := (encOf t k).held, heldFrom := (encOf t k).heldFrom }) ∧
      (∀ k : Fin 4, k ≠ ch → k.val ≠ master s.mach → encOf t k = encOf s.mach k) ∧ (encOf t ch).count = e.count ∧
      (encOf t ch).last = e.last ∧ Keeps [.enc, .trig, .host] s.mach t ∧
      RegsKeep [F.ENC_EVENT_HOLD_START.addr (master s.mach), F.ENC_EVENT_LOS.addr ch, F.ENC_TRIG_STAT_REVERSALS.addr 0] s.mach t
    let nothing : Mach → Prop := fun t => Keeps [] s.mach t ∧ RegsSame s.mach t
    ((encCfg s.mach ch).se24 = true → Completes (.lossOfSignal ch) s nothing) ∧
    ((encCfg s.mach ch).se24 = false → Completes (.lossOfSignal ch) s (fun t => (encOf t ch).los = true ∧ (encOf t ch).losAt = s.mach.time.now ∧ rd t F.ENC_EVENT_LOS ch = 1 ∧
      frame t ∧
      (ch.val = master s.mach → freeRun s.mach = false → ticking s.mach = true → e.held = none → rd t F.ENC_EVENT_HOLD_START ch = 1 ∧
        (encOf t ch).held = some ((e.last.getD (e.count, s.mach.time.now)).1, (e.last.getD (e.count, s.mach.time.now)).2, vEdge s.mach ch)))) ∧
    (e.los = true → lessSince s.mach.time.now e.losAt 1000000 = false → Completes (.losClear ch) s (fun t => (encOf t ch).los = false ∧ frame t)) ∧
    (e.los = false ∨ lessSince s.mach.time.now e.losAt 1000000 = true → Completes (.losClear ch) s nothing) ∧
    ((∀ x : BitVec 48 × LTime, e.last = some x → lessSince s.mach.time.now x.2 ((encCfg s.mach ch).stillMs * 1000000) = false) →
      Completes (.standstill ch) s (fun t => (encOf t ch).still = true ∧ (encOf t ch).hist = [] ∧ frame t)) ∧
    ∀ x : BitVec 48 × LTime, e.last = some x → lessSince s.mach.time.now x.2 ((encCfg s.mach ch).stillMs * 1000000) = true →
      Completes (.standstill ch) s nothing

/-- TRIGGER_ISSUE sends the next line's symbol at its predicted time less the port's latency. A port acquires, is not in reset, its next line
l lies at or past the origin, and the flit boundary given is the present one. Predicted at time t, the issue time is t less the latency,
or the boundary where that is later; with it within 32 UI after the boundary and not before the minimum period: in L0 one TRIG flit leaves
with LINE_NO l and the count at the trigger position, flipped by an injection that waits, which ends; the line joins the swath with its
trigger time within half a UI of the issue time plus the latency, which is t where the symbol is not late. A port out of L0 raises
TRIG_LOST, counts it and the line is untriggered. An issue time within these 32 UI but before the minimum period, which ends after them,
is counted once in SPACED and waits. An issue time later than these 32 UI, no prediction, or another boundary: nothing changes. The flit
boundary as an operand is assumption 55, how frames are sent out assumption 105. -/
def Obligations.TriggersLeaveAtTheirPosition : Prop :=
  ∀ (s : State) (p : Fin 16) (boundary : LTime), acquiring s.mach = true → portActive s.mach p = true → (ipOf s.mach p).inReset = false →
    let i := ipOf s.mach p
    let l := i.lineCount.toNat
    let b := fineNear s.mach.time.now boundary
    let free : LTime → Int := fun x => fineNear s.mach.time.now x + (camOf s.mach p).minPeriod * 10 * 65536
    (atBoundary s.mach boundary = false → Completes (.triggerIssue p boundary) s (fun t => t.out = [] ∧ Keeps [] s.mach t ∧ RegsSame s.mach t)) ∧
    (atBoundary s.mach boundary = true → 0 ≤ linePos s.mach p l →
    (∀ tx : Int, lineTime s.mach p l = some tx →
      let lat : Int := (i.latencyPs * 65536 / 1000 : Nat)
      let want := tx - lat
      (want ≥ b + 32 * 65536 / 28 → Completes (.triggerIssue p boundary) s (fun t => t.out = [] ∧ Keeps [] s.mach t ∧ RegsSame s.mach t)) ∧
      (∀ x : LTime, i.lastTrig = some x → i.spacing = none → want < free x → free x ≥ b + 32 * 65536 / 28 → want < b + 32 * 65536 / 28 →
        Completes (.triggerIssue p boundary) s (fun t => Counted F.ENC_TRIG_STAT_SPACED 0 1 s.mach t ∧ t.out = [] ∧
          ipOf t p = { i with spacing := some (timeOfFine (max want b)) } ∧ (∀ q : Fin 16, q ≠ p → ipOf t q = ipOf s.mach q) ∧
          Keeps [.intake] s.mach t ∧ RegsKeep [F.ENC_TRIG_STAT_SPACED.addr 0] s.mach t)) ∧
      (want < b + 32 * 65536 / 28 → (∀ x : LTime, i.lastTrig = some x → free x ≤ max want b) → i.spacing = none → ∃ ln : Line, ln.lineNo = BitVec.ofNat 32 l ∧
        ln.count = lineCountStamp s.mach p l ∧ ln.mark = .good ∧ ln.closed = false ∧ ln.got = 0 ∧
        Completes (.triggerIssue p boundary) s (fun t => (ipOf t p).fill = i.fill ++ [ln] ∧ (ipOf t p).lineCount = i.lineCount + 1 ∧
          (∀ q : Fin 16, q ≠ p → ipOf t q = ipOf s.mach q) ∧
          ((portOf s.mach p).phy = .l0 → ln.sent = true ∧ (∃ x : Int, ln.trigTime = timeOfFine x ∧ (x - (max want b + lat)).natAbs ≤ 1171) ∧
            (∃ f : Nat, f < 32 ∧ t.out = [.flit p (onLanes s.mach p (mkFlit 2 0 (leBytes 1 f ++ leBytes 4 (l % 2 ^ 32) ++ leBytes 6 ln.count.toNat)))]) ∧
            (∀ q : Fin 16, portOf t q = if q = p then { portOf s.mach p with injNext := 0 } else portOf s.mach q) ∧
            Keeps [.intake, .sheaf] s.mach t ∧ RegsSame s.mach t) ∧
          ((portOf s.mach p).phy ≠ .l0 → ln.sent = false ∧ ln.trigTime = timeOfFine (max want b + lat) ∧ rd t F.SHF_LNK_EVENT_TRIG_LOST p = 1 ∧
            Counted F.SHF_LNK_CNT2_TRIG_LOST p 1 s.mach t ∧ OnlyVectors t ∧ Keeps [.intake, .host] s.mach t ∧
            RegsKeep [F.SHF_LNK_EVENT_TRIG_LOST.addr p, F.SHF_LNK_CNT2_TRIG_LOST.addr p] s.mach t)))) ∧
    (lineTime s.mach p l = none → Completes (.triggerIssue p boundary) s (fun t => t.out = [] ∧ Keeps [] s.mach t ∧ RegsSame s.mach t)))

/-- Training walks DETECT, CLOCK, FRAME, EQ and MEASURE to L0; a failure backs off. CK from the partner starts CLOCK from DETECT (WAKE where
an exit from DEEP has saved settings), and WAKE or CLOCK from DEEP; frames then leave on all lanes. Of a frame with good CRC and MARKER,
right ROLE and lane, in every phase from CLOCK to HOLD: its TAP_REQ steps the taps of its lane, unless TX_FIXED, and is acknowledged, and
an ECHO_REQ on D0 is answered with ECHO. In CLOCK, FRAME or WAKE it marks its lane found unless its skew is above 32 UI; all four lanes
lead to EQ, fewer to FRAME. In EQ it notes EQ_DONE of both ends, and leads to MEASURE (TEST with TEST set) when both are done on all
lanes. In MEASURE, an ECHO on D0 gives the cable delay and leads to HOLD while the module holds the port, else to L0 with UP raised. Any
other frame does nothing. TRAIN_FAIL raises and counts and turns a training port off, its frames ending; the backoff's end returns it to
DETECT; a fast retraining that times out goes on as full training; in other states these do nothing. The replay buffer and the other ports
stay. How far a tap steps, and the ACK of a request that TX_FIXED ignores, are the model's choices (assumption 116; one frame for each
change or answer: assumption 105). What the receivers see is an operand (assumption 53). -/
def Obligations.SheafPortsTrain : Prop :=
  let frame : State → Fin 16 → Mach → Prop := fun s p t => (∀ q : Fin 16, q ≠ p → portOf t q = portOf s.mach q) ∧
    (portOf t p).replay = (portOf s.mach p).replay ∧ (portOf t p).txSeq = (portOf s.mach p).txSeq
  let nothing : State → Mach → Prop := fun s t => Keeps [] s.mach t ∧ RegsSame s.mach t ∧ t.out = []
  let sends : Fin 16 → (Nat → Nat) → Mach → Prop := fun p more t => t.out = (List.range 4).map (fun l => Output.train p l (frameOf t p l (more l)))
  (∀ (s : State) (p : Fin 16),
    let x := portOf s.mach p
    (x.phy = .detect ∨ x.phy = .deep → Completes (.partnerCkDetected p) s (fun t =>
      (portOf t p).phy = (if x.saved = true ∧ (x.phy = .deep ∨ x.wake = true) then .wake else .clock) ∧ rd t F.SHF_PHY_STATUS_CK_LOCK p = 1 ∧
      sends p (fun _ => 0) t ∧ frame s p t ∧ Keeps [.sheaf] s.mach t ∧ RegsKeep [F.SHF_PHY_STATUS_CK_LOCK.addr p] s.mach t)) ∧
    (x.phy ≠ .detect → x.phy ≠ .deep → Completes (.partnerCkDetected p) s (nothing s)) ∧
    (x.phy ∈ [.clock, .frame, .eq, .measure, .wake] →
      Completes (.trainFail p) s (fun t => (portOf t p).phy = .off ∧ (portOf t p).backoff = true ∧ rd t F.SHF_PHY_EVENT_TRAIN_FAIL p = 1 ∧
        Counted F.SHF_PHY_CNT_TRAIN_FAIL p 1 s.mach t ∧ transmits t p 0 = .idle ∧ OnlyVectors t ∧ frame s p t ∧ Keeps [.sheaf, .host] s.mach t ∧
        RegsKeep [F.SHF_PHY_STATUS_CK_LOCK.addr p, F.SHF_PHY_EVENT_TRAIN_FAIL.addr p, F.SHF_PHY_CNT_TRAIN_FAIL.addr p] s.mach t) ∧
      (x.fast = true → Completes (.fastRetrainTimeout p) s (fun t => (portOf t p).phy = .clock ∧ (portOf t p).fast = false ∧
        sends p (fun _ => 0) t ∧ frame s p t ∧ Keeps [.sheaf] s.mach t ∧ RegsKeep [F.SHF_PHY_STATUS_CK_LOCK.addr p] s.mach t))) ∧
    (x.phy ∉ [.clock, .frame, .eq, .measure, .wake] → Completes (.trainFail p) s (nothing s)) ∧
    (x.phy ∉ [.clock, .frame, .eq, .measure, .wake] ∨ x.fast = false → Completes (.fastRetrainTimeout p) s (nothing s)) ∧
    (x.backoff = true → x.phy = .off → Completes (.trainBackoffEnd p) s (fun t => (portOf t p).phy = .detect ∧ (portOf t p).backoff = false ∧ t.out = [] ∧
      frame s p t ∧ Keeps [.sheaf] s.mach t ∧ RegsKeep [F.SHF_PHY_STATUS_CK_LOCK.addr p] s.mach t)) ∧
    (x.backoff = false ∨ x.phy ≠ .off → Completes (.trainBackoffEnd p) s (nothing s))) ∧
  ∀ (s : State) (p : Fin 16) (lane : Fin 4) (f : BitVec 128) (meas : RxMeas),
    let x := portOf s.mach p
    let req := bits f.toNat 48 4
    let tapped : Mach → Prop := fun t =>
      rd t (txPre lane) p = (if flag s.mach F.SHF_PHY_CTRL_TX_FIXED p then rd s.mach (txPre lane) p
        else tapStep (req / 4) (rd s.mach (txPre lane) p) 8 2) ∧
      rd t (txPost lane) p = (if flag s.mach F.SHF_PHY_CTRL_TX_FIXED p then rd s.mach (txPost lane) p
        else tapStep (req % 4) (rd s.mach (txPost lane) p) 12 4)
    let ans : Nat → Nat := fun l => if l = lane.val then (if req ≠ 0 then 64 else 0) + (if lane = 0 ∧ f.getLsbD 82 = true then 8 else 0) else 0
    (frameGood f = false ∨ frameFits s.mach p lane f = false ∨ x.phy ∈ [.off, .detect, .l0, .quiet, .deep, .test] →
      Completes (.trainingFrame p lane f meas) s (nothing s)) ∧
    (frameGood f = true → frameFits s.mach p lane f = true →
      ((x.phy ∈ [.clock, .frame, .wake] ∧ 32 < meas.skewUi) ∨ (x.phy = .measure ∧ (lane ≠ 0 ∨ f.getLsbD 83 = false)) ∨ x.phy = .hold →
        Completes (.trainingFrame p lane f meas) s (fun t => tapped t ∧ (ans lane = 0 → t.out = []) ∧ (ans lane ≠ 0 → sends p ans t) ∧
          Keeps [] s.mach t ∧ RegsKeep [(txPre lane).addr p] s.mach t)) ∧
      (x.phy ∈ [.clock, .frame, .wake] → meas.skewUi ≤ 32 → Completes (.trainingFrame p lane f meas) s (fun t =>
        (portOf t p).frameOk = x.frameOk ||| (1#4 <<< lane.val) ∧ (portOf t p).phy = (if (portOf t p).frameOk = 15 then .eq else .frame) ∧
        rd t (rxSkew lane) p = meas.skewUi ∧ rd t F.SHF_PHY_STATUS_PRECODE_TX p = (f.getLsbD 81).toNat ∧
        (BitVec.ofNat 4 (rd t F.SHF_PHY_STATUS_LANE_POL p)).getLsbD lane = meas.inverted ∧ tapped t ∧ sends p ans t ∧
        frame s p t ∧ Keeps [.sheaf] s.mach t ∧ RegsKeep [(rxSkew lane).addr p, (txPre lane).addr p, F.SHF_PHY_STATUS_CK_LOCK.addr p] s.mach t)) ∧
      (x.phy = .eq →
        let here := if 20 ≤ meas.eyeMv then x.eqHere ||| (1#4 <<< lane.val) else x.eqHere &&& ~~~ (1#4 <<< lane.val)
        let there := if f.getLsbD 84 then x.eqThere ||| (1#4 <<< lane.val) else x.eqThere &&& ~~~ (1#4 <<< lane.val)
        let done := here = 15 ∧ there = 15
        Completes (.trainingFrame p lane f meas) s (fun t => (portOf t p).eqHere = here ∧ (portOf t p).eqThere = there ∧
          (portOf t p).phy = (if done then (if testSet s.mach p then .test else .measure) else .eq) ∧
          (¬ (done ∧ testSet s.mach p = true) → sends p (fun l => ans l + (if l = 0 ∧ done then 4 else 0)) t) ∧
          rd t (rxEye lane) p = min 255 meas.eyeMv ∧ rd t (rxCtle lane) p = min 15 meas.ctle ∧
          tapped t ∧ frame s p t ∧ Keeps [.sheaf] s.mach t ∧
          RegsKeep [(rxEye lane).addr p, (txPre lane).addr p, F.SHF_PHY_STATUS_CK_LOCK.addr p] s.mach t)) ∧
      (x.phy = .measure → lane = 0 → f.getLsbD 83 = true → Completes (.trainingFrame p lane f meas) s (fun t =>
        let ps := cablePs meas.rtUi (f.toNat / 2 ^ 64 % 65536)
        (ipOf t p).nextLatPs = 96000 + ps ∧ (ipOf t p).latencyPs = (if ticking s.mach || s.mach.ctl.align then (ipOf s.mach p).latencyPs else 96000 + ps) ∧
        (∀ q : Fin 16, q ≠ p → ipOf t q = ipOf s.mach q) ∧ rd t F.SHF_PHY_TIMING_CABLE_PS p = min 0xFFFFF ps ∧ tapped t ∧ frame s p t ∧
        (holdWanted s.mach p = true → (portOf t p).phy = .hold ∧ Keeps [.sheaf, .intake] s.mach t ∧
          RegsKeep [F.SHF_PHY_TIMING_CABLE_PS.addr p, (txPre lane).addr p] s.mach t) ∧
        (holdWanted s.mach p = false → (portOf t p).phy = .l0 ∧ (portOf t p).saved = true ∧ rd t F.SHF_PHY_EVENT_UP p = 1 ∧
          Keeps [.sheaf, .intake, .host] s.mach t ∧
          RegsKeep [F.SHF_PHY_TIMING_CABLE_PS.addr p, (txPre lane).addr p, F.SHF_PHY_STATUS_CK_LOCK.addr p, F.SHF_PHY_EVENT_UP.addr p] s.mach t))))

/-- Clock loss, deskew errors and RETRAIN train anew; low-power states are asked for, entered and left. Loss of CK in L0 or QUIET, unless DEEP
is acknowledged, raises and counts CLK_LOSS and trains from DETECT; a deskew error does so with DESKEW_ERR from CLOCK; in other states
neither acts. RETRAIN drops the saved settings and, but in OFF, trains fully. In L0, LP_REQ_QUIET and LP_REQ_DEEP, and idleness for
QUIET_US (1 µs on a peer port with nothing waiting while R435 throttles links), send an LCTL with the request; a camera port is refused
while ticks run (LP_REFUSED). While the port trains, or a scrub holds it, a request is held. An acknowledged request is entered once the
replay buffer is empty, and left at once where L0 is wanted meanwhile. QUIET is left for L0 with UP raised, DEEP from DETECT; LP_REQ_L0 in
L0 takes the request back. The link's numbering and the other ports stay. Host commands need the function ready, D0 and a block with
power; without them they do nothing. Where a requested training starts and the handshake's corners are assumptions 53 and 52. -/
def Obligations.SheafPortsRetrainAndSleep : Prop :=
  let frame : State → Fin 16 → Mach → Prop := fun s p t => (∀ q : Fin 16, q ≠ p → portOf t q = portOf s.mach q) ∧
    (portOf t p).replay = (portOf s.mach p).replay ∧ (portOf t p).txSeq = (portOf s.mach p).txSeq
  let nothing : State → Mach → Prop := fun s t => Keeps [] s.mach t ∧ RegsSame s.mach t ∧ t.out = []
  let regs : Fin 16 → List Nat := fun p => [F.SHF_PHY_CTRL_LP_REQ.addr p, F.SHF_PHY_STATUS_CK_LOCK.addr p, F.SHF_PHY_EVENT_UP.addr p,
    F.SHF_PHY_CNT_RETRAINS.addr p, F.INT_ALIGN_STATUS_STATE.addr 0]
  let asked : State → Fin 16 → LpReq → Mach → Prop := fun s p r t => (portOf t p).lpOut = some r ∧ (portOf t p).phy = .l0 ∧
    t.out = [.flit p (onLanes s.mach p (lctlFlit s.mach p 0 (if r = .quiet then 1 else 2)))] ∧ frame s p t ∧ Keeps [.sheaf] s.mach t ∧
    RegsKeep [F.SHF_PHY_CTRL_LP_REQ.addr p] s.mach t
  let up : State → Fin 16 → Mach → Prop := fun s p t => (portOf t p).phy = .l0 ∧ (portOf t p).saved = true ∧ rd t F.SHF_PHY_EVENT_UP p = 1 ∧
    (portOf t p).fresh = ((portOf s.mach p).fresh && (portOf s.mach p).scrubIdle) ∧
    Output.flit p (onLanes s.mach p (lctlFlit s.mach p (if (portOf s.mach p).fresh then 4 else 0) 0)) ∈ t.out ∧ frame s p t ∧
    Keeps [.sheaf, .host] s.mach t ∧ RegsKeep (regs p) s.mach t
  ∀ (s : State) (p : Fin 16),
    let x := portOf s.mach p
    let anew : PhyState → Fld → Fld → Mach → Prop := fun phy ev cnt t => (portOf t p).phy = phy ∧ (portOf t p).fast = x.saved ∧
      (portOf t p).saved = x.saved ∧ rd t ev p = 1 ∧ rd t F.SHF_PHY_EVENT_RETRAIN p = 1 ∧ Counted cnt p 1 s.mach t ∧
      Counted F.SHF_PHY_CNT_RETRAINS p 1 s.mach t ∧ frame s p t ∧ Keeps [.sheaf, .ctl, .align, .host] s.mach t ∧ RegsKeep (regs p) s.mach t
    (x.phy = .l0 ∨ x.phy = .quiet →
      (x.lpAcked ≠ some .deep → Completes (.clkLoss p) s (anew .detect F.SHF_PHY_EVENT_CLK_LOSS F.SHF_PHY_CNT_CLK_LOSS)) ∧
      Completes (.deskewErr p) s (anew .clock F.SHF_PHY_EVENT_DESKEW_ERR F.SHF_PHY_CNT_DESKEW_ERR)) ∧
    ((x.phy ≠ .l0 ∧ x.phy ≠ .quiet) ∨ x.lpAcked = some .deep → Completes (.clkLoss p) s (nothing s)) ∧
    (x.phy ≠ .l0 → x.phy ≠ .quiet → Completes (.deskewErr p) s (nothing s)) ∧
    (x.phy = .quiet → Completes (.quietExit p) s (up s p)) ∧
    (x.phy ≠ .quiet → Completes (.quietExit p) s (nothing s)) ∧
    (x.phy = .l0 → x.replay = [] → x.lpWait = some .l0 →
      (x.lpAcked = some .quiet → Completes (.lowPowerEntry p) s (fun t => (portOf t p).phy = .l0 ∧ (portOf t p).lpAcked = none ∧
        rd t F.SHF_PHY_EVENT_QUIET p = 1 ∧ rd t F.SHF_PHY_EVENT_UP p = 1 ∧ frame s p t)) ∧
      (x.lpAcked = some .deep → Completes (.lowPowerEntry p) s (fun t => (portOf t p).phy = .detect ∧ (portOf t p).wake = true ∧
        (portOf t p).lpAcked = none ∧ rd t F.SHF_PHY_EVENT_DEEP p = 1 ∧ frame s p t))) ∧
    (x.phy = .l0 → x.replay = [] → x.lpWait ≠ some .l0 →
      (x.lpAcked = some .quiet → Completes (.lowPowerEntry p) s (fun t => (portOf t p).phy = .quiet ∧ (portOf t p).lpAcked = none ∧
        rd t F.SHF_PHY_EVENT_QUIET p = 1 ∧ transmits t p 0 = .quiet ∧ frame s p t ∧ Keeps [.sheaf, .ctl, .align, .host] s.mach t ∧
        RegsKeep (regs p) s.mach t)) ∧
      (x.lpAcked = some .deep → Completes (.lowPowerEntry p) s (fun t => (portOf t p).phy = .deep ∧ (portOf t p).lpAcked = none ∧
        rd t F.SHF_PHY_EVENT_DEEP p = 1 ∧ rd t F.SHF_PHY_STATUS_CK_LOCK p = 0 ∧ sendsCk t p = false ∧ frame s p t ∧
        Keeps [.sheaf, .ctl, .align, .host] s.mach t ∧ RegsKeep (regs p) s.mach t))) ∧
    (x.phy ≠ .l0 ∨ x.replay ≠ [] ∨ x.lpAcked = none → Completes (.lowPowerEntry p) s (nothing s)) ∧
    (x.phy = .l0 → ¬ (cameraPort s.mach p = true ∧ ticking s.mach = true) → quietAfter s.mach p > 0 → x.lpOut = none → x.lpAcked = none →
      (x.scrubIdle = false → Completes (.quietIdleTimeout p) s (asked s p .quiet)) ∧
      (x.scrubIdle = true → Completes (.quietIdleTimeout p) s (fun t => portOf t p = { x with lpWait := some .quiet } ∧ t.out = [] ∧ frame s p t ∧
        Keeps [.sheaf] s.mach t ∧ RegsSame s.mach t))) ∧
    (x.phy ≠ .l0 ∨ (cameraPort s.mach p = true ∧ ticking s.mach = true) ∨ quietAfter s.mach p = 0 ∨ x.lpOut ≠ none ∨
      x.lpAcked ≠ none → Completes (.quietIdleTimeout p) s (nothing s)) ∧
    (¬ HostMay s.mach ∨ s.mach.ctl.st = .dormant → ∀ c ∈ [Instr.lpReqL0 p, Instr.lpReqQuiet p, Instr.lpReqDeep p, Instr.retrain p],
      Completes c s (nothing s)) ∧
    (HostMay s.mach → s.mach.ctl.st ≠ .dormant →
      (x.phy = .l0 → x.scrubIdle = false → ¬ (cameraPort s.mach p = true ∧ ticking s.mach = true) →
        Completes (.lpReqQuiet p) s (fun t => asked s p .quiet t ∧ rd t F.SHF_PHY_CTRL_LP_REQ p = 1) ∧
        Completes (.lpReqDeep p) s (fun t => asked s p .deep t ∧ rd t F.SHF_PHY_CTRL_LP_REQ p = 2)) ∧
      (x.phy = .l0 → x.scrubIdle = false → Completes (.lpReqL0 p) s (fun t => (portOf t p).lpOut = none ∧ (portOf t p).phy = .l0 ∧ t.out = [] ∧ frame s p t ∧
          rd t F.SHF_PHY_CTRL_LP_REQ p = 0 ∧ Keeps [.sheaf] s.mach t ∧ RegsKeep [F.SHF_PHY_CTRL_LP_REQ.addr p] s.mach t)) ∧
      (x.phy = .l0 → x.scrubIdle = false → cameraPort s.mach p = true → ticking s.mach = true → ∀ c ∈ [Instr.lpReqQuiet p, Instr.lpReqDeep p],
        Completes c s (fun t => rd t F.SHF_PHY_EVENT_LP_REFUSED p = 1 ∧ portOf t p = x ∧ Keeps [.host] s.mach t ∧
          RegsKeep [F.SHF_PHY_CTRL_LP_REQ.addr p, F.SHF_PHY_EVENT_UP.addr p] s.mach t)) ∧
      (inTraining x = true ∨ (x.phy = .l0 ∧ x.scrubIdle = true) → ∀ c ∈ [(Instr.lpReqL0 p, LpReq.l0), (Instr.lpReqQuiet p, LpReq.quiet), (Instr.lpReqDeep p, LpReq.deep)],
        Completes c.1 s (fun t => portOf t p = { x with lpWait := some c.2 } ∧ t.out = [] ∧ frame s p t ∧ Keeps [.sheaf] s.mach t ∧
          RegsKeep [F.SHF_PHY_CTRL_LP_REQ.addr p] s.mach t)) ∧
      (x.phy = .quiet → Completes (.lpReqL0 p) s (fun t => up s p t ∧ (portOf t p).lpOut = x.lpOut)) ∧
      (x.phy = .deep → ∀ c ∈ [(Instr.lpReqL0 p, LpReq.l0), (Instr.lpReqQuiet p, LpReq.quiet)], Completes c.1 s (fun t =>
        (portOf t p).phy = .detect ∧ (portOf t p).wake = true ∧ (portOf t p).lpWait = some c.2 ∧ sendsCk t p = true ∧ t.out = [] ∧ frame s p t ∧
        Keeps [.sheaf] s.mach t ∧ RegsKeep (regs p) s.mach t)) ∧
      (x.phy ≠ .off → Completes (.retrain p) s (fun t => (portOf t p).saved = false ∧ (portOf t p).fast = false ∧
        (portOf t p).phy = (if x.phy = .detect ∨ x.phy = .deep then .detect else .clock) ∧
        (x.phy = .l0 ∨ x.phy = .quiet → rd t F.SHF_PHY_EVENT_RETRAIN p = 1) ∧ frame s p t ∧
        Keeps [.sheaf, .ctl, .align, .host] s.mach t ∧ RegsKeep (regs p) s.mach t)) ∧
      (x.phy = .off → Completes (.retrain p) s (fun t => portOf t p = { x with saved := false } ∧ t.out = [] ∧ frame s p t ∧
        Keeps [.sheaf] s.mach t ∧ RegsSame s.mach t)))

/-- TEST, the pattern checkers, the injected symbol and the window of a pattern test. With the function ready, outside D3hot and with power in
the block: setting TEST on an assigned port outside CONFIGURED is denied; else it is set and the port trains from DETECT; clearing it does
so for an assigned port, and turns another off; a port in partial reset stays dark. CHK_EN is set, and in TEST each lane's checker takes
the bits that it received: CHK_LOCK shows those that lock. INJ_ONE in L0 needs TRACE or FULL, and then flips the last symbol, both bits,
on the selected lanes of the next flit of live traffic (of a peer port the next sequenced one); in TEST the generators flip a bit in the
selected lanes. Without these conditions nothing happens. The window of a pattern goes on for each lane by what its receiver saw: a lane's
BIT_ERR counts up by the errors its checker compared, and CHK_LOCK follows the checkers; outside TEST or with CHK_EN 0 nothing happens. A
write of SHF_PAT_CTRL with PATTERN 3 leaves PATTERN, and one with CHK_EN 0 stops the checkers. How a port sends and checks here is
assumption 105. -/
def Obligations.SheafPatternTest : Prop :=
  let nothing : State → Mach → Prop := fun s t => Keeps [] s.mach t ∧ RegsSame s.mach t ∧ t.out = []
  (∀ (s : State) (p : Fin 16) (rx : List (List Bool)), ¬ HostMay s.mach ∨ s.mach.ctl.st = .dormant →
    ∀ c ∈ [Instr.testWrite p true, Instr.testWrite p false, Instr.checkerEnable p rx, Instr.injOne p], Completes c s (nothing s)) ∧
  (∀ (s : State) (p : Fin 16), HostMay s.mach → s.mach.ctl.st ≠ .dormant →
    let x := portOf s.mach p
    let others : Mach → Prop := fun t => ∀ q : Fin 16, q ≠ p → portOf t q = portOf s.mach q
    (assigned s.mach p = true → s.mach.ctl.st ≠ .configured → Completes (.testWrite p true) s (fun t => t.out = [.accessDenied] ∧
      Keeps [] s.mach t ∧ RegsSame s.mach t)) ∧
    (assigned s.mach p = false ∨ s.mach.ctl.st = .configured → Completes (.testWrite p true) s (fun t => testSet t p = true ∧
      (portOf t p).phy = (if x.dark then x.phy else .detect) ∧ t.out = [] ∧ others t ∧ Keeps [.sheaf, .ctl, .align] s.mach t ∧
      RegsKeep [F.SHF_PHY_CTRL_TEST.addr p, F.SHF_PHY_STATUS_CK_LOCK.addr p, F.INT_ALIGN_STATUS_STATE.addr 0] s.mach t)) ∧
    (testSet s.mach p = true → Completes (.testWrite p false) s (fun t => testSet t p = false ∧
      (portOf t p).phy = (if x.dark then x.phy else if assigned s.mach p then .detect else .off) ∧ t.out = [] ∧ others t ∧ Keeps [.sheaf, .ctl, .align] s.mach t ∧
      RegsKeep [F.SHF_PHY_CTRL_TEST.addr p, F.SHF_PHY_STATUS_CK_LOCK.addr p, F.INT_ALIGN_STATUS_STATE.addr 0] s.mach t)) ∧
    (testSet s.mach p = false → Completes (.testWrite p false) s (nothing s)) ∧
    (∀ rx : List (List Bool), Completes (.checkerEnable p rx) s (fun t =>
      let cs := (List.range 4).map (fun l => if x.phy = .test then (rx.getD l []).foldl (chkBit (rd s.mach F.SHF_PAT_CTRL_PATTERN p)) {} else {})
      rd t F.SHF_PAT_CTRL_CHK_EN p = 1 ∧ portOf t p = { x with checkers := cs } ∧ others t ∧ t.out = [] ∧
      (∀ lane : Fin 4, (BitVec.ofNat 4 (rd t F.SHF_PAT_CTRL_CHK_LOCK p)).getLsbD lane = (cs.getD lane {}).locked) ∧
      RegsKeep [F.SHF_PAT_CTRL_CHK_EN.addr p] s.mach t ∧ Keeps [.sheaf] s.mach t)) ∧
    (x.phy = .l0 → traceOn s.mach = false → Completes (.injOne p) s (fun t => t.out = [.accessDenied] ∧
      Keeps [] s.mach t ∧ RegsSame s.mach t)) ∧
    (x.phy = .l0 → traceOn s.mach = true → Completes (.injOne p) s (fun t =>
      portOf t p = { x with injNext := BitVec.ofNat 4 (rd s.mach F.SHF_PAT_CTRL_INJ_LANES p) } ∧ others t ∧ t.out = [] ∧ Keeps [.sheaf] s.mach t ∧
      RegsSame s.mach t)) ∧
    (x.phy = .test → flag s.mach F.SHF_PAT_CTRL_GEN_EN p = true → Completes (.injOne p) s (fun t =>
      t.out = [.patternFlip p (BitVec.ofNat 4 (rd s.mach F.SHF_PAT_CTRL_INJ_LANES p))] ∧ Keeps [] s.mach t ∧ RegsSame s.mach t)) ∧
    ((x.phy ≠ .l0 ∧ x.phy ≠ .test) ∨ (x.phy = .test ∧ flag s.mach F.SHF_PAT_CTRL_GEN_EN p = false) → Completes (.injOne p) s (nothing s)) ∧
    (∀ w : Word, w.toNat % 4 = 3 → Completes (.registerWrite (F.SHF_PAT_CTRL_PATTERN.addr p) 15 w) s (fun t =>
      rd t F.SHF_PAT_CTRL_PATTERN p = rd s.mach F.SHF_PAT_CTRL_PATTERN p)) ∧
    (∀ w : Word, w.getLsbD 3 = false → Completes (.registerWrite (F.SHF_PAT_CTRL_PATTERN.addr p) 15 w) s (fun t =>
      rd t F.SHF_PAT_CTRL_CHK_EN p = 0 ∧ rd t F.SHF_PAT_CTRL_CHK_LOCK p = 0 ∧ (portOf t p).checkers = [{}, {}, {}, {}]))) ∧
  (∀ (m : Mach) (p : Fin 16) (f : BitVec 256),
    let waits := cameraPort m p = false ∧ f.toNat / 2 ^ 252 < 3
    (waits ∨ (portOf m p).injNext = 0 → onLanes m p f = f ∧ portOf (emitFlit m p f) p = portOf m p) ∧
    (¬ waits → (portOf (emitFlit m p f) p).injNext = 0 ∧
      ∀ i : Fin 256, (onLanes m p f).getLsbD i = (f.getLsbD i != (decide (i.val < 8) && (portOf m p).injNext.getLsbD (3 - i.val / 2))))) ∧
  ∀ (s : State) (p : Fin 16) (runs : List LaneRun),
    let x := portOf s.mach p
    let on := x.phy = .test ∧ rd s.mach F.SHF_PAT_CTRL_CHK_EN p = 1
    (¬ on → Completes (.patternWindowEnd p runs) s (nothing s)) ∧
    (on → x.checkers.length = 4 →
      let pat := rd s.mach F.SHF_PAT_CTRL_PATTERN p
      let n := rd s.mach F.SHF_PAT_CTRL_WINDOW p
      let q : Fin 4 → LaneChk × Nat := fun l => chkRun pat (if n = 0 then 0 else 2 ^ (n + 30))
        ((runs.getD l {}).seen.foldl (chkBit pat) (x.checkers.getD l {})) 0 (runs.getD l {}).wrong (runs.getD l {}).total
      Completes (.patternWindowEnd p runs) s (fun t =>
        (∀ l : Fin 4, (portOf t p).checkers.getD l {} = (q l).1 ∧ Counted (patErr l) p (q l).2 s.mach t ∧
          (BitVec.ofNat 4 (rd t F.SHF_PAT_CTRL_CHK_LOCK p)).getLsbD l = (q l).1.locked) ∧
        (∀ k : Fin 16, k ≠ p → portOf t k = portOf s.mach k) ∧ t.out = [] ∧
        RegsKeep [(patErr 0).addr p, (patErr 1).addr p, (patErr 2).addr p, (patErr 3).addr p, F.SHF_PAT_CTRL_CHK_EN.addr p] s.mach t ∧
        Keeps [.sheaf] s.mach t))

/-- A flit made of type, header bits and payload reads back as these, with a CRC that holds; a flit whose CRC holds is made of what it reads;
and the lanes carry it. For every TYPE below 16, every 12 header bits and every payload of 28 bytes, the flit built of them has a good
CRC-16 and reads back as exactly these; every 256-bit flit whose CRC is good is the flit built of its own type, header bits and payload:
no bit of a flit is dropped. The symbols of four lanes spell the flit that they were taken from, and precoding with its decoder gives back
every lane's symbols. -/
def Obligations.FlitsRoundTrip : Prop :=
  (∀ (type low : Nat) (payload : List Byte), type < 16 → low < 4096 → payload.length = 28 →
    let f := mkFlit type low payload
    flitCrcOk f = true ∧ flitType f = type ∧ (flitLow f).toNat = low ∧ flitPayload f = payload) ∧
  (∀ f : BitVec 256, flitCrcOk f = true → mkFlit (flitType f) (flitLow f).toNat (flitPayload f) = f) ∧
  (∀ f : BitVec 256, flitOfSymbols ((List.range 4).map (flitSymbols f)) = f) ∧
  ∀ (precoded : Bool) (fs : List (BitVec 256)) (lane : Fin 4),
    l0Read precoded (l0Levels precoded fs lane) = fs.flatMap (fun f => flitSymbols f lane)

/-- A received flit: CRC, type, order, acknowledgement; NAK, replay and the clearing of the link. On a port in L0: a flit whose CRC fails is
counted and nothing of it is taken; one of a type that the port's mode does not allow is a PROTO_ERR; a sequenced flit next in order is
taken and acknowledged; any other is not, and the first asks with NAK, a later one being answered with the last ACK_SEQ. A LINE flit joins
the line data; a WR_HDR notes its RESULT by the checks of R157 in their order. An LCTL without flags takes the cumulative credits. Nothing
of ours waiting, an IDLE acknowledges the flits up to its ACK_SEQ, an LCTL with NAK alone has every flit not acknowledged resent, one with
RETRAIN_REQ starts a retraining, and PM 1 or 2 is refused with PM 4 on a ticking camera port and else, the replay buffer being empty,
acknowledged with PM 3, the deeper state winning. A replay timeout resends every flit not acknowledged, in order, an injection that waits
flipping the first that it may, and asks for retraining instead once one of them has been resent four times; with none, or out of L0, it
does nothing. LINK_DOWN outside L0, QUIET and DEEP clears the link state, and is raised. The first ACK_SEQ, the counts of resends, the
handshake's corners and injected errors are assumptions 47, 48, 52 and 105. -/
def Obligations.FlitsAreTakenInOrder : Prop :=
  let nothing : State → Mach → Prop := fun s t => Keeps [] s.mach t ∧ RegsSame s.mach t ∧ t.out = []
  let taken : State → Fin 16 → BitVec 256 → Mach → Prop := fun s p f t => (portOf t p).rxAck = flitLow f ∧ (portOf t p).nakSent = false ∧
    (portOf t p).replay = (portOf s.mach p).replay ∧ (∀ q : Fin 16, q ≠ p → portOf t q = portOf s.mach q) ∧
    .flit p (onLanes s.mach p (mkFlit 0 (flitLow f).toNat [])) ∈ t.out ∧ Keeps [.sheaf, .host] s.mach t
  let replays : Fin 16 → State → Mach → Prop := fun p s t =>
    let x := portOf s.mach p
    let k := x.replay.findIdx (fun g => decide (injLanes s.mach p g ≠ 0))
    (∃ v : List Output, (∀ o ∈ v, ∃ n, o = .msix n) ∧
      t.out = v ++ x.replay.mapIdx (fun j g => .flit p (if j ≤ k then onLanes s.mach p g else g))) ∧
    (portOf t p).injNext = (if k < x.replay.length then 0 else x.injNext) ∧ (portOf t p).replay = x.replay ∧
    (portOf t p).resends = x.resends.map (· + 1) ∧ Counted F.SHF_LNK_CNT0_REPLAYS p 1 s.mach t ∧ rd t F.SHF_LNK_EVENT_REPLAY p = 1 ∧
    Keeps [.sheaf, .host] s.mach t
  ∀ (s : State) (p : Fin 16) (f : BitVec 256),
    let x := portOf s.mach p
    let b := flitPayload f
    (x.phy = .l0 →
    (flitCrcOk f = false → x.crcTimes.length < 63 → Completes (.flitReceived p f) s (fun t => rd t F.SHF_LNK_EVENT_CRC_ERR p = 1 ∧
      Counted F.SHF_LNK_CNT0_CRC_ERR p 1 s.mach t ∧ { portOf t p with crcTimes := [] } = { x with crcTimes := [] } ∧ OnlyVectors t ∧
      (∀ q : Fin 16, q ≠ p → portOf t q = portOf s.mach q) ∧
      Keeps [.sheaf, .host] s.mach t ∧ RegsKeep [F.SHF_LNK_EVENT_CRC_ERR.addr p, F.SHF_LNK_CNT0_CRC_ERR.addr p] s.mach t)) ∧
    (flitCrcOk f = true → typeRefused s.mach p (flitType f) = true → Completes (.flitReceived p f) s (fun t =>
      rd t F.SHF_LNK_EVENT_PROTO_ERR p = 1 ∧ Counted F.SHF_LNK_CNT2_PROTO_ERR p 1 s.mach t ∧ Keeps [.host] s.mach t ∧
      RegsKeep [F.SHF_LNK_EVENT_CRC_ERR.addr p, F.SHF_LNK_CNT2_PROTO_ERR.addr p] s.mach t)) ∧
    (flitCrcOk f = true → typeRefused s.mach p (flitType f) = false → 2 ≤ flitType f →
      (flitLow f ≠ x.rxAck + 1 → (x.nakSent = true ∨ x.scrubIdle = true → Completes (.flitReceived p f) s (fun t =>
          t.out = [.flit p (onLanes s.mach p (idleFlit s.mach p))] ∧ Keeps [.sheaf] s.mach t ∧ RegsSame s.mach t)) ∧
        (x.nakSent = false → x.scrubIdle = false → Completes (.flitReceived p f) s (fun t => (portOf t p).nakSent = true ∧
          (portOf t p).rxAck = x.rxAck ∧ (portOf t p).rxLine = x.rxLine ∧ (portOf t p).rxHdr = x.rxHdr ∧
          t.out = [.flit p (onLanes s.mach p (mkFlit 1 x.rxAck.toNat
            (leBytes 1 1 ++ leBytes 1 0 ++ leBytes 2 x.freedW.toNat ++ leBytes 2 x.freedR.toNat)))] ∧ Keeps [.sheaf] s.mach t ∧
          RegsSame s.mach t))) ∧
      (flitLow f = x.rxAck + 1 → x.scrubIdle = false →
        (flitType f = 3 → Completes (.flitReceived p f) s (fun t => (portOf t p).rxLine = x.rxLine ++ [b] ∧ taken s p f t ∧ RegsSame s.mach t)) ∧
        (flitType f = 4 → Completes (.flitReceived p f) s (fun t => taken s p f t ∧
          (let w := winOf s.mach (leAt b 0 2 % 4096)
           let r : Nat := if w.isOpen = false ∨ w.gen.toNat ≠ leAt b 2 2 then 1 else if w.port ≠ p.val then 2
             else if leAt b 4 4 + leAt b 8 2 > w.sizeKib * 1024 then 3 else 0
           ∃ h : InWrite, (portOf t p).rxHdr = some h ∧ h.result = r ∧ h.window = leAt b 0 2 % 4096 ∧ h.offset = leAt b 4 4 ∧
             h.length = leAt b 8 2 ∧ h.tag = leAt b 10 2 ∧ h.data = [] ∧ h.baseKib = w.baseKib ∧ h.owner = w.owner ∧ h.granary = w.granary ∧
             (r = 1 → w.isOpen = true ∨ w.openedAt ≠ none →
               rd t F.SHF_LNK_EVENT_LATE_WRITE p = 1 ∧ Counted F.SHF_LNK_CNT1_LATE_WRITE p 1 s.mach t)) ∧
          RegsKeep [F.SHF_LNK_EVENT_LATE_WRITE.addr p, F.SHF_LNK_CNT1_LATE_WRITE.addr p] s.mach t)))) ∧
    (flitCrcOk f = true → flitType f = 1 → (b.getD 0 0).toNat % 8 = 0 → x.awaitAck = false → x.lpPeer = none →
      Completes (.lctl p f) s (fun t => (portOf t p).credW = BitVec.ofNat 12 (leAt b 2 2) ∧ (portOf t p).credR = BitVec.ofNat 12 (leAt b 4 2) ∧
        (portOf t p).rxAck = x.rxAck ∧ (portOf t p).rxLine = x.rxLine ∧ Keeps [.sheaf, .host] s.mach t)) ∧
    (flitCrcOk f = true → x.awaitAck = false → x.lpPeer = none → x.waiting = [] → x.outWrites = [] →
      let n := (flitLow f + 1 - (x.txSeq - BitVec.ofNat 12 x.replay.length)).toNat
      let acked := if n ≤ x.replay.length then n else 0
      (flitType f = 0 → Completes (.flitReceived p f) s (fun t => t.out = [] ∧ RegsSame s.mach t ∧ Keeps [.sheaf] s.mach t ∧
        portOf t p = { x with replay := x.replay.drop acked, resends := x.resends.drop acked } ∧ ∀ q : Fin 16, q ≠ p → portOf t q = portOf s.mach q)) ∧
      (flitType f = 1 → acked = 0 → leAt b 0 2 = 1 → x.replay ≠ [] → x.scrubIdle = false → (∀ n ∈ x.resends, n < 4) → Completes (.lctl p f) s (replays p s)) ∧
      (flitType f = 1 → leAt b 0 1 = 2 → Completes (.lctl p f) s (fun t => (portOf t p).phy = .clock ∧
        Counted F.SHF_PHY_CNT_RETRAINS p 1 s.mach t ∧ Keeps [.sheaf, .ctl, .align, .host] s.mach t)) ∧
      (flitType f = 1 → leAt b 0 1 = 0 → (leAt b 1 1 = 1 ∨ leAt b 1 1 = 2) → x.scrubIdle = false →
        (cameraPort s.mach p = true → ticking s.mach = true → Completes (.lctl p f) s (fun t => RegsSame s.mach t ∧ Keeps [.sheaf] s.mach t ∧
          t.out = [.flit p (onLanes s.mach p (lctlFlit s.mach p 0 4))] ∧ (portOf t p).lpAcked = x.lpAcked)) ∧
        (¬ (cameraPort s.mach p = true ∧ ticking s.mach = true) → x.replay = [] → Completes (.lctl p f) s (fun t => RegsSame s.mach t ∧
          t.out = [.flit p (onLanes s.mach p (lctlFlit s.mach p 0 3))] ∧ Keeps [.sheaf] s.mach t ∧
          (portOf t p).lpAcked = some (if x.lpOut = some .deep ∨ leAt b 1 1 = 2 then .deep else .quiet))))) ∧
    (x.replay ≠ [] → x.scrubIdle = false → (∀ n ∈ x.resends, n < 4) → Completes (.replayTimeout p) s (fun t => replays p s t ∧
      portOf t p = { x with resends := x.resends.map (· + 1), injNext := (portOf t p).injNext } ∧ (∀ q : Fin 16, q ≠ p → portOf t q = portOf s.mach q) ∧
      RegsKeep [F.SHF_LNK_EVENT_REPLAY.addr p, F.SHF_LNK_CNT0_REPLAYS.addr p] s.mach t)) ∧
    (x.replay ≠ [] → (∃ n ∈ x.resends, 4 ≤ n) → Completes (.replayTimeout p) s (fun t => (portOf t p).phy = .clock ∧
      (portOf t p).replay = x.replay ∧ (portOf t p).resends = x.resends.map (fun _ => 0) ∧
      rd t F.SHF_LNK_EVENT_RETRAIN_REQ p = 1 ∧ Counted F.SHF_PHY_CNT_RETRAINS p 1 s.mach t ∧
      Keeps [.sheaf, .ctl, .align, .host] s.mach t))) ∧
    (x.phy ≠ .l0 ∨ x.replay = [] → Completes (.replayTimeout p) s (nothing s)) ∧
    (flitType f ≠ 1 → Completes (.lctl p f) s (nothing s)) ∧
    (x.phy ∈ [.l0, .quiet, .deep] → Completes (.linkDown p) s (nothing s)) ∧
    (x.phy ∉ [.l0, .quiet, .deep] → Completes (.linkDown p) s (fun t => (portOf t p).replay = [] ∧
      (portOf t p).waiting = [] ∧ (portOf t p).rxWrites = [] ∧ (portOf t p).rxRsps = [] ∧ (portOf t p).txSeq = 0 ∧ (portOf t p).rxAck = 0xFFF ∧
      (portOf t p).fresh = true ∧ (portOf t p).phy = x.phy ∧ rd t F.SHF_LNK_EVENT_LINK_DOWN p = 1 ∧ t.wins = s.mach.wins ∧
      t.time = s.mach.time ∧ t.cfg = s.mach.cfg))

/-- A remote write lands whole or changes nothing, and is answered; its sender's write then ends. The oldest complete write of a port leaves
its queue. One whose RESULT is not LANDED is counted in NACK_SENT and changes no memory and no window; one that landed in an HBM region,
but for a grant, changes exactly the bytes at its offset in the region that its window had when its header passed, while the lines are
still its owner's, and nothing once they are not. Where the link can send, the answer leaves as a WR_RSP with the write's TAG, RESULT, the
window's generation and its index. With no complete write, or a landing one whose owner's pool has no staging line for it, nothing
happens. A WR_RSP returns a class R credit and ends the sent write of its TAG; a write that never sent its header ends at its timeout with
WR_TIMEOUT, or, of a tick that still runs, waits or goes to a newer grant (R327). Neither changes a memory. When a write lands, and its
wait for lines of the pool, are assumptions 50 and 106. -/
def Obligations.RemoteWritesLandWhole : Prop :=
  let nothing : State → Mach → Prop := fun s t => Keeps [] s.mach t ∧ RegsSame s.mach t ∧ t.out = []
  let still : State → Mach → Prop := fun s t => t.fab.hbm = s.mach.fab.hbm ∧ (∀ k : Fin 8, (tilOf t k).granary = (tilOf s.mach k).granary) ∧
    t.time = s.mach.time ∧ t.cfg = s.mach.cfg
  (∀ (s : State) (p : Fin 16), ((portOf s.mach p).rxWrites = [] → Completes (.remoteWrite p) s (nothing s)) ∧
    ((portOf s.mach p).rxRsps = [] → Completes (.wrRsp p) s (nothing s))) ∧
  (∀ (s : State) (p : Fin 16) (w : InWrite) (ws : List InWrite), (portOf s.mach p).rxWrites = w :: ws →
    let x := portOf s.mach p
    let answered : Nat → Mach → Prop := fun gen t => linkOpen x = true → 0 < creditR x → x.waiting = [] → ∃ g : BitVec 256,
      .flit p (onLanes s.mach p g) ∈ t.out ∧ flitType g = 6 ∧ flitLow g = x.txSeq ∧ flitCrcOk g = true ∧ flitPayload g = slice (leBytes 2 w.tag ++
        leBytes 1 w.result ++ leBytes 1 0 ++ leBytes 2 gen ++ leBytes 2 w.window) 0 28
    (w.result ≠ 0 → Completes (.remoteWrite p) s (fun t => (portOf t p).rxWrites = ws ∧ Counted F.SHF_LNK_CNT1_NACK_SENT p 1 s.mach t ∧
      still s t ∧ t.wins = s.mach.wins ∧ answered (winOf s.mach w.window).gen.toNat t ∧ Keeps [.sheaf] s.mach t ∧
      RegsKeep [F.SHF_LNK_CNT1_NACK_SENT.addr p] s.mach t)) ∧
    (w.result = 0 → landRoom s.mach w = false → Completes (.remoteWrite p) s (nothing s)) ∧
    (w.result = 0 → w.window < 4080 → w.granary = false →
      let a0 := w.baseKib * 1024 + w.offset
      let h := s.mach.fab.hbm
      let ls := linesOf a0 w.data.length
      ((∀ l ∈ ls, lineOwner h l ≠ w.owner) → Completes (.remoteWrite p) s (fun t => (portOf t p).rxWrites = ws ∧ still s t)) ∧
      ((∀ l ∈ ls, lineOwner h l = w.owner) → (∀ l ∈ ls, ∀ k ∈ ls, physLine h l = physLine h k → l = k) →
      Completes (.remoteWrite p) s (fun t => (portOf t p).rxWrites = ws ∧ t.fab.hbm.map = h.map ∧
        (∀ i : Nat, ∀ b : Byte, w.data[i]? = some b → rawByte true t.fab.hbm (a0 + i) = b) ∧
        (∀ c : Nat, (∀ i < w.data.length, c ≠ physLine h ((a0 + i) / 4096) * 4096 + (a0 + i) % 4096) → tget 0 t.fab.hbm.mem c = tget 0 h.mem c) ∧
        (∀ k : Fin 8, (tilOf t k).granary = (tilOf s.mach k).granary) ∧
        (∀ i : Nat, i ≠ w.window → winOf t i = winOf s.mach i) ∧ answered (winOf s.mach w.window).gen.toNat t ∧
        Keeps [.sheaf, .wins, .fab] s.mach t ∧ RegsSame s.mach t)))) ∧
  (∀ (s : State) (p : Fin 16) (b : List Byte) (bs : List (List Byte)), (portOf s.mach p).rxRsps = b :: bs →
    Completes (.wrRsp p) s (fun t => (portOf t p).rxRsps = bs ∧ (portOf t p).freedR = (portOf s.mach p).freedR + 1 ∧
      (leAt b 2 1 = 0 → (portOf t p).outWrites.map (fun w => w.tag) =
        ((portOf s.mach p).outWrites.filter (fun w => !(w.tag == leAt b 0 2 && w.sent))).map (fun w => w.tag)) ∧
      still s t ∧ t.wins = s.mach.wins)) ∧
  ∀ (s : State) (p : Fin 16) (tag : Nat),
    let due := ∃ w ∈ (portOf s.mach p).outWrites, w.tag = tag ∧ w.sent = false ∧ w.held = 0
    (¬ due → Completes (.wrTimeout p tag) s (nothing s)) ∧
    (due → Completes (.wrTimeout p tag) s (fun t => rd t F.SHF_LNK_EVENT_WR_TIMEOUT p = 1 ∧ Counted F.SHF_LNK_CNT2_WR_TIMEOUT p 1 s.mach t ∧
      (∀ w ∈ (portOf t p).outWrites, w.tag = tag → w.sent = true ∨ w.held ≠ 0 ∨ w.again = true) ∧ still s t ∧ t.wins = s.mach.wins))

/-- A window opens with the next generation; a close leaves everything but its state. Outside POWERING and DORMANT, a window that is closed
and was not opened within the last 1 µs opens with its generation up by one, modulo 2^16, its owner, port, space, place and size, and
nothing landed; one that is open, or opened within 1 µs, stays as it is; in POWERING and DORMANT nothing opens. A close of a window that
is no bootstrap window closes it and changes nothing else of it. Other windows and everything else stay. What the spec leaves open here is
the model's in assumption 50. -/
def Obligations.WindowsOpenAndClose : Prop :=
  ∀ (s : State) (i : Fin 4096),
    let w := winOf s.mach i
    let rest : Mach → Prop := fun t => (∀ k : Fin 4096, k ≠ i → winOf t k = winOf s.mach k) ∧ Keeps [.wins] s.mach t ∧ RegsSame s.mach t ∧ t.out = []
    (∀ (owner port : Fin 16) (granary : Bool) (tiller : Fin 8) (baseKib sizeKib : Nat),
      let off := s.mach.ctl.st = .powering ∨ s.mach.ctl.st = .dormant
      let soon := ∃ o : LTime, w.openedAt = some o ∧ tdiff s.mach.time.now o < 1000 * 65536
      (¬ off → w.isOpen = false → ¬ soon → Completes (.windowOpen i owner port granary tiller baseKib sizeKib) s (fun t => rest t ∧
        (winOf t i).isOpen = true ∧ (winOf t i).gen = w.gen + 1 ∧ (winOf t i).owner = owner.val ∧ (winOf t i).port = port.val ∧
        (winOf t i).granary = granary ∧ (winOf t i).tiller = (if granary then tiller.val else 0) ∧ (winOf t i).baseKib = baseKib ∧
        (winOf t i).sizeKib = sizeKib ∧ (winOf t i).landed0 = 0 ∧ (winOf t i).landed1 = 0)) ∧
      (off ∨ w.isOpen = true ∨ soon → Completes (.windowOpen i owner port granary tiller baseKib sizeKib) s (fun t => rest t ∧ winOf t i = w))) ∧
    (i.val < 4080 → Completes (.windowClose i) s (fun t => rest t ∧ winOf t i = { w with isOpen := false })) ∧
    (4080 ≤ i.val → Completes (.windowClose i) s (fun t => rest t ∧ winOf t i = w))

/-- A line packet is stored, filled or discarded by the checks of R171, in their order. On a held port, or before CAMERA applies, the next
packet is dropped and counted as EARLY_DROP. On a camera port, flits that fail check 1 are dropped, a HDR_ERR once a run; a packet of
which not all flits have come waits. The lines whose deadlines have passed are settled first. Then: a whole packet on a port in reset is
UNEXPECTED; one for a triggered open line of its COUNT and a band not yet received is stored when CRC and CAM_ERR are good, else its band
counts as filled and the line as BAD, with CRC_ERR or CAM_ERR; after the line's deadline it is LATE_ARRIVED; any other is UNEXPECTED.
Another port's flits are dropped. Other lines and ports stay. What the spec leaves open here is the model's in assumptions 41, 54 and 56. -/
def Obligations.LinePacketsFillTheSwath : Prop :=
  let nothing : State → Mach → Prop := fun s t => Keeps [] s.mach t ∧ RegsSame s.mach t ∧ t.out = []
  let ev : Fin 16 → List Nat := fun p => [F.INT_PORT_EVENT_CRC_ERR.addr p, F.INT_PORT_CNT0_CRC_ERR.addr p, F.INT_PORT_CNT1_HDR_ERR.addr p,
    F.INT_PORT_CNT2_CAM_ERR.addr p]
  ∀ (s : State) (p : Fin 16),
    let fs := (portOf s.mach p).rxLine
    let c := camOf s.mach p
    let n := packetFlits c
    let r := fs.dropWhile (fun f => !headerOk c p f)
    let m := passDeadlines s.mach p
    let i := ipOf m p
    let counted : Fld → Fld → Mach → Prop := fun f g t => rd t f p = 1 ∧ Counted g p 1 m t
    let frame : Mach → Prop := fun t => (∀ q : Fin 16, q ≠ p → ipOf t q = ipOf s.mach q ∧ portOf t q = portOf s.mach q) ∧
      (ipOf t p).lineCount = (ipOf s.mach p).lineCount ∧ (ipOf t p).drain = (ipOf s.mach p).drain ∧ OnlyVectors t ∧
      Keeps [.sheaf, .intake, .host] s.mach t
    let others : Mach → Prop := fun t => (ipOf t p).fill.length = i.fill.length ∧
      ∀ (k : Nat) (x : Line), i.fill[k]? = some x → x.lineNo ≠ BitVec.ofNat 32 (leAt (r.take n).flatten 4 4) → (ipOf t p).fill[k]? = some x
    (fs = [] → Completes (.linePacket p) s (nothing s)) ∧
    (fs ≠ [] → (s.mach.ctl.cameraApplied = false ∨ (portOf s.mach p).phy = .hold) → Completes (.linePacket p) s (fun t =>
      rd t F.INT_PORT_EVENT_EARLY_DROP p = 1 ∧ Counted F.INT_PORT_CNT1_EARLY_DROP p 1 s.mach t ∧ Counted F.GEN_EARLY_DROP_CAMERA 0 1 s.mach t ∧
      ipOf t p = ipOf s.mach p ∧ (∃ k > 0, (portOf t p).rxLine = fs.drop k) ∧ frame t ∧ RegsKeep (F.GEN_EARLY_DROP_CAMERA.addr 0 :: ev p) s.mach t)) ∧
    (fs ≠ [] → s.mach.ctl.cameraApplied = true → (portOf s.mach p).phy ≠ .hold →
      (cameraPort s.mach p = false → Completes (.linePacket p) s (fun t => (portOf t p).rxLine = [] ∧ frame t ∧ ipOf t p = ipOf s.mach p ∧
        RegsSame s.mach t ∧ t.out = [])) ∧
      (cameraPort s.mach p = true →
        (r = [] ∨ r.length < n → Completes (.linePacket p) s (fun t => (portOf t p).rxLine = r ∧
          (ipOf t p).hdrRun = decide (r = []) ∧ (ipOf t p).fill = (ipOf s.mach p).fill ∧ frame t ∧
          (r.length < fs.length → (ipOf s.mach p).hdrRun = false → rd t F.INT_PORT_EVENT_HDR_ERR p = 1 ∧
            Counted F.INT_PORT_CNT1_HDR_ERR p 1 s.mach t) ∧
          (r = fs ∨ (ipOf s.mach p).hdrRun = true → RegsSame s.mach t) ∧ RegsKeep (ev p) s.mach t)) ∧
        (r ≠ [] → n ≤ r.length →
          let b := (r.take n).flatten
          let no : BitVec 32 := BitVec.ofNat 32 (leAt b 4 4)
          let band := leAt b 3 1 % 8
          let done : (Mach → Prop) → Prop := fun P => Completes (.linePacket p) s (fun t => (portOf t p).rxLine = r.drop n ∧
            (ipOf t p).hdrRun = false ∧ frame t ∧ RegsKeep (ev p) s.mach t ∧
            (r.length < fs.length → (ipOf s.mach p).hdrRun = false → rd t F.INT_PORT_EVENT_HDR_ERR p = 1 ∧
              Counted F.INT_PORT_CNT1_HDR_ERR p 1 s.mach t) ∧ P t)
          let late := done (fun t => (ipOf t p).fill = i.fill ∧ counted F.INT_PORT_EVENT_LATE_ARRIVED F.INT_PORT_CNT2_LATE_ARRIVED t)
          let unexpected := done (fun t => (ipOf t p).fill = i.fill ∧ counted F.INT_PORT_EVENT_UNEXPECTED F.INT_PORT_CNT1_UNEXPECTED t)
          (i.inReset = true → unexpected) ∧
          (i.inReset = false →
            (i.fill.find? (fun l => l.lineNo == no) = none → (no ∈ i.recent → late) ∧ (no ∉ i.recent → unexpected)) ∧
            ∀ l : Line, i.fill.find? (fun l => l.lineNo == no) = some l →
              (l.sent = true → l.closed = true → late) ∧
              (l.sent = false ∨ (l.closed = false ∧ (l.count.toNat ≠ leAt b 8 6 ∨ l.got.getLsbD band = true)) → unexpected) ∧
              (l.sent = true → l.closed = false → l.count.toNat = leAt b 8 6 → l.got.getLsbD band = false →
                let crcOk := crc32 (slice b 0 (16 + payloadBytes c)) = leAt b (16 + payloadBytes c) 4
                let camErr := (leAt b 3 1).testBit 6
                (crcOk → camErr = false → done (fun t => others t ∧ ∃ l' : Line, (ipOf t p).fill.find? (fun l => l.lineNo == no) = some l' ∧
                  l'.got = l.got ||| (1#6 <<< band) ∧ l'.filled = l.filled ∧ l'.mark = l.mark ∧ l'.closed = false ∧
                  ∀ k < c.bands, l'.bands.getD k [] = if k = band then unpackLine c (slice b 16 (payloadBytes c)) else l.bands.getD k [])) ∧
                (¬ crcOk ∨ camErr = true → done (fun t => others t ∧
                  (∃ l' : Line, (ipOf t p).fill.find? (fun l => l.lineNo == no) = some l' ∧
                    l'.got = l.got ||| (1#6 <<< band) ∧ l'.filled = l.filled ||| (1#6 <<< band) ∧ l'.bands = l.bands ∧
                    l'.mark = if l.mark = .good then .bad else l.mark) ∧
                  (¬ crcOk → counted F.INT_PORT_EVENT_CRC_ERR F.INT_PORT_CNT0_CRC_ERR t) ∧
                  (crcOk → counted F.INT_PORT_EVENT_CAM_ERR F.INT_PORT_CNT2_CAM_ERR t))))))))

/-- Past its deadline a line's missing bands are filled by FILL and it is MISSING; a free engine takes the next line round-robin. A line's
deadline is its trigger instant plus 0.75 MIN_PERIOD. Once it has passed, on a port that is not in reset, the line and those before it are
settled: each band neither received nor filled takes the previous line's content, zeros or FILL_CONST by FILL; the line is MISSING unless
it lies before the origin, and LATE counts once. Earlier, or for a line that is not open, nothing happens. In RUNNING and DEGRADED, with
no swap of parameters or table due, a free engine serves the first port after the last one served that holds an unprocessed line, and
takes its first line: BAD if it was GOOD and a word of its buffer or its port's parameters is bad; its entries are those of the active
table at its columns' addresses, 0 for a word lost in every replica in service, whose swath then meets CHAFF_LOST. Without such a port, or
in other states, nothing happens. Other ports stay. What the spec leaves open here is the model's in assumptions 56, 57 and 61. -/
def Obligations.DeadlinesFillAndLinesArePrepared : Prop :=
  let nothing : State → Mach → Prop := fun s t => Keeps [] s.mach t ∧ RegsSame s.mach t ∧ t.out = []
  (∀ (s : State) (p : Fin 16) (no : BitVec 32),
    let due := fun (l : Line) => l.lineNo == no && !l.closed &&
      decide (0 ≤ tdiff s.mach.time.now l.trigTime - (camOf s.mach p).minPeriod * 10 * 65536 * 3 / 4)
    ((ipOf s.mach p).inReset = true ∨ (ipOf s.mach p).fill.any due = false → Completes (.lineDeadline p no) s (nothing s)) ∧
    ∀ (pre post : List Line) (l : Line), (ipOf s.mach p).inReset = false → (ipOf s.mach p).fill = pre ++ l :: post →
      pre.any due = false → due l = true →
      let c := camOf s.mach p
      let gone := allBands c &&& ~~~ l.got
      Completes (.lineDeadline p no) s (fun t => (∃ (pre' : List Line) (l' : Line), (ipOf t p).fill = pre' ++ l' :: post ∧
          pre'.map (fun x => (x.lineNo, x.count, x.trigTime, x.got, x.closed)) = pre.map (fun x => (x.lineNo, x.count, x.trigTime, x.got, true)) ∧
          l'.closed = true ∧ l'.lineNo = l.lineNo ∧ l'.count = l.count ∧ l'.trigTime = l.trigTime ∧ l'.got = l.got ∧ l'.filled = l.filled ||| gone ∧
          l'.mark = (if gone ≠ 0 ∧ l.mark ≠ .outside then .missing else l.mark) ∧ (ipOf t p).prevBands = l'.bands ∧
          ((∀ x ∈ pre, x.closed = true) → pre' = pre ∧ ∀ b < c.bands, l'.bands.getD b [] =
            if (l.filled ||| gone).getLsbD b = false then l.bands.getD b []
            else if c.fill = 1 then List.replicate c.pixels 0
            else if c.fill = 0 then (if (ipOf s.mach p).prevBands.getD b [] = [] then List.replicate c.pixels 0 else (ipOf s.mach p).prevBands.getD b [])
            else List.replicate c.pixels c.fillConst)) ∧
        (∀ q : Fin 16, q ≠ p → ipOf t q = ipOf s.mach q) ∧ (ipOf t p).drain = (ipOf s.mach p).drain ∧ OnlyVectors t ∧
        (gone ≠ 0 → l.mark ≠ .outside → rd t F.INT_PORT_EVENT_LATE p = 1) ∧
        ((∀ x ∈ pre, x.closed = true) → (gone ≠ 0 → l.mark ≠ .outside → Counted F.INT_PORT_CNT0_LATE p 1 s.mach t) ∧
          (gone = 0 ∨ l.mark = .outside → RegsSame s.mach t)) ∧
        Keeps [.intake, .host] s.mach t ∧ RegsKeep [F.INT_PORT_EVENT_LATE.addr p, F.INT_PORT_CNT0_LATE.addr p] s.mach t)) ∧
  ∀ (s : State) (buf par : Fin 3),
    let swap := ticking s.mach = true ∧ ((ispPending s.mach = true ∧ s.mach.ctl.tickCount ≠ s.mach.isp.pendTick) ∨
      (chaffState s.mach = 2 ∧ s.mach.ctl.tickCount ≠ s.mach.chaff.pendTick))
    (pipelineOn s.mach = false ∨ (¬ swap ∧ ∀ p : Fin 16, (ipOf s.mach p).drain = []) → ∀ ws : List (Nat × Nat),
      Completes (.prepareLine ws buf par) s (nothing s)) ∧
    ∀ (d : Fin 16) (ln : Line) (rest : List Line), pipelineOn s.mach = true → ¬ swap →
    let p := (s.mach.isp.lastPort + 1 + d.val) % 16
    (∀ k < d.val, (ipOf s.mach ((s.mach.isp.lastPort + 1 + k) % 16)).drain = []) → (ipOf s.mach p).drain = ln :: rest →
    let chans := (pipeLine s.mach p ln).2.2.map (fun ch => ch.map Int.toNat)
    (∀ ws : List (Nat × Nat), Completes (.prepareLine ws buf par) s (fun t => (ipOf t p).drain = rest ∧ t.isp.lastPort = p ∧
      (∃ x : PrepLine, (ipOf t p).prep = (ipOf s.mach p).prep ++ [x] ∧ x.chans = chans ∧ x.line = { ln with mark :=
        if ln.mark = .good ∧ (buf = 2 ∨ (par = 2 ∧ s.mach.isp.dirty = true) ∨ p ∈ s.mach.isp.badPorts) then .bad else ln.mark }) ∧
      (∀ q : Fin 16, q.val ≠ p → ipOf t q = ipOf s.mach q) ∧ t.isp.set0 = s.mach.isp.set0 ∧ t.isp.set1 = s.mach.isp.set1 ∧ OnlyVectors t)) ∧
    let hit := (camOf s.mach p).chaffEn = true ∧ ∃ a ∈ lineAddrs (camOf s.mach p) chans, wordLost s.mach (a / 4) = true
    Completes (.prepareLine [] buf par) s (fun t =>
      (∃ x : PrepLine, (ipOf t p).prep = (ipOf s.mach p).prep ++ [x] ∧
        x.entries = if (camOf s.mach p).chaffEn then (lineAddrs (camOf s.mach p) chans).map (fun a =>
          if wordLost s.mach (a / 4) then 0 else (tget 0 (activeTable s.mach) a).toNat) else []) ∧
      t.fab.lostPorts = (if hit ∧ p ∉ s.mach.fab.lostPorts then s.mach.fab.lostPorts ++ [p] else s.mach.fab.lostPorts) ∧
      (hit → p ∉ s.mach.fab.lostPorts → rd t F.CHF_EVENT_CHAFF_LOST 0 = 1) ∧ Keeps [.intake, .isp, .fab, .host] s.mach t ∧
      (¬ hit → Keeps [.intake, .isp, .host] s.mach t) ∧ (¬ hit → s.mach.isp.probe = none → buf = 0 → par = 0 → RegsSame s.mach t ∧ t.out = []))

/-- Alignment starts where the state allows it, fails with its reason, and ends in the median of three passes. With the function ready and
outside D3hot and no alignment running, a START in CONFIGURED runs alignment, in MACHINE_READY it returns to CONFIGURED first, in RUNNING
and DEGRADED it waits for a later boundary, where, if no loss of time or of the master comes first, the module goes to CONFIGURED and
alignment runs; in any other state it is denied with NOT_ALLOWED. While alignment runs a START is ignored; a write without it stores GROUP
and APPLY. A pass, once the master is valid, without the target on every selected port, or with none selected, fails with NO_TARGET, the
timeout with TIMEOUT; a third pass whose results spread fails with SPREAD, and else STATE is DONE with the medians in INT_ALIGN_RES. A
failure leaves the applied offsets. Without APPLY, and not at start-up, so does DONE. What the spec leaves open here is the model's in
assumptions 58, 97 and 115. -/
def Obligations.AlignmentRunsAndEnds : Prop :=
  let offsets : State → Mach → Prop := fun s t => ∀ p : Fin 16, rd t F.INT_PORT_LOFS_LINE_OFS p = rd s.mach F.INT_PORT_LOFS_LINE_OFS p ∧
    rd t F.INT_PORT_POFS_PIX_OFS p = rd s.mach F.INT_PORT_POFS_PIX_OFS p
  let failed : Nat → State → Mach → Prop := fun why s t => t.ctl.align = false ∧ rd t F.INT_ALIGN_STATUS_STATE 0 = 3 ∧
    rd t F.INT_ALIGN_STATUS_FAIL 0 = why ∧ t.ctl.st = s.mach.ctl.st ∧ offsets s t
  let nothing : State → Mach → Prop := fun s t => Keeps [] s.mach t ∧ RegsSame s.mach t ∧ t.out = []
  let runs : Mach → Prop := fun t => t.ctl.align = true ∧ t.ctl.st = .configured ∧ rd t F.INT_ALIGN_STATUS_STATE 0 = 1 ∧
    rd t F.INT_ALIGN_STATUS_FAIL 0 = 0 ∧ rd t F.INT_ALIGN_STATUS_PASS 0 = 0 ∧ t.align.passes = []
  (∀ (s : State) (v : Word), (¬ HostMay s.mach ∨ (s.mach.ctl.align = true ∧ v.getLsbD 0 = true) → Completes (.alignmentStart v) s (nothing s)) ∧
    (HostMay s.mach → s.mach.ctl.st ≠ .dormant → v.getLsbD 0 = false → Completes (.alignmentStart v) s (fun t =>
      rd t F.INT_ALIGN_CTRL_GROUP 0 = v.toNat / 16 % 8 ∧ rd t F.INT_ALIGN_CTRL_APPLY 0 = (v.getLsbD 7).toNat ∧ t.out = [] ∧ Keeps [] s.mach t ∧
      RegsKeep [F.INT_ALIGN_CTRL_GROUP.addr 0] s.mach t))) ∧
  (∀ (s : State) (v : Word), HostMay s.mach → s.mach.ctl.align = false → v.getLsbD 0 = true →
    (s.mach.ctl.st = .configured ∨ s.mach.ctl.st = .machineReady → Completes (.alignmentStart v) s (fun t => runs t ∧ offsets s t ∧
      t.align.group = v.toNat / 16 % 8 ∧ t.align.apply = v.getLsbD 7)) ∧
    (pipelineOn s.mach = true → Completes (.alignmentStart v) s (fun t => t.ctl = { s.mach.ctl with
        realignDue := true, realignTick := s.mach.ctl.tickCount } ∧ t.align = { s.mach.align with group := v.toNat / 16 % 8, apply := v.getLsbD 7 } ∧ t.out = [] ∧
      Keeps [.ctl, .align] s.mach t ∧ RegsKeep [F.INT_ALIGN_CTRL_GROUP.addr 0] s.mach t)) ∧
    (s.mach.ctl.st ∈ [.powering, .booting, .standby, .dormant, .fault] → Completes (.alignmentStart v) s (fun t => t.out = [.accessDenied] ∧
      rd t F.INT_ALIGN_STATUS_FAIL 0 = 4 ∧ rd t F.INT_ALIGN_STATUS_STATE 0 = 3 ∧ offsets s t ∧ Keeps [] s.mach t))) ∧
  (∀ s : State,
    let m := applyLosses (fresh s.mach)
    let due := pipelineOn m = true ∧ m.ctl.realignDue = true ∧ m.ctl.tickCount ≠ m.ctl.realignTick
    (due → Completes .realignTakesEffect s (fun t => runs t ∧ offsets s t ∧
      t.ctl.prev = m.ctl.st ∧ t.ctl.realignDue = false ∧ t.align.group = s.mach.align.group)) ∧
    (¬ due → Completes .realignTakesEffect s (fun t => Keeps [] m t ∧ RegsSame m t ∧ t.out = m.out))) ∧
  (∀ s : State, s.mach.ctl.align = false ∨ s.mach.align.waiting = true → Completes .alignmentPassComplete s (nothing s)) ∧
  (∀ s : State, s.mach.ctl.align = false → Completes .alignmentTimeout s (nothing s)) ∧
  ∀ s : State, s.mach.ctl.align = true →
    Completes .alignmentTimeout s (failed 3 s) ∧
    (s.mach.align.waiting = false →
      ((∃ p : Fin 16, portActive s.mach p = true ∧ passOf s.mach p = none) ∨ alignPorts s.mach = [] → Completes .alignmentPassComplete s (failed 1 s)) ∧
      ∀ xs : List (Nat × Int × Int), (alignPorts s.mach).map (fun p => (p, passOf s.mach p)) = xs.map (fun x => (x.1, some x.2)) → xs ≠ [] →
        (s.mach.align.passes.length < 2 → Completes .alignmentPassComplete s (fun t => t.ctl.align = true ∧
          t.align.passes = s.mach.align.passes ++ [passResults s.mach xs] ∧
          rd t F.INT_ALIGN_STATUS_PASS 0 = s.mach.align.passes.length + 1 ∧ offsets s t ∧ Keeps [.align] s.mach t)) ∧
        ∀ a b : Tab PassRes, s.mach.align.passes = [a, b] →
          let g := fun (t : Tab PassRes) (p : Nat) => tget ({} : PassRes) t p
          let c := passResults s.mach xs
          let medL := fun (p : Nat) => median3 (g a p).lineOfs (g b p).lineOfs (g c p).lineOfs
          let medP := fun (p : Nat) => median3 (g a p).pixOfs (g b p).pixOfs (g c p).pixOfs
          let near := ∀ p ∈ alignPorts s.mach, ∀ x ∈ [a, b, c], ((g x p).lineOfs - medL p).natAbs ≤ 64 ∧ ((g x p).pixOfs - medP p).natAbs ≤ 1
          (¬ near → Completes .alignmentPassComplete s (failed 2 s)) ∧
          (near → Completes .alignmentPassComplete s (fun t => t.ctl.align = false ∧ t.ctl.alignDue = false ∧
            rd t F.INT_ALIGN_STATUS_STATE 0 = 2 ∧ rd t F.INT_ALIGN_STATUS_FAIL 0 = 0 ∧
            (∀ p ∈ alignPorts s.mach, rd t F.INT_ALIGN_RES_L_LINE_OFS p = twos 24 (medL p) ∧ rd t F.INT_ALIGN_RES_P_PIX_OFS p = twos 13 (medP p)) ∧
            (s.mach.align.startup = false → s.mach.align.apply = false → offsets s t))))

/-- INT_ISP_DATA reaches the inactive set only; a swap is checked, exchanged and copied back. With the function ready and INT powered: a write
of INT_ISP_DATA to a field of an enabled port, with HOST_WRITE, no swap pending and none copying, stores the word in the inactive set; any
other is denied; a read returns the inactive word, or 0 where no field is; each moves ADDR on, and so does a write of some of its bytes,
which is ignored. SWAP starts the check, or is denied. The check refuses an inconsistent set (CHECK 1), then a change of shape (2); a set
that passes waits for the first tick boundary after the check, or takes effect at once in CONFIGURED and STANDBY: the sets exchange roles,
SET_ID takes NEXT_ID, SWAPPED is raised and COPYING is 1; then the inactive set becomes equal to the active one. What the spec leaves open
here is the model's in assumptions 38, 59 and 60. -/
def Obligations.IspParametersAreWrittenCheckedAndSwapped : Prop :=
  let nothing : State → Mach → Prop := fun s t => Keeps [] s.mach t ∧ RegsSame s.mach t ∧ t.out = []
  let sets : State → Mach → Prop := fun s t => activeSet t = activeSet s.mach ∧ inactiveSet t = inactiveSet s.mach
  let next : State → Mach → Prop := fun s t => rd t F.INT_ISP_ADDR_ADDR 0 = (rd s.mach F.INT_ISP_ADDR_ADDR 0 + 1) % 2 ^ 22
  let exchanged : State → Mach → Prop := fun s t => activeSet t = inactiveSet s.mach ∧ inactiveSet t = activeSet s.mach ∧
    rd t F.INT_ISP_SET_ID_SET_ID 0 = rd s.mach F.INT_ISP_NEXT_ID_NEXT_ID 0 ∧ rd t F.INT_ISP_EVENT_SWAPPED 0 = 1 ∧
    rd t F.INT_ISP_STATUS_SWAP_PENDING 0 = 0 ∧ rd t F.INT_ISP_STATUS_COPYING 0 = 1 ∧ Counted F.INT_ISP_STATUS_SWAPS 0 1 s.mach t ∧
    rd t F.INT_ISP_STATUS_ACTIVE_SET 0 = (if t.isp.active1 then 1 else 0) ∧ t.intake = s.mach.intake ∧
    Keeps [.isp, .flash, .host] s.mach t ∧ RegsKeep [F.INT_ISP_STATUS_SWAPS.addr 0, F.INT_ISP_SET_ID_SET_ID.addr 0, F.INT_ISP_EVENT_SWAPPED.addr 0,
      F.FLS_CNT_AUDIT_LOST.addr 0] s.mach t
  (∀ (s : State) (v : Word), ¬ HostMay s.mach ∨ s.mach.ctl.st = .dormant → ∀ c ∈ [Instr.ispDataWrite v, Instr.ispSwap], Completes c s (nothing s)) ∧
  (∀ s : State, HostMay s.mach → s.mach.ctl.st ≠ .dormant →
    let a := rd s.mach F.INT_ISP_ADDR_ADDR 0
    (∀ (be : BitVec 4) (v : Word), be ≠ 0 → be ≠ 15 → Completes (.registerWrite (F.INT_ISP_DATA_DATA.addr 0) be v) s (fun t => next s t ∧
      rd t F.HST_EVENT_PARTIAL_WRITE 0 = 1 ∧ Keeps [.host] s.mach t)) ∧
    let open_ := ispHost s.mach = true ∧ ispPending s.mach = false ∧ ispCopying s.mach = false
    (∀ v : Word,
      (open_ → ispField s.mach a = true → Completes (.ispDataWrite v) s (fun t => next s t ∧ activeSet t = activeSet s.mach ∧
        tget 0 (inactiveSet t) a = v ∧ (∀ b : Nat, b ≠ a → tget 0 (inactiveSet t) b = tget 0 (inactiveSet s.mach) b) ∧ t.out = [] ∧
        Keeps [.isp] s.mach t ∧ RegsKeep [F.INT_ISP_ADDR_ADDR.addr 0] s.mach t)) ∧
      (¬ open_ ∨ ispField s.mach a = false → Completes (.ispDataWrite v) s (fun t => next s t ∧ t.out = [.accessDenied] ∧
        Keeps [] s.mach t ∧ RegsKeep [F.INT_ISP_ADDR_ADDR.addr 0] s.mach t))) ∧
    Completes .ispDataRead s (fun t => next s t ∧
      t.out = [.readData (if ispField s.mach a then tget 0 (inactiveSet s.mach) a else 0)] ∧
      Keeps [] s.mach t ∧ RegsKeep [F.INT_ISP_ADDR_ADDR.addr 0] s.mach t) ∧
    (open_ → Completes .ispSwap s (fun t => t.isp = { s.mach.isp with checking := true } ∧ t.out = [] ∧ Keeps [.isp] s.mach t ∧ RegsSame s.mach t)) ∧
    (¬ open_ → Completes .ispSwap s (fun t => t.out = [.accessDenied] ∧ Keeps [] s.mach t ∧ RegsSame s.mach t))) ∧
  ∀ s : State,
    (s.mach.isp.checking = false → Completes .ispSwapCheckComplete s (nothing s)) ∧
    (ispCopying s.mach = false → Completes .ispCopyComplete s (nothing s)) ∧
    (s.mach.isp.checking = true →
      (setConsistent s.mach (inactiveSet s.mach) = false ∨ setShape s.mach (inactiveSet s.mach) = false →
        Completes .ispSwapCheckComplete s (fun t => sets s t ∧ rd t F.INT_ISP_EVENT_SWAP_REFUSED 0 = 1 ∧ t.isp.checking = false ∧
          rd t F.INT_ISP_STATUS_CHECK 0 = (if setConsistent s.mach (inactiveSet s.mach) = true then 2 else 1) ∧ Keeps [.isp, .host] s.mach t ∧
          RegsKeep [F.INT_ISP_STATUS_CHECK.addr 0, F.INT_ISP_EVENT_SWAP_REFUSED.addr 0] s.mach t)) ∧
      (setConsistent s.mach (inactiveSet s.mach) = true → setShape s.mach (inactiveSet s.mach) = true →
        ((s.mach.ctl.st = .configured ∨ s.mach.ctl.st = .standby) → Completes .ispSwapCheckComplete s (exchanged s)) ∧
        (s.mach.ctl.st ≠ .configured → s.mach.ctl.st ≠ .standby → Completes .ispSwapCheckComplete s (fun t => sets s t ∧
          rd t F.INT_ISP_STATUS_CHECK 0 = 0 ∧ rd t F.INT_ISP_STATUS_SWAP_PENDING 0 = 1 ∧ t.isp.pendTick = s.mach.ctl.tickCount ∧ t.out = [] ∧ Keeps [.isp] s.mach t ∧
          RegsKeep [F.INT_ISP_STATUS_CHECK.addr 0] s.mach t)))) ∧
    (let due := ispPending s.mach = true ∧ ticking s.mach = true ∧ s.mach.ctl.tickCount ≠ s.mach.isp.pendTick
     (due → Completes .ispSwapTakesEffect s (exchanged s)) ∧ (¬ due → Completes .ispSwapTakesEffect s (nothing s))) ∧
    (ispCopying s.mach = true → Completes .ispCopyComplete s (fun t => activeSet t = activeSet s.mach ∧ inactiveSet t = activeSet s.mach ∧
      rd t F.INT_ISP_STATUS_COPYING 0 = 0 ∧ Keeps [.isp] s.mach t ∧ RegsKeep [F.INT_ISP_STATUS_COPYING.addr 0] s.mach t))

/-- The pixel probe arms at TRACE or above without confidential contexts, and captures one column of one line. PROBE_ARM with ARM set, debug
level TRACE or FULL and no confidential context, stores and arms PORT and COLUMN and clears DONE; else it is denied and stores nothing;
without ARM PORT and COLUMN are stored. In RUNNING and DEGRADED, with no swap due, an armed probe captures the next line of its port: DONE
is 1, it is disarmed, and the data fields show the column's stage-3 values by band, its stage-6 values by channel, and 0 throughout for a
column beyond PIXELS. A probe that is not armed, or has no line, captures nothing. What the spec leaves open here is the model's in
assumption 59. -/
def Obligations.ProbeArmsAndCaptures : Prop :=
  let nothing : State → Mach → Prop := fun s t => Keeps [] s.mach t ∧ RegsSame s.mach t ∧ t.out = []
  (∀ (s : State) (v : Word), ¬ HostMay s.mach ∨ s.mach.ctl.st = .dormant → Completes (.probeArm v) s (nothing s)) ∧
  (∀ (s : State) (v : Word), HostMay s.mach → s.mach.ctl.st ≠ .dormant →
    let stored : Mach → Prop := fun t => rd t F.INT_ISP_PROBE_CTRL_PORT 0 = v.toNat / 2 ^ 16 % 16 ∧
      rd t F.INT_ISP_PROBE_CTRL_COLUMN 0 = v.toNat % 2 ^ 15 ∧ RegsKeep [F.INT_ISP_PROBE_CTRL_PORT.addr 0] s.mach t
    (v.getLsbD 20 = false → Completes (.probeArm v) s (fun t => stored t ∧ t.out = [] ∧ Keeps [] s.mach t)) ∧
    (v.getLsbD 20 = true → (traceOn s.mach = false ∨ confPresent s.mach = true) → Completes (.probeArm v) s (fun t =>
      t.out = [.accessDenied] ∧ Keeps [] s.mach t ∧ RegsSame s.mach t)) ∧
    (v.getLsbD 20 = true → traceOn s.mach = true → confPresent s.mach = false → Completes (.probeArm v) s (fun t => stored t ∧
      t.isp = { s.mach.isp with probe := some (v.toNat / 2 ^ 16 % 16, v.toNat % 2 ^ 15) } ∧ rd t F.INT_ISP_PROBE_CTRL_DONE 0 = 0 ∧
      t.out = [] ∧ Keeps [.isp] s.mach t))) ∧
  ∀ (s : State),
    let swap := ticking s.mach = true ∧ ((ispPending s.mach = true ∧ s.mach.ctl.tickCount ≠ s.mach.isp.pendTick) ∨
      (chaffState s.mach = 2 ∧ s.mach.ctl.tickCount ≠ s.mach.chaff.pendTick))
    (pipelineOn s.mach = false ∨ (¬ swap ∧ (s.mach.isp.probe = none ∨ ∃ (p : Fin 16) (col : Nat), s.mach.isp.probe = some (p.val, col) ∧
      (ipOf s.mach p).drain = [])) → Completes .probeCapture s (nothing s)) ∧
    ∀ (p : Fin 16) (col : Nat) (ln : Line) (rest : List Line), pipelineOn s.mach = true → ¬ swap → s.mach.isp.probe = some (p.val, col) →
    (ipOf s.mach p).drain = ln :: rest →
    let r := pipeLine s.mach p ln
    let s3 := fun (b : Nat) => ((r.2.1.getD b []).getD ((col : Int) - pixOfs s.mach p).toNat 0).toNat % 65536
    let s6 := fun (k : Nat) => ((r.2.2.getD k []).getD col 0).toNat % 65536
    let got : Mach → Prop := fun t => t.isp = { s.mach.isp with probe := none } ∧ rd t F.INT_ISP_PROBE_CTRL_DONE 0 = 1 ∧
      Keeps [.isp] s.mach t ∧ RegsKeep [F.INT_ISP_PROBE_CTRL_DONE.addr 0, F.INT_ISP_PROBE_D0_S3_B0.addr 0, F.INT_ISP_PROBE_D1_S3_B2.addr 0,
        F.INT_ISP_PROBE_D2_S6_C1.addr 0, F.INT_ISP_PROBE_D3_S7_C0.addr 0] s.mach t
    (col < (camOf s.mach p).pixels → 0 ≤ (col : Int) - pixOfs s.mach p → Completes .probeCapture s (fun t => got t ∧
      rd t F.INT_ISP_PROBE_D0_S3_B0 0 = s3 0 ∧ rd t F.INT_ISP_PROBE_D0_S3_B1 0 = s3 1 ∧ rd t F.INT_ISP_PROBE_D1_S3_B2 0 = s3 2 ∧
      rd t F.INT_ISP_PROBE_D1_S6_C0 0 = s6 0 ∧ rd t F.INT_ISP_PROBE_D2_S6_C1 0 = s6 1 ∧ rd t F.INT_ISP_PROBE_D2_S6_C2 0 = s6 2)) ∧
    ((camOf s.mach p).pixels ≤ col → Completes .probeCapture s (fun t => got t ∧
      ∀ f ∈ [F.INT_ISP_PROBE_D0_S3_B0, F.INT_ISP_PROBE_D0_S3_B1, F.INT_ISP_PROBE_D1_S3_B2, F.INT_ISP_PROBE_D1_S6_C0, F.INT_ISP_PROBE_D2_S6_C1,
        F.INT_ISP_PROBE_D2_S6_C2, F.INT_ISP_PROBE_D3_S7_C0, F.INT_ISP_PROBE_D3_S7_C1, F.INT_ISP_PROBE_D3_S7_C2], rd t f 0 = 0))

/-- The shadow is loaded by DMA; a swap copies it to the standby pair, exchanges the pairs and refills; a bad copy leaves the table. With the
function ready: a load in IDLE, with none under way, CHAFF_WRITE set and pages in range, asks the host for its pages; else it is denied
and stores nothing. LOAD_DONE puts exactly these bytes over the shadow from the page on; after a failed read LOAD_ERR is raised. A swap in
IDLE with CHAFF_WRITE goes to COPY, else it is denied. A good copy puts the shadow in the standby pair and waits for a tick boundary after
it, or takes effect at once in CONFIGURED and STANDBY: LAST_PAIR and TABLE_ID change, SWAPPED is raised and REFILL runs. A shadow word
that fails parity gives CHECK 1 and SWAP_REFUSED and leaves active table, LAST_PAIR and TABLE_ID. The refill's end is IDLE with both pairs
alike and no word lost; but a word lost in both replicas of the serving pair before a refused swap stays lost in all four: it is refilled
next from an unchanged shadow, or waits for a swap. A peek returns the active entry. In DORMANT a load and a swap are denied. In another
state of the table none of these acts. What the spec leaves open here is the model's in assumptions 38, 59 and 61. -/
def Obligations.ChaffTableIsLoadedAndSwapped : Prop :=
  let nothing : State → Mach → Prop := fun s t => Keeps [] s.mach t ∧ RegsSame s.mach t ∧ t.out = []
  let exchanged : State → Tab Byte → Mach → Prop := fun s fresh t => activeTable t = fresh ∧ rd t F.CHF_STATUS_LAST_PAIR 0 = 1 - lastPair s.mach ∧
    chaffPair t (lastPair s.mach) = chaffPair s.mach (lastPair s.mach) ∧ rd t F.CHF_TABLE_ID_TABLE_ID 0 = rd s.mach F.CHF_NEXT_ID_NEXT_ID 0 ∧
    rd t F.CHF_EVENT_SWAPPED 0 = 1 ∧ chaffState t = 3 ∧ t.chaff.shadow = s.mach.chaff.shadow ∧ Keeps [.chaff, .flash, .host] s.mach t ∧
    RegsKeep [F.CHF_STATUS_STATE.addr 0, F.CHF_TABLE_ID_TABLE_ID.addr 0, F.CHF_EVENT_SWAPPED.addr 0, F.FLS_CNT_AUDIT_LOST.addr 0] s.mach t
  (∀ (s : State) (v : Word), (¬ HostMay s.mach → ∀ c ∈ [Instr.shadowLoad v, Instr.chaffSwap, Instr.chaffPeek v], Completes c s (nothing s)) ∧
    (HostMay s.mach → s.mach.ctl.st = .dormant → ∀ c ∈ (if v.getLsbD 31 then [Instr.shadowLoad v, Instr.chaffSwap] else [Instr.chaffSwap]),
      Completes c s (fun t => t.out = [.accessDenied] ∧ Keeps [] s.mach t ∧ RegsSame s.mach t))) ∧
  (∀ s : State, HostMay s.mach → s.mach.ctl.st ≠ .dormant →
    (∀ v : Word, v.getLsbD 31 = false → Completes (.shadowLoad v) s (fun t => rd t F.CHF_LOAD_CTRL_PAGE 0 = v.toNat % 4096 ∧
      rd t F.CHF_LOAD_CTRL_COUNT 0 = v.toNat / 4096 % 4096 ∧ t.out = [] ∧ Keeps [] s.mach t ∧ RegsKeep [F.CHF_LOAD_CTRL_PAGE.addr 0] s.mach t)) ∧
    (∀ v : Word, v.getLsbD 31 = true →
      let page := v.toNat % 4096
      let count := v.toNat / 4096 % 4096
      let may := chaffState s.mach = 0 ∧ rd s.mach F.CHF_STATUS_LOAD_BUSY 0 = 0 ∧ chaffWrite s.mach = true ∧ page + count ≤ 4095
      let stored : Mach → Prop := fun t => rd t F.CHF_LOAD_CTRL_PAGE 0 = page ∧ rd t F.CHF_LOAD_CTRL_COUNT 0 = count ∧
        t.chaff = { s.mach.chaff with loadPage := page, loadCount := count } ∧ Keeps [.chaff] s.mach t
      (may → Completes (.shadowLoad v) s (fun t => stored t ∧ rd t F.CHF_STATUS_LOAD_BUSY 0 = 1 ∧
        t.out = [.dmaRead (BitVec.ofNat 64 (rd s.mach F.CHF_LOAD_ADDR_LO_ADDR_LO 0 * 4096 + rd s.mach F.CHF_LOAD_ADDR_HI_ADDR_HI 0 * 2 ^ 32))
          ((count + 1) * 4096)] ∧ RegsKeep [F.CHF_LOAD_CTRL_PAGE.addr 0, F.CHF_STATUS_LOAD_BUSY.addr 0] s.mach t)) ∧
      (¬ may → Completes (.shadowLoad v) s (fun t => t.out = [.accessDenied] ∧ Keeps [] s.mach t ∧ RegsSame s.mach t))) ∧
    (chaffState s.mach = 0 → chaffWrite s.mach = true → Completes .chaffSwap s (fun t => chaffState t = 1 ∧ t.out = [] ∧ Keeps [] s.mach t ∧
      RegsKeep [F.CHF_STATUS_STATE.addr 0] s.mach t)) ∧
    (chaffState s.mach ≠ 0 ∨ chaffWrite s.mach = false → Completes .chaffSwap s (fun t => t.out = [.accessDenied] ∧ Keeps [] s.mach t ∧
      RegsSame s.mach t)) ∧
    ∀ v : Word, Completes (.chaffPeek v) s (fun t => rd t F.CHF_PEEK_ADDR 0 = v.toNat % 2 ^ 24 ∧
      t.out = [.readData (BitVec.ofNat 32 ((tget 0 (activeTable s.mach) (v.toNat % 2 ^ 24)).toNat * 2 ^ 24 + v.toNat % 2 ^ 24))] ∧
      Keeps [] s.mach t ∧ RegsKeep [F.CHF_PEEK_ADDR.addr 0] s.mach t)) ∧
  ∀ s : State,
    let at_ := s.mach.chaff.loadPage * 4096
    let n := (s.mach.chaff.loadCount + 1) * 4096
    (rd s.mach F.CHF_STATUS_LOAD_BUSY 0 = 0 → ∀ data : Option (List Byte), Completes (.loadDone data) s (nothing s)) ∧
    (chaffState s.mach ≠ 1 → ∀ bad : Option (Fin 4096), Completes (.chaffCopyComplete bad) s (nothing s)) ∧
    (chaffState s.mach ≠ 3 → Completes .chaffRefillComplete s (nothing s)) ∧
    (rd s.mach F.CHF_STATUS_LOAD_BUSY 0 = 1 →
      (∀ bs : List Byte, bs.length = n → Completes (.loadDone (some bs)) s (fun t => rd t F.CHF_EVENT_LOAD_DONE 0 = 1 ∧
        rd t F.CHF_STATUS_LOAD_BUSY 0 = 0 ∧ (∀ (i : Nat) (b : Byte), bs[i]? = some b → tget 0 t.chaff.shadow (at_ + i) = b) ∧
        (∀ a : Nat, a < at_ ∨ at_ + n ≤ a → tget 0 t.chaff.shadow a = tget 0 s.mach.chaff.shadow a) ∧
        t.chaff.pair0 = s.mach.chaff.pair0 ∧ t.chaff.pair1 = s.mach.chaff.pair1 ∧ Keeps [.chaff, .host] s.mach t)) ∧
      Completes (.loadDone none) s (fun t => rd t F.CHF_EVENT_LOAD_ERR 0 = 1 ∧ rd t F.CHF_STATUS_LOAD_BUSY 0 = 0 ∧
        (∀ a : Nat, a < at_ ∨ at_ + n ≤ a → tget 0 t.chaff.shadow a = tget 0 s.mach.chaff.shadow a) ∧
        t.chaff.pair0 = s.mach.chaff.pair0 ∧ t.chaff.pair1 = s.mach.chaff.pair1 ∧ Keeps [.chaff, .host, .draws] s.mach t)) ∧
    (chaffState s.mach = 1 →
      (∀ page : Fin 4096, Completes (.chaffCopyComplete (some page)) s (fun t => rd t F.CHF_STATUS_CHECK 0 = 1 ∧ t.chaff.badPage = page.val ∧ rd t F.CHF_EVENT_SWAP_REFUSED 0 = 1 ∧ chaffState t = 3 ∧
        activeTable t = activeTable s.mach ∧ lastPair t = lastPair s.mach ∧
        rd t F.CHF_TABLE_ID_TABLE_ID 0 = rd s.mach F.CHF_TABLE_ID_TABLE_ID 0 ∧ t.chaff.failRefill = true ∧ t.chaff.shadow = s.mach.chaff.shadow ∧ Keeps [.chaff, .host] s.mach t ∧
        RegsKeep [F.CHF_STATUS_STATE.addr 0, F.CHF_EVENT_SWAP_REFUSED.addr 0] s.mach t)) ∧
      ((s.mach.ctl.st = .configured ∨ s.mach.ctl.st = .standby) → Completes (.chaffCopyComplete none) s (exchanged s s.mach.chaff.shadow)) ∧
      (s.mach.ctl.st ≠ .configured → s.mach.ctl.st ≠ .standby → Completes (.chaffCopyComplete none) s (fun t => chaffState t = 2 ∧ t.chaff.pendTick = s.mach.ctl.tickCount ∧
        chaffPair t (1 - lastPair s.mach) = s.mach.chaff.shadow ∧ activeTable t = activeTable s.mach ∧ lastPair t = lastPair s.mach ∧
        rd t F.CHF_STATUS_CHECK 0 = 0 ∧ Keeps [.chaff] s.mach t ∧ RegsKeep [F.CHF_STATUS_STATE.addr 0] s.mach t))) ∧
    (let due := chaffState s.mach = 2 ∧ ticking s.mach = true ∧ s.mach.ctl.tickCount ≠ s.mach.chaff.pendTick
     (due → Completes .chaffSwapTakesEffect s (exchanged s (chaffPair s.mach (1 - lastPair s.mach)))) ∧
     (¬ due → Completes .chaffSwapTakesEffect s (nothing s))) ∧
    let lost := fun (w : Nat) => s.mach.chaff.failRefill = true ∧ s.mach.chaff.lostRefill = false ∧
      (w, 2 * lastPair s.mach) ∈ s.mach.chaff.badWords ∧ (w, 2 * lastPair s.mach + 1) ∈ s.mach.chaff.badWords
    (chaffState s.mach = 3 → Completes .chaffRefillComplete s (fun t => activeTable t = activeTable s.mach ∧
      ((∀ w : Nat, ¬ lost w) ∨ s.mach.chaff.dirty = true → chaffState t = 0) ∧
      ((∃ w : Nat, lost w) → s.mach.chaff.dirty = false → chaffState t = 3 ∧ t.chaff.lostRefill = true) ∧
      ((∃ w : Nat, lost w) → s.mach.chaff.dirty = true → t.chaff.needSwap = true) ∧
      (∀ w r : Nat, (w, r) ∈ t.chaff.badWords ↔ r < 4 ∧ lost w) ∧
      chaffPair t (1 - lastPair s.mach) = activeTable s.mach ∧ t.out = [] ∧ lastPair t = lastPair s.mach ∧
      (if s.mach.chaff.failRefill then rd t F.CHF_STATUS_SWAPS 0 = rd s.mach F.CHF_STATUS_SWAPS 0
        else Counted F.CHF_STATUS_SWAPS 0 1 s.mach t) ∧ Keeps [.chaff] s.mach t ∧ RegsKeep [F.CHF_STATUS_STATE.addr 0] s.mach t))

/-- A doorbell moves the producer count, is dropped or counted as an overflow; a fetch takes the next descriptor into flight. With the
function ready: a 4- or 8-byte doorbell at the first word of a queue is counted as an early drop before the boot has ended; for a queue
that is not enabled or of no context, or in D3hot, DB_DROP is raised and counted; for an LC queue, one of C0 or of a sealed context,
DENIED; the PI it had changes nothing; one no more than the ring's size beyond CI sets PI and nothing else; beyond it OVERFLOW is raised
and PI stays. A fetch by an enabled queue with work, room in its ring and room on its Tiller reads its slot (a host ring's by DMA) and
takes the descriptor into flight with SEQ CI (of the queue's present era), and CI goes up by one, no memory changing unless an UNLOAD ends
with it; it ends at once as BAD_DESCRIPTOR on a TAG still open or a bad field, and as HANDLE_INVALID on a handle not bound. A queue of a
context being scrubbed moves CI and takes nothing into flight, in STANDBY and FAULT too. Without these conditions, or while a command of
the queue awaits flight again (assumption 118), a fetch does nothing. A failed fetch stops a queue that has work and raises FETCH_ERR.
What the spec leaves open here is the model's in assumption 81. -/
def Obligations.DoorbellsAndDescriptors : Prop :=
  let nothing : State → Mach → Prop := fun s t => Keeps [] s.mach t ∧ RegsSame s.mach t ∧ t.out = []
  let noUnload : Mach → Prop := fun m => ∀ c : Nat, m.fab.ctxRun ≠ some (c, 3)
  let slot : Queue → Output := fun x => .dmaRead (x.base + BitVec.ofNat 64 (64 * (x.ci.toNat % 2 ^ x.log2Size))) 64
  (∀ (s : State) (off size : Nat) (v : BitVec 64), s.mach.ctl.fnReady = false ∨ size ∉ [4, 8] ∨ off % 8 ≠ 0 ∨ 524288 < off + size →
    Completes (.doorbell off size v) s (nothing s)) ∧
  (∀ (s : State) (off size : Nat) (v : BitVec 64), s.mach.ctl.fnReady = true → size ∈ [4, 8] → off % 8 = 0 → off + size ≤ 524288 →
    let q := off / 8
    let c := q / 4096
    let x := queOf s.mach q
    let k := ctxOf s.mach c
    let pi : BitVec 32 := v.setWidth 32
    let early := s.mach.ctl.st = .booting ∨ s.mach.ctl.st = .powering ∨ (s.mach.ctl.st = .fault ∧ s.mach.ctl.prev = .booting)
    let off := s.mach.ctl.d3hot = true ∨ x.st ≠ .enabled ∨ k.st = .free
    let barred := x.lc = true ∨ k.st = .sealed ∨ c = 0
    let beyond := k.st ≠ .scrubbing ∧ 2 ^ x.log2Size < (pi - x.ci).toNat
    let run := Completes (.doorbell (8 * q) size v) s
    (early → run (fun t => Counted F.GEN_EARLY_DROP_DOORBELL 0 1 s.mach t ∧ t.out = [] ∧ Keeps [] s.mach t ∧
      RegsKeep [F.GEN_EARLY_DROP_DOORBELL.addr 0] s.mach t)) ∧
    (¬ early → off → run (fun t => rd t F.QUE_EVENT_DB_DROP 0 = 1 ∧
      Counted F.QUE_CNT_DB_DROP 0 1 s.mach t ∧ Keeps [.host] s.mach t ∧ RegsKeep [F.QUE_EVENT_DB_DROP.addr 0, F.QUE_CNT_DB_DROP.addr 0] s.mach t)) ∧
    (¬ early → ¬ off → barred → run (fun t => rd t F.QUE_EVENT_DENIED 0 = 1 ∧ Keeps [.host] s.mach t ∧
      RegsKeep [F.QUE_EVENT_DENIED.addr 0] s.mach t)) ∧
    (¬ early → ¬ off → ¬ barred → (pi = x.pi → run (nothing s)) ∧
      (pi ≠ x.pi → ¬ beyond → run (fun t => queOf t q = { x with pi := pi } ∧ (∀ r : Nat, r ≠ q → queOf t r = queOf s.mach r) ∧
        t.fab = { s.mach.fab with queues := t.fab.queues } ∧ Keeps [.fab] s.mach t ∧ RegsSame s.mach t ∧ t.out = [])) ∧
      (pi ≠ x.pi → beyond → run (fun t => rd t F.QUE_EVENT_OVERFLOW 0 = 1 ∧
        (queOf t q).pi = x.pi ∧ (queOf t q).ci = x.ci ∧ t.fab.inflight = s.mach.fab.inflight)))) ∧
  (∀ (s : State) (q : Nat) (d : BitVec 512),
    let x := queOf s.mach q
    let c := q / 4096
    let r := ringOf s.mach (queRing s.mach q)
    let scrub := (ctxOf s.mach c).st = .scrubbing
    let seq := nextSeq s.mach q
    let may := (fabricOn s.mach = true ∨ (scrub ∧ s.mach.ctl.st ∈ [.standby, .fault])) ∧
      (∀ y ∈ parked (ctxOf s.mach c), y.queue ≠ q) ∧ x.st = .enabled ∧ x.ci ≠ x.pi ∧ x.lc = false ∧ (s.mach.ctl.d3hot = true → x.hbmRing = true) ∧
      r.enable = true ∧ ringUsed r + queInflight s.mach q + 1 ≤ 2 ^ r.log2Size
    let room : Nat → Prop := fun ti => tilUp s.mach ti = true ∧ beInflight s.mach ti < 768 ∧ allInflight s.mach ti < 1024
    (¬ may ∨ (¬ scrub ∧ ∀ ti : Nat, (ctxOf s.mach c).workMap[x.ltiller]? = some ti → ¬ room ti) →
      Completes (.descriptorFetch q (some d)) s (nothing s)) ∧
    (may → scrub → Completes (.descriptorFetch q (some d)) s (fun t => (queOf t q).ci = x.ci + 1 ∧ (x.hbmRing = false → slot x ∈ t.out) ∧
      (cmdOf s.mach q seq = none → t.fab.inflight = s.mach.fab.inflight))) ∧
    ∀ ti : Nat, may → ¬ scrub → (ctxOf s.mach c).workMap[x.ltiller]? = some ti → room ti → cmdOf s.mach q seq = none →
      Completes (.descriptorFetch q (some d)) s (fun t =>
        (queOf t q).ci = x.ci + 1 ∧ (queOf t q).pi = x.pi ∧ (x.hbmRing = false → slot x ∈ t.out) ∧
        (noUnload s.mach → t.fab.hbm = s.mach.fab.hbm ∧ ∀ k : Nat, (tilOf t k).granary = (tilOf s.mach k).granary) ∧
        ∃ k : Cmd, cmdOf t q seq = some k ∧ k.raw = d ∧
          k.desc = mapDesc s.mach c x.ltiller d ∧ k.ctx = c ∧ k.tiller = ti ∧ k.lc = false ∧
          (dTag d ∈ openTags s.mach q ∨ fieldsOk k.desc = false → k.phase = .done ∧ k.status = stBadDesc) ∧
          (dTag d ∉ openTags s.mach q → fieldsOk k.desc = true → (∃ h ∈ dHandles k.desc, (binOf s.mach ti c h).valid = false) →
            k.phase = .done ∧ k.status = stHandle))) ∧
  ∀ (s : State) (q : Nat),
    let x := queOf s.mach q
    let at_ := x.st = .enabled ∧ x.ci ≠ x.pi ∧ (s.mach.ctl.d3hot = true → x.hbmRing = true)
    ∀ i ∈ [Instr.descriptorFetch q none, .ringFetchFailure q],
      (¬ at_ → Completes i s (nothing s)) ∧
      (at_ → Completes i s (fun t => queOf t q = { x with st := .stopped } ∧ (∀ r : Nat, r ≠ q → queOf t r = queOf s.mach r) ∧
        rd t F.QUE_EVENT_FETCH_ERR 0 = 1 ∧ (x.hbmRing = false → slot x ∈ t.out) ∧ t.fab = { s.mach.fab with queues := t.fab.queues } ∧
        Keeps [.fab, .host] s.mach t ∧ RegsKeep [F.QUE_EVENT_FETCH_ERR.addr 0] s.mach t))

/-- A schedule step is issued once its waits are met: its batch is copied and its descriptors are in flight. In RUNNING and DEGRADED, for a
placed tick program that is not being unloaded: a step of a logical Tiller on a working Tiller, not yet issued for the batch, whose
awaited step has committed, whose earlier steps have been issued and whose peer data has landed, is issued when its commands fit the 1,024
in flight; otherwise nothing happens. A re-run for which the Judge stage has no time left (assumption 24) is not issued: MISS is counted
and its batch abandoned. The step is noted as issued, the queue's count goes up by the step's commands, each of them is in flight as an LC
command on the Tiller with its place in the step, and a step once per batch finds its batch copied into the Tiller's INPUT bin, the slots
that the copying finds bad being void. No batch is lost. What the spec leaves open here is the model's in assumption 79. -/
def Obligations.ScheduleStepsAreIssued : Prop :=
  let nothing : State → Mach → Prop := fun s t => Keeps [] s.mach t ∧ RegsSame s.mach t ∧ t.out = []
  ∀ (s : State) (c : Fin 16) (lt : Fin 8) (sn r : Nat) (bad : BitVec 64),
    let x := ctxOf s.mach c
    (x.program = none ∨ x.workMap[lt.val]? = none → Completes (.stepIssue c lt sn r bad) s (nothing s)) ∧
    ∀ (p : Program) (ti : Nat), x.program = some p → x.workMap[lt.val]? = some ti →
    ((runSteps p lt)[sn]? = none → Completes (.stepIssue c lt sn r bad) s (nothing s)) ∧
    ∀ st : SchedStep, (runSteps p lt)[sn]? = some st →
    (st.perBatch = true → (ltBatches s.mach c p lt)[r]? = none → Completes (.stepIssue c lt sn r bad) s (nothing s)) ∧
    ∀ b : Batch, (if st.perBatch then (ltBatches s.mach c p lt)[r]? else some { (default : Batch) with filled := 1 }) = some b →
    let bo := if st.perBatch then some b.no else none
    let key := stepKey lt sn st b.no
    let q := ltQueue c p lt
    let due := p.tick = true ∧ pipelineOn s.mach = true ∧ s.mach.fab.ctxRun ≠ some (c.val, 3) ∧ tilUp s.mach ti = true ∧ b.filled ≠ 0 ∧
      b.abandoned = 0 ∧ key ∉ x.stepsIssued ∧ (st.waitT = 255 ∨ stepCommitted s.mach c p st.waitT st.waitS bo = true) ∧
      (∀ k < sn, stepIssued s.mach c p lt k bo = true) ∧ peerReady s.mach c p st.peerWait = true ∧ allInflight s.mach ti + st.count ≤ 1024
    let late := st.perBatch = true ∧ (∃ y ∈ x.carry, y.lc = true ∧ y.lt = lt.val ∧ y.batch = bo) ∧ timeFits s.mach c bo = false
    (¬ due → Completes (.stepIssue c lt sn r bad) s (nothing s)) ∧
    (due → late → Completes (.stepIssue c lt sn r bad) s (fun t => Counted F.GEN_CHECK_CNT2_MISS 0 1 s.mach t ∧
      rd t F.GEN_CHECK_EVENT_MISS 0 = 1 ∧ (ctxOf t c).stepsIssued = x.stepsIssued ∧ t.fab.queues = s.mach.fab.queues ∧
      t.fab.inflight = s.mach.fab.inflight ∧ ∀ y ∈ t.fab.batches, y.context = c.val → y.no = b.no → y.abandoned ≠ 0)) ∧
    (due → ¬ late → Completes (.stepIssue c lt sn r bad) s (fun t =>
      (ctxOf t c).stepsIssued = x.stepsIssued ++ [key] ∧
      (queOf t q).ci = (queOf s.mach q).ci + BitVec.ofNat 32 (stepDescs p st).length ∧ (queOf t q).lc = true ∧
      (∀ i < (stepDescs p st).length, ∃ k ∈ t.fab.inflight, k.queue = q ∧ k.ctx = c.val ∧ k.lt = lt.val ∧ k.tiller = ti ∧ k.lc = true ∧
        k.step = some (lt.val, sn) ∧ k.ix = i ∧ k.batch = bo ∧ k.tick = s.mach.ctl.tickCount - 2) ∧
      (st.perBatch = true → ∃ y ∈ t.fab.batches, y.context = b.context ∧ y.no = b.no ∧ lt.val ∈ y.copied ∧ y.tensors = b.tensors ∧
        (lt.val ∉ b.copied → y.voidMask = b.voidMask ||| (bad &&& b.fillMask))) ∧
      t.fab.batches.map (fun y => (y.context, y.no, y.filled)) = s.mach.fab.batches.map (fun y => (y.context, y.no, y.filled))))

/-- A ready command that the scheduler chooses runs: its result is staged, and no byte outside its staging lines changes. For each of the nine
opcodes that use a unit: a fetched command that is ready, whose units are free and which the scheduler chooses, whose handles kept their
generation, whose lines are its own, whose accumulators and Husk header are in order, and for whose staging the pool has lines, runs, with
no injection armed: its staging is what the operator computes from its context's bytes, with its counts of saturations and NaNs, from now
on; it has taken a staging line for each line that it is the first of its group to write; no byte outside the context's pool changes. A
COPY stages, for each row, the source row's bytes. A command whose generation changed ends as HANDLE_INVALID, one that meets another
owner's line as ACCESS_DENIED, one without an accumulator version as BAD_DESCRIPTOR, without a run. Of a command that is not there, of
another opcode, done, held, or not to be started, nothing changes. (While no UNLOAD ends.) What the spec leaves open here is the model's
in assumptions 77 and 78. -/
def Obligations.CommandsRunOnTheirUnits : Prop :=
  let nothing : State → Mach → Prop := fun s t => Keeps [] s.mach t ∧ RegsSame s.mach t ∧ t.out = []
  let noUnload : Mach → Prop := fun m => ∀ c : Nat, m.fab.ctxRun ≠ some (c, 3)
  ∀ (s : State) (q seq : Nat), ∀ x ∈ ([(1, .conv), (2, .gemm), (3, .pool), (4, .eltw), (5, .argmax), (6, .copy), (7, .husk),
      (8, .unhusk), (9, .resize)] : List (Nat × (Nat → Nat → CheckIn → Instr))),
    (∀ chk : CheckIn, (∀ c : Cmd, cmdOf s.mach q seq = some c → dOp c.desc ≠ x.1 ∨ fabricOn s.mach = false ∨ c.phase = .held ∨ c.phase = .done ∨
        (c.phase = .fetched ∧ ¬ (ready s.mach c = true ∧ unitsFree s.mach c = true ∧ chosen s.mach c = true))) →
      Completes (x.2 q seq chk) s (nothing s)) ∧
    ∀ c : Cmd, cmdOf s.mach q seq = some c → dOp c.desc = x.1 → fabricOn s.mach = true → c.phase = .fetched → ready s.mach c = true →
      unitsFree s.mach c = true → chosen s.mach c = true →
    let d := c.desc
    let e := envOf s.mach c
    let r := compute d e
    let acc := if dOut d = 7 && usesAcc d then (accCheck s.mach c).map (fun n => (dBinAcc d, if isInt (dFmtA d) then 1 else 2, n)) else none
    let c' := { c with
      out := r.out, dst := if dOut d = 7 && usesAcc d then dBinAcc d else dBinD d }
    let versions := (usesAcc d = true → (accCheck s.mach c).isSome = true) ∧ noVersion s.mach c = false
    let still : Mach → Prop := fun t => noUnload s.mach → t.fab.hbm = s.mach.fab.hbm ∧ ∀ k : Nat, (tilOf t k).granary = (tilOf s.mach k).granary
    let ends : Nat → Prop := fun st => Completes (x.2 q seq .pass) s (fun t => still t ∧
      ∃ k : Cmd, cmdOf t q seq = some k ∧ k.phase = .done ∧ k.status = st)
    let outside : Nat → Store → Store → Prop := fun sp g g' => (∀ l n : Nat, physLine g l = physLine g n → l = n) →
      ∀ a : Nat, a / lineBytes ∉ poolOf s.mach c.tiller c.ctx sp → rawByte (sp == 1) g' a = rawByte (sp == 1) g a
    (genChanged s.mach c = true → ends stHandle) ∧
    (genChanged s.mach c = false → deniedAccess s.mach c = true → ends stDenied ∧ Completes (x.2 q seq .pass) s (fun t =>
      Counted F.TIL_GRN_CNT_OWNER_FAULT c.tiller 1 s.mach t)) ∧
    (genChanged s.mach c = false → deniedAccess s.mach c = false → ¬ versions → ends stBadDesc) ∧
    ∀ ls : List (Nat × Nat × Nat), genChanged s.mach c = false → deniedAccess s.mach c = false → versions →
      (x.1 = 8 → huskReason d (fun i => e.rdr (dBinA d) (dBytes d 24 4 + i)) ((cmdBin s.mach c (dBinA d)).size * 1024 - dBytes d 24 4)
        ((cmdBin s.mach c (dBinD d)).size * 1024 - dBytes d 28 4) = 0) → deniedHusk s.mach c true = false →
      (x.1 ∈ [7, 8] → ∀ w ∈ r.out, foreignRange s.mach c (c'.dst, w.1, w.2.length) = false) →
      r.bad = false → takeStage s.mach c' = some ls → (tilOf s.mach c.tiller).inject = {} →
      Completes (x.2 q seq .pass) s (fun t => (noUnload s.mach →
          (∀ k : Nat, k ≠ c.tiller → (tilOf t k).granary = (tilOf s.mach k).granary) ∧
          outside 0 (tilOf s.mach c.tiller).granary (tilOf t c.tiller).granary ∧ outside 1 s.mach.fab.hbm t.fab.hbm) ∧
        ∃ k : Cmd, cmdOf t q seq = some k ∧ k.phase = .running ∧ k.desc = d ∧ k.taken = ls ∧
        k.out = r.out ∧ k.dst = c'.dst ∧ k.accOut = acc ∧ k.sat = r.sat ∧ k.nanInt = r.nan ∧ k.startAt = s.mach.time.now ∧
        (x.1 = 6 → ∀ n < dBytes d 28 4, ∃ w ∈ k.out, w.1 = dBytes d 20 4 + n * rowStride (e.str (dBinD d)) (dBytes d 24 4) ∧
          w.2 = (List.range (dBytes d 24 4)).map (fun i =>
            viewByte s.mach c (dBinA d) (dBytes d 16 4 + n * rowStride (e.str (dBinA d)) (dBytes d 24 4) + i))))

/-- A run ends with its staging kept, a barrier waits for what precedes it, and COMMIT alone publishes the group. A running command that
completes is done with status OK, its staging kept, but waits while it needs an encryption engine in reset; a barrier completes once every
earlier command of its queue is done; neither changes a byte of memory; otherwise neither acts. A COMMIT whose group is done, with
generations unchanged, publishes it in the Granary of its Tiller and in HBM alike: where each line written has one staging line of the
pool and the line map maps no two lines alike, every byte outside the pool reads the latest staged byte that covers it, in SEQ order,
else, in a line written, what its staging line held, and otherwise as before; the Granaries of other Tillers stay. With no remote write
outstanding or staged, the group and the COMMIT are reported and no longer in flight. A COMMIT with an earlier command not done waits.
(While no UNLOAD ends.) What the spec leaves open here is the model's in assumption 92. -/
def Obligations.CommandsCompleteAndCommit : Prop :=
  let nothing : State → Mach → Prop := fun s t => Keeps [] s.mach t ∧ RegsSame s.mach t ∧ t.out = []
  let noUnload : Mach → Prop := fun m => ∀ c : Nat, m.fab.ctxRun ≠ some (c, 3)
  let still : State → Mach → Prop := fun s t => noUnload s.mach → t.fab.hbm = s.mach.fab.hbm ∧ ∀ k : Nat, (tilOf t k).granary = (tilOf s.mach k).granary
  (∀ (s : State) (q seq : Nat), cmdOf s.mach q seq = none → ∀ i ∈ [Instr.commandComplete q seq, .barrier q seq, .commit q seq],
    Completes i s (nothing s)) ∧
  (∀ (s : State) (q seq : Nat) (c : Cmd), cmdOf s.mach q seq = some c →
    (c.phase ≠ .running ∨ cryptoWaits s.mach c = true → Completes (.commandComplete q seq) s (nothing s)) ∧
    (c.phase = .running → cryptoWaits s.mach c = false → Completes (.commandComplete q seq) s (fun t => still s t ∧
      ∃ k : Cmd, cmdOf t q seq = some k ∧ k.phase = .done ∧ k.status = stOk ∧ k.out = c.out ∧ k.dst = c.dst ∧ k.taken = c.taken ∧
        k.accOut = c.accOut ∧ k.doneTick = s.mach.ctl.tickCount ∧
        k.engine = c.engine + if holdsUnits s.mach c then since s.mach c.startAt else 0)) ∧
    (let due : Nat → Prop := fun op => dOp c.desc = op ∧ c.phase = .fetched ∧ fabricOn s.mach = true ∧ tilUp s.mach c.tiller = true ∧
       ∀ x ∈ earlier s.mach c, x.phase = .done
     (¬ due 0x0A → Completes (.barrier q seq) s (nothing s)) ∧ (¬ due 0x0B → Completes (.commit q seq) s (nothing s)) ∧
     (due 0x0A → Completes (.barrier q seq) s (fun t => still s t ∧ ∃ k : Cmd, cmdOf t q seq = some k ∧ k.phase = .done ∧
        k.status = if noVersion s.mach c then stBadDesc else stOk)))) ∧
  ∀ (s : State) (q seq : Nat) (k : Cmd), cmdOf s.mach q seq = some k → dOp k.desc = 0x0B → k.phase = .fetched → fabricOn s.mach = true →
    tilUp s.mach k.tiller = true → (∀ x ∈ earlier s.mach k, x.phase = .done ∧ (x.status < 0x10 → genChanged s.mach x = false)) →
    (∀ x ∈ queueCmds s.mach q, x.tiller = k.tiller ∧ x.ctx = k.ctx) →
    let group := seqSort ((earlier s.mach k).filter (fun c => decide (c.status < 0x10)))
    let tk := (earlier s.mach k).flatMap (fun c => c.taken)
    let published : Nat → Store → Mach → Store → Prop := fun sp g t g' =>
      let pool := poolOf s.mach k.tiller k.ctx sp
      let ws := group.flatMap (fun c => if c.dst ≠ noBin ∧ (cmdBin s.mach c c.dst).space = sp then
        c.out.map (fun w => ((cmdBin s.mach c c.dst).base * 1024 + w.1, w.2)) else [])
      (∀ l n : Nat, physLine g l = physLine g n → l = n) →
      (∀ w ∈ ws, ∀ l ∈ linesOf w.1 w.2.length, l ∉ pool ∧ ∃ f ∈ pool, (sp, l, f) ∈ tk) →
      (∀ l f n : Nat, (sp, l, f) ∈ tk → (sp, n, f) ∈ tk → l = n) → (∀ l f e : Nat, (sp, l, f) ∈ tk → (sp, l, e) ∈ tk → f = e) →
      ∀ a : Nat, a / lineBytes ∉ pool → a / lineBytes ∉ poolOf t k.tiller k.ctx sp →
        let written := ∃ w ∈ ws, a / lineBytes ∈ linesOf w.1 w.2.length
        (∀ b : Byte, stagedByte ws a = some b → rawByte (sp == 1) g' a = b) ∧
        (stagedByte ws a = none → written → ∀ f : Nat, (sp, a / lineBytes, f) ∈ tk →
          rawByte (sp == 1) g' a = tget 0 g.mem (physLine g f * lineBytes + a % lineBytes)) ∧
        (stagedByte ws a = none → ¬ written → rawByte (sp == 1) g' a = rawByte (sp == 1) g a)
    Completes (.commit q seq) s (fun t =>
      (noUnload s.mach → published 0 (tilOf s.mach k.tiller).granary t (tilOf t k.tiller).granary ∧ published 1 s.mach.fab.hbm t t.fab.hbm ∧
        ∀ j : Nat, j ≠ k.tiller → (tilOf t j).granary = (tilOf s.mach j).granary) ∧
      ((∀ x ∈ s.mach.fab.inflight, x.queue = q → x.writesOut = 0) → (∀ x ∈ group, x.dst ≠ noBin → (cmdBin s.mach x x.dst).space ≠ 2) →
        (∀ y ∈ s.mach.fab.ctxs, ∀ z ∈ parked y.2, z.queue ≠ q) →
        cmdOf t q seq = none ∧ ∀ x ∈ earlier s.mach k, cmdOf t q x.seq = none))

/-- A refetch frees its command, a hop is resent, injections arm at debug level only, a placement loads and takes effect. A held command goes
on after its refetch, counted and raised as REFETCH, unless an LC command pre-empts it, and with it those that wait for the same bad line;
with a page that failed again, a spare takes it: PAGE_RETIRED, one spare less, the page on the list but in READ_ONLY; a command that
cannot go on is left. A check that fires on a running BE command counts a detection, kills it and lets it run again; the fourth such run
quarantines its Tiller. A Rachis flit resent counts in RACHIS_HOP and nothing else; abandoned for the second time, a host read returns
0xFFFF_FFFF and RACHIS is raised, the first time it is retried with no effect. At debug level TRACE or FULL an ARM write of the host
changes its Tiller's injections and no other part of the fabric; below it ACCESS_DENIED, and nothing. After the loads of a re-placement
that follows a loss its work goes to its Tillers; the placement in effect stays; a moved context whose image can be read nowhere becomes
unplaced, with COPY_LOST. Once loaded, at a later tick boundary where ticks fall, and after losses that are due, it takes effect: the maps
change, GEN_PLACE_SEQ counts, and UNPLACED or REPLACED says so. What the spec leaves open here is the model's in assumptions 77, 80, 83,
110 and 119. -/
def Obligations.ChecksRecoverAndPlacementsMove : Prop :=
  let nothing : State → Mach → Prop := fun s t => Keeps [] s.mach t ∧ RegsSame s.mach t ∧ t.out = []
  let noUnload : Mach → Prop := fun m => ∀ c : Nat, m.fab.ctxRun ≠ some (c, 3)
  (∀ (s : State) (q seq : Nat) (page : Option Nat), (∀ c : Cmd, cmdOf s.mach q seq = some c → mayResume s.mach c = false) →
    Completes (.refetchComplete q seq page) s (nothing s)) ∧
  (∀ (s : State) (q seq : Nat) (c : Cmd) (src : Nat), ∀ x ∈ ([(1, .conv), (2, .gemm), (3, .pool), (4, .eltw), (5, .argmax), (6, .copy), (7, .husk),
      (8, .unhusk), (9, .resize)] : List (Nat × (Nat → Nat → CheckIn → Instr))),
    cmdOf s.mach q seq = some c → c.phase = .running → dOp c.desc = x.1 → fabricOn s.mach = true → c.lc = false → src ≠ 6 →
    let hit : Mach → Prop := fun t => Counted F.TIL_ERR_CNT_DATA_CHECK c.tiller 1 s.mach t ∧ rd t F.TIL_EVENT_DATA_CHECK c.tiller = 1 ∧
      rd t F.TIL_EVENT_KILLED c.tiller = 1 ∧ ∃ k : Cmd, cmdOf t q seq = some k ∧ k.phase = .fetched ∧ k.out = [] ∧ k.kills = c.kills + 1
    (c.runs < 3 → (tilOf s.mach c.tiller).detections + 1 < rd s.mach F.GEN_CHECK_CFG_QUAR_RATE 0 → Completes (x.2 q seq (.fired src)) s (fun t =>
      hit t ∧ ∃ k : Cmd, cmdOf t q seq = some k ∧ k.runs = c.runs + 1 ∧ k.second = c.second)) ∧
    (c.runs = 3 → c.second = false → tilLost s.mach c.tiller = false → Completes (x.2 q seq (.fired src)) s (fun t =>
      (tilOf t c.tiller).quar = true ∧ rd t F.GEN_CHECK_EVENT_QUARANTINE 0 = 1 ∧ rd t F.TIL_EVENT_QUARANTINED c.tiller = 1))) ∧
  (∀ (s : State) (q seq : Nat) (c : Cmd), cmdOf s.mach q seq = some c → mayResume s.mach c = true →
    let own := holdsUnits s.mach c
    let unhurried := fun (x : Cmd) => x.lc = true ∨ ∀ y ∈ s.mach.fab.inflight, y.lc = true → y.phase ≠ .fetched
    let goesOn : Mach → Prop := fun t => rd t F.GEN_CHECK_EVENT_REFETCH 0 = 1 ∧ Counted F.GEN_CHECK_CNT2_REFETCH 0 1 s.mach t ∧
      (unhurried c → ∃ k : Cmd, cmdOf t q seq = some k ∧ k.phase = .running ∧ k.desc = c.desc ∧ k.out = c.out ∧ k.taken = c.taken ∧
        k.heldAt = none ∧ k.badLine = none ∧ k.startAt = (if own then c.startAt else s.mach.time.now) ∧
        k.heldNs = (if own then c.heldNs + (c.heldAt.map (nsSince s.mach)).getD 0 else 0)) ∧
      (∀ x ∈ s.mach.fab.inflight, cmdOf s.mach x.queue x.seq = some x → x.badLine.isSome = true → x.badLine = c.badLine → holdsUnits s.mach x = true →
        mayResume s.mach x = true → unhurried x → ∃ k : Cmd, cmdOf t x.queue x.seq = some k ∧ k.phase = .running) ∧
      (noUnload s.mach → ∀ k : Nat, (tilOf t k).granary = (tilOf s.mach k).granary)
    Completes (.refetchComplete q seq none) s (fun t => goesOn t ∧ (noUnload s.mach → t.fab.hbm = s.mach.fab.hbm)) ∧
    ∀ p : Nat, p ∉ s.mach.flash.retired → rd s.mach F.GEN_CHECK_SPARE_SPARE_PAGES 0 ≠ 0 →
      Completes (.refetchComplete q seq (some p)) s (fun t => goesOn t ∧ rd t F.GEN_CHECK_EVENT_PAGE_RETIRED 0 = 1 ∧
        rd t F.GEN_CHECK_SPARE_SPARE_PAGES 0 = rd s.mach F.GEN_CHECK_SPARE_SPARE_PAGES 0 - 1 ∧
        t.flash.retired = if rd s.mach F.FLS_HEALTH_STATE 0 = 3 then s.mach.flash.retired else s.mach.flash.retired ++ [p])) ∧
  (∀ (s : State) (n : Nat) (cmd : Option (Nat × Nat)) (retried read : Bool), alive s.mach = true →
    (n < 3 → Completes (.rachisFlitCrcFail n cmd retried read) s (fun t => Counted F.GEN_CHECK_CNT1_RACHIS_HOP 0 1 s.mach t ∧
      Keeps [] s.mach t ∧ RegsKeep [F.GEN_CHECK_CNT1_RACHIS_HOP.addr 0] s.mach t ∧ t.out = [])) ∧
    (3 ≤ n → Completes (.rachisFlitCrcFail n none false read) s (fun t => Keeps [] s.mach t ∧ RegsSame s.mach t ∧ t.out = []) ∧
      Completes (.rachisFlitCrcFail n none true read) s (fun t => rd t F.GEN_CHECK_EVENT_RACHIS 0 = 1 ∧ Keeps [.host] s.mach t ∧
        (.readData 0xFFFFFFFF ∈ t.out ↔ read = true)))) ∧
  (∀ (s : State) (n : Fin 8), ∀ x ∈ ([(.injectDisarm n, fun _ => {}),
      (.injectResidueOnce n, fun j => { j with once := true }), (.injectResiduePersistent n, fun j => { j with persistent := true }),
      (.injectGranaryParity n, fun j => { j with parity := true }), (.injectHbmCrc n, fun j => { j with hbmCrc := true })] :
      List (Instr × (Inject → Inject))),
    (¬ HostMay s.mach → Completes x.1 s (nothing s)) ∧
    (HostMay s.mach → traceOn s.mach = true → confPresent s.mach = false → Completes x.1 s (fun t => Keeps [.fab] s.mach t ∧
      tilOf t n = { tilOf s.mach n with inject := x.2 (tilOf s.mach n).inject } ∧ (∀ k : Nat, k ≠ n.val → tilOf t k = tilOf s.mach k) ∧
      t.fab = { s.mach.fab with tillers := t.fab.tillers } ∧ RegsKeep [F.GEN_CHECK_INJ_TARGET.addr 0] s.mach t ∧ t.out = [])) ∧
    (HostMay s.mach → traceOn s.mach = false ∨ confPresent s.mach = true → Completes x.1 s (fun t => t.out = [.accessDenied] ∧ Keeps [] s.mach t ∧
      RegsSame s.mach t))) ∧
  (∀ (s : State) (lost : BitVec 16), (fabricOn s.mach = false ∨ ∀ p : PendPlace, s.mach.fab.pend = some p → p.loaded = true) →
    Completes (.replacementLoadsComplete lost) s (nothing s)) ∧
  (∀ (s : State) (p : PendPlace) (lost : BitVec 16), s.mach.fab.pend = some p → (p.maps.map (fun x => x.1)).Nodup → p.loaded = false →
      fabricOn s.mach = true →
    Completes (.replacementLoadsComplete lost) s (fun t =>
      let maps := p.maps.map (fun x => if imageLost s.mach p lost x then (x.1, []) else x)
      t.fab.pend = some { p with maps := maps, loaded := true, tick := s.mach.ctl.tickCount } ∧
      (∀ x ∈ p.maps, imageLost s.mach p lost x = true → rd t F.GEN_CHECK_EVENT_COPY_LOST 0 = 1) ∧
      (∀ x ∈ maps, (ctxOf t x.1).workMap = if p.ret then (ctxOf s.mach x.1).workMap else x.2) ∧
      (∀ c : Nat, (ctxOf t c).map = (ctxOf s.mach c).map) ∧ t.ctl = s.mach.ctl)) ∧
  ∀ s : State,
    let m := applyLosses (fresh s.mach)
    let due : PendPlace → Prop := fun p => m.fab.pend = some p ∧ p.loaded = true ∧ (ticking m = true → m.ctl.tickCount ≠ p.tick)
    ((∀ p : PendPlace, ¬ due p) → Completes .placementTakesEffect s (fun t => Keeps [] m t ∧ RegsSame m t ∧ t.out = m.out)) ∧
    ∀ p : PendPlace, due p → (p.maps.map (fun x => x.1)).Nodup → Completes .placementTakesEffect s (fun t => t.fab.pend = none ∧
      (∀ x ∈ p.maps, (ctxOf t x.1).map = x.2 ∧
        ((ctxOf m x.1).map ≠ x.2 → x.2 = [] → rd t F.GEN_PLACE_EVENT_UNPLACED 0 = 1) ∧
        ((ctxOf m x.1).map ≠ x.2 → x.2 ≠ [] → rd t F.GEN_PLACE_EVENT_REPLACED 0 = 1)) ∧
      rd t F.GEN_PLACE_SEQ_SEQ 0 = (rd m F.GEN_PLACE_SEQ_SEQ 0 + 1) % 2 ^ 32)

/-- Host queues are enabled and disabled, rings are configured, read and signalled; program queues are not the host's. With the function
ready, outside D3hot and DORMANT. The queue that QUE_Q_SEL names, of C1 to C15, not sealed, not LC: enabled from DISABLED with a legal
size it starts with PI and CI 0, a new era of its SEQ (assumption 122); from STOPPED it goes on with its counts; disabled it is DISABLED
with its counts kept. A C0, LC or sealed queue, one of a program's 256 in a context without a program, or an illegal size raises DENIED
and changes nothing. A ring is configured while it is disabled, with its head and tail 0 when enabled; a head write within the entries
used moves HEAD and takes no other; beyond it DENIED. COAL_US after the first of the entries unsignalled the coalescing timer signals
them. A ring write that fails counts and raises CR_LOST and stops the enabled BE queues of that ring only. What the spec leaves open here
is the model's in assumptions 25 and 81. -/
def Obligations.QueuesAndRingsAreTheHosts : Prop :=
  let nothing : State → Mach → Prop := fun s t => Keeps [] s.mach t ∧ RegsSame s.mach t ∧ t.out = []
  (∀ (s : State) (v : Word), ¬ HostMay s.mach ∨ s.mach.ctl.st = .dormant → ∀ i ∈ [Instr.queueEnable, .queueDisable, .crCfgWrite v, .crHeadWrite v],
    Completes i s (nothing s)) ∧
  (∀ s : State, HostMay s.mach → s.mach.ctl.st ≠ .dormant →
    let q := selQueue s.mach
    let x := queOf s.mach q
    let only : Mach → Prop := fun t => (∀ r : Nat, r ≠ q → queOf t r = queOf s.mach r) ∧ t.fab = { s.mach.fab with queues := t.fab.queues } ∧
      Keeps [.fab] s.mach t ∧ RegsSame s.mach t
    let barred := q / 4096 = 0 ∨ x.lc = true ∨ (ctxOf s.mach (q / 4096)).st = .sealed ∨
      (q % 4096 < 256 ∧ (ctxOf s.mach (q / 4096)).program = none)
    let denied : Mach → Prop := fun t => rd t F.QUE_EVENT_DENIED 0 = 1 ∧ Keeps [.host] s.mach t ∧ RegsKeep [F.QUE_EVENT_DENIED.addr 0] s.mach t
    (barred → ∀ i ∈ [Instr.queueEnable, .queueDisable], Completes i s denied) ∧
    (x.log2Size < 4 ∨ 16 < x.log2Size → Completes .queueEnable s denied) ∧
    (¬ barred →
      Completes .queueDisable s (fun t => queOf t q = { x with st := .disabled } ∧ only t) ∧
      (4 ≤ x.log2Size → x.log2Size ≤ 16 → Completes .queueEnable s (fun t => only t ∧ queOf t q = match x.st with
        | .disabled => { x with st := .enabled, pi := 0, ci := 0, era := x.era + 1 }
        | .stopped => { x with st := .enabled }
        | .enabled => x)))) ∧
  (∀ (s : State) (v : Word), HostMay s.mach → s.mach.ctl.st ≠ .dormant →
    let r := rd s.mach F.QUE_CR_SEL_CR 0
    let size := v.toNat % 32
    let vec := v.toNat / 2 ^ 13 % 2048
    ((ringOf s.mach r).enable = true ∨ r / 256 = 0 ∨ vec < 32 ∨ size < 4 ∨ 16 < size → Completes (.crCfgWrite v) s (fun t =>
      rd t F.QUE_EVENT_DENIED 0 = 1 ∧ Keeps [.host] s.mach t ∧ RegsKeep [F.QUE_EVENT_DENIED.addr 0] s.mach t)) ∧
    ((ringOf s.mach r).enable = false → r / 256 ≠ 0 → 32 ≤ vec → 4 ≤ size → size ≤ 16 → Completes (.crCfgWrite v) s (fun t =>
      (ringOf t r).enable = v.getLsbD 31 ∧ (ringOf t r).vector = vec ∧ (ringOf t r).log2Size = size)) ∧
    ((ringOf s.mach r).enable = false → r / 256 ≠ 0 → 32 ≤ vec → 4 ≤ size → size ≤ 16 → (∀ x ∈ s.mach.fab.queues, x.2.waiting = []) →
      Completes (.crCfgWrite v) s (fun t => (ringOf t r).enable = v.getLsbD 31 ∧ (ringOf t r).vector = vec ∧ (ringOf t r).log2Size = size ∧
        (ringOf t r).coalN = v.toNat / 32 % 256 ∧ (ringOf t r).coalUs = v.toNat / 2 ^ 24 % 64 ∧ (ringOf t r).phase = true ∧
        (v.getLsbD 31 = true → (ringOf t r).head = 0 ∧ (ringOf t r).tail = 0) ∧ (ringOf t r).base = (ringOf s.mach r).base ∧
        (∀ k : Nat, k ≠ r → ringOf t k = ringOf s.mach k) ∧ t.fab = { s.mach.fab with rings := t.fab.rings } ∧
        Keeps [.fab] s.mach t ∧ RegsSame s.mach t)) ∧
    let k := v.toNat / 2 ^ 20
    let g := ringOf s.mach k
    let h : BitVec 17 := v.setWidth 17
    (k / 256 = 0 ∨ ringUsed g < (h - g.head).toNat → Completes (.crHeadWrite v) s (fun t => rd t F.QUE_EVENT_DENIED 0 = 1 ∧
      Keeps [.host] s.mach t ∧ RegsKeep [F.QUE_EVENT_DENIED.addr 0] s.mach t)) ∧
    (k / 256 ≠ 0 → (h - g.head).toNat ≤ ringUsed g → Completes (.crHeadWrite v) s (fun t => (ringOf t k).head = h)) ∧
    (k / 256 ≠ 0 → (h - g.head).toNat ≤ ringUsed g → (∀ x ∈ s.mach.fab.queues, x.2.waiting = []) → Completes (.crHeadWrite v) s (fun t =>
      ringOf t k = { g with head := h } ∧ (∀ j : Nat, j ≠ k → ringOf t j = ringOf s.mach j) ∧
      t.fab = { s.mach.fab with rings := t.fab.rings } ∧ Keeps [.fab] s.mach t ∧ RegsKeep [F.QUE_CR_HEAD_HEAD.addr 0] s.mach t))) ∧
  ∀ (s : State) (r : Nat),
    let due := (ringOf s.mach r).enable = true ∧ (ringOf s.mach r).coalUs ≠ 0 ∧ (ringOf s.mach r).unsig ≠ 0 ∧
      ∃ a : LTime, (ringOf s.mach r).unsigAt = some a ∧ (ringOf s.mach r).coalUs * 1000 * 65536 ≤ tdiff s.mach.time.now a
    (¬ due → Completes (.coalescingTimer r) s (nothing s)) ∧
    ((ringOf s.mach r).enable = false → Completes (.completionWriteFailure r) s (nothing s)) ∧
    (due → Completes (.coalescingTimer r) s (fun t =>
      ringOf t r = { ringOf s.mach r with unsig := 0, unsigAt := none } ∧ (∀ k : Nat, k ≠ r → ringOf t k = ringOf s.mach k) ∧
      (msixMasked s.mach (ringOf s.mach r).vector = false → s.mach.ctl.d3hot = false → t.out = [.msix (ringOf s.mach r).vector]) ∧
      t.fab = { s.mach.fab with rings := t.fab.rings } ∧ Keeps [.fab] s.mach t)) ∧
    ((ringOf s.mach r).enable = true → Completes (.completionWriteFailure r) s (fun t => rd t F.QUE_EVENT_CR_LOST 0 = 1 ∧
      Counted F.QUE_CNT_CR_LOST 0 1 s.mach t ∧ Keeps [.fab, .host] s.mach t ∧
      RegsKeep [F.QUE_EVENT_CR_LOST.addr 0, F.QUE_CNT_CR_LOST.addr 0] s.mach t ∧ t.fab.rings = s.mach.fab.rings ∧ t.fab.inflight = s.mach.fab.inflight ∧
      t.fab.queues = s.mach.fab.queues.map (fun x => if x.1 / 4096 * 256 + x.2.cr = r ∧ x.2.lc = false ∧ x.2.st = .enabled
        then (x.1, { x.2 with st := .stopped }) else x)))

/-- A context is admitted, loaded with a placed program, unloaded and released; a command against the rules has no effect. With the function
ready, outside D3hot and DORMANT, for the context that QUE_CTX_SEL names, open to the host, not C0 or sealed, no context command running.
ADMIT of a FREE context, confidential or not, that the module admits and that fits: ADMITTED with its share and Tillers, RESULT DONE and
CTX_DONE; one that it may not admit, RESULT DENIED. LOAD of a program with no reason against it that fits: LOADED, placed on the Tillers
that the Sower gives. A failed fetch, a program refused, an image that does not unwrap under the session's key (REASON 0xA): RESULT
DMA_ERR and REFUSED, still ADMITTED. UNLOAD with no command in flight returns to ADMITTED with no program, and else waits for them.
RELEASE begins the scrub. SET_SHARE sets the share. In another state RESULT is STATE and nothing else changes; a command closed to the
host is DENIED. What the spec leaves open here is the model's in assumptions 41, 80 and 81. -/
def Obligations.ContextsAreAdmittedLoadedAndReleased : Prop :=
  let nothing : State → Mach → Prop := fun s t => Keeps [] s.mach t ∧ RegsSame s.mach t ∧ t.out = []
  (∀ (s : State) (v : Word) (d : Option LoadData), ¬ HostMay s.mach ∨ s.mach.ctl.st = .dormant →
    ∀ i ∈ [Instr.admitCtx v, .load d, .unload, .release, .setShare v], Completes i s (nothing s)) ∧
  ∀ s : State, HostMay s.mach → s.mach.ctl.st ≠ .dormant →
    let c := selCtx s.mach
    let x := ctxOf s.mach c
    let share : Word → Nat := fun v => v.toNat / 2 ^ 16 % 256
    let others : Mach → Prop := fun t => ∀ k : Nat, k ≠ c → (ctxOf t k).st = (ctxOf s.mach k).st ∧ (ctxOf t k).program = (ctxOf s.mach k).program ∧
      (ctxOf t k).map = (ctxOf s.mach k).map
    let ended : Nat → Mach → Prop := fun r t => (ctxOf t c).result = r ∧ rd t F.QUE_EVENT_CTX_DONE 0 = 1 ∧ others t
    let wrongState : Mach → Prop := fun t => ctxOf t c = { x with result := 2 } ∧ ended 2 t ∧ t.fab = { s.mach.fab with ctxs := t.fab.ctxs } ∧
      Keeps [.fab, .host] s.mach t
    (c = 0 ∨ x.st = .sealed ∨ s.mach.fab.ctxRun.isSome = true ∨ (rd s.mach F.QUE_HOST_MASK_MASK 0).testBit c = false →
      ∀ (v : Word) (d : Option LoadData), ∀ i ∈ (if x.st = .scrubbing then [] else [Instr.release]) ++ [.admitCtx v, .load d, .unload, .setShare v],
        Completes i s (fun t =>
        ctxOf t c = { x with result := 1 } ∧ rd t F.QUE_EVENT_DENIED 0 = 1 ∧ t.fab = { s.mach.fab with ctxs := t.fab.ctxs } ∧
        Keeps [.fab, .host] s.mach t)) ∧
    (c ≠ 0 → x.st ≠ .sealed → s.mach.fab.ctxRun = none → (rd s.mach F.QUE_HOST_MASK_MASK 0).testBit c = true →
      (∀ v : Word, share v = 0 ∨ v.toNat / 256 % 16 = 0 ∨ 8 < v.toNat / 256 % 16 → Completes (.admitCtx v) s (fun t =>
        ctxOf t c = { x with result := 1 } ∧ rd t F.QUE_EVENT_DENIED 0 = 1 ∧ Keeps [.fab, .host] s.mach t)) ∧
      (∀ v : Word, share v ≠ 0 → 1 ≤ v.toNat / 256 % 16 → v.toNat / 256 % 16 ≤ 8 →
        (x.st ≠ .free → Completes (.admitCtx v) s wrongState) ∧
        (let conf := v.getLsbD 3
         let allowed := if conf then confAllowed s.mach = true else s.mach.fuses.confOnly = false
         (x.st = .free → ¬ allowed → Completes (.admitCtx v) s (fun t => ended 1 t ∧ (ctxOf t c).st = .free)) ∧
         (x.st = .free → allowed →
          let m1 := setCtx s.mach c (fun y => { ({} : Ctx) with
            st := .admitted, conf := conf, share := share v, logical := v.toNat / 256 % 16, scrubbed := y.scrubbed
            session := if conf then BitVec.ofNat 32 (rd s.mach F.GLM_CONF_SESSION_SESSION_ID 0) else 0 })
          (placeNew m1 c = none → Completes (.admitCtx v) s (ended 3)) ∧
          ∀ mp : List Nat, placeNew m1 c = some mp → Completes (.admitCtx v) s (fun t => ended 0 t ∧ (ctxOf t c).st = .admitted ∧
            (ctxOf t c).share = share v ∧ (ctxOf t c).logical = v.toNat / 256 % 16 ∧ (ctxOf t c).map = mp ∧ (ctxOf t c).conf = conf ∧
            (ctxOf t c).program = none ∧ (ctxOf t c).key = if conf then some (BitVec.ofNat 512 (Config.free s.mach.draws)) else none)))) ∧
      (∀ d : LoadData, (x.st ≠ .admitted → Completes (.load (some d)) s wrongState) ∧
        (x.st = .admitted →
          let sealOk := if x.conf then unwraps s.mach c d else !d.wrapped
          Completes (.load none) s (fun t => ended 5 t ∧ (ctxOf t c).st = .admitted ∧ (ctxOf t c).program = x.program) ∧
          (sealOk = false ∨ loadReason s.mach c x.conf d.program ≠ 0 → Completes (.load (some d)) s (fun t => ended 4 t ∧
            (ctxOf t c).st = .admitted ∧ (ctxOf t c).progState = 3 ∧ rd t F.GEN_PLACE_EVENT_REFUSED 0 = 1 ∧
            (ctxOf t c).reason = if sealOk then loadReason s.mach c x.conf d.program else if x.conf then 0xA else 1)) ∧
          ∀ mp : List Nat, sealOk = true → loadReason s.mach c x.conf d.program = 0 → mp ≠ [] →
            placeNew (setCtx s.mach c (fun y => { y with program := some d.program, logical := d.program.logical })) c = some mp →
            Completes (.load (some d)) s (fun t => (ctxOf t c).result = 0 ∧ rd t F.QUE_EVENT_CTX_DONE 0 = 1 ∧ (ctxOf t c).st = .loaded ∧
              (ctxOf t c).program = some d.program ∧ (ctxOf t c).map = mp ∧ (ctxOf t c).progState = 1 ∧ (ctxOf t c).reason = 0))) ∧
      (x.st ≠ .loaded → Completes .unload s wrongState) ∧
      (x.st = .loaded → (parked x ≠ [] ∨ ∃ k ∈ s.mach.fab.inflight, k.ctx = c ∧ k.phase ≠ .done) → Completes .unload s (fun t =>
        (ctxOf t c).st = .loaded ∧ (ctxOf t c).program = x.program ∧ t.fab.ctxRun = some (c, 3))) ∧
      (x.st = .loaded → parked x = [] → (∀ k ∈ s.mach.fab.inflight, k.ctx = c → k.phase = .done) → Completes .unload s (fun t => ended 0 t ∧
        (ctxOf t c).st = .admitted ∧ (ctxOf t c).program = none ∧ (ctxOf t c).progState = 0 ∧ t.fab.ctxRun = none ∧
        ∀ q : Nat, q / 4096 = c → q % 4096 < 256 → (queOf s.mach q).st = .enabled → (queOf t q).st = .disabled)) ∧
      (x.st = .admitted ∨ x.st = .loaded → Completes .release s (fun t => (ctxOf t c).st = .scrubbing ∧ (ctxOf t c).scrubbed = true ∧
        c ∈ t.glume.scrubs ∧ t.fab.ctxRun = some (c, 4) ∧ others t ∧ ∀ k ∈ t.fab.inflight, k.ctx ≠ c)) ∧
      (x.st = .free → Completes .release s wrongState) ∧
      (x.st = .scrubbing → Completes .release s (fun t => ctxOf t c = { x with result := 2 } ∧ t.fab = { s.mach.fab with ctxs := t.fab.ctxs } ∧
        Keeps [.fab] s.mach t ∧ RegsSame s.mach t ∧ t.out = [])) ∧
      (∀ v : Word, share v ≠ 0 → x.st ≠ .admitted → x.st ≠ .loaded → Completes (.setShare v) s wrongState) ∧
      ∀ v : Word, share v ≠ 0 → (x.st = .admitted ∨ x.st = .loaded) → Completes (.setShare v) s (fun t => ended 0 t ∧
        (ctxOf t c).share = share v ∧ (ctxOf t c).st = x.st ∧ (ctxOf t c).program = x.program ∧ (ctxOf t c).map = x.map))

/-- A scrub zeroes and frees what the context held; a statistics window ends; the placement record is read word by word. The scrub first in
order completes: every HBM page that the context owned reads 0 and is owned by no context, its queues, rings and measurement are gone, the
context is FREE, and SCRUB_DONE is raised; a scrub that is not first, or whose context still owes completions (assumption 121), waits.
With the last scrub a RETIRE that waited for it is carried out. A statistics window is over after 1,024 ticks or, without a tick, after
1.024 s; at its end every context's slowness is its latency over its solo time, in 1/256, and the sums of the window start again; both
figures read 0 while a confidential context is present. A read of the placement record answers the word at GEN_REC_ADDR, which goes on by
one, and changes nothing else; bins and windows of a confidential context read 0. What the spec leaves open here is the model's in
assumption 112. -/
def Obligations.ScrubsStatisticsAndRecords : Prop :=
  let nothing : State → Mach → Prop := fun s t => Keeps [] s.mach t ∧ RegsSame s.mach t ∧ t.out = []
  (∀ (s : State) (c : Fin 16), s.mach.glume.scrubs.head? ≠ some c.val ∨ scrubOwes s.mach c = true → ∀ bad : List Nat, Completes (.scrubComplete c bad) s (nothing s)) ∧
  (∀ (s : State) (c : Fin 16) (rest : List Nat), s.mach.glume.scrubs = c.val :: rest → c.val ∉ rest → scrubOwes s.mach c = false →
    s.mach.ctl.warmDue = false → s.mach.glume.returnDue = false → ∀ bad : List Nat, Completes (.scrubComplete c bad) s (fun t => (ctxOf t c).st = .free ∧ (ctxOf t c).program = none ∧
      (ctxOf t c).conf = false ∧ (ctxOf t c).map = [] ∧ t.glume.scrubs = rest ∧ rd t F.GLM_EVENT_SCRUB_DONE 0 = 1 ∧
      (∀ p ∈ ownedPages s.mach c, ∀ a : Nat, a / lineBytes = p → tget 0 t.fab.hbm.mem a = 0) ∧
      (∀ e ∈ t.fab.hbm.owner, e.2 ≠ c.val) ∧ (∀ q ∈ t.fab.queues, q.1 / 4096 ≠ c.val) ∧ (∀ r ∈ t.fab.rings, r.1 / 256 ≠ c.val) ∧
      (∀ x ∈ t.glume.meas, x.1 ≠ 0x10 + c.val) ∧
      (∀ a : Nat, bad = [] → a / lineBytes ∉ ownedPages s.mach c → tget 0 t.fab.hbm.mem a = tget 0 s.mach.fab.hbm.mem a) ∧
      t.ctl.st = s.mach.ctl.st ∧ (rest ≠ [] ∨ s.mach.glume.retireDue = false → t.fuses = s.mach.fuses) ∧
      (rest = [] → s.mach.glume.retireDue = true → t.fuses.life = .retired))) ∧
  (∀ s : State, (fabricOn s.mach = false ∧ s.mach.ctl.st ≠ .standby) ∨ windowOver s.mach = false → Completes .statisticsWindowEnd s (nothing s)) ∧
  (∀ s : State, s.mach.fab.winTicks < 1024 → tdiff s.mach.time.now s.mach.fab.winFrom < 1024000000 * 65536 → windowOver s.mach = false) ∧
  (∀ s : State, 1024 ≤ s.mach.fab.winTicks ∨ (s.mach.fab.winTicks = 0 ∧ 1024000000 * 65536 ≤ tdiff s.mach.time.now s.mach.fab.winFrom) →
    windowOver s.mach = true) ∧
  (∀ s : State, (fabricOn s.mach = true ∨ s.mach.ctl.st = .standby) → windowOver s.mach = true → Completes .statisticsWindowEnd s (fun t => t.out = [] ∧
    RegsKeep ((List.range 8).map (fun k => F.TIL_UTIL_UTIL.addr k)) s.mach t ∧ t.fab.winFrom = s.mach.time.now ∧
    (∀ c : Nat, (ctxOf t c).slow = (if confPresent s.mach then 0 else
      min 65535 (256 * (ctxOf s.mach c).winLat * (ctxOf s.mach c).winSolo.2 / (65536 * (ctxOf s.mach c).winSolo.1))) ∧
      (ctxOf t c).winLat = 0 ∧ (ctxOf t c).winSolo = (0, 1) ∧ (ctxOf t c).winKills = 0 ∧ (ctxOf t c).time = (ctxOf s.mach c).time) ∧
    (∀ k : Fin 8, (tilOf t k).detections = 0 ∧ (tilOf t k).winTime = [] ∧ (tilOf t k).winBusy = 0 ∧ (tilOf t k).winMacs = 0 ∧
      (tilOf t k).granary = (tilOf s.mach k).granary ∧ (confPresent s.mach = true → rd t F.TIL_UTIL_UTIL k = 0 ∧ rd t F.TIL_UTIL_BUSY k = 0)) ∧
    t.fab.inflight = s.mach.fab.inflight ∧ t.fab.hbm = s.mach.fab.hbm ∧ Keeps [.fab] s.mach t)) ∧
  ∀ s : State, HostMay s.mach → Completes .placementRecordRead s (fun t =>
    let c := rd s.mach F.GEN_PROG_SEL_CONTEXT 0
    let a := rd s.mach F.GEN_REC_ADDR_ADDR 0
    rd t F.GEN_REC_ADDR_ADDR 0 = (a + 1) % 16384 ∧ Keeps [] s.mach t ∧ RegsKeep [F.GEN_REC_ADDR_ADDR.addr 0] s.mach t ∧
    ((ctxOf s.mach c).conf = false ∨ a < 32 → t.out = [.readData (BitVec.ofNat 32 (leAt (tget [] s.mach.fab.records c) (4 * a) 4))]) ∧
    ((ctxOf s.mach c).conf = true → confPresent s.mach = true → 32 ≤ a → t.out = [.readData 0]))

/-- A fire command leaves with its times fixed, late ones move or are dropped, an ended interval makes its decisions final. FIRE_SEND acts in
RUNNING or DEGRADED with power-good, from t_on - SEND_AHEAD on, with the times known; else, or while its port has no room in the 10 µs or
eight sent intervals of its valve are unfinished, nothing happens. Inhibited, the interval is dropped and counted as INHIBITED; with its
port in reset it is dropped. Alone on its valve and in time, an Awn valve's FIRE frame carries SEQ, the valve, the run of adjacent valves
that have the same times once joined, ON AT and DUR, is kept for resending, SEQ counts, and the interval and those of its run are sent
with their times fixed; a direct output sends none. A due chain entry follows with its own ON and DUR, or is dropped as INHIBITED; it acts
on no other sent interval. At t_on - 20 µs, unsent, FIRE_DEADLINE moves it to now + 20 µs where MIN_ON_US still fits, counted as LATE_FIRE
once, else it is dropped and counted as DROPPED; FIRE_SEND then does the same, and sends what moved. A sent interval that is over is gone,
and no decision stays that it alone served; one not over stays. A direct output switches in VALVE mode only, on while a sent interval
covers the time, off while none does. How intervals are joined, chained and shared in frames is assumption 85. -/
def Obligations.FireCommandsLeaveOrAreDropped : Prop :=
  let nothing : State → Mach → Prop := fun s t => Keeps [] s.mach t ∧ RegsSame s.mach t ∧ t.out = []
  (∀ (s : State) (id : Nat), (s.mach.eject.fires.find? (fun f => f.id == id) = none ∨ pipelineOn s.mach = false) →
    (∀ i ∈ [Instr.fireSend id, .fireDeadline id], Completes i s (nothing s)) ∧
    (s.mach.eject.fires.find? (fun f => f.id == id) = none → Completes (.fireIntervalEnd id) s (nothing s))) ∧
  (∀ (s : State) (id : Nat) (f : Fire), s.mach.eject.fires.find? (fun f => f.id == id) = some f → f.sent = true →
    (s.mach.eject.fires.map (fun f => f.id)).Nodup → pipelineOn s.mach = true → s.mach.ctl.powerGood = true →
    let p := f.valve / 256
    let due := 0 < f.chain ∧ ahead s.mach f.chainOn ≤ sendAhead s.mach
    let n := min f.chain 0xFFFFFF
    let next := { f with chain := f.chain - n, chainOn := f.chainOn + n * 262144 }
    Completes (.fireDeadline id) s (nothing s) ∧
    (¬ due ∨ (inhibited s.mach = false ∧ fireRoom s.mach p = false) → Completes (.fireSend id) s (nothing s)) ∧
    (due → inhibited s.mach = true → Completes (.fireSend id) s (fun t => rd t F.EJC_EVENT_INHIBITED 0 = 1 ∧ Counted F.EJC_CNT1_INHIBITED 0 1 s.mach t ∧
      OnlyVectors t ∧ next ∈ t.eject.fires ∧ (∀ g ∈ s.mach.eject.fires, g.id ≠ id → g ∈ t.eject.fires) ∧ t.eject.ports = s.mach.eject.ports)) ∧
    (due → inhibited s.mach = false → fireRoom s.mach p = true → Completes (.fireSend id) s (fun t =>
      let fr := awnFrame ([0x02, (awnOf s.mach p).nextSeq, 1] ++ leBytes 1 (f.valve % 256) ++ leBytes 1 f.run ++ leBytes 4 (awnTime f.chainOn) ++
        leBytes 3 n)
      t.out = [.awn p fr] ∧ (awnOf t p).nextSeq = (awnOf s.mach p).nextSeq + 1 ∧
      next ∈ t.eject.fires ∧
      (∀ g ∈ s.mach.eject.fires, g.id ≠ id → g ∈ t.eject.fires) ∧ RegsSame s.mach t ∧ Keeps [.eject] s.mach t))) ∧
  (∀ (s : State) (id : Nat) (f : Fire), s.mach.eject.fires.find? (fun f => f.id == id) = some f → f.sent = false → pipelineOn s.mach = true →
    (fireTimes s.mach f = none ∨ s.mach.ctl.powerGood = false → Completes (.fireSend id) s (nothing s)) ∧
    (fireTimes s.mach f = none → Completes (.fireDeadline id) s (nothing s))) ∧
  (∀ (s : State) (id : Nat) (f : Fire) (x : Int × Int), s.mach.eject.fires.find? (fun f => f.id == id) = some f →
    (s.mach.eject.fires.map (fun f => f.id)).Nodup → pipelineOn s.mach = true → s.mach.ctl.powerGood = true → f.sent = false →
    fireTimes s.mach f = some x →
    let now := fine s.mach.time.now
    let p := f.valve / 256
    let gone : Mach → Prop := fun t => (∀ g ∈ t.eject.fires, g.id ≠ id) ∧ (∀ g ∈ s.mach.eject.fires, g.id ≠ id → g ∈ t.eject.fires) ∧ OnlyVectors t
    let fixed : Int → Mach → Prop := fun a t => ∃ g ∈ t.eject.fires, g.id = id ∧ g.sent = true ∧ g.tOn = some a ∧ g.tOff = some x.2 ∧
      g.valve = f.valve
    let alone := ∀ g ∈ s.mach.eject.fires, g.id ≠ id → g.valve ≠ f.valve
    let room := valveOpen s.mach f.valve = true ∧ (2048 ≤ f.valve ∨ fireRoom s.mach p = true)
    let fits := ahead s.mach (x.2 - nsFine (s.mach.cfg.valve.minOnUs * 1000)) > lead20
    (sendAhead s.mach < ahead s.mach x.1 → Completes (.fireSend id) s (nothing s)) ∧
    (ahead s.mach x.1 ≤ sendAhead s.mach →
      (inhibited s.mach = true → Completes (.fireSend id) s (fun t => gone t ∧ rd t F.EJC_EVENT_INHIBITED 0 = 1 ∧
        Counted F.EJC_CNT1_INHIBITED 0 1 s.mach t)) ∧
      (inhibited s.mach = false → portInReset s.mach f.valve = true → Completes (.fireSend id) s gone) ∧
      (inhibited s.mach = false → portInReset s.mach f.valve = false →
        (¬ room → Completes (.fireSend id) s (nothing s)) ∧
        (room → alone →
          (ahead s.mach x.1 ≤ lead20 → fits → Completes (.fireSend id) s (fun t => fixed (now + lead20) t ∧
            (f.tOn = none → rd t F.EJC_EVENT_LATE_FIRE 0 = 1 ∧ Counted F.EJC_CNT0_LATE_FIRE 0 1 s.mach t))) ∧
          (ahead s.mach x.1 ≤ lead20 → ¬ fits → Completes (.fireSend id) s (fun t => gone t ∧ rd t F.EJC_EVENT_DROPPED 0 = 1 ∧
            Counted F.EJC_CNT0_DROPPED 0 1 s.mach t)) ∧
          (lead20 < ahead s.mach x.1 →
            let units := ((x.2 - x.1) / 262144).toNat
            let more := (runFrom s.mach x 31 (f.valve + 1)).2
            let run := 1 + more.length
            (f.valve < 2048 → Completes (.fireSend id) s (fun t => ∀ h ∈ more, ∃ g ∈ t.eject.fires, g.id = h.id ∧ g.sent = true ∧
              g.tOn = some x.1 ∧ g.tOff = some x.2)) ∧
            (2048 ≤ f.valve ∨ units = 0 → Completes (.fireSend id) s (fun t => fixed x.1 t ∧ t.out = [] ∧ RegsKeep [F.EJC_CNT1_MERGED.addr 0] s.mach t ∧
              Keeps [.eject] s.mach t)) ∧
            (f.valve < 2048 → 0 < units → Completes (.fireSend id) s (fun t => fixed x.1 t ∧
              let fr := awnFrame ([0x02, (awnOf s.mach p).nextSeq, 1] ++ leBytes 1 (f.valve % 256) ++ leBytes 1 run ++ leBytes 4 (awnTime x.1) ++
                leBytes 3 (min units 0xFFFFFF))
              t.out = [.awn p fr] ∧ (awnOf t p).nextSeq = (awnOf s.mach p).nextSeq + 1 ∧
              (awnOf t p).frames = (awnOf s.mach p).frames ++ [{ seq := (awnOf s.mach p).nextSeq, data := fr, first := x.1, last := x.1 }] ∧
              (∀ q : Nat, q ≠ p → awnOf t q = awnOf s.mach q) ∧ RegsKeep [F.EJC_CNT1_MERGED.addr 0] s.mach t ∧ Keeps [.eject] s.mach t)))))) ∧
    (lead20 < ahead s.mach x.1 → Completes (.fireDeadline id) s (nothing s)) ∧
    (ahead s.mach x.1 ≤ lead20 →
      (fits → Completes (.fireDeadline id) s (fun t => (∃ g ∈ t.eject.fires, g.id = id ∧ g.sent = false ∧ g.tOn = some (now + lead20) ∧
        g.tOff = f.tOff) ∧ (f.tOn = none → rd t F.EJC_EVENT_LATE_FIRE 0 = 1 ∧ Counted F.EJC_CNT0_LATE_FIRE 0 1 s.mach t) ∧
        (f.tOn ≠ none → RegsSame s.mach t) ∧ Keeps [.eject, .host] s.mach t)) ∧
      (¬ fits → Completes (.fireDeadline id) s (fun t => gone t ∧ rd t F.EJC_EVENT_DROPPED 0 = 1 ∧ Counted F.EJC_CNT0_DROPPED 0 1 s.mach t)))) ∧
  (∀ (s : State) (id : Nat) (f : Fire), s.mach.eject.fires.find? (fun f => f.id == id) = some f →
    let ended := f.sent = true ∧ ∃ b : Int, f.tOff = some b ∧ ahead s.mach b ≤ 0
    (¬ ended → Completes (.fireIntervalEnd id) s (nothing s)) ∧
    (ended → Completes (.fireIntervalEnd id) s (fun t => t.eject.fires = s.mach.eject.fires.filter (fun g => g.id != id) ∧
      (∀ d ∈ t.eject.decisions, d.id ∈ f.decs → ∃ g ∈ t.eject.fires, d.id ∈ g.decs) ∧
      (∀ d ∈ s.mach.eject.decisions, d.id ∉ f.decs → d ∈ t.eject.decisions) ∧ t.eject.ports = s.mach.eject.ports))) ∧
  ∀ (s : State) (n : Fin 16) (on : Bool),
    let may := pipelineOn s.mach = true ∧ doMode s.mach n = 1 ∧ (on = true ↔ ∃ f ∈ s.mach.eject.fires, f.valve = 2048 + n ∧ f.sent = true ∧
      (∃ a : Int, f.tOn = some a ∧ ahead s.mach a ≤ 0) ∧ ∀ b : Int, f.tOff = some b → 0 < ahead s.mach b)
    (may → Completes (.directOutputSwitch n on) s (fun t => t.eject.valveOut.getLsbD n = on ∧
      (∀ k : Fin 16, k ≠ n → t.eject.valveOut.getLsbD k = s.mach.eject.valveOut.getLsbD k) ∧ t.out = [] ∧ Keeps [.eject] s.mach t ∧
      RegsSame s.mach t)) ∧
    (¬ may → Completes (.directOutputSwitch n on) s (nothing s))

/-- Beacons poll the boards, a status is taken or counted, boards are lost, and the field inputs and outputs follow their rules. Once per
multiple of 10 µs of local time a beacon on each Awn port with power-good, in RUNNING or DEGRADED and out of reset, carries that time and
polls the next fitted board; a poll unanswered counts; other ports send none. A STATUS with right TYPE, CRC and fitted board marks the
board seen, with its flags and NEXT_SEQ, sends CONFIG the first time, as its port has room, and raises BOARD_FAULT on a fault; any other
frame counts in CRC_ERR; outside frames it is ignored. A board that missed 100 polls is lost, and its port out of service. The field
supply fault switches every output off, raises FAULT and SUPPLY where the module has power, and changes no module state; after it the
outputs follow their commands. An output in current limit goes off and raises FAULT; others stay; an output that is off is left. Inputs,
sampled once in 1 ms from EARLY_IO on, are classified by the table of R55; the results are stamped. FIO_DO_SET is written whole by a host
that may. What the spec leaves open here is the model's in assumption 86. -/
def Obligations.BoardsInputsAndOutputs : Prop :=
  let nothing : State → Mach → Prop := fun s t => Keeps [] s.mach t ∧ RegsSame s.mach t ∧ t.out = []
  (∀ s : State, let due := beaconTime s.mach.time.now
    (s.mach.eject.beaconAt = some due → Completes .beacon s (nothing s)) ∧
    (s.mach.eject.beaconAt ≠ some due → Completes .beacon s (fun t => t.eject.beaconAt = some due ∧ Keeps [.eject] s.mach t ∧
      (s.mach.ctl.powerGood = false ∨ pipelineOn s.mach = false → t.out = [] ∧ RegsSame s.mach t) ∧ ∀ p : Fin 8,
      let a := awnOf s.mach p
      let next := nextBoard (boardMask s.mach p) a.lastPoll
      (dnDrive s.mach p ≠ .frames → awnOf t p = a ∧ ∀ fr, .awn p fr ∉ t.out) ∧
      (dnDrive s.mach p = .frames → (awnOf t p).polled = next.isSome ∧ (awnOf t p).lastPoll = next.getD a.lastPoll ∧
        .awn p (awnFrame ([0x01] ++ leBytes 4 (awnTime (fine due)) ++ leBytes 1 ((next.map (· + 8)).getD 0))) ∈ t.out ∧
        (a.polled = true → Counted F.EJC_AWN_CNT_MISSED_POLLS p 1 s.mach t ∧
          (tget {} (awnOf t p).boards a.lastPoll).missed = (tget {} a.boards a.lastPoll).missed + 1))))) ∧
  (∀ (s : State) (p : Fin 8) (frame : List Byte) (rt : Nat),
    let b := leAt frame 1 1
    let ok := frame.length = 10 ∧ leAt frame 0 1 = 0x81 ∧ leAt frame 8 2 = crc16 0x1021 0xFFFF (frame.take 8) ∧ fitted s.mach p b = true
    (dnDrive s.mach p ≠ .frames → Completes (.awnStatus p frame rt) s (nothing s)) ∧
    (dnDrive s.mach p = .frames → ¬ ok → Completes (.awnStatus p frame rt) s (fun t => Counted F.EJC_AWN_CNT_CRC_ERR p 1 s.mach t ∧ t.out = [] ∧
      Keeps [] s.mach t ∧ RegsKeep [F.EJC_AWN_CNT_CRC_ERR.addr p] s.mach t)) ∧
    (dnDrive s.mach p = .frames → ok → Completes (.awnStatus p frame rt) s (fun t =>
      let x := tget {} (awnOf t p).boards b
      x.seen = true ∧ x.missed = 0 ∧ x.lost = false ∧ x.flags = leAt frame 2 1 ∧ x.nextSeq = BitVec.ofNat 8 (leAt frame 3 1) ∧
      (leAt frame 2 1 % 32 ≠ 0 → rd t F.EJC_EVENT_BOARD_FAULT 0 = 1) ∧
      ((tget {} (awnOf s.mach p).boards b).sentNs = none → configRoom s.mach p = false → x.configDue = some ((rt - 1000) / 2) ∧ x.sentNs = none) ∧
      ((tget {} (awnOf s.mach p).boards b).sentNs = none → configRoom s.mach p = true →
        (∀ k < b, (tget {} (awnOf s.mach p).boards k).configDue = none) → x.sentNs = some ((rt - 1000) / 2) ∧ x.configDue = none ∧
        .awn p (awnFrame ([0x03] ++ leBytes 1 b ++ leBytes 2 ((rt - 1000) / 2) ++ leBytes 2 s.mach.cfg.valve.maxOnMs)) ∈ t.out) ∧
      (∀ q : Nat, q ≠ p.val → awnOf t q = awnOf s.mach q) ∧ t.eject.fires = s.mach.eject.fires ∧ Keeps [.eject, .host] s.mach t))) ∧
  (∀ (s : State) (p b : Fin 8),
    let x := tget {} (awnOf s.mach p).boards b
    let due := fitted s.mach p b = true ∧ 100 ≤ x.missed ∧ x.lost = false
    (due → Completes (.boardLost p b) s (fun t =>
      (tget {} (awnOf t p).boards b).lost = true ∧ awnInService t p = false ∧ rd t F.EJC_EVENT_BOARD_LOST 0 = 1 ∧
      (∀ q : Nat, q ≠ p.val → awnOf t q = awnOf s.mach q) ∧ Keeps [.eject, .host] s.mach t ∧ RegsKeep [F.EJC_EVENT_BOARD_LOST.addr 0] s.mach t)) ∧
    (¬ due → Completes (.boardLost p b) s (nothing s))) ∧
  (∀ s : State,
    Completes .fieldSupplyFault s (fun t => doOn t = 0 ∧ t.eject.fieldBad = true ∧ t.ctl = s.mach.ctl ∧
      (alive s.mach = true → rd t F.FIO_EVENT_FAULT 0 = 1 ∧ rd t F.FIO_EVENT_SUPPLY 0 = 1 ∧ Keeps [.eject, .host] s.mach t ∧
        RegsKeep [F.FIO_EVENT_FAULT.addr 0] s.mach t) ∧
      (alive s.mach = false → Keeps [.eject] s.mach t ∧ RegsSame s.mach t)) ∧
    Completes .fieldSupplyRecovered s (fun t => Keeps [.eject] s.mach t ∧ RegsSame s.mach t ∧ t.eject.fieldBad = false ∧
      (alive s.mach = true → s.mach.ctl.powerGood = true → doOn t = doCommands t &&& ~~~ t.eject.limited)) ∧
    ∀ n : Fin 16, ((doOn s.mach).getLsbD n = false → Completes (.outputCurrentLimit n) s (nothing s)) ∧
      ((doOn s.mach).getLsbD n = true → Completes (.outputCurrentLimit n) s (fun t => (doOn t).getLsbD n = false ∧
      rd t F.FIO_EVENT_FAULT 0 = 1 ∧ (∀ k : Fin 16, k ≠ n → (doMode s.mach k = 2 → doSrc s.mach k ≠ 3) →
        (doOn t).getLsbD k = (doOn s.mach).getLsbD k) ∧ Keeps [.eject, .host] s.mach t ∧ RegsKeep [F.FIO_EVENT_FAULT.addr 0] s.mach t))) ∧
  (∀ (s : State) (samples : List DiSample) (overload : Bool),
    let due := s.mach.ctl.earlyApplied = true ∧ ∀ at_ : LTime, s.mach.eject.diAt = some at_ → lessSince s.mach.time.now at_ 1000000 = false
    let on : DiSample → Prop := fun d => 11000 ≤ d.mv
    let off : DiSample → Prop := fun d => d.mv ≤ 5000 ∧ (500 ≤ d.ua ∨ d.ua < 300)
    (¬ due → Completes (.diSample samples overload) s (nothing s)) ∧
    (due → s.mach.ctl.st ∉ [.standby, .dormant] → Completes (.diSample samples overload) s (fun t => (∀ n < 24, let d := samples.getD n {}
        (on d → (rd t F.FIO_DI_STATE 0).testBit n = true ∧ t.eject.wireBreak.getLsbD n = false) ∧
        (off d → (rd t F.FIO_DI_STATE 0).testBit n = false ∧
          t.eject.wireBreak.getLsbD n = (decide (d.ua < 300) && s.mach.cfg.early.wbEn.getLsbD n)) ∧
        (¬ on d → ¬ off d → (rd t F.FIO_DI_STATE 0).testBit n = (rd s.mach F.FIO_DI_STATE 0).testBit n ∧
          t.eject.wireBreak.getLsbD n = s.mach.eject.wireBreak.getLsbD n)) ∧
      (let bad := t.eject.wireBreak ≠ 0 ∨ s.mach.eject.limitNew = true ∨ s.mach.eject.fieldBad = true ∨ overload = true
       (bad → rd t F.FIO_EVENT_FAULT 0 = 1 ∧ Counted F.FIO_CNT_FAULTS 0 1 s.mach t) ∧
       (¬ bad → rd t F.FIO_EVENT_FAULT 0 = rd s.mach F.FIO_EVENT_FAULT 0)) ∧
      Counted F.FIO_CNT_UNDETERMINED 0 ((List.range 24).countP (fun n => let d := samples.getD n {}
        !decide (11000 ≤ d.mv) && !(decide (d.mv ≤ 5000) && (decide (500 ≤ d.ua) || decide (d.ua < 300))))) s.mach t ∧
      t.eject.diAt = some s.mach.time.now ∧ Keeps [.eject, .host] s.mach t)) ∧
    (due → s.mach.ctl.st ∈ [.standby, .dormant] → Completes (.diSample samples overload) s (fun t => t.eject.diAt = some s.mach.time.now))) ∧
  ∀ (s : State) (v : Word),
    (¬ HostMay s.mach ∨ s.mach.ctl.st = .dormant → Completes (.doHostSet v) s (nothing s)) ∧
    (HostMay s.mach → s.mach.ctl.st ≠ .dormant → Completes (.doHostSet v) s (fun t =>
      rd t F.FIO_DO_SET_SET 0 = v.toNat % 65536 ∧ Keeps [] s.mach t ∧ RegsKeep [F.FIO_DO_SET_SET.addr 0] s.mach t))

/-- A BAR0 address that holds no register reads 0, ignores writes, and raises no event. With the function ready and outside D3hot, at every
aligned address of BAR0 (below 2^24 in the read commands, assumption 107) that is in no register of any block, not in the MSI-X table or
its pending bits and not in the block DBG while a debug level gives it functions (R463): a read of any of its bytes, by either read
command, returns 0, and a write of any of its bytes does nothing; no register word changes, no event is raised, nothing else is sent. -/
def Obligations.HolesReadZero : Prop :=
  ∀ (s : State) (a : Nat) (be : BitVec 4) (v : Word), HostMay s.mach → a < 2 ^ 24 → a % 4 = 0 → rowOf a = none → msixWord s.mach a = none →
    dbgServes s.mach a = false →
    (be ≠ 0 → ∀ i ∈ [Instr.lowRegisterRead a be, .rcRegisterRead a be], Completes i s (fun t =>
      t.out = [.readData 0] ∧ RegsSame s.mach t ∧ Keeps [] s.mach t)) ∧
    Completes (.registerWrite a be v) s (fun t => t.out = [] ∧ RegsSame s.mach t ∧ Keeps [] s.mach t)

/-- Records are programmed in their priority, blocks refreshed and scanned, records read by DMA, backups restored. While the flash is powered
and has been scanned: the program in progress ends, else the system entry first, the oldest audit entry, the oldest reject record; the
audit ring gains the entry at its end and loses what its oldest block held, the reject ring the record; in REJECTS_OFF the record is lost
and counted, in READ_ONLY nothing is stored and waiting audit entries count as lost; a failed program raises BAD_BLOCK where blocks are
free. A block due is rewritten, not in READ_ONLY: its reads are 0 and its flag gone; a weak one becomes bad; another is left. A scan,
after power-on and once in 24 h, counts each written page as a read of its block, flags those named, and readies the flash. A read with
GO, none under way, notes region, records and address; a refused one raises ERR and stores nothing. READ_DONE counts a read of each page
on its block, loses and counts uncorrectable records, and sends header and records to the host or raises ERR. RESTORE of a generation held
erases the inactive slot and no other; refused it raises ERR and stores nothing; its completion puts the image named at the write there
and STAGED or STAGE_FAIL by the checks. Blocks and their number are assumption 88's. -/
def Obligations.RecordsAreStoredReadAndRestored : Prop :=
  let nothing : State → Mach → Prop := fun s t => Keeps [] s.mach t ∧ RegsSame s.mach t ∧ t.out = []
  (∀ (s : State) (res : NandResult),
    let f := s.mach.flash
    let health := rd s.mach F.FLS_HEALTH_STATE 0
    let roomy : Nat → Prop := fun n => n ≤ ((List.range flashBlocks).filter (blockFree f)).length
    let bad : Mach → Prop := fun t => res = .programFails → rd t F.FLS_EVENT_BAD_BLOCK 0 = 1
    let work : Option FlashWork := if f.inProg.isSome then f.inProg else if 0 < f.bufSys then some .system
      else if f.bufAudit ≠ [] then some .audit else if f.bufReject ≠ [] then some .reject else none
    (flashReady s.mach = false → Completes (.nandProgramComplete res) s (nothing s)) ∧
    (flashReady s.mach = true → health = 3 → Completes (.nandProgramComplete res) s (fun t => t.flash.bufSys = 0 ∧ t.flash.bufAudit = [] ∧
      Counted F.FLS_CNT_AUDIT_LOST 0 f.bufAudit.length s.mach t ∧ t.flash.audit = f.audit ∧ t.flash.rejects = f.rejects ∧
      t.flash.bufReject = f.bufReject.tail ∧ (f.bufReject ≠ [] → Counted F.FLS_CNT_LOST 0 1 s.mach t ∧ rd t F.FLS_EVENT_LOST 0 = 1))) ∧
    (flashReady s.mach = true → health ≠ 3 →
      (work = some .system → Completes (.nandProgramComplete res) s (fun t => t.flash.audit = f.audit ∧ t.flash.sysSeq = f.sysSeq + 1 ∧
        t.flash.bufSys = f.bufSys - 1 + (if rd t F.FLS_HEALTH_STATE 0 = health then 0 else 1) ∧
        t.flash.rejects <:+ f.rejects ∧ (roomy 4 → t.flash.rejects = f.rejects ∧ bad t) ∧ t.flash.bufReject = f.bufReject)) ∧
      (∀ (e : List Byte) (es : List (List Byte)), work = some .audit → f.bufAudit = e :: es → Completes (.nandProgramComplete res) s (fun t =>
        t.flash.audit = f.audit.filter (fun x => decide (auditRun (seqOf true e) < auditRun (seqOf true x) + 6144)) ++ [e] ∧
        (∃ more, t.flash.bufAudit = es ++ more) ∧
        t.flash.rejects <:+ f.rejects ∧ (roomy 4 → t.flash.rejects = f.rejects ∧ bad t) ∧ t.flash.bufReject = f.bufReject)) ∧
      (∀ (r : List Byte) (rs : List (List Byte)), work = some .reject → f.bufReject = r :: rs →
        (health < 2 → Completes (.nandProgramComplete res) s (fun t => t.flash.rejects <:+ f.rejects ++ [r] ∧
          (roomy (r.length / tlcBlock + 5) → (rejectFloor (f.rejectEnd + r.length) ≤ f.rejectEnd - totalBytes f.rejects →
            t.flash.rejects = f.rejects ++ [r]) ∧ bad t) ∧
          t.flash.rejectEnd = f.rejectEnd + r.length ∧ t.flash.bufReject = rs ∧ t.flash.audit = f.audit)) ∧
        (2 ≤ health → Completes (.nandProgramComplete res) s (fun t => t.flash.bufReject = rs ∧ t.flash.lostBefore = true ∧
          t.flash.rejects = f.rejects ∧ t.flash.audit = f.audit ∧
          Counted F.FLS_CNT_LOST 0 1 s.mach t ∧ rd t F.FLS_EVENT_LOST 0 = 1 ∧ Keeps [.flash, .host] s.mach t))) ∧
      (work = none → Completes (.nandProgramComplete res) s (fun t => t.flash.audit = f.audit ∧ t.flash.rejects = f.rejects ∧
        t.flash.regionOf = f.regionOf ∧ t.flash.bufReject = []  ∧ Keeps [.flash, .host] s.mach t)))) ∧
  (∀ (s : State) (l : Nat) (weak eraseFail : Bool) (bad : List (Bool × Nat)),
    let f := s.mach.flash
    let due := flashReady s.mach = true ∧ rd s.mach F.FLS_HEALTH_STATE 0 ≠ 3 ∧ (100000 ≤ tget 0 f.reads l ∨ l ∈ f.scanFlags) ∧ tget 0 f.regionOf l ≠ 0
    (¬ due → Completes (.blockRefresh l weak eraseFail bad) s (nothing s)) ∧
    (due → Completes (.blockRefresh l weak eraseFail bad) s (fun t => t.flash.audit = f.audit ∧ t.flash.rejects <:+ f.rejects ∧
      (weak = true → rd t F.FLS_EVENT_BAD_BLOCK 0 = 1 ∧ tget 0 f.regionOf l - 1 ∈ t.flash.badBlocks) ∧
      ((∃ x ∈ bad, l ∈ blocksOf f x.1 x.2 ∧ losable f x.1 x.2 = true) → rd t F.FLS_EVENT_UNCORRECTABLE 0 = 1) ∧
      (bestFree f flashBlocks ≠ none → t.flash.rejects = f.rejects ∧ tget 0 t.flash.reads l = 0 ∧ l ∉ t.flash.scanFlags ∧
        tget 0 t.flash.regionOf l ≠ 0 ∧ ∀ k : Nat, k ≠ l → tget 0 t.flash.reads k = tget 0 f.reads k)))) ∧
  (∀ (s : State) (flags : List Nat) (bad : List (Bool × Nat)),
    let f := s.mach.flash
    let due := flashPowered s.mach = true ∧ ∀ x : LTime, f.scanAt = some x → lessSince s.mach.time.now x (86400 * giga) = false
    (¬ due → Completes (.retentionScan flags bad) s (nothing s)) ∧
    (due → (tkeys f.regionOf).Nodup → Completes (.retentionScan flags bad) s (fun t => (bad = [] → RegsSame s.mach t) ∧ Keeps [.flash, .host] s.mach t ∧
      (∀ l : Nat, tget 0 t.flash.reads l = tget 0 f.reads l + if l ∈ tkeys f.regionOf then writtenPages f l else 0) ∧
      (∀ l : Nat, l ∈ t.flash.scanFlags ↔ l ∈ flags ∧ tget 0 f.regionOf l ≠ 0) ∧ t.flash.scanAt = some s.mach.time.now ∧ flashReady t = true ∧
      ((∃ x ∈ bad, losable f x.1 x.2 = true) → rd t F.FLS_EVENT_UNCORRECTABLE 0 = 1) ∧
      t.flash.audit = f.audit ∧ t.flash.rejects = f.rejects))) ∧
  (∀ (s : State) (v : Word),
    let f := s.mach.flash
    let err : Mach → Prop := fun t => rd t F.FLS_EVENT_ERR 0 = 1 ∧ Keeps [.host] s.mach t ∧ RegsKeep [F.FLS_EVENT_ERR.addr 0] s.mach t
    let stored : Mach → Prop := fun t => rd t F.FLS_READ_CTRL_REGION 0 = v.toNat / 2 ^ 24 % 2 ∧ rd t F.FLS_READ_CTRL_COUNT 0 = v.toNat % 2 ^ 24 ∧
      RegsKeep [F.FLS_READ_CTRL_REGION.addr 0] s.mach t ∧ t.out = []
    (¬ HostMay s.mach ∨ (v.getLsbD 31 = false ∧ s.mach.ctl.st = .dormant) → Completes (.recordRead v) s (nothing s)) ∧
    (HostMay s.mach → v.getLsbD 31 = false → s.mach.ctl.st ≠ .dormant → Completes (.recordRead v) s (fun t => stored t ∧ Keeps [] s.mach t)) ∧
    (HostMay s.mach → v.getLsbD 31 = true → f.reading = none → flashPowered s.mach = true →
      Completes (.recordRead v) s (fun t => stored t ∧ Keeps [.flash] s.mach t ∧
        let audit := v.getLsbD 24
        let first := rd s.mach F.FLS_READ_SEQ_LO_SEQ 0 + (if audit then rd s.mach F.FLS_READ_SEQ_HI_SEQ 0
          else rd s.mach F.FLS_READ_SEQ_HI_SEQ 0 % 65536) * 2 ^ 32
        let seqs := (askedFor f audit first (v.toNat % 2 ^ 24)).map (seqOf audit)
        let addr := BitVec.ofNat 64 (rd s.mach F.FLS_READ_ADDR_LO_ADDR 0 / 64 * 64 + rd s.mach F.FLS_READ_ADDR_HI_ADDR 0 * 2 ^ 32)
        t.flash = { f with reading := some ⟨audit, seqs.headD 0, (seqs.getLast?.map (· + 1)).getD 0, addr⟩ })) ∧
    (HostMay s.mach → v.getLsbD 31 = true → f.reading ≠ none ∨ flashPowered s.mach = false → Completes (.recordRead v) s err)) ∧
  (∀ (s : State) (ok : Bool) (bad : List Nat), s.mach.flash.reading = none ∨ flashReady s.mach = false → Completes (.readDone ok bad) s (nothing s)) ∧
  (∀ (s : State) (r : FlashRead) (bad : List Nat), s.mach.flash.reading = some r → flashReady s.mach = true →
    let lost := bad.filter (fun q => ((asked s.mach.flash r).map (seqOf r.audit)).contains q && losable s.mach.flash r.audit q)
    let counted : Mach → Prop := fun t => t.flash = { s.mach.flash with
        reading := none, reads := t.flash.reads, lostAudit := t.flash.lostAudit, lostReject := t.flash.lostReject } ∧
      (∀ q ∈ lost, ∀ y ∈ heldOf t.flash r.audit, seqOf r.audit y ≠ q) ∧
      (∀ l : Nat, tget 0 t.flash.reads l = tget 0 s.mach.flash.reads l + ((pagesRead s.mach.flash r).filter (fun x => x.1 == l)).length) ∧
      (lost ≠ [] → rd t F.FLS_EVENT_UNCORRECTABLE 0 = 1 ∧ Counted F.FLS_CNT_UNCORRECTABLE 0 lost.length s.mach t)
    Completes (.readDone true bad) s (fun t => counted t ∧ rd t F.FLS_EVENT_READ_DONE 0 = 1 ∧
      .dmaWrite r.addr (readData s.mach.flash r bad) ∈ t.out ∧ Keeps [.flash, .host] s.mach t) ∧
    Completes (.readDone false bad) s (fun t => counted t ∧ rd t F.FLS_EVENT_ERR 0 = 1 ∧
      rd t F.HST_EVENT_DMA_ERR 0 = 1 ∧ OnlyVectors t ∧ Keeps [.flash, .host] s.mach t)) ∧
  (∀ (s : State) (v : Word),
    let g := v.toNat % 8
    let k := inactiveSlot s.mach
    let go := v.getLsbD 31
    let may := s.mach.ctl.st ≠ .dormant ∧ rd s.mach F.GLM_UPD_STATUS_STATE 0 ≠ 1 ∧ rd s.mach F.GLM_UPD_STATUS_STATE 0 ≠ 4 ∧ s.mach.flash.restoring = none ∧ g < s.mach.flash.backups.length
    (¬ HostMay s.mach ∨ (go = false ∧ s.mach.ctl.st = .dormant) → Completes (.restore v) s (nothing s)) ∧
    (HostMay s.mach → go = false → s.mach.ctl.st ≠ .dormant → Completes (.restore v) s (fun t => rd t F.FLS_BACKUP_CTRL_GEN 0 = g ∧
      Keeps [] s.mach t ∧ RegsKeep [F.FLS_BACKUP_CTRL_GEN.addr 0] s.mach t ∧ t.out = [])) ∧
    (HostMay s.mach → go = true → may → Completes (.restore v) s (fun t => slotImage t k = none ∧
      slotImage t (otherSlot k) = slotImage s.mach (otherSlot k) ∧ rd t F.FLS_BACKUP_CTRL_GEN 0 = g ∧
      t.flash = { s.mach.flash with reads := t.flash.reads, restoring := s.mach.flash.backups[g]?.map (fun i => (g, i)) } ∧ Keeps [.nor, .flash] s.mach t ∧ t.out = [])) ∧
    (HostMay s.mach → go = true → ¬ may → Completes (.restore v) s (fun t => rd t F.FLS_EVENT_ERR 0 = 1 ∧ Keeps [.host] s.mach t ∧
      RegsKeep [F.FLS_EVENT_ERR.addr 0] s.mach t))) ∧
  (∀ s : State, s.mach.flash.restoring = none ∨ flashReady s.mach = false → Completes .restoreComplete s (nothing s)) ∧
  ∀ (s : State) (g : Nat) (i : Image), s.mach.flash.restoring = some (g, i) → flashReady s.mach = true → Completes .restoreComplete s (fun t =>
    let k := inactiveSlot s.mach
    let image := some i
    let c := stageCode s.mach.fuses image
    slotImage t k = image ∧ slotImage t (otherSlot k) = slotImage s.mach (otherSlot k) ∧ t.flash.restoring = none ∧
    rd t F.GLM_UPD_STATUS_REJECT 0 = c ∧ (c = 0 → rd t F.GLM_UPD_STATUS_STATE 0 = 2 ∧ rd t F.GLM_EVENT_STAGED 0 = 1) ∧
    (c ≠ 0 → rd t F.GLM_UPD_STATUS_STATE 0 = 3 ∧ rd t F.GLM_EVENT_STAGE_FAIL 0 = 1 ∧ rd t F.FLS_EVENT_ERR 0 = 1) ∧
    t.ctl = s.mach.ctl ∧ t.fuses = s.mach.fuses)

/-- Glume answers the requests of R408, holds at most four sessions, and answers ResponseNotReady in a crypto reset. With power and the
function ready, in every module state, no crypto reset and no activation running: version, capabilities, algorithms, digests and a part of
the certificate chain are answered and nothing changes; CHALLENGE and GET_MEASUREMENTS answer with an ECDSA signature of the device key
(its secret number a free value) over the requester's nonce and the answer; a measurement answer ends in block 0x30 of the list's
generation, an absent index is an error. index 0 tells their number; KEY_EXCHANGE with fewer than four sessions adds one with an ID of its
own, a fifth is an error; FINISH opens a session that is not open, END_SESSION ends an open one and raises SESSION_END, else each is an
error; any other request is an error. During a crypto reset every request gets ResponseNotReady with RDTExponent 13, during an activation
with 20, and nothing changes; the reset keeps the sessions, and LC work that waited for it is noted as such when it ends. Without power or
before the function is ready nothing is answered. The message codes are assumption 41's. What a crypto reset leaves waiting is assumption
92. -/
def Obligations.SpdmIsAnsweredAndSessionsAreCounted : Prop :=
  let nothing : State → Mach → Prop := fun s t => Keeps [] s.mach t ∧ RegsSame s.mach t ∧ t.out = []
  ∀ s : State,
    let g := s.mach.glume
    let up := alive s.mach = true ∧ s.mach.ctl.fnReady = true
    let activating := rd s.mach F.GLM_UPD_STATUS_STATE 0 = 4
    let each : (Mach → Prop) → Prop := fun P => ∀ (o n idx code : Nat) (nonce : List Byte) (id : Word), ∀ i ∈ [Instr.getVersion, .getCapabilities,
      .negotiateAlgorithms, .getDigests, .getCertificate o n, .challenge nonce, .getMeasurements idx nonce, .keyExchange, .finish id,
      .endSession id, .spdmUnsupportedRequest code], Completes i s P
    let replies : Nat → List Byte → Mach → Prop := fun code body t => t.out = [.spdm code body] ∧ Keeps [] s.mach t ∧ RegsSame s.mach t
    let errs : Nat → Nat → Mach → Prop := fun code x t => t.out = [.spdmError code x] ∧ Keeps [] s.mach t ∧ RegsSame s.mach t
    let signs : Nat → List Byte → List Byte → Mach → Prop := fun code body text t => ∃ k : Nat,
      t.out = [.spdm code (body ++ ecdsaSign s.mach.fuses.devKey k text)]
    (¬ up → each (nothing s)) ∧ (up → activating → each (errs 0x42 20)) ∧ (up → ¬ activating → g.cryptoBusy = true → each (errs 0x42 13)) ∧
    (up → ¬ activating → g.cryptoBusy = false →
      (∃ b, Completes .getVersion s (replies 0x04 b) ∧ b = [0x00, 0x12]) ∧
      (∃ b, Completes .getCapabilities s (replies 0x61 b) ∧ leAt b 0 1 = 16 ∧ leAt b 5 4 = 4096 ∧ leAt b 9 4 = 4096) ∧
      (∃ b, Completes .negotiateAlgorithms s (replies 0x63 b)) ∧
      Completes .getDigests s (replies 0x01 (leBytes 1 1 ++ digestBytes (sha384 certChain))) ∧ certChain.length ≤ 4096 ∧
      (∀ o n : Nat, ∃ b, Completes (.getCertificate o n) s (replies 0x02 b) ∧ b.drop 4 = (certChain.drop o).take (min n 4088) ∧ b.length + 4 ≤ 4096) ∧
      (∀ nonce : List Byte, Completes (.challenge nonce) s (fun t => (∃ body, signs 0x03 body (nonce ++ body) t ∧
        body.take 48 = digestBytes (sha384 certChain)) ∧ Keeps [.draws] s.mach t ∧ RegsSame s.mach t)) ∧
      (∀ (idx : Nat) (nonce : List Byte),
        let gives : List Byte → Prop := fun b => Completes (.getMeasurements idx nonce) s (fun t => signs 0x60 b (nonce ++ b) t ∧
          Keeps [.draws] s.mach t ∧ RegsSame s.mach t)
        (idx = 0xFF → gives ((g.meas ++ [genBlock s.mach]).flatMap measBytes)) ∧
        (idx = 0 → gives (leBytes 1 (g.meas.length + 1))) ∧
        (idx = 0x30 → gives (measBytes (genBlock s.mach))) ∧
        (idx ≠ 0 → idx ≠ 0x30 → idx ≠ 0xFF → (∀ x ∈ g.meas, x.1 ≠ idx) → Completes (.getMeasurements idx nonce) s (errs 0x01 0)) ∧
        (idx ≠ 0 → idx ≠ 0x30 → idx ≠ 0xFF → (∃ x ∈ g.meas, x.1 = idx) →
          gives ((g.meas.filter (fun x => x.1 == idx)).flatMap measBytes ++ measBytes (genBlock s.mach)))) ∧
      (g.sessions.length < 4 → Completes .keyExchange s (fun t => ∃ new : Session, t.glume = { g with sessions := g.sessions ++ [new] } ∧
        new.isOpen = false ∧ (∀ x ∈ g.sessions, x.id ≠ new.id) ∧ signs 0x64 (leBytes 4 new.id.toNat) (leBytes 4 new.id.toNat) t ∧
        Keeps [.glume, .draws] s.mach t ∧ RegsSame s.mach t)) ∧
      (4 ≤ g.sessions.length → Completes .keyExchange s (errs 0x0A 0)) ∧
      (∀ id : Word,
        ((∃ x ∈ g.sessions, x.id = id ∧ x.isOpen = false) → Completes (.finish id) s (fun t => t.out = [.secured id 0x65 []] ∧
          t.glume.sessions = g.sessions.map (fun x => if x.id = id then { x with isOpen := true } else x) ∧ Keeps [.glume] s.mach t ∧
          RegsSame s.mach t)) ∧
        ((∃ x ∈ g.sessions, x.id = id ∧ x.isOpen = true) → Completes (.endSession id) s (fun t => .secured id 0x6C [] ∈ t.out ∧
          t.glume.sessions = g.sessions.filter (fun x => x.id != id) ∧ rd t F.GLM_EVENT_SESSION_END 0 = 1 ∧ Keeps [.glume, .host] s.mach t)) ∧
        ((∀ x ∈ g.sessions, x.id = id → x.isOpen = true) → Completes (.finish id) s (errs 0x01 0)) ∧
        ((∀ x ∈ g.sessions, x.id = id → x.isOpen = false) → Completes (.endSession id) s (errs 0x01 0))) ∧
      ∀ code : Nat, Completes (.spdmUnsupportedRequest code) s (errs 0x07 0)) ∧
    (alive s.mach = false → Completes .cryptoReset s (nothing s)) ∧
    (alive s.mach = true → Completes .cryptoReset s (fun t => t.glume = { g with cryptoBusy := true } ∧ rd t F.GLM_EVENT_CRYPTO_RESET 0 = 1 ∧
      Keeps [.glume, .host] s.mach t ∧ RegsKeep [F.GLM_EVENT_CRYPTO_RESET.addr 0] s.mach t)) ∧
    Completes .cryptoResetComplete s (fun t => t.glume = { g with cryptoBusy := false } ∧ t.fab = { s.mach.fab with batches := t.fab.batches } ∧
      t.fab.batches = s.mach.fab.batches.map (fun b => if s.mach.fab.inflight.any (fun c => c.lc && c.phase == .running && cryptoWaits s.mach c &&
        c.ctx == b.context && c.batch == some b.no) then { b with waited := true } else b) ∧ Keeps [.glume, .fab] s.mach t ∧ RegsSame s.mach t)

/-- An image is staged, checked, activated or aborted; a nonce backs one authorisation; each operation moves lifecycle, keys, grant or fuse.
With the function ready, outside D3hot (else a write does nothing, a nonce read gets Unsupported Request or nothing). A STAGE that is
allowed asks for the image by DMA, erases the inactive slot only and is in progress; host memory that fails is a DMA error; one that is
not allowed raises ACCESS_DENIED and stores nothing. At its completion the slot holds the image, STAGED or FAILED by checks 1 to 6.
ACTIVATE of a staged image, where allowed, is ACTIVATING (the clock carries it out, assumption 124); else it is denied. ABORT leaves the
inactive slot erased. A nonce read draws a free nonce and returns its lowest word. An authorisation fetches its 264 bytes; one whose first
failing check is r ends with RESULT r and AUTH_REFUSED, fuses and grant unchanged, its nonce used up where it named the right one. One
that passes raises AUTH_DONE: OWNED with a key more, a level granted within the caps, RETURNED, RETIRED, or the fuse named; a RETURN or
RETIRE leaves the module in FAULT, its wipe or move made when no scrub is left (assumption 125). A grant whose time has come is NONE;
before it stays. The order of the checks, what a move does to a level granted and how RETURN, stages and restores overlap are assumptions
89, 90 and 91. -/
def Obligations.UpdatesAndAuthorisations : Prop :=
  let nothing : State → Mach → Prop := fun s t => Keeps [] s.mach t ∧ RegsSame s.mach t ∧ t.out = []
  (∀ (s : State) (v : Word) (image : Option Image) (block : Option Auth), ¬ HostMay s.mach → ∀ i ∈ [Instr.stage v image, .activate, .abort,
      .takeOwnership block, .transferAuth block, .debugAuth block, .returnAuth block, .retireAuth block, .fuseAuth block], Completes i s (nothing s)) ∧
  (∀ s : State, (s.mach.ctl.fnReady = false → alive s.mach = true → Completes .nonceRead s (fun t => t.out = [.unsupported] ∧ Keeps [] s.mach t ∧
      RegsSame s.mach t)) ∧
    (s.mach.ctl.fnReady = false → alive s.mach = false → Completes .nonceRead s (nothing s)) ∧
    (s.mach.ctl.d3hot = true → s.mach.ctl.fnReady = true → Completes .nonceRead s (nothing s))) ∧
  (∀ s : State, HostMay s.mach →
    let k := inactiveSlot s.mach
    let m := s.mach
    let other : Mach → Prop := fun t => slotImage t (otherSlot k) = slotImage m (otherSlot k)
    let denied : Mach → Prop := fun t => t.out = [.accessDenied] ∧ Keeps [] m t ∧ RegsSame m t
    (∀ (v : Word) (image : Option Image),
      let len := v.toNat / 256 % 8192
      let may := rd m F.GLM_UPD_STATUS_STATE 0 ≠ 1 ∧ rd m F.GLM_UPD_STATUS_STATE 0 ≠ 4 ∧ m.flash.restoring = none ∧ m.ctl.st ≠ .dormant ∧ m.fuses.life ∉ [.returned, .retired] ∧
        1 ≤ len ∧ len ≤ 7936
      (may → Completes (.stage v image) s (fun t => rd t F.GLM_UPD_STATUS_STATE 0 = 1 ∧ slotImage t k = none ∧ other t ∧
        t.glume = { m.glume with staging := image } ∧ rd t F.GLM_UPD_CTRL_LEN_4K 0 = len ∧
        .dmaRead (BitVec.ofNat 64 (rd m F.GLM_UPD_ADDR_LO_ADDR 0 / 4096 * 4096 + rd m F.GLM_UPD_ADDR_HI_ADDR 0 * 2 ^ 32)) (len * 4096) ∈ t.out ∧
        (image = none → rd t F.HST_EVENT_DMA_ERR 0 = 1 ∧ Counted F.HST_CNT_DMA_ERR 0 1 m t) ∧ Keeps [.nor, .glume, .host] m t)) ∧
      (¬ may → Completes (.stage v image) s denied)) ∧
    (let may := rd m F.GLM_UPD_STATUS_STATE 0 = 2 ∧ (m.ctl.st = .fault ∨ (m.ctl.st ∈ [.configured, .standby] ∧ hostResets m = true))
     (may → Completes .activate s (fun t => rd t F.GLM_UPD_STATUS_STATE 0 = 4 ∧ t.glume = { m.glume with activateAt := some m.time.now } ∧
        t.out = [] ∧ Keeps [.glume] m t ∧ RegsKeep [F.GLM_UPD_STATUS_STATE.addr 0] m t)) ∧
      (¬ may → Completes .activate s denied)) ∧
    (rd m F.GLM_UPD_STATUS_STATE 0 = 1 → Completes .abort s (fun t => rd t F.GLM_UPD_STATUS_STATE 0 = 0 ∧ slotImage t k = none ∧ other t ∧
      t.glume = { m.glume with staging := none } ∧ Keeps [.nor, .glume] m t ∧ RegsKeep [F.GLM_UPD_STATUS_STATE.addr 0] m t)) ∧
    (rd m F.GLM_UPD_STATUS_STATE 0 ≠ 1 → Completes .abort s (nothing s)) ∧
    (let n := BitVec.ofNat 128 (Config.free m.draws)
     Completes .nonceRead s (fun t => t.out = [.readData (n.setWidth 32)] ∧
        t.glume = { m.glume with nonce := some (n, m.time.now), nonceHeld := n } ∧ Keeps [.glume, .draws] m t ∧ RegsSame m t)) ∧
    ∀ (block : Option Auth), ∀ x ∈ ([(1, .takeOwnership), (2, .transferAuth), (3, .debugAuth), (4, .returnAuth), (5, .retireAuth),
        (6, .fuseAuth)] : List (Nat × (Option Auth → Instr))),
      let r := authResult m (withOp x.1 block)
      let fetched : Mach → Prop := fun t => .dmaRead (BitVec.ofNat 64 (rd m F.GLM_AUTH_ADDR_LO_ADDR 0 / 64 * 64 +
        rd m F.GLM_AUTH_ADDR_HI_ADDR 0 * 2 ^ 32)) 264 ∈ t.out
      (r ≠ 0 → Completes (x.2 block) s (fun t => rd t F.GLM_AUTH_CTRL_RESULT 0 = r ∧ rd t F.GLM_EVENT_AUTH_REFUSED 0 = 1 ∧
        t.fuses = m.fuses ∧ t.glume = { m.glume with nonce := if 3 ≤ r ∧ r ≠ 8 then none else m.glume.nonce } ∧ fetched t ∧
        (block = none → r = 8 ∧ rd t F.HST_EVENT_DMA_ERR 0 = 1) ∧ Keeps [.glume, .host] m t)) ∧
      ∀ b : Auth, block = some b → r = 0 → Completes (x.2 block) s (fun t => rd t F.GLM_EVENT_AUTH_DONE 0 = 1 ∧ t.glume.nonce = none ∧
        fetched t ∧ t.ctl.st = (if x.1 ∈ [4, 5] ∧ m.ctl.st ≠ .powering then .fault else m.ctl.st) ∧
        (x.1 = 1 → t.fuses.life = .owned ∧ t.fuses.ownerKeys = m.fuses.ownerKeys ++ [b.argHash] ∧ t.glume.granted = .none) ∧
        (x.1 = 2 → t.fuses.life = .owned ∧ t.fuses.ownerKeys = m.fuses.ownerKeys ++ [b.argHash]) ∧
        (x.1 = 3 → t.fuses = m.fuses ∧ levelCode t.glume.granted ≤ b.arg0 ∧ levelCode t.glume.granted ≤ levelCap m.fuses.life ∧
          (b.arg1 = 0 → t.glume.grantEnd = none) ∧ (m.fuses.debugOff = true → t.glume.granted = .none)) ∧
        (x.1 = 4 → (m.glume.retireDue = false → t.fuses.life = .returned) ∧ (t.glume.scrubs = [] → t.nor.slotA = none ∧ t.nor.slotB = none)) ∧
        (x.1 = 5 → t.glume.granted = .none ∧ if t.glume.scrubs = [] then t.fuses.life = .retired else t.fuses = m.fuses ∧ t.glume.retireDue = true) ∧
        (x.1 = 6 → t.fuses.life = m.fuses.life ∧ (b.arg0 = 1 → t.fuses.debugOff = true ∧ t.glume.granted = .none) ∧
          (b.arg0 = 2 → t.fuses.confOnly = true) ∧ (b.arg0 = 3 → t.fuses.arLock = true) ∧ (b.arg0 = 4 → t.fuses.ar = b.arg1)))) ∧
  (∀ s : State, rd s.mach F.GLM_UPD_STATUS_STATE 0 ≠ 1 → Completes .stageComplete s (nothing s)) ∧
  (∀ s : State, rd s.mach F.GLM_UPD_STATUS_STATE 0 = 1 → Completes .stageComplete s (fun t =>
    let k := inactiveSlot s.mach
    let c := stageCode s.mach.fuses s.mach.glume.staging
    slotImage t k = s.mach.glume.staging ∧ slotImage t (otherSlot k) = slotImage s.mach (otherSlot k) ∧ t.glume.staging = none ∧
    rd t F.GLM_UPD_STATUS_REJECT 0 = c ∧ (c = 0 → rd t F.GLM_UPD_STATUS_STATE 0 = 2 ∧ rd t F.GLM_EVENT_STAGED 0 = 1) ∧
    (c ≠ 0 → rd t F.GLM_UPD_STATUS_STATE 0 = 3 ∧ rd t F.GLM_EVENT_STAGE_FAIL 0 = 1) ∧ Keeps [.nor, .glume, .host] s.mach t)) ∧
  ∀ s : State,
    let due := ∃ e : LTime, s.mach.glume.grantEnd = some e ∧ atOrAfter s.mach.time.now e = true
    (due → Completes .debugGrantExpiry s (fun t => t.glume = { s.mach.glume with granted := .none, grantEnd := none } ∧ t.out = [] ∧
      Keeps [.glume] s.mach t ∧ RegsSame s.mach t)) ∧
    (¬ due → Completes .debugGrantExpiry s (nothing s))

/-- Power requests are taken, held or refused; a drain, the entries to STANDBY and DORMANT and the wake do what R433 gives. Of a host that
may, power on: a request while another is carried out is held; a standby or dormant request in a state or lifecycle that forbids it, and a
wake outside STANDBY and DORMANT, is refused with RESULT, REFUSED and ACCESS_DENIED and changes nothing else; else it is taken. The drain
starts at a later tick boundary, after the losses, resets and placements due there, and completes after its last stage with no BE command
running (what waited for room comes back first, assumption 118). From CONFIGURED, or once drained, the module enters STANDBY with its
Tillers GATED and no fire left; from STANDBY, scrubs done and no port linked, DORMANT with HBM gone, sessions ended and flash closed;
while a port is linked, ports are asked for DEEP and the state stays; a wake ends in CONFIGURED with WAKE raised. A Tiller without LC work
or commands for GATE_US is gated. Where a command is not due, nothing happens. What is held, refused and lost on the way is assumption 93. -/
def Obligations.PowerRequestsAndStates : Prop :=
  let nothing : State → Mach → Prop := fun s t => Keeps [] s.mach t ∧ RegsSame s.mach t ∧ t.out = []
  (∀ (s : State) (b : Bool), ¬ HostMay s.mach ∨ alive s.mach = false → ∀ i ∈ [Instr.standbyRequest, .dormantRequest b, .wakeRequest],
    Completes i s (nothing s)) ∧
  (∀ s : State, HostMay s.mach → alive s.mach = true →
    let work := s.mach.ctl.st = .configured ∨ ticking s.mach = true
    let refused : Nat → Mach → Prop := fun code t => rd t F.PWR_CTRL_RESULT 0 = code ∧ rd t F.PWR_EVENT_REFUSED 0 = 1 ∧
      .accessDenied ∈ t.out ∧ Keeps [.host] s.mach t ∧ RegsKeep [F.PWR_CTRL_RESULT.addr 0, F.PWR_EVENT_REFUSED.addr 0] s.mach t
    let taken : PowerReq → Mach → Prop := fun r t => t.ctl = { s.mach.ctl with powerReq := some r, reqTick := s.mach.ctl.tickCount } ∧
      rd t F.PWR_CTRL_RESULT 0 = (if s.mach.ctl.align then 1 else 0) ∧ t.out = [] ∧ Keeps [.ctl] s.mach t ∧ RegsKeep [F.PWR_CTRL_RESULT.addr 0] s.mach t
    (powerBusy s.mach = true → ∀ b : Bool, ∀ x ∈ ([(.standbyRequest, .standby), (.dormantRequest b, .dormant b), (.wakeRequest, .wake)] :
      List (Instr × PowerReq)), Completes x.1 s (fun t => t.ctl = { s.mach.ctl with heldReqs := s.mach.ctl.heldReqs ++ [x.2] } ∧
        rd t F.PWR_CTRL_RESULT 0 = 1 ∧ t.out = [] ∧ Keeps [.ctl] s.mach t ∧ RegsKeep [F.PWR_CTRL_RESULT.addr 0] s.mach t)) ∧
    (powerBusy s.mach = false →
      (s.mach.fuses.life = .owned → work → Completes .standbyRequest s (taken .standby) ∧
        ∀ b : Bool, (b = true ∨ confPresent s.mach = false) → Completes (.dormantRequest b) s (taken (.dormant b))) ∧
      (s.mach.fuses.life = .owned → s.mach.ctl.st = .standby → ∀ b : Bool, (b = true ∨ confPresent s.mach = false) →
        Completes (.dormantRequest b) s (fun t => t.ctl.powerReq = some (.dormant b) ∧ t.ctl.st = .standby ∧ rd t F.PWR_CTRL_RESULT 0 = 0)) ∧
      (s.mach.fuses.life ≠ .owned ∨ ¬ work → Completes .standbyRequest s (refused 2)) ∧
      (∀ b : Bool,
        let out := s.mach.fuses.life ≠ .owned ∨ (¬ work ∧ s.mach.ctl.st ≠ .standby)
        (out → Completes (.dormantRequest b) s (refused 2)) ∧
        (¬ out → b = false → confPresent s.mach = true → Completes (.dormantRequest b) s (refused 3))) ∧
      (s.mach.ctl.st ∈ [.standby, .dormant] → Completes .wakeRequest s (fun t => t.ctl = { s.mach.ctl with waking := true } ∧
        rd t F.PWR_CTRL_RESULT 0 = 0 ∧ t.out = [] ∧ Keeps [.ctl] s.mach t ∧ RegsKeep [F.PWR_CTRL_RESULT.addr 0] s.mach t)) ∧
      (s.mach.ctl.st ∉ [.standby, .dormant] → Completes .wakeRequest s (refused 2)))) ∧
  (∀ s : State,
    let due : Mach → Prop := fun m => ticking m = true ∧ wantsStandby m = true ∧ boundarySince m m.ctl.reqTick = true
    let m := boundaryFirst (fresh s.mach)
    let may := due m ∧ m.ctl.drain = false ∧ m.ctl.align = false
    (¬ due s.mach → Completes .standbyDrainStart s (nothing s)) ∧
    (due s.mach → may → Completes .standbyDrainStart s (fun t => t.ctl = { m.ctl with drain := true, drainLeft := 3 } ∧ Keeps [.ctl] m t ∧
      RegsSame m t ∧ t.out = m.out)) ∧
    (due s.mach → ¬ may → Completes .standbyDrainStart s (fun t => Keeps [] m t ∧ RegsSame m t ∧ t.out = m.out))) ∧
  (∀ s : State,
    let m := if ticking s.mach = true then boundaryFirst (fresh s.mach) else fresh s.mach
    let asIs : Mach → Prop := fun t => Keeps [] m t ∧ RegsSame m t ∧ t.out = m.out
    let drained := m.ctl.drain = true ∧ m.ctl.drainLeft = 0
    let ready := (m.ctl.st = .configured ∨ (ticking m = true ∧ drained)) ∧ wantsStandby m = true ∧ m.ctl.align = false
    (¬ drained → Completes .drainComplete s asIs) ∧
    (drained → Completes .drainComplete s (fun t => t.ctl = m.ctl ∧
      ((∀ x ∈ m.fab.ctxs, parked x.2 = []) →
        (∀ c ∈ t.fab.inflight, c.lc = false → c.committed = false → c.phase ≠ .running ∧ c.phase ≠ .held) ∧
        t.fab.inflight.length = m.fab.inflight.length) ∧
      ((∀ c : Nat, m.fab.ctxRun ≠ some (c, 3)) → t.fab.hbm = m.fab.hbm))) ∧
    (¬ ready → Completes .standbyEntryComplete s asIs) ∧
    (ready → m.ctl.heldReqs = [] → Completes .standbyEntryComplete s (fun t => t.ctl.st = .standby ∧ t.ctl.prev = m.ctl.st ∧ t.ctl.drain = false ∧
        (m.ctl.powerReq = some .standby → t.ctl.powerReq = none) ∧ (pipelineOn m = true → t.eject.fires = []) ∧
        (∀ k : Fin 8, (tilOf t k).st ≠ .idle ∧ (tilOf t k).st ≠ .busy) ∧ powerState t = 2 ∧
        (m.ctl.powerReq = some .standby → t.fab.hbm = m.fab.hbm ∧ ∀ k : Fin 8, (tilOf t k).granary = (tilOf m k).granary) ∧
        t.time = m.time ∧ t.fuses = m.fuses ∧ t.cfg = m.cfg))) ∧
  (∀ s : State,
    let due := s.mach.ctl.st = .standby ∧ (∃ b : Bool, s.mach.ctl.powerReq = some (.dormant b)) ∧ s.mach.glume.scrubs = [] ∧
      confPresent s.mach = false
    let linked := ∃ p : Fin 16, linkedPort s.mach p = true
    (¬ due → Completes .dormantEntryComplete s (nothing s)) ∧
    (due → linked → Completes .dormantEntryComplete s (fun t => t.ctl = s.mach.ctl ∧
      (∀ p : Fin 16, linkedPort s.mach p = false → portOf t p = portOf s.mach p) ∧ Keeps [.sheaf, .host] s.mach t)) ∧
    (due → ¬ linked → s.mach.ctl.heldReqs = [] → Completes .dormantEntryComplete s (fun t => t.ctl.st = .dormant ∧ t.ctl.prev = .standby ∧
      t.ctl.powerReq = none ∧ t.fab.hbm = {} ∧ t.fab.inflight = [] ∧ t.glume.sessions = [] ∧ t.flash.bufSys = 0 ∧ t.flash.bufAudit = [] ∧
      t.flash.bufReject = [] ∧ powerState t = 3 ∧ effLevel t = .none ∧
      (∀ p : Fin 16, (portOf t p).phy = .deep ∨ ((portOf t p).phy = .off ∧ assigned t p = false)) ∧
      t.fuses = s.mach.fuses ∧ t.nor = s.mach.nor ∧ t.cfg = s.mach.cfg))) ∧
  (∀ s : State,
    let due := s.mach.ctl.waking = true ∧ s.mach.ctl.st ∈ [.standby, .dormant]
    (¬ due → Completes .wakeComplete s (nothing s)) ∧
    (due → s.mach.ctl.heldReqs = [] →
      Completes .wakeComplete s (fun t => t.ctl.st = .configured ∧ t.ctl.prev = s.mach.ctl.st ∧ t.ctl.waking = false ∧
      rd t F.PWR_EVENT_WAKE 0 = 1 ∧ (∀ k : Fin 8, (tilOf t k).st ≠ .gated) ∧ t.fuses = s.mach.fuses ∧ t.nor = s.mach.nor ∧
      t.cfg = s.mach.cfg))) ∧
  ∀ (s : State) (k : Fin 8),
    let due := alive s.mach = true ∧ (tilOf s.mach k).st = .idle ∧ lcTiller s.mach k = false ∧ allInflight s.mach k = 0 ∧
      ∀ x : LTime, (tilOf s.mach k).lastCmd = some x → lessSince s.mach.time.now x (s.mach.cfg.power.gateUs * 1000) = false
    (¬ due → Completes (.tillerGate k) s (nothing s)) ∧
    (due → Completes (.tillerGate k) s (fun t =>
      (tilOf t k).st = .gated ∧ (tilOf t k).stretched = false ∧ (tilOf t k).relock = none ∧ (tilOf t k).granary = (tilOf s.mach k).granary ∧
      (tilOf t k).pools = (tilOf s.mach k).pools ∧
      (∀ j : Nat, j ≠ k.val → tilOf t j = tilOf s.mach j) ∧ Keeps [.fab, .power, .host] s.mach t))

/-- Droops stretch one Tiller, clock switches wait for them, trims move in their window, temperatures act by their thresholds. A droop of a
clocked Tiller stretches it, counts, and touches no other Tiller; released it runs again, and a switch whose PLL has locked then applies.
A relock done while stretched is deferred and counted, else the clock takes the target. A trim moves one step within -12 to +8, down not
within 10 s of a step; while a clock of its die changes the step is held and made when that has ended; at the top MARGIN_EXHAUSTED, no
other action. A save, once an hour and not in READ_ONLY, keeps the trims. 95 °C on a compute die raises THERMAL_WARN, 105 °C on any
THERMAL_LIMIT, a coolant inlet above the code's range COOLANT_HIGH, and no other action; an HBM stack doubles its refresh from 85 °C and
limits BE traffic from 95 °C; a Tiller at 110 °C is quarantined. A control period, once in 100 µs, shows M, puts no target above the
nominal clock or an LC floor beyond it, and raises CAP_FLOOR only with its reason. What is not due does nothing. What the spec leaves open
here is the model's in assumptions 94, 95 and 96. -/
def Obligations.ClocksTrimsAndTemperatures : Prop :=
  let nothing : State → Mach → Prop := fun s t => Keeps [] s.mach t ∧ RegsSame s.mach t ∧ t.out = []
  (∀ (s : State) (n : Fin 8),
    let x := tilOf s.mach n
    let others : Mach → Prop := fun t => (∀ k : Nat, k ≠ n.val → tilOf t k = tilOf s.mach k) ∧ t.out = [] ∧ Keeps [.fab, .power] s.mach t
    let freq : Mach → Nat := fun t => rd t F.TIL_CLK_FREQ_MHZ n
    let settled : Mach → Prop := fun t => ∀ d : Fin 4, sext 8 (rd t (trimFld d) 0) =
      if tget 0 s.mach.power.trimHeld d = 0 ∨ trimWaits t d = true then sext 8 (rd s.mach (trimFld d) 0)
      else max (-12) (min 8 (trimNext s.mach d))
    (clocked s.mach n = false ∨ x.stretched = true → Completes (.droop n) s (nothing s)) ∧
    (clocked s.mach n = true → x.stretched = false → Completes (.droop n) s (fun t => tilOf t n = { x with stretched := true } ∧ others t ∧
      Counted F.PWR_DROOP_CNT_DROOPS 0 1 s.mach t ∧ freq t = freq s.mach)) ∧
    (x.stretched = false → Completes (.droopRelease n) s (nothing s)) ∧
    (x.stretched = true → ∀ f : Nat, f < 2048 →
      (x.relock = some f → x.locked = true → Completes (.droopRelease n) s (fun t =>
        tilOf t n = { x with stretched := false, relock := none, locked := false, voltMhz := f } ∧ freq t = f ∧ settled t ∧ others t)) ∧
      (x.locked = false ∨ x.relock = none → Completes (.droopRelease n) s (fun t => tilOf t n = { x with stretched := false } ∧
        freq t = freq s.mach ∧ others t)) ∧
      (x.relock = some f → x.locked = false → Completes (.pllRelockComplete n) s (fun t => tilOf t n = { x with locked := true } ∧
        freq t = freq s.mach ∧ Counted F.PWR_DROOP_CNT_DEFERRED 0 1 s.mach t ∧ others t))) ∧
    (x.relock = none ∨ x.locked = true → Completes (.pllRelockComplete n) s (nothing s)) ∧
    (∀ f : Nat, f < 2048 → x.stretched = false → x.relock = some f → x.locked = false → Completes (.pllRelockComplete n) s (fun t =>
      tilOf t n = { x with relock := none, locked := false, voltMhz := f } ∧ freq t = f ∧ settled t ∧ others t ∧
      RegsKeep [F.TIL_CLK_FREQ_MHZ.addr n, F.PWR_VTRIM_IO.addr 0, F.PWR_THROTTLE_ACTIVE.addr 0] s.mach t)) ∧
    let hot := (fabricOn s.mach = true ∨ s.mach.ctl.st = .standby) ∧ tilLost s.mach n = false
    (¬ hot → Completes (.thermalQuar n) s (nothing s)) ∧
    (hot → Completes (.thermalQuar n) s (fun t =>
      (tilOf t n).st = .quarantined ∧ (tilOf t n).quar = true ∧ (tilOf t n).thermQuar = true ∧ 110 ≤ (tilOf t n).temp ∧
      rd t F.PWR_EVENT_THERMAL_QUAR 0 = 1 ∧ rd t F.TIL_EVENT_QUARANTINED n = 1 ∧ t.fab.pend.isSome = true ∧
      ∀ k : Fin 8, k ≠ n → (tilOf t k).quar = (tilOf s.mach k).quar))) ∧
  (∀ (s : State) (die : Fin 4) (temp : BitVec 8) (k : Fin 2), alive s.mach = false → ∀ i ∈ [Instr.trimRaise die, .trimLower die, .trimSave,
    .thermalWarn die temp, .thermalLimit die temp, .coolantHigh temp, .hbmThermal k temp], Completes i s (nothing s)) ∧
  (∀ (s : State) (die : Fin 4), alive s.mach = true →
    let f := trimFld die
    let v := trimNext s.mach die
    let held : Int → Mach → Prop := fun d t => t.power = { s.mach.power with
      trimHeld := tset 0 s.mach.power.trimHeld die (tget 0 s.mach.power.trimHeld die + d)
      trimAt := tset none s.mach.power.trimAt die (some s.mach.time.now) } ∧ t.out = [] ∧ Keeps [.power] s.mach t ∧ RegsSame s.mach t
    let idle := ¬ trimWaits s.mach die = true ∧ tget 0 s.mach.power.trimHeld die = 0
    let moved : Int → Mach → Prop := fun w t => sext 8 (rd t f 0) = w ∧ t.out = [] ∧ RegsKeep [f.addr 0] s.mach t ∧
      t.power = { s.mach.power with trimAt := tset none s.mach.power.trimAt die (some s.mach.time.now) } ∧ Keeps [.power] s.mach t ∧
      ∀ d : Fin 4, d ≠ die → rd t (trimFld d) 0 = rd s.mach (trimFld d) 0
    let waits := trimWaits s.mach die = true
    let soon := ∃ x : LTime, tget none s.mach.power.trimAt die = some x ∧ lessSince s.mach.time.now x (10 * giga) = true
    let saves := flashPowered s.mach = true ∧ rd s.mach F.FLS_HEALTH_STATE 0 ≠ 3 ∧
      ∀ x : LTime, s.mach.power.savedAt = some x → lessSince s.mach.time.now x (3600 * giga) = false
    (v < 8 → idle → Completes (.trimRaise die) s (moved (v + 1))) ∧
    (v < 8 → waits → Completes (.trimRaise die) s (held 1)) ∧
    (8 ≤ v → Completes (.trimRaise die) s (fun t => rd t F.PWR_EVENT_MARGIN_EXHAUSTED 0 = 1 ∧ rd t f 0 = rd s.mach f 0 ∧ Keeps [.host] s.mach t ∧
      RegsKeep [F.PWR_EVENT_MARGIN_EXHAUSTED.addr 0] s.mach t)) ∧
    (-12 < v → idle → ¬ soon → Completes (.trimLower die) s (moved (v - 1))) ∧
    (-12 < v → waits → ¬ soon → Completes (.trimLower die) s (held (-1))) ∧
    (v ≤ -12 ∨ soon → Completes (.trimLower die) s (nothing s)) ∧
    (saves → Completes .trimSave s (fun t => t.flash = { s.mach.flash with
      trims := trimsNow s.mach, bufSys := s.mach.flash.bufSys + 1, inProg := t.flash.inProg } ∧ t.power.savedAt = some s.mach.time.now ∧ t.out = [] ∧
      Keeps [.flash, .power] s.mach t ∧ RegsSame s.mach t)) ∧
    (¬ saves → Completes .trimSave s (nothing s)) ∧
    ∀ temp : BitVec 8,
      let event : Fld → Mach → Prop := fun e t => Raised e 0 s.mach t ∧ Keeps [.host] s.mach t ∧ RegsKeep [e.addr 0] s.mach t
      (95 ≤ temp.toNat → die.val < 2 → Completes (.thermalWarn die temp) s (event F.PWR_EVENT_THERMAL_WARN)) ∧
      (temp.toNat < 95 ∨ 2 ≤ die.val → Completes (.thermalWarn die temp) s (nothing s)) ∧
      (105 ≤ temp.toNat → Completes (.thermalLimit die temp) s (event F.PWR_EVENT_THERMAL_LIMIT)) ∧
      (temp.toNat < 105 → Completes (.thermalLimit die temp) s (nothing s)) ∧
      (let top := if s.mach.nor.code = 2 then 55 else 45
       (top < temp.toNat → Completes (.coolantHigh temp) s (event F.PWR_EVENT_COOLANT_HIGH)) ∧
       (temp.toNat ≤ top → Completes (.coolantHigh temp) s (nothing s))) ∧
      ∀ k : Fin 2, (s.mach.ctl.st = .dormant → Completes (.hbmThermal k temp) s (nothing s)) ∧
       (s.mach.ctl.st ≠ .dormant → Completes (.hbmThermal k temp) s (fun t =>
        t.power.refresh2.getLsbD k = decide (85 ≤ temp.toNat) ∧ t.power.beLimit.getLsbD k = decide (95 ≤ temp.toNat) ∧
        (∀ j : Fin 2, j ≠ k → t.power.refresh2.getLsbD j = s.mach.power.refresh2.getLsbD j ∧
          t.power.beLimit.getLsbD j = s.mach.power.beLimit.getLsbD j) ∧ Keeps [.power] s.mach t ∧ RegsSame s.mach t))) ∧
  ∀ (s : State) (meas : PowerMeas),
    let due := alive s.mach = true ∧ ∀ x : LTime, s.mach.power.periodAt = some x → lessSince s.mach.time.now x 100000 = false
    (¬ due → Completes (.powerControlPeriod meas) s (nothing s)) ∧
    (due → Completes (.powerControlPeriod meas) s (fun t =>
    rd t F.PWR_INPUT_MEAS 0 = min meas.inputEighthW 65535 ∧ t.power.periodAt = some s.mach.time.now ∧
    (∀ (k : Fin 8) (f : Nat), (tilOf t k).relock = some f → (tilOf s.mach k).relock ≠ some f → f ≤ max (nominalMhz s.mach) (lcFloor s.mach k)) ∧
    (rd s.mach F.PWR_EVENT_CAP_FLOOR 0 = 0 → (rd t F.PWR_EVENT_CAP_FLOOR 0 = 1 ↔ (rd t F.PWR_THROTTLE_ACTIVE 0).testBit 5 = true)) ∧
    (s.mach.power.mismatch = false → s.mach.power.mismPeriods < 999 → t.power.mismatch = false) ∧
    (∀ k : Fin 8, rd t F.TIL_CLK_FREQ_MHZ k = rd s.mach F.TIL_CLK_FREQ_MHZ k ∧ (tilOf t k).st = (tilOf s.mach k).st) ∧
    t.ctl = s.mach.ctl ∧ t.fab.inflight = s.mach.fab.inflight ∧ Keeps [.fab, .power, .host] s.mach t))
end

