-- ==== Sys2Proof/Laws/State.lean ====
section
/-!
SUPPORT. Laws/State.lean: what each named update of the machine leaves in each part of it, so that no proof unfolds a record update.
-/

namespace Sys2Proof.Machine

@[simp] theorem setCtl_regs (m : Mach) (f : Ctl → Ctl) : (setCtl m f).regs = m.regs := rfl
@[simp] theorem setCtl_ctl (m : Mach) (f : Ctl → Ctl) : (setCtl m f).ctl = f m.ctl := rfl
@[simp] theorem setCtl_fuses (m : Mach) (f : Ctl → Ctl) : (setCtl m f).fuses = m.fuses := rfl
@[simp] theorem setCtl_nor (m : Mach) (f : Ctl → Ctl) : (setCtl m f).nor = m.nor := rfl
@[simp] theorem setCtl_cfg (m : Mach) (f : Ctl → Ctl) : (setCtl m f).cfg = m.cfg := rfl
@[simp] theorem setCtl_time (m : Mach) (f : Ctl → Ctl) : (setCtl m f).time = m.time := rfl
@[simp] theorem setCtl_enc (m : Mach) (f : Ctl → Ctl) : (setCtl m f).enc = m.enc := rfl
@[simp] theorem setCtl_trig (m : Mach) (f : Ctl → Ctl) : (setCtl m f).trig = m.trig := rfl
@[simp] theorem setCtl_sheaf (m : Mach) (f : Ctl → Ctl) : (setCtl m f).sheaf = m.sheaf := rfl
@[simp] theorem setCtl_wins (m : Mach) (f : Ctl → Ctl) : (setCtl m f).wins = m.wins := rfl
@[simp] theorem setCtl_intake (m : Mach) (f : Ctl → Ctl) : (setCtl m f).intake = m.intake := rfl
@[simp] theorem setCtl_align (m : Mach) (f : Ctl → Ctl) : (setCtl m f).align = m.align := rfl
@[simp] theorem setCtl_isp (m : Mach) (f : Ctl → Ctl) : (setCtl m f).isp = m.isp := rfl
@[simp] theorem setCtl_chaff (m : Mach) (f : Ctl → Ctl) : (setCtl m f).chaff = m.chaff := rfl
@[simp] theorem setCtl_fab (m : Mach) (f : Ctl → Ctl) : (setCtl m f).fab = m.fab := rfl
@[simp] theorem setCtl_eject (m : Mach) (f : Ctl → Ctl) : (setCtl m f).eject = m.eject := rfl
@[simp] theorem setCtl_flash (m : Mach) (f : Ctl → Ctl) : (setCtl m f).flash = m.flash := rfl
@[simp] theorem setCtl_glume (m : Mach) (f : Ctl → Ctl) : (setCtl m f).glume = m.glume := rfl
@[simp] theorem setCtl_power (m : Mach) (f : Ctl → Ctl) : (setCtl m f).power = m.power := rfl
@[simp] theorem setCtl_host (m : Mach) (f : Ctl → Ctl) : (setCtl m f).host = m.host := rfl
@[simp] theorem setCtl_draws (m : Mach) (f : Ctl → Ctl) : (setCtl m f).draws = m.draws := rfl
@[simp] theorem setCtl_out (m : Mach) (f : Ctl → Ctl) : (setCtl m f).out = m.out := rfl

@[simp] theorem setFuses_regs (m : Mach) (f : Fuses → Fuses) : (setFuses m f).regs = m.regs := rfl
@[simp] theorem setFuses_ctl (m : Mach) (f : Fuses → Fuses) : (setFuses m f).ctl = m.ctl := rfl
@[simp] theorem setFuses_fuses (m : Mach) (f : Fuses → Fuses) : (setFuses m f).fuses = f m.fuses := rfl
@[simp] theorem setFuses_nor (m : Mach) (f : Fuses → Fuses) : (setFuses m f).nor = m.nor := rfl
@[simp] theorem setFuses_cfg (m : Mach) (f : Fuses → Fuses) : (setFuses m f).cfg = m.cfg := rfl
@[simp] theorem setFuses_time (m : Mach) (f : Fuses → Fuses) : (setFuses m f).time = m.time := rfl
@[simp] theorem setFuses_enc (m : Mach) (f : Fuses → Fuses) : (setFuses m f).enc = m.enc := rfl
@[simp] theorem setFuses_trig (m : Mach) (f : Fuses → Fuses) : (setFuses m f).trig = m.trig := rfl
@[simp] theorem setFuses_sheaf (m : Mach) (f : Fuses → Fuses) : (setFuses m f).sheaf = m.sheaf := rfl
@[simp] theorem setFuses_wins (m : Mach) (f : Fuses → Fuses) : (setFuses m f).wins = m.wins := rfl
@[simp] theorem setFuses_intake (m : Mach) (f : Fuses → Fuses) : (setFuses m f).intake = m.intake := rfl
@[simp] theorem setFuses_align (m : Mach) (f : Fuses → Fuses) : (setFuses m f).align = m.align := rfl
@[simp] theorem setFuses_isp (m : Mach) (f : Fuses → Fuses) : (setFuses m f).isp = m.isp := rfl
@[simp] theorem setFuses_chaff (m : Mach) (f : Fuses → Fuses) : (setFuses m f).chaff = m.chaff := rfl
@[simp] theorem setFuses_fab (m : Mach) (f : Fuses → Fuses) : (setFuses m f).fab = m.fab := rfl
@[simp] theorem setFuses_eject (m : Mach) (f : Fuses → Fuses) : (setFuses m f).eject = m.eject := rfl
@[simp] theorem setFuses_flash (m : Mach) (f : Fuses → Fuses) : (setFuses m f).flash = m.flash := rfl
@[simp] theorem setFuses_glume (m : Mach) (f : Fuses → Fuses) : (setFuses m f).glume = m.glume := rfl
@[simp] theorem setFuses_power (m : Mach) (f : Fuses → Fuses) : (setFuses m f).power = m.power := rfl
@[simp] theorem setFuses_host (m : Mach) (f : Fuses → Fuses) : (setFuses m f).host = m.host := rfl
@[simp] theorem setFuses_draws (m : Mach) (f : Fuses → Fuses) : (setFuses m f).draws = m.draws := rfl
@[simp] theorem setFuses_out (m : Mach) (f : Fuses → Fuses) : (setFuses m f).out = m.out := rfl

@[simp] theorem setNor_regs (m : Mach) (f : Nor → Nor) : (setNor m f).regs = m.regs := rfl
@[simp] theorem setNor_ctl (m : Mach) (f : Nor → Nor) : (setNor m f).ctl = m.ctl := rfl
@[simp] theorem setNor_fuses (m : Mach) (f : Nor → Nor) : (setNor m f).fuses = m.fuses := rfl
@[simp] theorem setNor_nor (m : Mach) (f : Nor → Nor) : (setNor m f).nor = f m.nor := rfl
@[simp] theorem setNor_cfg (m : Mach) (f : Nor → Nor) : (setNor m f).cfg = m.cfg := rfl
@[simp] theorem setNor_time (m : Mach) (f : Nor → Nor) : (setNor m f).time = m.time := rfl
@[simp] theorem setNor_enc (m : Mach) (f : Nor → Nor) : (setNor m f).enc = m.enc := rfl
@[simp] theorem setNor_trig (m : Mach) (f : Nor → Nor) : (setNor m f).trig = m.trig := rfl
@[simp] theorem setNor_sheaf (m : Mach) (f : Nor → Nor) : (setNor m f).sheaf = m.sheaf := rfl
@[simp] theorem setNor_wins (m : Mach) (f : Nor → Nor) : (setNor m f).wins = m.wins := rfl
@[simp] theorem setNor_intake (m : Mach) (f : Nor → Nor) : (setNor m f).intake = m.intake := rfl
@[simp] theorem setNor_align (m : Mach) (f : Nor → Nor) : (setNor m f).align = m.align := rfl
@[simp] theorem setNor_isp (m : Mach) (f : Nor → Nor) : (setNor m f).isp = m.isp := rfl
@[simp] theorem setNor_chaff (m : Mach) (f : Nor → Nor) : (setNor m f).chaff = m.chaff := rfl
@[simp] theorem setNor_fab (m : Mach) (f : Nor → Nor) : (setNor m f).fab = m.fab := rfl
@[simp] theorem setNor_eject (m : Mach) (f : Nor → Nor) : (setNor m f).eject = m.eject := rfl
@[simp] theorem setNor_flash (m : Mach) (f : Nor → Nor) : (setNor m f).flash = m.flash := rfl
@[simp] theorem setNor_glume (m : Mach) (f : Nor → Nor) : (setNor m f).glume = m.glume := rfl
@[simp] theorem setNor_power (m : Mach) (f : Nor → Nor) : (setNor m f).power = m.power := rfl
@[simp] theorem setNor_host (m : Mach) (f : Nor → Nor) : (setNor m f).host = m.host := rfl
@[simp] theorem setNor_draws (m : Mach) (f : Nor → Nor) : (setNor m f).draws = m.draws := rfl
@[simp] theorem setNor_out (m : Mach) (f : Nor → Nor) : (setNor m f).out = m.out := rfl

@[simp] theorem setTime_regs (m : Mach) (f : TimeBase → TimeBase) : (setTime m f).regs = m.regs := rfl
@[simp] theorem setTime_ctl (m : Mach) (f : TimeBase → TimeBase) : (setTime m f).ctl = m.ctl := rfl
@[simp] theorem setTime_fuses (m : Mach) (f : TimeBase → TimeBase) : (setTime m f).fuses = m.fuses := rfl
@[simp] theorem setTime_nor (m : Mach) (f : TimeBase → TimeBase) : (setTime m f).nor = m.nor := rfl
@[simp] theorem setTime_cfg (m : Mach) (f : TimeBase → TimeBase) : (setTime m f).cfg = m.cfg := rfl
@[simp] theorem setTime_time (m : Mach) (f : TimeBase → TimeBase) : (setTime m f).time = f m.time := rfl
@[simp] theorem setTime_enc (m : Mach) (f : TimeBase → TimeBase) : (setTime m f).enc = m.enc := rfl
@[simp] theorem setTime_trig (m : Mach) (f : TimeBase → TimeBase) : (setTime m f).trig = m.trig := rfl
@[simp] theorem setTime_sheaf (m : Mach) (f : TimeBase → TimeBase) : (setTime m f).sheaf = m.sheaf := rfl
@[simp] theorem setTime_wins (m : Mach) (f : TimeBase → TimeBase) : (setTime m f).wins = m.wins := rfl
@[simp] theorem setTime_intake (m : Mach) (f : TimeBase → TimeBase) : (setTime m f).intake = m.intake := rfl
@[simp] theorem setTime_align (m : Mach) (f : TimeBase → TimeBase) : (setTime m f).align = m.align := rfl
@[simp] theorem setTime_isp (m : Mach) (f : TimeBase → TimeBase) : (setTime m f).isp = m.isp := rfl
@[simp] theorem setTime_chaff (m : Mach) (f : TimeBase → TimeBase) : (setTime m f).chaff = m.chaff := rfl
@[simp] theorem setTime_fab (m : Mach) (f : TimeBase → TimeBase) : (setTime m f).fab = m.fab := rfl
@[simp] theorem setTime_eject (m : Mach) (f : TimeBase → TimeBase) : (setTime m f).eject = m.eject := rfl
@[simp] theorem setTime_flash (m : Mach) (f : TimeBase → TimeBase) : (setTime m f).flash = m.flash := rfl
@[simp] theorem setTime_glume (m : Mach) (f : TimeBase → TimeBase) : (setTime m f).glume = m.glume := rfl
@[simp] theorem setTime_power (m : Mach) (f : TimeBase → TimeBase) : (setTime m f).power = m.power := rfl
@[simp] theorem setTime_host (m : Mach) (f : TimeBase → TimeBase) : (setTime m f).host = m.host := rfl
@[simp] theorem setTime_draws (m : Mach) (f : TimeBase → TimeBase) : (setTime m f).draws = m.draws := rfl
@[simp] theorem setTime_out (m : Mach) (f : TimeBase → TimeBase) : (setTime m f).out = m.out := rfl

@[simp] theorem setTrig_regs (m : Mach) (f : Trig → Trig) : (setTrig m f).regs = m.regs := rfl
@[simp] theorem setTrig_ctl (m : Mach) (f : Trig → Trig) : (setTrig m f).ctl = m.ctl := rfl
@[simp] theorem setTrig_fuses (m : Mach) (f : Trig → Trig) : (setTrig m f).fuses = m.fuses := rfl
@[simp] theorem setTrig_nor (m : Mach) (f : Trig → Trig) : (setTrig m f).nor = m.nor := rfl
@[simp] theorem setTrig_cfg (m : Mach) (f : Trig → Trig) : (setTrig m f).cfg = m.cfg := rfl
@[simp] theorem setTrig_time (m : Mach) (f : Trig → Trig) : (setTrig m f).time = m.time := rfl
@[simp] theorem setTrig_enc (m : Mach) (f : Trig → Trig) : (setTrig m f).enc = m.enc := rfl
@[simp] theorem setTrig_trig (m : Mach) (f : Trig → Trig) : (setTrig m f).trig = f m.trig := rfl
@[simp] theorem setTrig_sheaf (m : Mach) (f : Trig → Trig) : (setTrig m f).sheaf = m.sheaf := rfl
@[simp] theorem setTrig_wins (m : Mach) (f : Trig → Trig) : (setTrig m f).wins = m.wins := rfl
@[simp] theorem setTrig_intake (m : Mach) (f : Trig → Trig) : (setTrig m f).intake = m.intake := rfl
@[simp] theorem setTrig_align (m : Mach) (f : Trig → Trig) : (setTrig m f).align = m.align := rfl
@[simp] theorem setTrig_isp (m : Mach) (f : Trig → Trig) : (setTrig m f).isp = m.isp := rfl
@[simp] theorem setTrig_chaff (m : Mach) (f : Trig → Trig) : (setTrig m f).chaff = m.chaff := rfl
@[simp] theorem setTrig_fab (m : Mach) (f : Trig → Trig) : (setTrig m f).fab = m.fab := rfl
@[simp] theorem setTrig_eject (m : Mach) (f : Trig → Trig) : (setTrig m f).eject = m.eject := rfl
@[simp] theorem setTrig_flash (m : Mach) (f : Trig → Trig) : (setTrig m f).flash = m.flash := rfl
@[simp] theorem setTrig_glume (m : Mach) (f : Trig → Trig) : (setTrig m f).glume = m.glume := rfl
@[simp] theorem setTrig_power (m : Mach) (f : Trig → Trig) : (setTrig m f).power = m.power := rfl
@[simp] theorem setTrig_host (m : Mach) (f : Trig → Trig) : (setTrig m f).host = m.host := rfl
@[simp] theorem setTrig_draws (m : Mach) (f : Trig → Trig) : (setTrig m f).draws = m.draws := rfl
@[simp] theorem setTrig_out (m : Mach) (f : Trig → Trig) : (setTrig m f).out = m.out := rfl

@[simp] theorem setAlign_regs (m : Mach) (f : Align → Align) : (setAlign m f).regs = m.regs := rfl
@[simp] theorem setAlign_ctl (m : Mach) (f : Align → Align) : (setAlign m f).ctl = m.ctl := rfl
@[simp] theorem setAlign_fuses (m : Mach) (f : Align → Align) : (setAlign m f).fuses = m.fuses := rfl
@[simp] theorem setAlign_nor (m : Mach) (f : Align → Align) : (setAlign m f).nor = m.nor := rfl
@[simp] theorem setAlign_cfg (m : Mach) (f : Align → Align) : (setAlign m f).cfg = m.cfg := rfl
@[simp] theorem setAlign_time (m : Mach) (f : Align → Align) : (setAlign m f).time = m.time := rfl
@[simp] theorem setAlign_enc (m : Mach) (f : Align → Align) : (setAlign m f).enc = m.enc := rfl
@[simp] theorem setAlign_trig (m : Mach) (f : Align → Align) : (setAlign m f).trig = m.trig := rfl
@[simp] theorem setAlign_sheaf (m : Mach) (f : Align → Align) : (setAlign m f).sheaf = m.sheaf := rfl
@[simp] theorem setAlign_wins (m : Mach) (f : Align → Align) : (setAlign m f).wins = m.wins := rfl
@[simp] theorem setAlign_intake (m : Mach) (f : Align → Align) : (setAlign m f).intake = m.intake := rfl
@[simp] theorem setAlign_align (m : Mach) (f : Align → Align) : (setAlign m f).align = f m.align := rfl
@[simp] theorem setAlign_isp (m : Mach) (f : Align → Align) : (setAlign m f).isp = m.isp := rfl
@[simp] theorem setAlign_chaff (m : Mach) (f : Align → Align) : (setAlign m f).chaff = m.chaff := rfl
@[simp] theorem setAlign_fab (m : Mach) (f : Align → Align) : (setAlign m f).fab = m.fab := rfl
@[simp] theorem setAlign_eject (m : Mach) (f : Align → Align) : (setAlign m f).eject = m.eject := rfl
@[simp] theorem setAlign_flash (m : Mach) (f : Align → Align) : (setAlign m f).flash = m.flash := rfl
@[simp] theorem setAlign_glume (m : Mach) (f : Align → Align) : (setAlign m f).glume = m.glume := rfl
@[simp] theorem setAlign_power (m : Mach) (f : Align → Align) : (setAlign m f).power = m.power := rfl
@[simp] theorem setAlign_host (m : Mach) (f : Align → Align) : (setAlign m f).host = m.host := rfl
@[simp] theorem setAlign_draws (m : Mach) (f : Align → Align) : (setAlign m f).draws = m.draws := rfl
@[simp] theorem setAlign_out (m : Mach) (f : Align → Align) : (setAlign m f).out = m.out := rfl

@[simp] theorem setIsp_regs (m : Mach) (f : Isp → Isp) : (setIsp m f).regs = m.regs := rfl
@[simp] theorem setIsp_ctl (m : Mach) (f : Isp → Isp) : (setIsp m f).ctl = m.ctl := rfl
@[simp] theorem setIsp_fuses (m : Mach) (f : Isp → Isp) : (setIsp m f).fuses = m.fuses := rfl
@[simp] theorem setIsp_nor (m : Mach) (f : Isp → Isp) : (setIsp m f).nor = m.nor := rfl
@[simp] theorem setIsp_cfg (m : Mach) (f : Isp → Isp) : (setIsp m f).cfg = m.cfg := rfl
@[simp] theorem setIsp_time (m : Mach) (f : Isp → Isp) : (setIsp m f).time = m.time := rfl
@[simp] theorem setIsp_enc (m : Mach) (f : Isp → Isp) : (setIsp m f).enc = m.enc := rfl
@[simp] theorem setIsp_trig (m : Mach) (f : Isp → Isp) : (setIsp m f).trig = m.trig := rfl
@[simp] theorem setIsp_sheaf (m : Mach) (f : Isp → Isp) : (setIsp m f).sheaf = m.sheaf := rfl
@[simp] theorem setIsp_wins (m : Mach) (f : Isp → Isp) : (setIsp m f).wins = m.wins := rfl
@[simp] theorem setIsp_intake (m : Mach) (f : Isp → Isp) : (setIsp m f).intake = m.intake := rfl
@[simp] theorem setIsp_align (m : Mach) (f : Isp → Isp) : (setIsp m f).align = m.align := rfl
@[simp] theorem setIsp_isp (m : Mach) (f : Isp → Isp) : (setIsp m f).isp = f m.isp := rfl
@[simp] theorem setIsp_chaff (m : Mach) (f : Isp → Isp) : (setIsp m f).chaff = m.chaff := rfl
@[simp] theorem setIsp_fab (m : Mach) (f : Isp → Isp) : (setIsp m f).fab = m.fab := rfl
@[simp] theorem setIsp_eject (m : Mach) (f : Isp → Isp) : (setIsp m f).eject = m.eject := rfl
@[simp] theorem setIsp_flash (m : Mach) (f : Isp → Isp) : (setIsp m f).flash = m.flash := rfl
@[simp] theorem setIsp_glume (m : Mach) (f : Isp → Isp) : (setIsp m f).glume = m.glume := rfl
@[simp] theorem setIsp_power (m : Mach) (f : Isp → Isp) : (setIsp m f).power = m.power := rfl
@[simp] theorem setIsp_host (m : Mach) (f : Isp → Isp) : (setIsp m f).host = m.host := rfl
@[simp] theorem setIsp_draws (m : Mach) (f : Isp → Isp) : (setIsp m f).draws = m.draws := rfl
@[simp] theorem setIsp_out (m : Mach) (f : Isp → Isp) : (setIsp m f).out = m.out := rfl

@[simp] theorem setChaff_regs (m : Mach) (f : Chaff → Chaff) : (setChaff m f).regs = m.regs := rfl
@[simp] theorem setChaff_ctl (m : Mach) (f : Chaff → Chaff) : (setChaff m f).ctl = m.ctl := rfl
@[simp] theorem setChaff_fuses (m : Mach) (f : Chaff → Chaff) : (setChaff m f).fuses = m.fuses := rfl
@[simp] theorem setChaff_nor (m : Mach) (f : Chaff → Chaff) : (setChaff m f).nor = m.nor := rfl
@[simp] theorem setChaff_cfg (m : Mach) (f : Chaff → Chaff) : (setChaff m f).cfg = m.cfg := rfl
@[simp] theorem setChaff_time (m : Mach) (f : Chaff → Chaff) : (setChaff m f).time = m.time := rfl
@[simp] theorem setChaff_enc (m : Mach) (f : Chaff → Chaff) : (setChaff m f).enc = m.enc := rfl
@[simp] theorem setChaff_trig (m : Mach) (f : Chaff → Chaff) : (setChaff m f).trig = m.trig := rfl
@[simp] theorem setChaff_sheaf (m : Mach) (f : Chaff → Chaff) : (setChaff m f).sheaf = m.sheaf := rfl
@[simp] theorem setChaff_wins (m : Mach) (f : Chaff → Chaff) : (setChaff m f).wins = m.wins := rfl
@[simp] theorem setChaff_intake (m : Mach) (f : Chaff → Chaff) : (setChaff m f).intake = m.intake := rfl
@[simp] theorem setChaff_align (m : Mach) (f : Chaff → Chaff) : (setChaff m f).align = m.align := rfl
@[simp] theorem setChaff_isp (m : Mach) (f : Chaff → Chaff) : (setChaff m f).isp = m.isp := rfl
@[simp] theorem setChaff_chaff (m : Mach) (f : Chaff → Chaff) : (setChaff m f).chaff = f m.chaff := rfl
@[simp] theorem setChaff_fab (m : Mach) (f : Chaff → Chaff) : (setChaff m f).fab = m.fab := rfl
@[simp] theorem setChaff_eject (m : Mach) (f : Chaff → Chaff) : (setChaff m f).eject = m.eject := rfl
@[simp] theorem setChaff_flash (m : Mach) (f : Chaff → Chaff) : (setChaff m f).flash = m.flash := rfl
@[simp] theorem setChaff_glume (m : Mach) (f : Chaff → Chaff) : (setChaff m f).glume = m.glume := rfl
@[simp] theorem setChaff_power (m : Mach) (f : Chaff → Chaff) : (setChaff m f).power = m.power := rfl
@[simp] theorem setChaff_host (m : Mach) (f : Chaff → Chaff) : (setChaff m f).host = m.host := rfl
@[simp] theorem setChaff_draws (m : Mach) (f : Chaff → Chaff) : (setChaff m f).draws = m.draws := rfl
@[simp] theorem setChaff_out (m : Mach) (f : Chaff → Chaff) : (setChaff m f).out = m.out := rfl

@[simp] theorem setFab_regs (m : Mach) (f : Fabric → Fabric) : (setFab m f).regs = m.regs := rfl
@[simp] theorem setFab_ctl (m : Mach) (f : Fabric → Fabric) : (setFab m f).ctl = m.ctl := rfl
@[simp] theorem setFab_fuses (m : Mach) (f : Fabric → Fabric) : (setFab m f).fuses = m.fuses := rfl
@[simp] theorem setFab_nor (m : Mach) (f : Fabric → Fabric) : (setFab m f).nor = m.nor := rfl
@[simp] theorem setFab_cfg (m : Mach) (f : Fabric → Fabric) : (setFab m f).cfg = m.cfg := rfl
@[simp] theorem setFab_time (m : Mach) (f : Fabric → Fabric) : (setFab m f).time = m.time := rfl
@[simp] theorem setFab_enc (m : Mach) (f : Fabric → Fabric) : (setFab m f).enc = m.enc := rfl
@[simp] theorem setFab_trig (m : Mach) (f : Fabric → Fabric) : (setFab m f).trig = m.trig := rfl
@[simp] theorem setFab_sheaf (m : Mach) (f : Fabric → Fabric) : (setFab m f).sheaf = m.sheaf := rfl
@[simp] theorem setFab_wins (m : Mach) (f : Fabric → Fabric) : (setFab m f).wins = m.wins := rfl
@[simp] theorem setFab_intake (m : Mach) (f : Fabric → Fabric) : (setFab m f).intake = m.intake := rfl
@[simp] theorem setFab_align (m : Mach) (f : Fabric → Fabric) : (setFab m f).align = m.align := rfl
@[simp] theorem setFab_isp (m : Mach) (f : Fabric → Fabric) : (setFab m f).isp = m.isp := rfl
@[simp] theorem setFab_chaff (m : Mach) (f : Fabric → Fabric) : (setFab m f).chaff = m.chaff := rfl
@[simp] theorem setFab_fab (m : Mach) (f : Fabric → Fabric) : (setFab m f).fab = f m.fab := rfl
@[simp] theorem setFab_eject (m : Mach) (f : Fabric → Fabric) : (setFab m f).eject = m.eject := rfl
@[simp] theorem setFab_flash (m : Mach) (f : Fabric → Fabric) : (setFab m f).flash = m.flash := rfl
@[simp] theorem setFab_glume (m : Mach) (f : Fabric → Fabric) : (setFab m f).glume = m.glume := rfl
@[simp] theorem setFab_power (m : Mach) (f : Fabric → Fabric) : (setFab m f).power = m.power := rfl
@[simp] theorem setFab_host (m : Mach) (f : Fabric → Fabric) : (setFab m f).host = m.host := rfl
@[simp] theorem setFab_draws (m : Mach) (f : Fabric → Fabric) : (setFab m f).draws = m.draws := rfl
@[simp] theorem setFab_out (m : Mach) (f : Fabric → Fabric) : (setFab m f).out = m.out := rfl

@[simp] theorem setEject_regs (m : Mach) (f : Eject → Eject) : (setEject m f).regs = m.regs := rfl
@[simp] theorem setEject_ctl (m : Mach) (f : Eject → Eject) : (setEject m f).ctl = m.ctl := rfl
@[simp] theorem setEject_fuses (m : Mach) (f : Eject → Eject) : (setEject m f).fuses = m.fuses := rfl
@[simp] theorem setEject_nor (m : Mach) (f : Eject → Eject) : (setEject m f).nor = m.nor := rfl
@[simp] theorem setEject_cfg (m : Mach) (f : Eject → Eject) : (setEject m f).cfg = m.cfg := rfl
@[simp] theorem setEject_time (m : Mach) (f : Eject → Eject) : (setEject m f).time = m.time := rfl
@[simp] theorem setEject_enc (m : Mach) (f : Eject → Eject) : (setEject m f).enc = m.enc := rfl
@[simp] theorem setEject_trig (m : Mach) (f : Eject → Eject) : (setEject m f).trig = m.trig := rfl
@[simp] theorem setEject_sheaf (m : Mach) (f : Eject → Eject) : (setEject m f).sheaf = m.sheaf := rfl
@[simp] theorem setEject_wins (m : Mach) (f : Eject → Eject) : (setEject m f).wins = m.wins := rfl
@[simp] theorem setEject_intake (m : Mach) (f : Eject → Eject) : (setEject m f).intake = m.intake := rfl
@[simp] theorem setEject_align (m : Mach) (f : Eject → Eject) : (setEject m f).align = m.align := rfl
@[simp] theorem setEject_isp (m : Mach) (f : Eject → Eject) : (setEject m f).isp = m.isp := rfl
@[simp] theorem setEject_chaff (m : Mach) (f : Eject → Eject) : (setEject m f).chaff = m.chaff := rfl
@[simp] theorem setEject_fab (m : Mach) (f : Eject → Eject) : (setEject m f).fab = m.fab := rfl
@[simp] theorem setEject_eject (m : Mach) (f : Eject → Eject) : (setEject m f).eject = f m.eject := rfl
@[simp] theorem setEject_flash (m : Mach) (f : Eject → Eject) : (setEject m f).flash = m.flash := rfl
@[simp] theorem setEject_glume (m : Mach) (f : Eject → Eject) : (setEject m f).glume = m.glume := rfl
@[simp] theorem setEject_power (m : Mach) (f : Eject → Eject) : (setEject m f).power = m.power := rfl
@[simp] theorem setEject_host (m : Mach) (f : Eject → Eject) : (setEject m f).host = m.host := rfl
@[simp] theorem setEject_draws (m : Mach) (f : Eject → Eject) : (setEject m f).draws = m.draws := rfl
@[simp] theorem setEject_out (m : Mach) (f : Eject → Eject) : (setEject m f).out = m.out := rfl

@[simp] theorem setFlash_regs (m : Mach) (f : Flash → Flash) : (setFlash m f).regs = m.regs := rfl
@[simp] theorem setFlash_ctl (m : Mach) (f : Flash → Flash) : (setFlash m f).ctl = m.ctl := rfl
@[simp] theorem setFlash_fuses (m : Mach) (f : Flash → Flash) : (setFlash m f).fuses = m.fuses := rfl
@[simp] theorem setFlash_nor (m : Mach) (f : Flash → Flash) : (setFlash m f).nor = m.nor := rfl
@[simp] theorem setFlash_cfg (m : Mach) (f : Flash → Flash) : (setFlash m f).cfg = m.cfg := rfl
@[simp] theorem setFlash_time (m : Mach) (f : Flash → Flash) : (setFlash m f).time = m.time := rfl
@[simp] theorem setFlash_enc (m : Mach) (f : Flash → Flash) : (setFlash m f).enc = m.enc := rfl
@[simp] theorem setFlash_trig (m : Mach) (f : Flash → Flash) : (setFlash m f).trig = m.trig := rfl
@[simp] theorem setFlash_sheaf (m : Mach) (f : Flash → Flash) : (setFlash m f).sheaf = m.sheaf := rfl
@[simp] theorem setFlash_wins (m : Mach) (f : Flash → Flash) : (setFlash m f).wins = m.wins := rfl
@[simp] theorem setFlash_intake (m : Mach) (f : Flash → Flash) : (setFlash m f).intake = m.intake := rfl
@[simp] theorem setFlash_align (m : Mach) (f : Flash → Flash) : (setFlash m f).align = m.align := rfl
@[simp] theorem setFlash_isp (m : Mach) (f : Flash → Flash) : (setFlash m f).isp = m.isp := rfl
@[simp] theorem setFlash_chaff (m : Mach) (f : Flash → Flash) : (setFlash m f).chaff = m.chaff := rfl
@[simp] theorem setFlash_fab (m : Mach) (f : Flash → Flash) : (setFlash m f).fab = m.fab := rfl
@[simp] theorem setFlash_eject (m : Mach) (f : Flash → Flash) : (setFlash m f).eject = m.eject := rfl
@[simp] theorem setFlash_flash (m : Mach) (f : Flash → Flash) : (setFlash m f).flash = f m.flash := rfl
@[simp] theorem setFlash_glume (m : Mach) (f : Flash → Flash) : (setFlash m f).glume = m.glume := rfl
@[simp] theorem setFlash_power (m : Mach) (f : Flash → Flash) : (setFlash m f).power = m.power := rfl
@[simp] theorem setFlash_host (m : Mach) (f : Flash → Flash) : (setFlash m f).host = m.host := rfl
@[simp] theorem setFlash_draws (m : Mach) (f : Flash → Flash) : (setFlash m f).draws = m.draws := rfl
@[simp] theorem setFlash_out (m : Mach) (f : Flash → Flash) : (setFlash m f).out = m.out := rfl

@[simp] theorem setGlume_regs (m : Mach) (f : Glume → Glume) : (setGlume m f).regs = m.regs := rfl
@[simp] theorem setGlume_ctl (m : Mach) (f : Glume → Glume) : (setGlume m f).ctl = m.ctl := rfl
@[simp] theorem setGlume_fuses (m : Mach) (f : Glume → Glume) : (setGlume m f).fuses = m.fuses := rfl
@[simp] theorem setGlume_nor (m : Mach) (f : Glume → Glume) : (setGlume m f).nor = m.nor := rfl
@[simp] theorem setGlume_cfg (m : Mach) (f : Glume → Glume) : (setGlume m f).cfg = m.cfg := rfl
@[simp] theorem setGlume_time (m : Mach) (f : Glume → Glume) : (setGlume m f).time = m.time := rfl
@[simp] theorem setGlume_enc (m : Mach) (f : Glume → Glume) : (setGlume m f).enc = m.enc := rfl
@[simp] theorem setGlume_trig (m : Mach) (f : Glume → Glume) : (setGlume m f).trig = m.trig := rfl
@[simp] theorem setGlume_sheaf (m : Mach) (f : Glume → Glume) : (setGlume m f).sheaf = m.sheaf := rfl
@[simp] theorem setGlume_wins (m : Mach) (f : Glume → Glume) : (setGlume m f).wins = m.wins := rfl
@[simp] theorem setGlume_intake (m : Mach) (f : Glume → Glume) : (setGlume m f).intake = m.intake := rfl
@[simp] theorem setGlume_align (m : Mach) (f : Glume → Glume) : (setGlume m f).align = m.align := rfl
@[simp] theorem setGlume_isp (m : Mach) (f : Glume → Glume) : (setGlume m f).isp = m.isp := rfl
@[simp] theorem setGlume_chaff (m : Mach) (f : Glume → Glume) : (setGlume m f).chaff = m.chaff := rfl
@[simp] theorem setGlume_fab (m : Mach) (f : Glume → Glume) : (setGlume m f).fab = m.fab := rfl
@[simp] theorem setGlume_eject (m : Mach) (f : Glume → Glume) : (setGlume m f).eject = m.eject := rfl
@[simp] theorem setGlume_flash (m : Mach) (f : Glume → Glume) : (setGlume m f).flash = m.flash := rfl
@[simp] theorem setGlume_glume (m : Mach) (f : Glume → Glume) : (setGlume m f).glume = f m.glume := rfl
@[simp] theorem setGlume_power (m : Mach) (f : Glume → Glume) : (setGlume m f).power = m.power := rfl
@[simp] theorem setGlume_host (m : Mach) (f : Glume → Glume) : (setGlume m f).host = m.host := rfl
@[simp] theorem setGlume_draws (m : Mach) (f : Glume → Glume) : (setGlume m f).draws = m.draws := rfl
@[simp] theorem setGlume_out (m : Mach) (f : Glume → Glume) : (setGlume m f).out = m.out := rfl

@[simp] theorem setPower_regs (m : Mach) (f : Power → Power) : (setPower m f).regs = m.regs := rfl
@[simp] theorem setPower_ctl (m : Mach) (f : Power → Power) : (setPower m f).ctl = m.ctl := rfl
@[simp] theorem setPower_fuses (m : Mach) (f : Power → Power) : (setPower m f).fuses = m.fuses := rfl
@[simp] theorem setPower_nor (m : Mach) (f : Power → Power) : (setPower m f).nor = m.nor := rfl
@[simp] theorem setPower_cfg (m : Mach) (f : Power → Power) : (setPower m f).cfg = m.cfg := rfl
@[simp] theorem setPower_time (m : Mach) (f : Power → Power) : (setPower m f).time = m.time := rfl
@[simp] theorem setPower_enc (m : Mach) (f : Power → Power) : (setPower m f).enc = m.enc := rfl
@[simp] theorem setPower_trig (m : Mach) (f : Power → Power) : (setPower m f).trig = m.trig := rfl
@[simp] theorem setPower_sheaf (m : Mach) (f : Power → Power) : (setPower m f).sheaf = m.sheaf := rfl
@[simp] theorem setPower_wins (m : Mach) (f : Power → Power) : (setPower m f).wins = m.wins := rfl
@[simp] theorem setPower_intake (m : Mach) (f : Power → Power) : (setPower m f).intake = m.intake := rfl
@[simp] theorem setPower_align (m : Mach) (f : Power → Power) : (setPower m f).align = m.align := rfl
@[simp] theorem setPower_isp (m : Mach) (f : Power → Power) : (setPower m f).isp = m.isp := rfl
@[simp] theorem setPower_chaff (m : Mach) (f : Power → Power) : (setPower m f).chaff = m.chaff := rfl
@[simp] theorem setPower_fab (m : Mach) (f : Power → Power) : (setPower m f).fab = m.fab := rfl
@[simp] theorem setPower_eject (m : Mach) (f : Power → Power) : (setPower m f).eject = m.eject := rfl
@[simp] theorem setPower_flash (m : Mach) (f : Power → Power) : (setPower m f).flash = m.flash := rfl
@[simp] theorem setPower_glume (m : Mach) (f : Power → Power) : (setPower m f).glume = m.glume := rfl
@[simp] theorem setPower_power (m : Mach) (f : Power → Power) : (setPower m f).power = f m.power := rfl
@[simp] theorem setPower_host (m : Mach) (f : Power → Power) : (setPower m f).host = m.host := rfl
@[simp] theorem setPower_draws (m : Mach) (f : Power → Power) : (setPower m f).draws = m.draws := rfl
@[simp] theorem setPower_out (m : Mach) (f : Power → Power) : (setPower m f).out = m.out := rfl

@[simp] theorem setHost_regs (m : Mach) (f : HostIf → HostIf) : (setHost m f).regs = m.regs := rfl
@[simp] theorem setHost_ctl (m : Mach) (f : HostIf → HostIf) : (setHost m f).ctl = m.ctl := rfl
@[simp] theorem setHost_fuses (m : Mach) (f : HostIf → HostIf) : (setHost m f).fuses = m.fuses := rfl
@[simp] theorem setHost_nor (m : Mach) (f : HostIf → HostIf) : (setHost m f).nor = m.nor := rfl
@[simp] theorem setHost_cfg (m : Mach) (f : HostIf → HostIf) : (setHost m f).cfg = m.cfg := rfl
@[simp] theorem setHost_time (m : Mach) (f : HostIf → HostIf) : (setHost m f).time = m.time := rfl
@[simp] theorem setHost_enc (m : Mach) (f : HostIf → HostIf) : (setHost m f).enc = m.enc := rfl
@[simp] theorem setHost_trig (m : Mach) (f : HostIf → HostIf) : (setHost m f).trig = m.trig := rfl
@[simp] theorem setHost_sheaf (m : Mach) (f : HostIf → HostIf) : (setHost m f).sheaf = m.sheaf := rfl
@[simp] theorem setHost_wins (m : Mach) (f : HostIf → HostIf) : (setHost m f).wins = m.wins := rfl
@[simp] theorem setHost_intake (m : Mach) (f : HostIf → HostIf) : (setHost m f).intake = m.intake := rfl
@[simp] theorem setHost_align (m : Mach) (f : HostIf → HostIf) : (setHost m f).align = m.align := rfl
@[simp] theorem setHost_isp (m : Mach) (f : HostIf → HostIf) : (setHost m f).isp = m.isp := rfl
@[simp] theorem setHost_chaff (m : Mach) (f : HostIf → HostIf) : (setHost m f).chaff = m.chaff := rfl
@[simp] theorem setHost_fab (m : Mach) (f : HostIf → HostIf) : (setHost m f).fab = m.fab := rfl
@[simp] theorem setHost_eject (m : Mach) (f : HostIf → HostIf) : (setHost m f).eject = m.eject := rfl
@[simp] theorem setHost_flash (m : Mach) (f : HostIf → HostIf) : (setHost m f).flash = m.flash := rfl
@[simp] theorem setHost_glume (m : Mach) (f : HostIf → HostIf) : (setHost m f).glume = m.glume := rfl
@[simp] theorem setHost_power (m : Mach) (f : HostIf → HostIf) : (setHost m f).power = m.power := rfl
@[simp] theorem setHost_host (m : Mach) (f : HostIf → HostIf) : (setHost m f).host = f m.host := rfl
@[simp] theorem setHost_draws (m : Mach) (f : HostIf → HostIf) : (setHost m f).draws = m.draws := rfl
@[simp] theorem setHost_out (m : Mach) (f : HostIf → HostIf) : (setHost m f).out = m.out := rfl

@[simp] theorem setEnc_regs (m : Mach) (ch : Nat) (f : EncCh → EncCh) : (setEnc m ch f).regs = m.regs := rfl
@[simp] theorem setEnc_ctl (m : Mach) (ch : Nat) (f : EncCh → EncCh) : (setEnc m ch f).ctl = m.ctl := rfl
@[simp] theorem setEnc_fuses (m : Mach) (ch : Nat) (f : EncCh → EncCh) : (setEnc m ch f).fuses = m.fuses := rfl
@[simp] theorem setEnc_nor (m : Mach) (ch : Nat) (f : EncCh → EncCh) : (setEnc m ch f).nor = m.nor := rfl
@[simp] theorem setEnc_cfg (m : Mach) (ch : Nat) (f : EncCh → EncCh) : (setEnc m ch f).cfg = m.cfg := rfl
@[simp] theorem setEnc_time (m : Mach) (ch : Nat) (f : EncCh → EncCh) : (setEnc m ch f).time = m.time := rfl
@[simp] theorem setEnc_enc (m : Mach) (ch : Nat) (f : EncCh → EncCh) : (setEnc m ch f).enc = tmod {} m.enc ch f := rfl
@[simp] theorem setEnc_trig (m : Mach) (ch : Nat) (f : EncCh → EncCh) : (setEnc m ch f).trig = m.trig := rfl
@[simp] theorem setEnc_sheaf (m : Mach) (ch : Nat) (f : EncCh → EncCh) : (setEnc m ch f).sheaf = m.sheaf := rfl
@[simp] theorem setEnc_wins (m : Mach) (ch : Nat) (f : EncCh → EncCh) : (setEnc m ch f).wins = m.wins := rfl
@[simp] theorem setEnc_intake (m : Mach) (ch : Nat) (f : EncCh → EncCh) : (setEnc m ch f).intake = m.intake := rfl
@[simp] theorem setEnc_align (m : Mach) (ch : Nat) (f : EncCh → EncCh) : (setEnc m ch f).align = m.align := rfl
@[simp] theorem setEnc_isp (m : Mach) (ch : Nat) (f : EncCh → EncCh) : (setEnc m ch f).isp = m.isp := rfl
@[simp] theorem setEnc_chaff (m : Mach) (ch : Nat) (f : EncCh → EncCh) : (setEnc m ch f).chaff = m.chaff := rfl
@[simp] theorem setEnc_fab (m : Mach) (ch : Nat) (f : EncCh → EncCh) : (setEnc m ch f).fab = m.fab := rfl
@[simp] theorem setEnc_eject (m : Mach) (ch : Nat) (f : EncCh → EncCh) : (setEnc m ch f).eject = m.eject := rfl
@[simp] theorem setEnc_flash (m : Mach) (ch : Nat) (f : EncCh → EncCh) : (setEnc m ch f).flash = m.flash := rfl
@[simp] theorem setEnc_glume (m : Mach) (ch : Nat) (f : EncCh → EncCh) : (setEnc m ch f).glume = m.glume := rfl
@[simp] theorem setEnc_power (m : Mach) (ch : Nat) (f : EncCh → EncCh) : (setEnc m ch f).power = m.power := rfl
@[simp] theorem setEnc_host (m : Mach) (ch : Nat) (f : EncCh → EncCh) : (setEnc m ch f).host = m.host := rfl
@[simp] theorem setEnc_draws (m : Mach) (ch : Nat) (f : EncCh → EncCh) : (setEnc m ch f).draws = m.draws := rfl
@[simp] theorem setEnc_out (m : Mach) (ch : Nat) (f : EncCh → EncCh) : (setEnc m ch f).out = m.out := rfl

@[simp] theorem setPort_regs (m : Mach) (p : Nat) (f : SheafPort → SheafPort) : (setPort m p f).regs = m.regs := rfl
@[simp] theorem setPort_ctl (m : Mach) (p : Nat) (f : SheafPort → SheafPort) : (setPort m p f).ctl = m.ctl := rfl
@[simp] theorem setPort_fuses (m : Mach) (p : Nat) (f : SheafPort → SheafPort) : (setPort m p f).fuses = m.fuses := rfl
@[simp] theorem setPort_nor (m : Mach) (p : Nat) (f : SheafPort → SheafPort) : (setPort m p f).nor = m.nor := rfl
@[simp] theorem setPort_cfg (m : Mach) (p : Nat) (f : SheafPort → SheafPort) : (setPort m p f).cfg = m.cfg := rfl
@[simp] theorem setPort_time (m : Mach) (p : Nat) (f : SheafPort → SheafPort) : (setPort m p f).time = m.time := rfl
@[simp] theorem setPort_enc (m : Mach) (p : Nat) (f : SheafPort → SheafPort) : (setPort m p f).enc = m.enc := rfl
@[simp] theorem setPort_trig (m : Mach) (p : Nat) (f : SheafPort → SheafPort) : (setPort m p f).trig = m.trig := rfl
@[simp] theorem setPort_sheaf (m : Mach) (p : Nat) (f : SheafPort → SheafPort) : (setPort m p f).sheaf = tmod {} m.sheaf p f := rfl
@[simp] theorem setPort_wins (m : Mach) (p : Nat) (f : SheafPort → SheafPort) : (setPort m p f).wins = m.wins := rfl
@[simp] theorem setPort_intake (m : Mach) (p : Nat) (f : SheafPort → SheafPort) : (setPort m p f).intake = m.intake := rfl
@[simp] theorem setPort_align (m : Mach) (p : Nat) (f : SheafPort → SheafPort) : (setPort m p f).align = m.align := rfl
@[simp] theorem setPort_isp (m : Mach) (p : Nat) (f : SheafPort → SheafPort) : (setPort m p f).isp = m.isp := rfl
@[simp] theorem setPort_chaff (m : Mach) (p : Nat) (f : SheafPort → SheafPort) : (setPort m p f).chaff = m.chaff := rfl
@[simp] theorem setPort_fab (m : Mach) (p : Nat) (f : SheafPort → SheafPort) : (setPort m p f).fab = m.fab := rfl
@[simp] theorem setPort_eject (m : Mach) (p : Nat) (f : SheafPort → SheafPort) : (setPort m p f).eject = m.eject := rfl
@[simp] theorem setPort_flash (m : Mach) (p : Nat) (f : SheafPort → SheafPort) : (setPort m p f).flash = m.flash := rfl
@[simp] theorem setPort_glume (m : Mach) (p : Nat) (f : SheafPort → SheafPort) : (setPort m p f).glume = m.glume := rfl
@[simp] theorem setPort_power (m : Mach) (p : Nat) (f : SheafPort → SheafPort) : (setPort m p f).power = m.power := rfl
@[simp] theorem setPort_host (m : Mach) (p : Nat) (f : SheafPort → SheafPort) : (setPort m p f).host = m.host := rfl
@[simp] theorem setPort_draws (m : Mach) (p : Nat) (f : SheafPort → SheafPort) : (setPort m p f).draws = m.draws := rfl
@[simp] theorem setPort_out (m : Mach) (p : Nat) (f : SheafPort → SheafPort) : (setPort m p f).out = m.out := rfl

@[simp] theorem setWin_regs (m : Mach) (w : Nat) (f : Window → Window) : (setWin m w f).regs = m.regs := rfl
@[simp] theorem setWin_ctl (m : Mach) (w : Nat) (f : Window → Window) : (setWin m w f).ctl = m.ctl := rfl
@[simp] theorem setWin_fuses (m : Mach) (w : Nat) (f : Window → Window) : (setWin m w f).fuses = m.fuses := rfl
@[simp] theorem setWin_nor (m : Mach) (w : Nat) (f : Window → Window) : (setWin m w f).nor = m.nor := rfl
@[simp] theorem setWin_cfg (m : Mach) (w : Nat) (f : Window → Window) : (setWin m w f).cfg = m.cfg := rfl
@[simp] theorem setWin_time (m : Mach) (w : Nat) (f : Window → Window) : (setWin m w f).time = m.time := rfl
@[simp] theorem setWin_enc (m : Mach) (w : Nat) (f : Window → Window) : (setWin m w f).enc = m.enc := rfl
@[simp] theorem setWin_trig (m : Mach) (w : Nat) (f : Window → Window) : (setWin m w f).trig = m.trig := rfl
@[simp] theorem setWin_sheaf (m : Mach) (w : Nat) (f : Window → Window) : (setWin m w f).sheaf = m.sheaf := rfl
@[simp] theorem setWin_wins (m : Mach) (w : Nat) (f : Window → Window) : (setWin m w f).wins = tmod {} m.wins w f := rfl
@[simp] theorem setWin_intake (m : Mach) (w : Nat) (f : Window → Window) : (setWin m w f).intake = m.intake := rfl
@[simp] theorem setWin_align (m : Mach) (w : Nat) (f : Window → Window) : (setWin m w f).align = m.align := rfl
@[simp] theorem setWin_isp (m : Mach) (w : Nat) (f : Window → Window) : (setWin m w f).isp = m.isp := rfl
@[simp] theorem setWin_chaff (m : Mach) (w : Nat) (f : Window → Window) : (setWin m w f).chaff = m.chaff := rfl
@[simp] theorem setWin_fab (m : Mach) (w : Nat) (f : Window → Window) : (setWin m w f).fab = m.fab := rfl
@[simp] theorem setWin_eject (m : Mach) (w : Nat) (f : Window → Window) : (setWin m w f).eject = m.eject := rfl
@[simp] theorem setWin_flash (m : Mach) (w : Nat) (f : Window → Window) : (setWin m w f).flash = m.flash := rfl
@[simp] theorem setWin_glume (m : Mach) (w : Nat) (f : Window → Window) : (setWin m w f).glume = m.glume := rfl
@[simp] theorem setWin_power (m : Mach) (w : Nat) (f : Window → Window) : (setWin m w f).power = m.power := rfl
@[simp] theorem setWin_host (m : Mach) (w : Nat) (f : Window → Window) : (setWin m w f).host = m.host := rfl
@[simp] theorem setWin_draws (m : Mach) (w : Nat) (f : Window → Window) : (setWin m w f).draws = m.draws := rfl
@[simp] theorem setWin_out (m : Mach) (w : Nat) (f : Window → Window) : (setWin m w f).out = m.out := rfl

@[simp] theorem setIp_regs (m : Mach) (p : Nat) (f : IntakePort → IntakePort) : (setIp m p f).regs = m.regs := rfl
@[simp] theorem setIp_ctl (m : Mach) (p : Nat) (f : IntakePort → IntakePort) : (setIp m p f).ctl = m.ctl := rfl
@[simp] theorem setIp_fuses (m : Mach) (p : Nat) (f : IntakePort → IntakePort) : (setIp m p f).fuses = m.fuses := rfl
@[simp] theorem setIp_nor (m : Mach) (p : Nat) (f : IntakePort → IntakePort) : (setIp m p f).nor = m.nor := rfl
@[simp] theorem setIp_cfg (m : Mach) (p : Nat) (f : IntakePort → IntakePort) : (setIp m p f).cfg = m.cfg := rfl
@[simp] theorem setIp_time (m : Mach) (p : Nat) (f : IntakePort → IntakePort) : (setIp m p f).time = m.time := rfl
@[simp] theorem setIp_enc (m : Mach) (p : Nat) (f : IntakePort → IntakePort) : (setIp m p f).enc = m.enc := rfl
@[simp] theorem setIp_trig (m : Mach) (p : Nat) (f : IntakePort → IntakePort) : (setIp m p f).trig = m.trig := rfl
@[simp] theorem setIp_sheaf (m : Mach) (p : Nat) (f : IntakePort → IntakePort) : (setIp m p f).sheaf = m.sheaf := rfl
@[simp] theorem setIp_wins (m : Mach) (p : Nat) (f : IntakePort → IntakePort) : (setIp m p f).wins = m.wins := rfl
@[simp] theorem setIp_intake (m : Mach) (p : Nat) (f : IntakePort → IntakePort) : (setIp m p f).intake = tmod {} m.intake p f := rfl
@[simp] theorem setIp_align (m : Mach) (p : Nat) (f : IntakePort → IntakePort) : (setIp m p f).align = m.align := rfl
@[simp] theorem setIp_isp (m : Mach) (p : Nat) (f : IntakePort → IntakePort) : (setIp m p f).isp = m.isp := rfl
@[simp] theorem setIp_chaff (m : Mach) (p : Nat) (f : IntakePort → IntakePort) : (setIp m p f).chaff = m.chaff := rfl
@[simp] theorem setIp_fab (m : Mach) (p : Nat) (f : IntakePort → IntakePort) : (setIp m p f).fab = m.fab := rfl
@[simp] theorem setIp_eject (m : Mach) (p : Nat) (f : IntakePort → IntakePort) : (setIp m p f).eject = m.eject := rfl
@[simp] theorem setIp_flash (m : Mach) (p : Nat) (f : IntakePort → IntakePort) : (setIp m p f).flash = m.flash := rfl
@[simp] theorem setIp_glume (m : Mach) (p : Nat) (f : IntakePort → IntakePort) : (setIp m p f).glume = m.glume := rfl
@[simp] theorem setIp_power (m : Mach) (p : Nat) (f : IntakePort → IntakePort) : (setIp m p f).power = m.power := rfl
@[simp] theorem setIp_host (m : Mach) (p : Nat) (f : IntakePort → IntakePort) : (setIp m p f).host = m.host := rfl
@[simp] theorem setIp_draws (m : Mach) (p : Nat) (f : IntakePort → IntakePort) : (setIp m p f).draws = m.draws := rfl
@[simp] theorem setIp_out (m : Mach) (p : Nat) (f : IntakePort → IntakePort) : (setIp m p f).out = m.out := rfl

@[simp] theorem setTil_regs (m : Mach) (t : Nat) (f : Tiller → Tiller) : (setTil m t f).regs = m.regs := rfl
@[simp] theorem setTil_ctl (m : Mach) (t : Nat) (f : Tiller → Tiller) : (setTil m t f).ctl = m.ctl := rfl
@[simp] theorem setTil_fuses (m : Mach) (t : Nat) (f : Tiller → Tiller) : (setTil m t f).fuses = m.fuses := rfl
@[simp] theorem setTil_nor (m : Mach) (t : Nat) (f : Tiller → Tiller) : (setTil m t f).nor = m.nor := rfl
@[simp] theorem setTil_cfg (m : Mach) (t : Nat) (f : Tiller → Tiller) : (setTil m t f).cfg = m.cfg := rfl
@[simp] theorem setTil_time (m : Mach) (t : Nat) (f : Tiller → Tiller) : (setTil m t f).time = m.time := rfl
@[simp] theorem setTil_enc (m : Mach) (t : Nat) (f : Tiller → Tiller) : (setTil m t f).enc = m.enc := rfl
@[simp] theorem setTil_trig (m : Mach) (t : Nat) (f : Tiller → Tiller) : (setTil m t f).trig = m.trig := rfl
@[simp] theorem setTil_sheaf (m : Mach) (t : Nat) (f : Tiller → Tiller) : (setTil m t f).sheaf = m.sheaf := rfl
@[simp] theorem setTil_wins (m : Mach) (t : Nat) (f : Tiller → Tiller) : (setTil m t f).wins = m.wins := rfl
@[simp] theorem setTil_intake (m : Mach) (t : Nat) (f : Tiller → Tiller) : (setTil m t f).intake = m.intake := rfl
@[simp] theorem setTil_align (m : Mach) (t : Nat) (f : Tiller → Tiller) : (setTil m t f).align = m.align := rfl
@[simp] theorem setTil_isp (m : Mach) (t : Nat) (f : Tiller → Tiller) : (setTil m t f).isp = m.isp := rfl
@[simp] theorem setTil_chaff (m : Mach) (t : Nat) (f : Tiller → Tiller) : (setTil m t f).chaff = m.chaff := rfl
@[simp] theorem setTil_eject (m : Mach) (t : Nat) (f : Tiller → Tiller) : (setTil m t f).eject = m.eject := rfl
@[simp] theorem setTil_flash (m : Mach) (t : Nat) (f : Tiller → Tiller) : (setTil m t f).flash = m.flash := rfl
@[simp] theorem setTil_glume (m : Mach) (t : Nat) (f : Tiller → Tiller) : (setTil m t f).glume = m.glume := rfl
@[simp] theorem setTil_power (m : Mach) (t : Nat) (f : Tiller → Tiller) : (setTil m t f).power = m.power := rfl
@[simp] theorem setTil_host (m : Mach) (t : Nat) (f : Tiller → Tiller) : (setTil m t f).host = m.host := rfl
@[simp] theorem setTil_draws (m : Mach) (t : Nat) (f : Tiller → Tiller) : (setTil m t f).draws = m.draws := rfl
@[simp] theorem setTil_out (m : Mach) (t : Nat) (f : Tiller → Tiller) : (setTil m t f).out = m.out := rfl

@[simp] theorem setQue_regs (m : Mach) (q : Nat) (f : Queue → Queue) : (setQue m q f).regs = m.regs := rfl
@[simp] theorem setQue_ctl (m : Mach) (q : Nat) (f : Queue → Queue) : (setQue m q f).ctl = m.ctl := rfl
@[simp] theorem setQue_fuses (m : Mach) (q : Nat) (f : Queue → Queue) : (setQue m q f).fuses = m.fuses := rfl
@[simp] theorem setQue_nor (m : Mach) (q : Nat) (f : Queue → Queue) : (setQue m q f).nor = m.nor := rfl
@[simp] theorem setQue_cfg (m : Mach) (q : Nat) (f : Queue → Queue) : (setQue m q f).cfg = m.cfg := rfl
@[simp] theorem setQue_time (m : Mach) (q : Nat) (f : Queue → Queue) : (setQue m q f).time = m.time := rfl
@[simp] theorem setQue_enc (m : Mach) (q : Nat) (f : Queue → Queue) : (setQue m q f).enc = m.enc := rfl
@[simp] theorem setQue_trig (m : Mach) (q : Nat) (f : Queue → Queue) : (setQue m q f).trig = m.trig := rfl
@[simp] theorem setQue_sheaf (m : Mach) (q : Nat) (f : Queue → Queue) : (setQue m q f).sheaf = m.sheaf := rfl
@[simp] theorem setQue_wins (m : Mach) (q : Nat) (f : Queue → Queue) : (setQue m q f).wins = m.wins := rfl
@[simp] theorem setQue_intake (m : Mach) (q : Nat) (f : Queue → Queue) : (setQue m q f).intake = m.intake := rfl
@[simp] theorem setQue_align (m : Mach) (q : Nat) (f : Queue → Queue) : (setQue m q f).align = m.align := rfl
@[simp] theorem setQue_isp (m : Mach) (q : Nat) (f : Queue → Queue) : (setQue m q f).isp = m.isp := rfl
@[simp] theorem setQue_chaff (m : Mach) (q : Nat) (f : Queue → Queue) : (setQue m q f).chaff = m.chaff := rfl
@[simp] theorem setQue_eject (m : Mach) (q : Nat) (f : Queue → Queue) : (setQue m q f).eject = m.eject := rfl
@[simp] theorem setQue_flash (m : Mach) (q : Nat) (f : Queue → Queue) : (setQue m q f).flash = m.flash := rfl
@[simp] theorem setQue_glume (m : Mach) (q : Nat) (f : Queue → Queue) : (setQue m q f).glume = m.glume := rfl
@[simp] theorem setQue_power (m : Mach) (q : Nat) (f : Queue → Queue) : (setQue m q f).power = m.power := rfl
@[simp] theorem setQue_host (m : Mach) (q : Nat) (f : Queue → Queue) : (setQue m q f).host = m.host := rfl
@[simp] theorem setQue_draws (m : Mach) (q : Nat) (f : Queue → Queue) : (setQue m q f).draws = m.draws := rfl
@[simp] theorem setQue_out (m : Mach) (q : Nat) (f : Queue → Queue) : (setQue m q f).out = m.out := rfl

@[simp] theorem setRing_regs (m : Mach) (r : Nat) (f : Ring → Ring) : (setRing m r f).regs = m.regs := rfl
@[simp] theorem setRing_ctl (m : Mach) (r : Nat) (f : Ring → Ring) : (setRing m r f).ctl = m.ctl := rfl
@[simp] theorem setRing_fuses (m : Mach) (r : Nat) (f : Ring → Ring) : (setRing m r f).fuses = m.fuses := rfl
@[simp] theorem setRing_nor (m : Mach) (r : Nat) (f : Ring → Ring) : (setRing m r f).nor = m.nor := rfl
@[simp] theorem setRing_cfg (m : Mach) (r : Nat) (f : Ring → Ring) : (setRing m r f).cfg = m.cfg := rfl
@[simp] theorem setRing_time (m : Mach) (r : Nat) (f : Ring → Ring) : (setRing m r f).time = m.time := rfl
@[simp] theorem setRing_enc (m : Mach) (r : Nat) (f : Ring → Ring) : (setRing m r f).enc = m.enc := rfl
@[simp] theorem setRing_trig (m : Mach) (r : Nat) (f : Ring → Ring) : (setRing m r f).trig = m.trig := rfl
@[simp] theorem setRing_sheaf (m : Mach) (r : Nat) (f : Ring → Ring) : (setRing m r f).sheaf = m.sheaf := rfl
@[simp] theorem setRing_wins (m : Mach) (r : Nat) (f : Ring → Ring) : (setRing m r f).wins = m.wins := rfl
@[simp] theorem setRing_intake (m : Mach) (r : Nat) (f : Ring → Ring) : (setRing m r f).intake = m.intake := rfl
@[simp] theorem setRing_align (m : Mach) (r : Nat) (f : Ring → Ring) : (setRing m r f).align = m.align := rfl
@[simp] theorem setRing_isp (m : Mach) (r : Nat) (f : Ring → Ring) : (setRing m r f).isp = m.isp := rfl
@[simp] theorem setRing_chaff (m : Mach) (r : Nat) (f : Ring → Ring) : (setRing m r f).chaff = m.chaff := rfl
@[simp] theorem setRing_eject (m : Mach) (r : Nat) (f : Ring → Ring) : (setRing m r f).eject = m.eject := rfl
@[simp] theorem setRing_flash (m : Mach) (r : Nat) (f : Ring → Ring) : (setRing m r f).flash = m.flash := rfl
@[simp] theorem setRing_glume (m : Mach) (r : Nat) (f : Ring → Ring) : (setRing m r f).glume = m.glume := rfl
@[simp] theorem setRing_power (m : Mach) (r : Nat) (f : Ring → Ring) : (setRing m r f).power = m.power := rfl
@[simp] theorem setRing_host (m : Mach) (r : Nat) (f : Ring → Ring) : (setRing m r f).host = m.host := rfl
@[simp] theorem setRing_draws (m : Mach) (r : Nat) (f : Ring → Ring) : (setRing m r f).draws = m.draws := rfl
@[simp] theorem setRing_out (m : Mach) (r : Nat) (f : Ring → Ring) : (setRing m r f).out = m.out := rfl

@[simp] theorem setCtx_regs (m : Mach) (c : Nat) (f : Ctx → Ctx) : (setCtx m c f).regs = m.regs := rfl
@[simp] theorem setCtx_ctl (m : Mach) (c : Nat) (f : Ctx → Ctx) : (setCtx m c f).ctl = m.ctl := rfl
@[simp] theorem setCtx_fuses (m : Mach) (c : Nat) (f : Ctx → Ctx) : (setCtx m c f).fuses = m.fuses := rfl
@[simp] theorem setCtx_nor (m : Mach) (c : Nat) (f : Ctx → Ctx) : (setCtx m c f).nor = m.nor := rfl
@[simp] theorem setCtx_cfg (m : Mach) (c : Nat) (f : Ctx → Ctx) : (setCtx m c f).cfg = m.cfg := rfl
@[simp] theorem setCtx_time (m : Mach) (c : Nat) (f : Ctx → Ctx) : (setCtx m c f).time = m.time := rfl
@[simp] theorem setCtx_enc (m : Mach) (c : Nat) (f : Ctx → Ctx) : (setCtx m c f).enc = m.enc := rfl
@[simp] theorem setCtx_trig (m : Mach) (c : Nat) (f : Ctx → Ctx) : (setCtx m c f).trig = m.trig := rfl
@[simp] theorem setCtx_sheaf (m : Mach) (c : Nat) (f : Ctx → Ctx) : (setCtx m c f).sheaf = m.sheaf := rfl
@[simp] theorem setCtx_wins (m : Mach) (c : Nat) (f : Ctx → Ctx) : (setCtx m c f).wins = m.wins := rfl
@[simp] theorem setCtx_intake (m : Mach) (c : Nat) (f : Ctx → Ctx) : (setCtx m c f).intake = m.intake := rfl
@[simp] theorem setCtx_align (m : Mach) (c : Nat) (f : Ctx → Ctx) : (setCtx m c f).align = m.align := rfl
@[simp] theorem setCtx_isp (m : Mach) (c : Nat) (f : Ctx → Ctx) : (setCtx m c f).isp = m.isp := rfl
@[simp] theorem setCtx_chaff (m : Mach) (c : Nat) (f : Ctx → Ctx) : (setCtx m c f).chaff = m.chaff := rfl
@[simp] theorem setCtx_eject (m : Mach) (c : Nat) (f : Ctx → Ctx) : (setCtx m c f).eject = m.eject := rfl
@[simp] theorem setCtx_flash (m : Mach) (c : Nat) (f : Ctx → Ctx) : (setCtx m c f).flash = m.flash := rfl
@[simp] theorem setCtx_glume (m : Mach) (c : Nat) (f : Ctx → Ctx) : (setCtx m c f).glume = m.glume := rfl
@[simp] theorem setCtx_power (m : Mach) (c : Nat) (f : Ctx → Ctx) : (setCtx m c f).power = m.power := rfl
@[simp] theorem setCtx_host (m : Mach) (c : Nat) (f : Ctx → Ctx) : (setCtx m c f).host = m.host := rfl
@[simp] theorem setCtx_draws (m : Mach) (c : Nat) (f : Ctx → Ctx) : (setCtx m c f).draws = m.draws := rfl
@[simp] theorem setCtx_out (m : Mach) (c : Nat) (f : Ctx → Ctx) : (setCtx m c f).out = m.out := rfl

@[simp] theorem setAwn_regs (m : Mach) (p : Nat) (f : AwnPort → AwnPort) : (setAwn m p f).regs = m.regs := rfl
@[simp] theorem setAwn_ctl (m : Mach) (p : Nat) (f : AwnPort → AwnPort) : (setAwn m p f).ctl = m.ctl := rfl
@[simp] theorem setAwn_fuses (m : Mach) (p : Nat) (f : AwnPort → AwnPort) : (setAwn m p f).fuses = m.fuses := rfl
@[simp] theorem setAwn_nor (m : Mach) (p : Nat) (f : AwnPort → AwnPort) : (setAwn m p f).nor = m.nor := rfl
@[simp] theorem setAwn_cfg (m : Mach) (p : Nat) (f : AwnPort → AwnPort) : (setAwn m p f).cfg = m.cfg := rfl
@[simp] theorem setAwn_time (m : Mach) (p : Nat) (f : AwnPort → AwnPort) : (setAwn m p f).time = m.time := rfl
@[simp] theorem setAwn_enc (m : Mach) (p : Nat) (f : AwnPort → AwnPort) : (setAwn m p f).enc = m.enc := rfl
@[simp] theorem setAwn_trig (m : Mach) (p : Nat) (f : AwnPort → AwnPort) : (setAwn m p f).trig = m.trig := rfl
@[simp] theorem setAwn_sheaf (m : Mach) (p : Nat) (f : AwnPort → AwnPort) : (setAwn m p f).sheaf = m.sheaf := rfl
@[simp] theorem setAwn_wins (m : Mach) (p : Nat) (f : AwnPort → AwnPort) : (setAwn m p f).wins = m.wins := rfl
@[simp] theorem setAwn_intake (m : Mach) (p : Nat) (f : AwnPort → AwnPort) : (setAwn m p f).intake = m.intake := rfl
@[simp] theorem setAwn_align (m : Mach) (p : Nat) (f : AwnPort → AwnPort) : (setAwn m p f).align = m.align := rfl
@[simp] theorem setAwn_isp (m : Mach) (p : Nat) (f : AwnPort → AwnPort) : (setAwn m p f).isp = m.isp := rfl
@[simp] theorem setAwn_chaff (m : Mach) (p : Nat) (f : AwnPort → AwnPort) : (setAwn m p f).chaff = m.chaff := rfl
@[simp] theorem setAwn_fab (m : Mach) (p : Nat) (f : AwnPort → AwnPort) : (setAwn m p f).fab = m.fab := rfl
@[simp] theorem setAwn_flash (m : Mach) (p : Nat) (f : AwnPort → AwnPort) : (setAwn m p f).flash = m.flash := rfl
@[simp] theorem setAwn_glume (m : Mach) (p : Nat) (f : AwnPort → AwnPort) : (setAwn m p f).glume = m.glume := rfl
@[simp] theorem setAwn_power (m : Mach) (p : Nat) (f : AwnPort → AwnPort) : (setAwn m p f).power = m.power := rfl
@[simp] theorem setAwn_host (m : Mach) (p : Nat) (f : AwnPort → AwnPort) : (setAwn m p f).host = m.host := rfl
@[simp] theorem setAwn_draws (m : Mach) (p : Nat) (f : AwnPort → AwnPort) : (setAwn m p f).draws = m.draws := rfl
@[simp] theorem setAwn_out (m : Mach) (p : Nat) (f : AwnPort → AwnPort) : (setAwn m p f).out = m.out := rfl

@[simp] theorem setBin_regs (m : Mach) (t c h : Nat) (f : Bin → Bin) : (setBin m t c h f).regs = m.regs := rfl
@[simp] theorem setBin_ctl (m : Mach) (t c h : Nat) (f : Bin → Bin) : (setBin m t c h f).ctl = m.ctl := rfl
@[simp] theorem setBin_fuses (m : Mach) (t c h : Nat) (f : Bin → Bin) : (setBin m t c h f).fuses = m.fuses := rfl
@[simp] theorem setBin_nor (m : Mach) (t c h : Nat) (f : Bin → Bin) : (setBin m t c h f).nor = m.nor := rfl
@[simp] theorem setBin_cfg (m : Mach) (t c h : Nat) (f : Bin → Bin) : (setBin m t c h f).cfg = m.cfg := rfl
@[simp] theorem setBin_time (m : Mach) (t c h : Nat) (f : Bin → Bin) : (setBin m t c h f).time = m.time := rfl
@[simp] theorem setBin_enc (m : Mach) (t c h : Nat) (f : Bin → Bin) : (setBin m t c h f).enc = m.enc := rfl
@[simp] theorem setBin_trig (m : Mach) (t c h : Nat) (f : Bin → Bin) : (setBin m t c h f).trig = m.trig := rfl
@[simp] theorem setBin_sheaf (m : Mach) (t c h : Nat) (f : Bin → Bin) : (setBin m t c h f).sheaf = m.sheaf := rfl
@[simp] theorem setBin_wins (m : Mach) (t c h : Nat) (f : Bin → Bin) : (setBin m t c h f).wins = m.wins := rfl
@[simp] theorem setBin_intake (m : Mach) (t c h : Nat) (f : Bin → Bin) : (setBin m t c h f).intake = m.intake := rfl
@[simp] theorem setBin_align (m : Mach) (t c h : Nat) (f : Bin → Bin) : (setBin m t c h f).align = m.align := rfl
@[simp] theorem setBin_isp (m : Mach) (t c h : Nat) (f : Bin → Bin) : (setBin m t c h f).isp = m.isp := rfl
@[simp] theorem setBin_chaff (m : Mach) (t c h : Nat) (f : Bin → Bin) : (setBin m t c h f).chaff = m.chaff := rfl
@[simp] theorem setBin_eject (m : Mach) (t c h : Nat) (f : Bin → Bin) : (setBin m t c h f).eject = m.eject := rfl
@[simp] theorem setBin_flash (m : Mach) (t c h : Nat) (f : Bin → Bin) : (setBin m t c h f).flash = m.flash := rfl
@[simp] theorem setBin_glume (m : Mach) (t c h : Nat) (f : Bin → Bin) : (setBin m t c h f).glume = m.glume := rfl
@[simp] theorem setBin_power (m : Mach) (t c h : Nat) (f : Bin → Bin) : (setBin m t c h f).power = m.power := rfl
@[simp] theorem setBin_host (m : Mach) (t c h : Nat) (f : Bin → Bin) : (setBin m t c h f).host = m.host := rfl
@[simp] theorem setBin_draws (m : Mach) (t c h : Nat) (f : Bin → Bin) : (setBin m t c h f).draws = m.draws := rfl
@[simp] theorem setBin_out (m : Mach) (t c h : Nat) (f : Bin → Bin) : (setBin m t c h f).out = m.out := rfl

@[simp] theorem wr_ctl (m : Mach) (f : Fld) (i v : Nat) : (wr m f i v).ctl = m.ctl := rfl
@[simp] theorem wr_fuses (m : Mach) (f : Fld) (i v : Nat) : (wr m f i v).fuses = m.fuses := rfl
@[simp] theorem wr_nor (m : Mach) (f : Fld) (i v : Nat) : (wr m f i v).nor = m.nor := rfl
@[simp] theorem wr_cfg (m : Mach) (f : Fld) (i v : Nat) : (wr m f i v).cfg = m.cfg := rfl
@[simp] theorem wr_time (m : Mach) (f : Fld) (i v : Nat) : (wr m f i v).time = m.time := rfl
@[simp] theorem wr_enc (m : Mach) (f : Fld) (i v : Nat) : (wr m f i v).enc = m.enc := rfl
@[simp] theorem wr_trig (m : Mach) (f : Fld) (i v : Nat) : (wr m f i v).trig = m.trig := rfl
@[simp] theorem wr_sheaf (m : Mach) (f : Fld) (i v : Nat) : (wr m f i v).sheaf = m.sheaf := rfl
@[simp] theorem wr_wins (m : Mach) (f : Fld) (i v : Nat) : (wr m f i v).wins = m.wins := rfl
@[simp] theorem wr_intake (m : Mach) (f : Fld) (i v : Nat) : (wr m f i v).intake = m.intake := rfl
@[simp] theorem wr_align (m : Mach) (f : Fld) (i v : Nat) : (wr m f i v).align = m.align := rfl
@[simp] theorem wr_isp (m : Mach) (f : Fld) (i v : Nat) : (wr m f i v).isp = m.isp := rfl
@[simp] theorem wr_chaff (m : Mach) (f : Fld) (i v : Nat) : (wr m f i v).chaff = m.chaff := rfl
@[simp] theorem wr_fab (m : Mach) (f : Fld) (i v : Nat) : (wr m f i v).fab = m.fab := rfl
@[simp] theorem wr_eject (m : Mach) (f : Fld) (i v : Nat) : (wr m f i v).eject = m.eject := rfl
@[simp] theorem wr_flash (m : Mach) (f : Fld) (i v : Nat) : (wr m f i v).flash = m.flash := rfl
@[simp] theorem wr_glume (m : Mach) (f : Fld) (i v : Nat) : (wr m f i v).glume = m.glume := rfl
@[simp] theorem wr_power (m : Mach) (f : Fld) (i v : Nat) : (wr m f i v).power = m.power := rfl
@[simp] theorem wr_host (m : Mach) (f : Fld) (i v : Nat) : (wr m f i v).host = m.host := rfl
@[simp] theorem wr_draws (m : Mach) (f : Fld) (i v : Nat) : (wr m f i v).draws = m.draws := rfl
@[simp] theorem wr_out (m : Mach) (f : Fld) (i v : Nat) : (wr m f i v).out = m.out := rfl
@[simp] theorem setWord_ctl (m : Mach) (rst : Word) (a : Nat) (w : Word) : (setWord m rst a w).ctl = m.ctl := rfl
@[simp] theorem setWord_fuses (m : Mach) (rst : Word) (a : Nat) (w : Word) : (setWord m rst a w).fuses = m.fuses := rfl
@[simp] theorem setWord_nor (m : Mach) (rst : Word) (a : Nat) (w : Word) : (setWord m rst a w).nor = m.nor := rfl
@[simp] theorem setWord_cfg (m : Mach) (rst : Word) (a : Nat) (w : Word) : (setWord m rst a w).cfg = m.cfg := rfl
@[simp] theorem setWord_time (m : Mach) (rst : Word) (a : Nat) (w : Word) : (setWord m rst a w).time = m.time := rfl
@[simp] theorem setWord_enc (m : Mach) (rst : Word) (a : Nat) (w : Word) : (setWord m rst a w).enc = m.enc := rfl
@[simp] theorem setWord_trig (m : Mach) (rst : Word) (a : Nat) (w : Word) : (setWord m rst a w).trig = m.trig := rfl
@[simp] theorem setWord_sheaf (m : Mach) (rst : Word) (a : Nat) (w : Word) : (setWord m rst a w).sheaf = m.sheaf := rfl
@[simp] theorem setWord_wins (m : Mach) (rst : Word) (a : Nat) (w : Word) : (setWord m rst a w).wins = m.wins := rfl
@[simp] theorem setWord_intake (m : Mach) (rst : Word) (a : Nat) (w : Word) : (setWord m rst a w).intake = m.intake := rfl
@[simp] theorem setWord_align (m : Mach) (rst : Word) (a : Nat) (w : Word) : (setWord m rst a w).align = m.align := rfl
@[simp] theorem setWord_isp (m : Mach) (rst : Word) (a : Nat) (w : Word) : (setWord m rst a w).isp = m.isp := rfl
@[simp] theorem setWord_chaff (m : Mach) (rst : Word) (a : Nat) (w : Word) : (setWord m rst a w).chaff = m.chaff := rfl
@[simp] theorem setWord_fab (m : Mach) (rst : Word) (a : Nat) (w : Word) : (setWord m rst a w).fab = m.fab := rfl
@[simp] theorem setWord_eject (m : Mach) (rst : Word) (a : Nat) (w : Word) : (setWord m rst a w).eject = m.eject := rfl
@[simp] theorem setWord_flash (m : Mach) (rst : Word) (a : Nat) (w : Word) : (setWord m rst a w).flash = m.flash := rfl
@[simp] theorem setWord_glume (m : Mach) (rst : Word) (a : Nat) (w : Word) : (setWord m rst a w).glume = m.glume := rfl
@[simp] theorem setWord_power (m : Mach) (rst : Word) (a : Nat) (w : Word) : (setWord m rst a w).power = m.power := rfl
@[simp] theorem setWord_host (m : Mach) (rst : Word) (a : Nat) (w : Word) : (setWord m rst a w).host = m.host := rfl
@[simp] theorem setWord_draws (m : Mach) (rst : Word) (a : Nat) (w : Word) : (setWord m rst a w).draws = m.draws := rfl
@[simp] theorem setWord_out (m : Mach) (rst : Word) (a : Nat) (w : Word) : (setWord m rst a w).out = m.out := rfl
@[simp] theorem emit_regs (m : Mach) (x : Output) : (emit m x).regs = m.regs := rfl
@[simp] theorem emit_ctl (m : Mach) (x : Output) : (emit m x).ctl = m.ctl := rfl
@[simp] theorem emit_fuses (m : Mach) (x : Output) : (emit m x).fuses = m.fuses := rfl
@[simp] theorem emit_nor (m : Mach) (x : Output) : (emit m x).nor = m.nor := rfl
@[simp] theorem emit_cfg (m : Mach) (x : Output) : (emit m x).cfg = m.cfg := rfl
@[simp] theorem emit_time (m : Mach) (x : Output) : (emit m x).time = m.time := rfl
@[simp] theorem emit_enc (m : Mach) (x : Output) : (emit m x).enc = m.enc := rfl
@[simp] theorem emit_trig (m : Mach) (x : Output) : (emit m x).trig = m.trig := rfl
@[simp] theorem emit_sheaf (m : Mach) (x : Output) : (emit m x).sheaf = m.sheaf := rfl
@[simp] theorem emit_wins (m : Mach) (x : Output) : (emit m x).wins = m.wins := rfl
@[simp] theorem emit_intake (m : Mach) (x : Output) : (emit m x).intake = m.intake := rfl
@[simp] theorem emit_align (m : Mach) (x : Output) : (emit m x).align = m.align := rfl
@[simp] theorem emit_isp (m : Mach) (x : Output) : (emit m x).isp = m.isp := rfl
@[simp] theorem emit_chaff (m : Mach) (x : Output) : (emit m x).chaff = m.chaff := rfl
@[simp] theorem emit_fab (m : Mach) (x : Output) : (emit m x).fab = m.fab := rfl
@[simp] theorem emit_eject (m : Mach) (x : Output) : (emit m x).eject = m.eject := rfl
@[simp] theorem emit_flash (m : Mach) (x : Output) : (emit m x).flash = m.flash := rfl
@[simp] theorem emit_glume (m : Mach) (x : Output) : (emit m x).glume = m.glume := rfl
@[simp] theorem emit_power (m : Mach) (x : Output) : (emit m x).power = m.power := rfl
@[simp] theorem emit_host (m : Mach) (x : Output) : (emit m x).host = m.host := rfl
@[simp] theorem emit_draws (m : Mach) (x : Output) : (emit m x).draws = m.draws := rfl
@[simp] theorem emit_out (m : Mach) (x : Output) : (emit m x).out = m.out ++ [x] := rfl

end Sys2Proof.Machine
end

