-- ==== Sys2Proof/Laws/Ops.lean ====
section
/-!
SUPPORT. Laws/Ops.lean: what the shared operations of Machine/Ops.lean leave alone, and what a command run by `State.run` answers.
-/

namespace Sys2Proof.Machine

@[simp] theorem inc_ctl (m : Mach) (f : Fld) (i : Nat) : (inc m f i).ctl = m.ctl := rfl
@[simp] theorem inc_fuses (m : Mach) (f : Fld) (i : Nat) : (inc m f i).fuses = m.fuses := rfl
@[simp] theorem inc_nor (m : Mach) (f : Fld) (i : Nat) : (inc m f i).nor = m.nor := rfl
@[simp] theorem inc_cfg (m : Mach) (f : Fld) (i : Nat) : (inc m f i).cfg = m.cfg := rfl
@[simp] theorem inc_time (m : Mach) (f : Fld) (i : Nat) : (inc m f i).time = m.time := rfl
@[simp] theorem inc_enc (m : Mach) (f : Fld) (i : Nat) : (inc m f i).enc = m.enc := rfl
@[simp] theorem inc_trig (m : Mach) (f : Fld) (i : Nat) : (inc m f i).trig = m.trig := rfl
@[simp] theorem inc_sheaf (m : Mach) (f : Fld) (i : Nat) : (inc m f i).sheaf = m.sheaf := rfl
@[simp] theorem inc_wins (m : Mach) (f : Fld) (i : Nat) : (inc m f i).wins = m.wins := rfl
@[simp] theorem inc_intake (m : Mach) (f : Fld) (i : Nat) : (inc m f i).intake = m.intake := rfl
@[simp] theorem inc_align (m : Mach) (f : Fld) (i : Nat) : (inc m f i).align = m.align := rfl
@[simp] theorem inc_isp (m : Mach) (f : Fld) (i : Nat) : (inc m f i).isp = m.isp := rfl
@[simp] theorem inc_chaff (m : Mach) (f : Fld) (i : Nat) : (inc m f i).chaff = m.chaff := rfl
@[simp] theorem inc_fab (m : Mach) (f : Fld) (i : Nat) : (inc m f i).fab = m.fab := rfl
@[simp] theorem inc_eject (m : Mach) (f : Fld) (i : Nat) : (inc m f i).eject = m.eject := rfl
@[simp] theorem inc_flash (m : Mach) (f : Fld) (i : Nat) : (inc m f i).flash = m.flash := rfl
@[simp] theorem inc_glume (m : Mach) (f : Fld) (i : Nat) : (inc m f i).glume = m.glume := rfl
@[simp] theorem inc_power (m : Mach) (f : Fld) (i : Nat) : (inc m f i).power = m.power := rfl
@[simp] theorem inc_host (m : Mach) (f : Fld) (i : Nat) : (inc m f i).host = m.host := rfl
@[simp] theorem inc_draws (m : Mach) (f : Fld) (i : Nat) : (inc m f i).draws = m.draws := rfl
@[simp] theorem inc_out (m : Mach) (f : Fld) (i : Nat) : (inc m f i).out = m.out := rfl
@[simp] theorem incBy_ctl (m : Mach) (f : Fld) (i n : Nat) : (incBy m f i n).ctl = m.ctl := rfl
@[simp] theorem incBy_fuses (m : Mach) (f : Fld) (i n : Nat) : (incBy m f i n).fuses = m.fuses := rfl
@[simp] theorem incBy_nor (m : Mach) (f : Fld) (i n : Nat) : (incBy m f i n).nor = m.nor := rfl
@[simp] theorem incBy_cfg (m : Mach) (f : Fld) (i n : Nat) : (incBy m f i n).cfg = m.cfg := rfl
@[simp] theorem incBy_time (m : Mach) (f : Fld) (i n : Nat) : (incBy m f i n).time = m.time := rfl
@[simp] theorem incBy_enc (m : Mach) (f : Fld) (i n : Nat) : (incBy m f i n).enc = m.enc := rfl
@[simp] theorem incBy_trig (m : Mach) (f : Fld) (i n : Nat) : (incBy m f i n).trig = m.trig := rfl
@[simp] theorem incBy_sheaf (m : Mach) (f : Fld) (i n : Nat) : (incBy m f i n).sheaf = m.sheaf := rfl
@[simp] theorem incBy_wins (m : Mach) (f : Fld) (i n : Nat) : (incBy m f i n).wins = m.wins := rfl
@[simp] theorem incBy_intake (m : Mach) (f : Fld) (i n : Nat) : (incBy m f i n).intake = m.intake := rfl
@[simp] theorem incBy_align (m : Mach) (f : Fld) (i n : Nat) : (incBy m f i n).align = m.align := rfl
@[simp] theorem incBy_isp (m : Mach) (f : Fld) (i n : Nat) : (incBy m f i n).isp = m.isp := rfl
@[simp] theorem incBy_chaff (m : Mach) (f : Fld) (i n : Nat) : (incBy m f i n).chaff = m.chaff := rfl
@[simp] theorem incBy_fab (m : Mach) (f : Fld) (i n : Nat) : (incBy m f i n).fab = m.fab := rfl
@[simp] theorem incBy_eject (m : Mach) (f : Fld) (i n : Nat) : (incBy m f i n).eject = m.eject := rfl
@[simp] theorem incBy_flash (m : Mach) (f : Fld) (i n : Nat) : (incBy m f i n).flash = m.flash := rfl
@[simp] theorem incBy_glume (m : Mach) (f : Fld) (i n : Nat) : (incBy m f i n).glume = m.glume := rfl
@[simp] theorem incBy_power (m : Mach) (f : Fld) (i n : Nat) : (incBy m f i n).power = m.power := rfl
@[simp] theorem incBy_host (m : Mach) (f : Fld) (i n : Nat) : (incBy m f i n).host = m.host := rfl
@[simp] theorem incBy_draws (m : Mach) (f : Fld) (i n : Nat) : (incBy m f i n).draws = m.draws := rfl
@[simp] theorem incBy_out (m : Mach) (f : Fld) (i n : Nat) : (incBy m f i n).out = m.out := rfl

@[simp] theorem sendVector_ctl (m : Mach) (v : Nat) : (sendVector m v).ctl = m.ctl := by
  unfold sendVector; split <;> rfl
@[simp] theorem sendVector_fuses (m : Mach) (v : Nat) : (sendVector m v).fuses = m.fuses := by
  unfold sendVector; split <;> rfl
@[simp] theorem sendVector_nor (m : Mach) (v : Nat) : (sendVector m v).nor = m.nor := by
  unfold sendVector; split <;> rfl
@[simp] theorem sendVector_cfg (m : Mach) (v : Nat) : (sendVector m v).cfg = m.cfg := by
  unfold sendVector; split <;> rfl
@[simp] theorem sendVector_time (m : Mach) (v : Nat) : (sendVector m v).time = m.time := by
  unfold sendVector; split <;> rfl
@[simp] theorem sendVector_enc (m : Mach) (v : Nat) : (sendVector m v).enc = m.enc := by
  unfold sendVector; split <;> rfl
@[simp] theorem sendVector_trig (m : Mach) (v : Nat) : (sendVector m v).trig = m.trig := by
  unfold sendVector; split <;> rfl
@[simp] theorem sendVector_sheaf (m : Mach) (v : Nat) : (sendVector m v).sheaf = m.sheaf := by
  unfold sendVector; split <;> rfl
@[simp] theorem sendVector_wins (m : Mach) (v : Nat) : (sendVector m v).wins = m.wins := by
  unfold sendVector; split <;> rfl
@[simp] theorem sendVector_intake (m : Mach) (v : Nat) : (sendVector m v).intake = m.intake := by
  unfold sendVector; split <;> rfl
@[simp] theorem sendVector_align (m : Mach) (v : Nat) : (sendVector m v).align = m.align := by
  unfold sendVector; split <;> rfl
@[simp] theorem sendVector_isp (m : Mach) (v : Nat) : (sendVector m v).isp = m.isp := by
  unfold sendVector; split <;> rfl
@[simp] theorem sendVector_chaff (m : Mach) (v : Nat) : (sendVector m v).chaff = m.chaff := by
  unfold sendVector; split <;> rfl
@[simp] theorem sendVector_fab (m : Mach) (v : Nat) : (sendVector m v).fab = m.fab := by
  unfold sendVector; split <;> rfl
@[simp] theorem sendVector_eject (m : Mach) (v : Nat) : (sendVector m v).eject = m.eject := by
  unfold sendVector; split <;> rfl
@[simp] theorem sendVector_flash (m : Mach) (v : Nat) : (sendVector m v).flash = m.flash := by
  unfold sendVector; split <;> rfl
@[simp] theorem sendVector_glume (m : Mach) (v : Nat) : (sendVector m v).glume = m.glume := by
  unfold sendVector; split <;> rfl
@[simp] theorem sendVector_power (m : Mach) (v : Nat) : (sendVector m v).power = m.power := by
  unfold sendVector; split <;> rfl
@[simp] theorem sendVector_host (m : Mach) (v : Nat) : (sendVector m v).host = m.host := by
  unfold sendVector; split <;> rfl
@[simp] theorem sendVector_draws (m : Mach) (v : Nat) : (sendVector m v).draws = m.draws := by
  unfold sendVector; split <;> rfl
@[simp] theorem logEvent_regs (m : Mach) (v b i c : Nat) : (logEvent m v b i c).regs = m.regs := by
  unfold logEvent; rfl
@[simp] theorem logEvent_ctl (m : Mach) (v b i c : Nat) : (logEvent m v b i c).ctl = m.ctl := by
  unfold logEvent; rfl
@[simp] theorem logEvent_fuses (m : Mach) (v b i c : Nat) : (logEvent m v b i c).fuses = m.fuses := by
  unfold logEvent; rfl
@[simp] theorem logEvent_nor (m : Mach) (v b i c : Nat) : (logEvent m v b i c).nor = m.nor := by
  unfold logEvent; rfl
@[simp] theorem logEvent_cfg (m : Mach) (v b i c : Nat) : (logEvent m v b i c).cfg = m.cfg := by
  unfold logEvent; rfl
@[simp] theorem logEvent_time (m : Mach) (v b i c : Nat) : (logEvent m v b i c).time = m.time := by
  unfold logEvent; rfl
@[simp] theorem logEvent_enc (m : Mach) (v b i c : Nat) : (logEvent m v b i c).enc = m.enc := by
  unfold logEvent; rfl
@[simp] theorem logEvent_trig (m : Mach) (v b i c : Nat) : (logEvent m v b i c).trig = m.trig := by
  unfold logEvent; rfl
@[simp] theorem logEvent_sheaf (m : Mach) (v b i c : Nat) : (logEvent m v b i c).sheaf = m.sheaf := by
  unfold logEvent; rfl
@[simp] theorem logEvent_wins (m : Mach) (v b i c : Nat) : (logEvent m v b i c).wins = m.wins := by
  unfold logEvent; rfl
@[simp] theorem logEvent_intake (m : Mach) (v b i c : Nat) : (logEvent m v b i c).intake = m.intake := by
  unfold logEvent; rfl
@[simp] theorem logEvent_align (m : Mach) (v b i c : Nat) : (logEvent m v b i c).align = m.align := by
  unfold logEvent; rfl
@[simp] theorem logEvent_isp (m : Mach) (v b i c : Nat) : (logEvent m v b i c).isp = m.isp := by
  unfold logEvent; rfl
@[simp] theorem logEvent_chaff (m : Mach) (v b i c : Nat) : (logEvent m v b i c).chaff = m.chaff := by
  unfold logEvent; rfl
@[simp] theorem logEvent_fab (m : Mach) (v b i c : Nat) : (logEvent m v b i c).fab = m.fab := by
  unfold logEvent; rfl
@[simp] theorem logEvent_eject (m : Mach) (v b i c : Nat) : (logEvent m v b i c).eject = m.eject := by
  unfold logEvent; rfl
@[simp] theorem logEvent_flash (m : Mach) (v b i c : Nat) : (logEvent m v b i c).flash = m.flash := by
  unfold logEvent; rfl
@[simp] theorem logEvent_glume (m : Mach) (v b i c : Nat) : (logEvent m v b i c).glume = m.glume := by
  unfold logEvent; rfl
@[simp] theorem logEvent_power (m : Mach) (v b i c : Nat) : (logEvent m v b i c).power = m.power := by
  unfold logEvent; rfl
@[simp] theorem logEvent_draws (m : Mach) (v b i c : Nat) : (logEvent m v b i c).draws = m.draws := by
  unfold logEvent; rfl
@[simp] theorem logEvent_out (m : Mach) (v b i c : Nat) : (logEvent m v b i c).out = m.out := by
  unfold logEvent; rfl
@[simp] theorem raiseAs_ctl (m : Mach) (f : Fld) (i n c : Nat) : (raiseAs m f i n c).ctl = m.ctl := by
  unfold raiseAs; split <;> simp
@[simp] theorem raise_ctl (m : Mach) (f : Fld) (i : Nat) : (raise m f i).ctl = m.ctl := raiseAs_ctl m f i i 0
@[simp] theorem raiseCtx_ctl (m : Mach) (f : Fld) (i c : Nat) : (raiseCtx m f i c).ctl = m.ctl := raiseAs_ctl m f i i c
@[simp] theorem raiseQuiet_ctl (m : Mach) (f : Fld) : (raiseQuiet m f).ctl = m.ctl := by
  unfold raiseQuiet; split <;> simp
@[simp] theorem raiseCount_ctl (m : Mach) (f k : Fld) (i : Nat) : (raiseCount m f k i).ctl = m.ctl := by
  unfold raiseCount; simp
@[simp] theorem raiseIf_ctl (c : Bool) (m : Mach) (f : Fld) (i : Nat) : (raiseIf c m f i).ctl = m.ctl := by
  unfold raiseIf; split <;> simp
@[simp] theorem raiseAs_fuses (m : Mach) (f : Fld) (i n c : Nat) : (raiseAs m f i n c).fuses = m.fuses := by
  unfold raiseAs; split <;> simp
@[simp] theorem raise_fuses (m : Mach) (f : Fld) (i : Nat) : (raise m f i).fuses = m.fuses := raiseAs_fuses m f i i 0
@[simp] theorem raiseCtx_fuses (m : Mach) (f : Fld) (i c : Nat) : (raiseCtx m f i c).fuses = m.fuses := raiseAs_fuses m f i i c
@[simp] theorem raiseQuiet_fuses (m : Mach) (f : Fld) : (raiseQuiet m f).fuses = m.fuses := by
  unfold raiseQuiet; split <;> simp
@[simp] theorem raiseCount_fuses (m : Mach) (f k : Fld) (i : Nat) : (raiseCount m f k i).fuses = m.fuses := by
  unfold raiseCount; simp
@[simp] theorem raiseIf_fuses (c : Bool) (m : Mach) (f : Fld) (i : Nat) : (raiseIf c m f i).fuses = m.fuses := by
  unfold raiseIf; split <;> simp
@[simp] theorem enter_fuses (m : Mach) (n : ModState) : (enter m n).fuses = m.fuses := by
  unfold enter; split <;> simp
@[simp] theorem raiseAs_nor (m : Mach) (f : Fld) (i n c : Nat) : (raiseAs m f i n c).nor = m.nor := by
  unfold raiseAs; split <;> simp
@[simp] theorem raise_nor (m : Mach) (f : Fld) (i : Nat) : (raise m f i).nor = m.nor := raiseAs_nor m f i i 0
@[simp] theorem raiseCtx_nor (m : Mach) (f : Fld) (i c : Nat) : (raiseCtx m f i c).nor = m.nor := raiseAs_nor m f i i c
@[simp] theorem raiseQuiet_nor (m : Mach) (f : Fld) : (raiseQuiet m f).nor = m.nor := by
  unfold raiseQuiet; split <;> simp
@[simp] theorem raiseCount_nor (m : Mach) (f k : Fld) (i : Nat) : (raiseCount m f k i).nor = m.nor := by
  unfold raiseCount; simp
@[simp] theorem raiseIf_nor (c : Bool) (m : Mach) (f : Fld) (i : Nat) : (raiseIf c m f i).nor = m.nor := by
  unfold raiseIf; split <;> simp
@[simp] theorem enter_nor (m : Mach) (n : ModState) : (enter m n).nor = m.nor := by
  unfold enter; split <;> simp
@[simp] theorem raiseAs_cfg (m : Mach) (f : Fld) (i n c : Nat) : (raiseAs m f i n c).cfg = m.cfg := by
  unfold raiseAs; split <;> simp
@[simp] theorem raise_cfg (m : Mach) (f : Fld) (i : Nat) : (raise m f i).cfg = m.cfg := raiseAs_cfg m f i i 0
@[simp] theorem raiseCtx_cfg (m : Mach) (f : Fld) (i c : Nat) : (raiseCtx m f i c).cfg = m.cfg := raiseAs_cfg m f i i c
@[simp] theorem raiseQuiet_cfg (m : Mach) (f : Fld) : (raiseQuiet m f).cfg = m.cfg := by
  unfold raiseQuiet; split <;> simp
@[simp] theorem raiseCount_cfg (m : Mach) (f k : Fld) (i : Nat) : (raiseCount m f k i).cfg = m.cfg := by
  unfold raiseCount; simp
@[simp] theorem raiseIf_cfg (c : Bool) (m : Mach) (f : Fld) (i : Nat) : (raiseIf c m f i).cfg = m.cfg := by
  unfold raiseIf; split <;> simp
@[simp] theorem enter_cfg (m : Mach) (n : ModState) : (enter m n).cfg = m.cfg := by
  unfold enter; split <;> simp
@[simp] theorem raiseAs_time (m : Mach) (f : Fld) (i n c : Nat) : (raiseAs m f i n c).time = m.time := by
  unfold raiseAs; split <;> simp
@[simp] theorem raise_time (m : Mach) (f : Fld) (i : Nat) : (raise m f i).time = m.time := raiseAs_time m f i i 0
@[simp] theorem raiseCtx_time (m : Mach) (f : Fld) (i c : Nat) : (raiseCtx m f i c).time = m.time := raiseAs_time m f i i c
@[simp] theorem raiseQuiet_time (m : Mach) (f : Fld) : (raiseQuiet m f).time = m.time := by
  unfold raiseQuiet; split <;> simp
@[simp] theorem raiseCount_time (m : Mach) (f k : Fld) (i : Nat) : (raiseCount m f k i).time = m.time := by
  unfold raiseCount; simp
@[simp] theorem raiseIf_time (c : Bool) (m : Mach) (f : Fld) (i : Nat) : (raiseIf c m f i).time = m.time := by
  unfold raiseIf; split <;> simp
@[simp] theorem enter_time (m : Mach) (n : ModState) : (enter m n).time = m.time := by
  unfold enter; split <;> simp
@[simp] theorem raiseAs_enc (m : Mach) (f : Fld) (i n c : Nat) : (raiseAs m f i n c).enc = m.enc := by
  unfold raiseAs; split <;> simp
@[simp] theorem raise_enc (m : Mach) (f : Fld) (i : Nat) : (raise m f i).enc = m.enc := raiseAs_enc m f i i 0
@[simp] theorem raiseCtx_enc (m : Mach) (f : Fld) (i c : Nat) : (raiseCtx m f i c).enc = m.enc := raiseAs_enc m f i i c
@[simp] theorem raiseQuiet_enc (m : Mach) (f : Fld) : (raiseQuiet m f).enc = m.enc := by
  unfold raiseQuiet; split <;> simp
@[simp] theorem raiseCount_enc (m : Mach) (f k : Fld) (i : Nat) : (raiseCount m f k i).enc = m.enc := by
  unfold raiseCount; simp
@[simp] theorem raiseIf_enc (c : Bool) (m : Mach) (f : Fld) (i : Nat) : (raiseIf c m f i).enc = m.enc := by
  unfold raiseIf; split <;> simp
@[simp] theorem enter_enc (m : Mach) (n : ModState) : (enter m n).enc = m.enc := by
  unfold enter; split <;> simp
@[simp] theorem raiseAs_trig (m : Mach) (f : Fld) (i n c : Nat) : (raiseAs m f i n c).trig = m.trig := by
  unfold raiseAs; split <;> simp
@[simp] theorem raise_trig (m : Mach) (f : Fld) (i : Nat) : (raise m f i).trig = m.trig := raiseAs_trig m f i i 0
@[simp] theorem raiseCtx_trig (m : Mach) (f : Fld) (i c : Nat) : (raiseCtx m f i c).trig = m.trig := raiseAs_trig m f i i c
@[simp] theorem raiseQuiet_trig (m : Mach) (f : Fld) : (raiseQuiet m f).trig = m.trig := by
  unfold raiseQuiet; split <;> simp
@[simp] theorem raiseCount_trig (m : Mach) (f k : Fld) (i : Nat) : (raiseCount m f k i).trig = m.trig := by
  unfold raiseCount; simp
@[simp] theorem raiseIf_trig (c : Bool) (m : Mach) (f : Fld) (i : Nat) : (raiseIf c m f i).trig = m.trig := by
  unfold raiseIf; split <;> simp
@[simp] theorem enter_trig (m : Mach) (n : ModState) : (enter m n).trig = m.trig := by
  unfold enter; split <;> simp
@[simp] theorem raiseAs_sheaf (m : Mach) (f : Fld) (i n c : Nat) : (raiseAs m f i n c).sheaf = m.sheaf := by
  unfold raiseAs; split <;> simp
@[simp] theorem raise_sheaf (m : Mach) (f : Fld) (i : Nat) : (raise m f i).sheaf = m.sheaf := raiseAs_sheaf m f i i 0
@[simp] theorem raiseCtx_sheaf (m : Mach) (f : Fld) (i c : Nat) : (raiseCtx m f i c).sheaf = m.sheaf := raiseAs_sheaf m f i i c
@[simp] theorem raiseQuiet_sheaf (m : Mach) (f : Fld) : (raiseQuiet m f).sheaf = m.sheaf := by
  unfold raiseQuiet; split <;> simp
@[simp] theorem raiseCount_sheaf (m : Mach) (f k : Fld) (i : Nat) : (raiseCount m f k i).sheaf = m.sheaf := by
  unfold raiseCount; simp
@[simp] theorem raiseIf_sheaf (c : Bool) (m : Mach) (f : Fld) (i : Nat) : (raiseIf c m f i).sheaf = m.sheaf := by
  unfold raiseIf; split <;> simp
@[simp] theorem enter_sheaf (m : Mach) (n : ModState) : (enter m n).sheaf = m.sheaf := by
  unfold enter; split <;> simp
@[simp] theorem raiseAs_wins (m : Mach) (f : Fld) (i n c : Nat) : (raiseAs m f i n c).wins = m.wins := by
  unfold raiseAs; split <;> simp
@[simp] theorem raise_wins (m : Mach) (f : Fld) (i : Nat) : (raise m f i).wins = m.wins := raiseAs_wins m f i i 0
@[simp] theorem raiseCtx_wins (m : Mach) (f : Fld) (i c : Nat) : (raiseCtx m f i c).wins = m.wins := raiseAs_wins m f i i c
@[simp] theorem raiseQuiet_wins (m : Mach) (f : Fld) : (raiseQuiet m f).wins = m.wins := by
  unfold raiseQuiet; split <;> simp
@[simp] theorem raiseCount_wins (m : Mach) (f k : Fld) (i : Nat) : (raiseCount m f k i).wins = m.wins := by
  unfold raiseCount; simp
@[simp] theorem raiseIf_wins (c : Bool) (m : Mach) (f : Fld) (i : Nat) : (raiseIf c m f i).wins = m.wins := by
  unfold raiseIf; split <;> simp
@[simp] theorem enter_wins (m : Mach) (n : ModState) : (enter m n).wins = m.wins := by
  unfold enter; split <;> simp
@[simp] theorem raiseAs_intake (m : Mach) (f : Fld) (i n c : Nat) : (raiseAs m f i n c).intake = m.intake := by
  unfold raiseAs; split <;> simp
@[simp] theorem raise_intake (m : Mach) (f : Fld) (i : Nat) : (raise m f i).intake = m.intake := raiseAs_intake m f i i 0
@[simp] theorem raiseCtx_intake (m : Mach) (f : Fld) (i c : Nat) : (raiseCtx m f i c).intake = m.intake := raiseAs_intake m f i i c
@[simp] theorem raiseQuiet_intake (m : Mach) (f : Fld) : (raiseQuiet m f).intake = m.intake := by
  unfold raiseQuiet; split <;> simp
@[simp] theorem raiseCount_intake (m : Mach) (f k : Fld) (i : Nat) : (raiseCount m f k i).intake = m.intake := by
  unfold raiseCount; simp
@[simp] theorem raiseIf_intake (c : Bool) (m : Mach) (f : Fld) (i : Nat) : (raiseIf c m f i).intake = m.intake := by
  unfold raiseIf; split <;> simp
@[simp] theorem enter_intake (m : Mach) (n : ModState) : (enter m n).intake = m.intake := by
  unfold enter; split <;> simp
@[simp] theorem raiseAs_align (m : Mach) (f : Fld) (i n c : Nat) : (raiseAs m f i n c).align = m.align := by
  unfold raiseAs; split <;> simp
@[simp] theorem raise_align (m : Mach) (f : Fld) (i : Nat) : (raise m f i).align = m.align := raiseAs_align m f i i 0
@[simp] theorem raiseCtx_align (m : Mach) (f : Fld) (i c : Nat) : (raiseCtx m f i c).align = m.align := raiseAs_align m f i i c
@[simp] theorem raiseQuiet_align (m : Mach) (f : Fld) : (raiseQuiet m f).align = m.align := by
  unfold raiseQuiet; split <;> simp
@[simp] theorem raiseCount_align (m : Mach) (f k : Fld) (i : Nat) : (raiseCount m f k i).align = m.align := by
  unfold raiseCount; simp
@[simp] theorem raiseIf_align (c : Bool) (m : Mach) (f : Fld) (i : Nat) : (raiseIf c m f i).align = m.align := by
  unfold raiseIf; split <;> simp
@[simp] theorem enter_align (m : Mach) (n : ModState) : (enter m n).align = m.align := by
  unfold enter; split <;> simp
@[simp] theorem raiseAs_isp (m : Mach) (f : Fld) (i n c : Nat) : (raiseAs m f i n c).isp = m.isp := by
  unfold raiseAs; split <;> simp
@[simp] theorem raise_isp (m : Mach) (f : Fld) (i : Nat) : (raise m f i).isp = m.isp := raiseAs_isp m f i i 0
@[simp] theorem raiseCtx_isp (m : Mach) (f : Fld) (i c : Nat) : (raiseCtx m f i c).isp = m.isp := raiseAs_isp m f i i c
@[simp] theorem raiseQuiet_isp (m : Mach) (f : Fld) : (raiseQuiet m f).isp = m.isp := by
  unfold raiseQuiet; split <;> simp
@[simp] theorem raiseCount_isp (m : Mach) (f k : Fld) (i : Nat) : (raiseCount m f k i).isp = m.isp := by
  unfold raiseCount; simp
@[simp] theorem raiseIf_isp (c : Bool) (m : Mach) (f : Fld) (i : Nat) : (raiseIf c m f i).isp = m.isp := by
  unfold raiseIf; split <;> simp
@[simp] theorem enter_isp (m : Mach) (n : ModState) : (enter m n).isp = m.isp := by
  unfold enter; split <;> simp
@[simp] theorem raiseAs_chaff (m : Mach) (f : Fld) (i n c : Nat) : (raiseAs m f i n c).chaff = m.chaff := by
  unfold raiseAs; split <;> simp
@[simp] theorem raise_chaff (m : Mach) (f : Fld) (i : Nat) : (raise m f i).chaff = m.chaff := raiseAs_chaff m f i i 0
@[simp] theorem raiseCtx_chaff (m : Mach) (f : Fld) (i c : Nat) : (raiseCtx m f i c).chaff = m.chaff := raiseAs_chaff m f i i c
@[simp] theorem raiseQuiet_chaff (m : Mach) (f : Fld) : (raiseQuiet m f).chaff = m.chaff := by
  unfold raiseQuiet; split <;> simp
@[simp] theorem raiseCount_chaff (m : Mach) (f k : Fld) (i : Nat) : (raiseCount m f k i).chaff = m.chaff := by
  unfold raiseCount; simp
@[simp] theorem raiseIf_chaff (c : Bool) (m : Mach) (f : Fld) (i : Nat) : (raiseIf c m f i).chaff = m.chaff := by
  unfold raiseIf; split <;> simp
@[simp] theorem enter_chaff (m : Mach) (n : ModState) : (enter m n).chaff = m.chaff := by
  unfold enter; split <;> simp
@[simp] theorem raiseAs_fab (m : Mach) (f : Fld) (i n c : Nat) : (raiseAs m f i n c).fab = m.fab := by
  unfold raiseAs; split <;> simp
@[simp] theorem raise_fab (m : Mach) (f : Fld) (i : Nat) : (raise m f i).fab = m.fab := raiseAs_fab m f i i 0
@[simp] theorem raiseCtx_fab (m : Mach) (f : Fld) (i c : Nat) : (raiseCtx m f i c).fab = m.fab := raiseAs_fab m f i i c
@[simp] theorem raiseQuiet_fab (m : Mach) (f : Fld) : (raiseQuiet m f).fab = m.fab := by
  unfold raiseQuiet; split <;> simp
@[simp] theorem raiseCount_fab (m : Mach) (f k : Fld) (i : Nat) : (raiseCount m f k i).fab = m.fab := by
  unfold raiseCount; simp
@[simp] theorem raiseIf_fab (c : Bool) (m : Mach) (f : Fld) (i : Nat) : (raiseIf c m f i).fab = m.fab := by
  unfold raiseIf; split <;> simp
@[simp] theorem enter_fab (m : Mach) (n : ModState) : (enter m n).fab = m.fab := by
  unfold enter; split <;> simp
@[simp] theorem raiseAs_eject (m : Mach) (f : Fld) (i n c : Nat) : (raiseAs m f i n c).eject = m.eject := by
  unfold raiseAs; split <;> simp
@[simp] theorem raise_eject (m : Mach) (f : Fld) (i : Nat) : (raise m f i).eject = m.eject := raiseAs_eject m f i i 0
@[simp] theorem raiseCtx_eject (m : Mach) (f : Fld) (i c : Nat) : (raiseCtx m f i c).eject = m.eject := raiseAs_eject m f i i c
@[simp] theorem raiseQuiet_eject (m : Mach) (f : Fld) : (raiseQuiet m f).eject = m.eject := by
  unfold raiseQuiet; split <;> simp
@[simp] theorem raiseCount_eject (m : Mach) (f k : Fld) (i : Nat) : (raiseCount m f k i).eject = m.eject := by
  unfold raiseCount; simp
@[simp] theorem raiseIf_eject (c : Bool) (m : Mach) (f : Fld) (i : Nat) : (raiseIf c m f i).eject = m.eject := by
  unfold raiseIf; split <;> simp
@[simp] theorem enter_eject (m : Mach) (n : ModState) : (enter m n).eject = m.eject := by
  unfold enter; split <;> simp
@[simp] theorem raiseAs_flash (m : Mach) (f : Fld) (i n c : Nat) : (raiseAs m f i n c).flash = m.flash := by
  unfold raiseAs; split <;> simp
@[simp] theorem raise_flash (m : Mach) (f : Fld) (i : Nat) : (raise m f i).flash = m.flash := raiseAs_flash m f i i 0
@[simp] theorem raiseCtx_flash (m : Mach) (f : Fld) (i c : Nat) : (raiseCtx m f i c).flash = m.flash := raiseAs_flash m f i i c
@[simp] theorem raiseQuiet_flash (m : Mach) (f : Fld) : (raiseQuiet m f).flash = m.flash := by
  unfold raiseQuiet; split <;> simp
@[simp] theorem raiseCount_flash (m : Mach) (f k : Fld) (i : Nat) : (raiseCount m f k i).flash = m.flash := by
  unfold raiseCount; simp
@[simp] theorem raiseIf_flash (c : Bool) (m : Mach) (f : Fld) (i : Nat) : (raiseIf c m f i).flash = m.flash := by
  unfold raiseIf; split <;> simp
@[simp] theorem enter_flash (m : Mach) (n : ModState) : (enter m n).flash = m.flash := by
  unfold enter; split <;> simp
@[simp] theorem raiseAs_glume (m : Mach) (f : Fld) (i n c : Nat) : (raiseAs m f i n c).glume = m.glume := by
  unfold raiseAs; split <;> simp
@[simp] theorem raise_glume (m : Mach) (f : Fld) (i : Nat) : (raise m f i).glume = m.glume := raiseAs_glume m f i i 0
@[simp] theorem raiseCtx_glume (m : Mach) (f : Fld) (i c : Nat) : (raiseCtx m f i c).glume = m.glume := raiseAs_glume m f i i c
@[simp] theorem raiseQuiet_glume (m : Mach) (f : Fld) : (raiseQuiet m f).glume = m.glume := by
  unfold raiseQuiet; split <;> simp
@[simp] theorem raiseCount_glume (m : Mach) (f k : Fld) (i : Nat) : (raiseCount m f k i).glume = m.glume := by
  unfold raiseCount; simp
@[simp] theorem raiseIf_glume (c : Bool) (m : Mach) (f : Fld) (i : Nat) : (raiseIf c m f i).glume = m.glume := by
  unfold raiseIf; split <;> simp
@[simp] theorem enter_glume (m : Mach) (n : ModState) : (enter m n).glume = m.glume := by
  unfold enter; split <;> simp
@[simp] theorem raiseAs_power (m : Mach) (f : Fld) (i n c : Nat) : (raiseAs m f i n c).power = m.power := by
  unfold raiseAs; split <;> simp
@[simp] theorem raise_power (m : Mach) (f : Fld) (i : Nat) : (raise m f i).power = m.power := raiseAs_power m f i i 0
@[simp] theorem raiseCtx_power (m : Mach) (f : Fld) (i c : Nat) : (raiseCtx m f i c).power = m.power := raiseAs_power m f i i c
@[simp] theorem raiseQuiet_power (m : Mach) (f : Fld) : (raiseQuiet m f).power = m.power := by
  unfold raiseQuiet; split <;> simp
@[simp] theorem raiseCount_power (m : Mach) (f k : Fld) (i : Nat) : (raiseCount m f k i).power = m.power := by
  unfold raiseCount; simp
@[simp] theorem raiseIf_power (c : Bool) (m : Mach) (f : Fld) (i : Nat) : (raiseIf c m f i).power = m.power := by
  unfold raiseIf; split <;> simp
@[simp] theorem enter_power (m : Mach) (n : ModState) : (enter m n).power = m.power := by
  unfold enter; split <;> simp
@[simp] theorem raiseAs_draws (m : Mach) (f : Fld) (i n c : Nat) : (raiseAs m f i n c).draws = m.draws := by
  unfold raiseAs; split <;> simp
@[simp] theorem raise_draws (m : Mach) (f : Fld) (i : Nat) : (raise m f i).draws = m.draws := raiseAs_draws m f i i 0
@[simp] theorem raiseCtx_draws (m : Mach) (f : Fld) (i c : Nat) : (raiseCtx m f i c).draws = m.draws := raiseAs_draws m f i i c
@[simp] theorem raiseQuiet_draws (m : Mach) (f : Fld) : (raiseQuiet m f).draws = m.draws := by
  unfold raiseQuiet; split <;> simp
@[simp] theorem raiseCount_draws (m : Mach) (f k : Fld) (i : Nat) : (raiseCount m f k i).draws = m.draws := by
  unfold raiseCount; simp
@[simp] theorem raiseIf_draws (c : Bool) (m : Mach) (f : Fld) (i : Nat) : (raiseIf c m f i).draws = m.draws := by
  unfold raiseIf; split <;> simp
@[simp] theorem enter_draws (m : Mach) (n : ModState) : (enter m n).draws = m.draws := by
  unfold enter; split <;> simp
@[simp] theorem deny_regs (m : Mach) : (deny m).regs = m.regs := rfl
@[simp] theorem deny_ctl (m : Mach) : (deny m).ctl = m.ctl := rfl
@[simp] theorem deny_fuses (m : Mach) : (deny m).fuses = m.fuses := rfl
@[simp] theorem deny_nor (m : Mach) : (deny m).nor = m.nor := rfl
@[simp] theorem deny_cfg (m : Mach) : (deny m).cfg = m.cfg := rfl
@[simp] theorem deny_time (m : Mach) : (deny m).time = m.time := rfl
@[simp] theorem deny_enc (m : Mach) : (deny m).enc = m.enc := rfl
@[simp] theorem deny_trig (m : Mach) : (deny m).trig = m.trig := rfl
@[simp] theorem deny_sheaf (m : Mach) : (deny m).sheaf = m.sheaf := rfl
@[simp] theorem deny_wins (m : Mach) : (deny m).wins = m.wins := rfl
@[simp] theorem deny_intake (m : Mach) : (deny m).intake = m.intake := rfl
@[simp] theorem deny_align (m : Mach) : (deny m).align = m.align := rfl
@[simp] theorem deny_isp (m : Mach) : (deny m).isp = m.isp := rfl
@[simp] theorem deny_chaff (m : Mach) : (deny m).chaff = m.chaff := rfl
@[simp] theorem deny_fab (m : Mach) : (deny m).fab = m.fab := rfl
@[simp] theorem deny_eject (m : Mach) : (deny m).eject = m.eject := rfl
@[simp] theorem deny_flash (m : Mach) : (deny m).flash = m.flash := rfl
@[simp] theorem deny_glume (m : Mach) : (deny m).glume = m.glume := rfl
@[simp] theorem deny_power (m : Mach) : (deny m).power = m.power := rfl
@[simp] theorem deny_host (m : Mach) : (deny m).host = m.host := rfl
@[simp] theorem deny_draws (m : Mach) : (deny m).draws = m.draws := rfl
@[simp] theorem draw_regs (m : Mach) : (draw m).1.regs = m.regs := rfl
@[simp] theorem draw_ctl (m : Mach) : (draw m).1.ctl = m.ctl := rfl
@[simp] theorem draw_fuses (m : Mach) : (draw m).1.fuses = m.fuses := rfl
@[simp] theorem draw_nor (m : Mach) : (draw m).1.nor = m.nor := rfl
@[simp] theorem draw_cfg (m : Mach) : (draw m).1.cfg = m.cfg := rfl
@[simp] theorem draw_time (m : Mach) : (draw m).1.time = m.time := rfl
@[simp] theorem draw_enc (m : Mach) : (draw m).1.enc = m.enc := rfl
@[simp] theorem draw_trig (m : Mach) : (draw m).1.trig = m.trig := rfl
@[simp] theorem draw_sheaf (m : Mach) : (draw m).1.sheaf = m.sheaf := rfl
@[simp] theorem draw_wins (m : Mach) : (draw m).1.wins = m.wins := rfl
@[simp] theorem draw_intake (m : Mach) : (draw m).1.intake = m.intake := rfl
@[simp] theorem draw_align (m : Mach) : (draw m).1.align = m.align := rfl
@[simp] theorem draw_isp (m : Mach) : (draw m).1.isp = m.isp := rfl
@[simp] theorem draw_chaff (m : Mach) : (draw m).1.chaff = m.chaff := rfl
@[simp] theorem draw_fab (m : Mach) : (draw m).1.fab = m.fab := rfl
@[simp] theorem draw_eject (m : Mach) : (draw m).1.eject = m.eject := rfl
@[simp] theorem draw_flash (m : Mach) : (draw m).1.flash = m.flash := rfl
@[simp] theorem draw_glume (m : Mach) : (draw m).1.glume = m.glume := rfl
@[simp] theorem draw_power (m : Mach) : (draw m).1.power = m.power := rfl
@[simp] theorem draw_host (m : Mach) : (draw m).1.host = m.host := rfl
@[simp] theorem draw_out (m : Mach) : (draw m).1.out = m.out := rfl
@[simp] theorem fresh_regs (m : Mach) : (fresh m).regs = m.regs := rfl
@[simp] theorem fresh_ctl (m : Mach) : (fresh m).ctl = m.ctl := rfl
@[simp] theorem fresh_fuses (m : Mach) : (fresh m).fuses = m.fuses := rfl
@[simp] theorem fresh_nor (m : Mach) : (fresh m).nor = m.nor := rfl
@[simp] theorem fresh_cfg (m : Mach) : (fresh m).cfg = m.cfg := rfl
@[simp] theorem fresh_time (m : Mach) : (fresh m).time = m.time := rfl
@[simp] theorem fresh_enc (m : Mach) : (fresh m).enc = m.enc := rfl
@[simp] theorem fresh_trig (m : Mach) : (fresh m).trig = m.trig := rfl
@[simp] theorem fresh_sheaf (m : Mach) : (fresh m).sheaf = m.sheaf := rfl
@[simp] theorem fresh_wins (m : Mach) : (fresh m).wins = m.wins := rfl
@[simp] theorem fresh_intake (m : Mach) : (fresh m).intake = m.intake := rfl
@[simp] theorem fresh_align (m : Mach) : (fresh m).align = m.align := rfl
@[simp] theorem fresh_isp (m : Mach) : (fresh m).isp = m.isp := rfl
@[simp] theorem fresh_chaff (m : Mach) : (fresh m).chaff = m.chaff := rfl
@[simp] theorem fresh_fab (m : Mach) : (fresh m).fab = m.fab := rfl
@[simp] theorem fresh_eject (m : Mach) : (fresh m).eject = m.eject := rfl
@[simp] theorem fresh_flash (m : Mach) : (fresh m).flash = m.flash := rfl
@[simp] theorem fresh_glume (m : Mach) : (fresh m).glume = m.glume := rfl
@[simp] theorem fresh_power (m : Mach) : (fresh m).power = m.power := rfl
@[simp] theorem fresh_host (m : Mach) : (fresh m).host = m.host := rfl
@[simp] theorem fresh_draws (m : Mach) : (fresh m).draws = m.draws := rfl
@[simp] theorem fresh_out (m : Mach) : (fresh m).out = [] := rfl
@[simp] theorem settle_regs (m0 m : Mach) : (settle m0 m).regs = m.regs := by
  unfold settle; split <;> rfl
@[simp] theorem settle_ctl (m0 m : Mach) : (settle m0 m).ctl = m.ctl := by
  unfold settle; split <;> rfl
@[simp] theorem settle_fuses (m0 m : Mach) : (settle m0 m).fuses = m.fuses := by
  unfold settle; split <;> rfl
@[simp] theorem settle_nor (m0 m : Mach) : (settle m0 m).nor = m.nor := by
  unfold settle; split <;> rfl
@[simp] theorem settle_cfg (m0 m : Mach) : (settle m0 m).cfg = m.cfg := by
  unfold settle; split <;> rfl
@[simp] theorem settle_time (m0 m : Mach) : (settle m0 m).time = m.time := by
  unfold settle; split <;> rfl
@[simp] theorem settle_enc (m0 m : Mach) : (settle m0 m).enc = m.enc := by
  unfold settle; split <;> rfl
@[simp] theorem settle_trig (m0 m : Mach) : (settle m0 m).trig = m.trig := by
  unfold settle; split <;> rfl
@[simp] theorem settle_sheaf (m0 m : Mach) : (settle m0 m).sheaf = m.sheaf := by
  unfold settle; split <;> rfl
@[simp] theorem settle_wins (m0 m : Mach) : (settle m0 m).wins = m.wins := by
  unfold settle; split <;> rfl
@[simp] theorem settle_intake (m0 m : Mach) : (settle m0 m).intake = m.intake := by
  unfold settle; split <;> rfl
@[simp] theorem settle_align (m0 m : Mach) : (settle m0 m).align = m.align := by
  unfold settle; split <;> rfl
@[simp] theorem settle_isp (m0 m : Mach) : (settle m0 m).isp = m.isp := by
  unfold settle; split <;> rfl
@[simp] theorem settle_chaff (m0 m : Mach) : (settle m0 m).chaff = m.chaff := by
  unfold settle; split <;> rfl
@[simp] theorem settle_fab (m0 m : Mach) : (settle m0 m).fab = m.fab := by
  unfold settle; split <;> rfl
@[simp] theorem settle_flash (m0 m : Mach) : (settle m0 m).flash = m.flash := by
  unfold settle; split <;> rfl
@[simp] theorem settle_glume (m0 m : Mach) : (settle m0 m).glume = m.glume := by
  unfold settle; split <;> rfl
@[simp] theorem settle_power (m0 m : Mach) : (settle m0 m).power = m.power := by
  unfold settle; split <;> rfl
@[simp] theorem settle_host (m0 m : Mach) : (settle m0 m).host = m.host := by
  unfold settle; split <;> rfl
@[simp] theorem settle_draws (m0 m : Mach) : (settle m0 m).draws = m.draws := by
  unfold settle; split <;> rfl
@[simp] theorem settle_out (m0 m : Mach) : (settle m0 m).out = m.out := by
  unfold settle; split <;> rfl

/-- `settle` touches only the outputs held in current limit. -/
theorem settle_eject (m0 m : Mach) :
    (settle m0 m).eject = { m.eject with limited := m.eject.limited &&& ~~~ (doCommands m &&& ~~~ doCommands m0) } := by
  unfold settle
  split
  · rename_i h
    have e : m.eject.limited &&& ~~~ (doCommands m &&& ~~~ doCommands m0) = m.eject.limited := by rw [h]; simp
    rw [e]
  · rfl

@[simp] theorem enter_ctl_st (m : Mach) (n : ModState) : (enter m n).ctl.st = n := by
  unfold enter
  split
  · assumption
  · simp

/-- A state entered from another: PREV_STATE is the state before (R22). -/
theorem enter_ctl_prev (m : Mach) (n : ModState) (h : m.ctl.st ≠ n) : (enter m n).ctl.prev = m.ctl.st := by
  unfold enter
  rw [if_neg h]
  simp

/-- What a command run by `State.run` answers: a next state, with the queue as it was. -/
theorem run_next (s : State) (f : Mach → Mach) :
    s.run f = .next { s with mach := settle s.mach (f (fresh s.mach)) } := rfl

end Sys2Proof.Machine
end

