-- ==== Sys2Proof/Laws/Tab.lean ====
section
/-!
SUPPORT. Laws/Tab.lean: a read after a write of a sparse table, that every write keeps the canonical form (`tabWf`), and the same for the
memories of Machine/Store.lean.
-/

namespace Sys2Proof.Machine

variable {α : Type}

/-- Every index listed lies above a bound. -/
def above (k : Nat) (t : Tab α) : Bool := t.all (fun e => decide (k < e.1))

theorem above_iff (k : Nat) (t : Tab α) : above k t = true ↔ ∀ e ∈ t, k < e.1 := by
  simp [above]

theorem tabWf_cons [DecidableEq α] (d v : α) (k : Nat) (t : Tab α) :
    tabWf d ((k, v) :: t) = true ↔ v ≠ d ∧ above k t = true ∧ tabWf d t = true := by
  simp [tabWf, above, and_assoc]

theorem tget_tdel_same (d : α) (t : Tab α) (i : Nat) : tget d (tdel t i) i = d := by
  induction t with
  | nil => rfl
  | cons e t ih =>
    obtain ⟨k, v⟩ := e
    by_cases h : k = i
    · simpa [tdel, h] using ih
    · have : tdel ((k, v) :: t) i = (k, v) :: tdel t i := by simp [tdel, h]
      rw [this]
      simpa [tget, h] using ih

theorem tget_tdel_ne (d : α) (t : Tab α) {i j : Nat} (h : j ≠ i) : tget d (tdel t i) j = tget d t j := by
  induction t with
  | nil => rfl
  | cons e t ih =>
    obtain ⟨k, v⟩ := e
    by_cases hk : k = i
    · have : tdel ((k, v) :: t) i = tdel t i := by simp [tdel, hk]
      rw [this, ih]
      simp [tget, hk, Ne.symm h]
    · have : tdel ((k, v) :: t) i = (k, v) :: tdel t i := by simp [tdel, hk]
      rw [this]
      simp [tget, ih]

theorem tget_tins_same (d v : α) (t : Tab α) (i : Nat) (h : ∀ e ∈ t, e.1 ≠ i) : tget d (tins i v t) i = v := by
  induction t with
  | nil => simp [tins, tget]
  | cons e t ih =>
    obtain ⟨k, w⟩ := e
    have hk : k ≠ i := h (k, w) (by simp)
    unfold tins
    split
    · simp [tget]
    · simp only [tget, if_neg hk]
      exact ih (fun e he => h e (by simp [he]))

theorem tget_tins_ne (d v : α) (t : Tab α) {i j : Nat} (h : j ≠ i) : tget d (tins i v t) j = tget d t j := by
  induction t with
  | nil => simp [tins, tget, Ne.symm h]
  | cons e t ih =>
    obtain ⟨k, w⟩ := e
    unfold tins
    split
    · simp [tget, Ne.symm h]
    · simp [tget, ih]

theorem mem_tdel_ne (t : Tab α) (i : Nat) : ∀ e ∈ tdel t i, e.1 ≠ i := by
  intro e he
  simpa [tdel] using (List.mem_filter.1 he).2

/-- A read of the index just written. -/
@[simp] theorem tget_tset_same [DecidableEq α] (d v : α) (t : Tab α) (i : Nat) : tget d (tset d t i v) i = v := by
  unfold tset
  split
  · rename_i h; rw [tget_tdel_same, h]
  · exact tget_tins_same d v _ i (mem_tdel_ne t i)

/-- A read of another index. -/
theorem tget_tset_ne [DecidableEq α] (d v : α) (t : Tab α) {i j : Nat} (h : j ≠ i) : tget d (tset d t i v) j = tget d t j := by
  unfold tset
  split
  · exact tget_tdel_ne d t h
  · rw [tget_tins_ne d v _ h, tget_tdel_ne d t h]

@[simp] theorem tget_tmod_same [DecidableEq α] (d : α) (t : Tab α) (i : Nat) (f : α → α) : tget d (tmod d t i f) i = f (tget d t i) := by
  simp [tmod]

theorem tget_tmod_ne [DecidableEq α] (d : α) (t : Tab α) (f : α → α) {i j : Nat} (h : j ≠ i) : tget d (tmod d t i f) j = tget d t j := by
  simp [tmod, tget_tset_ne d _ t h]

theorem above_filter (k : Nat) (t : Tab α) (p : Nat × α → Bool) (h : above k t = true) : above k (t.filter p) = true := by
  rw [above_iff] at *
  exact fun e he => h e (List.mem_filter.1 he).1

theorem tabWf_filter [DecidableEq α] (d : α) (t : Tab α) (p : Nat × α → Bool) (h : tabWf d t = true) : tabWf d (t.filter p) = true := by
  induction t with
  | nil => rfl
  | cons e t ih =>
    obtain ⟨k, v⟩ := e
    rw [tabWf_cons] at h
    rw [List.filter_cons]
    split
    · rw [tabWf_cons]
      exact ⟨h.1, above_filter k t p h.2.1, ih h.2.2⟩
    · exact ih h.2.2

theorem above_tins (k i : Nat) (v : α) (t : Tab α) (hk : k < i) (h : above k t = true) : above k (tins i v t) = true := by
  induction t with
  | nil => simp [tins, above, hk]
  | cons e t ih =>
    simp only [above, List.all_cons, Bool.and_eq_true, decide_eq_true_eq] at h
    unfold tins
    split
    · simp only [above, List.all_cons, Bool.and_eq_true, decide_eq_true_eq]
      exact ⟨hk, h.1, h.2⟩
    · simp only [above, List.all_cons, Bool.and_eq_true, decide_eq_true_eq]
      exact ⟨h.1, ih h.2⟩

theorem above_trans (i k : Nat) (t : Tab α) (hi : i < k) (h : above k t = true) : above i t = true := by
  rw [above_iff] at *
  exact fun e he => lt_trans hi (h e he)

theorem tabWf_tins [DecidableEq α] (d v : α) (t : Tab α) (i : Nat) (hv : v ≠ d) (hi : ∀ e ∈ t, e.1 ≠ i) (h : tabWf d t = true) :
    tabWf d (tins i v t) = true := by
  induction t with
  | nil => simp [tins, tabWf, hv]
  | cons e t ih =>
    obtain ⟨k, w⟩ := e
    have hw := (tabWf_cons d w k t).1 h
    have hk : k ≠ i := hi (k, w) (by simp)
    unfold tins
    split
    · rename_i hlt
      rw [tabWf_cons]
      refine ⟨hv, ?_, h⟩
      simp only [above, List.all_cons, Bool.and_eq_true, decide_eq_true_eq]
      exact ⟨hlt, above_trans i k t hlt hw.2.1⟩
    · rename_i hle
      rw [tabWf_cons]
      exact ⟨hw.1, above_tins k i v t (by omega) hw.2.1, ih (fun e he => hi e (by simp [he])) hw.2.2⟩

/-- A write keeps the canonical form. -/
theorem tabWf_tset [DecidableEq α] (d v : α) (t : Tab α) (i : Nat) (h : tabWf d t = true) : tabWf d (tset d t i v) = true := by
  unfold tset
  split
  · exact tabWf_filter d t _ h
  · rename_i hv
    exact tabWf_tins d v _ i hv (mem_tdel_ne t i) (tabWf_filter d t _ h)

theorem tabWf_tmod [DecidableEq α] (d : α) (t : Tab α) (i : Nat) (f : α → α) (h : tabWf d t = true) : tabWf d (tmod d t i f) = true :=
  tabWf_tset d _ t i h

/-! The memories: every operation of Machine/Store.lean keeps `Memory.wf`. -/

theorem Memory.wf_putBytes (bs : List Byte) (a : Nat) (mem : List Host.Cell) (h : Memory.wf mem = true) :
    Memory.wf (putBytes bs a mem) = true := by
  induction bs generalizing a mem with
  | nil => exact h
  | cons b bs ih => exact ih (a + 1) _ (tabWf_tset 0 b mem a h)

theorem Memory.wf_foldl_tset {β : Type} (xs : List β) (k : β → Nat) (v : β → Byte) (mem : List Host.Cell) (h : Memory.wf mem = true) :
    Memory.wf (xs.foldl (fun m c => tset 0 m (k c) (v c)) mem) = true := by
  induction xs generalizing mem with
  | nil => exact h
  | cons x xs ih => exact ih _ (tabWf_tset 0 (v x) mem (k x) h)

theorem Memory.wf_foldl_putBytes {β : Type} (xs : List β) (k : β → Nat) (v : β → List Byte) (mem : List Host.Cell)
    (h : Memory.wf mem = true) : Memory.wf (xs.foldl (fun m w => putBytes (v w) (k w) m) mem) = true := by
  induction xs generalizing mem with
  | nil => exact h
  | cons x xs ih => exact ih _ (Memory.wf_putBytes (v x) (k x) mem h)

theorem Memory.wf_dropLine (mem : List Host.Cell) (p : Nat) (h : Memory.wf mem = true) : Memory.wf (dropLine mem p) = true :=
  tabWf_filter 0 mem _ h

theorem publishLine_wf (hbm : Bool) (s : Store) (l f : Nat) (ws : List (Nat × List Byte)) (h : Memory.wf s.mem = true) :
    Memory.wf (publishLine hbm s l f ws).mem = true :=
  Memory.wf_foldl_putBytes ws _ _ _ h

theorem stageLine_wf (hbm : Bool) (s : Store) (l f : Nat) (h : Memory.wf s.mem = true) : Memory.wf (stageLine hbm s l f).mem = true := by
  unfold stageLine
  dsimp only
  split
  · exact Memory.wf_foldl_tset _ _ _ _ (Memory.wf_dropLine _ _ h)
  · exact Memory.wf_dropLine _ _ h

theorem bindLines_mem (s : Store) (c : Nat) (ls : List Nat) : (bindLines s c ls).mem = s.mem := by
  unfold bindLines
  induction ls generalizing s with
  | nil => rfl
  | cons l ls ih => exact ih _

theorem zeroPages_wf (s : Store) (ps : List Nat) (h : Memory.wf s.mem = true) : Memory.wf (zeroPages s ps).mem = true :=
  tabWf_filter 0 s.mem _ h

theorem initBytes_wf (hbm : Bool) (s : Store) (a : Nat) (bs : List Byte) (h : Memory.wf s.mem = true) :
    Memory.wf (initBytes hbm s a bs).mem = true := by
  induction bs generalizing s a with
  | nil => exact h
  | cons b bs ih =>
    refine ih _ _ (tabWf_tset 0 b _ _ ?_)
    split
    · exact h
    · exact Memory.wf_dropLine _ _ h

end Sys2Proof.Machine
end

