-- ==== Sys2Proof/Laws/Regs.lean ====
section
/-!
SUPPORT. Laws/Regs.lean: what a read of a register field gives after a write of a field.
-/

namespace Sys2Proof.Machine

/-- A field lies within its 32-bit register. -/
def Fld.fits (f : Fld) : Bool := decide (f.lo + f.w ≤ 32)

theorem bits_testBit (n lo w i : Nat) : (bits n lo w).testBit i = (decide (i < w) && n.testBit (lo + i)) := by
  unfold bits
  rw [Nat.testBit_mod_two_pow, Nat.testBit_shiftRight]

theorem mask_getLsbD (f : Fld) (hf : f.fits = true) (i : Nat) :
    f.mask.getLsbD i = (decide (f.lo ≤ i) && decide (i < f.lo + f.w)) := by
  have h : f.lo + f.w ≤ 32 := of_decide_eq_true hf
  unfold Fld.mask
  rw [BitVec.getLsbD_shiftLeft, BitVec.getLsbD_ofNat, Nat.testBit_two_pow_sub_one]
  by_cases h1 : f.lo ≤ i <;> by_cases h2 : i < f.lo + f.w <;> simp [h1, h2] <;> omega

theorem putFld_getLsbD (w : Word) (f : Fld) (v i : Nat) (hf : f.fits = true) :
    (putFld w f v).getLsbD i = if f.lo ≤ i ∧ i < f.lo + f.w then v.testBit (i - f.lo) else w.getLsbD i := by
  have h : f.lo + f.w ≤ 32 := of_decide_eq_true hf
  unfold putFld
  rw [BitVec.getLsbD_or, BitVec.getLsbD_and, BitVec.getLsbD_and, BitVec.getLsbD_not, mask_getLsbD f hf,
    BitVec.getLsbD_shiftLeft, BitVec.getLsbD_ofNat]
  by_cases h1 : f.lo ≤ i <;> by_cases h2 : i < f.lo + f.w
  · have h3 : i < 32 := by omega
    have h4 : i - f.lo < 32 := by omega
    simp [h1, h2, h3, h4]
  · by_cases h3 : i < 32
    · simp [h2, h3]
    · have h4 : 32 ≤ i := by omega
      simp [h2, h3, BitVec.getLsbD_of_ge w i h4]
  · have h3 : i < 32 := by omega
    simp [h1, h3]
  · have : f.lo ≤ i := by omega
    exact absurd this h1

/-- A field reads what was put into it. -/
theorem bits_putFld_same (w : Word) (f : Fld) (v : Nat) (hf : f.fits = true) : bits (putFld w f v).toNat f.lo f.w = v % 2 ^ f.w := by
  apply Nat.eq_of_testBit_eq
  intro i
  rw [bits_testBit, Nat.testBit_mod_two_pow, ← BitVec.getLsbD, putFld_getLsbD w f v _ hf]
  by_cases h : i < f.w
  · simp [h]
  · simp [h]

/-- A field keeps its bits when another field of the word is put. -/
theorem bits_putFld_other (w : Word) (f g : Fld) (v : Nat) (hf : f.fits = true) (h : f.lo + f.w ≤ g.lo ∨ g.lo + g.w ≤ f.lo) :
    bits (putFld w f v).toNat g.lo g.w = bits w.toNat g.lo g.w := by
  apply Nat.eq_of_testBit_eq
  intro i
  rw [bits_testBit, bits_testBit, ← BitVec.getLsbD, ← BitVec.getLsbD, putFld_getLsbD w f v _ hf]
  by_cases hi : i < g.w
  · rw [if_neg (by omega)]
  · simp [hi]

/-- A register field reads what was written to it. -/
theorem rd_wr_same (m : Mach) (f : Fld) (i v : Nat) (hf : f.fits = true) : rd (wr m f i v) f i = v % 2 ^ f.w := by
  unfold rd wr word setWord
  simp only [tget_tset_same]
  exact bits_putFld_same _ f v hf

/-- The default of a read does not matter to an index that a write leaves alone. -/
theorem tget_tset_ne_default (r q : Word) (t : Tab Word) (w : Word) {a b : Nat} (h : b ≠ a) : tget q (tset r t a w) b = tget q t b := by
  unfold tset
  split
  · exact tget_tdel_ne q t h
  · rw [tget_tins_ne q w _ h, tget_tdel_ne q t h]

/-- A write leaves the fields of other registers. -/
theorem rd_wr_ne (m : Mach) (f g : Fld) (i j v : Nat) (h : g.addr j ≠ f.addr i) : rd (wr m f i v) g j = rd m g j := by
  unfold rd wr word setWord
  simp only [tget_tset_ne_default f.rst g.rst m.regs _ h]

/-- A write leaves the other fields of its register. -/
theorem rd_wr_other (m : Mach) (f g : Fld) (i j v : Nat) (hf : f.fits = true) (ha : g.addr j = f.addr i) (hr : g.rst = f.rst)
    (h : f.lo + f.w ≤ g.lo ∨ g.lo + g.w ≤ f.lo) : rd (wr m f i v) g j = rd m g j := by
  unfold rd wr word setWord
  simp only [ha, hr, tget_tset_same]
  exact bits_putFld_other _ f g v hf h

/-- A word reads what was stored. -/
theorem word_setWord_same (m : Mach) (rst : Word) (a : Nat) (w : Word) : word (setWord m rst a w) rst a = w := by
  simp [word, setWord]

theorem word_setWord_ne (m : Mach) (r q : Word) (a b : Nat) (w : Word) (h : b ≠ a) : word (setWord m r a w) q b = word m q b :=
  tget_tset_ne_default r q m.regs w h

/-- Registers read alike when their storage is the same. -/
theorem rd_congr {m n : Mach} (h : m.regs = n.regs) (f : Fld) (i : Nat) : rd m f i = rd n f i := by
  unfold rd word
  rw [h]

@[simp] theorem rd_fresh (m : Mach) (f : Fld) (i : Nat) : rd (fresh m) f i = rd m f i := rfl
@[simp] theorem flag_fresh (m : Mach) (f : Fld) (i : Nat) : flag (fresh m) f i = flag m f i := rfl
@[simp] theorem word_fresh (m : Mach) (r : Word) (a : Nat) : word (fresh m) r a = word m r a := rfl
@[simp] theorem rd_settle (n m : Mach) (f : Fld) (i : Nat) : rd (settle n m) f i = rd m f i := rd_congr (settle_regs n m) f i
@[simp] theorem word_settle (n m : Mach) (r : Word) (a : Nat) : word (settle n m) r a = word m r a := by
  unfold word
  rw [settle_regs]

/-- Sending a vector touches no register but the pending words. -/
theorem rd_sendVector (m : Mach) (v : Nat) (g : Fld) (j : Nat) (h : g.addr j ≠ pbaAddr v) : rd (sendVector m v) g j = rd m g j := by
  unfold sendVector
  split
  · unfold rd
    rw [word_setWord_ne m 0 g.rst (pbaAddr v) (g.addr j) _ h]
  · rfl

/-- An event's flag reads 1 once raised. -/
theorem rd_raiseAs_same (m : Mach) (f : Fld) (i n c : Nat) (hf : f.fits = true) (hw : f.w = 1) (hp : f.addr i ≠ pbaAddr (vectorOf f i)) :
    rd (raiseAs m f i n c) f i = 1 := by
  unfold raiseAs
  split
  · rename_i h
    simpa [flag] using h
  · rw [rd_sendVector _ _ f i hp, rd_congr (n := wr m f i 1) (by unfold logEvent; rfl) f i, rd_wr_same m f i 1 hf, hw]
    rfl

/-- Raising an event leaves the fields of other registers. -/
theorem rd_raiseAs_ne (m : Mach) (f g : Fld) (i n c j : Nat) (hp : g.addr j ≠ pbaAddr (vectorOf f i)) (h : g.addr j ≠ f.addr i) :
    rd (raiseAs m f i n c) g j = rd m g j := by
  unfold raiseAs
  split
  · rfl
  · rw [rd_sendVector _ _ g j hp, rd_congr (n := wr m f i 1) (by unfold logEvent; rfl) g j, rd_wr_ne m f g i j 1 h]

/-- Raising an event leaves the other fields of its register. -/
theorem rd_raiseAs_other (m : Mach) (f g : Fld) (i n c j : Nat) (hp : g.addr j ≠ pbaAddr (vectorOf f i)) (hf : f.fits = true)
    (ha : g.addr j = f.addr i) (hr : g.rst = f.rst) (h : f.lo + f.w ≤ g.lo ∨ g.lo + g.w ≤ f.lo) :
    rd (raiseAs m f i n c) g j = rd m g j := by
  unfold raiseAs
  split
  · rfl
  · rw [rd_sendVector _ _ g j hp, rd_congr (n := wr m f i 1) (by unfold logEvent; rfl) g j, rd_wr_other m f g i j 1 hf ha hr h]

/-- A counter counts up by one, and stays at its greatest value. -/
theorem rd_inc_same (m : Mach) (f : Fld) (i : Nat) (hf : f.fits = true) : rd (inc m f i) f i = min (rd m f i + 1) (2 ^ f.w - 1) := by
  unfold inc incBy
  rw [rd_wr_same m f i _ hf]
  unfold sat
  apply Nat.mod_eq_of_lt
  have : 0 < 2 ^ f.w := Nat.two_pow_pos f.w
  omega

theorem rd_inc_ne (m : Mach) (f g : Fld) (i j : Nat) (h : g.addr j ≠ f.addr i) : rd (inc m f i) g j = rd m g j :=
  rd_wr_ne m f g i j _ h

/-- Entering a state touches no register but GEN_EVENT and the pending word of vector 0. -/
theorem rd_enter_ne (m : Mach) (n : ModState) (g : Fld) (j : Nat) (hp : g.addr j ≠ pbaAddr 0)
    (h : g.addr j ≠ F.GEN_EVENT_STATE_CHANGE.addr 0) : rd (enter m n) g j = rd m g j := by
  unfold enter
  split
  · rfl
  · exact rd_raiseAs_ne _ F.GEN_EVENT_STATE_CHANGE g 0 0 0 j hp h

end Sys2Proof.Machine
end

