-- ==== Sys2Proof/Laws/Completes.lean ====
section
/-!
SUPPORT. Laws/Completes.lean: how a statement about a command comes down to its effect on the machine.
-/

namespace Sys2Proof.Machine

/-- A command that is run by `State.run` completes with what its effect gives. -/
theorem completes_run {c : Instr} {s : State} {P : Mach → Prop} (f : Mach → Mach) (h : exec c s = s.run f)
    (hp : P (settle s.mach (f (fresh s.mach)))) : Completes c s P := ⟨_, h, rfl, hp⟩

/-- The parts of a machine that a command keeps, from the parts that its effect keeps. -/
theorem keeps_settle {but : List Part} {m n t : Mach} (h : Keeps but m t) : Keeps but m (settle n t) := by
  intro p hp
  have hp' := h p hp
  cases p
  case eject =>
    simp only [Part.same, settle_eject] at *
    rw [← hp']
  all_goals simpa [Part.same] using hp'

theorem keeps_refl (but : List Part) (m : Mach) : Keeps but m m := by
  intro p _
  cases p <;> rfl

theorem keeps_trans {but : List Part} {a b c : Mach} (h : Keeps but a b) (k : Keeps but b c) : Keeps but a c := by
  intro p hp
  have h1 := h p hp
  have h2 := k p hp
  cases p <;> simp_all [Part.same]

theorem keeps_fresh (but : List Part) (m : Mach) : Keeps but m (fresh m) := by
  intro p _
  cases p <;> rfl

theorem keeps_mono {but more : List Part} {m t : Mach} (h : Keeps but m t) (hs : ∀ p ∈ but, p ∈ more) : Keeps more m t :=
  fun p hp => h p (fun hb => hp (hs p hb))

/-- A register write touches no part. -/
theorem keeps_wr {but : List Part} {m t : Mach} (f : Fld) (i v : Nat) (h : Keeps but m t) : Keeps but m (wr t f i v) := by
  refine keeps_trans h ?_
  intro p _
  cases p <;> rfl

theorem regsKeep_refl (but : List Nat) (m : Mach) : RegsKeep but m m := fun _ _ _ _ => rfl

theorem regsKeep_of_regs {but : List Nat} {m t : Mach} (h : t.regs = m.regs) : RegsKeep but m t := by
  intro rst a _ _
  unfold word
  rw [h]

theorem regsKeep_trans {but : List Nat} {a b c : Mach} (h : RegsKeep but a b) (k : RegsKeep but b c) : RegsKeep but a c :=
  fun rst x hx hr => (k rst x hx hr).trans (h rst x hx hr)

/-- A register write keeps every word but its own. -/
theorem regsKeep_wr {but : List Nat} {m t : Mach} (f : Fld) (i v : Nat) (hf : f.addr i ∈ but) (h : RegsKeep but m t) :
    RegsKeep but m (wr t f i v) := by
  refine regsKeep_trans h ?_
  intro rst a ha _
  exact word_setWord_ne t f.rst rst (f.addr i) a _ (fun e => ha (e ▸ hf))

/-- Raising an event keeps every word but its own and the pending words. -/
theorem regsKeep_raiseAs {but : List Nat} {m t : Mach} (f : Fld) (i n c : Nat) (hf : f.addr i ∈ but) (hv : vectorOf f i < 1024)
    (h : RegsKeep but m t) : RegsKeep but m (raiseAs t f i n c) := by
  refine regsKeep_trans h ?_
  intro rst a ha hr
  have hne : a ≠ f.addr i := fun e => ha (e ▸ hf)
  have hp : a ≠ pbaAddr (vectorOf f i) := by
    unfold pbaAddr
    omega
  unfold raiseAs
  split
  · rfl
  · unfold sendVector
    split
    · rw [word_setWord_ne _ _ _ _ _ _ hp]
      exact word_setWord_ne t f.rst rst (f.addr i) a _ hne
    · exact word_setWord_ne t f.rst rst (f.addr i) a _ hne

theorem regsKeep_settle {but : List Nat} {m n t : Mach} (h : RegsKeep but m t) : RegsKeep but m (settle n t) := by
  intro rst a ha hr
  rw [word_settle]
  exact h rst a ha hr

end Sys2Proof.Machine
end

