-- ==== Sys2Proof/Laws/Link.lean ====
section
/-!
SUPPORT. Laws/Link.lean: what sending a flit, an LCTL or training frames leaves alone: every part of the machine but the port's own state and
the output.
-/

namespace Sys2Proof.Machine

@[simp] theorem emitFlit_regs (m : Mach) (p : Nat) (f : BitVec 256) : (emitFlit m p f).regs = m.regs := by unfold emitFlit; split <;> rfl
@[simp] theorem emitFlit_ctl (m : Mach) (p : Nat) (f : BitVec 256) : (emitFlit m p f).ctl = m.ctl := by unfold emitFlit; split <;> rfl
@[simp] theorem emitFlit_fuses (m : Mach) (p : Nat) (f : BitVec 256) : (emitFlit m p f).fuses = m.fuses := by unfold emitFlit; split <;> rfl
@[simp] theorem emitFlit_nor (m : Mach) (p : Nat) (f : BitVec 256) : (emitFlit m p f).nor = m.nor := by unfold emitFlit; split <;> rfl
@[simp] theorem emitFlit_cfg (m : Mach) (p : Nat) (f : BitVec 256) : (emitFlit m p f).cfg = m.cfg := by unfold emitFlit; split <;> rfl
@[simp] theorem emitFlit_time (m : Mach) (p : Nat) (f : BitVec 256) : (emitFlit m p f).time = m.time := by unfold emitFlit; split <;> rfl
@[simp] theorem emitFlit_enc (m : Mach) (p : Nat) (f : BitVec 256) : (emitFlit m p f).enc = m.enc := by unfold emitFlit; split <;> rfl
@[simp] theorem emitFlit_trig (m : Mach) (p : Nat) (f : BitVec 256) : (emitFlit m p f).trig = m.trig := by unfold emitFlit; split <;> rfl
@[simp] theorem emitFlit_wins (m : Mach) (p : Nat) (f : BitVec 256) : (emitFlit m p f).wins = m.wins := by unfold emitFlit; split <;> rfl
@[simp] theorem emitFlit_intake (m : Mach) (p : Nat) (f : BitVec 256) : (emitFlit m p f).intake = m.intake := by unfold emitFlit; split <;> rfl
@[simp] theorem emitFlit_align (m : Mach) (p : Nat) (f : BitVec 256) : (emitFlit m p f).align = m.align := by unfold emitFlit; split <;> rfl
@[simp] theorem emitFlit_isp (m : Mach) (p : Nat) (f : BitVec 256) : (emitFlit m p f).isp = m.isp := by unfold emitFlit; split <;> rfl
@[simp] theorem emitFlit_chaff (m : Mach) (p : Nat) (f : BitVec 256) : (emitFlit m p f).chaff = m.chaff := by unfold emitFlit; split <;> rfl
@[simp] theorem emitFlit_fab (m : Mach) (p : Nat) (f : BitVec 256) : (emitFlit m p f).fab = m.fab := by unfold emitFlit; split <;> rfl
@[simp] theorem emitFlit_eject (m : Mach) (p : Nat) (f : BitVec 256) : (emitFlit m p f).eject = m.eject := by unfold emitFlit; split <;> rfl
@[simp] theorem emitFlit_flash (m : Mach) (p : Nat) (f : BitVec 256) : (emitFlit m p f).flash = m.flash := by unfold emitFlit; split <;> rfl
@[simp] theorem emitFlit_glume (m : Mach) (p : Nat) (f : BitVec 256) : (emitFlit m p f).glume = m.glume := by unfold emitFlit; split <;> rfl
@[simp] theorem emitFlit_power (m : Mach) (p : Nat) (f : BitVec 256) : (emitFlit m p f).power = m.power := by unfold emitFlit; split <;> rfl
@[simp] theorem emitFlit_host (m : Mach) (p : Nat) (f : BitVec 256) : (emitFlit m p f).host = m.host := by unfold emitFlit; split <;> rfl
@[simp] theorem emitFlit_draws (m : Mach) (p : Nat) (f : BitVec 256) : (emitFlit m p f).draws = m.draws := by unfold emitFlit; split <;> rfl

@[simp] theorem sendLctl_regs (m : Mach) (p flags pm : Nat) : (sendLctl m p flags pm).regs = m.regs := emitFlit_regs m p _
@[simp] theorem sendLctl_ctl (m : Mach) (p flags pm : Nat) : (sendLctl m p flags pm).ctl = m.ctl := emitFlit_ctl m p _
@[simp] theorem sendLctl_fuses (m : Mach) (p flags pm : Nat) : (sendLctl m p flags pm).fuses = m.fuses := emitFlit_fuses m p _
@[simp] theorem sendLctl_nor (m : Mach) (p flags pm : Nat) : (sendLctl m p flags pm).nor = m.nor := emitFlit_nor m p _
@[simp] theorem sendLctl_cfg (m : Mach) (p flags pm : Nat) : (sendLctl m p flags pm).cfg = m.cfg := emitFlit_cfg m p _
@[simp] theorem sendLctl_time (m : Mach) (p flags pm : Nat) : (sendLctl m p flags pm).time = m.time := emitFlit_time m p _
@[simp] theorem sendLctl_enc (m : Mach) (p flags pm : Nat) : (sendLctl m p flags pm).enc = m.enc := emitFlit_enc m p _
@[simp] theorem sendLctl_trig (m : Mach) (p flags pm : Nat) : (sendLctl m p flags pm).trig = m.trig := emitFlit_trig m p _
@[simp] theorem sendLctl_wins (m : Mach) (p flags pm : Nat) : (sendLctl m p flags pm).wins = m.wins := emitFlit_wins m p _
@[simp] theorem sendLctl_intake (m : Mach) (p flags pm : Nat) : (sendLctl m p flags pm).intake = m.intake := emitFlit_intake m p _
@[simp] theorem sendLctl_align (m : Mach) (p flags pm : Nat) : (sendLctl m p flags pm).align = m.align := emitFlit_align m p _
@[simp] theorem sendLctl_isp (m : Mach) (p flags pm : Nat) : (sendLctl m p flags pm).isp = m.isp := emitFlit_isp m p _
@[simp] theorem sendLctl_chaff (m : Mach) (p flags pm : Nat) : (sendLctl m p flags pm).chaff = m.chaff := emitFlit_chaff m p _
@[simp] theorem sendLctl_fab (m : Mach) (p flags pm : Nat) : (sendLctl m p flags pm).fab = m.fab := emitFlit_fab m p _
@[simp] theorem sendLctl_eject (m : Mach) (p flags pm : Nat) : (sendLctl m p flags pm).eject = m.eject := emitFlit_eject m p _
@[simp] theorem sendLctl_flash (m : Mach) (p flags pm : Nat) : (sendLctl m p flags pm).flash = m.flash := emitFlit_flash m p _
@[simp] theorem sendLctl_glume (m : Mach) (p flags pm : Nat) : (sendLctl m p flags pm).glume = m.glume := emitFlit_glume m p _
@[simp] theorem sendLctl_power (m : Mach) (p flags pm : Nat) : (sendLctl m p flags pm).power = m.power := emitFlit_power m p _
@[simp] theorem sendLctl_host (m : Mach) (p flags pm : Nat) : (sendLctl m p flags pm).host = m.host := emitFlit_host m p _
@[simp] theorem sendLctl_draws (m : Mach) (p flags pm : Nat) : (sendLctl m p flags pm).draws = m.draws := emitFlit_draws m p _

/-- Sending a flit changes nothing of a port but a waiting injection. -/
theorem emitFlit_sheaf (m : Mach) (p : Nat) (f : BitVec 256) : (emitFlit m p f).sheaf = m.sheaf ∨
    (emitFlit m p f).sheaf = (setPort m p (fun s => { s with injNext := 0 })).sheaf := by
  unfold emitFlit; split <;> simp

/-- Training frames go out on every data lane, lane 0 first, and change nothing else. -/
theorem sendFrames_eq (m : Mach) (p : Nat) (more : Nat → Nat) : sendFrames m p more =
    { m with out := m.out ++ (List.range 4).map (fun lane => Output.train p lane (frameOf m p lane (more lane))) } := by
  simp only [sendFrames, forEach, List.range, List.range.loop, List.foldl, List.map, emit, List.append_assoc, List.cons_append, List.nil_append]
  rfl

@[simp] theorem sendFrames_regs (m : Mach) (p : Nat) (more : Nat → Nat) : (sendFrames m p more).regs = m.regs := by rw [sendFrames_eq]
@[simp] theorem sendFrames_ctl (m : Mach) (p : Nat) (more : Nat → Nat) : (sendFrames m p more).ctl = m.ctl := by rw [sendFrames_eq]
@[simp] theorem sendFrames_fuses (m : Mach) (p : Nat) (more : Nat → Nat) : (sendFrames m p more).fuses = m.fuses := by rw [sendFrames_eq]
@[simp] theorem sendFrames_nor (m : Mach) (p : Nat) (more : Nat → Nat) : (sendFrames m p more).nor = m.nor := by rw [sendFrames_eq]
@[simp] theorem sendFrames_cfg (m : Mach) (p : Nat) (more : Nat → Nat) : (sendFrames m p more).cfg = m.cfg := by rw [sendFrames_eq]
@[simp] theorem sendFrames_time (m : Mach) (p : Nat) (more : Nat → Nat) : (sendFrames m p more).time = m.time := by rw [sendFrames_eq]
@[simp] theorem sendFrames_enc (m : Mach) (p : Nat) (more : Nat → Nat) : (sendFrames m p more).enc = m.enc := by rw [sendFrames_eq]
@[simp] theorem sendFrames_trig (m : Mach) (p : Nat) (more : Nat → Nat) : (sendFrames m p more).trig = m.trig := by rw [sendFrames_eq]
@[simp] theorem sendFrames_sheaf (m : Mach) (p : Nat) (more : Nat → Nat) : (sendFrames m p more).sheaf = m.sheaf := by rw [sendFrames_eq]
@[simp] theorem sendFrames_wins (m : Mach) (p : Nat) (more : Nat → Nat) : (sendFrames m p more).wins = m.wins := by rw [sendFrames_eq]
@[simp] theorem sendFrames_intake (m : Mach) (p : Nat) (more : Nat → Nat) : (sendFrames m p more).intake = m.intake := by rw [sendFrames_eq]
@[simp] theorem sendFrames_align (m : Mach) (p : Nat) (more : Nat → Nat) : (sendFrames m p more).align = m.align := by rw [sendFrames_eq]
@[simp] theorem sendFrames_isp (m : Mach) (p : Nat) (more : Nat → Nat) : (sendFrames m p more).isp = m.isp := by rw [sendFrames_eq]
@[simp] theorem sendFrames_chaff (m : Mach) (p : Nat) (more : Nat → Nat) : (sendFrames m p more).chaff = m.chaff := by rw [sendFrames_eq]
@[simp] theorem sendFrames_fab (m : Mach) (p : Nat) (more : Nat → Nat) : (sendFrames m p more).fab = m.fab := by rw [sendFrames_eq]
@[simp] theorem sendFrames_eject (m : Mach) (p : Nat) (more : Nat → Nat) : (sendFrames m p more).eject = m.eject := by rw [sendFrames_eq]
@[simp] theorem sendFrames_flash (m : Mach) (p : Nat) (more : Nat → Nat) : (sendFrames m p more).flash = m.flash := by rw [sendFrames_eq]
@[simp] theorem sendFrames_glume (m : Mach) (p : Nat) (more : Nat → Nat) : (sendFrames m p more).glume = m.glume := by rw [sendFrames_eq]
@[simp] theorem sendFrames_power (m : Mach) (p : Nat) (more : Nat → Nat) : (sendFrames m p more).power = m.power := by rw [sendFrames_eq]
@[simp] theorem sendFrames_host (m : Mach) (p : Nat) (more : Nat → Nat) : (sendFrames m p more).host = m.host := by rw [sendFrames_eq]
@[simp] theorem sendFrames_draws (m : Mach) (p : Nat) (more : Nat → Nat) : (sendFrames m p more).draws = m.draws := by rw [sendFrames_eq]

end Sys2Proof.Machine
end

