-- ==== Sys2Proof/Laws/Shared.lean ====
section
/-!
SUPPORT. Laws/Shared.lean: what shared operations of the Sower, the queues, the flash and the resets can do, one lemma each, to be cited instead
of unfolding them.
-/

namespace Sys2Proof.Machine

/-- Sorting keeps the elements, each as often as it was there. -/
theorem insBy_perm {α : Type} (le : α → α → Bool) (x : α) (xs : List α) : (insBy le x xs).Perm (x :: xs) := by
  induction xs with
  | nil => exact .refl _
  | cons y ys ih =>
    unfold insBy
    split
    · exact .refl _
    · exact (ih.cons y).trans (.swap x y ys)

theorem isort_perm {α : Type} (le : α → α → Bool) (xs : List α) : (isort le xs).Perm xs := by
  induction xs with
  | nil => exact .refl _
  | cons x xs ih => exact (insBy_perm le x _).trans (ih.cons x)

theorem seqSort_perm (cs : List Cmd) : (seqSort cs).Perm cs := isort_perm _ cs

/-- A pool gets no more lines than it asks for (R275). -/
theorem gapLines_length (rs : List (Nat × Nat)) (a top n : Nat) : (gapLines rs a top n).length ≤ n := by
  induction rs generalizing a n with
  | nil => simp [gapLines]
  | cons r rs ih =>
    have := ih (max a (r.1 + r.2)) (n - min n (r.1 - a))
    simp only [gapLines, List.length_append, List.length_map, List.length_range]
    omega

theorem newLines_length (taken : List (Nat × Nat)) (top n : Nat) : (newLines taken top n).length ≤ n := by
  unfold newLines
  split
  · simp
  · exact gapLines_length _ _ _ _

/-- What a pool keeps is its own (R276). -/
theorem keepLines_subset (m : Mach) (t c sp n : Nat) : ∀ l ∈ keepLines m t c sp n, l ∈ poolOf m t c sp := by
  intro l h
  simp only [keepLines] at h
  split at h
  · exact h
  · have h := List.mem_of_mem_take h
    simp only [List.mem_append, List.mem_filter] at h
    exact h.elim And.left And.left

/-- Staging lines taken are one for each line asked for, in order, and each a free one of its space (R275, R276). -/
theorem takeLines_spec (ks : List (Nat × Nat)) (g h : List Nat) (xs : List (Nat × Nat × Nat)) (e : takeLines ks g h = some xs) :
    xs.map (fun x => (x.1, x.2.1)) = ks ∧ ∀ x ∈ xs, if x.1 = 1 then x.2.2 ∈ h else x.2.2 ∈ g := by
  induction ks generalizing g h xs with
  | nil =>
    cases e
    exact ⟨rfl, by simp⟩
  | cons k ks ih =>
    unfold takeLines at e
    split at e
    · next hk =>
      split at e
      · cases e
      · next f h' =>
        obtain ⟨ys, hy, rfl⟩ := Option.map_eq_some_iff.mp e
        obtain ⟨a, b⟩ := ih g h' ys hy
        refine ⟨by simp [a, ← hk], ?_⟩
        simp only [List.mem_cons, forall_eq_or_imp, if_true, true_or, true_and]
        intro x hx
        have := b x hx
        split at this
        · next e1 => simp [e1, this]
        · next e1 => simpa [e1] using this
    · next hk =>
      split at e
      · cases e
      · next f hf =>
        obtain ⟨ys, hy, rfl⟩ := Option.map_eq_some_iff.mp e
        obtain ⟨a, b⟩ := ih _ h ys hy
        refine ⟨by simp [a], ?_⟩
        simp only [List.mem_cons, forall_eq_or_imp, hk, if_false]
        refine ⟨List.mem_of_find?_eq_some hf, fun x hx => ?_⟩
        have := b x hx
        split at this
        · next e1 => simp [e1, this]
        · next e1 => simpa [e1] using (List.mem_filter.mp this).1

/-- A fold whose step leaves its start alone ends there. -/
theorem foldl_fixed {α β : Type} (f : α → β → α) (a : α) (xs : List β) (h : ∀ x, f a x = a) : xs.foldl f a = a := by
  induction xs with
  | nil => rfl
  | cons x xs ih => rw [List.foldl_cons, h, ih]

/-- A Tiller within its limits keeps all that it has in flight (R20). -/
theorem parkOver_fits (m : Mach) (t : Nat) (hb : beInflight m t ≤ 768) (ha : allInflight m t ≤ 1024) : parkOver m t = m :=
  foldl_fixed _ m _ (fun _ => if_pos (by simp [hb, ha]))

/-- With nothing that awaits flight nothing comes back. -/
theorem unpark_none (m : Mach) (h : ∀ x ∈ m.fab.ctxs, parked x.2 = []) : unpark m = m := by
  have e : m.fab.ctxs.flatMap (fun x => parked x.2) = [] := List.flatMap_eq_nil_iff.mpr h
  unfold unpark
  rw [e]
  rfl

/-- The start of a program, and a system entry, change the flash alone (R392, R395). -/
theorem startProg_eq (m : Mach) : ∃ w, startProg m = setFlash m (fun f => { f with inProg := w }) := by
  unfold startProg
  split
  · exact ⟨m.flash.inProg, rfl⟩
  · exact ⟨_, rfl⟩

theorem noteSystem_eq (m : Mach) :
    ∃ w, noteSystem m = setFlash m (fun f => { f with bufSys := f.bufSys + 1, inProg := w }) := by
  obtain ⟨w, h⟩ := startProg_eq (setFlash m (fun f => { f with bufSys := f.bufSys + 1 }))
  exact ⟨w, h⟩

/-- One program at a time (R395). -/
theorem startProg_busy (m : Mach) (h : m.flash.inProg.isSome = true) : startProg m = m := by
  simp [startProg, h]

/-- The newest 4,096 audit entries are not lost (R392). -/
theorem losable_newest (f : Flash) (q : Nat) (h : f.aseq ≤ q + 4096) : losable f true q = false := by
  simp [losable, h]

/-- Reads that come good lose nothing. -/
theorem loseRecords_nil (m : Mach) : loseRecords [] m = m := rfl

/-- No module reset runs without power-good (R50). -/
theorem moduleReset_off (cause : Nat) (m : Mach) (h : m.ctl.powerGood = false) : moduleReset cause m = m := by
  simp [moduleReset, h]

/-- Without an activation under way the clock carries none out (R411). -/
theorem activateDue_idle (m : Mach) (h : rd m F.GLM_UPD_STATUS_STATE 0 ≠ 4) : activateDue m = m := by
  simp [activateDue, h]

/-- A trim step that has to wait moves no register yet; with none held back, none is made later (R440). -/
theorem trimStep_held (m : Mach) (die : Nat) (d : Int) (h : trimWaits m die = true) : (trimStep m die d).regs = m.regs := by
  simp [trimStep, h]

theorem freeTrim_none (m : Mach) (die : Nat) (h : tget 0 m.power.trimHeld die = 0) : freeTrim m die = m := by
  simp [freeTrim, h]

end Sys2Proof.Machine
end

