-- ==== Sys2Proof/WellFormed.lean ====
section
/-!
DEFINITION. WellFormed.lean: the operands a command can carry: what an operand's Lean type leaves wider than the message, the register or
the bus it comes by. The meanings are total and do not ask for it.
-/

namespace Sys2Proof

/-- A local time whose nanoseconds lie below 10^9 (R84). -/
def LTime.wellFormed (t : LTime) : Bool := decide (t.ns.toNat < 1000000000)

/-- An Announce message's fields in their widths (R88; IEEE 1588-2019). -/
def Announce.wellFormed (a : Announce) : Bool :=
  decide (a.priority1 < 256 ∧ a.clockClass < 256 ∧ a.accuracy < 256 ∧ a.variance < 65536 ∧ a.priority2 < 256 ∧ a.steps < 65536)

/-- A check's source number (register table GEN_CHECK_LAST): 1 to 3, 6 and 7 fire; 4, Granary parity, and 8, HBM, are of stored data. Intake
SRAM, 5, no command reads. -/
def CheckIn.wellFormed (c : CheckIn) : Bool :=
  match c with
  | .pass => true
  | .fired source => decide (source ∈ [1, 2, 3, 6, 7])
  | .repeated source => decide (source ∈ [4, 8])
  | .badData source _ _ bin _ => decide (source ∈ [4, 8] ∧ bin < 64)

/-- Places of wrong bits rise and lie inside the stretch (R142). -/
def LaneRun.wellFormed (r : LaneRun) : Bool := decide (r.wrong.Pairwise (· < ·)) && r.wrong.all (fun w => decide (w < r.total))

/-- An aligned 32-bit access inside BAR0's 16 MiB (R4, R446). -/
def addrOk (a : Nat) : Bool := decide (a < 2 ^ 24 ∧ a % 4 = 0)

/-- The same, or one inside BAR2's 512 KiB, counted from 2^24 on (R331, R446; assumption 107). -/
def readOk (a : Nat) : Bool := addrOk a || decide (2 ^ 24 ≤ a ∧ a < 2 ^ 24 + 2 ^ 19 ∧ a % 4 = 0)

/-- Every operand lies in its range. A command of a queue is named by the queue and its SEQ, plus 2^32 times the queue's era (R336; assumption
122). -/
def Instr.wellFormed (i : Instr) : Bool :=
  match i with
  | .powerGood => true
  | .functionReady => true
  | .configurationRequest => true
  | .machineReadyEntry => true
  | .swathTick => true
  | .supplyExcursionStart => true
  | .supplyDip => true
  | .supplyFault => true
  | .powerGoodLost => true
  | .holdupExpiry => true
  | .moduleReset _ => true
  | .warmReset _ => true
  | .tillerPartialReset _ _ => true
  | .intakePortPartialReset _ _ => true
  | .sheafPortPartialReset _ _ => true
  | .awnPortPartialReset _ _ => true
  | .partialResetTakesEffect _ _ => true
  | .partialResetComplete _ _ => true
  | .itemReturnsToService _ _ => true
  | .stemWatchdogExpiry => true
  | .glumeIntegrityFailure => true
  | .debugHeaderReset => true
  | .pcieReset => true
  | .functionLevelReset => true
  | .powerManagementStateChange _ => true
  | .ptpSync h vlan corr origin => decide (h.domNum < 256) && vlan.all (· < 65536) && decide (-(2 ^ 63) ≤ corr ∧ corr < 2 ^ 63) && origin.all LTime.wellFormed
  | .ptpFollowUp h corr origin => decide (h.domNum < 256) && decide (-(2 ^ 63) ≤ corr ∧ corr < 2 ^ 63) && origin.wellFormed
  | .ptpAnnounce h msg => decide (h.domNum < 256) && msg.wellFormed
  | .delayReqTransmit _ => true
  | .ptpDelayResp h corr rx => decide (h.domNum < 256) && decide (-(2 ^ 63) ≤ corr ∧ corr < 2 ^ 63) && rx.wellFormed
  | .ptpPdelayReq h => decide (h.domNum < 256)
  | .ptpPdelayResp h corr t2 t3 => decide (h.domNum < 256) && decide (-(2 ^ 63) ≤ corr ∧ corr < 2 ^ 63) && t2.wellFormed && t3.wellFormed
  | .ptpUnsupportedMessage h => decide (h.domNum < 256)
  | .masterLost _ => true
  | .reqDomainWrite _ => true
  | .revertTimer => true
  | .slewEnd => true
  | .holdExpired => true
  | .timNowRead => true
  | .lowRegisterRead addr _ => readOk addr
  | .rcRegisterRead addr _ => readOk addr
  | .registerWrite addr _ _ => addrOk addr
  | .encoderEdge _ _ _ _ => true
  | .index _ _ => true
  | .tooth _ _ => true
  | .ssiReadStart _ _ => true
  | .ssiWord _ _ _ _ => true
  | .ssiTimeout _ => true
  | .lossOfSignal _ => true
  | .losClear _ => true
  | .standstill _ => true
  | .masterHoldoverExpired => true
  | .triggerIssue _ boundary => boundary.wellFormed
  | .partnerCkDetected _ => true
  | .trainingFrame _ _ _ _ => true
  | .trainFail _ => true
  | .trainBackoffEnd _ => true
  | .fastRetrainTimeout _ => true
  | .clkLoss _ => true
  | .deskewErr _ => true
  | .retrain _ => true
  | .lpReqL0 _ => true
  | .lpReqQuiet _ => true
  | .lpReqDeep _ => true
  | .quietIdleTimeout _ => true
  | .quietExit _ => true
  | .lowPowerEntry _ => true
  | .testWrite _ _ => true
  | .checkerEnable _ rx => decide (rx.length = 4)
  | .injOne _ => true
  | .patternWindowEnd _ runs => decide (runs.length = 4) && runs.all LaneRun.wellFormed
  | .flitReceived _ _ => true
  | .lctl _ _ => true
  | .replayTimeout _ => true
  | .linkDown _ => true
  | .remoteWrite _ => true
  | .wrRsp _ => true
  | .wrTimeout _ tag => decide (tag < 65536)
  | .windowOpen _ _ _ _ _ _ sizeKib => decide (0 < sizeKib)
  | .windowClose _ => true
  | .linePacket _ => true
  | .lineDeadline _ _ => true
  | .alignmentStart _ => true
  | .realignTakesEffect => true
  | .alignmentPassComplete => true
  | .alignmentTimeout => true
  | .prepareLine parity _ _ => parity.all (fun p => decide (p.2 < 4))
  | .ispDataWrite _ => true
  | .ispDataRead => true
  | .ispSwap => true
  | .ispSwapCheckComplete => true
  | .ispSwapTakesEffect => true
  | .ispCopyComplete => true
  | .probeArm _ => true
  | .probeCapture => true
  | .shadowLoad _ => true
  | .loadDone data => data.all (fun d => d.length % 4 == 0)
  | .chaffSwap => true
  | .chaffCopyComplete _ => true
  | .chaffSwapTakesEffect => true
  | .chaffRefillComplete => true
  | .chaffPeek _ => true
  | .doorbell off size _ => decide (off < 2 ^ 19 ∧ (size = 4 ∨ size = 8) ∧ off % size = 0)
  | .descriptorFetch queue _ => decide (queue < 65536)
  | .stepIssue _ _ _ _ _ => true
  | .conv queue seq chk => decide (queue < 65536) && decide (seq < 2 ^ 64) && chk.wellFormed
  | .gemm queue seq chk => decide (queue < 65536) && decide (seq < 2 ^ 64) && chk.wellFormed
  | .pool queue seq chk => decide (queue < 65536) && decide (seq < 2 ^ 64) && chk.wellFormed
  | .eltw queue seq chk => decide (queue < 65536) && decide (seq < 2 ^ 64) && chk.wellFormed
  | .argmax queue seq chk => decide (queue < 65536) && decide (seq < 2 ^ 64) && chk.wellFormed
  | .copy queue seq chk => decide (queue < 65536) && decide (seq < 2 ^ 64) && chk.wellFormed
  | .husk queue seq chk => decide (queue < 65536) && decide (seq < 2 ^ 64) && chk.wellFormed
  | .unhusk queue seq chk => decide (queue < 65536) && decide (seq < 2 ^ 64) && chk.wellFormed
  | .resize queue seq chk => decide (queue < 65536) && decide (seq < 2 ^ 64) && chk.wellFormed
  | .barrier queue seq => decide (queue < 65536) && decide (seq < 2 ^ 64)
  | .commit queue seq => decide (queue < 65536) && decide (seq < 2 ^ 64)
  | .commandComplete queue seq => decide (queue < 65536) && decide (seq < 2 ^ 64)
  | .refetchComplete queue seq _ => decide (queue < 65536) && decide (seq < 2 ^ 64)
  | .rachisFlitCrcFail _ _ _ _ => true
  | .replacementLoadsComplete _ => true
  | .placementTakesEffect => true
  | .selftestComplete _ _ => true
  | .injectDisarm _ => true
  | .injectResidueOnce _ => true
  | .injectResiduePersistent _ => true
  | .injectGranaryParity _ => true
  | .injectHbmCrc _ => true
  | .queueEnable => true
  | .queueDisable => true
  | .crCfgWrite _ => true
  | .crHeadWrite _ => true
  | .coalescingTimer ring => decide (ring < 4096)
  | .ringFetchFailure queue => decide (queue < 65536)
  | .completionWriteFailure ring => decide (ring < 4096)
  | .admitCtx _ => true
  | .load _ => true
  | .unload => true
  | .release => true
  | .setShare _ => true
  | .scrubComplete _ _ => true
  | .statisticsWindowEnd => true
  | .placementRecordRead => true
  | .fireSend _ => true
  | .fireDeadline _ => true
  | .fireIntervalEnd _ => true
  | .directOutputSwitch _ _ => true
  | .beacon => true
  | .awnStatus _ _ _ => true
  | .boardLost _ _ => true
  | .diSample samples _ => decide (samples.length = 24)
  | .fieldSupplyFault => true
  | .fieldSupplyRecovered => true
  | .outputCurrentLimit _ => true
  | .doHostSet _ => true
  | .nandProgramComplete _ => true
  | .blockRefresh _ _ _ _ => true
  | .retentionScan _ _ => true
  | .recordRead _ => true
  | .readDone _ _ => true
  | .restore _ => true
  | .restoreComplete => true
  | .getVersion => true
  | .getCapabilities => true
  | .negotiateAlgorithms => true
  | .getDigests => true
  | .getCertificate offset len => decide (offset < 65536 ∧ len < 65536)
  | .challenge nonce => decide (nonce.length = 32)
  | .getMeasurements idx nonce => decide (idx < 256) && decide (nonce.length = 32)
  | .keyExchange => true
  | .finish _ => true
  | .endSession _ => true
  | .spdmUnsupportedRequest code => decide (code < 256)
  | .stage _ _ => true
  | .stageComplete => true
  | .activate => true
  | .abort => true
  | .nonceRead => true
  | .takeOwnership _ => true
  | .transferAuth _ => true
  | .debugAuth _ => true
  | .returnAuth _ => true
  | .retireAuth _ => true
  | .fuseAuth _ => true
  | .debugGrantExpiry => true
  | .cryptoReset => true
  | .cryptoResetComplete => true
  | .standbyRequest => true
  | .dormantRequest _ => true
  | .wakeRequest => true
  | .standbyDrainStart => true
  | .drainComplete => true
  | .standbyEntryComplete => true
  | .dormantEntryComplete => true
  | .wakeComplete => true
  | .powerControlPeriod meas => decide (meas.activity.length = 8 ∧ meas.temps.length = 7 ∧ meas.tillerTemps.length = 8)
  | .tillerGate _ => true
  | .droop _ => true
  | .droopRelease _ => true
  | .pllRelockComplete _ => true
  | .trimRaise _ => true
  | .trimLower _ => true
  | .trimSave => true
  | .thermalWarn _ _ => true
  | .thermalLimit _ _ => true
  | .thermalQuar _ => true
  | .hbmThermal _ _ => true
  | .thermalTrip => true
  | .coolantHigh _ => true
  | .glean _ => true
  | .gleanDone _ => true
  | .pdelayReqTransmit _ => true
  | .perstDeassertion => true
  | .jtagInstruction _ => true
  | .uartStatusLine => true

end Sys2Proof
end

