-- ==== Sys2Proof/Tests/Slice0.lean ====
section
/-!
SUPPORT. Tests/Slice0.lean: checks of the model's own work: ill-formed operands that WellFormed refuses; worked figures of the spec; and, for
every statement that has hypotheses, a state and operands that meet them (`witness_<statement>`), each clause at a value of its own.
-/

set_option Elab.async false

open Sys2Proof Sys2Proof.Machine

namespace Sys2Proof.Tests

/-! ### Well-formedness: a term refused for each check, and the value beside it that is not -/

/-- A header in a domain number. -/
def dn (n : Nat) : PtpHead := { domNum := n }

theorem test_wf_domain : (Instr.ptpPdelayReq (dn 255)).wellFormed = true ∧ (Instr.ptpPdelayReq (dn 256)).wellFormed = false ∧
    (Instr.ptpSync (dn 256) none 0 none).wellFormed = false ∧ (Instr.ptpFollowUp (dn 256) 0 {}).wellFormed = false ∧ (Instr.ptpAnnounce (dn 256) {}).wellFormed = false ∧
    (Instr.ptpDelayResp (dn 256) 0 {}).wellFormed = false ∧ (Instr.ptpPdelayResp (dn 256) 0 {} {}).wellFormed = false ∧
    (Instr.ptpUnsupportedMessage (dn 256)).wellFormed = false := by decide

theorem test_wf_ptp : (Instr.ptpSync (dn 0) (some 65535) (2 ^ 63 - 1) (some { ns := 999999999 })).wellFormed = true ∧
    (Instr.ptpSync (dn 0) (some 65536) 0 none).wellFormed = false ∧ (Instr.ptpSync (dn 0) none (2 ^ 63) none).wellFormed = false ∧
    (Instr.ptpSync (dn 0) none 0 (some { ns := 1000000000 })).wellFormed = false ∧ (Instr.ptpFollowUp (dn 0) (-(2 ^ 63) - 1) {}).wellFormed = false ∧
    (Instr.ptpFollowUp (dn 0) 0 { ns := 1000000000 }).wellFormed = false ∧ (Instr.ptpDelayResp (dn 0) (2 ^ 63) {}).wellFormed = false ∧
    (Instr.ptpDelayResp (dn 0) 0 { ns := 1000000000 }).wellFormed = false ∧ (Instr.ptpPdelayResp (dn 0) (2 ^ 63) {} {}).wellFormed = false ∧
    (Instr.ptpPdelayResp (dn 0) 0 { ns := 1000000000 } {}).wellFormed = false ∧ (Instr.ptpPdelayResp (dn 0) 0 {} { ns := 1000000000 }).wellFormed = false := by decide

theorem test_wf_announce : (Instr.ptpAnnounce (dn 0) { priority1 := 255, variance := 65535 }).wellFormed = true ∧
    (Instr.ptpAnnounce (dn 0) { priority1 := 256 }).wellFormed = false ∧ (Instr.ptpAnnounce (dn 0) { clockClass := 256 }).wellFormed = false ∧
    (Instr.ptpAnnounce (dn 0) { accuracy := 256 }).wellFormed = false ∧ (Instr.ptpAnnounce (dn 0) { variance := 65536 }).wellFormed = false ∧
    (Instr.ptpAnnounce (dn 0) { priority2 := 256 }).wellFormed = false ∧ (Instr.ptpAnnounce (dn 0) { steps := 65536 }).wellFormed = false := by decide

theorem test_wf_address : (Instr.registerWrite 0xFFFFFC 15 0).wellFormed = true ∧ (Instr.registerWrite 0x1000000 15 0).wellFormed = false ∧
    (Instr.registerWrite 2 15 0).wellFormed = false ∧ (Instr.lowRegisterRead 1 15).wellFormed = false ∧ (Instr.rcRegisterRead 3 15).wellFormed = false := by decide

theorem test_wf_link : (Instr.triggerIssue 0 { ns := 999999999 }).wellFormed = true ∧ (Instr.triggerIssue 0 { ns := 1000000000 }).wellFormed = false ∧
    (Instr.patternWindowEnd 0 (List.replicate 4 { total := 2, wrong := [0, 1] })).wellFormed = true ∧
    (Instr.patternWindowEnd 0 (List.replicate 3 {})).wellFormed = false ∧ (Instr.patternWindowEnd 0 (List.replicate 4 { total := 1, wrong := [1] })).wellFormed = false ∧
    (Instr.patternWindowEnd 0 (List.replicate 4 { total := 2, wrong := [1, 0] })).wellFormed = false ∧
    (Instr.checkerEnable 0 [[], [], [], []]).wellFormed = true ∧ (Instr.checkerEnable 0 []).wellFormed = false ∧
    (Instr.lowRegisterRead 0x107FFFC 15).wellFormed = true ∧ (Instr.lowRegisterRead 0x1080000 15).wellFormed = false ∧
    (Instr.wrTimeout 0 65535).wellFormed = true ∧ (Instr.wrTimeout 0 65536).wellFormed = false ∧
    (Instr.windowOpen 0 0 0 false 0 0 1).wellFormed = true ∧ (Instr.windowOpen 0 0 0 false 0 0 0).wellFormed = false := by decide

theorem test_wf_data : (Instr.prepareLine [(0, 3)] 0 0).wellFormed = true ∧ (Instr.prepareLine [(0, 4)] 0 0).wellFormed = false ∧
    (Instr.loadDone (some [0, 0, 0, 0])).wellFormed = true ∧ (Instr.loadDone (some [0, 0, 0])).wellFormed = false ∧
    (Instr.diSample (List.replicate 24 {}) false).wellFormed = true ∧ (Instr.diSample [] false).wellFormed = false ∧
    (Instr.powerControlPeriod { activity := List.replicate 8 0, temps := List.replicate 7 0, tillerTemps := List.replicate 8 0 }).wellFormed = true ∧
    (Instr.powerControlPeriod { activity := List.replicate 7 0, temps := List.replicate 7 0, tillerTemps := List.replicate 8 0 }).wellFormed = false := by decide

theorem test_wf_queue : (Instr.doorbell 524280 8 0).wellFormed = true ∧ (Instr.doorbell 524288 4 0).wellFormed = false ∧ (Instr.doorbell 4 8 0).wellFormed = false ∧
    (Instr.doorbell 0 2 0).wellFormed = false ∧ (Instr.descriptorFetch 65535 none).wellFormed = true ∧ (Instr.descriptorFetch 65536 none).wellFormed = false ∧
    (Instr.ringFetchFailure 65536).wellFormed = false ∧ (Instr.coalescingTimer 4095).wellFormed = true ∧ (Instr.coalescingTimer 4096).wellFormed = false ∧
    (Instr.completionWriteFailure 4096).wellFormed = false := by decide

theorem test_wf_commands : (Instr.conv 65535 (2 ^ 64 - 1) (.fired 7)).wellFormed = true ∧ (Instr.conv 0 0 (.repeated 8)).wellFormed = true ∧ (Instr.conv 0 0 (.fired 8)).wellFormed = false ∧
    (∀ c ∈ ([.conv, .gemm, .pool, .eltw, .argmax, .copy, .husk, .unhusk, .resize] : List (Nat → Nat → CheckIn → Instr)),
      (c 65536 0 .pass).wellFormed = false ∧ (c 0 (2 ^ 64) .pass).wellFormed = false ∧ (c 0 0 (.fired 0)).wellFormed = false ∧
      (c 0 0 (.badData 9 true .weights 0 0)).wellFormed = false) ∧
    (∀ c ∈ ([.barrier, .commit, .commandComplete, fun q n => .refetchComplete q n none] : List (Nat → Nat → Instr)),
      (c 65536 0).wellFormed = false ∧ (c 0 (2 ^ 64)).wellFormed = false ∧ (c 65535 0).wellFormed = true) := by decide

theorem test_wf_spdm : (Instr.getCertificate 65535 65535).wellFormed = true ∧ (Instr.getCertificate 65536 0).wellFormed = false ∧
    (Instr.getCertificate 0 65536).wellFormed = false ∧ (Instr.challenge (List.replicate 32 0)).wellFormed = true ∧
    (Instr.challenge (List.replicate 31 0)).wellFormed = false ∧ (Instr.getMeasurements 256 (List.replicate 32 0)).wellFormed = false ∧
    (Instr.getMeasurements 255 []).wellFormed = false ∧ (Instr.spdmUnsupportedRequest 256).wellFormed = false := by decide

/-- The table gives its rows no bits: no word spells a command. -/
theorem test_decode_none : decodeTableWord 32 0 = none ∧ State.reset.withFetchWord 32 0 = State.reset := ⟨rfl, rfl⟩

/-! ### Small states -/

/-- A module in CONFIGURED whose registers the host may reach. -/
def ctl0 : Ctl := { st := .configured, prev := .booting, powerGood := true, fnReady := true, perstHigh := true, linkTraining := true
                    earlyApplied := true, timeApplied := true, cameraApplied := true, txDisable := false, runSlot := some .a }
def m0 : Mach := { ctl := ctl0, fuses := { life := .owned, ownerKeys := [77] } }
/-- The same in another state. -/
def inSt (x : ModState) : Mach := { m0 with ctl := { ctl0 with st := x } }
def mRun : Mach := inSt .running
def at_ (m : Mach) : State := { mach := m }

/-! ### Steps, and the domains of time -/

theorem witness_StepRunsTheFrontCommand : State.reset.pending = [] := by decide

theorem witness_EveryCommandAnswersANextState_other (code : Nat) : Instr.powerGood ≠ .jtagInstruction (.other code) := by
  intro h; cases h

theorem witness_EveryCommandAnswersANextState_full : alive m0 = true ∧ effLevel { m0 with glume := { granted := .full } } = .full ∧
    effLevel m0 ≠ .full := by decide

theorem witness_EveryStepKeepsLocalTimeInRange :
    TimeInRange (at_ { m0 with time := { now := { ns := 999999999 } } }) ∧
    ∃ t, step (at_ { m0 with time := { now := { ns := 999999999 } } }) = .next t := ⟨by unfold TimeInRange; decide, _, rfl⟩

theorem witness_EveryStepKeepsTheMemoriesCanonical :
    MemoriesWf (at_ { m0 with fab := { hbm := { mem := [⟨7, 1⟩] } } }) ∧
    ∃ t, step (at_ { m0 with fab := { hbm := { mem := [⟨7, 1⟩] } } }) = .next t := ⟨by unfold MemoriesWf; decide, _, rfl⟩

/-- TIME not applied, in BOOTING. -/
def mEarly : Mach := { m0 with ctl := { ctl0 with st := .booting, timeApplied := false, txDisable := true } }

theorem witness_PtpIsDiscardedUntilTimeIsApplied : mEarly.ctl.timeApplied = false ∧ mEarly.ctl.st ≠ .powering ∧ mEarly.ctl.st ≠ .dormant ∧
    Instr.ptpPdelayReq {} ∈ ([.ptpSync {} none 0 none, .ptpPdelayReq {}] : List Instr) := by decide

/-- Domain A enabled on ETH0, end to end, with a master; both stamps of a Delay_Req known. -/
def tcfg (p2p : Bool) : Image := { time := { domA := { enable := true, p2p := p2p, kp := 3, ki := 5 } } }
def dom1 : Domain := { st := .locked, master := some {}, delayKnown := true, delay := 9, measured := true, integ := 11
                       pendSync := some ({ ns := 500 }, 3), reqSent := some { ns := 400 }, lastSync := some (7, { ns := 300 }) }
def mTime (p2p : Bool) (x : Domain) : Mach := { m0 with cfg := tcfg p2p, time := { now := { ns := 600 }, domA := x, valid := true } }

theorem witness_SyncMeasuresTheOffset : let m := mTime false dom1
    m.ctl.timeApplied = true ∧ m.ctl.st ≠ .powering ∧ m.ctl.st ≠ .dormant ∧ domsOf m {} = [0] ∧ (domOf m 0).delayKnown = true ∧
    (domOf m 0).master.isSome = true ∧ (domOf m 0).pendSync = some ({ ns := 500 }, 3) := by decide

theorem witness_TwoStepSyncWaitsForItsFollowUp : let m := mTime false dom1
    m.ctl.timeApplied = true ∧ m.ctl.st ≠ .powering ∧ m.ctl.st ≠ .dormant ∧ domsOf m {} = [0] ∧ (domOf m 0).master.isSome = true := by decide

/-- The servo not clamped (e = 100) and clamped (e = OUTLIER_NS at the largest gain). -/
theorem witness_ServoIsProportionalIntegral : let m := { mTime false dom1 with ctl := { ctl0 with st := .running } }
    let e : Int := 100
    (domOf m 0).measured = true ∧ (domOf m 0).stepDue = false ∧ maySte m = false ∧ e = 100 + (domOf m 0).offset / 2 ^ 24 ∧
    e.natAbs ≤ m.cfg.time.outlierNs * 65536 ∧ (511 : Int) = (domOf m 0).integ + (domCfg m 0).ki * e ∧
    (-77311 : Int) = -((domCfg m 0).kp * e * 256 + 511) := by decide

theorem witness_ServoIsProportionalIntegral_clamp :
    let m := { mTime false dom1 with ctl := { ctl0 with st := .running }, cfg := { time := { domA := { enable := true, kp := 4294967295 } } } }
    let e : Int := 50000 * 65536
    (domOf m 0).measured = true ∧ (domOf m 0).stepDue = false ∧ maySte m = false ∧ e = 50000 * 65536 + (domOf m 0).offset / 2 ^ 24 ∧
    e.natAbs ≤ m.cfg.time.outlierNs * 65536 ∧ (11 : Int) = (domOf m 0).integ + (domCfg m 0).ki * e ∧
    -((domCfg m 0).kp * e * 256 + 11) < -(200000 * 2 ^ 32) := by decide

theorem witness_PtpRequestsAndResponses_e2e : let m := mTime false dom1
    m.ctl.timeApplied = true ∧ m.ctl.st ≠ .powering ∧ m.ctl.st ≠ .dormant ∧ domsOf m { eth := 1 } = [] ∧ domsOf m {} = [0] ∧
    (domCfg m 0).enable = true ∧ (domCfg m 0).p2p = false ∧ (domOf m 0).master.isSome = true ∧ (domOf m 0).reqSent = some { ns := 400 } ∧
    (domOf m 0).lastSync = some (7, { ns := 300 }) := by decide

theorem witness_PtpRequestsAndResponses_p2p : let m := mTime true dom1
    m.ctl.timeApplied = true ∧ m.ctl.st ≠ .powering ∧ m.ctl.st ≠ .dormant ∧ domsOf m {} = [0] ∧ (domCfg m 0).enable = true ∧
    (domCfg m 0).p2p = true ∧ (domOf m 0).master.isSome = true ∧ (domOf m 0).reqSent = some { ns := 400 } := by decide

theorem witness_PtpRequestsAndResponses_first : let m := mTime false { st := .listening }
    m.ctl.timeApplied = true ∧ m.ctl.st ≠ .powering ∧ m.ctl.st ≠ .dormant ∧ domsOf m {} = [0] ∧ (domOf m 0).foreign = [] ∧
    (domOf m 0).st = .listening := by decide

/-- Domain B locked too. -/
def mTwo : Mach := let m := mTime false dom1
  { m with time := { m.time with domB := { st := .locked, master := some {} } } }

theorem witness_DomainSwitchover_masterLost : (domOf mTwo 0).master = some {} ∧ (domOf mTwo 0).st = .locked ∧ 0 = active mTwo ∧
    1 ≠ active mTwo ∧ (domOf mTwo 1).st = .locked ∧ (domOf mTwo 1).master = some {} ∧ flag (wr mTwo F.TIM_CTRL_AUTO_SWITCH 0 1) F.TIM_CTRL_AUTO_SWITCH 0 = true ∧
    (domOf (mTime false dom1) 1).st ≠ .locked ∧ (domOf (mTime false { st := .acquiring, master := some {} }) 0).st = .acquiring := by decide

theorem witness_DomainSwitchover_request : HostMay mTwo ∧ (0#32).toNat % 2 = active mTwo ∧ (1#32).toNat % 2 ≠ active mTwo ∧
    (domOf mTwo ((1#32).toNat % 2)).st = .locked ∧ (domOf (mTime false dom1) ((1#32).toNat % 2)).st ≠ .locked := by unfold HostMay; decide

theorem witness_DomainSwitchover_revert : let m := wr (wr mTwo F.TIM_CTRL_REVERT 0 1) F.TIM_CTRL_REQ_DOMAIN 0 1
    flag m F.TIM_CTRL_REVERT 0 = true ∧ rd m F.TIM_CTRL_REQ_DOMAIN 0 ≠ active m ∧ (domOf m (rd m F.TIM_CTRL_REQ_DOMAIN 0)).st = .locked := by decide

theorem witness_DomainSwitchover_slew : let m := { mTime false { dom1 with offset := -(2 ^ 40) + 1 } with time := { slew := true, domA := { dom1 with offset := -(2 ^ 40) + 1 } } }
    m.time.slew = true ∧ (domOf m (active m)).offset.natAbs < 2 ^ 40 := by decide

theorem witness_DomainSwitchover_hold : let m : Mach := { mRun with cfg := { time := { required := true } }, time := { domA := { st := .holdover } } }
    timeHoldover m = true ∧ m.cfg.time.required = true ∧ ticking m = true ∧ ticking { m with ctl := ctl0 } = false := by decide

/-! ### Register accesses, resets and states -/

theorem witness_HostReadsLatchTheUpperParts : HostMay m0 ∧ tget none m0.host.hold 0xC0000 = none ∧ (0x8, 0xC) ∈ pairs ∧ (1 : BitVec 4) ≠ 0 ∧
    unpowered m0 0x8 = false ∧ unpowered (inSt .dormant) 0xC0000 = false := by unfold HostMay; decide

theorem witness_RcFieldsClearOnRead : HostMay m0 ∧ (15 : BitVec 4) ≠ 0 ∧ 0x34 % 4 = 0 ∧ unpowered m0 0x34 = false ∧
    (rowOf 0x34).any (fun r => accMask r .rc != 0) = true ∧ 0x34 ∉ [0xF0020, 0x124, 0x82110] := by unfold HostMay; decide

/-- GEN_PROG_SEL. -/
theorem witness_RegisterWritesFollowTheAccessTypes_rw : HostMay m0 ∧ 0x100 % 4 = 0 ∧ unpowered m0 0x100 = false ∧
    (rowOf 0x100).any (fun r => accMask r .w1c == 0 && rwMask r == 15) = true ∧ 0x100 ∉ [0x20004, 0x20008, 0x2000C, 0x20028, 0x2002C] ∧
    (∀ p ∈ pairs, p.1 ≠ 0x100 ∧ p.2 ≠ 0x100) ∧ (0x100 < 0x18000 ∨ 0x20000 ≤ 0x100) := by unfold HostMay; decide

/-- GEN_EVENT. -/
theorem witness_RegisterWritesFollowTheAccessTypes_w1c : HostMay m0 ∧ 0x24 % 4 = 0 ∧ unpowered m0 0x24 = false ∧
    (rowOf 0x24).any (fun r => accMask r .w1c != 0) = true ∧ 0x24 < 0x18000 := by unfold HostMay; decide

theorem witness_RegisterWritesFollowTheAccessTypes_none : HostMay m0 ∧ rowOf 0x2C = none ∧ msixWord m0 0x2C = none ∧ (rowOf 0x100).isSome = true ∧
    HostMay (inSt .dormant) ∧ unpowered (inSt .dormant) 0x20000 = true ∧ (7 : BitVec 4) ≠ 0 ∧ (7 : BitVec 4) ≠ 15 := by unfold HostMay; decide

theorem witness_PcieFunctionResetsAndPowerStates : alive m0 = true ∧ m0.ctl.linkTraining = true ∧ m0.ctl.fnReady = true ∧
    (Instr.functionLevelReset = .pcieReset ∨ (Instr.functionLevelReset = .functionLevelReset ∧ m0.ctl.fnReady = true)) := by decide

theorem witness_BoardInterfacesByDebugLevel : alive m0 = true ∧ effLevel m0 = .none ∧ effLevel { m0 with glume := { granted := .telemetry } } ≠ .none := by decide

theorem witness_GleanRecordIsSampledAndWritten : HostMay m0 ∧ (0x80000000#32).getLsbD 31 = true ∧ rd m0 F.GEN_GLEAN_CTRL_BUSY 0 = 0 ∧
    rd (wr m0 F.GEN_GLEAN_CTRL_BUSY 0 1) F.GEN_GLEAN_CTRL_BUSY 0 = 1 ∧ rd (wr m0 F.GEN_GLEAN_CTRL_BUSY 0 1) F.GEN_GLEAN_CTRL_PENDING 0 = 0 := by
  unfold HostMay; decide

theorem witness_EveryStateChangeIsInTheTable : OffIsOff (at_ m0) ∧ OffIsOff State.reset ∧ State.reset.pending = [] ∧
    (∃ t, exec .supplyFault (at_ m0) = .next t) ∧ ∃ t, step State.reset = .next t :=
  ⟨by unfold OffIsOff; decide, by unfold OffIsOff; decide, rfl, ⟨_, rfl⟩, _, rfl⟩

theorem witness_EveryStepKeepsOffOff : OffIsOff State.reset ∧ ∃ t, step State.reset = .next t := ⟨by unfold OffIsOff; decide, _, rfl⟩

theorem witness_SupplySupervision : let m := { m0 with ctl := { ctl0 with supplyOut := true } }
    m.ctl.powerGood = true ∧ m.ctl.supplyOut = true ∧ alive m = true ∧ m.ctl.st ≠ .fault ∧
    alive { m0 with ctl := { ctl0 with powerGood := false } } = true := by decide

theorem witness_PowerGoodBootsAValidSlot : State.reset.mach.ctl.st = .powering ∧ State.reset.mach.ctl.tripped = false ∧
    State.reset.mach.ctl.powerGood = false ∧ State.reset.mach.nor.slotA = none ∧ State.reset.mach.nor.slotB = none ∧
    State.reset.mach.fuses.life ≠ .retired ∧ State.reset.mach.fuses.unlogged = none ∧ State.reset.mach.glume.wiping = false ∧ m0.ctl.st ≠ .powering := by decide

/-- HOST_RESETS. -/
def mHostRst : Mach := { m0 with cfg := { head := headBytes 0 0 0 0 2 } }

theorem witness_ModuleAndWarmResets : let m := mHostRst
    HostMay m ∧ hostResets m = true ∧ m.ctl.st ≠ .fault ∧ hostResets m0 = false ∧ HostMay (inSt .fault) ∧ (inSt .fault).ctl.st = .fault ∧
    (0x5B : BitVec 8) ≠ 0x5A ∧ m.ctl.st = .configured ∧ alive m = true ∧ effLevel m ≠ .full ∧ effLevel { m with glume := { granted := .full } } = .full := by
  unfold HostMay; decide

/-- The second expiry 9.999999999 s after the first, and 10 s after. -/
theorem witness_ModuleAndWarmResets_watchdog : let e : LTime := { sec := 5 }
    nsOf { sec := 14, ns := 999999999 } < nsOf e + 10000000000 ∧ ¬ nsOf { sec := 15 } < nsOf e + 10000000000 := by decide

theorem witness_PartialResetsAreRequested : let m := { m0 with ctl := { ctl0 with resets := [{ kind := .tiller, item := 7, phase := .inReset }] } }
    HostMay m ∧ (7#4).toNat < 8 ∧ (15#4).toNat < 16 ∧ ¬ (8#4).toNat < 8 ∧ m.ctl.st ≠ .fault ∧ resetting m .tiller 7 = true ∧ resetting m .tiller 6 = false ∧
    m.ctl.st ≠ .dormant ∧ m.ctl.st ≠ .standby := by unfold HostMay; decide

/-- Port 2 a camera port in L0; an item of each kind in each phase. -/
def camCfg : Image := { machine := { s := 4, pitch := 256, freeRun := true, periodNs := 1000000 }
                        camera := { ports := [{}, {}, { mode := .camera, pixels := 8, bands := 1, mult := 2, fill := 2, fillConst := 9, minPeriod := 10, group := 1 }] } }
def mCam : Mach := { mRun with cfg := camCfg, sheaf := [(2, { phy := .l0 })], intake := [(2, { latencyPs := 100000, nextLatPs := 100000 })] }
def withReset (k : ItemKind) (n : Nat) (p : ResetPhase) (m : Mach) : Mach := { m with ctl := { m.ctl with resets := [{ kind := k, item := n, phase := p }] } }

theorem witness_PartialResetsTakeEffectAndComplete : phaseIs (withReset .tiller 7 .requested m0) .tiller 7 .requested = true ∧
    (tilOf m0 7).st ≠ .fusedOff ∧ phaseIs (withReset .sheaf 2 .requested mCam) .sheaf 2 .requested = true ∧ assigned mCam 2 = true ∧ (portOf mCam 2).phy ≠ .test ∧
    phaseIs (withReset .intake 2 .inReset mCam) .intake 2 .inReset = true ∧ linkBack mCam 2 = true ∧ noTick mCam = false ∧ noTick m0 = true ∧
    phaseIs (withReset .tiller 0 .inReset m0) .tiller 0 .inReset = true ∧ (tilOf m0 0).quar = false ∧ (tilOf m0 0).st = .reset ∧
    phaseIs (withReset .awn 7 .awaitTick m0) .awn 7 .awaitTick = true ∧
    (tilOf { withReset .tiller 0 .inReset m0 with fab := { tillers := [(0, { quar := true })] } } 0).quar = true := by decide

theorem witness_MachineReadyAndTheTick : readyConditions { m0 with cfg := camCfg, sheaf := mCam.sheaf } = true ∧ readyConditions mCam = false ∧
    ticking mCam = true ∧ mCam.ctl.align = false ∧ ¬ (mCam.ctl.drain = true ∧ mCam.ctl.drainLeft = 0) ∧ pipelineOn mCam = true ∧
    (inSt .machineReady).ctl.st = .machineReady ∧
    (let m := { mRun with enc := [(0, { started := true, held := some (5, {}, {}) })] }
     ticking m = true ∧ freeRun m = false ∧ (encOf m (master m)).held.isSome = true) := by decide

theorem witness_SelfTestReturnsOrHolds : let m := { withReset .tiller 0 .selfTest m0 with fab := { tillers := [(0, { quar := true, thermQuar := true, temp := 90 })] } }
    phaseIs m .tiller 0 .selfTest = true ∧ (tilOf m 0).inject.persistent = false ∧ (tilOf m 0).thermQuar = true ∧ (tilOf m 0).temp ≤ 90 ∧
    alive m = true ∧ tilLost m 1 = false := by decide

theorem witness_SelfTestReturnsOrHolds_last :
    let m := { withReset .tiller 0 .selfTest m0 with fab := { tillers := (List.range 8).map (fun t => (t, { quar := t == 0, st := .fusedOff })) } }
    phaseIs m .tiller 0 .selfTest = true ∧ alive m = true ∧ ∀ k : Fin 8, k = 0 ∨ tilLost m k = true := by decide

/-! ### Encoders and triggers -/

/-- Channel 0 started, in a mode. -/
def encMach (c : EncCfg) (e : EncCh) : Mach := { mRun with cfg := { early := { enc := [c] } }, time := { now := { ns := 1000 } }, enc := [(0, { e with started := true })] }

/-- An edge in the forward sequence, one in the reverse sequence, an illegal one; an index with A and B high. -/
theorem witness_QuadratureEdgesAndIndexes : let m := encMach { mode := 1, zmode := 2, refCount := 4000 } { lvA := true, lvB := true, count := 5 }
    let e := encOf m 0
    let forward : List (Bool × Bool × Bool × Bool) :=
      [(false, false, true, false), (true, false, true, true), (true, true, false, true), (false, true, false, false)]
    e.started = true ∧ (encCfg m 0).mode = 1 ∧ (e.lvA, e.lvB, false, true) ∈ forward ∧ (true, false, e.lvA, e.lvB) ∈ forward ∧
    (false ≠ e.lvA ∧ false ≠ e.lvB) ∧ e.lvA = true ∧ e.lvB = true ∧ (encCfg m 0).zmode = 2 ∧ e.lastRef = none ∧ (encCfg m 0).refCount ≠ 0 := by decide

theorem witness_QuadratureEdgesAndIndexes_later : let m := encMach { mode := 1, zmode := 1, refCount := 4000 } { lvA := true, lvB := true, count := 4001, lastRef := some 2 }
    let e := encOf m 0
    ¬ ((encCfg m 0).zmode = 2 ∧ e.lastRef = none) ∧ (encCfg m 0).zmode ≠ 0 ∧ e.lastRef = some 2 ∧
    (e.count - 2).toInt.natAbs ≠ (encCfg m 0).refCount ∧ (e.count - 1).toInt.natAbs = (encCfg m 0).refCount := by decide

/-- Teeth 200 ns apart: at 1.5 times the mean the next is the missing one's reference, just below it a plain tooth. -/
theorem witness_TeethCountByPitch : let e := fun (t : Nat) => ({ teeth := [{ ns := BitVec.ofNat 30 t }, { ns := 500 }, { ns := 300 }] } : EncCh)
    let m := encMach { mode := 2 } (e 700)
    let x := encMach { mode := 3 } (e 700)
    let gap := fine m.time.now - fine ({ ns := 700 } : LTime)
    let mean2 := fine ({ ns := 700 } : LTime) - fine ({ ns := 300 } : LTime)
    (encOf m 0).started = true ∧ (encOf m 0).teeth = [{ ns := 700 }, { ns := 500 }, { ns := 300 }] ∧ (encCfg m 0).mode = 2 ∧ 4 * gap ≥ 3 * mean2 ∧
    (encCfg x 0).mode = 3 ∧ 4 * gap > mean2 := by decide

theorem witness_TeethCountByPitch_other : let gap := fine ({ ns := 799 } : LTime) - fine ({ ns := 700 } : LTime)
    let mean2 := fine ({ ns := 700 } : LTime) - fine ({ ns := 300 } : LTime)
    4 * gap < 3 * mean2 ∧ 4 * gap ≤ mean2 := by decide

/-- The largest BITS, 40, and a word of ones with its CRC; a word whose CRC is another. -/
theorem witness_SsiWordsMoveTheCount : let m := encMach { mode := 4, bits := 40, clk100k := 5 } { ssiRead := some {}, ssiPrev := some 7 }
    let e := encOf m 0
    let c := encCfg m 0
    let raw := (-1#40).toNat % 2 ^ c.bits
    e.started = true ∧ c.mode = 4 ∧ c.bits ≤ 40 ∧ e.ssiRead = some {} ∧ e.ssiPrev = some 7 ∧
    crc6 (msbBits c.bits raw ++ [false]) 0 = (31#6).toNat ∧ ¬ crc6 (msbBits c.bits raw ++ [true]) 0 = (31#6).toNat := by decide

theorem witness_SignalLossAndStandstill : let m := { encMach { mode := 1 } { los := true } with cfg := { early := { enc := [{ mode := 1 }] }, machine := { masterEnc := 0 } } }
    (encOf m 0).started = true ∧ (encCfg m 0).mode ≠ 0 ∧ (encCfg m 0).se24 = false ∧ (encOf m 0).los = true ∧ 0 = master m ∧ freeRun m = false ∧
    ticking m = true ∧ (encOf m 0).held = none := by decide

/-- Line 2 of port 2 of the free-running `mCam`: its issue time lies 31 UI after the boundary, and 32 UI. -/
theorem witness_TriggersLeaveAtTheirPosition : let m := setIp mCam 2 (fun i => { i with lineCount := 2 })
    let l := (ipOf m 2).lineCount.toNat
    let want : Int := 32768000000 - ((ipOf m 2).latencyPs * 65536 / 1000 : Nat)
    acquiring m = true ∧ portActive m 2 = true ∧ (ipOf m 2).inReset = false ∧ 0 ≤ linePos m 2 l ∧ l / max 1 (swathLen m 2) ≤ swathNow m + 1 ∧
    lineTime m 2 l = some 32768000000 ∧ fine { ns := 499899 } ≤ want ∧ want < fine { ns := 499899 } + 32 * 65536 / 28 ∧
    want ≥ fine { ns := 499898 } + 32 * 65536 / 28 ∧ (ipOf m 2).lastTrig = none ∧ (portOf m 2).phy = .l0 ∧ (portOf m0 2).phy ≠ .l0 := by decide

/-- A standing module gives no prediction. -/
theorem witness_TriggersLeaveAtTheirPosition_none :
    let m := { mCam with cfg := { camCfg with machine := { camCfg.machine with freeRun := false }, early := { enc := [{ mode := 1 }] } }, enc := [(0, { started := true, still := true })] }
    acquiring m = true ∧ portActive m 2 = true ∧ 0 ≤ linePos m 2 0 ∧ lineTime m 2 1 = none := by decide

/-! ### Sheaf -/

def phyMach (x : SheafPort) : Mach := { mCam with sheaf := [(2, x)] }

/-- A training frame of a camera on lane 3: EQ_DONE not set, ECHO set or not. -/
def frameBytes (flags : Nat) : BitVec 128 :=
  let n := 0x5AF0C30F * 2 ^ 80 + flags * 2 ^ 64 + 1 * 2 ^ 40 + 3 * 2 ^ 36
  BitVec.ofNat 128 (n * 65536 + crc468 ((leBytes 14 n).reverse))

theorem witness_SheafPortsTrain : (portOf (phyMach { phy := .detect }) 2).phy = .detect ∧ (portOf (phyMach { phy := .deep }) 2).phy = .deep ∧
    (portOf (phyMach { phy := .wake, fast := true }) 2).phy ∈ ([.clock, .frame, .eq, .measure, .wake] : List PhyState) ∧
    (portOf (phyMach { phy := .wake, fast := true }) 2).fast = true ∧ (portOf (phyMach { backoff := true }) 2).backoff = true := by decide

theorem witness_SheafPortsTrain_frames : let f := frameBytes 8
    frameGood f = true ∧ frameFits (phyMach {}) 2 3 f = true ∧ frameFits (phyMach {}) 2 2 f = false ∧ frameGood (f ^^^ 1) = false ∧
    f.getLsbD 83 = true ∧ f.getLsbD 80 = false ∧ f.getLsbD 82 = false ∧ (portOf (phyMach { phy := .measure }) 2).phy = .measure ∧
    holdWanted (phyMach {}) 2 = false ∧ holdWanted { phyMach {} with ctl := { ctl0 with cameraApplied := false } } 2 = true := by decide +kernel

theorem witness_SheafPortsRetrainAndSleep : let x : SheafPort := { phy := .l0 }
    let still := { phyMach x with ctl := ctl0 }
    HostMay still ∧ still.ctl.st ≠ .dormant ∧ (portOf still 2).phy = .l0 ∧ (portOf still 2).lpAcked ≠ some .deep ∧ (portOf still 2).replay = [] ∧
    ¬ (cameraPort still 2 = true ∧ ticking still = true) ∧ (cameraPort (phyMach x) 2 = true ∧ ticking (phyMach x) = true) ∧
    rd (wr still F.SHF_PHY_CTRL_QUIET_US 2 5) F.SHF_PHY_CTRL_QUIET_US 2 > 0 ∧ (portOf still 2).lpOut = none ∧ (portOf still 2).lpAcked = none ∧
    (portOf still 2).phy ≠ .off ∧ (portOf still 2).phy ≠ .test ∧ (portOf (phyMach { x with lpAcked := some .deep }) 2).lpAcked = some .deep := by
  unfold HostMay; decide

theorem witness_SheafPatternTest : let x := phyMach { phy := .test }
    let t := wr (wr x F.SHF_PAT_CTRL_CHK_EN 2 1) F.SHF_PAT_CTRL_WINDOW 2 1
    HostMay x ∧ x.ctl.st ≠ .dormant ∧ assigned x 2 = true ∧ x.ctl.st ≠ .configured ∧ assigned x 3 = false ∧ testSet (wr x F.SHF_PHY_CTRL_TEST 2 1) 2 = true ∧
    traceOn mCam = false ∧ traceOn { mCam with glume := { granted := .trace } } = true ∧ rd (wr mCam F.SHF_PAT_CTRL_INJ_LANES 2 15) F.SHF_PAT_CTRL_INJ_LANES 2 ≠ 0 ∧
    [0, 1, 2, 3].length = 4 ∧ (portOf t 2).phy = .test ∧ rd t F.SHF_PAT_CTRL_CHK_EN 2 = 1 ∧ rd t F.SHF_PAT_CTRL_WINDOW 2 > 0 := by unfold HostMay; decide

theorem witness_FlitsRoundTrip : 15 < 16 ∧ 4095 < 4096 ∧ (List.replicate 28 (0xFF : Byte)).length = 28 ∧
    flitCrcOk (mkFlit 15 4095 (List.replicate 28 0xFF)) = true := by decide +kernel

/-- A camera port: a LINE flit next in order, and one after a gap; a TRIG flit, which it does not accept; a peer port's WR_HDR. -/
theorem witness_FlitsAreTakenInOrder : let m := phyMach { phy := .l0 }
    let peer := { phyMach { phy := .l0 } with cfg := { camera := { ports := [{}, {}, { mode := .peer }] } } }
    let x := portOf m 2
    let line := mkFlit 3 0 []
    x.phy = .l0 ∧ flitCrcOk (line ^^^ 1) = false ∧ x.crcTimes.length < 63 ∧ flitCrcOk line = true ∧ typeRefused m 2 (flitType line) = false ∧
    typeRefused m 2 (flitType (mkFlit 2 0 [])) = true ∧ 2 ≤ flitType line ∧ flitLow line = x.rxAck + 1 ∧ flitLow (mkFlit 3 5 []) ≠ x.rxAck + 1 ∧
    x.scrubIdle = false ∧ flitType line = 3 ∧ typeRefused peer 2 (flitType (mkFlit 4 0 [])) = false ∧ flitType (mkFlit 4 0 []) = 4 := by decide +kernel

theorem witness_FlitsAreTakenInOrder_lctl : let f := mkFlit 1 0 (leBytes 1 8)
    let x : SheafPort := { phy := .l0, replay := [1], resends := [3] }
    flitCrcOk f = true ∧ flitType f = 1 ∧ ((flitPayload f).getD 0 0).toNat % 8 = 0 ∧ x.awaitAck = false ∧ x.lpPeer = none ∧ x.replay ≠ [] ∧ (∀ n ∈ x.resends, n < 4) ∧
    (∃ n ∈ ({ x with resends := [4] } : SheafPort).resends, 4 ≤ n) ∧ (portOf (phyMach { x with phy := .detect }) 2).phy ∉ ([.l0, .quiet, .deep] : List PhyState) := by decide +kernel

theorem witness_RemoteWritesLandWhole : let w : InWrite := { window := 4079, gen := 1, offset := 4090, length := 8, tag := 5, data := [1, 2, 3, 4, 5, 6, 7, 8] }
    let m := { phyMach { phy := .l0, rxWrites := [w, { w with result := 3 }], rxRsps := [leBytes 2 5], outWrites := [⟨9, 0, 1, 0, [], 0, 0, false, 0, false, none⟩] }
      with wins := [(4079, { isOpen := true, gen := 1, port := 2, baseKib := 8, sizeKib := 8 })] }
    let h := m.fab.hbm
    let ls := linesOf ((winOf m 4079).baseKib * 1024 + w.offset) w.data.length
    (portOf m 2).rxWrites = [w, { w with result := 3 }] ∧ ({ w with result := 3 } : InWrite).result ≠ 0 ∧ w.result = 0 ∧ w.window < 4080 ∧
    (winOf m 4079).granary = false ∧ (∀ l ∈ ls, ∀ k ∈ ls, physLine h l = physLine h k → l = k) ∧ linkOpen (portOf m 2) = true ∧
    0 < creditR (portOf m 2) ∧ (portOf m 2).waiting = [] ∧ (portOf m 2).rxRsps = [leBytes 2 5] ∧
    (∃ w ∈ (portOf m 2).outWrites, w.tag = 9 ∧ w.sent = false ∧ w.held = 0) := by decide

/-- A window opened 999 ns ago, and 1 µs ago. -/
theorem witness_WindowsOpenAndClose : m0.ctl.st ≠ .powering ∧ m0.ctl.st ≠ .dormant ∧ (winOf m0 4095).isOpen = false ∧ (winOf m0 0).openedAt = none ∧
    nsOf { ns := 999 } < nsOf ({} : LTime) + 1000 ∧ ¬ nsOf { ns := 1000 } < nsOf ({} : LTime) + 1000 ∧ (4079 : Fin 4096).val < 4080 ∧ 4080 ≤ (4080 : Fin 4096).val := by decide

/-! ### Intake, image pipeline, Chaff -/

/-- A line packet of port 2 of `mCam` (8 columns of 8 bits, one band): its flits, with the right CRC-32 or another. -/
def pktFlits (no count bandFlags : Nat) (good : Bool) : List (List Byte) :=
  let b := leBytes 1 0xA5 ++ leBytes 1 1 ++ leBytes 1 2 ++ leBytes 1 bandFlags ++ leBytes 4 no ++ leBytes 6 count ++ leBytes 2 8 ++ leBytes 8 0x0102030405060708
  [b ++ leBytes 4 (if good then crc32 b else crc32 b + 1)]
def pktMach (no count bandFlags : Nat) (good : Bool) (ln : Line) : Mach :=
  { mCam with sheaf := [(2, { phy := .l0, rxLine := pktFlits no count bandFlags good })], intake := [(2, { fill := [ln], recent := [3] })] }

theorem witness_LinePacketsFillTheSwath : let m := pktMach 4 10 0 true { lineNo := 4, count := 10 }
    let c := camOf m 2
    let fs := (portOf m 2).rxLine
    let b := (fs.take (packetFlits c)).flatten
    fs ≠ [] ∧ m.ctl.cameraApplied = true ∧ (portOf m 2).phy ≠ .hold ∧ cameraPort m 2 = true ∧ packetFlits c ≤ fs.length ∧ headerOk c 2 (fs.headD []) = true ∧
    (ipOf m 2).inReset = false ∧ (ipOf m 2).fill.find? (fun l => l.lineNo == BitVec.ofNat 32 (leAt b 4 4)) = some { lineNo := 4, count := 10 } ∧
    leAt b 8 6 = 10 ∧ (0 : BitVec 6).getLsbD (leAt b 3 1 % 8) = false ∧ crc32 (slice b 0 (16 + payloadBytes c)) = leAt b (16 + payloadBytes c) 4 ∧
    (leAt b 3 1).testBit 6 = false := by decide +kernel

/-- A wrong CRC; CAM_ERR; a line closed; one not sent; a COUNT of another line; a number of the swath before, and one never seen. -/
theorem witness_LinePacketsFillTheSwath_other : let c := camOf mCam 2
    let b := (pktFlits 4 10 0x40 false).flatten
    crc32 (slice b 0 (16 + payloadBytes c)) ≠ leAt b (16 + payloadBytes c) 4 ∧ (leAt b 3 1).testBit 6 = true ∧
    (pktMach 3 10 0 true { lineNo := 4 }).ctl.cameraApplied = true ∧ headerOk c 2 ((pktFlits 3 11 0 true).headD []) = true ∧
    headerOk c 2 ((pktFlits 3 11 1 true).headD []) = false ∧ (3 : BitVec 32) ∈ (ipOf (pktMach 3 10 0 true { lineNo := 4 }) 2).recent ∧
    (5 : BitVec 32) ∉ (ipOf (pktMach 3 10 0 true { lineNo := 4 }) 2).recent ∧ ({ lineNo := 4, sent := false } : Line).sent = false ∧
    leAt (pktFlits 4 11 0 true).flatten 8 6 ≠ ({ lineNo := 4, count := 10 } : Line).count.toNat ∧
    (portOf (phyMach { phy := .hold, rxLine := [[]] }) 2).phy = .hold := by decide +kernel

theorem witness_DeadlinesFillAndLinesArePrepared : let l : Line := { lineNo := 4, count := 10 }
    let m := { mCam with intake := [(2, { fill := [{ lineNo := 3, closed := true }, l] })] }
    (ipOf m 2).inReset = false ∧ (ipOf m 2).fill = [{ lineNo := 3, closed := true }] ++ l :: [] ∧
    (∀ x ∈ ([{ lineNo := 3, closed := true }] : List Line), x.closed = true) ∧ l.closed = false := by decide

/-- The last port served is 15: the search begins at port 0 and finds port 2. -/
theorem witness_DeadlinesFillAndLinesArePrepared_prepare : let ln : Line := { lineNo := 4, bands := [[1, 2, 3, 4, 5, 6, 7, 8]], closed := true }
    let m := { mCam with intake := [(2, { drain := [ln] })] }
    pipelineOn m = true ∧ (m.isp.lastPort + 1 + 2) % 16 = 2 ∧ (∀ k < 2, (ipOf m ((m.isp.lastPort + 1 + k) % 16)).drain = []) ∧
    (ipOf m 2).drain = ln :: [] ∧ m.chaff.badWords = [] := by decide

/-- Forty lines over the target of R183: sixteen dark, then bright with a stripe in columns 8 to 15. -/
def target : List Line := (List.range 40).map (fun k =>
  { lineNo := BitVec.ofNat 32 k, count := BitVec.ofNat 48 k
    bands := [if k < 16 then List.replicate 32 0 else List.replicate 8 255 ++ List.replicate 8 0 ++ List.replicate 16 255] })
def mAlign (passes : List (Tab PassRes)) (ls : List Line) : Mach :=
  { m0 with ctl := { ctl0 with align := true }
            cfg := { machine := { s := 4, pitch := 256 }, camera := { ports := [{}, {}, { mode := .camera, pixels := 32, bands := 1, mult := 2, group := 1 }] } }
            align := { passes := passes, lines := [(2, ls)] } }

theorem witness_AlignmentRunsAndEnds_start : HostMay m0 ∧ m0.ctl.align = false ∧ (1#32).getLsbD 0 = true ∧ m0.ctl.st = .configured ∧
    pipelineOn mRun = true ∧ (inSt .fault).ctl.st ∈ ([.standby, .dormant, .fault] : List ModState) ∧
    ({ mRun with ctl := { mRun.ctl with realignDue := true } } : Mach).ctl.realignDue = true := by unfold HostMay; decide

theorem witness_AlignmentRunsAndEnds_pass : let m := mAlign [] target
    m.ctl.align = true ∧ m.align.waiting = false ∧ (alignPorts m).map (fun p => (p, passOf m p)) = [(2, some (3968, 12))] ∧ m.align.passes.length < 2 ∧
    portActive (mAlign [] []) 2 = true ∧ passOf (mAlign [] []) 2 = none := by decide +kernel

/-- The third pass: results within 64/256 line and 1 column of the median, and one column more. -/
theorem witness_AlignmentRunsAndEnds_third : let m := mAlign [[(2, { lineOfs := 64, pixOfs := 1 })], [(2, {})]] target
    let c := passResults m [(2, 3968, 12)]
    c = [(2, { lineOfs := 0, pixOfs := 0 })] ∧ m.align.passes = [[(2, { lineOfs := 64, pixOfs := 1 })], [(2, {})]] ∧ alignPorts m = [2] ∧
    median3 64 0 0 = 0 ∧ median3 1 0 0 = 0 ∧ (64 - median3 64 0 0).natAbs ≤ 64 ∧ (1 - median3 1 0 0).natAbs ≤ 1 ∧ ¬ (2 - median3 2 0 0).natAbs ≤ 1 := by decide +kernel

/-- Port 2's area with one output channel, the identity gain and a legal scale in every channel; a camera port there. -/
def ispWords : Tab Word :=
  let w := fun (off v : Nat) => (2 * 0x40000 + off / 4, BitVec.ofNat 32 v)
  [w 0 0x1000, w 4 256] ++ (List.range 6).map (fun b => w (8 + 4 * b) 256)
def mIsp (x : ModState) : Mach := { mCam with ctl := { ctl0 with st := x }, cfg := { camCfg with isp := { hostWrite := true } }, isp := { set0 := ispWords, set1 := ispWords, checking := true } }

theorem witness_IspParametersAreWrittenCheckedAndSwapped : let m := mIsp .configured
    let a := wr m F.INT_ISP_ADDR_ADDR 0 0x80000
    HostMay m ∧ m.ctl.st ≠ .dormant ∧ ispHost m = true ∧ ispPending m = false ∧ ispCopying m = false ∧ ispField a (rd a F.INT_ISP_ADDR_ADDR 0) = true ∧
    ispField m (rd m F.INT_ISP_ADDR_ADDR 0) = false ∧ m.isp.checking = true ∧ setConsistent m (inactiveSet m) = true ∧ setShape m (inactiveSet m) = true ∧
    setConsistent mCam (inactiveSet mCam) = false ∧ (mIsp .running).ctl.st ≠ .configured ∧ (mIsp .running).ctl.st ≠ .standby ∧
    ispPending (wr mCam F.INT_ISP_STATUS_SWAP_PENDING 0 1) = true ∧ ticking mCam = true ∧ ispCopying (wr mCam F.INT_ISP_STATUS_COPYING 0 1) = true := by
  unfold HostMay; decide +kernel

theorem witness_ProbeArmsAndCaptures : let m := { mCam with glume := { granted := .trace }, intake := [(2, { drain := [{ bands := [[1, 2, 3, 4, 5, 6, 7, 8]] }] })], isp := { probe := some (2, 7) } }
    HostMay m ∧ m.ctl.st ≠ .dormant ∧ (0x120007#32).getLsbD 20 = true ∧ (0x20007#32).getLsbD 20 = false ∧ traceOn m = true ∧ confPresent m = false ∧ traceOn mCam = false ∧
    pipelineOn m = true ∧ m.isp.probe = some ((2 : Fin 16).val, 7) ∧ (ipOf m 2).drain ≠ [] ∧ 7 < (camOf m 2).pixels ∧ 0 ≤ (7 : Int) - pixOfs m 2 ∧
    (camOf m 2).pixels ≤ 8 := by unfold HostMay; decide

def mChf (state : Nat) : Mach := wr { mRun with cfg := { machine := { chaffWrite := true } } } F.CHF_STATUS_STATE 0 state

/-- The last pages, 4,094 and 4,095, and one page too many. -/
theorem witness_ChaffTableIsLoadedAndSwapped : HostMay (mChf 0) ∧ (mChf 0).ctl.st ≠ .dormant ∧ (0x80001FFE#32).getLsbD 31 = true ∧ chaffState (mChf 0) = 0 ∧
    rd (mChf 0) F.CHF_STATUS_LOAD_BUSY 0 = 0 ∧ chaffWrite (mChf 0) = true ∧ (0x80001FFE#32).toNat % 4096 + (0x80001FFE#32).toNat / 4096 % 4096 ≤ 4095 ∧
    ¬ (0x80002FFE#32).toNat % 4096 + (0x80002FFE#32).toNat / 4096 % 4096 ≤ 4095 ∧ chaffState (mChf 1) ≠ 0 ∧ chaffWrite mRun = false := by
  unfold HostMay; decide

theorem witness_ChaffTableIsLoadedAndSwapped_steps : let b := wr (mChf 0) F.CHF_STATUS_LOAD_BUSY 0 1
    rd b F.CHF_STATUS_LOAD_BUSY 0 = 1 ∧ (rd b F.CHF_LOAD_CTRL_COUNT 0 + 1) * 4096 = 4096 ∧ chaffState (mChf 1) = 1 ∧ (mChf 1).ctl.st ≠ .configured ∧
    (mChf 1).ctl.st ≠ .standby ∧ m0.ctl.st = .configured ∧ chaffState (mChf 2) = 2 ∧ ticking (mChf 2) = true ∧ chaffState (mChf 3) = 3 := by decide

theorem witness_ChaffTableIsLoadedAndSwapped_data : (List.replicate 4096 (1 : Byte)).length = 4096 := List.length_replicate

/-! ### Queues, commands, contexts -/

/-- A descriptor from its fields: place, bytes, value. -/
def descOf (l : List (Nat × Nat × Nat)) : BitVec 512 := l.foldl (fun d x => d ||| (BitVec.ofNat 512 (x.2.2 % 256 ^ x.2.1) <<< (8 * x.1))) 0
/-- Opcode, handles A, B, D, P and accumulator, then the rest. -/
def opOf (op a b d p acc : Nat) (l : List (Nat × Nat × Nat)) : BitVec 512 :=
  descOf ([(0, 1, op), (4, 4, op), (8, 1, a), (9, 1, b), (10, 1, d), (11, 1, p), (12, 1, acc)] ++ l)

/-- One small command of each opcode that uses a unit, 1 to 9 (R255 to R257, R281, R291, R300, R304); the GEMM writes an accumulator bin. -/
def nine : List (BitVec 512) :=
  [opOf 1 0 1 2 3 255 [(16, 2, 1), (18, 2, 1), (20, 2, 1), (22, 2, 1), (24, 1, 1), (25, 1, 1), (26, 1, 1), (27, 1, 1), (28, 1, 1), (29, 1, 1), (36, 2, 1), (38, 2, 1)],
    opOf 2 0 1 255 3 4 [(3, 1, 7), (16, 2, 1), (18, 2, 1), (20, 4, 4)],
    opOf 3 0 255 2 255 255 [(16, 2, 1), (18, 2, 1), (20, 2, 1), (22, 2, 1), (24, 1, 1), (25, 1, 1), (26, 1, 1), (27, 1, 1)],
    opOf 4 0 1 2 3 255 [(28, 4, 1), (48, 2, 1)],
    opOf 5 0 255 2 255 255 [(16, 2, 1), (18, 2, 1), (20, 2, 1), (22, 2, 1)],
    opOf 6 0 255 2 255 255 [(24, 4, 4), (28, 4, 1)],
    opOf 7 0 255 2 255 255 [(16, 2, 1), (18, 2, 1), (20, 2, 1), (22, 2, 256)],
    opOf 8 5 255 2 255 255 [(32, 4, 64)],
    opOf 9 0 255 2 255 255 [(16, 2, 1), (18, 2, 1), (20, 2, 1), (22, 2, 1), (24, 2, 1)]]

/-- The header of a Husk of `c` INT8 elements that are 0 (R278). -/
def huskBytes (c : Nat) : List Byte :=
  leBytes 4 0x4B535548 ++ leBytes 4 0 ++ leBytes 2 1 ++ leBytes 2 1 ++ leBytes 2 1 ++ leBytes 2 c ++ leBytes 4 ((c + 15) / 16 * 2) ++ leBytes 12 0

/-- Context 1 on Tiller 0: six bins of one line each, eight pool lines, queue 4396 with ring 256. -/
def qn : Nat := 4396
def gran : Store := initBytes false { owner := (List.range 6).map (fun l => (l, 1)) } 20480 (huskBytes 1)
def mFab (cs : List Cmd) : Mach :=
  { mRun with fab := {
      tillers := [(0, { st := .idle, granary := gran, pools := [(1, (List.range 8).map (· + 100))] })]
      bins := (List.range 6).map (fun h => (binIx 0 1 h, { valid := true, owner := 1, acc := h == 4, base := 4 * h, size := 4 }))
      inflight := cs
      queues := [(qn, { st := .enabled, log2Size := 4, pi := 3, ci := 2 })]
      rings := [(256, { enable := true, vector := 40, log2Size := 4 })]
      ctxs := [(1, { st := .loaded, share := 16, logical := 1, map := [0], workMap := [0] })] } }
def cmd (seq : Nat) (d : BitVec 512) : Cmd := { queue := qn, seq := seq, ctx := 1, tiller := 0, lc := false, raw := d, desc := d }

/-- Doorbells at the first and the last byte offset, at the ring's size and beyond it. -/
theorem witness_DoorbellsAndDescriptors_doorbell : let m := mFab []
    let x := queOf m qn
    m.ctl.fnReady = true ∧ qn * 8 % 8 = 0 ∧ qn * 8 + 8 ≤ 524288 ∧ 524280 + 8 ≤ 524288 ∧ m.ctl.st ∉ ([.booting, .powering, .fault] : List ModState) ∧
    m.ctl.d3hot = false ∧ x.st = .enabled ∧ x.lc = false ∧ qn * 8 / 8 / 4096 ≠ 0 ∧ (ctxOf m 1).st ∈ ([.admitted, .loaded] : List CtxState) ∧
    (18 - x.ci).toNat ≤ 2 ^ x.log2Size ∧ 2 ^ x.log2Size < (19 - x.ci).toNat ∧ (19 : BitVec 32) ≠ x.pi ∧ (queOf m 5000).st ≠ .enabled := by decide

theorem witness_DoorbellsAndDescriptors_fetch : let m := mFab []
    let s := { m with fab := { m.fab with ctxs := [(1, { st := .scrubbing })] } }
    let x := queOf m qn
    fabricOn m = true ∧ x.st = .enabled ∧ x.ci ≠ x.pi ∧ x.lc = false ∧ m.ctl.d3hot = false ∧ (ringOf m (queRing m qn)).enable = true ∧
    ringUsed (ringOf m (queRing m qn)) + queInflight m qn + 1 ≤ 2 ^ (ringOf m (queRing m qn)).log2Size ∧ cmdOf m qn x.ci.toNat = none ∧
    (ctxOf s 1).st = .scrubbing ∧ (ctxOf m (qn / 4096)).st ≠ .scrubbing ∧ (ctxOf m (qn / 4096)).workMap[x.ltiller]? = some 0 ∧ tilUp m 0 = true ∧
    beInflight m 0 < 768 ∧ allInflight m 0 < 1024 ∧ dTag (nine.getD 0 0) ∉ openTags m qn ∧ fieldsOk (mapDesc m 1 x.ltiller (nine.getD 0 0)) = true ∧
    dTag (nine.getD 0 0) ∈ openTags (mFab [cmd 1 (nine.getD 0 0)]) qn ∧ fieldsOk (descOf []) = false ∧ (binOf m 0 1 9).valid = false := by decide +kernel

/-- A tick program of one step, with its COMMIT; one batch for it. -/
def prog1 : Program := { tick := true, logical := 1, sched := [[{ count := 1, perBatch := true }]], cmds := [opOf 0x0B 255 255 255 255 255 []]
                         bins := [{ handle := 0, input := true, perBatch := true, rotate := 2, sizeKib := 4 }] }
def batch1 : Batch := { context := 1, filled := 1 }

theorem witness_ScheduleStepsAreIssued : let m0 := mFab []
    let m := { m0 with fab := { m0.fab with ctxs := [(1, { st := .loaded, share := 16, map := [0], workMap := [0], program := some prog1 })], batches := [batch1] } }
    let x := ctxOf m 1
    let st : SchedStep := { count := 1, perBatch := true }
    x.program = some prog1 ∧ x.workMap[0]? = some 0 ∧ (runSteps prog1 0)[0]? = some st ∧ (ltBatches m 1 prog1 0)[0]? = some batch1 ∧
    (batch1.filled ≠ 0 ∧ batch1.abandoned = 0) ∧ prog1.tick = true ∧ pipelineOn m = true ∧ m.fab.ctxRun ≠ some (1, 3) ∧ tilUp m 0 = true ∧
    stepKey 0 0 st batch1.no ∉ x.stepsIssued ∧ st.waitT = 255 ∧ peerReady m 1 prog1 st.peerWait = true ∧ allInflight m 0 + st.count ≤ 1024 := by decide +kernel

/-- What the nine stage over operands that are 0. -/
def nineOut : List (List (Nat × List Byte)) :=
  [[(0, [0])], [(2048, List.replicate 8 0)], [(0, [0])], [(0, [0])], [(0, [0, 0])], [(0, [0, 0, 0, 0])], [(0, huskBytes 256 ++ List.replicate 32 0)], [(0, [0])],
    [(0, [0])]]

theorem witness_CommandsRunOnTheirUnits : nine.map dOp = [1, 2, 3, 4, 5, 6, 7, 8, 9] ∧ ∀ x ∈ nine.zip nineOut,
    let d := x.1
    let c := cmd 0 d
    let m := mFab [c]
    let e := envOf m c
    let c' := { c with
      out := x.2, dst := if dOut d = 7 && usesAcc d then dBinAcc d else dBinD d }
    (compute d e).out = x.2 ∧ (compute d e).bad = false ∧
    cmdOf m qn 0 = some c ∧ fabricOn m = true ∧ c.phase = .fetched ∧ ready m c = true ∧ unitsFree m c = true ∧ chosen m c = true ∧
    genChanged m c = false ∧ deniedAccess m c = false ∧ (usesAcc d = true → (accCheck m c).isSome = true) ∧ noVersion m c = false ∧
    (∀ w ∈ x.2, foreignRange m c (c'.dst, w.1, w.2.length) = false) ∧
    (dOp d = 8 → huskReason d (fun i => e.rdr (dBinA d) (dBytes d 24 4 + i)) ((cmdBin m c (dBinA d)).size * 1024 - dBytes d 24 4)
      ((cmdBin m c (dBinD d)).size * 1024 - dBytes d 28 4) = 0) ∧
    deniedHusk m c true = false ∧ (takeStage m c').isSome = true ∧ (tilOf m 0).inject = {} := by decide +kernel

/-- A generation that changed; a line of another owner. -/
theorem witness_CommandsRunOnTheirUnits_refused : let c := { cmd 0 (nine.getD 5 0) with gens := [(0, 1)] }
    let m := mFab [c]
    let n := setTil (mFab [cmd 0 (nine.getD 5 0)]) 0 (fun t => { t with granary := { t.granary with owner := [(0, 2), (2, 1)] } })
    genChanged m c = true ∧ ready m c = true ∧ unitsFree m c = true ∧ chosen m c = true ∧
    genChanged n (cmd 0 (nine.getD 5 0)) = false ∧ deniedAccess n (cmd 0 (nine.getD 5 0)) = true := by decide +kernel

/-- The COPY of `nine` done, its four bytes staged; the COMMIT that follows it. -/
def copyDone : Cmd := { cmd 0 (nine.getD 5 0) with phase := .done, dst := 2, out := [(0, [1, 2, 3, 4])], taken := [(0, 2, 102)] }
def commit1 : Cmd := cmd 1 (opOf 0x0B 255 255 255 255 255 [])

theorem witness_CommandsCompleteAndCommit : let m := mFab [copyDone, commit1]
    let k := commit1
    let group := seqSort ((earlier m k).filter (fun c => decide (c.status < 0x10)))
    let pool := poolOf m k.tiller k.ctx 0
    let ws := group.flatMap (fun c => if c.dst ≠ noBin ∧ (cmdBin m c c.dst).space = 0 then
      c.out.map (fun w => ((cmdBin m c c.dst).base * 1024 + w.1, w.2)) else [])
    cmdOf m qn 1 = some k ∧ dOp k.desc = 0x0B ∧ k.phase = .fetched ∧ fabricOn m = true ∧ tilUp m k.tiller = true ∧ earlier m k = [copyDone] ∧
    (∀ x ∈ earlier m k, x.phase = .done ∧ genChanged m x = false ∧ (cmdBin m x x.dst).space ≤ 1) ∧ (∀ x ∈ m.fab.inflight, x.queue = qn → x.writesOut = 0) ∧
    (∀ x ∈ queueCmds m qn, x.tiller = k.tiller ∧ x.ctx = k.ctx) ∧ ws = [(8192, [1, 2, 3, 4])] ∧
    (∀ w ∈ ws, ∀ l ∈ linesOf w.1 w.2.length, l ∉ pool ∧ ∃ f ∈ pool, (0, l, f) ∈ (earlier m k).flatMap (fun c => c.taken)) ∧
    (earlier m k).flatMap (fun c => c.taken) = [(0, 2, 102)] ∧ (∀ y ∈ m.fab.ctxs, ∀ z ∈ parked y.2, z.queue ≠ qn) := by decide +kernel

theorem witness_CommandsCompleteAndCommit_map : ∀ l n : Nat, physLine gran l = physLine gran n → l = n := by
  intro l n h
  have e : gran.map = [] := by decide +kernel
  simpa [physLine, e, tget] using h

theorem witness_CommandsCompleteAndCommit_run : let b := cmd 1 (opOf 0x0A 255 255 255 255 255 [])
    let m := mFab [copyDone, b, { cmd 2 (nine.getD 0 0) with phase := .running }]
    cmdOf m qn 2 = some { cmd 2 (nine.getD 0 0) with phase := .running } ∧ cmdOf m qn 1 = some b ∧ dOp b.desc = 0x0A ∧ b.phase = .fetched ∧ fabricOn m = true ∧
    tilUp m b.tiller = true ∧ ∀ x ∈ earlier m b, x.phase = .done := by decide +kernel

theorem witness_ChecksRecoverAndPlacementsMove : let c := { cmd 0 (nine.getD 0 0) with phase := .held }
    let m := { mFab [c] with glume := { granted := .trace } }
    cmdOf m qn 0 = some c ∧ c.phase = .held ∧ 7 ∉ m.flash.retired ∧ rd m F.GEN_CHECK_SPARE_SPARE_PAGES 0 ≠ 0 ∧ alive m = true ∧ 2 < 3 ∧ 3 ≤ 3 ∧
    HostMay m ∧ m.ctl.st ≠ .dormant ∧ traceOn m = true ∧ confPresent m = false ∧ traceOn (mFab [c]) = false := by unfold HostMay; decide +kernel

theorem witness_ChecksRecoverAndPlacementsMove_place : let p : PendPlace := { maps := [(1, [2]), (2, [])], loaded := true }
    let m := { mFab [] with fab := { (mFab []).fab with pend := some p, ctxs := [(1, { st := .loaded, map := [0] }), (2, { st := .loaded, map := [1] })] } }
    m.fab.pend = some p ∧ (p.maps.map (fun x => x.1)).Nodup ∧ p.loaded = true ∧ ({ p with loaded := false } : PendPlace).loaded = false ∧ fabricOn m = true ∧
    (ctxOf m 1).map ≠ [2] ∧ (ctxOf m 2).map ≠ [] := by decide +kernel

theorem witness_QueuesAndRingsAreTheHosts : let m := wr (mFab []) F.QUE_Q_SEL_QUEUE 0 qn
    let q := selQueue m
    HostMay m ∧ m.ctl.st ≠ .dormant ∧ q / 4096 ≠ 0 ∧ (queOf m q).lc = false ∧ (ctxOf m (q / 4096)).st ≠ .sealed ∧ 4 ≤ (queOf m q).log2Size ∧
    (queOf m q).log2Size ≤ 16 ∧ selQueue (mFab []) / 4096 = 0 := by unfold HostMay; decide +kernel

/-- The largest ring, the smallest, and the sizes beside them; a head within the entries used, and past them. -/
theorem witness_QueuesAndRingsAreTheHosts_rings : let m := wr (mFab []) F.QUE_CR_SEL_CR 0 257
    let v : Word := BitVec.ofNat 32 (2 ^ 31 + 16 + 32 * 2 ^ 13)
    let g : Ring := { enable := true, coalUs := 1, tail := 2, unsig := 2 }
    rd m F.QUE_CR_SEL_CR 0 = 257 ∧ (ringOf m 257).enable = false ∧ 257 / 256 ≠ 0 ∧ 32 ≤ v.toNat / 2 ^ 13 % 2048 ∧ v.toNat % 32 ≤ 16 ∧ 4 ≤ 4 ∧
    ¬ 32 ≤ (BitVec.ofNat 32 (31 * 2 ^ 13)).toNat / 2 ^ 13 % 2048 ∧ 16 < (17#32).toNat % 32 ∧ (3#32).toNat % 32 < 4 ∧ (∀ x ∈ m.fab.queues, x.2.waiting = []) ∧
    ((2 : BitVec 17) - g.head).toNat ≤ ringUsed g ∧ ringUsed g < ((3 : BitVec 17) - g.head).toNat ∧ (256 * 2 ^ 20 + 2) / 2 ^ 20 / 256 ≠ 0 ∧
    g.enable = true ∧ g.coalUs ≠ 0 ∧ g.unsig ≠ 0 := by decide +kernel

def mCtx (x : Ctx) : Mach := wr (wr { mFab [] with fab := { (mFab []).fab with ctxs := [(1, x)], queues := [] } } F.QUE_CTX_SEL_CONTEXT 0 1) F.QUE_HOST_MASK_MASK 0 2

theorem witness_ContextsAreAdmittedLoadedAndReleased : let m := mCtx {}
    let v : Word := 0x00100100
    let c := selCtx m
    let m1 := setCtx m c (fun y => { ({} : Ctx) with st := .admitted, share := 16, logical := 1, scrubbed := y.scrubbed })
    HostMay m ∧ m.ctl.st ≠ .dormant ∧ c = 1 ∧ (ctxOf m c).st ≠ .sealed ∧ m.fab.ctxRun = none ∧ (rd m F.QUE_HOST_MASK_MASK 0).testBit c = true ∧
    v.toNat / 2 ^ 16 % 256 = 16 ∧ 1 ≤ v.toNat / 256 % 16 ∧ v.toNat / 256 % 16 ≤ 8 ∧ (ctxOf m c).st = .free ∧ v.getLsbD 3 = false ∧ m.fuses.confOnly = false ∧
    placeNew m1 c = some [0] ∧ selCtx m0 = 0 := by unfold HostMay; decide +kernel

/-- No Tiller is in service: the context does not fit. -/
theorem witness_ContextsAreAdmittedLoadedAndReleased_full : let m := { mCtx {} with fab := { (mCtx {}).fab with tillers := [] } }
    placeNew (setCtx m 1 (fun _ => { st := .admitted, share := 16, logical := 1 })) 1 = none := by decide +kernel

/-- A program that is no tick program: one step with its COMMIT, one bin. -/
def prog2 : Program := { logical := 1, sects := [(1, 256), (2, 288), (3, 352)], length := 368, sched := [[{ count := 1 }]]
                         cmds := [opOf 0x0B 255 255 255 255 255 []], bins := [{ handle := 0, sizeKib := 4 }], stageLines := 8 }

theorem witness_ContextsAreAdmittedLoadedAndReleased_load : let m := mCtx { st := .admitted, share := 16, logical := 1, map := [0], workMap := [0] }
    let d : LoadData := { program := prog2 }
    (ctxOf m 1).st = .admitted ∧ (ctxOf m 1).conf = false ∧ loadReason m 1 false d.program = 0 ∧ d.wrapped = false ∧
    loadReason m 1 false {} ≠ 0 ∧ placeNew (setCtx m 1 (fun y => { y with program := some d.program, logical := d.program.logical })) 1 = some [0] := by decide +kernel

theorem witness_ContextsAreAdmittedLoadedAndReleased_unload : let m := mCtx { st := .loaded, share := 16, logical := 1, map := [0], workMap := [0], program := some prog2 }
    (ctxOf m 1).st = .loaded ∧ (∀ k ∈ m.fab.inflight, k.ctx = 1 → k.phase = .done) ∧ (ctxOf m 1).st ≠ .admitted := by decide +kernel

theorem witness_ScrubsStatisticsAndRecords : let m := { mCtx { st := .scrubbing, conf := true, winSolo := (4, 1) } with glume := { scrubs := [1, 3] } }
    m.glume.scrubs.head? ≠ some 3 ∧ m.glume.scrubs = 1 :: [3] ∧ 1 ∉ [3] ∧ m.ctl.warmDue = false ∧ m.glume.returnDue = false ∧ fabricOn m = true ∧
    (ctxOf m 1).winSolo.1 ≠ 0 ∧ confPresent m = true ∧ HostMay m ∧ confPresent m0 = false ∧ 31 < 32 ∧ 32 ≤ 32 ∧ (ctxOf m 1).conf = true ∧
    (ctxOf m (rd m F.GEN_PROG_SEL_CONTEXT 0)).conf = false := by unfold HostMay; decide +kernel

/-! ### Eject, field I/O, records -/

/-- One interval, 100 µs from now, 50 µs long, on Awn port 7's last valve or on an output. -/
def fire1 (valve : Nat) : Fire := { id := 3, valve := valve, decs := [5], posOn := 0, posOff := 0, tOn := some (100000 * 65536), tOff := some (150000 * 65536) }
def mEj (f : Fire) : Mach := { mRun with eject := { fires := [f], decisions := [{ id := 5, obj := {} }], nextId := 6 }, cfg := { machine := { doMode := [1, 2] }, valve := { boardMask := [0, 1], minOnUs := 20 } } }

theorem witness_FireCommandsLeaveOrAreDropped : ∀ v ∈ [2047, 2048],
    let m := mEj (fire1 v)
    m.eject.fires.find? (fun f => f.id == 3) = some (fire1 v) ∧ (m.eject.fires.map (fun f => f.id)).Nodup ∧ pipelineOn m = true ∧ (fire1 v).sent = false ∧
    fireTimes m (fire1 v) = some (100000 * 65536, 150000 * 65536) ∧ inhibited m = false ∧ portInReset m v = false ∧
    fine m.time.now ≤ 100000 * 65536 - lead20 ∧ (∀ g ∈ m.eject.fires, g.id ≠ 3 → g.valve ≠ v) ∧ 0 < ((150000 * 65536 - 100000 * 65536 : Int) / 262144).toNat := by decide

/-- Inhibited; the port in reset; past the deadline with MIN_ON_US still to fit, to the last instant, and past it. -/
theorem witness_FireCommandsLeaveOrAreDropped_other : let m := mEj (fire1 0)
    let late := fun (ns : BitVec 30) => let now := fine { ns := ns }
      100000 * 65536 - lead20 ≤ now ∧ 150000 * 65536 - nsFine (m.cfg.valve.minOnUs * 1000) > now + lead20
    inhibited { m with cfg := { m.cfg with machine := { inhibitDi := 0 } } } = true ∧
    portInReset { m with eject := { m.eject with ports := [(0, { inReset := true })] } } 0 = true ∧ late 109999 ∧
    100000 * 65536 - lead20 ≤ fine { ns := 110000 } ∧ ¬ late 110000 := by decide

theorem witness_FireCommandsLeaveOrAreDropped_end : let f := { fire1 2048 with sent := true }
    let m := mEj f
    m.eject.fires.find? (fun f => f.id == 3) = some f ∧ f.sent = true ∧ pipelineOn m = true ∧ doMode m 0 = 1 ∧
    (∃ f ∈ m.eject.fires, f.valve = 2048 + 0 ∧ f.sent = true) ∧ doMode m 1 ≠ 1 := by decide

/-- A STATUS frame of board 0 of port 1. -/
def status1 (flags : Nat) : List Byte :=
  let d := [0x81, 0] ++ leBytes 1 flags ++ leBytes 5 7
  d ++ leBytes 2 (crc16 0x1021 0xFFFF d)

theorem witness_BoardsInputsAndOutputs : let m := mEj (fire1 0)
    let frame := status1 16
    pipelineOn m = true ∧ pipelineOn m0 = false ∧ (awnOf m 1).inReset = false ∧ frame.length = 10 ∧ leAt frame 0 1 = 0x81 ∧
    leAt frame 8 2 = crc16 0x1021 0xFFFF (frame.take 8) ∧ fitted m 1 (leAt frame 1 1) = true ∧ leAt frame 2 1 % 32 ≠ 0 ∧
    (tget {} (awnOf m 1).boards 0).sentNs = none ∧ (tget {} (awnOf m 1).boards 0).missed < 100 ∧ fitted m 1 1 = false ∧ alive m = true := by decide +kernel

theorem witness_BoardsInputsAndOutputs_lost : let m := { mEj (fire1 0) with eject := { ports := [(1, { boards := [(0, { missed := 100 })], polled := true, lastPoll := 0 }), (2, { inReset := true })] } }
    fitted m 1 0 = true ∧ 100 ≤ (tget {} (awnOf m 1).boards 0).missed ∧ (tget {} (awnOf m 1).boards 0).lost = false ∧ (awnOf m 1).polled = true ∧
    (awnOf m 2).inReset = true := by decide

/-- ON at exactly 11 V, OFF at 5 V with 0.5 mA and with no current; between them, and with a current of 0.3 mA, neither. DO1 follows a status. -/
theorem witness_BoardsInputsAndOutputs_io : let on : DiSample → Prop := fun d => 11000 ≤ d.mv
    let off : DiSample → Prop := fun d => d.mv ≤ 5000 ∧ (500 ≤ d.ua ∨ d.ua < 300)
    let m := { mEj (fire1 0) with cfg := { machine := { doMode := [0, 2] }, early := { wbEn := 1 } } }
    on ⟨11000, 0⟩ ∧ ¬ on ⟨10999, 0⟩ ∧ off ⟨5000, 500⟩ ∧ off ⟨5000, 299⟩ ∧ ¬ off ⟨5000, 300⟩ ∧ ¬ off ⟨5001, 500⟩ ∧ m.cfg.early.wbEn.getLsbD 0 = true ∧
    m.ctl.earlyApplied = true ∧ m.ctl.st ∉ ([.standby, .dormant] : List ModState) ∧ (doOn m).getLsbD 1 = true ∧ HostMay m ∧ m.ctl.st ≠ .dormant ∧
    alive m = true ∧ m.ctl.powerGood = true := by unfold HostMay; decide

theorem witness_HolesReadZero : HostMay m0 ∧ 0x2C % 4 = 0 ∧ rowOf 0x2C = none ∧ msixWord m0 0x2C = none ∧ (8 : BitVec 4) ≠ 0 := by unfold HostMay; decide

theorem witness_RecordsAreStoredReadAndRestored : let f : Flash := { bufAudit := [[1], [2]], backups := [{}] }
    let m := { mRun with flash := f }
    let r : Flash := { bufReject := [[3]] }
    flashPowered m = true ∧ 0 < ({ f with bufSys := 1 } : Flash).bufSys ∧ f.bufSys = 0 ∧ f.bufAudit = [1] :: [[2]] ∧ f.audit.length < auditRing ∧ r.bufSys = 0 ∧
    r.bufAudit = [] ∧ r.bufReject = [3] :: [] ∧ totalBytes (r.rejects ++ [[3]]) ≤ rejectBytes ∧ HostMay m ∧ (0x81000001#32).getLsbD 31 = true ∧
    m.flash.reading = none ∧ ({ f with reading := some ⟨true, 0, 1, 0⟩ } : Flash).reading ≠ none ∧ flashPowered (inSt .dormant) = false ∧ m.ctl.st ≠ .dormant ∧
    rd m F.GLM_UPD_STATUS_STATE 0 ≠ 1 ∧ rd m F.GLM_UPD_STATUS_STATE 0 ≠ 4 ∧ m.flash.restoring = none ∧ (0x80000000#32).toNat % 8 < m.flash.backups.length ∧
    ¬ (0x80000001#32).toNat % 8 < m.flash.backups.length ∧ ({ f with restoring := some (0, {}) } : Flash).restoring = some (0, {}) := by unfold HostMay; decide

/-- A block whose reads have come to 100,000, one that a scan flagged, and a free block to move them to. -/
def fRefresh : Flash := { reads := [(6, 100000)], scanFlags := [7], regionOf := [(6, 3), (7, 4)] }

theorem bestFree_some (f : Flash) (h : blockFree f 0 = true) : ∀ n, bestFree f (n + 1) ≠ none
  | 0 => by simp [bestFree, h]
  | n + 1 => by
    have := bestFree_some f h n
    rw [bestFree]
    split
    · contradiction
    · split <;> simp

theorem witness_RecordsAreStoredReadAndRestored_refresh : 100000 ≤ tget 0 fRefresh.reads 6 ∧ 7 ∈ fRefresh.scanFlags ∧ tget 0 fRefresh.regionOf 6 ≠ 0 ∧
    tget 0 fRefresh.regionOf 7 ≠ 0 ∧ (tkeys fRefresh.regionOf).Nodup ∧ bestFree fRefresh flashBlocks ≠ none :=
  ⟨by decide, by decide, by decide, by decide, by decide, bestFree_some fRefresh (by decide) 131071⟩

/-! ### Glume and power -/

theorem witness_SpdmIsAnsweredAndSessionsAreCounted : let g : Glume := { sessions := [{ id := 1 }, { id := 2, isOpen := true }, { id := 3 }], meas := [(2, 1, [5])] }
    let m := { m0 with glume := g }
    alive m = true ∧ m.ctl.fnReady = true ∧ g.cryptoBusy = false ∧ ({ g with cryptoBusy := true } : Glume).cryptoBusy = true ∧ g.sessions.length < 4 ∧
    4 ≤ (g.sessions ++ [({ id := 4 } : Session)]).length ∧ (∃ x ∈ g.sessions, x.id = 1 ∧ x.isOpen = false) ∧ (∃ x ∈ g.sessions, x.id = 2 ∧ x.isOpen = true) ∧
    (∀ x ∈ g.sessions, x.id ≠ 9) ∧ (∃ x ∈ g.meas, x.1 = 2) ∧ (∀ x ∈ g.meas, x.1 ≠ 3) ∧ 2 ≠ 0x30 ∧ 2 ≠ 0xFF := by decide

/-- A private key's public key. The signatures here come from an implementation of P-384 outside the model. -/
def ownerKey : List Byte := beBytes 96 0x283c1d7365ce4788f29f8ebf234edffead6fe997fbea5ffa2d58cc9dfa7b1c508b05526f55b9ebb2040f05b48fb6d0e19475c99061e41b88ba52efdb8c1690471a61d867ed799729d9c92cd01dbd225630d84ede32a78f9e64664cdac512ef8c
/-- An image that passes checks 1 to 6, under the owner key of `mOwn`: unsigned, and signed. -/
def goodImage0 : Image :=
  let sec := fun (t off len : Nat) => ({ type := t, offset := off, length := len } : SectEntry)
  { head := headBytes 10 0x1030000 0 0 0, ownerPub := ownerKey
    machine := { pitch := 256, freeRun := true, periodNs := 1000000 }
    table := List.map sectBytes [sec 1 0x2000 0x1000, sec 2 0x3000 0x1000, sec 3 0x4000 0x1000, sec 4 0x5000 0x1000, sec 5 0x6000 0x1000, sec 6 0x7000 0x1000,
      sec 7 0x8000 0x1000, sec 8 0x10000 16777216, sec 9 0x9000 0x1000, sec 11 0xA000 0x1000] }
def goodImage : Image :=
  let sig := beBytes 96
    0x138251cd52ac9298c1c8aad977321deb97e709bd0b4ca0aca55dc8ad51dcfc9d1589a1597e3a5120e1efd631c63e18353b7f40ed6aed4a539928d4ee57b858b7cf9140e562ef86aa40555b61851d7c6dcc72f8f0ae9856a01549b240b152bc98
  { goodImage0 with sig := sig }
def mOwn : Mach := { m0 with fuses := { life := .owned, ownerKeys := [sha384 ownerKey] } }

/-- Lengths of 1 and 7,936 pages, and one beside each. -/
theorem witness_UpdatesAndAuthorisations : HostMay m0 ∧ rd m0 F.GLM_UPD_STATUS_STATE 0 ≠ 1 ∧ m0.flash.restoring = none ∧ m0.ctl.st ≠ .dormant ∧
    m0.fuses.life ∉ ([.returned, .retired] : List Lifecycle) ∧ (1#32 <<< 8).toNat / 256 % 8192 = 1 ∧ (7936#32 <<< 8).toNat / 256 % 8192 = 7936 ∧
    ¬ 1 ≤ (0#32).toNat / 256 % 8192 ∧ ¬ (7937#32 <<< 8).toNat / 256 % 8192 ≤ 7936 ∧ m0.ctl.st ∈ ([.configured, .standby] : List ModState) ∧
    rd (wr m0 F.GLM_UPD_STATUS_STATE 0 2) F.GLM_UPD_STATUS_STATE 0 = 2 ∧ hostResets mHostRst = true ∧ hostResets m0 = false ∧
    rd (wr m0 F.GLM_UPD_STATUS_STATE 0 1) F.GLM_UPD_STATUS_STATE 0 = 1 ∧ stageCode mOwn.fuses (some goodImage) = 0 ∧ stageCode m0.fuses none ≠ 0 ∧
    ({ grantEnd := some {} } : Glume).grantEnd.isSome = true := by unfold HostMay; decide +kernel

/-- A module with a nonce drawn, in a lifecycle state; the authorisations that pass in it. -/
def mAuth (l : Lifecycle) : Mach := { m0 with
  fuses := { life := l, ownerKeys := if l = .blank then [] else [sha384 ownerKey], vendor := sha384 ownerKey }, glume := { nonce := some (5, {}) } }
def authSigs : List Nat :=
  [0xd5d89c3b5282369c5fbd88e2b231511a6b80dff0e5152cf6a464fa9428a8583bac8ebc773d157811a462b892401dafcf85805f59c016460f7bd27fa70e496a83cc2fa9866d921be0dc7560f1816b86494e0dde4bd3c2f4fca11e15f01b7db784,
    0x99056e27da7b998da1eeec2904816c57fe935ed5837c37456c9fd14892d3f8c4749b66e3afb81d626356f3b55b4ddd8cbe93343175714132bf66eab1328f5dc9bbaa062bd4fb37fc173f49b5c722ccdb65f248ce71abb664b85d270ee533416,
    0x952a7a349bd49289ab3ac421dcf683d08c2ed5e41f6d0e21648af2691a481406da4a5e22da817cb466da2ea77d2a70222abc0c52e6de9d1972879ca38ba7b0ea8d76fb4beeff5290f6fc698efe56c1b546825b8f5d8a20b30928abfd9ac39a0f,
    0xa567ba97b67aea5bafdaf5002ffcc6ab9632bff9f01f873f6267bcd1f0f11c139ee5f441abd99f1baaf1ca1e3b5cbce7c51f6a3fa128d65108aa3b7cb98a2bed50777be45c85ca2bfe24513da5901aed6531040153b33db7f9381cb8d8ac0e5d,
    0xe8c8f94d44fbc2396bbeac481b89d2b0877b1dffd23e7dc95de541eb651cca2c41aba24dbc02de6637209accf0f59ea04091be4aa6730eca8dea26256710915e8afe2e2d07b8a8c470f19d72fa69b96f3b30d788ad0d458e5c835e9f90340b20,
    0xb3d13fc8b32b01058cc15c11d813525522a94156fff01c205b21f9f7da7c4e9ca849557a10b6383b4b88701a9606860b01412f17473549096dd6135828fd312e1d6929644439ad42618cfca9a49eab8406214ab77dffed20992e4fc85971198b,
    0xd5d89c3b5282369c5fbd88e2b231511a6b80dff0e5152cf6a464fa9428a8583bac8ebc773d157811a462b892401dafcf6dbd851d81d931fbc3b03adc2b3c1110c1cb3b607dd9ccc9fbeb6ad7fa741e6b333b08f854ceca09a2f4d69f28d5422e]
def auth0 (op slot : Nat) (arg : List Byte) (ix : Nat) : Auth :=
  { op := op, keySlot := slot, nonce := 5, device := deviceHash {}, arg := arg, pub := ownerKey, sig := beBytes 96 (authSigs.getD ix 0) }
def auth1 (op : Nat) : Auth := auth0 op (if op = 1 then 0xFF else 0) (if op ≤ 2 then ownerKey else if op = 3 ∨ op = 6 then [1] else []) op

theorem witness_UpdatesAndAuthorisations_pass : authResult (mAuth .blank) (withOp 1 (some (auth1 1))) = 0 ∧
    (∀ op ∈ [2, 3, 4, 5, 6], authResult (mAuth .owned) (withOp op (some (auth1 op))) = 0) ∧
    authResult (mAuth .returned) (withOp 6 (some (auth0 6 0xFF [4, 1] 0))) = 0 := by decide +kernel

/-- Every check of R425 in its order; a nonce read 60 s ago still stands, and 1 ns later does not. -/
theorem witness_UpdatesAndAuthorisations_refused : let m := mAuth .owned
    let r := fun (b : Auth) => authResult m (withOp 3 (some b))
    r { auth1 3 with magic := 0 } = 1 ∧ r { auth1 3 with nonce := 6 } = 2 ∧ r { auth1 3 with device := 1 } = 3 ∧ r { auth1 3 with sig := [] } = 4 ∧
    authResult (mAuth .blank) (withOp 3 (some (auth1 3))) ≠ 0 ∧ authResult m none = 8 ∧
    nonceOk { m with time := { now := { sec := 60 } } } (auth1 3) = true ∧ nonceOk { m with time := { now := { sec := 60, ns := 1 } } } (auth1 3) = false := by decide +kernel

theorem witness_PowerRequestsAndStates : HostMay m0 ∧ alive m0 = true ∧ powerBusy m0 = false ∧ m0.fuses.life = .owned ∧ m0.ctl.st = .configured ∧ ticking mRun = true ∧
    confPresent m0 = false ∧ powerBusy { m0 with ctl := { ctl0 with powerReq := some .standby } } = true ∧ (mAuth .blank).fuses.life ≠ .owned ∧
    ¬ ((inSt .fault).ctl.st = .configured ∨ ticking (inSt .fault) = true) ∧ (inSt .fault).ctl.st ∉ ([.standby, .dormant] : List ModState) ∧
    (inSt .standby).ctl.st ∈ ([.standby, .dormant] : List ModState) := by unfold HostMay; decide

theorem witness_PowerRequestsAndStates_drain : let m := { mRun with ctl := { mRun.ctl with powerReq := some .standby } }
    let d := { m with ctl := { m.ctl with drain := true, drainLeft := 0 } }
    ticking m = true ∧ m.ctl.drain = false ∧ m.ctl.align = false ∧ wantsStandby m = true ∧ wantsStandby mRun = false ∧ d.ctl.drain = true ∧ d.ctl.drainLeft = 0 ∧
    ticking d = true ∧ d.ctl.powerReq = some .standby ∧ d.ctl.heldReqs = [] ∧ pipelineOn d = true := by decide

theorem witness_PowerRequestsAndStates_dormant : let m := { inSt .standby with ctl := { (inSt .standby).ctl with powerReq := some (.dormant true) } }
    let w := { inSt .dormant with ctl := { (inSt .dormant).ctl with waking := true } }
    m.ctl.st = .standby ∧ m.ctl.powerReq = some (.dormant true) ∧ m.glume.scrubs = [] ∧ confPresent m = false ∧ m.ctl.heldReqs = [] ∧ w.ctl.waking = true ∧
    w.ctl.st ∈ ([.standby, .dormant] : List ModState) ∧ w.ctl.heldReqs = [] := by decide

/-- Tiller 0 idle without LC work; with a tick program on it. -/
def mTil (x : Tiller) : Mach := { mRun with fab := { tillers := [(0, { x with st := .idle })] } }

theorem witness_PowerRequestsAndStates_gate : let m := mTil {}
    alive m = true ∧ (tilOf m 0).st = .idle ∧ lcTiller m 0 = false ∧ (∀ c ∈ m.fab.inflight, c.tiller = 0 → c.committed = true) ∧
    lcTiller { m with fab := { m.fab with ctxs := [(1, { map := [0], program := some prog1 })] } } 0 = true := by decide

theorem witness_ClocksTrimsAndTemperatures : let m := mTil {}
    let s := mTil { stretched := true, relock := some 2047, locked := true }
    clocked m 0 = true ∧ (tilOf m 0).stretched = false ∧ (tilOf s 0).stretched = true ∧ 2047 < 2048 ∧ (tilOf s 0).relock = some 2047 ∧ (tilOf s 0).locked = true ∧
    (tilOf (mTil { relock := some 400 }) 0).relock = some 400 ∧ (tilOf (mTil { relock := some 400 }) 0).locked = false ∧ fabricOn m = true ∧
    tilLost m 0 = false := by decide

/-- A trim at its top, at its bottom, and one step from each; 94, 95, 104 and 105 degrees; an HBM stack at 84 and 85. -/
theorem witness_ClocksTrimsAndTemperatures_trims : let t := fun (v : Int) => sext 8 (rd (wr m0 (trimFld 3) 0 (twos 8 v)) (trimFld 3) 0)
    alive m0 = true ∧ t 8 = 8 ∧ t 7 < 8 ∧ -12 < t (-11) ∧ t (-12) ≤ -12 ∧ trimWaits m0 0 = false ∧ trimWaits (mTil { relock := some 400 }) 0 = true ∧
    flashPowered m0 = true ∧ 95 ≤ (95 : BitVec 8).toNat ∧ (94 : BitVec 8).toNat < 95 ∧ 105 ≤ (105 : BitVec 8).toNat ∧ (104 : BitVec 8).toNat < 105 ∧
    (1 : Fin 4).val < 2 ∧ 2 ≤ (2 : Fin 4).val ∧ m0.ctl.st ≠ .dormant ∧ rd m0 F.PWR_EVENT_CAP_FLOOR 0 = 0 ∧ m0.power.mismatch = false ∧
    m0.power.mismPeriods < 999 := by decide

/-! ### Worked figures of the spec -/

/-- R468: the CRC-16 of the nine ASCII bytes "123456789". -/
theorem test_crc468 : crc468 [0x31, 0x32, 0x33, 0x34, 0x35, 0x36, 0x37, 0x38, 0x39] = 0x29B1 := by decide +kernel

/-- What a command computes over handles that hold these bytes. -/
def envOn (f : Nat → List Nat) : Env :=
  { rdr := fun h o => (f h).getD o 0, str := fun _ => 0, exact := true, fr := fun _ => 0, accIn := 0, accOut := 0 }
def outOn (d : BitVec 512) (f : Nat → List Nat) : List (Nat × List Byte) := (compute d (envOn f)).out
def le32 (n : Nat) : List Nat := (leBytes 4 n).map (·.toNat)

/-- 11_tillers, "An INT8 dot product and its requantisation": A, B and the record; byte 1 is RND_AWAY, byte 3 SCALE_MODE. -/
def dot (away mode : Nat) : BitVec 512 := opOf 2 0 1 2 3 255 [(1, 1, away), (3, 1, mode * 16), (16, 2, 1), (18, 2, 1), (20, 4, 4)]
def dotData (mult shift : Nat) (h : Nat) : List Nat :=
  if h = 0 then [0x64, 0xCE, 0x7F, 0x80] else if h = 1 then [0x03, 0x07, 0xFE, 0x05] else le32 1002 ++ le32 mult ++ [shift, 0, 0xFD, 0xFF, 0, 0x80, 0xFF, 0x7F]
theorem test_gemm_half_even : outOn (dot 0 0) (dotData 1 2) = [(0, [0x0B])] := by decide +kernel
theorem test_gemm_away : outOn (dot 1 0) (dotData 1 2) = [(0, [0x0C])] := by decide +kernel
theorem test_gemm_scale : outOn (dot 0 1) (dotData 0x3DCCCCCD 0) = [(0, [0x03])] := by decide +kernel

/-- 13_operators, "the pooling divisor": bit 1 of byte 33 is AVG's DIV_IN, bit 0 AVG. -/
def avg (away kind : Nat) : BitVec 512 := opOf 3 0 255 2 255 255 [(1, 1, away), (16, 2, 4), (18, 2, 4), (20, 2, 1), (22, 2, 1), (24, 1, 3), (25, 1, 3),
  (26, 1, 1), (27, 1, 1), (28, 4, 0x01010101), (33, 1, kind)]
def first (x : List (Nat × List Byte)) : Option Byte := x.head?.bind (fun w => w.2.head?)
theorem test_pool_divisor : [(0, 3), (1, 3), (0, 1)].map (fun x => first (outOn (avg x.1 x.2) (fun _ => [10, 20, 0, 0, 30, 38, 0, 0]))) =
    [some 0x18, some 0x19, some 0x0B] := by decide +kernel
theorem test_pool_max : first (outOn (avg 0 0) (fun _ => [246, 236, 0, 0, 226, 218, 0, 0])) = some 0xF6 := by decide +kernel

/-- 13_operators, "ties and NaN". -/
theorem test_argmax_ties : outOn (opOf 5 0 255 2 255 255 [(2, 1, 5), (16, 2, 1), (18, 2, 3), (20, 2, 6), (22, 2, 1)]) (fun _ =>
    [0x7E00, 0x4200, 0xFC00, 0x4200, 0, 0xC500, 0x7E00, 0x7E00, 0x7E00, 0x7E00, 0x7E00, 0x7E00, 0x8000, 0, 0xFC00, 0xFC00, 0xFC00, 0xFC00].flatMap
      (fun x => [x % 256, x / 256])) = [(0, [1, 0, 0xFF, 0xFF, 0, 0])] := by decide +kernel

/-- 13_operators, "dilation that leaves only the centre tap": output (2, 3). -/
theorem test_conv_dilation : ((outOn (opOf 1 0 1 2 3 255 [(16, 2, 5), (18, 2, 5), (20, 2, 4), (22, 2, 1), (24, 1, 3), (25, 1, 3), (26, 1, 1), (27, 1, 1), (28, 1, 8),
    (29, 1, 8), (30, 4, 0x08080808), (36, 2, 1), (38, 2, 1)])
    (fun h => if h = 0 then List.replicate 52 1 ++ [0x0A, 0x14, 0xFB, 0x07] else if h = 1 then List.replicate 16 0 ++ [0x02, 0xFF, 0x03, 0x00]
      else le32 100 ++ le32 1 ++ [1, 0, 0, 0, 0, 0x80, 0xFF, 0x7F])).map (fun w => w.2)).flatten[13]? = some 0x2A := by decide +kernel

/-- 13_operators, "a 9 × 9 filter, decomposed": its cycle figure. -/
theorem test_conv_cycles : convCycles (opOf 1 0 1 2 3 4 [(16, 2, 64), (18, 2, 64), (20, 2, 64), (22, 2, 64), (24, 1, 9), (25, 1, 9), (26, 1, 1), (27, 1, 1),
    (28, 1, 1), (29, 1, 1), (30, 4, 0x04040404), (36, 2, 1), (38, 2, 1)]) = 83328 := by decide +kernel

/-- 17_ejection, step 2: the FIRE entry of the four valves from 65 on, within the frame sent. -/
theorem test_fire_entry :
    leBytes 1 65 ++ leBytes 1 4 ++ leBytes 4 (awnTime (fine { sec := 1200, ns := 522500000 })) ++ leBytes 3 ((4000000 * 65536 : Nat) / 262144) =
      [0x41, 0x04, 0xE8, 0xE5, 0x2D, 0xE1, 0x40, 0x42, 0x0F] := by decide +kernel

/-- R22, R40, R79: POWERING, TX_DISABLE asserted, nothing waiting. -/
theorem test_reset_state : State.reset.mach.ctl.st = .powering ∧ State.reset.mach.ctl.txDisable = true ∧ State.reset.pending = [] := by decide

/-! ### Further clauses of the statements: a state for each of their conditions -/

/-- A state at a local time. -/
def atNs (sec ns : Nat) (m : Mach) : Mach := { m with time := { m.time with now := { sec := BitVec.ofNat 48 sec, ns := BitVec.ofNat 30 ns } } }

theorem witness_SyncMeasuresTheOffset_forms : let m := mTime false dom1
    fromMaster m 0 {} = true ∧ fromMaster m 0 { sender := 5 } = false ∧ domsOf m { sender := 5 } = [0] ∧
    (domOf (mTime false { dom1 with delayKnown := false }) 0).delayKnown = false ∧ (domOf (mTime false { dom1 with pendSync := none }) 0).pendSync = none := by decide

/-- An offset that is no outlier; one of STEP_NS on the active domain, and the other domain. -/
theorem witness_ServoIsProportionalIntegral_forms : let m := mTime false dom1
    isOutlier m (domOf m 0) 100 = false ∧ (100 : Int).natAbs ≤ m.cfg.time.stepNs * 65536 ∧ 0 = active m ∧ 1 ≠ active m := by decide

theorem witness_PtpRequestsAndResponses_forms : (domOf (mTime true { dom1 with master := none }) 0).master = none ∧
    (domOf (mTime false { dom1 with reqSent := none }) 0).reqSent = none ∧ (domOf (mTime false { dom1 with lastSync := none }) 0).lastSync = none ∧
    (domOf (mTime true { dom1 with eth := 1 }) 0).eth ≠ (0 : Fin 2).val ∧ (domOf (mTime true dom1) 0).eth = (0 : Fin 2).val ∧
    fromMaster (mTime false dom1) 0 {} = true ∧ fromMaster (mTime false dom1) 0 { eth := 0, sender := 5 } = false := by decide

/-- REVERT: domain B LOCKED for 10 s, and 1 ns less. The slew that has ended, and one that has not. -/
theorem witness_DomainSwitchover_forms : let m := fun (sec ns : Nat) => atNs sec ns (wr (wr { mTwo with time := { mTwo.time with domB := { mTwo.time.domB with lockedAt := some {} } } }
      F.TIM_CTRL_REVERT 0 1) F.TIM_CTRL_REQ_DOMAIN 0 1)
    let s : Mach := { mTime false dom1 with time := { slew := true, closing := true, domA := dom1 } }
    let h := fun (sec : Nat) => atNs sec 0 { mRun with cfg := { time := { required := true, holdS := 10 } }, time := { domA := { st := .holdover, heldAt := some {} } } }
    lockedFor (m 10 0) 1 (10 * 1000000000) = true ∧ lockedFor (m 9 999999999) 1 (10 * 1000000000) = false ∧
    s.time.slew = true ∧ s.time.closing = true ∧ s.time.rampLeft = 0 ∧ (domOf s (active s)).offset = 0 ∧
    ({ s.time with rampLeft := 1 } : TimeBase).rampLeft ≠ 0 ∧ timeHoldover (h 10) = true ∧ (domOf (h 10) (active (h 10))).heldAt = some {} ∧
    lessSince (h 10).time.now {} (10 * 1000000000) = false ∧ lessSince (h 9).time.now {} (10 * 1000000000) = true := by decide

/-- The first queue's doorbell, and the last one's. -/
theorem witness_HostReadsLatchTheUpperParts_forms : HostMay (inSt .configured) ∧ (inSt .configured).ctl.st ≠ .dormant ∧ (65535 : Fin 65536).val = 65535 ∧
    alive { m0 with ctl := { ctl0 with fnReady := false } } = true ∧ ({ ctl0 with d3hot := true } : Ctl).d3hot = true ∧ rowOf 0x2C = none ∧
    msixWord m0 0x2C = none ∧ 0xFFFFFC < 2 ^ 24 := by unfold HostMay; decide

/-- CHF_LOAD_ADDR_LO and its upper word: a pair that is written. -/
theorem witness_RegisterWritesFollowTheAccessTypes_pair : let p := (F.CHF_LOAD_ADDR_LO_ADDR_LO.base, F.CHF_LOAD_ADDR_HI_ADDR_HI.base)
    p ∈ pairs ∧ p.1 ∉ [0x20008, 0x20028] ∧ (rowOf p.1).any (fun lo => rwMask lo != 0 && accMask lo .w1c == 0) = true ∧
    (rowOf p.2).any (fun hi => rwMask hi != 0 && accMask hi .w1c == 0) = true ∧ unpowered m0 p.1 = false ∧ unpowered m0 p.2 = false :=
  ⟨by decide +kernel, by decide, by decide +kernel, by decide +kernel, by decide, by decide⟩

theorem witness_PcieFunctionResetsAndPowerStates_forms : ({ ctl0 with linkTraining := false } : Ctl).linkTraining = false ∧ m0.ctl.linkTraining = true ∧
    ({ ctl0 with fnReady := false } : Ctl).fnReady = false ∧ (∀ x ∈ m0.fab.queues, x.2.waiting = []) ∧ rd m0 F.GEN_GLEAN_CTRL_PENDING 0 = 0 := by decide

/-- A status line sent one second ago, and 1 ns later than that. -/
theorem witness_BoardInterfacesByDebugLevel_forms : lessSince { sec := 1 } ({} : LTime) 1000000000 = false ∧
    lessSince { ns := 999999999 } ({} : LTime) 1000000000 = true := by decide

theorem witness_GleanRecordIsSampledAndWritten_forms : (0#32).getLsbD 31 = false ∧
    rd (wr m0 F.GEN_GLEAN_CTRL_PENDING 0 1) F.GEN_GLEAN_CTRL_PENDING 0 = 1 ∧ ¬ HostMay { m0 with ctl := { ctl0 with d3hot := true } } := by unfold HostMay; decide

theorem witness_SupplySupervision_forms : m0.ctl.supplyOut = false ∧ alive m0 = true ∧ m0.ctl.st ≠ .fault ∧ rd (wr m0 F.FLS_HEALTH_STATE 0 3) F.FLS_HEALTH_STATE 0 = 3 ∧
    ({ ctl0 with powerGood := false } : Ctl).powerGood = false := by decide

/-- The watchdog 9.999999999 s after its last expiry, and 10 s after. -/
theorem witness_ModuleAndWarmResets_forms : lessSince { sec := 14, ns := 999999999 } ({ sec := 5 } : LTime) 10000000000 = true ∧
    lessSince { sec := 15 } ({ sec := 5 } : LTime) 10000000000 = false ∧ ({ ctl0 with warmDue := true } : Ctl).warmDue = true ∧ m0.ctl.warmDue = false ∧
    ({ ctl0 with lastWatchdog := some { sec := 5 } } : Ctl).lastWatchdog = some { sec := 5 } ∧ ticking mRun = true := by decide

theorem witness_PartialResetsAreRequested_forms : let m := inSt .standby
    HostMay m ∧ m.ctl.st = .standby ∧ m.ctl.warmDue = false ∧ resetting m .sheaf 2 = false ∧ (2#4).toNat < 16 ∧ (7#4).toNat < 8 ∧ (inSt .dormant).ctl.st = .dormant := by
  unfold HostMay; decide

/-- Due by the tick boundary, by the time (1 ms after), and by neither. No loss is due. -/
theorem witness_PartialResetsTakeEffectAndComplete_forms : let m := withReset .tiller 7 .requested m0
    let t := withReset .tiller 7 .requested { mCam with ctl := { mCam.ctl with tickCount := 1 } }
    let due := fun (m : Mach) => ∃ r ∈ m.ctl.resets, r.kind = .tiller ∧ r.item = 7 ∧ partialDue m r = true
    applyLosses (fresh t) = fresh t ∧ due t ∧ due (atNs 0 1000000 m) ∧ ¬ due (atNs 0 999999 m) ∧ applyLosses (fresh (atNs 0 999999 m)) = fresh (atNs 0 999999 m) ∧
    (∃ r ∈ (withReset .awn 1 .awaitTick t).ctl.resets, r.kind = .awn ∧ r.item = 1 ∧ r.phase = .awaitTick ∧ boundarySince (withReset .awn 1 .awaitTick t) r.tick = true) := by decide +kernel

/-- Free running with a period of 1 ms: due then, and 1 ns earlier not. A master held for HOLD_MS, and 1 ns less. -/
theorem witness_MachineReadyAndTheTick_forms : let m := { mRun with enc := [(0, { started := true, held := some (5, {}, {}), heldFrom := {} })] }
    let h := fun (ns : Nat) => atNs 0 ns { m with cfg := { m.cfg with machine := { m.cfg.machine with holdMs := 2 } } }
    tickDue (refresh (fresh (atNs 0 1000000 mCam))) = some { ns := 1000000 } ∧ tickDue (refresh (fresh (atNs 0 999999 mCam))) = none ∧
    ticking (h 0) = true ∧ freeRun (h 0) = false ∧ (encOf (refresh (fresh (h 2000000))) (master (h 2000000))).held.isSome = true ∧
    lessSince (h 2000000).time.now (encOf (refresh (fresh (h 2000000))) (master (h 2000000))).heldFrom 2000000 = false := by decide +kernel

/-- A self-test that began 2 ms ago, and 1 ns less. -/
theorem witness_SelfTestReturnsOrHolds_forms : testOver (atNs 0 2000000 (withReset .tiller 0 .selfTest m0)) 0 = true ∧
    testOver (atNs 0 1999999 (withReset .tiller 0 .selfTest m0)) 0 = false := by decide

theorem witness_QuadratureEdgesAndIndexes_forms : let m := encMach { mode := 1, zmode := 1, filt := 2 } { lvA := true }
    (encOf m 0).started = true ∧ (encCfg m 0).filt < 3 ∧ 2 ≤ (encCfg m 0).filt ∧ (encOf m 0).lvB = false ∧
    ¬ ((encCfg m 0).zmode = 2 ∧ (encOf m 0).lastRef = none) := by decide

theorem witness_TeethCountByPitch_forms : let m := encMach { mode := 3 } { teeth := [{ ns := 700 }, { ns := 500 }] }
    (encOf m 0).teeth.length < 3 ∧ (encCfg m 0).filt < 1 ∧ (encCfg m 0).mode = 3 ∧
    tdiff (shiftBy (-(((1 - 1) * 2 : Nat) : Int) * 2 ^ 40) { ns := 1000 }) { ns := 700 } = 300 * 65536 := by decide

/-- BITS 40 at 500 kHz: 47 clock periods and 20 µs are 114 µs. -/
theorem witness_SsiWordsMoveTheCount_forms : (40 + 7) * 10000 / max 1 5 + 20000 = 114000 ∧ lessSince { ns := 114000 } ({} : LTime) 114000 = false ∧
    lessSince { ns := 113999 } ({} : LTime) 114000 = true ∧ (encOf (encMach { mode := 5 } {}) 0).ssiRead = none := by decide

/-- STILL_MS 1. -/
theorem witness_SignalLossAndStandstill_forms : let m := fun (ns : Nat) => atNs 0 ns (encMach { mode := 1, stillMs := 1 } { last := some (7, {}) })
    (encOf (m 0) 0).last = some (7, {}) ∧ lessSince (m 999999).time.now {} (1 * 1000000) = true ∧ lessSince (m 1000000).time.now {} (1 * 1000000) = false ∧
    (encCfg (encMach { mode := 5, se24 := true } {}) 0).se24 = true ∧ (encOf (encMach { mode := 1 } {}) 0).los = false := by decide

/-- Line 2 at its flit boundary: spaced from a trigger 4 ns ago, free of one 899 ns ago; an injection that waits. -/
theorem witness_TriggersLeaveAtTheirPosition_forms : let m := atNs 0 499899 (setIp mCam 2 (fun i => { i with lineCount := 2 }))
    let now : LTime := { ns := 499899 }
    let want : Int := 32768000000 - ((ipOf m 2).latencyPs * 65536 / 1000 : Nat)
    let free := fun (x : LTime) => fineNear m.time.now x + ((camOf m 2).minPeriod * 10 * 65536 : Nat)
    atBoundary m now = true ∧ atBoundary m { ns := 499950 } = false ∧ lineTime m 2 2 = some 32768000000 ∧ want < free { ns := 499895 } ∧
    free { ns := 499895 } ≥ fineNear m.time.now now + 32 * 65536 / 28 ∧ free { ns := 499000 } ≤ want ∧ (ipOf m 2).spacing = none ∧
    injLanes (setPort m 2 (fun s => { s with injNext := 5 })) 2 (mkFlit 2 0 []) = 5 := by decide +kernel

/-- Frames: ECHO_REQ, EQ_DONE with a TAP_REQ, a lane more than 32 UI away. -/
theorem witness_SheafPortsTrain_forms : let e := frameBytes 0x10
    frameGood e = true ∧ e.getLsbD 84 = true ∧ (frameBytes 4).getLsbD 82 = true ∧ (frameBytes 4).getLsbD 83 = false ∧ 32 < ({ skewUi := 33 } : RxMeas).skewUi ∧
    ({ skewUi := 32 } : RxMeas).skewUi ≤ 32 ∧ (portOf (phyMach { phy := .eq, eqHere := 7, eqThere := 7 }) 2).phy = .eq ∧
    (portOf (phyMach { phy := .hold }) 2).phy ∈ ([.measure, .hold] : List PhyState) ∧ inTraining { phy := .clock } = true ∧
    (portOf (phyMach { phy := .quiet }) 2).phy = .quiet ∧ ¬ HostMay { mCam with ctl := { mCam.ctl with d3hot := true } } := by unfold HostMay; decide +kernel

theorem witness_SheafPatternTest_forms : let m := wr (phyMach { phy := .test }) F.SHF_PAT_CTRL_CHK_EN 2 1
    (portOf m 2).phy = .test ∧ rd m F.SHF_PAT_CTRL_CHK_EN 2 = 1 ∧ (portOf m 2).checkers.length = 4 ∧ flag (wr m F.SHF_PAT_CTRL_GEN_EN 2 1) F.SHF_PAT_CTRL_GEN_EN 2 = true ∧
    flag m F.SHF_PAT_CTRL_GEN_EN 2 = false ∧ (3#32).toNat % 4 = 3 ∧ (0#32).getLsbD 3 = false ∧ cameraPort mCam 2 = true ∧ cameraPort mCam 3 = false ∧
    (mkFlit 2 0 []).toNat / 2 ^ 252 < 3 ∧ ¬ (mkFlit 4 0 []).toNat / 2 ^ 252 < 3 := by decide +kernel

/-- An ACK_SEQ up to the first of two flits; NAK, RETRAIN_REQ and PM 2; a replay with an injection that waits; a port that a scrub holds. -/
theorem witness_FlitsAreTakenInOrder_forms : let x : SheafPort := { phy := .l0, replay := [mkFlit 4 0 [], mkFlit 5 1 []], resends := [0, 3], txSeq := 2, injNext := 5 }
    let m := phyMach x
    let f := mkFlit 0 0 []
    flitCrcOk f = true ∧ x.awaitAck = false ∧ x.lpPeer = none ∧ x.waiting = [] ∧ x.outWrites = [] ∧
    (flitLow f + 1 - (x.txSeq - BitVec.ofNat 12 x.replay.length)).toNat = 1 ∧ flitType (mkFlit 1 0xFFF [1, 0]) = 1 ∧ leAt (flitPayload (mkFlit 1 0xFFF [1, 0])) 0 2 = 1 ∧
    leAt (flitPayload (mkFlit 1 0xFFF [2])) 0 1 = 2 ∧ leAt (flitPayload (mkFlit 1 0 [0, 2])) 1 1 = 2 ∧ (∀ n ∈ x.resends, n < 4) ∧
    x.replay.findIdx (fun g => decide (injLanes m 2 g ≠ 0)) = 0 ∧ ({ x with scrubIdle := true } : SheafPort).scrubIdle = true ∧
    ({ x with nakSent := true } : SheafPort).nakSent = true := by decide +kernel

/-- A write whose owner's pool has no line of its class, and one that needs none. -/
theorem witness_RemoteWritesLandWhole_forms : let w : InWrite := { window := 0, gen := 0, offset := 0, length := 8, tag := 5, data := [1, 2, 3, 4, 5, 6, 7, 8], granary := true, owner := 1 }
    let m : Mach := { phyMach {} with fab := { tillers := [(0, { st := .idle, granary := { owner := [(0, 1)] }, pools := [(1, [101])] })] } }
    landRoom m w = false ∧ landRoom m { w with granary := false } = true ∧ landRoom m { w with owner := 2 } = true ∧ w.result = 0 := by decide

theorem witness_WindowsOpenAndClose_forms : tdiff { ns := 999 } ({} : LTime) < 1000 * 65536 ∧ ¬ tdiff { ns := 1000 } ({} : LTime) < 1000 * 65536 := by decide

/-- 75 ns after the trigger of a line with a MIN_PERIOD of 100 ns, and 74 ns. -/
theorem witness_DeadlinesFillAndLinesArePrepared_due : let l : Line := { lineNo := 4, count := 10 }
    let due := fun (m : Mach) => decide (0 ≤ tdiff m.time.now l.trigTime - ((camOf m 2).minPeriod * 10 * 65536 * 3 / 4 : Nat))
    due (atNs 0 75 mCam) = true ∧ due (atNs 0 74 mCam) = false ∧ ispPending (wr mCam F.INT_ISP_STATUS_SWAP_PENDING 0 1) = true ∧
    mCam.ctl.tickCount ≠ ({ pendTick := 7 } : Isp).pendTick ∧ chaffState (mChf 2) = 2 := by decide

theorem witness_AlignmentRunsAndEnds_forms : let m : Mach := { mRun with ctl := { mRun.ctl with realignDue := true, tickCount := 4 } }
    pipelineOn (applyLosses (fresh m)) = true ∧ (applyLosses (fresh m)).ctl.realignDue = true ∧ (applyLosses (fresh m)).ctl.tickCount ≠ (applyLosses (fresh m)).ctl.realignTick ∧
    (0x80#32).getLsbD 0 = false ∧ m0.ctl.st ≠ .dormant ∧ alignPorts { m0 with ctl := { ctl0 with align := true } } = [] ∧
    ({ (mAlign [] []).align with waiting := true } : Align).waiting = true := by decide

theorem witness_IspParametersAreWrittenCheckedAndSwapped_forms : let m := wr (mIsp .running) F.INT_ISP_STATUS_SWAP_PENDING 0 1
    (8 : BitVec 4) ≠ 0 ∧ (8 : BitVec 4) ≠ 15 ∧ ispPending m = true ∧ ticking m = true ∧ m.ctl.tickCount ≠ ({ m.isp with pendTick := 7 } : Isp).pendTick ∧
    ({ m.isp with checking := false } : Isp).checking = false := by decide

theorem witness_ProbeArmsAndCaptures_forms : (0x20007#32).getLsbD 20 = false ∧ (camOf mCam 2).pixels ≤ 8 ∧ ¬ HostMay { mCam with ctl := { mCam.ctl with fnReady := false } } := by
  unfold HostMay; decide

theorem witness_ChaffTableIsLoadedAndSwapped_forms : let m := { mChf 2 with chaff := { pendTick := 6 } }
    chaffState m = 2 ∧ ticking m = true ∧ m.ctl.tickCount ≠ m.chaff.pendTick ∧ (1#32).getLsbD 31 = false ∧
    ({ failRefill := true, needSwap := true } : Chaff).needSwap = true := by decide

/-- The room of a queue's ring and of its Tiller, and none: a ring that is full, a Tiller that is lost. -/
theorem witness_DoorbellsAndDescriptors_forms : let m := mFab []
    let full := setRing m 256 (fun r => { r with tail := 16 })
    ¬ ringUsed (ringOf full (queRing full qn)) + queInflight full qn + 1 ≤ 2 ^ (ringOf full (queRing full qn)).log2Size ∧
    tilUp (setTil m 0 (fun t => { t with st := .reset })) 0 = false ∧ ({ (queOf m qn) with hbmRing := true } : Queue).hbmRing = true ∧
    (queOf m qn).hbmRing = false ∧ ({ m.ctl with st := .fault, prev := .booting } : Ctl).prev = .booting ∧ (queOf m 5000).ci = (queOf m 5000).pi := by decide +kernel

/-- A copied batch whose slots are bad; a step out of the schedule; one that is once per swath. -/
theorem witness_ScheduleStepsAreIssued_forms : let m0 := mFab []
    let m := { m0 with fab := { m0.fab with ctxs := [(1, { st := .loaded, share := 16, map := [0], workMap := [0], program := some prog1 })], batches := [{ batch1 with fillMask := 5 }] } }
    (runSteps prog1 0)[1]? = none ∧ (ltBatches m 1 prog1 0)[1]? = none ∧ 0 ∉ ({ batch1 with fillMask := 5 } : Batch).copied ∧
    ({ batch1 with abandoned := 1 } : Batch).abandoned ≠ 0 ∧ (ctxOf m 2).program = none := by decide

theorem witness_CommandsCompleteAndCommit_forms : let c := { cmd 0 (nine.getD 5 0) with phase := .running }
    cryptoWaits (mFab [c]) c = false ∧ cmdOf (mFab []) qn 0 = none ∧ ¬ (∀ x ∈ earlier (mFab [c, commit1]) commit1, x.phase = .done) := by decide +kernel

/-- A check that fires on the first run of a command, and on its fourth. -/
theorem witness_ChecksRecoverAndPlacementsMove_fired : let c := { cmd 0 (nine.getD 0 0) with phase := .running }
    let m := wr (mFab [c]) F.GEN_CHECK_CFG_QUAR_RATE 0 9
    cmdOf m qn 0 = some c ∧ c.phase = .running ∧ dOp c.desc = 1 ∧ fabricOn m = true ∧ c.lc = false ∧ c.runs < 3 ∧ 1 ≠ 6 ∧
    (tilOf m c.tiller).detections + 1 < rd m F.GEN_CHECK_CFG_QUAR_RATE 0 ∧ ({ c with runs := 3 } : Cmd).second = false ∧ tilLost m c.tiller = false := by decide +kernel

/-- A placement whose boundary has come, and one whose has not. -/
theorem witness_ChecksRecoverAndPlacementsMove_due : let p := fun (k : BitVec 48) => ({ maps := [(1, [2])], loaded := true, tick := k } : PendPlace)
    let m := fun (k : BitVec 48) => { mFab [] with fab := { (mFab []).fab with pend := some (p k) } }
    (applyLosses (fresh (m 5))).fab.pend = some (p 5) ∧ (applyLosses (fresh (m 5))).ctl.tickCount ≠ (p 5).tick ∧ ticking (m 0) = true ∧ (m 0).ctl.tickCount = (p 0).tick := by
  decide +kernel

/-- COAL_US 1: 1 µs after the first entry, and 1 ns less. A program's queue in a context without one. -/
theorem witness_QueuesAndRingsAreTheHosts_forms : let g : Ring := { enable := true, coalUs := 1, tail := 2, unsig := 2, unsigAt := some {} }
    g.unsigAt = some {} ∧ g.coalUs * 1000 * 65536 ≤ tdiff { ns := 1000 } {} ∧ ¬ (g.coalUs * 1000 * 65536 : Int) ≤ tdiff { ns := 999 } {} ∧
    4097 % 4096 < 256 ∧ (ctxOf (mFab []) (4097 / 4096)).program = none ∧ qn % 4096 ≥ 256 := by decide

theorem witness_ContextsAreAdmittedLoadedAndReleased_forms : let m := mCtx { st := .loaded, share := 16, logical := 1, map := [0], workMap := [0], program := some prog2 }
    (∃ k ∈ (setFab m (fun f => { f with inflight := [cmd 0 (nine.getD 0 0)] })).fab.inflight, k.ctx = 1 ∧ k.phase ≠ .done) ∧
    confAllowed { mCtx {} with fuses := { life := .owned, confOnly := true } } = confAllowed { mCtx {} with fuses := { life := .owned, confOnly := true } } ∧
    (0x00100108#32).getLsbD 3 = true ∧ (ctxOf (mCtx { st := .scrubbing }) 1).st = .scrubbing := by decide +kernel

/-- 1,023 ticks within 1.024 s, and 1,024. -/
theorem witness_ScrubsStatisticsAndRecords_window : let m := fun (n ns : Nat) => atNs 1 ns { m0 with fab := { winTicks := n } }
    windowOver (m 1023 23999999) = false ∧ windowOver (m 1024 23999999) = true ∧
    tdiff (m 1023 23999999).time.now (m 1023 23999999).fab.winFrom < 1024000000 * 65536 := by decide

/-- From SEND_AHEAD before its time on; a port whose 10 µs are full; an interval that is over. -/
theorem witness_FireCommandsLeaveOrAreDropped_forms : let m := mEj (fire1 0)
    ahead m (100000 * 65536) ≤ sendAhead m ∧ sendAhead m < ahead m (9000000 * 65536) ∧ lead20 < ahead m (100000 * 65536) ∧
    ahead (atNs 0 80000 m) (100000 * 65536) ≤ lead20 ∧ fireRoom m 0 = true ∧
    fireRoom { m with eject := { m.eject with ports := [(0, { slot := some (beaconTime m.time.now), entries := 5 })] } } 0 = false ∧
    ahead (atNs 0 150000 m) (150000 * 65536) ≤ 0 ∧ (runFrom { m with eject := { m.eject with fires := [fire1 0, { fire1 1 with id := 4 }] } } (100000 * 65536, 150000 * 65536) 31 1).2.length = 1 := by
  decide

theorem witness_BoardsInputsAndOutputs_forms : let m := mEj (fire1 0)
    dnDrive m 0 = .frames ∧ dnDrive { m with ctl := { m.ctl with powerGood := false } } 0 ≠ .frames ∧ m.eject.beaconAt ≠ some (beaconTime m.time.now) ∧
    lessSince { ns := 999999 } ({} : LTime) 1000000 = true ∧ lessSince { ns := 1000000 } ({} : LTime) 1000000 = false ∧ (doOn m).getLsbD 0 = false ∧
    (inSt .standby).ctl.st ∈ ([.standby, .dormant] : List ModState) := by decide

theorem witness_HolesReadZero_forms : 0x2C < 2 ^ 24 ∧ Instr.lowRegisterRead 0x2C 1 ∈ [Instr.lowRegisterRead 0x2C 1, .rcRegisterRead 0x2C 1] := by decide

/-- A scan 24 h after the last one, and 1 ns less. A reject record that fits without a new block. -/
theorem witness_RecordsAreStoredReadAndRestored_forms : lessSince { sec := 86400 } ({} : LTime) (86400 * giga) = false ∧
    lessSince { sec := 86399, ns := 999999999 } ({} : LTime) (86400 * giga) = true ∧ rejectFloor (0 + 1) ≤ 0 - totalBytes [] ∧ (1#32).getLsbD 31 = false ∧
    ({ reading := some ⟨true, 0, 1, 0⟩ } : Flash).reading = some ⟨true, 0, 1, 0⟩ ∧ rd m0 F.FLS_HEALTH_STATE 0 < 2 := by decide

theorem witness_SpdmIsAnsweredAndSessionsAreCounted_forms : rd (wr m0 F.GLM_UPD_STATUS_STATE 0 4) F.GLM_UPD_STATUS_STATE 0 = 4 ∧
    rd m0 F.GLM_UPD_STATUS_STATE 0 ≠ 4 ∧ alive State.reset.mach = false := by decide

theorem witness_UpdatesAndAuthorisations_forms : (∃ e : LTime, ({ grantEnd := some {} } : Glume).grantEnd = some e ∧ atOrAfter {} e = true) ∧
    atOrAfter { ns := 999 } ({ ns := 1000 } : LTime) = false ∧ ¬ HostMay { m0 with ctl := { ctl0 with d3hot := true } } ∧
    alive { m0 with ctl := { ctl0 with fnReady := false } } = true ∧ authResult (mAuth .blank) (withOp 3 none) = 8 :=
  ⟨⟨{}, rfl, by decide⟩, by decide, by unfold HostMay; decide, by decide, by decide⟩

/-- A drain whose boundary has come; a port still linked at the entry to DORMANT; a Tiller idle for GATE_US, and 1 ns less. -/
theorem witness_PowerRequestsAndStates_forms : let m := { mRun with ctl := { mRun.ctl with powerReq := some .standby, tickCount := 3, reqTick := 2 } }
    let g := fun (ns : Nat) => atNs 0 ns { mTil { lastCmd := some {} } with cfg := { power := { gateUs := 5 } } }
    ticking m = true ∧ wantsStandby m = true ∧ boundarySince m m.ctl.reqTick = true ∧ (boundaryFirst (fresh m)).ctl.drain = false ∧
    wantsStandby (boundaryFirst (fresh m)) = true ∧ linkedPort mCam 2 = true ∧ linkedPort m0 2 = false ∧
    lessSince (g 5000).time.now {} ((g 5000).cfg.power.gateUs * 1000) = false ∧ lessSince (g 4999).time.now {} ((g 4999).cfg.power.gateUs * 1000) = true ∧
    (tilOf (g 0) 0).lastCmd = some {} ∧ allInflight (g 0) 0 = 0 := by decide

/-- A step 10 s ago and 1 ns less; a save an hour ago and 1 ns less; a period 100 µs ago and 1 ns less; 45 and 46 degrees, 55 and 56. -/
theorem witness_ClocksTrimsAndTemperatures_times : lessSince { sec := 10 } ({} : LTime) (10 * giga) = false ∧
    lessSince { sec := 9, ns := 999999999 } ({} : LTime) (10 * giga) = true ∧ lessSince { sec := 3600 } ({} : LTime) (3600 * giga) = false ∧
    lessSince { sec := 3599, ns := 999999999 } ({} : LTime) (3600 * giga) = true ∧ lessSince { ns := 100000 } ({} : LTime) 100000 = false ∧
    lessSince { ns := 99999 } ({} : LTime) 100000 = true ∧ (if m0.nor.code = 2 then 55 else 45) < (46 : BitVec 8).toNat ∧
    (45 : BitVec 8).toNat ≤ (if m0.nor.code = 2 then 55 else 45) ∧ ({ m0.nor with code := 2 } : Nor).code = 2 ∧ alive State.reset.mach = false ∧
    (fabricOn mRun = true ∨ mRun.ctl.st = .standby) := by decide

/-! ### Lanes -/

/-- R128: the symbols 3, 2, 0, 2 are the bits 10 11 01 00's, precoded from 0 on. -/
theorem test_precode : precode 0 [symOf true false, symOf true true, symOf false true, symOf false false] = [3, 3, 2, 2] ∧
    unprecode 0 [3, 3, 2, 2] = [symOf true false, symOf true true, symOf false true, symOf false false] := by decide

/-- A context moved by a loss whose image can be read nowhere, and one that stays. -/
theorem witness_ChecksRecoverAndPlacementsMove_lost : let p : PendPlace := { maps := [(1, [2])], gone := [0] }
    let m := mCtx { st := .loaded, map := [0], workMap := [0], program := some prog2 }
    imageLost m p 2 (1, [2]) = true ∧ imageLost m p 1 (1, [2]) = false ∧ imageLost m { p with gone := [] } 2 (1, [0]) = false := by decide

/-- R444: the identity of an SY8-M1400-W. -/
theorem test_configuration_identity : (configurationRequest { m0 with nor := { code := 2, serial := 7 } }).out =
    [.cfgOk { vendor := 0x1F7B, device := 8, subsystem := 2, classCode := 0x120000, serial := 7 }] := by decide

/-- R343, R357: a BE command held for a refetch is killed where LC work waits for its unit. -/
theorem test_preempt_kills_held : let b := { cmd 0 (nine.getD 0 0) with phase := .held }
    let l := { cmd 1 (nine.getD 0 0) with lc := true, ctx := 2, queue := 9000 }
    ((preempt (mFab [b, l]) 0).fab.inflight.map (fun c => (c.phase, c.kills))) = [(.fetched, 1), (.fetched, 0)] := by decide +kernel

/-- R346: what a command that completes adds to its context's window: 5 ns since it was ready, 4 ns of its own. -/
theorem test_latency_counts : let c := { cmd 0 (nine.getD 0 0) with phase := .running, cycles := 4, soloMhz := 1000, readyAt := some {} }
    let x := ctxOf (finish (atNs 0 5 (mFab [c])) c 0) 1
    (x.winLat, x.winSolo) = (5 * 65536, (4, 1)) := by decide +kernel

/-! ### Further forms of the statements' hypotheses, at the values where they part -/

/-- An activation 2 ms old is due at the next idle step, one a nanosecond younger is not. -/
theorem witness_StepRunsTheFrontCommand_activation : let m := fun (ns : Nat) => atNs 0 ns (wr { m0 with glume := { activateAt := some {} } } F.GLM_UPD_STATUS_STATE 0 4)
    (m 0).ctl.powerGood = true ∧ rd (m 0) F.GLM_UPD_STATUS_STATE 0 = 4 ∧ (m 0).glume.activateAt = some {} ∧
    lessSince (clockTick (m 2000000)).time.now {} 2000000 = false ∧ lessSince (clockTick (m 1999000)).time.now {} 2000000 = true ∧
    rd m0 F.GLM_UPD_STATUS_STATE 0 ≠ 4 ∧ ({ ctl0 with powerGood := false } : Ctl).powerGood = false := by decide +kernel

/-- The DBG block at debug level TRACE and NONE; the words beside it. -/
theorem witness_HostReadsLatchTheUpperParts_dbg : let m : Mach := { m0 with glume := { granted := .trace } }
    HostMay m ∧ dbgServes m 0xFC000 = true ∧ dbgServes m 0xFFFFC = true ∧ dbgServes m 0xFBFFC = false ∧ dbgServes m 0x100000 = false ∧
    dbgServes m0 0xFC000 = false ∧ rowOf 0xFC000 = none ∧ msixWord m 0xFC000 = none ∧ (15 : BitVec 4) ≠ 0 := by unfold HostMay; decide

/-- LOG2_SIZE 4 and 16, and the values beside them; a queue of the host's and a C0 queue; rings enabled and not. -/
theorem witness_RegisterWritesFollowTheAccessTypes_queue : let m := wr (mFab []) F.QUE_Q_SEL_QUEUE 0 5000
    unpowered m 0x20004 = false ∧ selQueue m = 5000 ∧ queueOpen m 5000 = true ∧ queueOpen m 300 = false ∧ queueOpen m qn = false ∧ queueOpen m 4351 = false ∧
    4 ≤ (4#32).toNat % 32 ∧ (16#32).toNat % 32 ≤ 16 ∧ (3#32).toNat % 32 < 4 ∧ 16 < (17#32).toNat % 32 ∧
    ringOpen m 256 = false ∧ ringOpen m 257 = true ∧ ringOpen m 0 = false := by decide +kernel

theorem witness_EveryStateChangeIsInTheTable_idle : OffIsOff (at_ m0) ∧ (at_ m0).pending = [] ∧ m0.ctl.st = .configured := by unfold OffIsOff; decide

/-- Two erased slots, the ACTIVE one unconfirmed with TRIAL 0 and 1; power-good is lost within the hold-up. -/
theorem witness_PowerGoodBootsAValidSlot_none : let m := testQuarantined (bootStart (wiped State.reset.mach true [])) []
    (trySlot m.1 .a m.2).1 ≠ 0 ∧ (trySlot (trySlot m.1 .a m.2).2 .b m.2).1 ≠ 0 ∧ quarantined State.reset.mach = [] ∧ (∃ k : Fin 8, m.1.fuses.tillerOff.getLsbD k = false) ∧
    bitOf (bcOf { bcb0 := bcbBytes 1 0 1 0 }).confirmed 0 = false ∧ (bcOf { bcb0 := bcbBytes 1 0 1 0 }).trial ≠ 0 ∧ (bcOf { bcb0 := bcbBytes 1 0 0 0 }).trial = 0 := by
  decide +kernel

theorem witness_ModuleAndWarmResets_holdup : let m := { mHostRst with ctl := { ctl0 with powerGood := false } }
    HostMay m ∧ hostResets m = true ∧ m.ctl.powerGood = false ∧ alive m = true ∧ mHostRst.ctl.powerGood = true := by unfold HostMay; decide

/-- A port in partial reset that is dark, assigned or with TEST set; an Awn port that comes into reset while a fire command waits. -/
theorem witness_PartialResetsTakeEffectAndComplete_dark : let m := withReset .sheaf 2 .inReset { mCam with sheaf := [(2, { dark := true })] }
    let a := withReset .awn 0 .requested { mCam with ctl := { mCam.ctl with tickCount := 1 }, eject := { fires := [fire1 7], decisions := [{ id := 5, obj := {} }] } }
    phaseIs m .sheaf 2 .inReset = true ∧ (portOf m 2).dark = true ∧ assigned m 2 = true ∧ testSet m 2 = false ∧
    testSet (wr m F.SHF_PHY_CTRL_TEST 2 1) 2 = true ∧ (portOf (withReset .sheaf 3 .inReset mCam) 3).dark = false ∧
    (∃ r ∈ (applyLosses (fresh a)).ctl.resets, r.kind = .awn ∧ r.item = 0 ∧ partialDue (applyLosses (fresh a)) r = true) ∧
    (∃ f ∈ (applyLosses (fresh a)).eject.fires, f.valve < 2048 ∧ f.valve / 256 = 0 ∧ 5 ∈ f.decs) := by decide +kernel

/-- A tick that closes swath 0 of four lines, the fifth already begun; an object judged whose batch is not done, valve 3 in its way. -/
theorem witness_MachineReadyAndTheTick_swath : let o : ObjRec := { tick := 0, index := 4, port := 2, context := 1, batch := 0, status := 0x31 }
    let v : ValveSec := { boardMask := [1], mapPorts := List.replicate 16 {}, valves := [(3, { line := 1, port := 2 })] }
    let d : Mach := { mCam with cfg := { camCfg with machine := { camCfg.machine with defaultAct := 1 }, valve := v }
                                intake := [(2, { latencyPs := 100000, nextLatPs := 100000, lineCount := 5, fill := (List.range 5).map (fun k => { lineNo := BitVec.ofNat 32 k }) })]
                                fab := { judgeObjs := [o], batches := [{ context := 1, no := 0 }], ctxs := [(1, { st := .loaded, program := some prog1 })] } }
    let m := refresh (applyLosses (fresh (atNs 0 1000000 d)))
    let x := ipOf m 2
    tickDue m = some { ns := 1000000 } ∧ m.ctl.tickCount = 0 ∧ cameraPort m 2 = true ∧ m.ctl.drain = false ∧ swathLen m 2 = 4 ∧
    m.ctl.tickCount.toNat * 4 + 4 + x.fill.length < 2 ^ 32 ∧ x.lineCount.toNat = m.ctl.tickCount.toNat * 4 + x.fill.length ∧
    x.fill.map (fun l => l.lineNo) = (List.range x.fill.length).map (fun i => BitVec.ofNat 32 i) ∧
    m.eject.fires.length + m.fab.judgeObjs.length * m.cfg.valve.valves.length < 65536 ∧ m.cfg.machine.defaultAct ≠ 0 ∧ formsDecision m o = true ∧
    o.flags.getLsbD 4 = false ∧ (ctxOf m 1).st ≠ .scrubbing ∧ (ctxOf m 1).scrubbed = false ∧ splitWaits (ctxOf m 1) = false ∧ selectValves m o 1 = [3] ∧
    (∀ b ∈ m.fab.batches, b.abandoned = 0 ∧ batchDone m b.context b = false) ∧ o ∈ m.fab.judgeObjs := by decide +kernel

/-- A read begun 100 µs ago, where PERIOD_US is 100, and a nanosecond less; a word with no read under way. -/
theorem witness_SsiWordsMoveTheCount_period : let m := fun (ns : Nat) => atNs 0 ns (encMach { mode := 5, bits := 24, clk100k := 5, refCount := 100 } { ssiFrom := some {} })
    let late := fun (ns : Nat) => lessSince (m ns).time.now {} ((encCfg (m ns) 0).refCount * 1000)
    (encOf (m 0) 0).started = true ∧ (encCfg (m 0) 0).mode = 5 ∧ (encOf (m 0) 0).ssiRead = none ∧ (encOf (m 0) 0).ssiFrom = some {} ∧
    late 99999 = true ∧ late 100000 = false := by decide

/-- LOS 1 ms old, and a nanosecond less. -/
theorem witness_SignalLossAndStandstill_los : let m := fun (ns : Nat) => atNs 0 ns (encMach { mode := 1 } { los := true, losAt := {} })
    let fresh := fun (ns : Nat) => lessSince (m ns).time.now (encOf (m ns) 0).losAt 1000000
    (encOf (m 0) 0).started = true ∧ (encCfg (m 0) 0).mode ≠ 0 ∧ (encOf (m 0) 0).los = true ∧ fresh 999999 = true ∧ fresh 1000000 = false ∧
    (encOf (encMach { mode := 1 } {}) 0).last = none := by decide

/-- A trigger computed late: its issue time is past at the boundary; the last trigger's period ends at the boundary, and after its 32 UI. -/
theorem witness_TriggersLeaveAtTheirPosition_late : let m := fun (last : Nat) => atNs 0 600000 (setIp mCam 2 (fun i => { i with lineCount := 2, lastTrig := some { ns := BitVec.ofNat 30 last } }))
    let b := fineNear (m 0).time.now { ns := 600000 }
    let want : Int := 32768000000 - ((ipOf (m 0) 2).latencyPs * 65536 / 1000 : Nat)
    let free := fun (last : Nat) => fineNear (m last).time.now { ns := BitVec.ofNat 30 last } + (camOf (m last) 2).minPeriod * 10 * 65536
    acquiring (m 0) = true ∧ portActive (m 0) 2 = true ∧ (ipOf (m 0) 2).inReset = false ∧ atBoundary (m 0) { ns := 600000 } = true ∧
    lineTime (m 0) 2 2 = some 32768000000 ∧ want < b ∧ free 599900 ≤ max want b ∧ free 599901 > max want b ∧ free 599999 ≥ b + 32 * 65536 / 28 ∧ want < free 599999 ∧
    (ipOf (m 0) 2).spacing = none := by decide +kernel

/-- A frame with a TAP_REQ on its lane and an ECHO_REQ on D0; frames in CLOCK and HOLD; a skew of 32 UI and of 33. -/
theorem witness_SheafPortsTrain_taps : let f := fun (lane flags tap : Nat) => let n := 0x5AF0C30F * 2 ^ 80 + flags * 2 ^ 64 + tap * 2 ^ 48 + 1 * 2 ^ 40 + lane * 2 ^ 36
                                                          BitVec.ofNat 128 (n * 65536 + crc468 ((leBytes 14 n).reverse))
    ∀ ph ∈ [.clock, .frame, .wake, .eq, .measure, .hold],
      let m := phyMach { phy := ph }
      frameGood (f 0 4 5) = true ∧ frameFits m 2 0 (f 0 4 5) = true ∧ bits (f 0 4 5).toNat 48 4 = 0 ∧ (f 0 4 5).getLsbD 82 = true ∧ (f 0 4 5).getLsbD 83 = false ∧
      ¬ (portOf m 2).phy ∈ ([.off, .detect, .l0, .quiet, .deep, .test] : List PhyState) ∧ 32 < 33 ∧ ¬ 32 < 32 := by decide +kernel

theorem witness_SheafPortsTrain_backoff : let m := phyMach { backoff := true }
    (portOf m 2).backoff = true ∧ (portOf m 2).phy = .off ∧ (portOf (phyMach { phy := .test, backoff := true }) 2).phy ≠ .off := by decide

/-- L0 wanted after a request was acknowledged; a scrub that holds the port; a peer port whose links are throttled. -/
theorem witness_SheafPortsRetrainAndSleep_waits : let x : SheafPort := { phy := .l0, lpWait := some .l0, lpAcked := some .quiet }
    let still := { phyMach { phy := .l0, scrubIdle := true } with ctl := ctl0 }
    let peer := { phyMach { phy := .l0 } with cfg := { camera := { ports := [{}, {}, { mode := .peer }] } }, power := { linkLimited := true } }
    (portOf (phyMach x) 2).lpWait = some .l0 ∧ (portOf (phyMach x) 2).replay = [] ∧ (portOf (phyMach x) 2).lpAcked = some .quiet ∧
    (portOf (phyMach { x with lpAcked := some .deep }) 2).lpAcked = some .deep ∧ HostMay still ∧ still.ctl.st ≠ .dormant ∧ (portOf still 2).scrubIdle = true ∧
    (portOf still 2).phy = .l0 ∧ quietAfter (wr still F.SHF_PHY_CTRL_QUIET_US 2 5) 2 = 5 ∧ quietAfter still 2 = 0 ∧ quietAfter peer 2 = 1 ∧
    quietAfter (phyMach { phy := .l0 }) 2 = 0 ∧ inTraining { phy := .hold } = true ∧ (portOf (phyMach { phy := .test }) 2).phy ≠ .off ∧ (portOf (phyMach {}) 2).phy = .off := by
  unfold HostMay; decide

theorem witness_SheafPatternTest_dark : (portOf (phyMach { dark := true }) 2).dark = true ∧ testSet (wr (phyMach { dark := true }) F.SHF_PHY_CTRL_TEST 2 1) 2 = true ∧
    (0x3#32).toNat % 4 = 3 ∧ (0x3#32).getLsbD 3 = false ∧ cameraPort mCam 2 = true ∧ cameraPort m0 2 = false ∧ (mkFlit 2 0 []).toNat / 2 ^ 252 < 3 ∧
    ¬ (mkFlit 4 0 []).toNat / 2 ^ 252 < 3 := by decide +kernel

/-- Lines still the owner's, and no longer. -/
theorem witness_RemoteWritesLandWhole_owner : let h : Store := { owner := [(2, 1), (3, 1)] }
    (∀ l ∈ linesOf 8192 4100, lineOwner h l = 1) ∧ (∀ l ∈ linesOf 8192 4100, lineOwner h l ≠ 2) ∧ (linesOf 8192 4100) = [2, 3] := by decide

/-- A column of an all-zero line looks up address 0; its word lost in the serving pair, in one replica of it only, and in the pair at rest. -/
theorem witness_DeadlinesFillAndLinesArePrepared_lost : let m := fun (bad : List (Nat × Nat)) => { mCam with chaff := { badWords := bad }, regs := (mChf 3).regs }
    let c : CamPort := { camOf mCam 2 with chaffEn := true }
    wordLost (m [(0, 0), (0, 1)]) 0 = true ∧ wordLost (m [(0, 0)]) 0 = false ∧ wordLost (m [(0, 2), (0, 3)]) 0 = false ∧ 0 ∈ lineAddrs c [[0], [0], [0]] ∧
    wordLost { mCam with chaff := { badWords := [(0, 0), (0, 1)] } } 0 = false ∧ wordLost { mCam with chaff := { badWords := (List.range 4).map (fun r => (0, r)) } } 0 = true := by
  decide +kernel

/-- A word lost before a swap that was refused, with the shadow as it was loaded and written since; a shadow with a bad page. -/
theorem witness_ChaffTableIsLoadedAndSwapped_lost : let m : Mach := { mChf 3 with chaff := { failRefill := true, badWords := [(7, 0), (7, 1)] } }
    chaffState m = 3 ∧ m.chaff.failRefill = true ∧ m.chaff.lostRefill = false ∧ (7, 2 * lastPair m) ∈ m.chaff.badWords ∧ (7, 2 * lastPair m + 1) ∈ m.chaff.badWords ∧
    m.chaff.dirty = false ∧ ({ m.chaff with dirty := true } : Chaff).dirty = true ∧ (List.replicate ((m.chaff.loadCount + 1) * 4096) (0 : Byte)).length = 4096 ∧
    chaffState (mChf 1) = 1 ∧ (mChf 1).ctl.st ≠ .configured ∧ (inSt .standby).ctl.st = .standby := by decide +kernel

/-- A context that scrubs in STANDBY and in FAULT; a command of its queue that awaits flight again. -/
theorem witness_DoorbellsAndDescriptors_scrub : let s : ModState → Mach := fun st => { mFab [] with ctl := { mRun.ctl with st := st }, fab := { (mFab []).fab with ctxs := [(1, { st := .scrubbing })] } }
    fabricOn (s .standby) = false ∧ fabricOn (s .fault) = false ∧ (ctxOf (s .fault) 1).st = .scrubbing ∧ (s .standby).ctl.st ∈ ([.standby, .fault] : List ModState) ∧
    (∀ y ∈ parked (ctxOf (s .fault) 1), y.queue ≠ qn) ∧ ¬ (∀ y ∈ parked { carry := [cmd 0 (nine.getD 0 0)] }, y.queue ≠ qn) ∧ (∀ c : Nat, (mFab []).fab.ctxRun ≠ some (c, 3)) ∧
    cmdOf (mFab []) qn (nextSeq (mFab []) qn) = none := ⟨by decide, by decide, by decide, by decide, by decide, by decide, by intro c; simp [mFab], by decide +kernel⟩

/-- A step of a batch whose earlier run was lost, in a swath with no time left, and with time left; one that had no earlier run. -/
theorem witness_ScheduleStepsAreIssued_late : let y : Cmd := { cmd 0 commit1.desc with lc := true, batch := some 0, step := some (0, 0) }
    let p : Program := { prog1 with sched := [[{ count := 1, perBatch := true, wcCycles := 1000000 }]] }
    let x : Ctx := { st := .loaded, share := 16, map := [0], workMap := [0], program := some p, carry := [y] }
    let m := fun (ns : Nat) => atNs 0 ns { mFab [] with fab := { (mFab []).fab with ctxs := [(1, x)], batches := [batch1] }, ctl := { mRun.ctl with lastTick := some {} }, cfg := camCfg }
    (∃ y ∈ (ctxOf (m 0) 1).carry, y.lc = true ∧ y.lt = 0 ∧ y.batch = some batch1.no) ∧ timeFits (m 500000) 1 (some 0) = false ∧ timeFits (m 1) 1 (some 0) = true ∧ timeFits (m 500000) 1 none = true ∧
    timeFits { m 500000 with fab := { (m 1).fab with ctxs := [(1, { x with stepsDone := [(0, 0, 0)] })] } } 1 (some 0) = true := by decide +kernel

/-- A held command that may go on, one that waits for the same bad line, and one whose units another has; an LC command that is ready. -/
theorem witness_ChecksRecoverAndPlacementsMove_held : let c := { cmd 0 (nine.getD 0 0) with phase := .held, badLine := some (0, 0, 5), heldAt := some {} }
    let x := { cmd 1 (nine.getD 5 0) with phase := .held, badLine := some (0, 0, 5) }
    let m := setUnits (mFab [c, x]) x (some (qn, 1))
    cmdOf m qn 0 = some c ∧ mayResume m c = true ∧ x ∈ m.fab.inflight ∧ cmdOf m qn 1 = some x ∧ x.badLine = c.badLine ∧ holdsUnits m x = true ∧ mayResume m x = true ∧
    (∀ y ∈ m.fab.inflight, y.lc = true → y.phase ≠ .fetched) ∧ mayResume m { c with phase := .done } = false ∧
    7 ∉ m.flash.retired ∧ rd (wr m F.FLS_HEALTH_STATE 0 3) F.FLS_HEALTH_STATE 0 = 3 := by decide +kernel

/-- A sealed LOAD: the tag of its 12-byte IV and of its text under the session's key, another tag, and a session that is not open. -/
theorem witness_ContextsAreAdmittedLoadedAndReleased_sealed : let x : Ctx := { st := .admitted, share := 16, logical := 1, conf := true, session := 9, map := [0], workMap := [0] }
    let m := { mCtx x with glume := { sessions := [{ id := 9, isOpen := true, secret := 7 }] } }
    let iv : List Byte := List.replicate 12 2
    let tag := gcmTag (hkdfExpand 7 (loadLabel ++ leBytes 1 1) 32) iv [3, 4, 5]
    let d : LoadData := { program := prog2, wrapped := true, iv := iv, text := [3, 4, 5], tag := tag }
    (ctxOf m 1).conf = true ∧ unwraps m 1 d = true ∧ unwraps m 1 { d with tag := tag.map (· ^^^ 1) } = false ∧ unwraps m 1 { d with wrapped := false } = false ∧
    unwraps { m with glume := {} } 1 d = false ∧ loadReason m 1 true prog2 = 0 ∧ parked { x with carry := [cmd 0 (nine.getD 0 0)] } ≠ [] ∧ parked x = [] := by decide +kernel

/-- A context scrubbed whose queue has work unfetched, and no more; the windows that are over by the time; in STANDBY too. -/
theorem witness_ScrubsStatisticsAndRecords_owes : let m := mFab []
    let s := { m with fab := { m.fab with queues := [(qn, { (queOf m qn) with ci := 3 })] }, glume := { scrubs := [1], retireDue := true } }
    scrubOwes m 1 = true ∧ scrubOwes s 1 = false ∧ s.glume.scrubs = 1 :: [] ∧ 1 ∉ ([] : List Nat) ∧ s.ctl.warmDue = false ∧ s.glume.returnDue = false ∧
    s.glume.retireDue = true ∧ fabricOn (inSt .standby) = false ∧ (inSt .standby).ctl.st = .standby ∧ windowOver (atNs 1 24000000 m0) = true ∧
    m0.fab.winTicks = 0 ∧ 1024000000 * 65536 ≤ tdiff (atNs 1 24000000 m0).time.now m0.fab.winFrom ∧ windowOver (atNs 1 23999999 m0) = false := by decide

/-- A chain entry that is due: inhibited, without room in its 10 µs, and with it; eight sent intervals of a valve. -/
theorem witness_FireCommandsLeaveOrAreDropped_chain : let f := { fire1 0 with sent := true, chain := 0x1000000, chainOn := 100000 * 65536 }
    let m := mEj f
    let inh := { m with cfg := { m.cfg with machine := { m.cfg.machine with inhibitDi := 0 } } }
    let full := { m with eject := { m.eject with ports := [(0, { slot := some (beaconTime m.time.now), entries := 5 })] } }
    m.eject.fires.find? (fun f => f.id == 3) = some f ∧ (m.eject.fires.map (fun f => f.id)).Nodup ∧ 0 < f.chain ∧ ahead m f.chainOn ≤ sendAhead m ∧
    sendAhead m < ahead m (9000000 * 65536) ∧ m.ctl.powerGood = true ∧ inhibited m = false ∧ inhibited inh = true ∧ fireRoom full 0 = false ∧ fireRoom m 0 = true ∧
    valveOpen (mEj (fire1 0)) 0 = true ∧
    valveOpen { m with eject := { m.eject with fires := (List.range 8).map (fun k => { fire1 0 with id := k, sent := true }) } } 0 = false := by decide

theorem witness_BoardsInputsAndOutputs_room : let m := mEj (fire1 0)
    let full := { m with eject := { m.eject with ports := [(1, { slot := some (beaconTime m.time.now), entries := 1 })] } }
    configRoom m 1 = true ∧ configRoom full 1 = false ∧ (tget {} (awnOf full 1).boards 0).sentNs = none ∧ dnDrive full 1 = .frames ∧
    (∀ k < 1, (tget {} (awnOf m 1).boards k).configDue = none) := by decide

/-- What a program that ends works on; a flash not scanned; a weak block of a stored reject record; a restore under way. -/
theorem witness_RecordsAreStoredReadAndRestored_work : let f : Flash := { scanAt := some {}, bufSys := 1, bufAudit := [[1]], bufReject := [[2]] }
    let m := fun (f : Flash) => { m0 with flash := f }
    let w := fun (f : Flash) => (if f.inProg.isSome then f.inProg else if 0 < f.bufSys then some .system else if f.bufAudit ≠ [] then some .audit
      else if f.bufReject ≠ [] then some .reject else none : Option FlashWork)
    flashReady (m f) = true ∧ flashReady (m { f with scanAt := none }) = false ∧ w f = some .system ∧ w { f with inProg := some .reject } = some .reject ∧
    w { f with bufSys := 0 } = some .audit ∧ w { f with bufSys := 0, bufAudit := [] } = some .reject ∧ w {} = none ∧ rd m0 F.FLS_HEALTH_STATE 0 < 2 ∧
    rd (wr m0 F.FLS_HEALTH_STATE 0 2) F.FLS_HEALTH_STATE 0 = 2 ∧ (m { f with restoring := some (0, {}) }).flash.restoring = some (0, {}) := by decide

theorem witness_RecordsAreStoredReadAndRestored_lost : let r : List Byte := leBytes 4 0 ++ leBytes 60 0
    let f : Flash := { rejects := [r], rejectEnd := 64, scanAt := some {}, regionOf := [(rejectBlock0, 9)], reads := [(rejectBlock0, 100000)] }
    losable f false (seqOf false r) = true ∧ rejectBlock0 ∈ blocksOf f false (seqOf false r) ∧ 100000 ≤ tget 0 f.reads rejectBlock0 ∧ tget 0 f.regionOf rejectBlock0 ≠ 0 ∧
    losable f true 0 = false ∧ ¬ 100000 ≤ tget 0 ({ f with reads := [(rejectBlock0, 99999)] } : Flash).reads rejectBlock0 ∧
    (asked f ⟨false, seqOf false r, seqOf false r + 1, 0⟩).map (seqOf false) = [seqOf false r] := by decide +kernel

/-- A crypto reset that an HBM access of LC work waits for. -/
theorem witness_SpdmIsAnsweredAndSessionsAreCounted_waits : let c : Cmd := { cmd 0 (nine.getD 5 0) with lc := true, phase := .running, batch := some 0 }
    let m := { mFab [c] with glume := { cryptoBusy := true } }
    let m := { m with fab := { m.fab with ctxs := [(1, { (ctxOf m 1) with conf := true })], bins := (List.range 6).map (fun h => (binIx 0 1 h, { valid := true, owner := 1, base := 4 * h, size := 4, space := 1 })), batches := [batch1] } }
    cryptoWaits m c = true ∧ c.lc = true ∧ c.phase = .running ∧ c.ctx = batch1.context ∧ c.batch = some batch1.no ∧ alive m = true := by decide +kernel

/-- RETURN and RETIRE pass with a context still to scrub, and without. -/
theorem witness_UpdatesAndAuthorisations_scrubs : let a := mAuth .owned
    let m := { a with fab := { ctxs := [(1, { st := .loaded, conf := true })] } }
    m.ctl.st ≠ .powering ∧ a.glume.retireDue = false ∧ a.glume.scrubs = [] ∧ confPresent m = true ∧ confPresent a = false ∧
    rd m0 F.GLM_UPD_STATUS_STATE 0 ≠ 4 ∧ rd (wr m0 F.GLM_UPD_STATUS_STATE 0 4) F.GLM_UPD_STATUS_STATE 0 = 4 := by decide

/-- A drain ends with nothing that awaits flight again; a loss that is due comes first. -/
theorem witness_PowerRequestsAndStates_parked : let m := { mFab [] with ctl := { mRun.ctl with powerReq := some .standby, drain := true, drainLeft := 0 } }
    let b := boundaryFirst (fresh m)
    ticking m = true ∧ b.ctl.drain = true ∧ b.ctl.drainLeft = 0 ∧ (∀ x ∈ b.fab.ctxs, parked x.2 = []) ∧ b.fab.ctxRun = none ∧ wantsStandby b = true ∧ b.ctl.align = false ∧
    b.ctl.heldReqs = [] ∧ (b.ctl.st = .configured ∨ (ticking b = true ∧ b.ctl.drain = true)) := by decide +kernel

/-- A die whose Tiller relocks holds its trim steps; one whose steps are made. -/
theorem witness_ClocksTrimsAndTemperatures_held : let m := mTil { relock := some 900, locked := true, stretched := true }
    let h := { m with power := { trimHeld := [(0, 1)] } }
    trimWaits m 0 = true ∧ trimWaits (mTil {}) 0 = false ∧ tget 0 h.power.trimHeld 0 ≠ 0 ∧ trimNext h 0 = 1 ∧ tget 0 m.power.trimHeld 0 = 0 ∧ (trimNext m 0 : Int) < 8 ∧
    -12 < trimNext m 0 ∧ (tilOf h 0).relock = some 900 ∧ (tilOf h 0).locked = true ∧ (tilOf h 0).stretched = true ∧ 900 < 2048 ∧
    8 ≤ trimNext { mTil {} with power := { trimHeld := [(0, 8)] } } 0 := by decide

/-- The ACTIVE slot is erased and the other holds a good image, which passes. -/
theorem witness_PowerGoodBootsAValidSlot_good : let s := { State.reset.mach with fuses := mOwn.fuses, nor := { slotB := some goodImage } }
    let m := testQuarantined (bootStart (wiped s true [])) []
    let a := trySlot m.1 .a m.2
    s.ctl.st = .powering ∧ s.fuses.life = .owned ∧ slotOf ((bcOf m.1.nor).active % 2) = .a ∧ bitOf (bcOf m.1.nor).confirmed 0 = true ∧ a.1 ≠ 0 ∧
    (trySlot a.2 .b m.2).1 = 0 := by decide +kernel

end Sys2Proof.Tests
end

/-!
PROOFS. Register accesses of the host: how a command's effect keeps parts and words, what a read of a register shows and latches (R7, R103, R125,
R447), and the statements O12 and O13.
-/

namespace Sys2Proof.Machine

/-! ### How single updates keep parts and words -/

theorem keeps_setWord (but : List Part) (m : Mach) (r : Word) (a : Nat) (w : Word) : Keeps but m (setWord m r a w) := by
  intro p _
  cases p <;> rfl

theorem keeps_emit (but : List Part) (m : Mach) (o : Output) : Keeps but m (emit m o) := by
  intro p _
  cases p <;> rfl

theorem keeps_setHost (m : Mach) (f : HostIf → HostIf) : Keeps [.host] m (setHost m f) := by
  intro p hp
  cases p
  case host => simp at hp
  all_goals rfl

/-- What one outcome of a command says, a weaker statement says too. -/
theorem completes_mono {c : Instr} {s : State} {P Q : Mach → Prop} (h : Completes c s P) (hpq : ∀ t, P t → Q t) : Completes c s Q := by
  obtain ⟨t, ht, hq, hp⟩ := h
  exact ⟨t, ht, hq, hpq _ hp⟩

/-- A command whose effect is to send something, and no more. -/
theorem completes_emit {c : Instr} {s : State} (f : Mach → Mach) (o : Output) (h : exec c s = s.run f)
    (hf : f (fresh s.mach) = emit (fresh s.mach) o) : Completes c s (fun t => t.out = [o] ∧ Keeps [] s.mach t ∧ RegsSame s.mach t) := by
  refine completes_run f h ?_
  rw [hf]
  refine ⟨by simp [emit], keeps_settle (keeps_trans (keeps_fresh _ _) (keeps_emit _ _ o)), ?_⟩
  simp [RegsSame, emit]

/-- A command that has no effect. -/
theorem completes_nothing {c : Instr} {s : State} (f : Mach → Mach) (h : exec c s = s.run f) (hf : f (fresh s.mach) = fresh s.mach) :
    Completes c s (fun t => Keeps [] s.mach t ∧ RegsSame s.mach t ∧ t.out = []) := by
  refine completes_run f h ?_
  rw [hf]
  exact ⟨keeps_settle (keeps_fresh _ _), by simp [RegsSame], by simp⟩

/-! ### What a register shows does not depend on the host interface or on what was sent -/

/-- The machine with nothing held for the host and nothing sent. -/
def shown (m : Mach) : Mach := { m with host := {}, out := [] }

@[simp] theorem stored_shown (m : Mach) (r : Word) (a : Nat) : stored (shown m) r a = stored m r a := rfl

theorem viewTil_shown (m : Mach) (a : Nat) : viewTil (shown m) a = viewTil m a := by
  unfold viewTil
  dsimp only
  generalize (a - 0x40000) / 16384 = t
  split <;> rfl

theorem viewInt_shown (m : Mach) (a : Nat) : viewInt (shown m) a = viewInt m a := by
  unfold viewInt
  split
  case h_1 => rfl
  case h_2 => rw [stored_shown]; rfl
  case h_3 => rfl
  split
  · rfl
  · split
    · dsimp only
      generalize (a - 0x80000) / 256 = p
      split <;> rfl
    · rfl

theorem viewShf_shown (m : Mach) (a : Nat) : viewShf (shown m) a = viewShf m a := by
  unfold viewShf
  dsimp only
  generalize (a - 0xB0000) / 1024 = p
  split
  iterate 4 rfl
  split
  · rfl
  · split <;> rfl

theorem viewEnc_shown (m : Mach) (a : Nat) : viewEnc (shown m) a = viewEnc m a := by
  unfold viewEnc
  dsimp only
  generalize (a - 0xC8000) / 64 = ch
  split
  · rfl
  · split
    · split <;> rfl
    · rfl

theorem regValue_shown (m : Mach) (a : Nat) : regValue (shown m) a = regValue m a := by
  unfold regValue
  rw [viewTil_shown, viewInt_shown, viewShf_shown, viewEnc_shown]
  rfl

theorem regValue_congr {m n : Mach} (h : shown m = shown n) (a : Nat) : regValue m a = regValue n a := by
  rw [← regValue_shown m, h, regValue_shown]

@[simp] theorem regValue_setHost (m : Mach) (f : HostIf → HostIf) (a : Nat) : regValue (setHost m f) a = regValue m a :=
  regValue_congr (m := setHost m f) (n := m) rfl a
@[simp] theorem regValue_fresh (m : Mach) (a : Nat) : regValue (fresh m) a = regValue m a :=
  regValue_congr (m := fresh m) (n := m) rfl a

@[simp] theorem readValue_fresh (m : Mach) (a : Nat) : readValue (fresh m) a = readValue m a := by
  unfold readValue
  rw [regValue_fresh]
  rfl

/-! ### The register table -/

/-- Every register lies below the DBG block. -/
theorem regTable_below : ∀ r ∈ regTable, r.base + r.stride * r.count < 0xFC000 := by decide +kernel

theorem rowOf_lt {a : Nat} {r : RegRow} (h : rowOf a = some r) : a < 0xFC000 := by
  have hb := regTable_below r (List.mem_of_find?_eq_some h)
  have hp := List.find?_some h
  simp only [Bool.and_eq_true, decide_eq_true_eq] at hp
  obtain ⟨hle, hp⟩ := hp
  split at hp
  · next hs =>
    have : a = r.base := by simpa using hp
    omega
  · simp only [Bool.and_eq_true, decide_eq_true_eq] at hp
    have hlt : a - r.base < r.stride * r.count := (Nat.div_lt_iff_lt_mul (by omega)).mp hp.2 |>.trans_eq (Nat.mul_comm _ _)
    omega

theorem dbgServes_of_row {m : Mach} {a : Nat} {r : RegRow} (h : rowOf a = some r) : dbgServes m a = false := by
  have := rowOf_lt h
  simp [dbgServes, show ¬ 0xFC000 ≤ a by omega]

/-- A field of `w` bits from `lo` on, as a mask. -/
theorem fieldMask_getLsbD (lo w i : Nat) (hi : i < 32) :
    (BitVec.ofNat 32 (2 ^ w - 1) <<< lo).getLsbD i = (decide (lo ≤ i) && decide (i < lo + w)) := by
  rw [BitVec.getLsbD_shiftLeft, BitVec.getLsbD_ofNat, Nat.testBit_two_pow_sub_one]
  by_cases h1 : lo ≤ i <;> by_cases h2 : i < lo + w <;> simp [h1, h2] <;> omega

theorem foldl_or_getLsbD {α : Type} (g : α → Word) (xs : List α) (w : Word) (i : Nat) :
    (xs.foldl (fun w x => w ||| g x) w).getLsbD i = (w.getLsbD i || xs.any (fun x => (g x).getLsbD i)) := by
  induction xs generalizing w with
  | nil => simp
  | cons x xs ih => simp [ih, Bool.or_assoc]

/-- The mask of an access type holds the bits of its fields. -/
theorem accMask_getLsbD (r : RegRow) (acc : Acc) (i : Nat) (hi : i < 32) :
    (accMask r acc).getLsbD i = true ↔ ∃ f ∈ r.fields, f.2.2 = acc ∧ f.1 ≤ i ∧ i < f.1 + f.2.1 := by
  unfold accMask
  rw [foldl_or_getLsbD (fun f : Nat × Nat × Acc => BitVec.ofNat 32 (2 ^ f.2.1 - 1) <<< f.1)]
  simp [fieldMask_getLsbD _ _ i hi]

/-! ### What a read holds for the reads that follow -/

/-- A holding register takes the value of its register (R7). -/
def holdValue (m : Mach) (b : Nat) : Mach := setHost m (fun h => { h with hold := tset none h.hold b (some (BitVec.ofNat 32 (regValue m b))) })

/-- What a read of `a` does to the holding registers: its own is spent, those that it latches take their values. -/
def latchRead (m : Mach) (a : Nat) : Mach :=
  forEach (latched a) (if encHeld a then m else setHost m (fun h => { h with hold := tset none h.hold a none })) holdValue

theorem setHost_setHost (m : Mach) (f g : HostIf → HostIf) : setHost (setHost m f) g = setHost m (fun h => g (f h)) := rfl

theorem forEach_holdValue_eq (xs : List Nat) (m : Mach) : ∃ f, forEach xs m holdValue = setHost m f := by
  induction xs generalizing m with
  | nil => exact ⟨id, rfl⟩
  | cons x xs ih =>
    obtain ⟨f, hf⟩ := ih (holdValue m x)
    rw [show forEach (x :: xs) m holdValue = forEach xs (holdValue m x) holdValue from rfl, hf, holdValue, setHost_setHost]
    exact ⟨_, rfl⟩

/-- Latching changes the host interface alone. -/
theorem latchRead_eq (m : Mach) (a : Nat) : ∃ f, latchRead m a = setHost m f := by
  obtain ⟨f, hf⟩ := forEach_holdValue_eq (latched a) (if encHeld a then m else setHost m (fun h => { h with hold := tset none h.hold a none }))
  unfold latchRead
  rw [hf]
  split
  · exact ⟨f, rfl⟩
  · exact ⟨_, setHost_setHost _ _ _⟩

@[simp] theorem latchRead_regs (m : Mach) (a : Nat) : (latchRead m a).regs = m.regs := by
  obtain ⟨f, hf⟩ := latchRead_eq m a
  rw [hf, setHost_regs]

@[simp] theorem latchRead_out (m : Mach) (a : Nat) : (latchRead m a).out = m.out := by
  obtain ⟨f, hf⟩ := latchRead_eq m a
  rw [hf, setHost_out]

theorem keeps_latchRead (m : Mach) (a : Nat) : Keeps [.host] m (latchRead m a) := by
  obtain ⟨f, hf⟩ := latchRead_eq m a
  rw [hf]
  exact keeps_setHost m f

theorem hold_forEach_notMem (xs : List Nat) (m : Mach) (b : Nat) (hb : b ∉ xs) :
    tget none (forEach xs m holdValue).host.hold b = tget none m.host.hold b := by
  induction xs generalizing m with
  | nil => rfl
  | cons x xs ih =>
    simp only [List.mem_cons, not_or] at hb
    refine (ih (holdValue m x) hb.2).trans ?_
    simp only [holdValue, setHost_host]
    exact tget_tset_ne none _ m.host.hold hb.1

theorem hold_forEach_mem (xs : List Nat) (m : Mach) (b : Nat) (hb : b ∈ xs) :
    tget none (forEach xs m holdValue).host.hold b = some (BitVec.ofNat 32 (regValue m b)) := by
  induction xs generalizing m with
  | nil => simp at hb
  | cons x xs ih =>
    by_cases hx : b ∈ xs
    · refine (ih (holdValue m x) hx).trans ?_
      simp [holdValue]
    · obtain rfl : b = x := by simpa [hx] using hb
      refine (hold_forEach_notMem xs (holdValue m b) b hx).trans ?_
      simp [holdValue]

/-- Each register that a read latches is held with the value that it has then. -/
theorem hold_latchRead {m : Mach} {a b : Nat} (hb : b ∈ latched a) :
    tget none (latchRead m a).host.hold b = some (BitVec.ofNat 32 (regValue m b)) := by
  unfold latchRead
  rw [hold_forEach_mem _ _ b hb]
  split <;> simp

/-! ### A read of a register -/

theorem clearRc_eq (m : Mach) (r : RegRow) (a : Nat) : clearRc m r a =
    if accMask r .rc = 0 then m else setWord m r.rst a ((word m r.rst a &&& ~~~ accMask r .rc) ||| (r.rst &&& accMask r .rc)) := rfl

theorem word_clearRc_same (m : Mach) (r : RegRow) (a : Nat) :
    word (clearRc m r a) r.rst a = (word m r.rst a &&& ~~~ accMask r .rc) ||| (r.rst &&& accMask r .rc) := by
  rw [clearRc_eq]
  split
  · next h =>
    rw [h]
    simp only [BitVec.ofNat_eq_ofNat, BitVec.not_zero, BitVec.and_allOnes, BitVec.and_zero, BitVec.or_zero]
  · exact word_setWord_same _ _ _ _

theorem word_clearRc_ne (m : Mach) (r : RegRow) (a b : Nat) (q : Word) (h : b ≠ a) : word (clearRc m r a) q b = word m q b := by
  rw [clearRc_eq]
  split
  · rfl
  · exact word_setWord_ne _ _ _ _ _ _ h

theorem clearRc_none {r : RegRow} (h : accMask r .rc = 0) (m : Mach) (a : Nat) : clearRc m r a = m := if_pos h

theorem keeps_clearRc (but : List Part) (m : Mach) (r : RegRow) (a : Nat) : Keeps but m (clearRc m r a) := by
  rw [clearRc_eq]
  split
  · exact keeps_refl _ _
  · exact keeps_setWord _ _ _ _ _

@[simp] theorem clearRc_out (m : Mach) (r : RegRow) (a : Nat) : (clearRc m r a).out = m.out := by
  rw [clearRc_eq]
  split <;> rfl

@[simp] theorem clearRc_host (m : Mach) (r : RegRow) (a : Nat) : (clearRc m r a).host = m.host := by
  rw [clearRc_eq]
  split <;> rfl

/-- With the function ready and outside D3hot a read is carried out. -/
theorem barRead_may {m : Mach} (h : HostMay m) (f : Mach → Mach) : barRead m true f = f m := by
  obtain ⟨hr, hd⟩ := h
  simp [barRead, hr, hd]

/-- The three registers whose read draws a value or moves on stand apart (R205, R321, R424). -/
def plainRead (a : Nat) : Prop := a ∉ [0xF0020, 0x124, 0x82110]

/-- A read of a register: its value, the registers that it latches, its RC fields. -/
theorem busRead_register {m : Mach} {a : Nat} {be : BitVec 4} {r : RegRow} (hm : HostMay m) (hbe : be ≠ 0)
    (hp : unpowered m a = false) (hr : rowOf a = some r) (ha : plainRead a) :
    busRead a be m = emit (clearRc (latchRead m a) r a) (.readData (BitVec.ofNat 32 (readValue m a) &&& byteMask be)) := by
  simp only [plainRead, List.mem_cons, List.not_mem_nil, or_false, not_or] at ha
  obtain ⟨h1, h2, h3⟩ := ha
  unfold busRead
  dsimp only
  rw [barRead_may hm, if_neg hbe, dbgServes_of_row hr, if_neg Bool.false_ne_true, if_neg (by simp [hp, hr]), if_neg h1, if_neg h2, if_neg h3, hr]
  rfl

/-- What a read of the register at `a` leaves: the machine `t` after it, from the machine `m` before it. -/
structure RegisterRead (m : Mach) (a : Nat) (be : BitVec 4) (r : RegRow) (t : Mach) : Prop where
  out : t.out = [.readData (BitVec.ofNat 32 (readValue m a) &&& byteMask be)]
  held : ∀ b ∈ latched a, tget none t.host.hold b = some (BitVec.ofNat 32 (regValue m b))
  own : word t r.rst a = (word m r.rst a &&& ~~~ accMask r .rc) ||| (r.rst &&& accMask r .rc)
  others : ∀ (q : Word) (b : Nat), b ≠ a → word t q b = word m q b
  regs : accMask r .rc = 0 → RegsSame m t
  keeps : Keeps [.host] m t

theorem hostRead_bar0 {a : Nat} (h4 : a % 4 = 0) (hlt : a < 2 ^ 24) (be : BitVec 4) (m : Mach) : hostRead a be m = busRead a be m := by
  unfold hostRead
  rw [if_pos hlt, show a / 4 * 4 = a by omega]

/-- A command that reads a register, of either kind, completes as that read. -/
theorem completes_registerRead {c : Instr} {s : State} {a : Nat} {be : BitVec 4} {r : RegRow} (hc : exec c s = s.run (hostRead a be))
    (hm : HostMay s.mach) (hbe : be ≠ 0) (h4 : a % 4 = 0) (hp : unpowered s.mach a = false) (hr : rowOf a = some r) (ha : plainRead a) :
    Completes c s (RegisterRead s.mach a be r) := by
  refine completes_run _ hc ?_
  rw [hostRead_bar0 h4 ((rowOf_lt hr).trans (by decide)), busRead_register (m := fresh s.mach) hm hbe hp hr ha]
  constructor
  · simp [emit]
  · intro b hb
    rw [settle_host]
    change tget none (clearRc (latchRead (fresh s.mach) a) r a).host.hold b = _
    rw [clearRc_host, hold_latchRead hb, regValue_fresh]
  · rw [word_settle]
    change word (clearRc (latchRead (fresh s.mach) a) r a) r.rst a = _
    rw [word_clearRc_same]
    simp [word]
  · intro q b hb
    rw [word_settle]
    change word (clearRc (latchRead (fresh s.mach) a) r a) q b = _
    rw [word_clearRc_ne _ _ _ _ _ hb]
    simp [word]
  · intro h
    rw [clearRc_none h]
    simp [RegsSame, emit]
  · refine keeps_settle (keeps_trans ?_ (keeps_emit _ _ _))
    exact keeps_trans (keeps_trans (keeps_fresh _ _) (keeps_latchRead _ _)) (keeps_clearRc _ _ _ _)

/-! ### Reads that find no register -/

theorem hostRead_notReady {m : Mach} (hl : alive m = true) (h : m.ctl.fnReady = false) (a : Nat) (be : BitVec 4) :
    hostRead a be m = emit m .unsupported := by
  simp only [hostRead, busRead, bar2Read, barRead, h, hl, Bool.not_false, if_true, ite_self]

theorem hostRead_d3hot {m : Mach} (h : m.ctl.fnReady = true) (hd : m.ctl.d3hot = true) (a : Nat) (be : BitVec 4) : hostRead a be m = m := by
  simp only [hostRead, busRead, bar2Read, barRead, h, hd, Bool.not_true, Bool.false_eq_true, if_false, if_true, ite_self]

theorem dbgServes_word (m : Mach) (a : Nat) : dbgServes m (a / 4 * 4) = dbgServes m a := by
  have h1 : 0xFC000 ≤ a / 4 * 4 ↔ 0xFC000 ≤ a := by omega
  have h2 : a / 4 * 4 < 0x100000 ↔ a < 0x100000 := by omega
  simp [dbgServes, h1, h2]

theorem hostRead_noRegister {m : Mach} {a : Nat} {be : BitVec 4} (hm : HostMay m) (hlt : a < 2 ^ 24) (hbe : be ≠ 0)
    (hr : rowOf (a / 4 * 4) = none) (hx : msixWord m (a / 4 * 4) = none) (hd : dbgServes m a = false) :
    hostRead a be m = emit m (.readData 0) := by
  unfold hostRead busRead
  dsimp only
  rw [if_pos hlt, barRead_may hm, if_neg hbe, dbgServes_word, hd, if_neg Bool.false_ne_true, if_pos (by simp [hr, hx])]
  simp

theorem hostRead_dbg {m : Mach} {a : Nat} {be : BitVec 4} (hm : HostMay m) (hbe : be ≠ 0) (hd : dbgServes m a = true) :
    hostRead a be m = emit (draw m).1 (.readData (BitVec.ofNat 32 (Config.free m.draws) &&& byteMask be)) := by
  have hlt : a < 2 ^ 24 := by
    simp only [dbgServes, Bool.and_eq_true, decide_eq_true_eq] at hd
    omega
  unfold hostRead busRead
  dsimp only
  rw [if_pos hlt, barRead_may hm, if_neg hbe, dbgServes_word, hd, if_pos rfl]
  rfl

/-- A doorbell read whole (R331): PI, and CI in the upper word. -/
theorem hostRead_doorbell {m : Mach} (hm : HostMay m) (hs : m.ctl.st ≠ .dormant) (q k : Nat) (hk : k = 0 ∨ k = 4) :
    hostRead (2 ^ 24 + 8 * q + k) 15 m = emit m (.readData (if k = 0 then (queOf m q).pi else (queOf m q).ci)) := by
  have hoff : (2 ^ 24 + 8 * q + k) / 4 * 4 - 2 ^ 24 = 8 * q + k := by omega
  unfold hostRead bar2Read
  rw [if_neg (by omega), barRead_may hm, hoff]
  obtain rfl | rfl := hk
  · simp [hs]
  · have h1 : (8 * q + 4) / 8 = q := by omega
    simp [hs, h1]

/-! ### The local time, and the three registers that move on -/

theorem readValue_free {m : Mach} {a : Nat} (hp : unpowered m a = false) (hh : tget none m.host.hold a = none) (he : encHeld a = false) :
    readValue m a = regValue m a := by
  simp [readValue, hp, hh, he]

/-- A register of TIM shows what `viewTim` gives. -/
theorem regValue_tim {m : Mach} {a v : Nat} (h1 : 0xC0000 ≤ a) (h2 : a < 0xC8000) (hr : (rowOf a).isSome = true) (hv : viewTim m a = some v) :
    regValue m a = v := by
  obtain ⟨r, hr⟩ := Option.isSome_iff_exists.mp hr
  have hp : unpowered m a = false := by simp [unpowered]; omega
  have hx : msixWord m a = none := by unfold msixWord; rw [if_neg (by omega), if_neg (by omega)]
  unfold regValue
  rw [hp, if_neg Bool.false_ne_true, hx, hr]
  dsimp only
  iterate 7 rw [if_neg (by omega)]
  rw [if_pos (by omega), hv]
  rfl

theorem regValue_now_frac (m : Mach) : regValue m 0xC0000 = m.time.now.frac.toNat / 2 ^ 24 :=
  regValue_tim (by decide) (by decide) (by decide) rfl
theorem regValue_now_ns (m : Mach) : regValue m 0xC0004 = m.time.now.ns.toNat := regValue_tim (by decide) (by decide) (by decide) rfl
theorem regValue_now_secLo (m : Mach) : regValue m 0xC0008 = m.time.now.sec.toNat % 2 ^ 32 :=
  regValue_tim (by decide) (by decide) (by decide) rfl
theorem regValue_now_secHi (m : Mach) : regValue m 0xC000C = m.time.now.sec.toNat / 2 ^ 32 :=
  regValue_tim (by decide) (by decide) (by decide) rfl

/-- With all bytes enabled a read returns the whole word (R447). -/
theorem and_byteMask_all (v : Word) : v &&& byteMask 15#4 = v := by
  rw [show byteMask 15#4 = BitVec.allOnes 32 by decide, BitVec.and_allOnes]

/-- GLM_NONCE_0 draws a nonce, GEN_REC_DATA moves on, INT_ISP_DATA moves on: a whole read does what their own commands do. -/
theorem hostRead_nonce {m : Mach} (hm : HostMay m) : hostRead 0xF0020 15 m = nonceRead m := by
  have hp : unpowered m 0xF0020 = false := by simp [unpowered]
  rw [hostRead_bar0 (by decide) (by decide)]
  unfold busRead nonceRead
  dsimp only
  rw [barRead_may hm, barRead_may hm]
  simp [hp, dbgServes, and_byteMask_all, show (rowOf 0xF0020).isNone = false by decide]

theorem hostRead_record {m : Mach} (hm : HostMay m) : hostRead 0x124 15 m =
    barRead m true (fun m => let r := recordWord m; emit r.1 (.readData (BitVec.ofNat 32 r.2))) := by
  have hp : unpowered m 0x124 = false := by simp [unpowered]
  rw [hostRead_bar0 (by decide) (by decide)]
  unfold busRead
  dsimp only
  rw [barRead_may hm, barRead_may hm]
  simp [hp, dbgServes, and_byteMask_all, show (rowOf 0x124).isNone = false by decide]

theorem hostRead_ispData {m : Mach} (hm : HostMay m) (hs : m.ctl.st ≠ .dormant) : hostRead 0x82110 15 m = ispDataRead m := by
  have hp : unpowered m 0x82110 = false := by simp [unpowered, hs]
  have hb (f : Mach → Mach) : barRead m false f = f m := by
    obtain ⟨hr, hd⟩ := hm
    simp [barRead, hr, hd, hs]
  rw [hostRead_bar0 (by decide) (by decide)]
  unfold busRead ispDataRead
  dsimp only
  rw [barRead_may hm, hb]
  simp [hp, dbgServes, and_byteMask_all, show (rowOf 0x82110).isNone = false by decide]

/-- Effects that agree on the machine before a command give the same outcome. -/
theorem run_congr {s : State} {f g : Mach → Mach} (h : f (fresh s.mach) = g (fresh s.mach)) : s.run f = s.run g := by
  rw [run_next, run_next, h]

/-- The lower register of each pair of R7: it has no RC field, and its read latches the upper one. -/
theorem pairs_low : ∀ p ∈ pairs, p.1 % 4 = 0 ∧ p.2 ∈ latched p.1 ∧ p.1 ∉ [0xF0020, 0x124, 0x82110] ∧
    (rowOf p.1).any (fun r => accMask r .rc == 0) = true := by decide +kernel

theorem pair_low_row {p : Nat × Nat} (hp : p ∈ pairs) : ∃ r, rowOf p.1 = some r ∧ accMask r .rc = 0 := by
  have h := (pairs_low p hp).2.2.2
  simpa [Option.any_eq_true] using h

theorem keeps_draw (m : Mach) : Keeps [.draws] m (draw m).1 := by
  intro p hp
  cases p
  case draws => simp at hp
  all_goals rfl

/-- Settles O12: a read of a register is `RegisterRead`; the others find no register (R74, R331, R445, R448, R463). -/
theorem hostReadsLatchTheUpperParts : Obligations.HostReadsLatchTheUpperParts := by
  refine ⟨?timNow, ?pair, ?doorbell, ?none⟩
  case timNow =>
    intro s hm hh
    obtain ⟨r, hr, hrc⟩ : ∃ r, rowOf 0xC0000 = some r ∧ accMask r .rc = 0 := ⟨_, rfl, by decide⟩
    refine completes_mono (completes_registerRead rfl hm (be := 15) (by decide) (by decide) (by simp [unpowered]) hr (by simp [plainRead])) ?_
    intro t ht
    have held := fun b (hb : b ∈ latched 0xC0000) => ht.held b hb
    refine ⟨?_, ?_, ?_, ?_, ht.keeps, ht.regs hrc⟩
    · rw [ht.out, readValue_free (by simp [unpowered]) hh (by decide), regValue_now_frac]
      exact congrArg (fun w => [Output.readData w]) (and_byteMask_all _)
    · rw [held _ (by decide), regValue_now_ns]
    · rw [held _ (by decide), regValue_now_secLo]
    · rw [held _ (by decide), regValue_now_secHi]
  case pair =>
    intro s p be hm hp hbe hpow
    obtain ⟨h4, hl, hplain, _⟩ := pairs_low p hp
    obtain ⟨r, hr, hrc⟩ := pair_low_row hp
    refine completes_mono (completes_registerRead rfl hm hbe h4 hpow hr hplain) ?_
    intro t ht
    exact ⟨ht.out, ht.held _ hl, ht.keeps, ht.regs hrc⟩
  case doorbell =>
    intro s q hm hs
    exact ⟨completes_emit _ _ rfl (hostRead_doorbell (m := fresh s.mach) hm hs q 0 (.inl rfl)),
      completes_emit _ _ rfl (hostRead_doorbell (m := fresh s.mach) hm hs q 4 (.inr rfl))⟩
  case none =>
    intro s a be c hl hc
    have hex : exec c s = s.run (hostRead a be) := by
      obtain rfl | rfl := hc <;> rfl
    refine ⟨?_, ?_, ?_, ?_⟩
    · intro hr
      exact completes_emit _ _ hex (hostRead_notReady (m := fresh s.mach) hl hr a be)
    · intro hr hd
      refine completes_mono (completes_nothing _ hex (hostRead_d3hot (m := fresh s.mach) hr hd a be)) ?_
      exact fun t ⟨hk, hg, ho⟩ => ⟨ho, hk, hg⟩
    · intro hm hlt hbe hr hx hd
      exact completes_emit _ _ hex (hostRead_noRegister (m := fresh s.mach) hm hlt hbe hr hx hd)
    · intro hm hbe hd
      refine completes_run _ hex ?_
      rw [hostRead_dbg (m := fresh s.mach) hm hbe hd]
      refine ⟨by simp [emit], keeps_settle (keeps_trans (keeps_trans (keeps_fresh _ _) (keeps_draw _)) (keeps_emit _ _ _)), ?_⟩
      simp [RegsSame, emit]

/-- Settles O13: a read of a register is `RegisterRead`; in the three that draw or move on both reads are one effect. -/
theorem rcFieldsClearOnRead : Obligations.RcFieldsClearOnRead := by
  refine ⟨?_, ?_⟩
  · intro s a be r hm hbe h4 hp hr ha
    refine completes_mono (completes_registerRead rfl hm hbe h4 hp hr ha) ?_
    intro t ht
    refine ⟨ht.out, ?_, ht.others, ht.keeps⟩
    intro i hi
    rw [ht.own]
    rw [BitVec.getLsbD_or, BitVec.getLsbD_and, BitVec.getLsbD_and, BitVec.getLsbD_not]
    have hmask := accMask_getLsbD r .rc i hi
    split
    · next h => rw [hmask.mpr h]; simp
    · next h => rw [Bool.eq_false_iff.mpr (hmask.not.mpr h)]; simp [hi]
  · intro s hm hs
    refine ⟨?_, ?_, ?_⟩
    · exact run_congr (hostRead_nonce (m := fresh s.mach) hm)
    · exact run_congr (g := fun m => barRead m true _) (hostRead_record (m := fresh s.mach) hm)
    · exact run_congr (hostRead_ispData (m := fresh s.mach) hm hs)

end Sys2Proof.Machine

/-!
PROOFS. Register writes of the host (R5 to R7, R130, R329, R335, R447 to R449, R452): what a write of each kind of register does, and the statement
O14.
-/

namespace Sys2Proof.Machine

/-! ### Events: what raising one leaves -/

theorem keeps_raiseAs (m : Mach) (f : Fld) (i n c : Nat) : Keeps [.host] m (raiseAs m f i n c) := by
  intro p hp
  cases p
  case host => simp at hp
  all_goals simp [Part.same]

theorem keeps_inc (but : List Part) (m : Mach) (f : Fld) (i : Nat) : Keeps but m (inc m f i) := keeps_wr f i _ (keeps_refl but m)

/-- A counter counted up keeps every word but its own. -/
theorem regsKeep_inc {but : List Nat} {m t : Mach} (f : Fld) (i : Nat) (hf : f.addr i ∈ but) (h : RegsKeep but m t) : RegsKeep but m (inc t f i) :=
  regsKeep_wr f i _ hf h

theorem regsKeep_fresh (but : List Nat) (m : Mach) : RegsKeep but m (fresh m) := regsKeep_of_regs (fresh_regs m)

/-- A command whose effect is to raise one event, seen by the event's flag. -/
theorem completes_raiseAs {c : Instr} {s : State} (f : Mach → Mach) (e : Fld) (i n x : Nat) (h : exec c s = s.run f)
    (hf : f (fresh s.mach) = raiseAs (fresh s.mach) e i n x) (hfit : e.fits = true) (hw : e.w = 1) (hv : vectorOf e i < 1024)
    (hp : e.addr i ≠ pbaAddr (vectorOf e i)) :
    Completes c s (fun t => rd t e i = 1 ∧ RegsKeep [e.addr i] s.mach t ∧ Keeps [.host] s.mach t) := by
  refine completes_run f h ?_
  rw [hf]
  refine ⟨?_, regsKeep_settle (regsKeep_raiseAs e i n x (by simp) hv (regsKeep_fresh _ _)), keeps_settle (keeps_trans (keeps_fresh _ _) (keeps_raiseAs _ _ _ _ _))⟩
  rw [rd_settle, rd_raiseAs_same _ e i n x hfit hw hp]

/-! ### A write by its place -/

/-- With the function ready and outside D3hot a write is carried out. -/
theorem bar0_may {m : Mach} (h : HostMay m) (f : Mach → Mach) : bar0 m f = f m := by
  obtain ⟨hr, hd⟩ := h
  simp [bar0, hr, hd]

/-- What a whole write of a register does, by the register's access types (R5). -/
theorem busWrite_register {m : Mach} {a : Nat} {v : Word} {r : RegRow} (hm : HostMay m) (hp : unpowered m a = false) (hr : rowOf a = some r)
    (hx : a < 0x18000 ∨ 0x20000 ≤ a) : busWrite a 15 v m =
      if accMask r .w1c ≠ 0 then clearFlags m r a v else if a = 0x20004 then writeQueueCfg m v.toNat
      else if rwMask r = 0 then m else storeReg m r a v := by
  unfold busWrite
  rw [bar0_may hm]
  dsimp only
  rw [if_neg (by simp [hp]), if_neg (by decide), if_neg (by omega), hr]

/-- A write of some bytes of a register stores nothing; it is counted (R447). -/
theorem busWrite_partial {m : Mach} {a : Nat} {be : BitVec 4} {v : Word} (hm : HostMay m) (hp : unpowered m a = false)
    (hr : (rowOf a).isSome = true) (h0 : be ≠ 0) (h15 : be ≠ 15) (ha : a ≠ 0x82110) :
    busWrite a be v m = raiseCount m F.HST_EVENT_PARTIAL_WRITE F.HST_CNT_PARTIAL_WRITE 0 := by
  unfold busWrite
  rw [bar0_may hm]
  dsimp only
  rw [if_neg (by simpa [hp] using h0), if_pos h15, if_neg ha, if_pos (by simp [hr])]

/-- A write where nothing is to be written (R448, R452). -/
theorem busWrite_nothing {m : Mach} {a : Nat} {be : BitVec 4} {v : Word} (hm : HostMay m)
    (h : be = 0 ∨ unpowered m a = true ∨ (rowOf a = none ∧ msixWord m a = none)) : busWrite a be v m = m := by
  unfold busWrite
  rw [bar0_may hm]
  dsimp only
  by_cases h0 : be = 0 ∨ unpowered m a = true
  · exact if_pos (by simpa using h0)
  · obtain ⟨hr, hx⟩ : rowOf a = none ∧ msixWord m a = none := by tauto
    have hisp : a ≠ 0x82110 := by
      rintro rfl
      exact absurd hr (by decide)
    have hmsix : ¬ (0x18000 ≤ a ∧ a < 0x20000) := fun hin => by simp [msixWord, hin] at hx
    rw [if_neg (by simpa using h0), if_neg hisp, if_neg hmsix, hr, hx]
    simp

/-- A write of the MSI-X table (R449). -/
theorem busWrite_msix {m : Mach} {a : Nat} {v : Word} (hm : HostMay m) (h1 : 0x18000 ≤ a) (h2 : a < 0x20000) :
    busWrite a 15 v m = writeMsix m a v := by
  have hp : unpowered m a = false := by simp [unpowered]; omega
  unfold busWrite
  rw [bar0_may hm]
  dsimp only
  rw [if_neg (by simp [hp]), if_neg (by decide), if_pos ⟨h1, h2⟩]

/-! ### What each kind of register stores -/

theorem find_pair_none {a : Nat} (h : ∀ p ∈ pairs, p.1 ≠ a ∧ p.2 ≠ a) : pairs.find? (fun p => p.2 == a) = none := by
  rw [List.find?_eq_none]
  intro p hp
  simpa using (h p hp).2

theorem any_pair_false {a : Nat} (h : ∀ p ∈ pairs, p.1 ≠ a ∧ p.2 ≠ a) : pairs.any (fun p => p.1 == a) = false := by
  rw [List.any_eq_false]
  intro p hp
  simpa using (h p hp).1

/-- A register of its own stores its RW bits. -/
theorem storeReg_plain {m : Mach} {r : RegRow} {a : Nat} {v : Word} (ha : a ∉ [0x20004, 0x20008, 0x2000C, 0x20028, 0x2002C])
    (hpair : ∀ p ∈ pairs, p.1 ≠ a ∧ p.2 ≠ a) (hb : r.base ≠ 0xB0030) :
    storeReg m r a v = setWord m r.rst a ((word m r.rst a &&& ~~~ rwMask r) ||| (shfWrite m r a v &&& rwMask r)) := by
  simp only [List.mem_cons, List.not_mem_nil, or_false, not_or] at ha
  obtain ⟨-, h1, h2, h3, h4⟩ := ha
  unfold storeReg
  dsimp only
  rw [if_neg (by simp [h1, h2]), if_neg (by simp [h3, h4]), any_pair_false hpair, if_neg (by simp), find_pair_none hpair, ]
  simp [hb]

/-- The registers of a pair lie at words of their own, outside the MSI-X table; a ring base's parts belong together. -/
theorem pairs_places : ∀ p ∈ pairs, p.1 % 4 = 0 ∧ p.2 % 4 = 0 ∧ p.1 ≠ p.2 ∧ (p.1 < 0x18000 ∨ 0x20000 ≤ p.1) ∧ (p.2 < 0x18000 ∨ 0x20000 ≤ p.2) ∧
    p.1 ∉ [0x20004, 0x2000C, 0x2002C] ∧ p.2 ∉ [0x20004, 0x20008, 0x20028] ∧ (p.2 = 0x2000C → p.1 = 0x20008) ∧ (p.2 = 0x2002C → p.1 = 0x20028) := by
  decide

/-- The lower register of a pair is found as such, and so is the upper one. -/
theorem pairs_lookup : ∀ p ∈ pairs, pairs.any (fun q => q.1 == p.1) = true ∧ pairs.any (fun q => q.1 == p.2) = false ∧
    pairs.find? (fun q => q.2 == p.2) = some p := by
  decide

/-- A register that lies outside the lanes' registers of SHF. -/
def notLane (r : RegRow) : Bool := decide (r.base < 0xB0000) || decide (0xC0000 ≤ r.base)

theorem pairs_notLane : ∀ p ∈ pairs, (rowOf p.1).all notLane = true ∧ (rowOf p.2).all notLane = true := by decide +kernel

/-- Outside the lanes' registers what is stored is what is written (R130, R141). -/
theorem shfWrite_notLane {r : RegRow} (h : notLane r = true) (m : Mach) (a : Nat) (v : Word) : shfWrite m r a v = v := by
  simp only [notLane, Bool.or_eq_true, decide_eq_true_eq] at h
  unfold shfWrite
  rw [if_neg (by omega), if_neg (by omega)]

/-- What is written to the lower register of a pair is held until the upper one is written (R7). -/
def holdLow (m : Mach) (a : Nat) (w : Word) : Mach := setHost m (fun h => { h with wrHold := tset none h.wrHold a (some w) })

/-- The lower register's held write is spent. -/
def dropLow (m : Mach) (a : Nat) : Mach := setHost m (fun h => { h with wrHold := tset none h.wrHold a none })

theorem storeReg_low {m : Mach} {p : Nat × Nat} {r : RegRow} {v : Word} (hp : p ∈ pairs) (hq : p.1 ∉ [0x20008, 0x20028]) (hr : rowOf p.1 = some r)
    (hw : rwMask r ≠ 0) : storeReg m r p.1 v = holdLow m p.1 (v &&& rwMask r) := by
  obtain ⟨-, -, -, -, -, hplace, -⟩ := pairs_places p hp
  simp only [List.mem_cons, List.not_mem_nil, or_false, not_or] at hplace hq
  have hl : notLane r = true := by simpa [hr] using (pairs_notLane p hp).1
  unfold storeReg
  dsimp only
  rw [if_neg (by simp [hplace, hq]), if_neg (by simp [hplace, hq]), (pairs_lookup p hp).1, if_pos (by simpa using hw), shfWrite_notLane hl]
  rfl

theorem storeReg_high {m : Mach} {p : Nat × Nat} {r : RegRow} {v w : Word} (hp : p ∈ pairs) (hq : p.1 ∉ [0x20008, 0x20028]) (hr : rowOf p.2 = some r)
    (hw : rwMask r ≠ 0) (hh : tget none m.host.wrHold p.1 = some w) : storeReg m r p.2 v =
      setWord (dropLow (setWord m 0 p.1 w) p.1) r.rst p.2
        ((word (setWord m 0 p.1 w) r.rst p.2 &&& ~~~ rwMask r) ||| (v &&& rwMask r)) := by
  obtain ⟨-, -, -, -, -, -, hplace, h1, h2⟩ := pairs_places p hp
  simp only [List.mem_cons, List.not_mem_nil, or_false, not_or] at hplace hq
  obtain ⟨-, h3, h4⟩ := hplace
  have h5 : p.2 ≠ 0x2000C := fun e => hq.1 (h1 e)
  have h6 : p.2 ≠ 0x2002C := fun e => hq.2 (h2 e)
  have hl : notLane r = true := by simpa [hr] using (pairs_notLane p hp).2
  obtain ⟨-, hany, hfind⟩ := pairs_lookup p hp
  unfold storeReg
  dsimp only
  rw [if_neg (by simp [h3, h5]), if_neg (by simp [h4, h6]), hany, if_neg (by simp), hfind]
  dsimp only
  rw [if_neg hw, if_neg h5, if_neg h6, hh, shfWrite_notLane hl]
  rfl

/-! ### The registers of queues and rings -/

/-- The word of a register whose 20 upper bits the host writes, and of one that it writes whole. -/
theorem rwMask_ringBase : ∀ p ∈ [(0x20008, 0x2000C), (0x20028, 0x2002C)],
    (rowOf p.1).any (fun r => rwMask r == 0xFFFFF000 && accMask r .w1c == 0 && notLane r) = true ∧
    (rowOf p.2).any (fun r => rwMask r != 0 && accMask r .w1c == 0 && notLane r) = true := by decide +kernel

/-- A write that is refused (R329, R335). -/
def refuseWrite (m : Mach) (k : Nat) : Mach := raiseCtx m F.QUE_EVENT_DENIED 0 k

/-- A whole write of the lower word of a ring base, and of the upper one, is a `storeReg`. -/
theorem busWrite_ringBase {m : Mach} {p : Nat × Nat} (hm : HostMay m) (hp : p ∈ [(0x20008, 0x2000C), (0x20028, 0x2002C)])
    (hs : m.ctl.st ≠ .dormant) : (∃ r, rwMask r = 0xFFFFF000 ∧ notLane r = true ∧ ∀ v, busWrite p.1 15 v m = storeReg m r p.1 v) ∧
      ∃ r, rwMask r ≠ 0 ∧ notLane r = true ∧ ∀ v, busWrite p.2 15 v m = storeReg m r p.2 v := by
  have hpow (a : Nat) : unpowered m a = false := by simp [unpowered, hs]
  have hplace : 0x20000 ≤ p.1 ∧ 0x20000 ≤ p.2 ∧ p.1 ≠ 0x20004 ∧ p.2 ≠ 0x20004 := by
    revert p
    decide
  obtain ⟨h1, h2⟩ := rwMask_ringBase p hp
  simp only [Option.any_eq_true, Bool.and_eq_true, beq_iff_eq, bne_iff_ne] at h1 h2
  obtain ⟨r1, hr1, ⟨hm1, hc1⟩, hl1⟩ := h1
  obtain ⟨r2, hr2, ⟨hm2, hc2⟩, hl2⟩ := h2
  refine ⟨⟨r1, hm1, hl1, fun v => ?_⟩, r2, hm2, hl2, fun v => ?_⟩
  · rw [busWrite_register hm (hpow _) hr1 (.inr hplace.1), if_neg (not_not.mpr hc1), if_neg hplace.2.2.1, if_neg (by rw [hm1]; decide)]
  · rw [busWrite_register hm (hpow _) hr2 (.inr hplace.2.1), if_neg (not_not.mpr hc2), if_neg hplace.2.2.2, if_neg hm2]

theorem busWrite_queueBaseLow {m : Mach} (hm : HostMay m) (hs : m.ctl.st ≠ .dormant) (v : Word) : busWrite 0x20008 15 v m =
    if queueOpen m (selQueue m) then holdLow m 0x20008 (v &&& 0xFFFFF000#32) else refuseWrite m (selQueue m / 4096) := by
  obtain ⟨⟨r, hr, hl, h⟩, -⟩ := busWrite_ringBase (p := (0x20008, 0x2000C)) hm (by simp) hs
  rw [h, storeReg]
  dsimp only
  rw [shfWrite_notLane hl, hr]
  cases queueOpen m (selQueue m) <;> rfl

theorem busWrite_queueBaseHigh {m : Mach} (hm : HostMay m) (hs : m.ctl.st ≠ .dormant) (v : Word) : busWrite 0x2000C 15 v m =
    if queueOpen m (selQueue m) then
      dropLow (setQue m (selQueue m) (fun x => { x with base := v ++ lowOf m 0x20008 (BitVec.ofNat 32 (queOf m (selQueue m)).base.toNat) })) 0x20008
    else refuseWrite m (selQueue m / 4096) := by
  obtain ⟨-, r, hr, hl, h⟩ := busWrite_ringBase (p := (0x20008, 0x2000C)) hm (by simp) hs
  have hfind : pairs.find? (fun p => p.2 == 0x2000C) = some (0x20008, 0x2000C) := by decide
  have hany : pairs.any (fun p => p.1 == 0x2000C) = false := by decide
  rw [h, storeReg]
  dsimp only
  rw [shfWrite_notLane hl, hany, hfind]
  dsimp only
  rw [if_neg hr]
  cases queueOpen m (selQueue m) <;> rfl

theorem busWrite_ringBaseLow {m : Mach} (hm : HostMay m) (hs : m.ctl.st ≠ .dormant) (v : Word) : busWrite 0x20028 15 v m =
    if ringOpen m (rd m F.QUE_CR_SEL_CR 0) then holdLow m 0x20028 (v &&& 0xFFFFF000#32) else refuseWrite m (rd m F.QUE_CR_SEL_CR 0 / 256) := by
  obtain ⟨⟨r, hr, hl, h⟩, -⟩ := busWrite_ringBase (p := (0x20028, 0x2002C)) hm (by simp) hs
  rw [h, storeReg]
  dsimp only
  rw [shfWrite_notLane hl, hr]
  cases ringOpen m (rd m F.QUE_CR_SEL_CR 0) <;> rfl

theorem busWrite_ringBaseHigh {m : Mach} (hm : HostMay m) (hs : m.ctl.st ≠ .dormant) (v : Word) : busWrite 0x2002C 15 v m =
    if ringOpen m (rd m F.QUE_CR_SEL_CR 0) then
      dropLow (setRing m (rd m F.QUE_CR_SEL_CR 0) (fun x =>
        { x with base := v ++ lowOf m 0x20028 (BitVec.ofNat 32 (ringOf m (rd m F.QUE_CR_SEL_CR 0)).base.toNat) })) 0x20028
    else refuseWrite m (rd m F.QUE_CR_SEL_CR 0 / 256) := by
  obtain ⟨-, r, hr, hl, h⟩ := busWrite_ringBase (p := (0x20028, 0x2002C)) hm (by simp) hs
  have hfind : pairs.find? (fun p => p.2 == 0x2002C) = some (0x20028, 0x2002C) := by decide
  have hany : pairs.any (fun p => p.1 == 0x2002C) = false := by decide
  rw [h, storeReg]
  dsimp only
  rw [shfWrite_notLane hl, hany, hfind]
  dsimp only
  rw [if_neg hr]
  cases ringOpen m (rd m F.QUE_CR_SEL_CR 0) <;> rfl

/-- A write of QUE_Q_CFG (R329). -/
theorem busWrite_queueCfg {m : Mach} (hm : HostMay m) (hs : m.ctl.st ≠ .dormant) (v : Word) : busWrite 0x20004 15 v m = writeQueueCfg m v.toNat := by
  obtain ⟨r, hr, hc⟩ : ∃ r, rowOf 0x20004 = some r ∧ accMask r .w1c = 0 := ⟨_, rfl, by decide⟩
  rw [busWrite_register hm (by simp [unpowered, hs]) hr (by decide), if_neg (not_not.mpr hc), if_pos rfl]

/-! ### What the effects leave, for the statement -/

theorem keeps_setFab (m : Mach) (f : Fabric → Fabric) : Keeps [.fab] m (setFab m f) := by
  intro p hp
  cases p
  case fab => simp at hp
  all_goals rfl

/-- Only the write held for the lower register changes. -/
theorem completes_holdLow {c : Instr} {s : State} (f : Mach → Mach) (a : Nat) (w : Word) (h : exec c s = s.run f)
    (hf : f (fresh s.mach) = holdLow (fresh s.mach) a w) :
    Completes c s (fun t => tget none t.host.wrHold a = some w ∧ Keeps [.host] s.mach t ∧ RegsSame s.mach t ∧ t.out = []) := by
  refine completes_run f h ?_
  rw [hf]
  refine ⟨by simp [holdLow], keeps_settle (keeps_trans (keeps_fresh _ _) (keeps_setHost _ _)), by simp [RegsSame, holdLow], by simp [holdLow]⟩

theorem completes_refuseWrite {c : Instr} {s : State} (f : Mach → Mach) (k : Nat) (h : exec c s = s.run f)
    (hf : f (fresh s.mach) = refuseWrite (fresh s.mach) k) :
    Completes c s (fun t => rd t F.QUE_EVENT_DENIED 0 = 1 ∧ RegsKeep [F.QUE_EVENT_DENIED.addr 0] s.mach t ∧ Keeps [.host] s.mach t) :=
  completes_raiseAs f F.QUE_EVENT_DENIED 0 0 k h hf (by decide) rfl (by decide) (by decide)

/-- One queue of the fabric changes, to `x`. -/
def QueueIs (m : Mach) (q : Nat) (x : Queue) (t : Mach) : Prop :=
  queOf t q = x ∧ (∀ k, k ≠ q → queOf t k = queOf m k) ∧ t.fab = { m.fab with queues := t.fab.queues } ∧ RegsSame m t ∧ t.out = []

/-- One ring of the fabric changes, to `x`. -/
def RingIs (m : Mach) (r : Nat) (x : Ring) (t : Mach) : Prop :=
  ringOf t r = x ∧ (∀ k, k ≠ r → ringOf t k = ringOf m k) ∧ t.fab = { m.fab with rings := t.fab.rings } ∧ RegsSame m t ∧ t.out = []

theorem completes_setQue {c : Instr} {s : State} (f : Mach → Mach) (q : Nat) (g : Queue → Queue) (h : exec c s = s.run f)
    (hf : f (fresh s.mach) = setQue (fresh s.mach) q g) :
    Completes c s (fun t => QueueIs s.mach q (g (queOf s.mach q)) t ∧ Keeps [.fab] s.mach t) := by
  refine completes_run f h ?_
  rw [hf]
  refine ⟨⟨by simp [queOf, setQue], fun k hk => ?_, by simp [setQue], by simp [RegsSame, setQue], by simp [setQue]⟩,
    keeps_settle (keeps_trans (keeps_fresh _ _) (keeps_setFab _ _))⟩
  simp [queOf, setQue, tget_tmod_ne _ _ _ hk]

theorem keeps_dropLow (m : Mach) (a : Nat) : Keeps [.host] m (dropLow m a) := keeps_setHost _ _

/-- A queue's base takes both words, and the write held is spent (R7, R329). -/
theorem completes_setQue_dropLow {c : Instr} {s : State} (f : Mach → Mach) (q a : Nat) (g : Queue → Queue) (h : exec c s = s.run f)
    (hf : f (fresh s.mach) = dropLow (setQue (fresh s.mach) q g) a) :
    Completes c s (fun t => QueueIs s.mach q (g (queOf s.mach q)) t ∧ tget none t.host.wrHold a = none ∧ Keeps [.fab, .host] s.mach t) := by
  refine completes_run f h ?_
  rw [hf]
  refine ⟨⟨by simp [queOf, setQue, dropLow], fun k hk => ?_, by simp [setQue, dropLow], by simp [RegsSame, setQue, dropLow],
    by simp [setQue, dropLow]⟩, by simp [dropLow], keeps_settle ?_⟩
  · simp [queOf, setQue, dropLow, tget_tmod_ne _ _ _ hk]
  · exact keeps_trans (keeps_trans (keeps_fresh _ _) (keeps_mono (keeps_setFab _ _) (by simp))) (keeps_mono (keeps_dropLow _ _) (by simp))

theorem completes_setRing_dropLow {c : Instr} {s : State} (f : Mach → Mach) (r a : Nat) (g : Ring → Ring) (h : exec c s = s.run f)
    (hf : f (fresh s.mach) = dropLow (setRing (fresh s.mach) r g) a) :
    Completes c s (fun t => RingIs s.mach r (g (ringOf s.mach r)) t ∧ tget none t.host.wrHold a = none ∧ Keeps [.fab, .host] s.mach t) := by
  refine completes_run f h ?_
  rw [hf]
  refine ⟨⟨by simp [ringOf, setRing, dropLow], fun k hk => ?_, by simp [setRing, dropLow], by simp [RegsSame, setRing, dropLow],
    by simp [setRing, dropLow]⟩, by simp [dropLow], keeps_settle ?_⟩
  · simp [ringOf, setRing, dropLow, tget_tmod_ne _ _ _ hk]
  · exact keeps_trans (keeps_trans (keeps_fresh _ _) (keeps_mono (keeps_setFab _ _) (by simp))) (keeps_mono (keeps_dropLow _ _) (by simp))

/-! ### The MSI-X table and the EVENT registers -/

theorem sendPending_eq (m : Mach) (v : Nat) : sendPending m v = m ∨ ∃ w, sendPending m v = emit (setWord m 0 (pbaAddr v) w) (.msix v) := by
  unfold sendPending
  dsimp only
  split
  · exact .inr ⟨_, rfl⟩
  · exact .inl rfl

/-- A write of a vector's control word may send the vector that was pending, and takes its pending bit. -/
theorem writeMsix_eq (m : Mach) (k : Nat) (v : Word) : writeMsix m (0x18000 + 4 * k) v =
    if k % 4 = 3 then sendPending (setWord m 1 (0x18000 + 4 * k) (v &&& 1)) (k / 4) else setWord m 0 (0x18000 + 4 * k) v := by
  have h1 : (0x18000 + 4 * k) % 16 = 12 ↔ k % 4 = 3 := by omega
  have h2 : (0x18000 + 4 * k - 0x18000) / 16 = k / 4 := by omega
  simp only [writeMsix, h1, h2]

/-- What a whole write of an MSI-X word leaves. -/
theorem completes_writeMsix {s : State} (k : Fin 8192) (v : Word) (hm : HostMay s.mach) :
    Completes (.registerWrite (0x18000 + 4 * k.val) 15 v) s (fun t =>
      word t (if k.val % 4 = 3 then 1 else 0) (0x18000 + 4 * k.val) = (if k.val % 4 = 3 then v &&& 1 else v) ∧
      (∀ (q : Word) (b : Nat), b ≠ 0x18000 + 4 * k.val → (b < 0x11000 ∨ 0x11100 ≤ b) → word t q b = word s.mach q b) ∧ Keeps [] s.mach t ∧
      OnlyVectors t) := by
  have hk := k.isLt
  refine completes_run _ rfl ?_
  rw [show (0x18000 + 4 * k.val) / 4 * 4 = 0x18000 + 4 * k.val by omega, busWrite_msix (m := fresh s.mach) hm (by omega) (by omega), writeMsix_eq]
  have hset (r w : Word) : Keeps [] s.mach (setWord (fresh s.mach) r (0x18000 + 4 * k.val) w) := keeps_trans (keeps_fresh _ _) (keeps_setWord _ _ _ _ _)
  simp only [word_settle, OnlyVectors, settle_out]
  split
  · obtain h | ⟨w, h⟩ := sendPending_eq (setWord (fresh s.mach) 1 (0x18000 + 4 * k.val) (v &&& 1)) (k.val / 4)
    · rw [h]
      refine ⟨word_setWord_same _ _ _ _, fun q b hb _ => word_setWord_ne _ _ _ _ _ _ hb, keeps_settle (hset _ _), ?_⟩
      simp [setWord]
    · rw [h]
      have hpba : pbaAddr (k.val / 4) = 0x11000 + 4 * (k.val / 4 / 32) := rfl
      refine ⟨?_, fun q b hb hr => ?_, keeps_settle (keeps_trans (keeps_trans (hset _ _) (keeps_setWord _ _ _ _ _)) (keeps_emit _ _ _)), ?_⟩
      · exact (word_setWord_ne _ _ _ _ _ _ (by omega)).trans (word_setWord_same _ _ _ _)
      · exact (word_setWord_ne _ _ _ _ _ _ (by omega)).trans (word_setWord_ne _ _ _ _ _ _ hb)
      · simp [emit, setWord]
  · refine ⟨word_setWord_same _ _ _ _, fun q b hb _ => word_setWord_ne _ _ _ _ _ _ hb, keeps_settle (hset _ _), ?_⟩
    simp [setWord]

/-- The flag that a write of 1 does not clear: CHAFF_LOST while a swap is required (R213). -/
def stuckFlag (m : Mach) (a : Nat) : Word :=
  if a = F.CHF_EVENT_CHAFF_LOST.base ∧ m.chaff.needSwap then 1#32 <<< F.CHF_EVENT_CHAFF_LOST.lo else 0

theorem stuckFlag_getLsbD (m : Mach) (a i : Nat) (hi : i < 32) : (stuckFlag m a).getLsbD i =
    (decide (a = F.CHF_EVENT_CHAFF_LOST.base ∧ i = F.CHF_EVENT_CHAFF_LOST.lo) && m.chaff.needSwap) := by
  unfold stuckFlag
  split
  · next h =>
    have hlo : (1#32 <<< F.CHF_EVENT_CHAFF_LOST.lo).getLsbD i = decide (i = F.CHF_EVENT_CHAFF_LOST.lo) := by
      rw [show (1#32) = BitVec.ofNat 32 (2 ^ 1 - 1) from rfl, fieldMask_getLsbD _ _ _ hi]
      by_cases e : i = F.CHF_EVENT_CHAFF_LOST.lo <;> simp [e]
      omega
    rw [hlo]
    simp [h]
  · next h =>
    by_cases e : a = F.CHF_EVENT_CHAFF_LOST.base
    · have : m.chaff.needSwap = false := by simpa [e] using h
      simp [this]
    · simp [e]

/-- A write of an EVENT register stores the flags that are left, and may send the vector again (R5, R348). -/
theorem clearFlags_eq (m : Mach) (r : RegRow) (a : Nat) (v : Word) :
    let m1 := setWord m r.rst a (word m r.rst a &&& ~~~ (v &&& accMask r .w1c &&& ~~~ stuckFlag m a))
    clearFlags m r a v = m1 ∨ ∃ o, clearFlags m r a v = emit m1 o := by
  intro m1
  have h : clearFlags m r a v = if word m1 r.rst a &&& accMask r .w1c ≠ 0 ∧ !msixMasked m1 (regVector r a) ∧ !m1.ctl.d3hot
    then emit m1 (.msix (regVector r a)) else m1 := rfl
  rw [h]
  split
  · exact .inr ⟨_, rfl⟩
  · exact .inl rfl

theorem word_clearFlags_same (m : Mach) (r : RegRow) (a : Nat) (v : Word) :
    word (clearFlags m r a v) r.rst a = word m r.rst a &&& ~~~ (v &&& accMask r .w1c &&& ~~~ stuckFlag m a) := by
  obtain h | ⟨o, h⟩ := clearFlags_eq m r a v <;> rw [h] <;> exact word_setWord_same _ _ _ _

theorem word_clearFlags_ne (m : Mach) (r : RegRow) (a b : Nat) (q v : Word) (hb : b ≠ a) : word (clearFlags m r a v) q b = word m q b := by
  obtain h | ⟨o, h⟩ := clearFlags_eq m r a v <;> rw [h] <;> exact word_setWord_ne _ _ _ _ _ _ hb

theorem keeps_clearFlags (but : List Part) (m : Mach) (r : RegRow) (a : Nat) (v : Word) : Keeps but m (clearFlags m r a v) := by
  obtain h | ⟨o, h⟩ := clearFlags_eq m r a v <;> rw [h]
  · exact keeps_setWord _ _ _ _ _
  · exact keeps_trans (keeps_setWord _ _ _ _ _) (keeps_emit _ _ _)

/-! ### The statement -/

/-- A write of a whole aligned word. -/
theorem exec_registerWrite {a : Nat} (h4 : a % 4 = 0) (be : BitVec 4) (v : Word) (s : State) :
    exec (.registerWrite a be v) s = s.run (busWrite a be v) := by
  change s.run (busWrite (a / 4 * 4) be v) = _
  rw [show a / 4 * 4 = a by omega]

/-- With no bit to store the word stays. -/
theorem storeBits_none (w u : Word) : (w &&& ~~~ (0 : Word)) ||| (u &&& (0 : Word)) = w := by
  change (w &&& ~~~ 0#32) ||| (u &&& 0#32) = w
  rw [BitVec.not_zero, BitVec.and_allOnes, BitVec.and_zero, BitVec.or_zero]

theorem write_plain (s : State) (a : Nat) (v : Word) (r : RegRow) (hm : HostMay s.mach) (h4 : a % 4 = 0) (hp : unpowered s.mach a = false)
    (hr : rowOf a = some r) (ha : a ∉ [0x20004, 0x20008, 0x2000C, 0x20028, 0x2002C]) (hpair : ∀ p ∈ pairs, p.1 ≠ a ∧ p.2 ≠ a)
    (hx : a < 0x18000 ∨ 0x20000 ≤ a) (hc : accMask r .w1c = 0) (hb : r.base ≠ 0xB0030) :
    Completes (.registerWrite a 15 v) s (fun t =>
      word t r.rst a = (word s.mach r.rst a &&& ~~~ rwMask r) ||| (shfWrite s.mach r a v &&& rwMask r) ∧
      (∀ (q : Word) (b : Nat), b ≠ a → word t q b = word s.mach q b) ∧ Keeps [] s.mach t ∧ t.out = []) := by
  have h20004 : a ≠ 0x20004 := fun e => ha (by simp [e])
  refine completes_run _ (exec_registerWrite h4 15 v s) ?_
  rw [busWrite_register (m := fresh s.mach) hm hp hr hx, if_neg (not_not.mpr hc), if_neg h20004]
  split
  · next h =>
    rw [h, storeBits_none]
    exact ⟨by simp, by simp, keeps_settle (keeps_fresh _ _), by simp⟩
  · rw [storeReg_plain ha hpair hb]
    refine ⟨?_, fun q b hne => ?_, keeps_settle (keeps_trans (keeps_fresh _ _) (keeps_setWord _ _ _ _ _)), by simp [setWord]⟩
    · rw [word_settle, word_setWord_same]
      rfl
    · rw [word_settle, word_setWord_ne _ _ _ _ _ _ hne, word_fresh]

theorem write_pair (s : State) (p : Nat × Nat) (v : Word) (lo hi : RegRow) (hm : HostMay s.mach) (hp : p ∈ pairs) (hq : p.1 ∉ [0x20008, 0x20028])
    (hlo : rowOf p.1 = some lo) (hhi : rowOf p.2 = some hi) (hp1 : unpowered s.mach p.1 = false) (hp2 : unpowered s.mach p.2 = false)
    (hw1 : rwMask lo ≠ 0) (hw2 : rwMask hi ≠ 0) (hc1 : accMask lo .w1c = 0) (hc2 : accMask hi .w1c = 0) :
    Completes (.registerWrite p.1 15 v) s (fun t => tget none t.host.wrHold p.1 = some (v &&& rwMask lo) ∧ Keeps [.host] s.mach t ∧
      RegsSame s.mach t ∧ t.out = []) ∧
    (∀ w : Word, tget none s.mach.host.wrHold p.1 = some w → Completes (.registerWrite p.2 15 v) s (fun t =>
      word t 0 p.1 = w ∧ word t hi.rst p.2 = (word s.mach hi.rst p.2 &&& ~~~ rwMask hi) ||| (v &&& rwMask hi) ∧
      tget none t.host.wrHold p.1 = none ∧ (∀ (q : Word) (b : Nat), b ≠ p.1 → b ≠ p.2 → word t q b = word s.mach q b) ∧
      Keeps [.host] s.mach t ∧ t.out = [])) := by
  obtain ⟨h41, h42, hne, hx1, hx2, hn1, hn2, -, -⟩ := pairs_places p hp
  have hcfg1 : p.1 ≠ 0x20004 := fun e => hn1 (by simp [e])
  have hcfg2 : p.2 ≠ 0x20004 := fun e => hn2 (by simp [e])
  refine ⟨completes_holdLow _ _ _ (exec_registerWrite h41 15 v s) ?_, fun w hw => completes_run _ (exec_registerWrite h42 15 v s) ?_⟩
  · rw [busWrite_register (m := fresh s.mach) hm hp1 hlo hx1, if_neg (not_not.mpr hc1), if_neg hcfg1, if_neg hw1, storeReg_low hp hq hlo hw1]
  · rw [busWrite_register (m := fresh s.mach) hm hp2 hhi hx2, if_neg (not_not.mpr hc2), if_neg hcfg2, if_neg hw2,
      storeReg_high (m := fresh s.mach) hp hq hhi hw2 hw]
    simp only [word_settle, settle_host, settle_out]
    refine ⟨?_, ?_, ?_, fun q b hb1 hb2 => ?_, keeps_settle ?_, rfl⟩
    · exact (word_setWord_ne _ _ _ _ _ _ hne).trans (word_setWord_same _ _ _ _)
    · rw [word_setWord_same, word_setWord_ne _ _ _ _ _ _ hne.symm, word_fresh]
    · exact tget_tset_same (none : Option Word) none _ _
    · exact (word_setWord_ne _ _ _ _ _ _ hb2).trans (word_setWord_ne _ _ _ _ _ _ hb1)
    · refine keeps_trans (keeps_trans (keeps_trans (keeps_fresh _ _) (keeps_setWord _ _ _ _ _)) (keeps_dropLow _ _)) (keeps_setWord _ _ _ _ _)

theorem write_event (s : State) (a : Nat) (v : Word) (r : RegRow) (hm : HostMay s.mach) (h4 : a % 4 = 0) (hp : unpowered s.mach a = false)
    (hr : rowOf a = some r) (hx : a < 0x18000 ∨ 0x20000 ≤ a) (hc : accMask r .w1c ≠ 0) :
    Completes (.registerWrite a 15 v) s (fun t =>
      (∀ i < 32, (word t r.rst a).getLsbD i = ((word s.mach r.rst a).getLsbD i && !(v.getLsbD i && (accMask r .w1c).getLsbD i &&
        !(decide (a = F.CHF_EVENT_CHAFF_LOST.base ∧ i = F.CHF_EVENT_CHAFF_LOST.lo) && s.mach.chaff.needSwap)))) ∧
      (∀ (q : Word) (b : Nat), b ≠ a → word t q b = word s.mach q b) ∧ Keeps [] s.mach t) := by
  refine completes_run _ (exec_registerWrite h4 15 v s) ?_
  rw [busWrite_register (m := fresh s.mach) hm hp hr hx, if_pos hc]
  simp only [word_settle]
  refine ⟨fun i hi => ?_, fun q b hb => word_clearFlags_ne _ _ _ _ _ _ hb, keeps_settle (keeps_trans (keeps_fresh _ _) (keeps_clearFlags _ _ _ _ _))⟩
  rw [word_clearFlags_same]
  simp only [BitVec.getLsbD_and, BitVec.getLsbD_not, stuckFlag_getLsbD _ _ _ hi, hi, decide_true, Bool.true_and, word_fresh, fresh_chaff]

theorem write_partial (s : State) (a : Nat) (be : BitVec 4) (v : Word) (hm : HostMay s.mach) (h4 : a % 4 = 0) (hp : unpowered s.mach a = false)
    (hr : (rowOf a).isSome = true) (h0 : be ≠ 0) (h15 : be ≠ 15) (ha : a ≠ 0x82110) :
    Completes (.registerWrite a be v) s (fun t => rd t F.HST_EVENT_PARTIAL_WRITE 0 = 1 ∧
      rd t F.HST_CNT_PARTIAL_WRITE 0 = min (rd s.mach F.HST_CNT_PARTIAL_WRITE 0 + 1) (2 ^ F.HST_CNT_PARTIAL_WRITE.w - 1) ∧
      RegsKeep [F.HST_EVENT_PARTIAL_WRITE.addr 0, F.HST_CNT_PARTIAL_WRITE.addr 0] s.mach t ∧ Keeps [.host] s.mach t) := by
  refine completes_run _ (exec_registerWrite h4 be v s) ?_
  rw [busWrite_partial (m := fresh s.mach) hm hp hr h0 h15 ha, raiseCount, raise]
  refine ⟨?_, ?_, regsKeep_settle ?_, keeps_settle ?_⟩
  · rw [rd_settle, rd_inc_ne _ _ _ _ _ (by decide), rd_raiseAs_same _ _ _ _ _ (by decide) rfl (by decide)]
  · rw [rd_settle, rd_inc_same _ _ _ (by decide), rd_raiseAs_ne _ _ _ _ _ _ _ (by decide) (by decide), rd_fresh]
  · exact regsKeep_inc _ _ (by simp) (regsKeep_raiseAs _ _ _ _ (by simp) (by decide) (regsKeep_fresh _ _))
  · exact keeps_trans (keeps_trans (keeps_fresh _ _) (keeps_raiseAs _ _ _ _ _)) (keeps_inc _ _ _ _)

/-- The fields of QUE_Q_CFG, as the word written has them. -/
theorem writeQueueCfg_open {m : Mach} {v : Word} (h : queueOpen m (selQueue m) = true) (h4 : 4 ≤ v.toNat % 32) (h16 : v.toNat % 32 ≤ 16) :
    writeQueueCfg m v.toNat = setQue m (selQueue m) (fun x => { x with
      cr := v.toNat / 65536 % 256, ordered := v.getLsbD 15, ltiller := v.toNat / 256 % 8, log2Size := v.toNat % 32 }) := by
  have hb (lo w : Nat) : bits v.toNat lo w = v.toNat / 2 ^ lo % 2 ^ w := by rw [bits, Nat.shiftRight_eq_div_pow]
  have hw : within 4 (bits v.toNat 0 5) 16 = true := by simp [within, hb, h4, h16]
  unfold writeQueueCfg
  dsimp only
  rw [if_neg (by simp [h, hw])]
  simp only [hb, Nat.pow_zero, Nat.div_one]
  rfl

theorem writeQueueCfg_refused {m : Mach} {v : Word} (h : queueOpen m (selQueue m) = false ∨ v.toNat % 32 < 4 ∨ 16 < v.toNat % 32) :
    writeQueueCfg m v.toNat = refuseWrite m (selQueue m / 4096) := by
  have hb : bits v.toNat 0 5 = v.toNat % 32 := by simp [bits]
  unfold writeQueueCfg
  dsimp only
  refine if_pos ?_
  rw [hb, Bool.or_eq_true, Bool.not_eq_true', Bool.not_eq_true']
  simp only [within, Bool.and_eq_false_iff, decide_eq_false_iff_not]
  exact h.imp_right (by omega)

theorem notDormant {m : Mach} (h : unpowered m 0x20004 = false) : m.ctl.st ≠ .dormant := by
  intro e
  simp [unpowered, e] at h

/-- Settles O14: each kind of register has its lemma above; the QUE registers go to the selected queue or ring. -/
theorem registerWritesFollowTheAccessTypes : Obligations.RegisterWritesFollowTheAccessTypes := by
  refine ⟨write_plain, write_pair, fun s k v hm => completes_writeMsix k v hm, write_event, write_partial, ?nothing, ?queues⟩
  case nothing =>
    intro s a be v hm h4 h
    refine completes_mono (completes_nothing _ (exec_registerWrite h4 be v s) (busWrite_nothing (m := fresh s.mach) hm h)) ?_
    exact fun t ⟨hk, hg, ho⟩ => ⟨ho, hk, hg⟩
  case queues =>
    intro s v hm hpow
    have hs : (fresh s.mach).ctl.st ≠ .dormant := notDormant hpow
    have hm' : HostMay (fresh s.mach) := hm
    have ex (a : Nat) (h4 : a % 4 = 0) := exec_registerWrite h4 15 v s
    refine ⟨?_, ?_, ?_, ?_, ?_, ?_⟩
    · intro ho h4 h16
      refine completes_setQue _ _ (fun x => { x with cr := _, ordered := _, ltiller := _, log2Size := _ }) (ex 0x20004 rfl) ?_
      rw [busWrite_queueCfg hm' hs]
      exact writeQueueCfg_open (m := fresh s.mach) ho h4 h16
    · intro ho
      refine completes_refuseWrite _ (selQueue s.mach / 4096) (ex 0x20004 rfl) ?_
      rw [busWrite_queueCfg hm' hs]
      exact writeQueueCfg_refused (m := fresh s.mach) ho
    · intro ho
      refine ⟨completes_holdLow _ _ _ (ex 0x20008 rfl) ?_,
        completes_setQue_dropLow _ _ _ (fun x => { x with base := _ }) (ex 0x2000C rfl) ?_⟩
      · rw [busWrite_queueBaseLow hm' hs]
        exact if_pos ho
      · rw [busWrite_queueBaseHigh hm' hs]
        exact if_pos ho
    · intro ho a ha
      simp only [List.mem_cons, List.not_mem_nil, or_false] at ha
      obtain rfl | rfl := ha
      · refine completes_refuseWrite _ (selQueue s.mach / 4096) (ex _ rfl) ?_
        rw [busWrite_queueBaseLow hm' hs]
        exact if_neg (Bool.eq_false_iff.mp ho)
      · refine completes_refuseWrite _ (selQueue s.mach / 4096) (ex _ rfl) ?_
        rw [busWrite_queueBaseHigh hm' hs]
        exact if_neg (Bool.eq_false_iff.mp ho)
    · intro ho
      refine ⟨completes_holdLow _ _ _ (ex 0x20028 rfl) ?_,
        completes_setRing_dropLow _ _ _ (fun x => { x with base := _ }) (ex 0x2002C rfl) ?_⟩
      · rw [busWrite_ringBaseLow hm' hs]
        exact if_pos ho
      · rw [busWrite_ringBaseHigh hm' hs]
        exact if_pos ho
    · intro ho a ha
      simp only [List.mem_cons, List.not_mem_nil, or_false] at ha
      obtain rfl | rfl := ha
      · refine completes_refuseWrite _ (rd s.mach F.QUE_CR_SEL_CR 0 / 256) (ex _ rfl) ?_
        rw [busWrite_ringBaseLow hm' hs]
        exact if_neg (Bool.eq_false_iff.mp ho)
      · refine completes_refuseWrite _ (rd s.mach F.QUE_CR_SEL_CR 0 / 256) (ex _ rfl) ?_
        rw [busWrite_ringBaseHigh hm' hs]
        exact if_neg (Bool.eq_false_iff.mp ho)

end Sys2Proof.Machine

/-!
PROOFS. Clocks, droops and trims (R439 to R441, R443): what the end of a clock change leaves, and what a trim step does.
-/

namespace Sys2Proof.Machine

theorem keeps_setPower (m : Mach) (f : Power → Power) : Keeps [.power] m (setPower m f) := by
  intro p hp
  cases p
  case power => simp at hp
  all_goals rfl

theorem keeps_setTil (m : Mach) (t : Nat) (f : Tiller → Tiller) : Keeps [.fab] m (setTil m t f) := keeps_setFab _ _

@[simp] theorem tilOf_setTil_same (m : Mach) (t : Nat) (f : Tiller → Tiller) : tilOf (setTil m t f) t = f (tilOf m t) := by
  simp [tilOf, setTil]

theorem tilOf_setTil_ne (m : Mach) (f : Tiller → Tiller) {t k : Nat} (h : k ≠ t) : tilOf (setTil m t f) k = tilOf m k := by
  simp [tilOf, setTil, tget_tmod_ne _ _ _ h]

/-- Tillers read alike when the fabric is the same. -/
theorem tilOf_congr {m n : Mach} (h : m.fab = n.fab) (t : Nat) : tilOf m t = tilOf n t := by
  unfold tilOf
  rw [h]

theorem trimWaits_congr {m n : Mach} (h : m.fab = n.fab) (die : Nat) : trimWaits m die = trimWaits n die := by
  unfold trimWaits
  simp only [tilOf_congr h]

/-! ### The count of a droop's time (R443) -/

/-- The time of a droop goes to the throttling counts and PWR_THROTTLE, and nowhere else. -/
theorem accrueDroop_eq (m : Mach) : ∃ thr from_ v, accrueDroop m =
    wr (setPower m (fun p => { p with thrNs := thr, droopFrom := from_ })) F.PWR_THROTTLE_ACTIVE 0 v := by
  unfold accrueDroop
  dsimp only
  split
  · exact ⟨_, _, _, rfl⟩
  · exact ⟨m.power.thrNs, _, _, rfl⟩

@[simp] theorem accrueDroop_fab (m : Mach) : (accrueDroop m).fab = m.fab := by
  obtain ⟨a, b, v, h⟩ := accrueDroop_eq m
  rw [h]
  rfl

@[simp] theorem accrueDroop_out (m : Mach) : (accrueDroop m).out = m.out := by
  obtain ⟨a, b, v, h⟩ := accrueDroop_eq m
  rw [h]
  rfl

theorem accrueDroop_trims (m : Mach) : (accrueDroop m).power.trimHeld = m.power.trimHeld := by
  obtain ⟨a, b, v, h⟩ := accrueDroop_eq m
  rw [h]
  rfl

theorem keeps_accrueDroop (m : Mach) : Keeps [.power] m (accrueDroop m) := by
  obtain ⟨a, b, v, h⟩ := accrueDroop_eq m
  rw [h]
  exact keeps_wr _ _ _ (keeps_setPower _ _)

theorem word_accrueDroop_ne (m : Mach) (q : Word) {b : Nat} (hb : b ≠ F.PWR_THROTTLE_ACTIVE.addr 0) : word (accrueDroop m) q b = word m q b := by
  obtain ⟨x, y, v, h⟩ := accrueDroop_eq m
  rw [h]
  exact word_setWord_ne _ _ _ _ _ _ hb

theorem rd_accrueDroop_ne (m : Mach) (g : Fld) (j : Nat) (h : g.addr j ≠ F.PWR_THROTTLE_ACTIVE.addr 0) : rd (accrueDroop m) g j = rd m g j := by
  unfold rd
  rw [word_accrueDroop_ne m _ h]

/-! ### The trims of the dies (R440, R441) -/

theorem sext_twos {v : Int} (h1 : -128 ≤ v) (h2 : v < 128) : sext 8 (twos 8 v % 2 ^ 8) = v := by
  have h : (twos 8 v : Int) = v % 256 := Int.toNat_of_nonneg (by omega)
  unfold sext
  split <;> omega

theorem sext_bounds (n : Nat) : -128 ≤ sext 8 n ∧ sext 8 n < 128 := by
  unfold sext
  split <;> omega

/-- The four trims are bytes of one word. -/
theorem trimFld_facts : ∀ d : Fin 4, (trimFld d).fits = true ∧ (trimFld d).w = 8 ∧ (trimFld d).addr 0 = F.PWR_VTRIM_IO.addr 0 ∧
    (trimFld d).rst = F.PWR_VTRIM_IO.rst := by decide

theorem trimFld_apart : ∀ d e : Fin 4, d ≠ e →
    (trimFld d).lo + (trimFld d).w ≤ (trimFld e).lo ∨ (trimFld e).lo + (trimFld e).w ≤ (trimFld d).lo := by decide

/-- The step that a die's trim is at, in steps of 5 mV. -/
def trimNow (m : Mach) (d : Nat) : Int := sext 8 (rd m (trimFld d) 0)

theorem trimNow_congr {m n : Mach} (d : Fin 4) (h : word m F.PWR_VTRIM_IO.rst (F.PWR_VTRIM_IO.addr 0) = word n F.PWR_VTRIM_IO.rst (F.PWR_VTRIM_IO.addr 0)) :
    trimNow m d = trimNow n d := by
  obtain ⟨-, -, ha, hr⟩ := trimFld_facts d
  unfold trimNow rd
  rw [ha, hr, h]

/-- A trim set to a step within its byte stands at that step; the other dies' trims stay. -/
theorem trimNow_setTrim_same (m : Mach) (d : Fin 4) {v : Int} (h1 : -128 ≤ v) (h2 : v < 128) : trimNow (setTrim m d v) d = v := by
  obtain ⟨hf, hw, -, -⟩ := trimFld_facts d
  have h : rd (setTrim m d v) (trimFld d) 0 = twos 8 v % 2 ^ (trimFld d).w := rd_wr_same m (trimFld d) 0 (twos 8 v) hf
  rw [trimNow, h, hw, sext_twos h1 h2]

theorem rd_setTrim_other (m : Mach) {d e : Fin 4} (v : Int) (h : e ≠ d) : rd (setTrim m d v) (trimFld e) 0 = rd m (trimFld e) 0 := by
  obtain ⟨hf, -, ha, hr⟩ := trimFld_facts d
  obtain ⟨-, -, ha', hr'⟩ := trimFld_facts e
  exact rd_wr_other m (trimFld d) (trimFld e) 0 0 _ hf (ha'.trans ha.symm) (hr'.trans hr.symm) (trimFld_apart d e h.symm)

theorem word_setTrim_ne (m : Mach) (d : Fin 4) (v : Int) (q : Word) {b : Nat} (h : b ≠ F.PWR_VTRIM_IO.addr 0) :
    word (setTrim m d v) q b = word m q b :=
  word_setWord_ne _ _ _ _ _ _ ((trimFld_facts d).2.2.1 ▸ h)

theorem keeps_setTrim (m : Mach) (d : Nat) (v : Int) : Keeps [.power] m (setTrim m d v) :=
  keeps_trans (keeps_wr (m := m) _ _ _ (keeps_refl _ _)) (keeps_setPower _ _)

/-- Where a die's trim stands once nothing holds its steps back (R440, R441). -/
def freedTrim (m : Mach) (d : Nat) : Int :=
  if tget 0 m.power.trimHeld d = 0 ∨ trimWaits m d = true then trimNow m d else max (-12) (min 8 (trimNext m d))

/-- A die's steps are made, or the machine stays. -/
theorem freeTrim_eq (m : Mach) (d : Fin 4) : freeTrim m d = m ∨ (¬ (tget 0 m.power.trimHeld d = 0 ∨ trimWaits m d = true) ∧
    freeTrim m d = setPower (setTrim m d (max (-12) (min 8 (trimNext m d)))) (fun p => { p with trimHeld := tset 0 p.trimHeld d 0 })) := by
  unfold freeTrim
  dsimp only
  split
  · exact .inl rfl
  · next h => exact .inr ⟨h, rfl⟩

theorem freeTrim_fab (m : Mach) (d : Fin 4) : (freeTrim m d).fab = m.fab := by
  obtain h | ⟨-, h⟩ := freeTrim_eq m d
  · rw [h]
  · rw [h]; rfl

theorem freeTrim_out (m : Mach) (d : Fin 4) : (freeTrim m d).out = m.out := by
  obtain h | ⟨-, h⟩ := freeTrim_eq m d
  · rw [h]
  · rw [h]; rfl

theorem keeps_freeTrim (m : Mach) (d : Fin 4) : Keeps [.power] m (freeTrim m d) := by
  obtain h | ⟨-, h⟩ := freeTrim_eq m d <;> rw [h]
  · exact keeps_refl _ _
  · exact keeps_trans (keeps_setTrim _ _ _) (keeps_setPower _ _)

theorem word_freeTrim_ne (m : Mach) (d : Fin 4) (q : Word) {b : Nat} (hb : b ≠ F.PWR_VTRIM_IO.addr 0) : word (freeTrim m d) q b = word m q b := by
  obtain h | ⟨-, h⟩ := freeTrim_eq m d <;> rw [h]
  exact word_setTrim_ne m d _ q hb

theorem trimNow_freeTrim_same (m : Mach) (d : Fin 4) : trimNow (freeTrim m d) d = freedTrim m d := by
  by_cases hw : tget 0 m.power.trimHeld d = 0 ∨ trimWaits m d = true
  · have h : freeTrim m d = m := if_pos hw
    rw [h, freedTrim, if_pos hw]
  · have h : freeTrim m d = setPower (setTrim m d (max (-12) (min 8 (trimNext m d)))) (fun p => { p with trimHeld := tset 0 p.trimHeld d 0 }) :=
      if_neg hw
    rw [h, freedTrim, if_neg hw]
    exact trimNow_setTrim_same m d (by omega) (by omega)

/-- The other dies' trims, and what is held of theirs, stay. -/
theorem freeTrim_other (m : Mach) {d e : Fin 4} (h : e ≠ d) :
    trimNow (freeTrim m d) e = trimNow m e ∧ freedTrim (freeTrim m d) e = freedTrim m e := by
  have hne : (e : Nat) ≠ d := fun x => h (Fin.ext x)
  have hnow : trimNow (freeTrim m d) e = trimNow m e := by
    obtain hx | ⟨-, hx⟩ := freeTrim_eq m d <;> rw [hx]
    exact congrArg (sext 8) (rd_setTrim_other m _ h)
  have hheld : tget 0 (freeTrim m d).power.trimHeld e = tget 0 m.power.trimHeld e := by
    obtain hx | ⟨-, hx⟩ := freeTrim_eq m d <;> rw [hx]
    exact tget_tset_ne 0 0 m.power.trimHeld hne
  refine ⟨hnow, ?_⟩
  have hnext : trimNext (freeTrim m d) e = trimNext m e := congrArg₂ (· + ·) hnow hheld
  unfold freedTrim
  rw [hnow, hheld, hnext, trimWaits_congr (freeTrim_fab m d)]

/-- The steps of a list of dies are made, each once. -/
def freeTrims (ds : List (Fin 4)) (m : Mach) : Mach := ds.foldl (fun m d => freeTrim m d) m

theorem trimNow_freeTrims_notMem (ds : List (Fin 4)) (m : Mach) {e : Fin 4} (h : e ∉ ds) : trimNow (freeTrims ds m) e = trimNow m e := by
  induction ds generalizing m with
  | nil => rfl
  | cons d ds ih =>
    simp only [List.mem_cons, not_or] at h
    exact (ih (freeTrim m d) h.2).trans (freeTrim_other m h.1).1

theorem trimNow_freeTrims_mem (ds : List (Fin 4)) (m : Mach) {e : Fin 4} (hn : ds.Nodup) (h : e ∈ ds) : trimNow (freeTrims ds m) e = freedTrim m e := by
  induction ds generalizing m with
  | nil => simp at h
  | cons d ds ih =>
    rw [List.nodup_cons] at hn
    by_cases he : e = d
    · subst he
      exact (trimNow_freeTrims_notMem ds (freeTrim m e) hn.1).trans (trimNow_freeTrim_same m e)
    · exact (ih (freeTrim m d) hn.2 (by simpa [he] using h)).trans (freeTrim_other m he).2

/-- The end of a clock change frees the trims of all four dies (R440). -/
theorem clockSettled_eq (m : Mach) : clockSettled m = accrueDroop (freeTrims [0, 1, 2, 3] m) := rfl

theorem freeTrims_frame (ds : List (Fin 4)) (m : Mach) : (freeTrims ds m).fab = m.fab ∧ (freeTrims ds m).out = m.out ∧ Keeps [.power] m (freeTrims ds m) ∧
    ∀ (q : Word) (b : Nat), b ≠ F.PWR_VTRIM_IO.addr 0 → word (freeTrims ds m) q b = word m q b := by
  induction ds generalizing m with
  | nil => exact ⟨rfl, rfl, keeps_refl _ _, fun _ _ _ => rfl⟩
  | cons d ds ih =>
    obtain ⟨hf, ho, hk, hw⟩ := ih (freeTrim m d)
    exact ⟨hf.trans (freeTrim_fab m d), ho.trans (freeTrim_out m d), keeps_trans (keeps_freeTrim m d) hk,
      fun q b hb => (hw q b hb).trans (word_freeTrim_ne m d q hb)⟩

@[simp] theorem clockSettled_fab (m : Mach) : (clockSettled m).fab = m.fab := by
  rw [clockSettled_eq, accrueDroop_fab, (freeTrims_frame _ m).1]

@[simp] theorem clockSettled_out (m : Mach) : (clockSettled m).out = m.out := by
  rw [clockSettled_eq, accrueDroop_out, (freeTrims_frame _ m).2.1]

theorem keeps_clockSettled (m : Mach) : Keeps [.power] m (clockSettled m) := by
  rw [clockSettled_eq]
  exact keeps_trans (freeTrims_frame _ m).2.2.1 (keeps_accrueDroop _)

theorem word_clockSettled_ne (m : Mach) (q : Word) {b : Nat} (h1 : b ≠ F.PWR_VTRIM_IO.addr 0) (h2 : b ≠ F.PWR_THROTTLE_ACTIVE.addr 0) :
    word (clockSettled m) q b = word m q b := by
  rw [clockSettled_eq, word_accrueDroop_ne _ _ h2, (freeTrims_frame _ m).2.2.2 q b h1]

/-- Once a clock change has ended every die's trim stands where `freedTrim` says. -/
theorem trimNow_clockSettled (m : Mach) (d : Fin 4) : trimNow (clockSettled m) d = freedTrim m d := by
  have hmem : d ∈ [0, 1, 2, 3] := by
    revert d
    decide
  rw [clockSettled_eq, trimNow_congr (n := freeTrims [0, 1, 2, 3] m) d (word_accrueDroop_ne _ _ (by decide)),
    trimNow_freeTrims_mem [0, 1, 2, 3] m (by decide) hmem]


@[simp] theorem tilOf_settle (n m : Mach) (t : Nat) : tilOf (settle n m) t = tilOf m t := tilOf_congr (settle_fab n m) t
@[simp] theorem tilOf_fresh (m : Mach) (t : Nat) : tilOf (fresh m) t = tilOf m t := rfl
@[simp] theorem tilOf_accrueDroop (m : Mach) (t : Nat) : tilOf (accrueDroop m) t = tilOf m t := tilOf_congr (accrueDroop_fab m) t
@[simp] theorem tilOf_clockSettled (m : Mach) (t : Nat) : tilOf (clockSettled m) t = tilOf m t := tilOf_congr (clockSettled_fab m) t
@[simp] theorem tilOf_wr (m : Mach) (f : Fld) (i v t : Nat) : tilOf (wr m f i v) t = tilOf m t := rfl
@[simp] theorem tilOf_inc (m : Mach) (f : Fld) (i t : Nat) : tilOf (inc m f i) t = tilOf m t := rfl

/-! ### A Tiller's clock switches (R440) -/

theorem clkFreq_facts : ∀ n : Fin 8, F.TIL_CLK_FREQ_MHZ.addr n ≠ F.PWR_VTRIM_IO.addr 0 ∧ F.TIL_CLK_FREQ_MHZ.addr n ≠ F.PWR_THROTTLE_ACTIVE.addr 0 ∧
    F.TIL_CLK_FREQ_MHZ.addr n ≠ F.PWR_DROOP_CNT_DROOPS.addr 0 := by decide

theorem rd_clkFreq_clockSettled (m : Mach) (n : Fin 8) : rd (clockSettled m) F.TIL_CLK_FREQ_MHZ n = rd m F.TIL_CLK_FREQ_MHZ n := by
  obtain ⟨h1, h2, -⟩ := clkFreq_facts n
  unfold rd
  rw [word_clockSettled_ne m _ h1 h2]

theorem rd_clkFreq_accrueDroop (m : Mach) (n : Fin 8) : rd (accrueDroop m) F.TIL_CLK_FREQ_MHZ n = rd m F.TIL_CLK_FREQ_MHZ n :=
  rd_accrueDroop_ne m _ _ (clkFreq_facts n).2.1

/-- What the switch of Tiller `n` to `f` MHz leaves. -/
structure Switched (m : Mach) (n : Fin 8) (f : Nat) (t : Mach) : Prop where
  til : tilOf t n = { tilOf m n with relock := none, locked := false, voltMhz := f }
  others : ∀ k : Nat, k ≠ n.val → tilOf t k = tilOf m k
  freq : f < 2048 → rd t F.TIL_CLK_FREQ_MHZ n = f
  trims : ∀ d : Fin 4, trimNow t d = if tget 0 m.power.trimHeld d = 0 ∨ trimWaits t d = true then trimNow m d else max (-12) (min 8 (trimNext m d))
  out : t.out = m.out
  keeps : Keeps [.fab, .power] m t
  words : ∀ (q : Word) (b : Nat), b ∉ [F.TIL_CLK_FREQ_MHZ.addr n, F.PWR_VTRIM_IO.addr 0, F.PWR_THROTTLE_ACTIVE.addr 0] → word t q b = word m q b

theorem keeps_setClock (m : Mach) (t f : Nat) : Keeps [.fab] m (setClock m t f) := keeps_wr _ _ _ (keeps_setTil _ _ _)

theorem switched_clockSettled (m : Mach) (n : Fin 8) (f : Nat) : Switched m n f (clockSettled (setClock m n f)) where
  til := by simp [setClock]
  others k hk := by simp [setClock, tilOf_setTil_ne _ _ hk]
  freq hf := by
    rw [rd_clkFreq_clockSettled, setClock, rd_wr_same _ _ _ _ (by decide)]
    exact Nat.mod_eq_of_lt (hf.trans (by decide))
  trims d := by
    have hw : word (setClock m n f) F.PWR_VTRIM_IO.rst (F.PWR_VTRIM_IO.addr 0) = word m F.PWR_VTRIM_IO.rst (F.PWR_VTRIM_IO.addr 0) :=
      word_setWord_ne _ _ _ _ _ _ (clkFreq_facts n).1.symm
    have hnow : trimNow (setClock m n f) d = trimNow m d := trimNow_congr d hw
    have hnext : trimNext (setClock m n f) d = trimNext m d := congrArg (· + tget 0 m.power.trimHeld d) hnow
    rw [trimNow_clockSettled, freedTrim, hnow, hnext, trimWaits_congr (clockSettled_fab _)]
    rfl
  out := clockSettled_out _
  keeps := keeps_trans (keeps_mono (keeps_setClock m n f) (by simp)) (keeps_mono (keeps_clockSettled _) (by simp))
  words q b hb := by
    simp only [List.mem_cons, List.not_mem_nil, or_false, not_or] at hb
    obtain ⟨h1, h2, h3⟩ := hb
    exact (word_clockSettled_ne _ _ h2 h3).trans (word_setWord_ne _ _ _ _ _ _ h1)

theorem switchClock_some {m : Mach} {n f : Nat} (h : (tilOf m n).relock = some f) : switchClock m n = clockSettled (setClock m n f) := by
  rw [switchClock, h]

/-! ### Droops and clocks: the commands -/

/-- Another Tiller, and everything but the Tillers and the power's own figures, stays as it was. -/
def OneTiller (m : Mach) (n : Fin 8) (t : Mach) : Prop := (∀ k : Nat, k ≠ n.val → tilOf t k = tilOf m k) ∧ t.out = [] ∧ Keeps [.fab, .power] m t

/-- Every trim stands, after a clock change, where R440 and R441 put it. -/
def TrimsSettled (m t : Mach) : Prop := ∀ d : Fin 4, sext 8 (rd t (trimFld d) 0) =
  if tget 0 m.power.trimHeld d = 0 ∨ trimWaits t d = true then sext 8 (rd m (trimFld d) 0) else max (-12) (min 8 (trimNext m d))

theorem droop_starts (s : State) (n : Fin 8) (hc : clocked s.mach n = true) (hs : (tilOf s.mach n).stretched = false) :
    Completes (.droop n) s (fun t => tilOf t n = { tilOf s.mach n with stretched := true } ∧ OneTiller s.mach n t ∧
      Counted F.PWR_DROOP_CNT_DROOPS 0 1 s.mach t ∧ rd t F.TIL_CLK_FREQ_MHZ n = rd s.mach F.TIL_CLK_FREQ_MHZ n) := by
  have hd : droop n (fresh s.mach) = accrueDroop (setTil (inc (fresh s.mach) F.PWR_DROOP_CNT_DROOPS 0) n (fun x => { x with stretched := true })) :=
    if_pos (by simp [hs]; exact hc)
  refine completes_run _ rfl ?_
  rw [hd]
  refine ⟨by simp, ⟨fun k hk => by simp [tilOf_setTil_ne _ _ hk], by simp [setTil], keeps_settle ?_⟩, ?_, ?_⟩
  · exact keeps_trans (keeps_trans (keeps_trans (keeps_fresh _ _) (keeps_inc _ _ _ _)) (keeps_mono (keeps_setTil _ _ _) (by simp)))
      (keeps_mono (keeps_accrueDroop _) (by simp))
  · rw [Counted, rd_settle, rd_accrueDroop_ne _ _ _ (by decide)]
    exact rd_inc_same _ _ _ (by decide)
  · rw [rd_settle, rd_clkFreq_accrueDroop]
    exact rd_inc_ne _ _ _ _ _ (clkFreq_facts n).2.2

/-- The Tiller's own part of a release: it is stretched no longer (R439). -/
def unstretch (m : Mach) (n : Nat) : Mach := accrueDroop (setTil m n (fun x => { x with stretched := false }))

theorem unstretch_facts (m : Mach) (n : Fin 8) : tilOf (unstretch m n) n = { tilOf m n with stretched := false } ∧
    (∀ k : Nat, k ≠ n.val → tilOf (unstretch m n) k = tilOf m k) ∧ (unstretch m n).out = m.out ∧ Keeps [.fab, .power] m (unstretch m n) ∧
    (unstretch m n).power.trimHeld = m.power.trimHeld ∧
    (∀ (q : Word) (b : Nat), b ≠ F.PWR_THROTTLE_ACTIVE.addr 0 → word (unstretch m n) q b = word m q b) := by
  refine ⟨by simp [unstretch], fun k hk => by simp [unstretch, tilOf_setTil_ne _ _ hk], by simp [unstretch, setTil], ?_, ?_, fun q b hb => ?_⟩
  · exact keeps_trans (keeps_mono (keeps_setTil _ _ _) (by simp)) (keeps_mono (keeps_accrueDroop _) (by simp))
  · rw [unstretch, accrueDroop_trims]
    rfl
  · rw [unstretch, word_accrueDroop_ne _ _ hb]
    rfl

theorem trimNow_unstretch (m : Mach) (n : Fin 8) (d : Fin 4) : trimNow (unstretch m n) d = trimNow m d :=
  trimNow_congr d ((unstretch_facts m n).2.2.2.2.2 _ _ (by decide))

theorem droopRelease_stretched {m : Mach} {n : Fin 8} (h : (tilOf m n).stretched = true) :
    droopRelease n m = if (tilOf m n).locked then switchClock (unstretch m n) n else unstretch m n := by
  have hl : (tilOf (unstretch m n) n).locked = (tilOf m n).locked := by rw [(unstretch_facts m n).1]
  rw [← hl]
  exact if_pos h

/-- A release with a switch that waited: the Tiller runs again, at the target clock. -/
theorem droopRelease_switches (s : State) (n : Fin 8) (f : Nat) (hf : f < 2048) (hs : (tilOf s.mach n).stretched = true)
    (hr : (tilOf s.mach n).relock = some f) (hl : (tilOf s.mach n).locked = true) : Completes (.droopRelease n) s (fun t =>
      tilOf t n = { tilOf s.mach n with stretched := false, relock := none, locked := false, voltMhz := f } ∧
      rd t F.TIL_CLK_FREQ_MHZ n = f ∧ TrimsSettled s.mach t ∧ OneTiller s.mach n t) := by
  obtain ⟨hown, hoth, hout, hkeeps, hheld, hword⟩ := unstretch_facts (fresh s.mach) n
  have hd : droopRelease n (fresh s.mach) = clockSettled (setClock (unstretch (fresh s.mach) n) n f) := by
    rw [droopRelease_stretched (m := fresh s.mach) hs, tilOf_fresh, hl, if_pos rfl]
    exact switchClock_some (by rw [hown]; exact hr)
  have hsw := switched_clockSettled (unstretch (fresh s.mach) n) n f
  refine completes_run _ rfl ?_
  rw [hd]
  refine ⟨?_, ?_, fun d => ?_, fun k hk => ?_, ?_, keeps_settle ?_⟩
  · rw [tilOf_settle, hsw.til, hown, tilOf_fresh]
  · rw [rd_settle, hsw.freq hf]
  · have hnow : trimNow (unstretch (fresh s.mach) n) d = trimNow s.mach d := trimNow_unstretch _ _ _
    have hnext : trimNext (unstretch (fresh s.mach) n) d = trimNext s.mach d := congrArg₂ (· + ·) hnow (congrArg (tget 0 · d) hheld)
    have h := hsw.trims d
    rw [hheld, hnow, hnext] at h
    rw [rd_settle, trimWaits_congr (settle_fab _ _)]
    exact h
  · rw [tilOf_settle, hsw.others k hk, hoth k hk, tilOf_fresh]
  · rw [settle_out, hsw.out, hout, fresh_out]
  · exact keeps_trans (keeps_trans (keeps_fresh _ _) hkeeps) hsw.keeps

/-- A release with nothing to apply. -/
theorem droopRelease_plain (s : State) (n : Fin 8) (hs : (tilOf s.mach n).stretched = true)
    (h : (tilOf s.mach n).locked = false ∨ (tilOf s.mach n).relock = none) : Completes (.droopRelease n) s (fun t =>
      tilOf t n = { tilOf s.mach n with stretched := false } ∧ rd t F.TIL_CLK_FREQ_MHZ n = rd s.mach F.TIL_CLK_FREQ_MHZ n ∧ OneTiller s.mach n t) := by
  obtain ⟨hown, hoth, hout, hkeeps, -, hword⟩ := unstretch_facts (fresh s.mach) n
  have hd : droopRelease n (fresh s.mach) = unstretch (fresh s.mach) n := by
    rw [droopRelease_stretched (m := fresh s.mach) hs]
    split
    · next hl =>
      have hn : (tilOf (unstretch (fresh s.mach) n) n).relock = none := by
        rw [hown]
        exact h.resolve_left (by rw [tilOf_fresh] at hl; simp [hl])
      rw [switchClock, hn]
    · rfl
  refine completes_run _ rfl ?_
  rw [hd]
  refine ⟨?_, ?_, fun k hk => ?_, ?_, keeps_settle (keeps_trans (keeps_fresh _ _) hkeeps)⟩
  · rw [tilOf_settle, hown, tilOf_fresh]
  · rw [rd_settle, unstretch, rd_clkFreq_accrueDroop]
    rfl
  · rw [tilOf_settle, hoth k hk, tilOf_fresh]
  · rw [settle_out, hout, fresh_out]

/-- A PLL that locks while its Tiller is stretched: the switch waits, and is counted (R440). -/
theorem relockDone_deferred (s : State) (n : Fin 8) (f : Nat) (hs : (tilOf s.mach n).stretched = true) (hr : (tilOf s.mach n).relock = some f)
    (hl : (tilOf s.mach n).locked = false) : Completes (.pllRelockComplete n) s (fun t => tilOf t n = { tilOf s.mach n with locked := true } ∧
      rd t F.TIL_CLK_FREQ_MHZ n = rd s.mach F.TIL_CLK_FREQ_MHZ n ∧ Counted F.PWR_DROOP_CNT_DEFERRED 0 1 s.mach t ∧ OneTiller s.mach n t) := by
  have hd : relockDone n (fresh s.mach) = inc (setTil (fresh s.mach) n (fun x => { x with locked := true })) F.PWR_DROOP_CNT_DEFERRED 0 := by
    rw [relockDone, tilOf_fresh, hr, hl, hs]
    rfl
  refine completes_run _ rfl ?_
  rw [hd]
  refine ⟨by simp, ?_, ?_, fun k hk => by simp [tilOf_setTil_ne _ _ hk], by simp [setTil], keeps_settle ?_⟩
  · exact (rd_settle _ _ _ _).trans (rd_inc_ne _ _ _ _ _ (clkFreq_facts n).2.2)
  · rw [Counted, rd_settle, rd_inc_same _ _ _ (by decide)]
    rfl
  · exact keeps_trans (keeps_trans (keeps_fresh _ _) (keeps_mono (keeps_setTil _ _ _) (by simp))) (keeps_inc _ _ _ _)

/-- A PLL that locks while its Tiller runs: the clock takes the target. -/
theorem relockDone_switches (s : State) (n : Fin 8) (f : Nat) (hf : f < 2048) (hs : (tilOf s.mach n).stretched = false)
    (hr : (tilOf s.mach n).relock = some f) (hl : (tilOf s.mach n).locked = false) : Completes (.pllRelockComplete n) s (fun t =>
      tilOf t n = { tilOf s.mach n with relock := none, locked := false, voltMhz := f } ∧ rd t F.TIL_CLK_FREQ_MHZ n = f ∧ TrimsSettled s.mach t ∧
      OneTiller s.mach n t ∧ RegsKeep [F.TIL_CLK_FREQ_MHZ.addr n, F.PWR_VTRIM_IO.addr 0, F.PWR_THROTTLE_ACTIVE.addr 0] s.mach t) := by
  have hd : relockDone n (fresh s.mach) = clockSettled (setClock (fresh s.mach) n f) := by
    rw [relockDone, tilOf_fresh, hr, hl, hs]
    exact switchClock_some hr
  have hsw := switched_clockSettled (fresh s.mach) n f
  refine completes_run _ rfl ?_
  rw [hd]
  refine ⟨?_, ?_, fun d => ?_, ⟨fun k hk => ?_, ?_, keeps_settle ?_⟩, fun q b hb _ => ?_⟩
  · rw [tilOf_settle, hsw.til, tilOf_fresh]
  · rw [rd_settle, hsw.freq hf]
  · rw [rd_settle, trimWaits_congr (settle_fab _ _)]
    exact hsw.trims d
  · rw [tilOf_settle, hsw.others k hk, tilOf_fresh]
  · rw [settle_out, hsw.out, fresh_out]
  · exact keeps_trans (keeps_fresh _ _) hsw.keeps
  · rw [word_settle, hsw.words q b hb, word_fresh]

theorem droop_idle {m : Mach} {n : Nat} (h : clocked m n = false ∨ (tilOf m n).stretched = true) : droop n m = m := by
  refine if_neg ?_
  obtain h | h := h <;> simp [h]

theorem droopRelease_idle {m : Mach} {n : Nat} (h : (tilOf m n).stretched = false) : droopRelease n m = m := by
  simp [droopRelease, h]

theorem relockDone_idle {m : Mach} {n : Nat} (h : (tilOf m n).relock = none ∨ (tilOf m n).locked = true) : relockDone n m = m := by
  refine if_pos ?_
  obtain h | h := h <;> simp [h]

/-! ### Trim steps: the commands (R441) -/

theorem keeps_raise (m : Mach) (f : Fld) (i : Nat) : Keeps [.host] m (raise m f i) := keeps_raiseAs _ _ _ _ _

/-- What a trim step made at once leaves. -/
theorem completes_setTrim {c : Instr} {s : State} (f : Mach → Mach) (die : Fin 4) (w : Int) (h : exec c s = s.run f)
    (hf : f (fresh s.mach) = setTrim (fresh s.mach) die w) (h1 : -128 ≤ w) (h2 : w < 128) : Completes c s (fun t =>
      sext 8 (rd t (trimFld die) 0) = w ∧ t.out = [] ∧ RegsKeep [(trimFld die).addr 0] s.mach t ∧
      t.power = { s.mach.power with trimAt := tset none s.mach.power.trimAt die (some s.mach.time.now) } ∧ Keeps [.power] s.mach t ∧
      ∀ d : Fin 4, d ≠ die → rd t (trimFld d) 0 = rd s.mach (trimFld d) 0) := by
  refine completes_run f h ?_
  rw [hf]
  refine ⟨?_, by simp [setTrim, wr, setWord], fun q b hb _ => ?_, by rw [settle_power]; rfl, keeps_settle (keeps_trans (keeps_fresh _ _) (keeps_setTrim _ _ _)),
    fun d hd => ?_⟩
  · rw [rd_settle]
    exact trimNow_setTrim_same _ die h1 h2
  · rw [word_settle]
    exact word_setTrim_ne (fresh s.mach) die w q ((trimFld_facts die).2.2.1 ▸ (by simpa using hb))
  · rw [rd_settle, rd_setTrim_other _ _ hd]
    rfl

/-- What a trim step that is held back leaves (R440). -/
theorem completes_holdTrim {c : Instr} {s : State} (f : Mach → Mach) (die : Fin 4) (d : Int) (h : exec c s = s.run f)
    (hf : f (fresh s.mach) = trimStep (fresh s.mach) die d) (hw : trimWaits s.mach die = true) : Completes c s (fun t =>
      t.power = { s.mach.power with
        trimHeld := tset 0 s.mach.power.trimHeld die (tget 0 s.mach.power.trimHeld die + d)
        trimAt := tset none s.mach.power.trimAt die (some s.mach.time.now) } ∧ t.out = [] ∧ Keeps [.power] s.mach t ∧ RegsSame s.mach t) := by
  have hs : trimStep (fresh s.mach) die d = setPower (fresh s.mach) (fun p => { p with
      trimHeld := tset 0 p.trimHeld die (tget 0 p.trimHeld die + d)
      trimAt := tset none p.trimAt die (some s.mach.time.now) }) := if_pos hw
  refine completes_run f h ?_
  rw [hf, hs]
  exact ⟨by rw [settle_power]; rfl, by simp, keeps_settle (keeps_trans (keeps_fresh _ _) (keeps_setPower _ _)), by simp [RegsSame]⟩

theorem trimStep_free {m : Mach} {die : Fin 4} (d : Int) (hw : ¬ trimWaits m die = true) (hh : tget 0 m.power.trimHeld die = 0) :
    trimStep m die d = setTrim m die (trimNext m die + d) := by
  have hn : trimNext m die = trimNow m die := by rw [trimNext, hh, Int.add_zero]; rfl
  rw [hn]
  exact if_neg hw

end Sys2Proof.Machine

/-! ### Trims saved, and temperatures (R441, R442) -/

namespace Sys2Proof.Machine

/-- A one-bit field put to 1 is its mask set. -/
theorem putFld_one (w : Word) (f : Fld) (hw : f.w = 1) : putFld w f 1 = w ||| f.mask := by
  have hm : BitVec.ofNat 32 1 <<< f.lo = f.mask := by rw [Fld.mask, hw]; rfl
  refine BitVec.eq_of_getLsbD_eq (fun i hi => ?_)
  rw [putFld, hm, BitVec.getLsbD_or, BitVec.getLsbD_and, BitVec.getLsbD_and, BitVec.getLsbD_not, BitVec.getLsbD_or]
  cases w.getLsbD i <;> cases f.mask.getLsbD i <;> simp [hi]

/-- A flag that is set is its mask set already. -/
theorem or_mask_of_flag {m : Mach} {f : Fld} {i : Nat} (hfit : f.fits = true) (hw : f.w = 1) (h : flag m f i = true) :
    word m f.rst (f.addr i) ||| f.mask = word m f.rst (f.addr i) := by
  have hbit : (word m f.rst (f.addr i)).getLsbD f.lo = true := by
    have h1 : rd m f i = 1 := by simpa [flag] using h
    have h2 := bits_testBit (word m f.rst (f.addr i)).toNat f.lo f.w 0
    rw [show bits (word m f.rst (f.addr i)).toNat f.lo f.w = 1 from h1, hw] at h2
    have h3 : (word m f.rst (f.addr i)).toNat.testBit f.lo = true := by simpa using h2.symm
    exact h3
  refine BitVec.eq_of_getLsbD_eq (fun j hj => ?_)
  rw [BitVec.getLsbD_or, mask_getLsbD f hfit, hw]
  by_cases hj' : j = f.lo
  · rw [hj', hbit, Bool.true_or]
  · rw [show (decide (f.lo ≤ j) && decide (j < f.lo + 1)) = false by simp; omega, Bool.or_false]

/-- The word of an event register once an event has been raised there. -/
theorem raised_raiseAs (m : Mach) (f : Fld) (i n c : Nat) (hfit : f.fits = true) (hw : f.w = 1) (hp : f.addr i ≠ pbaAddr (vectorOf f i)) :
    Raised f i m (raiseAs m f i n c) := by
  refine ⟨rd_raiseAs_same m f i n c hfit hw hp, ?_⟩
  unfold raiseAs
  split
  · next h => exact (or_mask_of_flag hfit hw h).symm
  · have hset : word (wr m f i 1) f.rst (f.addr i) = word m f.rst (f.addr i) ||| f.mask := by
      rw [wr, word_setWord_same, putFld_one _ _ hw]
    unfold sendVector
    split
    · exact (word_setWord_ne _ _ _ _ _ _ hp).trans hset
    · exact hset

/-- A command whose effect is to raise one event of PWR. -/
theorem completes_raise {c : Instr} {s : State} (f : Mach → Mach) (e : Fld) (h : exec c s = s.run f)
    (hf : f (fresh s.mach) = raise (fresh s.mach) e 0) (hfit : e.fits = true) (hw : e.w = 1) (hv : vectorOf e 0 < 1024)
    (hp : e.addr 0 ≠ pbaAddr (vectorOf e 0)) :
    Completes c s (fun t => Raised e 0 s.mach t ∧ Keeps [.host] s.mach t ∧ RegsKeep [e.addr 0] s.mach t) := by
  have hr := raised_raiseAs (fresh s.mach) e 0 0 0 hfit hw hp
  refine completes_run f h ?_
  rw [hf]
  refine ⟨⟨?_, ?_⟩, keeps_settle (keeps_trans (keeps_fresh _ _) (keeps_raise _ _ _)), regsKeep_settle (regsKeep_raiseAs e 0 0 0 (by simp) hv (regsKeep_fresh _ _))⟩
  · exact (rd_settle _ _ _ _).trans hr.1
  · exact (word_settle _ _ _ _).trans hr.2

theorem trimFld_place : ∀ d : Fin 4, (trimFld d).addr 0 ∉ [F.PWR_EVENT_MARGIN_EXHAUSTED.addr 0] ∧ 0x11080 ≤ (trimFld d).addr 0 := by decide

/-- At the top of its window a trim does not move; MARGIN_EXHAUSTED is raised (R441). -/
theorem trimRaise_exhausted (s : State) (die : Fin 4) (ha : alive s.mach = true) (h : 8 ≤ trimNext s.mach die) :
    Completes (.trimRaise die) s (fun t => rd t F.PWR_EVENT_MARGIN_EXHAUSTED 0 = 1 ∧ rd t (trimFld die) 0 = rd s.mach (trimFld die) 0 ∧
      Keeps [.host] s.mach t ∧ RegsKeep [F.PWR_EVENT_MARGIN_EXHAUSTED.addr 0] s.mach t) := by
  have hd : trimRaise die (fresh s.mach) = raise (fresh s.mach) F.PWR_EVENT_MARGIN_EXHAUSTED 0 := by
    have ha' : alive (fresh s.mach) = true := ha
    have h' : trimNext (fresh s.mach) die ≥ 8 := h
    rw [trimRaise, ha', if_neg (by simp), if_pos h']
  refine completes_mono (completes_raise (trimRaise die) _ rfl hd (by decide) rfl (by decide) (by decide)) ?_
  intro t ⟨hr, hk, hg⟩
  obtain ⟨h1, h2⟩ := trimFld_place die
  refine ⟨hr.1, ?_, hk, hg⟩
  unfold rd
  rw [hg _ _ h1 (.inr h2)]

/-- A step up, and a step down, are trim steps where nothing forbids them. -/
theorem trimRaise_steps {m : Mach} {die : Nat} (ha : alive m = true) (h : trimNext m die < 8) : trimRaise die m = trimStep m die 1 := by
  rw [trimRaise, ha, if_neg (by simp), if_neg (by omega)]

/-- A trim step of the die lies less than 10 s back (R441). -/
def trimSoon (m : Mach) (die : Nat) : Bool := (tget none m.power.trimAt die).any (fun t => lessSince m.time.now t (10 * giga))

theorem trimSoon_iff (m : Mach) (die : Nat) : trimSoon m die = true ↔
    ∃ x : LTime, tget none m.power.trimAt die = some x ∧ lessSince m.time.now x (10 * giga) = true := by
  simp [trimSoon, Option.any_eq_true]

theorem trimLower_steps {m : Mach} {die : Nat} (ha : alive m = true) (h : -12 < trimNext m die) (hs : ¬ trimSoon m die = true) :
    trimLower die m = trimStep m die (-1) := by
  refine if_neg ?_
  simp only [Bool.or_eq_true, not_or]
  exact ⟨⟨by simp [ha], by simp [h]⟩, hs⟩

theorem trimLower_stays {m : Mach} {die : Nat} (h : trimNext m die ≤ -12 ∨ trimSoon m die = true) : trimLower die m = m := by
  refine if_pos ?_
  simp only [Bool.or_eq_true, decide_eq_true_eq]
  exact h.elim (fun h => .inl (.inr h)) .inr

/-- The trims may be saved now: powered, not READ_ONLY, an hour after the last time (R401, R441). -/
def TrimSaves (m : Mach) : Prop := flashPowered m = true ∧ rd m F.FLS_HEALTH_STATE 0 ≠ 3 ∧
  ∀ x : LTime, m.power.savedAt = some x → lessSince m.time.now x (3600 * giga) = false

theorem trimSave_saves {m : Mach} (h : TrimSaves m) : trimSave m =
    setPower (noteSystem (setFlash m (fun f => { f with trims := trimsNow m }))) (fun p => { p with savedAt := some m.time.now }) := by
  obtain ⟨hp, hh, hs⟩ := h
  have hsoon : m.power.savedAt.any (fun t => lessSince m.time.now t (3600 * giga)) = false := by
    rw [Option.any_eq_false]
    simpa using hs
  refine if_pos ?_
  rw [hp, hsoon]
  simpa using hh

theorem trimSave_stays {m : Mach} (h : ¬ TrimSaves m) : trimSave m = m := by
  refine if_neg (fun hc => h ?_)
  simp only [Bool.and_eq_true, Bool.not_eq_true', Option.any_eq_false, bne_iff_ne] at hc
  exact ⟨hc.1.1, hc.2, by simpa using hc.1.2⟩

theorem keeps_setFlash (m : Mach) (f : Flash → Flash) : Keeps [.flash] m (setFlash m f) := by
  intro p hp
  cases p
  case flash => simp at hp
  all_goals rfl

theorem completes_trimSave (s : State) (h : TrimSaves s.mach) : Completes .trimSave s (fun t => t.flash = { s.mach.flash with
      trims := trimsNow s.mach, bufSys := s.mach.flash.bufSys + 1, inProg := t.flash.inProg } ∧ t.power.savedAt = some s.mach.time.now ∧ t.out = [] ∧
      Keeps [.flash, .power] s.mach t ∧ RegsSame s.mach t) := by
  obtain ⟨w, hw⟩ := noteSystem_eq (setFlash (fresh s.mach) (fun f => { f with trims := trimsNow s.mach }))
  have hd : trimSave (fresh s.mach) = setPower (setFlash (setFlash (fresh s.mach) (fun f => { f with trims := trimsNow s.mach }))
      (fun f => { f with bufSys := f.bufSys + 1, inProg := w })) (fun p => { p with savedAt := some s.mach.time.now }) :=
    (trimSave_saves (m := fresh s.mach) h).trans (congrArg (setPower · _) hw)
  refine completes_run _ rfl ?_
  rw [hd]
  refine ⟨by simp, by simp, by simp, keeps_settle ?_, by simp [RegsSame]⟩
  exact keeps_trans (keeps_trans (keeps_trans (keeps_fresh _ _) (keeps_mono (keeps_setFlash _ _) (by simp)))
    (keeps_mono (keeps_setFlash _ _) (by simp))) (keeps_mono (keeps_setPower _ _) (by simp))

/-- A stack's bit put to a value; the other stack's bit stays. -/
theorem putStack_getLsbD : ∀ (b : BitVec 2) (k j : Fin 2) (on : Bool),
    (if on then b ||| (1#2 <<< k.val) else b &&& ~~~ (1#2 <<< k.val)).getLsbD j = if j = k then on else b.getLsbD j := by decide

theorem completes_hbmThermal (s : State) (k : Fin 2) (temp : BitVec 8) (ha : alive s.mach = true) (hs : s.mach.ctl.st ≠ .dormant) :
    Completes (.hbmThermal k temp) s (fun t =>
      t.power.refresh2.getLsbD k = decide (85 ≤ temp.toNat) ∧ t.power.beLimit.getLsbD k = decide (95 ≤ temp.toNat) ∧
      (∀ j : Fin 2, j ≠ k → t.power.refresh2.getLsbD j = s.mach.power.refresh2.getLsbD j ∧
        t.power.beLimit.getLsbD j = s.mach.power.beLimit.getLsbD j) ∧ Keeps [.power] s.mach t ∧ RegsSame s.mach t) := by
  have hd : hbmThermal k temp.toNat (fresh s.mach) = setPower (fresh s.mach) (fun p => { p with
      refresh2 := if decide (temp.toNat ≥ 85) then p.refresh2 ||| (1#2 <<< k.val) else p.refresh2 &&& ~~~ (1#2 <<< k.val)
      beLimit := if decide (temp.toNat ≥ 95) then p.beLimit ||| (1#2 <<< k.val) else p.beLimit &&& ~~~ (1#2 <<< k.val) }) := by
    refine if_pos ?_
    have ha' : alive (fresh s.mach) = true := ha
    simp [ha', hs]
  refine completes_run _ rfl ?_
  rw [hd]
  simp only [settle_power, setPower_power, fresh_power, putStack_getLsbD]
  refine ⟨if_pos trivial, if_pos trivial, fun j hj => ⟨if_neg hj, if_neg hj⟩, keeps_settle (keeps_trans (keeps_fresh _ _) (keeps_setPower _ _)), by simp [RegsSame]⟩

/-- Without power no trim moves and no temperature acts. -/
theorem dead_does_nothing {m : Mach} (h : alive m = false) (die : Nat) (temp k : Nat) : trimRaise die m = m ∧ trimLower die m = m ∧ trimSave m = m ∧
    thermalWarn die temp m = m ∧ thermalLimit temp m = m ∧ coolantHigh temp m = m ∧ hbmThermal k temp m = m := by
  simp [trimRaise, trimLower, trimSave, flashPowered, thermalWarn, thermalLimit, coolantHigh, hbmThermal, h]

end Sys2Proof.Machine

/-! ### The control period (R434 to R438, R442, R443) -/

namespace Sys2Proof.Machine

/-- What every part of a control period keeps: the Tillers' states and what they hold, all of the fabric but the Tillers, and the other
parts; `words` are the registers that it may write. -/
structure PeriodKeeps (words : List Nat) (m t : Mach) : Prop where
  fab : t.fab = { m.fab with tillers := t.fab.tillers }
  st : ∀ k, (tilOf t k).st = (tilOf m k).st
  parts : Keeps [.fab, .power, .host] m t
  words : RegsKeep words m t

theorem PeriodKeeps.trans {ws : List Nat} {a b c : Mach} (h : PeriodKeeps ws a b) (k : PeriodKeeps ws b c) : PeriodKeeps ws a c where
  fab := by rw [k.fab, h.fab]
  st i := (k.st i).trans (h.st i)
  parts := keeps_trans h.parts k.parts
  words := regsKeep_trans h.words k.words

/-- The registers that a control period writes. -/
def periodWords : List Nat := [F.PWR_THROTTLE_ACTIVE.addr 0, F.PWR_TEMP_IO.addr 0, F.PWR_TEMP2_HBM0.addr 0, F.PWR_EVENT_CAP_FLOOR.addr 0,
  F.PWR_INPUT_MEAS.addr 0, F.PWR_SHARE_LINKS.addr 0]

theorem periodKeeps_of_fab {m t : Mach} (hf : t.fab = m.fab) (hp : Keeps [.power, .host] m t) (hw : RegsKeep periodWords m t) :
    PeriodKeeps periodWords m t where
  fab := by rw [hf]
  st k := by rw [tilOf_congr hf]
  parts := keeps_mono hp (by simp)
  words := hw

theorem periodKeeps_refl (m : Mach) : PeriodKeeps periodWords m m := periodKeeps_of_fab rfl (keeps_refl _ _) (regsKeep_refl _ _)

theorem periodKeeps_setPower (m : Mach) (f : Power → Power) : PeriodKeeps periodWords m (setPower m f) :=
  periodKeeps_of_fab rfl (keeps_mono (keeps_setPower _ _) (by simp)) (regsKeep_of_regs rfl)

theorem periodKeeps_wr (m : Mach) {f : Fld} (v : Nat) (hf : f.addr 0 ∈ periodWords) : PeriodKeeps periodWords m (wr m f 0 v) :=
  periodKeeps_of_fab rfl (keeps_wr _ _ _ (keeps_refl _ _)) (regsKeep_wr _ _ _ hf (regsKeep_refl _ _))

theorem periodKeeps_raise (m : Mach) {f : Fld} (hf : f.addr 0 ∈ periodWords) (hv : vectorOf f 0 < 1024) : PeriodKeeps periodWords m (raise m f 0) :=
  periodKeeps_of_fab (raise_fab _ _ _) (keeps_mono (keeps_raise _ _ _) (by simp)) (regsKeep_raiseAs _ _ _ _ hf hv (regsKeep_refl _ _))

theorem periodKeeps_setTil (m : Mach) (t : Nat) (f : Tiller → Tiller) (hf : ∀ x, (f x).st = x.st) : PeriodKeeps periodWords m (setTil m t f) where
  fab := rfl
  st k := by
    by_cases h : k = t
    · rw [h, tilOf_setTil_same, hf]
    · rw [tilOf_setTil_ne _ _ h]
  parts := keeps_mono (keeps_setTil _ _ _) (by simp)
  words := regsKeep_of_regs rfl


/-! The steps of a period, one after the other: what held is counted and the temperatures are noted; power is measured; model and measurement are
compared; targets, shares and reasons are set; the lowest clocks' event. `controlPeriod_eq` ties them to the model. -/

/-- The period is noted, the reasons that held are counted, the temperatures read (R442, R443). -/
def periodBegins (v : PowerMeas) (m : Mach) : Mach :=
  let m := setPower m (fun p => { p with periodAt := some m.time.now })
  accrueDroop (noteTemps v (forEach ([0, 1, 3, 4, 5].filter (fun r => bitOf (rd m F.PWR_THROTTLE_ACTIVE 0) r)) m (fun m r => accrue m r 100000)))

/-- The measured power, and the estimate (R438). -/
def periodMeasures (v : PowerMeas) (est : Nat) (m : Mach) : Mach :=
  wr (wr m F.PWR_INPUT_MEAS 0 (sat 16 v.inputEighthW)) F.PWR_INPUT_EST 0 est

/-- What a period sets: the Tillers' targets, what is limited, the shares in W, the reasons but the lowest clocks. -/
structure Steering where
  tillers : List Nat
  clock : Nat → Nat
  links : Bool
  memory : Bool
  shares : Nat × Nat × Nat
  reasons : Bool × Bool × Bool × Bool

def periodSteers (x : Steering) (m : Mach) : Mach :=
  let m := forEach x.tillers m (fun m t => setTarget m t (x.clock t))
  let m := setPower m (fun p => { p with linkLimited := x.links, memLimited := x.memory })
  let m := wrs m 0 [(F.PWR_SHARE_COMPUTE, x.shares.1), (F.PWR_SHARE_MEMORY, x.shares.2.1), (F.PWR_SHARE_LINKS, x.shares.2.2)]
  setReason (setReason (setReason (setReason m 0 x.reasons.1) 1 x.reasons.2.1) 3 x.reasons.2.2.1) 4 x.reasons.2.2.2

/-- Where not even the lowest clocks fit, CAP_FLOOR is raised and shown as a reason (R436). -/
def periodEnds (capFloor : Bool) (m : Mach) : Mach := raiseIf capFloor (setReason m 5 capFloor) F.PWR_EVENT_CAP_FLOOR 0

/-- A control period is due now. -/
def PeriodDue (m : Mach) : Prop := alive m = true ∧ ∀ x : LTime, m.power.periodAt = some x → lessSince m.time.now x 100000 = false

theorem controlPeriod_stays {v : PowerMeas} {m : Mach} (h : ¬ PeriodDue m) : controlPeriod v m = m := by
  refine if_pos ?_
  by_contra hc
  simp only [Bool.or_eq_true, Bool.not_eq_true', Option.any_eq_true, not_or, not_exists, not_and, Bool.not_eq_true, Bool.not_eq_false] at hc
  exact h hc

/-- The clock that a period may set: between the floor and the ceiling (R435 to R437, R442). -/
def steeredClock (m : Mach) (hot : Nat → Nat) (t x : Nat) : Nat := max (floorOf m hot t) (min (ceilOf m hot t) x)

theorem steeredClock_le (m : Mach) (hot : Nat → Nat) (t x : Nat) : steeredClock m hot t x ≤ max (nominalMhz m) (lcFloor m t) := by
  have hn : 400 ≤ nominalMhz m := by
    unfold nominalMhz
    split <;> omega
  have hh : hostCeil m t ≤ max (nominalMhz m) (lcFloor m t) := by
    unfold hostCeil
    dsimp only
    split <;> omega
  unfold steeredClock floorOf ceilOf
  omega

/-- A control period that is due is its steps. -/
theorem controlPeriod_eq {v : PowerMeas} {m : Mach} (h : PeriodDue m) : ∃ (est : Nat) (e8 m8 : Int) (x : Steering) (capFloor : Bool),
    controlPeriod v m = periodEnds capFloor (periodSteers x (mismatchStep (periodMeasures v est (periodBegins v m)) e8 m8)) ∧
    ∀ t, ∃ y, x.clock t = steeredClock (mismatchStep (periodMeasures v est (periodBegins v m)) e8 m8) (hottest v) t y := by
  have hdue : ¬ (!alive m || m.power.periodAt.any (fun t => lessSince m.time.now t 100000)) = true := by
    obtain ⟨ha, hp⟩ := h
    simp only [Bool.or_eq_true, Bool.not_eq_true', Option.any_eq_true, not_or, not_exists, not_and, Bool.not_eq_true, Bool.not_eq_false]
    exact ⟨ha, hp⟩
  unfold controlPeriod
  rw [if_neg hdue]
  exact ⟨_, _, _, ⟨_, _, _, _, (_, _, _), (_, _, _, _)⟩, _, rfl, fun t => ⟨_, rfl⟩⟩


theorem rd_wrs_ne (fs : List (Fld × Nat)) (m : Mach) (g : Fld) (i j : Nat) (h : ∀ x ∈ fs, g.addr j ≠ x.1.addr i) : rd (wrs m i fs) g j = rd m g j := by
  induction fs generalizing m with
  | nil => rfl
  | cons x fs ih =>
    refine (ih (wr m x.1 i x.2) (fun y hy => h y (by simp [hy]))).trans ?_
    exact rd_wr_ne _ _ _ _ _ _ (h x (by simp))

theorem wrs_parts (fs : List (Fld × Nat)) (m : Mach) (i : Nat) : (wrs m i fs).fab = m.fab ∧ (wrs m i fs).power = m.power := by
  induction fs generalizing m with
  | nil => exact ⟨rfl, rfl⟩
  | cons x fs ih => exact ih (wr m x.1 i x.2)

theorem periodKeeps_wrs (fs : List (Fld × Nat)) (m : Mach) (h : ∀ x ∈ fs, x.1.addr 0 ∈ periodWords) : PeriodKeeps periodWords m (wrs m 0 fs) := by
  induction fs generalizing m with
  | nil => exact periodKeeps_refl m
  | cons x fs ih => exact (periodKeeps_wr m x.2 (h x (by simp))).trans (ih _ (fun y hy => h y (by simp [hy])))

/-! What each step keeps of the Tillers' targets, of the power's figures, and of CAP_FLOOR. -/

/-- The Tillers' targets, and the comparison of model and measurement, are as they were; so is CAP_FLOOR. -/
structure PeriodQuiet (m t : Mach) : Prop where
  keeps : PeriodKeeps periodWords m t
  relock : ∀ k, (tilOf t k).relock = (tilOf m k).relock
  mismatch : t.power.mismatch = m.power.mismatch
  periods : t.power.mismPeriods = m.power.mismPeriods
  begun : t.power.periodAt = m.power.periodAt
  floor : rd t F.PWR_EVENT_CAP_FLOOR 0 = rd m F.PWR_EVENT_CAP_FLOOR 0

theorem PeriodQuiet.trans {a b c : Mach} (h : PeriodQuiet a b) (k : PeriodQuiet b c) : PeriodQuiet a c where
  keeps := h.keeps.trans k.keeps
  relock i := (k.relock i).trans (h.relock i)
  mismatch := k.mismatch.trans h.mismatch
  periods := k.periods.trans h.periods
  begun := k.begun.trans h.begun
  floor := k.floor.trans h.floor

theorem periodQuiet_refl (m : Mach) : PeriodQuiet m m := ⟨periodKeeps_refl m, fun _ => rfl, rfl, rfl, rfl, rfl⟩

theorem periodQuiet_forEach {α : Type} (xs : List α) (f : Mach → α → Mach) (hf : ∀ m x, PeriodQuiet m (f m x)) (m : Mach) :
    PeriodQuiet m (forEach xs m f) := by
  induction xs generalizing m with
  | nil => exact periodQuiet_refl m
  | cons x xs ih => exact (hf m x).trans (ih (f m x))

theorem periodQuiet_setPower (m : Mach) (f : Power → Power) (h1 : (f m.power).mismatch = m.power.mismatch)
    (h2 : (f m.power).mismPeriods = m.power.mismPeriods) (h3 : (f m.power).periodAt = m.power.periodAt) : PeriodQuiet m (setPower m f) :=
  ⟨periodKeeps_setPower m f, fun _ => rfl, h1, h2, h3, rfl⟩

theorem periodQuiet_wr (m : Mach) {f : Fld} (v : Nat) (hf : f.addr 0 ∈ periodWords) (hne : F.PWR_EVENT_CAP_FLOOR.addr 0 ≠ f.addr 0) :
    PeriodQuiet m (wr m f 0 v) := ⟨periodKeeps_wr m v hf, fun _ => rfl, rfl, rfl, rfl, rd_wr_ne _ _ _ _ _ _ hne⟩

theorem periodQuiet_wrs (fs : List (Fld × Nat)) (m : Mach) (h : ∀ x ∈ fs, x.1.addr 0 ∈ periodWords ∧ F.PWR_EVENT_CAP_FLOOR.addr 0 ≠ x.1.addr 0) :
    PeriodQuiet m (wrs m 0 fs) where
  keeps := periodKeeps_wrs fs m (fun x hx => (h x hx).1)
  relock k := by rw [tilOf_congr (wrs_parts fs m 0).1]
  mismatch := by rw [(wrs_parts fs m 0).2]
  periods := by rw [(wrs_parts fs m 0).2]
  begun := by rw [(wrs_parts fs m 0).2]
  floor := rd_wrs_ne _ _ _ _ _ (fun x hx => (h x hx).2)

/-- Another event of PWR leaves CAP_FLOOR. -/
theorem periodQuiet_raise (m : Mach) {f : Fld} (hf : f.addr 0 = F.PWR_EVENT_CAP_FLOOR.addr 0) (hfit : f.fits = true)
    (hr : F.PWR_EVENT_CAP_FLOOR.rst = f.rst)
    (hd : f.lo + f.w ≤ F.PWR_EVENT_CAP_FLOOR.lo ∨ F.PWR_EVENT_CAP_FLOOR.lo + F.PWR_EVENT_CAP_FLOOR.w ≤ f.lo) (hv : vectorOf f 0 = 24) :
    PeriodQuiet m (raise m f 0) where
  keeps := periodKeeps_raise m (hf ▸ (by decide)) (by omega)
  relock k := by rw [tilOf_congr (raise_fab _ _ _)]
  mismatch := by rw [raise_power]
  periods := by rw [raise_power]
  begun := by rw [raise_power]
  floor := rd_raiseAs_other _ _ _ _ _ _ _ (by rw [hv]; decide) hfit hf.symm hr hd

theorem periodQuiet_setTil (m : Mach) (t : Nat) (f : Tiller → Tiller) (hs : ∀ x, (f x).st = x.st) (hr : ∀ x, (f x).relock = x.relock) :
    PeriodQuiet m (setTil m t f) where
  keeps := periodKeeps_setTil m t f hs
  relock k := by
    by_cases h : k = t
    · rw [h, tilOf_setTil_same, hr]
    · rw [tilOf_setTil_ne _ _ h]
  mismatch := rfl
  periods := rfl
  begun := rfl
  floor := rfl

theorem periodQuiet_setReason (m : Mach) (r : Nat) (on : Bool) : PeriodQuiet m (setReason m r on) := periodQuiet_wr m _ (by decide) (by decide)

theorem periodQuiet_accrueDroop (m : Mach) : PeriodQuiet m (accrueDroop m) := by
  obtain ⟨a, b, v, h⟩ := accrueDroop_eq m
  rw [h]
  exact (periodQuiet_setPower m _ rfl rfl rfl).trans (periodQuiet_wr _ _ (by decide) (by decide))

theorem periodQuiet_coolantHigh (m : Mach) (temp : Nat) : PeriodQuiet m (coolantHigh temp m) := by
  unfold coolantHigh
  split
  · exact periodQuiet_raise m rfl (by decide) rfl (by decide) (by decide)
  · exact periodQuiet_refl m

theorem noteTemps_eq (v : PowerMeas) (m : Mach) : ∃ fs, (∀ x ∈ fs, x.1.addr 0 ∈ periodWords ∧ F.PWR_EVENT_CAP_FLOOR.addr 0 ≠ x.1.addr 0) ∧
    ∃ temp, noteTemps v m = forEach (List.range 8) (coolantHigh temp (wrs m 0 fs)) (fun m t => setTil m t (fun x => { x with
      temp := v.tillerTemps.getD t 0, thermCeil := stepCeil (nominalMhz m) x.thermCeil (hottest v (dieOf t)) })) := by
  refine ⟨[(F.PWR_TEMP_COMPUTE0, _), (F.PWR_TEMP_COMPUTE1, _), (F.PWR_TEMP_INTAKE, _), (F.PWR_TEMP_IO, _), (F.PWR_TEMP2_HBM0, _),
    (F.PWR_TEMP2_HBM1, _), (F.PWR_TEMP2_COOLANT_IN, _)], ?_, _, rfl⟩
  simp only [List.forall_mem_cons]
  decide

theorem periodQuiet_noteTemps (v : PowerMeas) (m : Mach) : PeriodQuiet m (noteTemps v m) := by
  obtain ⟨fs, hfs, temp, h⟩ := noteTemps_eq v m
  rw [h]
  refine ((periodQuiet_wrs fs m hfs).trans (periodQuiet_coolantHigh _ temp)).trans (periodQuiet_forEach _ _ (fun m t => ?_) _)
  exact periodQuiet_setTil _ _ _ (fun _ => rfl) (fun _ => rfl)

/-- The machine with the period's beginning noted. -/
def periodNoted (m : Mach) : Mach := setPower m (fun p => { p with periodAt := some m.time.now })

theorem periodQuiet_begins (v : PowerMeas) (m : Mach) : PeriodQuiet (periodNoted m) (periodBegins v m) :=
  ((periodQuiet_forEach _ _ (fun m _ => periodQuiet_setPower m _ rfl rfl rfl) _).trans (periodQuiet_noteTemps v _)).trans (periodQuiet_accrueDroop _)

theorem periodQuiet_measures (v : PowerMeas) (est : Nat) (m : Mach) : PeriodQuiet m (periodMeasures v est m) :=
  (periodQuiet_wr m _ (by decide) (by decide)).trans (periodQuiet_wr _ _ (by decide) (by decide))

/-! The comparison of model and measurement (R438). -/

/-- The comparison changes its own figures; below 1,000 periods of difference no mismatch begins. -/
theorem mismatchStep_eq (m : Mach) (e8 m8 : Int) : ∃ f : Power → Power, (f m.power).periodAt = m.power.periodAt ∧
    (m.power.mismatch = false → m.power.mismPeriods < 999 → (f m.power).mismatch = false) ∧
    ∃ c, mismatchStep m e8 m8 = raiseIf c (setPower m f) F.PWR_EVENT_MISMATCH 0 := by
  refine ⟨_, ?_, ?_, _, rfl⟩
  · rfl
  · intro h hp
    have : min 1000 (m.power.mismPeriods + 1) < 1000 := by omega
    simp only [h, Bool.false_eq_true, if_false, decide_eq_false_iff_not]
    split <;> omega

/-- What the comparison leaves: the Tillers' targets and CAP_FLOOR, and a mismatch only after 1,000 periods. -/
structure Compared (m t : Mach) : Prop where
  keeps : PeriodKeeps periodWords m t
  relock : ∀ k, (tilOf t k).relock = (tilOf m k).relock
  floor : rd t F.PWR_EVENT_CAP_FLOOR 0 = rd m F.PWR_EVENT_CAP_FLOOR 0
  meas : rd t F.PWR_INPUT_MEAS 0 = rd m F.PWR_INPUT_MEAS 0
  begun : t.power.periodAt = m.power.periodAt
  mismatch : m.power.mismatch = false → m.power.mismPeriods < 999 → t.power.mismatch = false

theorem compared_mismatchStep (m : Mach) (e8 m8 : Int) : Compared m (mismatchStep m e8 m8) := by
  obtain ⟨f, hbegun, hmis, c, h⟩ := mismatchStep_eq m e8 m8
  have hset : Compared m (setPower m f) := ⟨periodKeeps_setPower m f, fun _ => rfl, rfl, rfl, hbegun, hmis⟩
  rw [h, raiseIf]
  split
  · have hq := periodQuiet_raise (setPower m f) (f := F.PWR_EVENT_MISMATCH) rfl (by decide) rfl (by decide) (by decide)
    exact ⟨hset.keeps.trans hq.keeps, fun k => (hq.relock k).trans (hset.relock k), hq.floor.trans hset.floor,
      (rd_raiseAs_ne _ _ _ _ _ _ _ (by decide) (by decide)).trans hset.meas, hq.begun.trans hset.begun, fun h1 h2 => hq.mismatch.trans (hset.mismatch h1 h2)⟩
  · exact hset

/-! Targets, shares and reasons. -/

theorem setTarget_eq (m : Mach) (t f : Nat) : setTarget m t f = m ∨
    ∃ v, setTarget m t f = setTil m t (fun x => { x with relock := some f, locked := false, voltMhz := v }) := by
  unfold setTarget
  dsimp only
  split
  · exact .inl rfl
  · exact .inr ⟨_, rfl⟩

/-- What the setting of targets leaves: a new target is the clock that it was set to. -/
structure Steered (clock : Nat → Nat) (m t : Mach) : Prop where
  keeps : PeriodKeeps periodWords m t
  relock : ∀ k, (tilOf t k).relock = (tilOf m k).relock ∨ (tilOf t k).relock = some (clock k)
  floor : rd t F.PWR_EVENT_CAP_FLOOR 0 = rd m F.PWR_EVENT_CAP_FLOOR 0
  meas : rd t F.PWR_INPUT_MEAS 0 = rd m F.PWR_INPUT_MEAS 0
  begun : t.power.periodAt = m.power.periodAt
  mismatch : t.power.mismatch = m.power.mismatch

theorem Steered.trans {clock : Nat → Nat} {a b c : Mach} (h : Steered clock a b) (k : Steered clock b c) : Steered clock a c where
  keeps := h.keeps.trans k.keeps
  relock i := (k.relock i).elim (fun e => (h.relock i).imp e.trans e.trans) .inr
  floor := k.floor.trans h.floor
  meas := k.meas.trans h.meas
  begun := k.begun.trans h.begun
  mismatch := k.mismatch.trans h.mismatch

theorem steered_of_quiet {clock : Nat → Nat} {m t : Mach} (h : PeriodQuiet m t) (hm : rd t F.PWR_INPUT_MEAS 0 = rd m F.PWR_INPUT_MEAS 0) :
    Steered clock m t := ⟨h.keeps, fun k => .inl (h.relock k), h.floor, hm, h.begun, h.mismatch⟩

theorem steered_setTarget (clock : Nat → Nat) (m : Mach) (t : Nat) : Steered clock m (setTarget m t (clock t)) := by
  obtain h | ⟨v, h⟩ := setTarget_eq m t (clock t)
  · rw [h]
    exact steered_of_quiet (periodQuiet_refl m) rfl
  · rw [h]
    refine ⟨periodKeeps_setTil m t _ (fun _ => rfl), fun k => ?_, rfl, rfl, rfl, rfl⟩
    by_cases hk : k = t
    · exact .inr (by rw [hk, tilOf_setTil_same])
    · exact .inl (by rw [tilOf_setTil_ne _ _ hk])

theorem steered_setReason (clock : Nat → Nat) (m : Mach) (r : Nat) (on : Bool) : Steered clock m (setReason m r on) :=
  steered_of_quiet (periodQuiet_setReason m r on) (rd_wr_ne _ _ _ _ _ _ (by decide))

theorem steered_targets (clock : Nat → Nat) (ts : List Nat) (m : Mach) : Steered clock m (forEach ts m (fun m t => setTarget m t (clock t))) := by
  induction ts generalizing m with
  | nil => exact steered_of_quiet (periodQuiet_refl m) rfl
  | cons t ts ih => exact (steered_setTarget clock m t).trans (ih _)

theorem steered_wrs (clock : Nat → Nat) (fs : List (Fld × Nat)) (m : Mach) (h : ∀ x ∈ fs, x.1.addr 0 = F.PWR_SHARE_LINKS.addr 0) :
    Steered clock m (wrs m 0 fs) := by
  refine steered_of_quiet (periodQuiet_wrs fs m (fun x hx => ?_)) (rd_wrs_ne _ _ _ _ _ (fun x hx => ?_)) <;> rw [h x hx] <;> decide

theorem steered_periodSteers (x : Steering) (m : Mach) : Steered x.clock m (periodSteers x m) := by
  have hp (m : Mach) (f : Power → Power) (h1 : (f m.power).mismatch = m.power.mismatch) (h2 : (f m.power).mismPeriods = m.power.mismPeriods)
      (h3 : (f m.power).periodAt = m.power.periodAt) : Steered x.clock m (setPower m f) :=
    steered_of_quiet (periodQuiet_setPower m f h1 h2 h3) rfl
  refine (((steered_targets x.clock x.tillers m).trans (hp _ _ rfl rfl rfl)).trans (steered_wrs x.clock _ _ ?_)).trans
    ((((steered_setReason _ _ 0 _).trans (steered_setReason _ _ 1 _)).trans (steered_setReason _ _ 3 _)).trans (steered_setReason _ _ 4 _))
  simp only [List.forall_mem_cons]
  exact ⟨by decide, by decide, by decide, by simp⟩

/-! The lowest clocks' event. -/

theorem ofBits_testBit (bs : List Bool) (i : Nat) : (ofBits bs).testBit i = bs.getD i false := by
  induction bs generalizing i with
  | nil => simp [ofBits]
  | cons b bs ih =>
    have h : ofBits (b :: bs) = (if b then 1 else 0) + 2 * ofBits bs := rfl
    cases i with
    | zero =>
      rw [h, Nat.testBit_zero]
      cases b <;> simp
    | succ i =>
      rw [h, Nat.testBit_succ, show ((if b then 1 else 0) + 2 * ofBits bs) / 2 = ofBits bs by split <;> omega, ih]
      rfl

/-- The reason set shows. -/
theorem setReason_testBit (m : Mach) {r : Nat} (hr : r < 6) (on : Bool) : (rd (setReason m r on) F.PWR_THROTTLE_ACTIVE 0).testBit r = on := by
  rw [setReason, rd_wr_same _ _ _ _ (by decide), Nat.testBit_mod_two_pow, ofBits_testBit]
  simp [hr, F.PWR_THROTTLE_ACTIVE]

/-- CAP_FLOOR and its reason go together, where the event did not stand already (R436). -/
theorem periodEnds_capFloor (m : Mach) (b : Bool) (h : rd m F.PWR_EVENT_CAP_FLOOR 0 = 0) :
    rd (periodEnds b m) F.PWR_EVENT_CAP_FLOOR 0 = 1 ↔ (rd (periodEnds b m) F.PWR_THROTTLE_ACTIVE 0).testBit 5 = true := by
  have hbit := setReason_testBit m (r := 5) (by decide) b
  cases b
  · have hfloor : rd (setReason m 5 false) F.PWR_EVENT_CAP_FLOOR 0 = 0 := (periodQuiet_setReason m 5 false).floor.trans h
    simp only [periodEnds, raiseIf, Bool.false_eq_true, if_false, hfloor, hbit]
    simp
  · have hev : rd (raise (setReason m 5 true) F.PWR_EVENT_CAP_FLOOR 0) F.PWR_EVENT_CAP_FLOOR 0 = 1 :=
      rd_raiseAs_same _ _ _ _ _ (by decide) rfl (by decide)
    have hthr : rd (raise (setReason m 5 true) F.PWR_EVENT_CAP_FLOOR 0) F.PWR_THROTTLE_ACTIVE 0 = rd (setReason m 5 true) F.PWR_THROTTLE_ACTIVE 0 :=
      rd_raiseAs_ne _ _ _ _ _ _ _ (by decide) (by decide)
    simp only [periodEnds, raiseIf, if_true, hev, hthr, hbit]

/-- What the end leaves of the rest. -/
structure Ended (m t : Mach) : Prop where
  keeps : PeriodKeeps periodWords m t
  relock : ∀ k, (tilOf t k).relock = (tilOf m k).relock
  meas : rd t F.PWR_INPUT_MEAS 0 = rd m F.PWR_INPUT_MEAS 0
  power : t.power = m.power

theorem ended_periodEnds (b : Bool) (m : Mach) : Ended m (periodEnds b m) := by
  have hq := periodQuiet_setReason m 5 b
  have hm : rd (setReason m 5 b) F.PWR_INPUT_MEAS 0 = rd m F.PWR_INPUT_MEAS 0 := rd_wr_ne _ _ _ _ _ _ (by decide)
  cases b
  · exact ⟨hq.keeps, hq.relock, hm, rfl⟩
  · refine ⟨hq.keeps.trans (periodKeeps_raise _ (by decide) (by decide)), fun k => ?_, ?_, raise_power _ _ _⟩
    · exact (congrArg Tiller.relock (tilOf_congr (raise_fab _ _ _) k)).trans (hq.relock k)
    · exact (rd_raiseAs_ne _ _ _ _ _ _ _ (by decide) (by decide)).trans hm

/-! The whole period. -/

/-- The LC floor hangs on the contexts and the ordering code alone. -/
theorem lcFloor_congr {m n : Mach} (hc : m.fab.ctxs = n.fab.ctxs) (hn : m.nor = n.nor) (t : Nat) : lcFloor m t = lcFloor n t := by
  have hg (p : Program) : fG16 m p = fG16 n p := by unfold fG16 nominalMhz; rw [hn]
  unfold lcFloor
  simp only [hc, hg]

theorem nominalMhz_congr {m n : Mach} (hn : m.nor = n.nor) : nominalMhz m = nominalMhz n := by
  unfold nominalMhz
  rw [hn]

theorem periodKeeps_noted (m : Mach) : PeriodKeeps periodWords m (periodNoted m) := periodKeeps_setPower m _

theorem rd_meas_periodMeasures (v : PowerMeas) (est : Nat) (m : Mach) : rd (periodMeasures v est m) F.PWR_INPUT_MEAS 0 = min v.inputEighthW 65535 := by
  have h := rd_wr_other (wr m F.PWR_INPUT_MEAS 0 (sat 16 v.inputEighthW)) F.PWR_INPUT_EST F.PWR_INPUT_MEAS 0 0 est (by decide) rfl rfl (by decide)
  rw [periodMeasures, h, rd_wr_same _ _ _ _ (by decide)]
  have hs : sat 16 v.inputEighthW = min v.inputEighthW 65535 := rfl
  rw [hs]
  exact Nat.mod_eq_of_lt ((Nat.min_le_right _ _).trans_lt (by decide))

theorem clkFreq_periodWords : ∀ k : Fin 8, F.TIL_CLK_FREQ_MHZ.addr k ∉ periodWords ∧ 0x11080 ≤ F.TIL_CLK_FREQ_MHZ.addr k := by decide

/-- What a due control period leaves. -/
structure PeriodDone (m : Mach) (v : PowerMeas) (t : Mach) : Prop where
  keeps : PeriodKeeps periodWords m t
  meas : rd t F.PWR_INPUT_MEAS 0 = min v.inputEighthW 65535
  begun : t.power.periodAt = some m.time.now
  target : ∀ k f, (tilOf t k).relock = some f → (tilOf m k).relock ≠ some f → f ≤ max (nominalMhz m) (lcFloor m k)
  floor : rd m F.PWR_EVENT_CAP_FLOOR 0 = 0 → (rd t F.PWR_EVENT_CAP_FLOOR 0 = 1 ↔ (rd t F.PWR_THROTTLE_ACTIVE 0).testBit 5 = true)
  mismatch : m.power.mismatch = false → m.power.mismPeriods < 999 → t.power.mismatch = false

theorem controlPeriod_done {v : PowerMeas} {m : Mach} (h : PeriodDue m) : PeriodDone m v (controlPeriod v m) := by
  obtain ⟨est, e8, m8, x, b, heq, hclock⟩ := controlPeriod_eq (v := v) h
  have h1 := periodQuiet_begins v m
  have h2 := periodQuiet_measures v est (periodBegins v m)
  have h3 := compared_mismatchStep (periodMeasures v est (periodBegins v m)) e8 m8
  have h4 := steered_periodSteers x (mismatchStep (periodMeasures v est (periodBegins v m)) e8 m8)
  have h5 := ended_periodEnds b (periodSteers x (mismatchStep (periodMeasures v est (periodBegins v m)) e8 m8))
  have hmid := (((periodKeeps_noted m).trans h1.keeps).trans h2.keeps).trans h3.keeps
  have hq := h1.trans h2
  rw [heq]
  refine ⟨(hmid.trans h4.keeps).trans h5.keeps, ?_, ?_, fun k f hf hne => ?_, fun h0 => ?_, fun hm hp => ?_⟩
  · rw [h5.meas, h4.meas, h3.meas, rd_meas_periodMeasures]
  · rw [h5.power, h4.begun, h3.begun, hq.begun]
    rfl
  · rw [h5.relock] at hf
    obtain hsame | hset := h4.relock k
    · rw [hsame, h3.relock, hq.relock] at hf
      exact absurd hf hne
    · obtain ⟨y, hy⟩ := hclock k
      obtain rfl : x.clock k = f := Option.some.inj (hset.symm.trans hf)
      have hnor := hmid.parts .nor (by simp)
      have hctxs := congrArg Fabric.ctxs hmid.fab
      rw [hy, ← nominalMhz_congr hnor, ← lcFloor_congr hctxs hnor]
      exact steeredClock_le _ _ _ _
  · exact periodEnds_capFloor _ _ (by rw [h4.floor, h3.floor, hq.floor]; exact h0)
  · rw [h5.power, h4.mismatch]
    exact h3.mismatch (hq.mismatch.trans hm) (hq.periods.symm ▸ hp)

theorem completes_controlPeriod (s : State) (v : PowerMeas) (h : PeriodDue s.mach) : Completes (.powerControlPeriod v) s (fun t =>
    rd t F.PWR_INPUT_MEAS 0 = min v.inputEighthW 65535 ∧ t.power.periodAt = some s.mach.time.now ∧
    (∀ (k : Fin 8) (f : Nat), (tilOf t k).relock = some f → (tilOf s.mach k).relock ≠ some f → f ≤ max (nominalMhz s.mach) (lcFloor s.mach k)) ∧
    (rd s.mach F.PWR_EVENT_CAP_FLOOR 0 = 0 → (rd t F.PWR_EVENT_CAP_FLOOR 0 = 1 ↔ (rd t F.PWR_THROTTLE_ACTIVE 0).testBit 5 = true)) ∧
    (s.mach.power.mismatch = false → s.mach.power.mismPeriods < 999 → t.power.mismatch = false) ∧
    (∀ k : Fin 8, rd t F.TIL_CLK_FREQ_MHZ k = rd s.mach F.TIL_CLK_FREQ_MHZ k ∧ (tilOf t k).st = (tilOf s.mach k).st) ∧
    t.ctl = s.mach.ctl ∧ t.fab.inflight = s.mach.fab.inflight ∧ Keeps [.fab, .power, .host] s.mach t) := by
  have hd : PeriodDone (fresh s.mach) v (controlPeriod v (fresh s.mach)) := controlPeriod_done h
  refine completes_run _ rfl ?_
  simp only [rd_settle, settle_power, tilOf_settle, settle_ctl, settle_fab]
  refine ⟨hd.meas, hd.begun, fun k f => hd.target k f, hd.floor, hd.mismatch, fun k => ⟨?_, hd.keeps.st k⟩, hd.keeps.parts .ctl (by simp),
    by rw [hd.keeps.fab, fresh_fab], keeps_settle (keeps_trans (keeps_fresh _ _) hd.keeps.parts)⟩
  obtain ⟨h1, h2⟩ := clkFreq_periodWords k
  unfold rd
  rw [hd.keeps.words _ _ h1 (.inr h2)]
  rfl

end Sys2Proof.Machine

/-! ### A Tiller at 110 °C (R322, R355, R442): what its quarantine sets stays -/

namespace Sys2Proof.Machine

/-- Two fields share no bit: they lie in different registers, or at different bits of one. -/
def fieldApart (e : Fld) (i : Nat) (g : Fld) (j : Nat) : Bool :=
  decide (g.addr j ≠ e.addr i) || (e.fits && decide (g.rst = e.rst) && (decide (e.lo + e.w ≤ g.lo) || decide (g.lo + g.w ≤ e.lo)))

theorem rd_wr_apart (m : Mach) {e g : Fld} {i j : Nat} (v : Nat) (h : fieldApart e i g j = true) : rd (wr m e i v) g j = rd m g j := by
  by_cases ha : g.addr j = e.addr i
  · simp only [fieldApart, ha, ne_eq, not_true_eq_false, decide_false, Bool.false_or, Bool.and_eq_true, Bool.or_eq_true, decide_eq_true_eq] at h
    exact rd_wr_other m e g i j v h.1.1 ha h.1.2 h.2
  · exact rd_wr_ne m e g i j v ha

theorem rd_raiseAs_apart (m : Mach) {e g : Fld} {i j : Nat} (n c : Nat) (hp : g.addr j ≠ pbaAddr (vectorOf e i)) (h : fieldApart e i g j = true) :
    rd (raiseAs m e i n c) g j = rd m g j := by
  by_cases ha : g.addr j = e.addr i
  · simp only [fieldApart, ha, ne_eq, not_true_eq_false, decide_false, Bool.false_or, Bool.and_eq_true, Bool.or_eq_true, decide_eq_true_eq] at h
    exact rd_raiseAs_other m e g i n c j hp h.1.1 ha h.1.2 h.2
  · exact rd_raiseAs_ne m e g i n c j hp ha

/-- What a quarantine of Tiller `n` has set stays: the Tillers' marks and temperatures, a pending re-placement, and both events. -/
structure QuarStays (n : Fin 8) (m t : Mach) : Prop where
  til : ∀ k, (tilOf t k).quar = (tilOf m k).quar ∧ (tilOf t k).thermQuar = (tilOf m k).thermQuar ∧ (tilOf t k).temp = (tilOf m k).temp ∧
    ((tilOf m k).st = .quarantined → (tilOf t k).st = .quarantined)
  pend : m.fab.pend.isSome = true → t.fab.pend.isSome = true
  thermal : rd t F.PWR_EVENT_THERMAL_QUAR 0 = rd m F.PWR_EVENT_THERMAL_QUAR 0
  event : rd t F.TIL_EVENT_QUARANTINED n = rd m F.TIL_EVENT_QUARANTINED n

section
variable {n : Fin 8}

theorem QuarStays.trans {a b c : Mach} (h : QuarStays n a b) (k : QuarStays n b c) : QuarStays n a c where
  til i := by
    obtain ⟨h1, h2, h3, h4⟩ := h.til i
    obtain ⟨k1, k2, k3, k4⟩ := k.til i
    exact ⟨k1.trans h1, k2.trans h2, k3.trans h3, fun e => k4 (h4 e)⟩
  pend e := k.pend (h.pend e)
  thermal := k.thermal.trans h.thermal
  event := k.event.trans h.event

/-- With the same Tillers, a re-placement pending as before and the same registers everything stays. -/
theorem quarStays_of_same {m t : Mach} (hf : t.fab.tillers = m.fab.tillers) (hp : m.fab.pend.isSome = true → t.fab.pend.isSome = true)
    (hr : t.regs = m.regs) : QuarStays n m t where
  til k := by
    have h : tilOf t k = tilOf m k := by unfold tilOf; rw [hf]
    rw [h]
    exact ⟨rfl, rfl, rfl, id⟩
  pend := hp
  thermal := rd_congr hr _ _
  event := rd_congr hr _ _

theorem quarStays_refl (m : Mach) : QuarStays n m m := quarStays_of_same rfl id rfl

theorem quarStays_setFab (m : Mach) (f : Fabric → Fabric) (ht : (f m.fab).tillers = m.fab.tillers) (hp : (f m.fab).pend = m.fab.pend) :
    QuarStays n m (setFab m f) := quarStays_of_same ht (fun h => hp ▸ h) rfl

theorem quarStays_setCtx (m : Mach) (c : Nat) (f : Ctx → Ctx) : QuarStays n m (setCtx m c f) := quarStays_setFab m _ rfl rfl
theorem quarStays_setQue (m : Mach) (q : Nat) (f : Queue → Queue) : QuarStays n m (setQue m q f) := quarStays_setFab m _ rfl rfl
theorem quarStays_setCmd (m : Mach) (q s : Nat) (f : Cmd → Cmd) : QuarStays n m (setCmd m q s f) := quarStays_setFab m _ rfl rfl
theorem quarStays_setCtl (m : Mach) (f : Ctl → Ctl) : QuarStays n m (setCtl m f) := quarStays_of_same rfl id rfl
theorem quarStays_setEject (m : Mach) (f : Eject → Eject) : QuarStays n m (setEject m f) := quarStays_of_same rfl id rfl
theorem quarStays_setFlash (m : Mach) (f : Flash → Flash) : QuarStays n m (setFlash m f) := quarStays_of_same rfl id rfl

/-- A change of a Tiller that leaves its marks, its temperature and its quarantine. -/
theorem quarStays_setTil (m : Mach) (t : Nat) (f : Tiller → Tiller) (hf : ∀ x, (f x).quar = x.quar ∧ (f x).thermQuar = x.thermQuar ∧ (f x).temp = x.temp)
    (hs : ∀ x, x.st = .quarantined → (f x).st = .quarantined) : QuarStays n m (setTil m t f) where
  til k := by
    by_cases h : k = t
    · subst h
      rw [tilOf_setTil_same]
      obtain ⟨h1, h2, h3⟩ := hf (tilOf m k)
      exact ⟨h1, h2, h3, hs _⟩
    · rw [tilOf_setTil_ne _ _ h]
      exact ⟨rfl, rfl, rfl, id⟩
  pend := id
  thermal := rfl
  event := rfl

/-- A field that shares no bit with the two events of a thermal quarantine. -/
def besideQuar (n : Fin 8) (e : Fld) (i : Nat) : Bool :=
  fieldApart e i F.PWR_EVENT_THERMAL_QUAR 0 && fieldApart e i F.TIL_EVENT_QUARANTINED n

theorem quarStays_inc (m : Mach) {e : Fld} {i : Nat} (h : besideQuar n e i = true) : QuarStays n m (inc m e i) := by
  rw [besideQuar, Bool.and_eq_true] at h
  exact ⟨fun k => ⟨rfl, rfl, rfl, id⟩, id, rd_wr_apart _ _ h.1, rd_wr_apart _ _ h.2⟩

theorem tilEvent_above : ∀ n : Fin 8, 0x11080 ≤ F.TIL_EVENT_QUARANTINED.addr n := by decide

theorem pbaAddr_lt {v : Nat} (h : v < 1024) : pbaAddr v < 0x11080 := by
  unfold pbaAddr
  omega

theorem quarStays_raiseAs (m : Mach) {e : Fld} {i : Nat} (x c : Nat) (h : besideQuar n e i = true) (hv : vectorOf e i < 1024) :
    QuarStays n m (raiseAs m e i x c) := by
  rw [besideQuar, Bool.and_eq_true] at h
  have hp := pbaAddr_lt hv
  have hn := tilEvent_above n
  refine ⟨fun k => ?_, fun hs => by rw [raiseAs_fab]; exact hs, rd_raiseAs_apart _ _ _ ?_ h.1, rd_raiseAs_apart _ _ _ (by omega) h.2⟩
  · rw [tilOf_congr (raiseAs_fab m e i x c)]
    exact ⟨rfl, rfl, rfl, id⟩
  · have : F.PWR_EVENT_THERMAL_QUAR.addr 0 = 0xf8034 := rfl
    omega

theorem quarStays_forEach {α : Type} (xs : List α) (f : Mach → α → Mach) (hf : ∀ m, ∀ x ∈ xs, QuarStays n m (f m x)) (m : Mach) :
    QuarStays n m (forEach xs m f) := by
  induction xs generalizing m with
  | nil => exact quarStays_refl m
  | cons x xs ih => exact (hf m x (by simp)).trans (ih (fun m y hy => hf m y (by simp [hy])) (f m x))

/-! Commands that are stopped, killed or ended. -/

theorem quarStays_stopRun (m : Mach) (c : Cmd) : QuarStays n m (stopRun m c) := by
  have hleave : QuarStays n m (leaveUnits m c) := by
    unfold leaveUnits
    split
    · have hengine : QuarStays n m (addEngine m c) := by
        refine ((quarStays_setCmd m _ _ _).trans (quarStays_setTil _ _ _ ?_ ?_)).trans (quarStays_setCtx _ _ _)
        · exact fun _ => ⟨rfl, rfl, rfl⟩
        · exact fun _ => id
      refine hengine.trans (quarStays_setTil _ _ _ (fun _ => ⟨rfl, rfl, rfl⟩) (fun x hx => ?_))
      dsimp only
      rw [hx]
    · exact quarStays_refl m
  exact hleave.trans (quarStays_setCmd _ _ _ _)

/-- The counters and events of killed commands lie beside the quarantine's. -/
theorem besideQuar_kill : ∀ n t : Fin 8, besideQuar n F.TIL_ERR_CNT_KILLED t = true ∧ besideQuar n F.TIL_EVENT_KILLED t = true ∧
    vectorOf F.TIL_EVENT_KILLED t < 1024 := by decide

theorem quarStays_noteKill (m : Mach) (c : Cmd) (ht : c.tiller < 8) : QuarStays n m (noteKill m c) := by
  obtain ⟨h1, h2, h3⟩ := besideQuar_kill n ⟨c.tiller, ht⟩
  exact (quarStays_inc m h1).trans (quarStays_raiseAs _ _ _ h2 h3)

theorem quarStays_finish (m : Mach) (c : Cmd) (status : Nat) : QuarStays n m (finish m c status) := by
  have hl : QuarStays n m (noteLatency m c) := by
    unfold noteLatency
    split
    · exact quarStays_refl m
    · exact quarStays_setCtx _ _ _
  unfold finish
  dsimp only
  refine hl.trans (quarStays_setFab _ _ ?_ ?_) <;> rfl

/-- Events and counters of the module that lie beside the quarantine's. -/
theorem besideQuar_single : ∀ n : Fin 8, besideQuar n F.QUE_CNT_KILLS 0 = true ∧ besideQuar n F.QUE_EVENT_PREEMPT_LIMIT 0 = true ∧
    besideQuar n F.QUE_EVENT_CTX_DONE 0 = true ∧ besideQuar n F.PWR_EVENT_STATE_CHANGE 0 = true ∧ besideQuar n F.GEN_EVENT_STATE_CHANGE 0 = true ∧
    besideQuar n F.FLS_CNT_AUDIT_LOST 0 = true ∧ besideQuar n F.EJC_EVENT_DROPPED 0 = true ∧ besideQuar n F.EJC_CNT0_DROPPED 0 = true ∧
    besideQuar n F.FLS_EVENT_LOST 0 = true ∧ besideQuar n F.FLS_CNT_LOST 0 = true := by decide

theorem quarStays_preemptOne (m : Mach) (c : Cmd) (ht : c.tiller < 8) : QuarStays n m (preemptOne m c) := by
  obtain ⟨h1, h2, -⟩ := besideQuar_single n
  have hbase : QuarStays n m (setCmd (setCtx (inc (noteKill (stopRun m c) c) F.QUE_CNT_KILLS 0) c.ctx (fun x => { x with winKills := x.winKills + 1 }))
      c.queue c.seq (fun c => { c with killed := true, preKills := c.preKills + 1, kills := c.kills + 1 })) :=
    ((((quarStays_stopRun m c).trans (quarStays_noteKill _ c ht)).trans (quarStays_inc _ h1)).trans (quarStays_setCtx _ _ _)).trans (quarStays_setCmd _ _ _ _)
  unfold preemptOne
  dsimp only
  split
  · split
    · exact (hbase.trans (quarStays_finish _ _ _)).trans (quarStays_raiseAs _ _ _ h2 (by decide))
    · exact hbase
  · exact hbase

theorem quarStays_preempt (m : Mach) (t : Nat) (ht : t < 8) : QuarStays n m (preempt m t) := by
  refine quarStays_forEach _ _ (fun m x hx => ?_) m
  have hxt : x.tiller = t := by
    simp only [List.mem_filter, Bool.and_eq_true, beq_iff_eq] at hx
    exact hx.2.1.2
  split
  · exact quarStays_preemptOne m x (by omega)
  · exact quarStays_refl m

/-! Rescheduling after a change of what is ready. -/

theorem quarStays_notePower (m0 m : Mach) : QuarStays n m (notePower m0 m) := by
  obtain ⟨-, -, -, h, -⟩ := besideQuar_single n
  unfold notePower
  split
  · exact quarStays_refl m
  · exact quarStays_raiseAs _ _ _ h (by decide)

/-- A gated Tiller woken was not quarantined. -/
theorem quarStays_wakeTiller (m : Mach) (t : Nat) : QuarStays n m (wakeTiller m t) := by
  unfold wakeTiller
  split
  · next hg =>
    refine QuarStays.trans ?_ (quarStays_notePower _ _)
    refine ⟨fun k => ?_, id, rfl, rfl⟩
    by_cases h : k = t
    · subst h
      rw [tilOf_setTil_same, hg]
      exact ⟨rfl, rfl, rfl, fun e => by cases e⟩
    · rw [tilOf_setTil_ne _ _ h]
      exact ⟨rfl, rfl, rfl, id⟩
  · exact quarStays_refl m

theorem quarStays_unpark (m : Mach) : QuarStays n m (unpark m) := by
  refine quarStays_forEach _ _ (fun m c _ => ?_) m
  dsimp only
  split
  · exact quarStays_refl m
  · next t _ =>
    split
    · exact quarStays_refl m
    · refine (((quarStays_wakeTiller m t).trans (quarStays_setCtx _ _ _)).trans (quarStays_setFab _ _ ?_ ?_)).trans (quarStays_setTil _ _ _ ?_ ?_)
      · rfl
      · rfl
      · exact fun _ => ⟨rfl, rfl, rfl⟩
      · exact fun _ => id

theorem quarStays_sizePool (m : Mach) (c t : Nat) : QuarStays n m (sizePool m c t) := by
  unfold sizePool
  dsimp only
  refine QuarStays.trans ?_ (quarStays_setFab _ _ ?_ ?_)
  · refine quarStays_setTil m t _ ?_ ?_
    · exact fun _ => ⟨rfl, rfl, rfl⟩
    · exact fun _ => id
  · rfl
  · rfl

theorem quarStays_sizePools (m : Mach) (c : Nat) : QuarStays n m (forEach (List.range 8) m (fun m t => sizePool m c t)) :=
  quarStays_forEach _ _ (fun m t _ => quarStays_sizePool m c t) m

theorem quarStays_ctxRun (m : Mach) (r : Option (Nat × Nat)) : QuarStays n m (setFab m (fun b => { b with ctxRun := r })) :=
  quarStays_setFab m _ rfl rfl

theorem quarStays_ctxDone (m : Mach) (c : Nat) : QuarStays n m (raiseCtx m F.QUE_EVENT_CTX_DONE 0 c) :=
  quarStays_raiseAs m 0 c (besideQuar_single n).2.2.1 (by decide)

theorem quarStays_unloadDone (m : Mach) : QuarStays n m (unloadDone m) := by
  unfold unloadDone
  split
  · split
    · exact quarStays_refl m
    · dsimp only
      refine QuarStays.trans ?_ (quarStays_ctxDone _ _)
      refine QuarStays.trans ?_ (quarStays_ctxRun _ _)
      exact QuarStays.trans (quarStays_setCtx m _ _) (quarStays_sizePools _ _)
  · exact quarStays_refl m

theorem quarStays_resched (m : Mach) : QuarStays n m (resched m) := by
  have hready : QuarStays n (unpark m) (markReady (unpark m)) := by
    refine quarStays_setFab _ _ ?_ ?_ <;> rfl
  exact (((quarStays_unpark m).trans hready).trans
    (quarStays_forEach _ _ (fun m t ht => quarStays_preempt m t (List.mem_range.mp ht)) _)).trans (quarStays_unloadDone _)

/-! The work that a lost Tiller drops. -/

theorem quarStays_mapFlight (m : Mach) (f : List Cmd → List Cmd) : QuarStays n m (setFab m (fun b => { b with inflight := f b.inflight })) :=
  quarStays_setFab m _ rfl rfl

theorem quarStays_dropCmds (m : Mach) (gone : Cmd → Bool) (hg : ∀ c, gone c = true → c.tiller < 8) : QuarStays n m (dropCmds m gone) := by
  unfold dropCmds
  dsimp only
  refine QuarStays.trans ?_ (quarStays_mapFlight _ (fun l => l.filter _))
  refine QuarStays.trans ?_ (quarStays_forEach _ _ (fun m c _ => (quarStays_setCtx m _ _).trans (quarStays_setQue _ _ _)) _)
  refine QuarStays.trans ?_ (quarStays_mapFlight _ (fun l => l.map _))
  refine quarStays_forEach _ _ (fun m c hc => ?_) m
  have hgone : gone c = true := by
    simp only [List.mem_filter, Bool.and_eq_true] at hc
    exact hc.2.1.1.1
  have hstop : QuarStays n m (if c.phase = .done then m else stopRun m c) := by
    split
    · exact quarStays_refl m
    · exact quarStays_stopRun m c
  exact (hstop.trans (quarStays_noteKill _ c (hg c hgone))).trans (quarStays_setCmd _ _ _ _)

theorem quarStays_dropWork (m : Mach) (gone : Cmd → Bool) (lts : Nat → List Nat) (hg : ∀ c, gone c = true → c.tiller < 8) :
    QuarStays n m (dropWork m gone lts) := by
  refine ((quarStays_dropCmds m gone hg).trans (quarStays_setFab _ _ ?_ ?_)).trans (quarStays_forEach _ _ (fun m c _ => quarStays_setCtx m c _) _)
  · rfl
  · rfl

theorem quarStays_beginReplace (m : Mach) (maps : List (Nat × List Nat)) (ret : Bool) (gone : List Nat) :
    QuarStays n m (beginReplace m maps ret gone) := quarStays_of_same rfl (fun _ => rfl) rfl

/-- The Tiller that is lost stands quarantined, and a re-placement is pending. -/
theorem loseTiller_facts (m : Mach) : QuarStays n m (loseTiller m n .quarantined) ∧ (tilOf (loseTiller m n .quarantined) n).st = .quarantined ∧
    (loseTiller m n .quarantined).fab.pend.isSome = true := by
  have hdrop : QuarStays n m (dropWork m (fun c => c.tiller == n) (ltsOn m n)) :=
    quarStays_dropWork m _ _ (fun c hc => by
      have := n.isLt
      have : c.tiller = n := by simpa using hc
      omega)
  unfold loseTiller
  dsimp only
  generalize dropWork m (fun c => c.tiller == n) (ltsOn m n) = m1 at hdrop ⊢
  have hset : QuarStays n m (setTil m1 n (fun x => { x with st := .quarantined, grid := none, flail := none, chute := none })) := by
    refine hdrop.trans (quarStays_setTil _ _ _ ?_ ?_)
    · exact fun _ => ⟨rfl, rfl, rfl⟩
    · exact fun _ _ => rfl
  have hst : (tilOf (setTil m1 n (fun x => { x with st := .quarantined, grid := none, flail := none, chute := none })) n).st = .quarantined := by
    rw [tilOf_setTil_same]
  refine ⟨QuarStays.trans (QuarStays.trans hset ?_) (quarStays_beginReplace _ _ _ _), hst, rfl⟩
  refine quarStays_setFab _ _ ?_ ?_ <;> rfl

/-! The module stops when no Tiller is left. -/

theorem quarStays_startProg (m : Mach) : QuarStays n m (startProg m) := by
  obtain ⟨w, h⟩ := startProg_eq m
  rw [h]
  exact quarStays_setFlash _ _

theorem quarStays_audit (m : Mach) (type ctx : Nat) (payload : List Byte) : QuarStays n m (audit m type ctx payload) := by
  obtain ⟨-, -, -, -, -, h, -⟩ := besideQuar_single n
  unfold audit
  split
  · exact quarStays_inc m h
  · exact (quarStays_setFlash m _).trans (quarStays_startProg _)

theorem quarStays_raiseCount (m : Mach) {f g : Fld} {i : Nat} (hf : besideQuar n f i = true) (hg : besideQuar n g i = true)
    (hv : vectorOf f i < 1024) : QuarStays n m (raiseCount m f g i) :=
  (quarStays_raiseAs m i 0 hf hv).trans (quarStays_inc _ hg)

theorem quarStays_putReject (m : Mach) (a : List Byte) (c : Nat) (conf : Bool) (crop tail : List Byte) :
    QuarStays n m (putReject m a c conf crop tail) := by
  obtain ⟨-, -, -, -, -, -, -, -, h1, h2⟩ := besideQuar_single n
  have hlost : QuarStays n m (raiseCount m F.FLS_EVENT_LOST F.FLS_CNT_LOST 0) := quarStays_raiseCount m h1 h2 (by decide)
  unfold putReject
  extract_lets
  split
  · exact quarStays_refl m
  · split
    · exact QuarStays.trans hlost (quarStays_setFlash _ _)
    · exact QuarStays.trans (quarStays_setFlash m _) (quarStays_startProg _)

theorem quarStays_finalize (m : Mach) (d : Decision) : QuarStays n m (finalize m d) := by
  unfold finalize
  dsimp only
  split
  · exact (quarStays_setEject m _).trans (quarStays_putReject _ _ _ _ _ _)
  · exact quarStays_setEject m _

theorem quarStays_dropFire (m : Mach) (f : Fire) : QuarStays n m (dropFire m f) := by
  obtain ⟨-, -, -, -, -, -, h1, h2, -⟩ := besideQuar_single n
  refine ((((quarStays_raiseAs m _ _ h1 (by decide)).trans (quarStays_inc _ h2)).trans (quarStays_setEject _ _)).trans (quarStays_setEject _ _)).trans
    (quarStays_forEach _ _ (fun m d _ => ?_) _)
  split
  · exact quarStays_refl m
  · exact quarStays_finalize m d

theorem quarStays_enter (m : Mach) (st : ModState) : QuarStays n m (enter m st) := by
  obtain ⟨-, -, -, -, h, -⟩ := besideQuar_single n
  unfold enter
  split
  · exact quarStays_refl m
  · refine QuarStays.trans (b := { m with ctl := _ }) ?_ (quarStays_raiseAs _ _ _ h (by decide))
    exact quarStays_of_same rfl id rfl

theorem quarStays_enterFault (m : Mach) (cause : Nat) : QuarStays n m (enterFault m cause) := by
  unfold enterFault
  split
  · exact quarStays_refl m
  · exact (quarStays_enter m .fault).trans (quarStays_audit _ _ _ _)

theorem quarStays_dropAllFires (m : Mach) : QuarStays n m (dropAllFires m) := by
  unfold dropAllFires
  dsimp only
  exact QuarStays.trans (quarStays_forEach _ _ (fun m f _ => quarStays_dropFire m f) m) (quarStays_setEject _ _)

theorem quarStays_stopModule (m : Mach) (cause : Nat) : QuarStays n m (stopModule m cause) := by
  have hfires : QuarStays n m (if pipelineOn m then dropAllFires m else m) := by
    split
    · exact quarStays_dropAllFires m
    · exact quarStays_refl m
  unfold stopModule
  dsimp only
  exact QuarStays.trans (hfires.trans (quarStays_enterFault _ _)) (quarStays_setCtl _ _)

end


/-! What a quarantine does (R355), and that of a Tiller at 110 °C (R442). -/

/-- Both events of a quarantine lie beside the thermal one, and share no bit with one another. -/
theorem quarEvents : ∀ n : Fin 8,
    fieldApart F.GEN_CHECK_EVENT_QUARANTINE 0 F.PWR_EVENT_THERMAL_QUAR 0 = true ∧ vectorOf F.GEN_CHECK_EVENT_QUARANTINE 0 < 1024 ∧
    fieldApart F.TIL_EVENT_QUARANTINED n F.PWR_EVENT_THERMAL_QUAR 0 = true ∧ vectorOf F.TIL_EVENT_QUARANTINED n < 1024 ∧
    F.TIL_EVENT_QUARANTINED.fits = true ∧ F.TIL_EVENT_QUARANTINED.w = 1 := by decide

/-- The events of a quarantine of Tiller `n`. -/
def quarRaised (m : Mach) (n : Nat) : Mach := raise (raiseAs m F.GEN_CHECK_EVENT_QUARANTINE 0 n 0) F.TIL_EVENT_QUARANTINED n

theorem quarRaised_fab (m : Mach) (n : Nat) : (quarRaised m n).fab = m.fab := by rw [quarRaised, raise_fab, raiseAs_fab]

theorem quarRaised_events (m : Mach) (n : Fin 8) : rd (quarRaised m n) F.PWR_EVENT_THERMAL_QUAR 0 = rd m F.PWR_EVENT_THERMAL_QUAR 0 ∧
    rd (quarRaised m n) F.TIL_EVENT_QUARANTINED n = 1 := by
  obtain ⟨h1, hv1, h2, hv2, hfit, hw⟩ := quarEvents n
  have hp1 := pbaAddr_lt hv1
  have hp2 := pbaAddr_lt hv2
  have ha : F.PWR_EVENT_THERMAL_QUAR.addr 0 = 0xf8034 := rfl
  have hn := tilEvent_above n
  refine ⟨?_, rd_raiseAs_same _ _ _ _ _ hfit hw (by omega)⟩
  exact (rd_raiseAs_apart _ _ _ (by omega) h2).trans (rd_raiseAs_apart _ _ _ (by omega) h1)

/-- The Tiller marked quarantined for a cause, its automatic reset not spent. -/
def quarMarked (m : Mach) (n cause : Nat) : Mach :=
  setTil (audit (quarRaised m n) 0x0008 0 (leBytes 1 n ++ leBytes 1 cause)) n (fun x => { x with quar := true, thermQuar := cause == 4, autoSpent := false })

/-- The automatic reset that follows a quarantine where it is configured and not used up. -/
def quarReturn (m : Mach) (n : Nat) : Mach :=
  if flag m F.GEN_CHECK_CFG_AUTO_RETURN 0 && decide ((recentReturns m n).length < 3) then
    setCtl (setTil m n (fun x => { x with autoSpent := true })) (fun k =>
      { k with resets := k.resets ++ [{ kind := .tiller, item := n, phase := .requested, auto := true, at_ := m.time.now, tick := m.ctl.tickCount }] })
  else m

/-- The module stops where no Tiller is left. -/
def quarStop (m : Mach) : Mach := if (List.range 8).all (tilLost m) then stopModule m 4 else m

theorem quarantine_eq {m : Mach} {n : Nat} (cause : Nat) (h : tilLost m n = false) :
    quarantine m n cause = quarStop (quarReturn (loseTiller (quarMarked m n cause) n .quarantined) n) :=
  if_neg (by rw [h]; exact Bool.false_ne_true)

theorem quarStays_quarReturn {n : Fin 8} (m : Mach) (k : Nat) : QuarStays n m (quarReturn m k) := by
  unfold quarReturn
  split
  · refine QuarStays.trans (quarStays_setTil _ _ _ ?_ ?_) (quarStays_setCtl _ _)
    · exact fun _ => ⟨rfl, rfl, rfl⟩
    · exact fun _ => id
  · exact quarStays_refl m

theorem quarStays_quarStop {n : Fin 8} (m : Mach) : QuarStays n m (quarStop m) := by
  unfold quarStop
  split
  · exact quarStays_stopModule m 4
  · exact quarStays_refl m

/-- What a thermal quarantine of Tiller `n` leaves: the Tiller out of service and marked, the others' marks and all temperatures as before, both
events, and a re-placement pending. -/
structure ThermQuarantined (n : Fin 8) (m t : Mach) : Prop where
  st : (tilOf t n).st = .quarantined
  quar : (tilOf t n).quar = true
  therm : (tilOf t n).thermQuar = true
  temp : (tilOf t n).temp = (tilOf m n).temp
  others : ∀ k : Fin 8, k ≠ n → (tilOf t k).quar = (tilOf m k).quar
  thermal : rd t F.PWR_EVENT_THERMAL_QUAR 0 = rd m F.PWR_EVENT_THERMAL_QUAR 0
  event : rd t F.TIL_EVENT_QUARANTINED n = 1
  pend : t.fab.pend.isSome = true

/-- A thermal quarantine stays so through what `QuarStays`. -/
theorem ThermQuarantined.stays {n : Fin 8} {m t u : Mach} (h : ThermQuarantined n m t) (k : QuarStays n t u) : ThermQuarantined n m u := by
  obtain ⟨hq, ht, htemp, hst⟩ := k.til n
  exact ⟨hst h.st, hq.trans h.quar, ht.trans h.therm, htemp.trans h.temp, fun j hj => (k.til j).1.trans (h.others j hj), k.thermal.trans h.thermal,
    k.event.trans h.event, k.pend h.pend⟩

theorem thermQuarantined_loseTiller (m : Mach) (n : Fin 8) : ThermQuarantined n m (loseTiller (quarMarked m n 4) n .quarantined) := by
  obtain ⟨hthermal, hevent⟩ := quarRaised_events m n
  have haudit : QuarStays n (quarRaised m n) (audit (quarRaised m n) 0x0008 0 (leBytes 1 n ++ leBytes 1 4)) := quarStays_audit _ _ _ _
  obtain ⟨hlose, hst, hpend⟩ := loseTiller_facts (n := n) (quarMarked m n 4)
  have hmark : tilOf (quarMarked m n 4) n = { tilOf (audit (quarRaised m n) 0x0008 0 (leBytes 1 n ++ leBytes 1 4)) n with
      quar := true, thermQuar := true, autoSpent := false } := tilOf_setTil_same _ _ _
  have hsame (k : Nat) : tilOf (quarRaised m n) k = tilOf m k := tilOf_congr (quarRaised_fab m n) k
  obtain ⟨hq, ht, htemp, -⟩ := hlose.til n
  rw [hmark] at hq ht htemp
  refine ⟨hst, hq, ht, htemp.trans ((haudit.til n).2.2.1.trans (by rw [hsame])), fun k hk => ?_, ?_, ?_, hpend⟩
  · have hne : k.val ≠ n := fun h => hk (Fin.ext h)
    have hother : tilOf (quarMarked m n 4) k = tilOf (audit (quarRaised m n) 0x0008 0 (leBytes 1 n ++ leBytes 1 4)) k := tilOf_setTil_ne _ _ hne
    rw [(hlose.til k).1, hother, (haudit.til k).1, hsame]
  · exact hlose.thermal.trans (haudit.thermal.trans hthermal)
  · exact hlose.event.trans (haudit.event.trans hevent)

theorem thermQuarantined_quarantine {m : Mach} {n : Fin 8} (h : tilLost m n = false) : ThermQuarantined n m (quarantine m n 4) := by
  rw [quarantine_eq 4 h]
  exact (thermQuarantined_loseTiller m n).stays ((quarStays_quarReturn _ n).trans (quarStays_quarStop _))

/-- The Tiller's sensor is heeded: the compute part is powered or in STANDBY, and the Tiller is not lost (R355, R442). -/
def QuarDue (m : Mach) (n : Nat) : Prop := (fabricOn m = true ∨ m.ctl.st = .standby) ∧ tilLost m n = false

theorem thermalQuar_stays {m : Mach} {n : Nat} (h : ¬ QuarDue m n) : thermalQuar n m = m := by
  refine if_pos ?_
  by_contra hc
  simp only [Bool.not_or, Bool.or_eq_true, Bool.and_eq_true, Bool.not_eq_eq_eq_not, Bool.not_true, decide_eq_false_iff_not, not_or, not_and,
    Decidable.not_not, Bool.not_eq_true] at hc
  exact h ⟨(Bool.eq_false_or_eq_true (fabricOn m)).imp_right hc.1, hc.2⟩

/-- The machine with THERMAL_QUAR raised and the Tiller's temperature noted. -/
def quarHeated (m : Mach) (n : Nat) : Mach := setTil (raise m F.PWR_EVENT_THERMAL_QUAR 0) n (fun x => { x with temp := max x.temp 110 })

theorem thermalQuar_eq {m : Mach} {n : Nat} (h : QuarDue m n) : thermalQuar n m = notePower m (resched (quarantine (quarHeated m n) n 4)) := by
  obtain ⟨hon, hlost⟩ := h
  refine if_neg ?_
  obtain h | h := hon <;> simp [hlost, h]

theorem quarHeated_same (m : Mach) (n : Nat) : tilOf (quarHeated m n) n = { tilOf m n with temp := max (tilOf m n).temp 110 } := by
  rw [quarHeated, tilOf_setTil_same, tilOf_congr (raise_fab m _ _)]

theorem quarHeated_other (m : Mach) {n k : Nat} (h : k ≠ n) : tilOf (quarHeated m n) k = tilOf m k := by
  rw [quarHeated, tilOf_setTil_ne _ _ h, tilOf_congr (raise_fab m _ _)]

theorem completes_thermalQuar (s : State) (n : Fin 8) (h : QuarDue s.mach n) : Completes (.thermalQuar n) s (fun t =>
    (tilOf t n).st = .quarantined ∧ (tilOf t n).quar = true ∧ (tilOf t n).thermQuar = true ∧ 110 ≤ (tilOf t n).temp ∧
    rd t F.PWR_EVENT_THERMAL_QUAR 0 = 1 ∧ rd t F.TIL_EVENT_QUARANTINED n = 1 ∧ t.fab.pend.isSome = true ∧
    ∀ k : Fin 8, k ≠ n → (tilOf t k).quar = (tilOf s.mach k).quar) := by
  have hlost : tilLost (quarHeated (fresh s.mach) n) n = false := by
    rw [tilLost, quarHeated_same]
    exact h.2
  have hq := (thermQuarantined_quarantine hlost).stays ((quarStays_resched _).trans (quarStays_notePower (fresh s.mach) _))
  rw [← thermalQuar_eq (m := fresh s.mach) h] at hq
  have hevent : rd (quarHeated (fresh s.mach) n) F.PWR_EVENT_THERMAL_QUAR 0 = 1 :=
    rd_raiseAs_same (fresh s.mach) F.PWR_EVENT_THERMAL_QUAR 0 0 0 (by decide) rfl (by decide)
  refine completes_run _ rfl ?_
  simp only [rd_settle, tilOf_settle, settle_fab]
  refine ⟨hq.st, hq.quar, hq.therm, ?_, hq.thermal.trans hevent, hq.event, hq.pend, fun k hk => ?_⟩
  · rw [hq.temp, quarHeated_same]
    exact Nat.le_max_right _ _
  · rw [hq.others k hk, quarHeated_other _ (fun h => hk (Fin.ext h))]
    rfl

end Sys2Proof.Machine

/-! ### O60 assembled -/

namespace Sys2Proof.Machine

/-- A trim step up within the window, with no step that waits: made at once (R441). -/
theorem completes_trimRaise (s : State) (die : Fin 4) (ha : alive s.mach = true) (h : trimNext s.mach die < 8) (hw : ¬ trimWaits s.mach die = true)
    (hh : tget 0 s.mach.power.trimHeld die = 0) : Completes (.trimRaise die) s (fun t =>
      sext 8 (rd t (trimFld die) 0) = trimNext s.mach die + 1 ∧ t.out = [] ∧ RegsKeep [(trimFld die).addr 0] s.mach t ∧
      t.power = { s.mach.power with trimAt := tset none s.mach.power.trimAt die (some s.mach.time.now) } ∧ Keeps [.power] s.mach t ∧
      ∀ d : Fin 4, d ≠ die → rd t (trimFld d) 0 = rd s.mach (trimFld d) 0) := by
  have hlow : -128 ≤ trimNext s.mach die := by
    rw [trimNext, hh, Int.add_zero]
    exact (sext_bounds _).1
  refine completes_setTrim (trimRaise die) die _ rfl ?_ (by omega) (by omega)
  exact (trimRaise_steps (m := fresh s.mach) ha h).trans (trimStep_free (m := fresh s.mach) 1 hw hh)

/-- A trim step down within the window, 10 s after the step before, with no step that waits: made at once (R441). -/
theorem completes_trimLower (s : State) (die : Fin 4) (ha : alive s.mach = true) (h : -12 < trimNext s.mach die) (hs : ¬ trimSoon s.mach die = true)
    (hw : ¬ trimWaits s.mach die = true) (hh : tget 0 s.mach.power.trimHeld die = 0) : Completes (.trimLower die) s (fun t =>
      sext 8 (rd t (trimFld die) 0) = trimNext s.mach die - 1 ∧ t.out = [] ∧ RegsKeep [(trimFld die).addr 0] s.mach t ∧
      t.power = { s.mach.power with trimAt := tset none s.mach.power.trimAt die (some s.mach.time.now) } ∧ Keeps [.power] s.mach t ∧
      ∀ d : Fin 4, d ≠ die → rd t (trimFld d) 0 = rd s.mach (trimFld d) 0) := by
  have hhigh : trimNext s.mach die < 128 := by
    rw [trimNext, hh, Int.add_zero]
    exact (sext_bounds _).2
  refine completes_setTrim (trimLower die) die _ rfl ?_ (by omega) (by omega)
  exact (trimLower_steps (m := fresh s.mach) ha h hs).trans (trimStep_free (m := fresh s.mach) (-1) hw hh)

/-! The three temperature events: raised from their thresholds on, and not below. -/

theorem thermalWarn_raises {m : Mach} {die temp : Nat} (ha : alive m = true) (ht : 95 ≤ temp) (hd : die < 2) :
    thermalWarn die temp m = raise m F.PWR_EVENT_THERMAL_WARN 0 := if_pos (by simp [ha, ht, hd])

theorem thermalWarn_stays {m : Mach} {die temp : Nat} (h : temp < 95 ∨ 2 ≤ die) : thermalWarn die temp m = m := by
  refine if_neg ?_
  simp only [Bool.and_eq_true, decide_eq_true_eq]
  omega

theorem thermalLimit_raises {m : Mach} {temp : Nat} (ha : alive m = true) (ht : 105 ≤ temp) :
    thermalLimit temp m = raise m F.PWR_EVENT_THERMAL_LIMIT 0 := if_pos (by simp [ha, ht])

theorem thermalLimit_stays {m : Mach} {temp : Nat} (h : temp < 105) : thermalLimit temp m = m := by
  refine if_neg ?_
  simp only [Bool.and_eq_true, decide_eq_true_eq]
  omega

theorem coolantHigh_raises {m : Mach} {temp : Nat} (ha : alive m = true) (ht : coolantTop m < temp) :
    coolantHigh temp m = raise m F.PWR_EVENT_COOLANT_HIGH 0 := if_pos (by simp [ha, ht])

theorem coolantHigh_stays {m : Mach} {temp : Nat} (h : temp ≤ coolantTop m) : coolantHigh temp m = m := by
  refine if_neg ?_
  simp only [Bool.and_eq_true, decide_eq_true_eq]
  omega

theorem hbmThermal_dormant {m : Mach} {k temp : Nat} (h : m.ctl.st = .dormant) : hbmThermal k temp m = m := if_neg (by simp [h])

/-- Settles O60: one lemma per command. A droop and a clock switch touch one Tiller, and the trims then settle die by die; a trim step is made at
once or waits; a temperature raises its event from its threshold on; the marks of a thermal quarantine stay through all that follows it; and the
steering of a control period clamps every target between the LC floor and the nominal clock. -/
theorem clocksTrimsAndTemperatures : Obligations.ClocksTrimsAndTemperatures := by
  unfold Obligations.ClocksTrimsAndTemperatures
  refine ⟨fun s n => ⟨?droopIdle, ?droopStarts, ?releaseIdle, ?release, ?relockIdle, ?relockSwitches, ?quarIdle, ?quar⟩,
    fun s die temp k ha => ?dead, fun s die ha => ?trimsAndTemperatures, fun s v => ⟨?periodIdle, ?period⟩⟩
  case droopIdle => exact fun h => completes_nothing _ rfl (droop_idle (m := fresh s.mach) h)
  case droopStarts => exact fun hc hs => droop_starts s n hc hs
  case releaseIdle => exact fun h => completes_nothing _ rfl (droopRelease_idle (m := fresh s.mach) h)
  case release =>
    refine fun hs f hf => ⟨fun hr hl => droopRelease_switches s n f hf hs hr hl, fun h => droopRelease_plain s n hs h, fun hr hl => ?_⟩
    exact relockDone_deferred s n f hs hr hl
  case relockIdle => exact fun h => completes_nothing _ rfl (relockDone_idle (m := fresh s.mach) h)
  case relockSwitches => exact fun f hf hs hr hl => relockDone_switches s n f hf hs hr hl
  case quarIdle => exact fun h => completes_nothing _ rfl (thermalQuar_stays (m := fresh s.mach) h)
  case quar => exact fun h => completes_thermalQuar s n h
  case dead =>
    obtain ⟨h1, h2, h3, h4, h5, h6, h7⟩ := dead_does_nothing (m := fresh s.mach) ha die temp.toNat k
    simp only [List.forall_mem_cons, List.not_mem_nil, false_imp_iff, implies_true, and_true]
    exact ⟨completes_nothing _ rfl h1, completes_nothing _ rfl h2, completes_nothing _ rfl h3, completes_nothing _ rfl h4,
      completes_nothing _ rfl h5, completes_nothing _ rfl h6, completes_nothing _ rfl h7⟩
  case trimsAndTemperatures =>
    have hsoon := trimSoon_iff s.mach die
    refine ⟨fun h ⟨hw, hh⟩ => completes_trimRaise s die ha h hw hh, fun h hw => ?raiseHeld, fun h => trimRaise_exhausted s die ha h,
      fun h ⟨hw, hh⟩ hs => completes_trimLower s die ha h (hsoon.not.mpr hs) hw hh, fun h hw hs => ?lowerHeld, fun h => ?lowerStays,
      fun h => completes_trimSave s h, fun h => completes_nothing _ rfl (trimSave_stays (m := fresh s.mach) h),
      fun temp => ⟨?warn, ?noWarn, ?limit, ?noLimit, ⟨?coolant, ?noCoolant⟩, fun k => ⟨?hbmDormant, ?hbm⟩⟩⟩
    case raiseHeld => exact completes_holdTrim _ die 1 rfl (trimRaise_steps (m := fresh s.mach) ha h) hw
    case lowerHeld => exact completes_holdTrim _ die (-1) rfl (trimLower_steps (m := fresh s.mach) ha h (hsoon.not.mpr hs)) hw
    case lowerStays => exact completes_nothing _ rfl (trimLower_stays (m := fresh s.mach) (h.imp_right hsoon.mpr))
    case warn =>
      intro ht hd
      exact completes_raise _ _ rfl (thermalWarn_raises (m := fresh s.mach) ha ht hd) (by decide) rfl (by decide) (by decide)
    case noWarn => exact fun h => completes_nothing _ rfl (thermalWarn_stays h)
    case limit =>
      intro ht
      exact completes_raise _ _ rfl (thermalLimit_raises (m := fresh s.mach) ha ht) (by decide) rfl (by decide) (by decide)
    case noLimit => exact fun h => completes_nothing _ rfl (thermalLimit_stays h)
    case coolant =>
      intro ht
      exact completes_raise _ _ rfl (coolantHigh_raises (m := fresh s.mach) ha ht) (by decide) rfl (by decide) (by decide)
    case noCoolant => exact fun h => completes_nothing _ rfl (coolantHigh_stays (m := fresh s.mach) h)
    case hbmDormant => exact fun h => completes_nothing _ rfl (hbmThermal_dormant (m := fresh s.mach) h)
    case hbm => exact fun h => completes_hbmThermal s k temp ha h
  case periodIdle => exact fun h => completes_nothing _ rfl (controlPeriod_stays (m := fresh s.mach) h)
  case period => exact fun h => completes_controlPeriod s v h

end Sys2Proof.Machine

/-!
PROOFS. What most operations leave alone (`fixed`): the module control, the fuses, the NOR, the configuration, the time base and the encoder
channels. One lemma for each function of the model that keeps all of them, in the order of the model's files; later proofs cite these and do not
unfold the functions again.
-/

namespace Sys2Proof.Machine

/-- What most operations leave alone. -/
structure Fixed where
  ctl : Ctl
  fuses : Fuses
  nor : Nor
  cfg : Image
  time : TimeBase
  enc : Tab EncCh

def fixed (m : Mach) : Fixed := ⟨m.ctl, m.fuses, m.nor, m.cfg, m.time, m.enc⟩

@[simp] theorem fixed_ite (c : Prop) [Decidable c] (a b : Mach) : fixed (if c then a else b) = if c then fixed a else fixed b := apply_ite fixed c a b

@[simp] theorem fixed_forEach {α : Type} (xs : List α) (m : Mach) (f : Mach → α → Mach) (h : ∀ m x, fixed (f m x) = fixed m) :
    fixed (forEach xs m f) = fixed m := by
  unfold forEach
  induction xs generalizing m with
  | nil => rfl
  | cons x xs ih => rw [List.foldl_cons, ih, h]

@[simp] theorem fixed_foldl {α : Type} (xs : List α) (m : Mach) (f : Mach → α → Mach) (h : ∀ m x, fixed (f m x) = fixed m) :
    fixed (xs.foldl f m) = fixed m := fixed_forEach xs m f h

/-- A fold that carries more than the machine. -/
theorem fixed_foldl_fst {α β : Type} (xs : List α) (r : Mach × β) (f : Mach × β → α → Mach × β) (h : ∀ r x, fixed (f r x).1 = fixed r.1) :
    fixed (xs.foldl f r).1 = fixed r.1 := by
  induction xs generalizing r with
  | nil => rfl
  | cons x xs ih => rw [List.foldl_cons, ih, h]

/-- A fold that may fail. -/
theorem fixed_foldl_some {α : Type} {xs : List α} {r : Option Mach} {t m : Mach} (f : Option Mach → α → Option Mach) (hr :
    ∀ t, r = some t → fixed t = fixed m)
    (hn : ∀ x, f none x = none) (h : ∀ m x t, f (some m) x = some t → fixed t = fixed m) (ht : xs.foldl f r = some t) : fixed t = fixed m := by
  induction xs generalizing r with
  | nil => exact hr t ht
  | cons x xs ih =>
    refine ih (fun u hu => ?_) ht
    cases r with
    | none => rw [hn] at hu; cases hu
    | some v => exact (h v x u hu).trans (hr v rfl)

@[simp] theorem fixed_setTrig (m : Mach) (f : Trig → Trig) : fixed (setTrig m f) = fixed m := by cases m; rfl
@[simp] theorem fixed_setAlign (m : Mach) (f : Align → Align) : fixed (setAlign m f) = fixed m := by cases m; rfl
@[simp] theorem fixed_setIsp (m : Mach) (f : Isp → Isp) : fixed (setIsp m f) = fixed m := by cases m; rfl
@[simp] theorem fixed_setChaff (m : Mach) (f : Chaff → Chaff) : fixed (setChaff m f) = fixed m := by cases m; rfl
@[simp] theorem fixed_setFab (m : Mach) (f : Fabric → Fabric) : fixed (setFab m f) = fixed m := by cases m; rfl
@[simp] theorem fixed_setEject (m : Mach) (f : Eject → Eject) : fixed (setEject m f) = fixed m := by cases m; rfl
@[simp] theorem fixed_setFlash (m : Mach) (f : Flash → Flash) : fixed (setFlash m f) = fixed m := by cases m; rfl
@[simp] theorem fixed_setGlume (m : Mach) (f : Glume → Glume) : fixed (setGlume m f) = fixed m := by cases m; rfl
@[simp] theorem fixed_setPower (m : Mach) (f : Power → Power) : fixed (setPower m f) = fixed m := by cases m; rfl
@[simp] theorem fixed_setHost (m : Mach) (f : HostIf → HostIf) : fixed (setHost m f) = fixed m := by cases m; rfl
@[simp] theorem fixed_setPort (m : Mach) (p : Nat) (f : SheafPort → SheafPort) : fixed (setPort m p f) = fixed m := by cases m; rfl
@[simp] theorem fixed_setWin (m : Mach) (p : Nat) (f : Window → Window) : fixed (setWin m p f) = fixed m := by cases m; rfl
@[simp] theorem fixed_setIp (m : Mach) (p : Nat) (f : IntakePort → IntakePort) : fixed (setIp m p f) = fixed m := by cases m; rfl
@[simp] theorem fixed_setTil (m : Mach) (p : Nat) (f : Tiller → Tiller) : fixed (setTil m p f) = fixed m := by cases m; rfl
@[simp] theorem fixed_setQue (m : Mach) (p : Nat) (f : Queue → Queue) : fixed (setQue m p f) = fixed m := by cases m; rfl
@[simp] theorem fixed_setRing (m : Mach) (p : Nat) (f : Ring → Ring) : fixed (setRing m p f) = fixed m := by cases m; rfl
@[simp] theorem fixed_setCtx (m : Mach) (p : Nat) (f : Ctx → Ctx) : fixed (setCtx m p f) = fixed m := by cases m; rfl
@[simp] theorem fixed_setBin (m : Mach) (t c h : Nat) (f : Bin → Bin) : fixed (setBin m t c h f) = fixed m := by cases m; rfl
@[simp] theorem fixed_setAwn (m : Mach) (p : Nat) (f : AwnPort → AwnPort) : fixed (setAwn m p f) = fixed m := by cases m; rfl
@[simp] theorem fixed_setWord (m : Mach) (r : Word) (a : Nat) (w : Word) : fixed (setWord m r a w) = fixed m := by cases m; rfl
@[simp] theorem fixed_wr (m : Mach) (f : Fld) (i v : Nat) : fixed (wr m f i v) = fixed m := by cases m; rfl
@[simp] theorem fixed_incBy (m : Mach) (f : Fld) (i v : Nat) : fixed (incBy m f i v) = fixed m := by cases m; rfl
@[simp] theorem fixed_inc (m : Mach) (f : Fld) (i : Nat) : fixed (inc m f i) = fixed m := by cases m; rfl
@[simp] theorem fixed_emit (m : Mach) (o : Output) : fixed (emit m o) = fixed m := by cases m; rfl
@[simp] theorem fixed_draw (m : Mach) : fixed (draw m).1 = fixed m := by cases m; rfl
@[simp] theorem fixed_fresh (m : Mach) : fixed (fresh m) = fixed m := by cases m; rfl

theorem fixed_bar0 (m : Mach) (f : Mach → Mach) (h : ∀ m, fixed (f m) = fixed m) : fixed (bar0 m f) = fixed m := by
  unfold bar0
  split <;> simp [h]

theorem fixed_bar0P (m : Mach) (f : Mach → Mach) (h : ∀ m, fixed (f m) = fixed m) : fixed (bar0P m f) = fixed m := by
  unfold bar0P
  exact fixed_bar0 _ _ fun m => by simp [h]

theorem fixed_barRead (m : Mach) (p : Bool) (f : Mach → Mach) (h : ∀ m, fixed (f m) = fixed m) : fixed (barRead m p f) = fixed m := by
  unfold barRead
  (repeat' split) <;> simp [h]

@[simp] theorem fixed_logEvent (m : Mach) (v b i c : Nat) : fixed (logEvent m v b i c) = fixed m := by
  unfold logEvent
  rfl

@[simp] theorem fixed_settle (m0 m : Mach) : fixed (settle m0 m) = fixed m := by
  unfold settle
  split <;> rfl

@[simp] theorem fixed_sendFrames (m : Mach) (p : Nat) (more : Nat → Nat) : fixed (sendFrames m p more) = fixed m := by
  rw [sendFrames_eq]
  rfl

@[simp] theorem fixed_sendVector (m : Mach) (v : Nat) : fixed (sendVector m v) = fixed m := by simp [sendVector]

@[simp] theorem fixed_raiseAs (m : Mach) (f : Fld) (i inst c : Nat) : fixed (raiseAs m f i inst c) = fixed m := by simp [raiseAs]
@[simp] theorem fixed_raise (m : Mach) (f : Fld) (i : Nat) : fixed (raise m f i) = fixed m := by simp [raise]
@[simp] theorem fixed_raiseCtx (m : Mach) (f : Fld) (i c : Nat) : fixed (raiseCtx m f i c) = fixed m := by simp [raiseCtx]
@[simp] theorem fixed_raiseQuiet (m : Mach) (f : Fld) : fixed (raiseQuiet m f) = fixed m := by simp [raiseQuiet]
@[simp] theorem fixed_raiseCount (m : Mach) (f g : Fld) (i : Nat) : fixed (raiseCount m f g i) = fixed m := by simp [raiseCount]
@[simp] theorem fixed_raiseIf (c : Bool) (m : Mach) (f : Fld) (i : Nat) : fixed (raiseIf c m f i) = fixed m := by simp [raiseIf]
@[simp] theorem fixed_deny (m : Mach) : fixed (deny m) = fixed m := by simp [deny]
@[simp] theorem fixed_notePower (m0 m : Mach) : fixed (notePower m0 m) = fixed m := by simp [notePower]

@[simp] theorem fixed_checkLast (m : Mach) (source ctx tiller run : Nat) : fixed (checkLast m source ctx tiller run) = fixed m := by simp [checkLast]
@[simp] theorem fixed_intakeParity (m : Mach) (n : Nat) : fixed (intakeParity m n) = fixed m := by simp [intakeParity]
@[simp] theorem fixed_emitFlit (m : Mach) (p : Nat) (f : BitVec 256) : fixed (emitFlit m p f) = fixed m := by simp [emitFlit]
@[simp] theorem fixed_sendLctl (m : Mach) (p flags pm : Nat) : fixed (sendLctl m p flags pm) = fixed m := by simp [sendLctl]

@[simp] theorem fixed_startTraining (m : Mach) (p : Nat) (phy : PhyState) (fast : Bool) : fixed (startTraining m p phy fast) = fixed m := by
  simp [startTraining]

@[simp] theorem fixed_retrainFrom (m : Mach) (p : Nat) (phy : PhyState) : fixed (retrainFrom m p phy) = fixed m := by simp [retrainFrom]
@[simp] theorem fixed_retrain137 (m : Mach) (p : Nat) (phy : PhyState) : fixed (retrain137 m p phy) = fixed m := by simp [retrain137]

@[simp] theorem fixed_lpRequest (m : Mach) (p : Nat) (r : LpReq) : fixed (lpRequest m p r) = fixed m := by
  unfold lpRequest
  (repeat' split) <;> simp

@[simp] theorem fixed_enterL0 (m : Mach) (p : Nat) : fixed (enterL0 m p) = fixed m := by
  unfold enterL0
  dsimp only
  split <;> simp

@[simp] theorem fixed_holdRelease (m : Mach) : fixed (holdRelease m) = fixed m := by simp [holdRelease]
@[simp] theorem fixed_applyTap (m : Mach) (p lane req : Nat) : fixed (applyTap m p lane req) = fixed m := by simp [applyTap]
@[simp] theorem fixed_afterMeasure (m : Mach) (p : Nat) : fixed (afterMeasure m p) = fixed m := by simp [afterMeasure]
@[simp] theorem fixed_answerFrame (m : Mach) (p lane : Nat) (f : BitVec 128) : fixed (answerFrame m p lane f) = fixed m := by simp [answerFrame]

@[simp] theorem fixed_frameFound (m : Mach) (p lane : Nat) (f : BitVec 128) (meas : RxMeas) : fixed (frameFound m p lane f meas) = fixed m := by
  simp [frameFound]

@[simp] theorem fixed_frameEq (m : Mach) (p lane : Nat) (f : BitVec 128) (meas : RxMeas) : fixed (frameEq m p lane f meas) = fixed m := by
  simp [frameEq]

@[simp] theorem fixed_frameMeasure (m : Mach) (p lane : Nat) (f : BitVec 128) (meas : RxMeas) : fixed (frameMeasure m p lane f meas) = fixed m := by
  simp [frameMeasure]

@[simp] theorem fixed_trainingFrame (p lane : Nat) (f : BitVec 128) (meas : RxMeas) (m : Mach) : fixed (trainingFrame p lane f meas m) = fixed m := by
  unfold trainingFrame
  (repeat' split) <;> simp

@[simp] theorem fixed_partnerCk (p : Nat) (m : Mach) : fixed (partnerCk p m) = fixed m := by
  unfold partnerCk
  dsimp only
  split <;> simp

@[simp] theorem fixed_trainFail (p : Nat) (m : Mach) : fixed (trainFail p m) = fixed m := by
  unfold trainFail
  dsimp only
  split <;> simp

@[simp] theorem fixed_trainBackoffEnd (p : Nat) (m : Mach) : fixed (trainBackoffEnd p m) = fixed m := by simp [trainBackoffEnd]
@[simp] theorem fixed_fastTimeout (p : Nat) (m : Mach) : fixed (fastTimeout p m) = fixed m := by simp [fastTimeout]
@[simp] theorem fixed_clkLoss (p : Nat) (m : Mach) : fixed (clkLoss p m) = fixed m := by simp [clkLoss]
@[simp] theorem fixed_deskewErr (p : Nat) (m : Mach) : fixed (deskewErr p m) = fixed m := by simp [deskewErr]

@[simp] theorem fixed_retrain (p : Nat) (m : Mach) : fixed (retrain p m) = fixed m := by
  unfold retrain
  refine fixed_bar0 _ _ fun _ => ?_
  dsimp only
  (repeat' split) <;> simp

@[simp] theorem fixed_lpExit (m : Mach) (p : Nat) : fixed (lpExit m p) = fixed m := by
  unfold lpExit
  split <;> simp

@[simp] theorem fixed_lpWrite (p : Nat) (r : LpReq) (m : Mach) : fixed (lpWrite p r m) = fixed m := by
  unfold lpWrite
  refine fixed_bar0 _ _ fun _ => ?_
  dsimp only
  (repeat' split) <;> simp

@[simp] theorem fixed_quietIdle (p : Nat) (m : Mach) : fixed (quietIdle p m) = fixed m := by simp [quietIdle]
@[simp] theorem fixed_quietExit (p : Nat) (m : Mach) : fixed (quietExit p m) = fixed m := by simp [quietExit]

@[simp] theorem fixed_lowPowerEntry (p : Nat) (m : Mach) : fixed (lowPowerEntry p m) = fixed m := by
  unfold lowPowerEntry
  dsimp only
  (repeat' split) <;> simp

@[simp] theorem fixed_testWrite (p : Nat) (on : Bool) (m : Mach) : fixed (testWrite p on m) = fixed m := by
  unfold testWrite
  refine fixed_bar0 _ _ fun _ => ?_
  dsimp only
  (repeat' split) <;> simp

@[simp] theorem fixed_checkerEnable (p : Nat) (rx : List (List Bool)) (m : Mach) : fixed (checkerEnable p rx m) = fixed m := by
  unfold checkerEnable
  refine fixed_bar0 _ _ fun _ => ?_
  dsimp only
  (repeat' split) <;> simp

@[simp] theorem fixed_checkersOff (m : Mach) (p : Nat) : fixed (checkersOff m p) = fixed m := by simp [checkersOff]

@[simp] theorem fixed_injOne (p : Nat) (m : Mach) : fixed (injOne p m) = fixed m := by
  unfold injOne
  refine fixed_bar0 _ _ fun _ => ?_
  dsimp only
  (repeat' split) <;> simp

@[simp] theorem fixed_checkLane (p : Nat) (runs : List LaneRun) (m : Mach) (l : Nat) : fixed (checkLane p runs m l) = fixed m := by simp [checkLane]

@[simp] theorem fixed_patternWindowEnd (p : Nat) (runs : List LaneRun) (m : Mach) : fixed (patternWindowEnd p runs m) = fixed m := by
  simp [patternWindowEnd]

@[simp] theorem fixed_setCmd (m : Mach) (q seq : Nat) (f : Cmd → Cmd) : fixed (setCmd m q seq f) = fixed m := by simp [setCmd]
@[simp] theorem fixed_fillLines (m : Mach) (t : Nat) (ls : List (Nat × Nat × Nat)) : fixed (fillLines m t ls) = fixed m := by simp [fillLines]
@[simp] theorem fixed_setUnits (m : Mach) (c : Cmd) (h : Option (Nat × Nat)) : fixed (setUnits m c h) = fixed m := by simp [setUnits]
@[simp] theorem fixed_addEngine (m : Mach) (c : Cmd) : fixed (addEngine m c) = fixed m := by simp [addEngine]
@[simp] theorem fixed_leaveUnits (m : Mach) (c : Cmd) : fixed (leaveUnits m c) = fixed m := by simp [leaveUnits]
@[simp] theorem fixed_stopRun (m : Mach) (c : Cmd) : fixed (stopRun m c) = fixed m := by simp [stopRun]
@[simp] theorem fixed_noteKill (m : Mach) (c : Cmd) : fixed (noteKill m c) = fixed m := by simp [noteKill]
@[simp] theorem fixed_noteLatency (m : Mach) (c : Cmd) : fixed (noteLatency m c) = fixed m := by simp [noteLatency]
@[simp] theorem fixed_finish (m : Mach) (c : Cmd) (status : Nat) : fixed (finish m c status) = fixed m := by simp [finish]

@[simp] theorem fixed_preemptOne (m : Mach) (c : Cmd) : fixed (preemptOne m c) = fixed m := by
  unfold preemptOne
  dsimp only
  (repeat' split) <;> simp

@[simp] theorem fixed_preempt (m : Mach) (t : Nat) : fixed (preempt m t) = fixed m := by simp [preempt]
@[simp] theorem fixed_ringPut (m : Mach) (r : Nat) (e : List Byte) : fixed (ringPut m r e) = fixed m := by simp [ringPut]
@[simp] theorem fixed_putEntry (m : Mach) (q : Nat) (e : List Byte) : fixed (putEntry m q e) = fixed m := by simp [putEntry]
@[simp] theorem fixed_flushWaiting (m : Mach) (r : Nat) : fixed (flushWaiting m r) = fixed m := by simp [flushWaiting]
@[simp] theorem fixed_noteStatus (m : Mach) (c : Cmd) (s : Nat) : fixed (noteStatus m c s) = fixed m := by simp [noteStatus]
@[simp] theorem fixed_reportCmd (m : Mach) (c : Cmd) : fixed (reportCmd m c) = fixed m := by simp [reportCmd]
@[simp] theorem fixed_flushReports (m : Mach) (q : Nat) : fixed (flushReports m q) = fixed m := by simp [flushReports]

@[simp] theorem fixed_publishSpace (m : Mach) (t : Nat) (hbm : Bool) (taken : List (Nat × Nat × Nat)) (ws : List (Nat × Nat × List Byte)) :
    fixed (publishSpace m t hbm taken ws) = fixed m := by
  simp [publishSpace]

/-- A commit moves commands, the Granaries and the HBM (R260, R283). -/
theorem fixed_commitGroup (m : Mach) (k : Cmd) (send : Mach → Cmd → Mach) (h : ∀ m c, fixed (send m c) = fixed m) :
    fixed (commitGroup m k send) = fixed m := by
  unfold commitGroup
  extract_lets st taken stale m1 good ordered writes m2 m3 m4 m5 done m6 m7 m8 peers m9 m10
  have h4 : fixed m4 = fixed m3 := fixed_forEach _ _ _ fun _ _ => by split <;> simp
  have h5 : fixed m5 = fixed m4 := fixed_forEach _ _ _ fun _ _ => by simp
  have h8 : fixed m8 = fixed m5 := by simp [m8, m7, m6]
  have h9 : fixed m9 = fixed m8 := fixed_forEach _ _ _ h
  have h10 : fixed m10 = fixed m9 := fixed_forEach _ _ _ fun _ _ => by simp
  rw [fixed_flushReports, h10, h9, h8, h5, h4]
  simp [m3, m2, m1]

@[simp] theorem fixed_bindBin (m : Mach) (c lt t : Nat) (p : Program) (d : BinDecl) : fixed (bindBin m c lt t p d) = fixed m := by
  unfold bindBin
  dsimp only
  split <;> simp

@[simp] theorem fixed_sizePool (m : Mach) (c t : Nat) : fixed (sizePool m c t) = fixed m := by simp [sizePool]
@[simp] theorem fixed_trimPools (m : Mach) (c t : Nat) : fixed (trimPools m c t) = fixed m := by simp [trimPools]
@[simp] theorem fixed_wakeTiller (m : Mach) (t : Nat) : fixed (wakeTiller m t) = fixed m := by simp [wakeTiller]

@[simp] theorem fixed_bindLts (m : Mach) (c : Nat) (lts : List Nat) : fixed (bindLts m c lts) = fixed m := by
  unfold bindLts
  dsimp only
  split <;> simp

@[simp] theorem fixed_releaseLt (m : Mach) (c lt : Nat) : fixed (releaseLt m c lt) = fixed m := by simp [releaseLt]
@[simp] theorem fixed_releasePool (m : Mach) (c t : Nat) : fixed (releasePool m c t) = fixed m := by simp [releasePool]
@[simp] theorem fixed_releaseCtx (m : Mach) (c : Nat) : fixed (releaseCtx m c) = fixed m := by simp [releaseCtx]

@[simp] theorem fixed_parkOver (m : Mach) (t : Nat) : fixed (parkOver m t) = fixed m := by
  unfold parkOver
  generalize List.range 1024 = xs
  exact fixed_foldl _ _ _ fun _ _ => by (repeat' split) <;> simp

@[simp] theorem fixed_placementDone (m : Mach) : fixed (placementDone m) = fixed m := by simp [placementDone]
@[simp] theorem fixed_setMap (m : Mach) (c : Nat) (mp : List Nat) : fixed (setMap m c mp) = fixed m := by simp [setMap]
@[simp] theorem fixed_bindCtx (m : Mach) (c : Nat) (mp : List Nat) : fixed (bindCtx m c mp) = fixed m := by simp [bindCtx]
@[simp] theorem fixed_abandonBatch (m : Mach) (c no status : Nat) : fixed (abandonBatch m c no status) = fixed m := by simp [abandonBatch]
@[simp] theorem fixed_dropCmds (m : Mach) (gone : Cmd → Bool) : fixed (dropCmds m gone) = fixed m := by simp [dropCmds]
@[simp] theorem fixed_dropWork (m : Mach) (gone : Cmd → Bool) (lts : Nat → List Nat) : fixed (dropWork m gone lts) = fixed m := by simp [dropWork]

@[simp] theorem fixed_beginReplace (m : Mach) (maps : List (Nat × List Nat)) (ret : Bool) (gone : List Nat) :
    fixed (beginReplace m maps ret gone) = fixed m := by
  simp [beginReplace]

@[simp] theorem fixed_loseTiller (m : Mach) (t : Nat) (st' : TilState) : fixed (loseTiller m t st') = fixed m := by simp [loseTiller]
@[simp] theorem fixed_returnTiller (m : Mach) : fixed (returnTiller m) = fixed m := by simp [returnTiller]

@[simp] theorem fixed_moveWork (m : Mach) (maps : List (Nat × List Nat)) (gone : List Nat) : fixed (moveWork m maps gone) = fixed m := by
  simp [moveWork]

@[simp] theorem fixed_loseImages (m : Mach) (lost : BitVec 16) : fixed (loseImages m lost) = fixed m := by
  unfold loseImages
  split <;> simp

@[simp] theorem fixed_loadMoved (m : Mach) : fixed (loadMoved m) = fixed m := by
  unfold loadMoved
  split <;> simp

@[simp] theorem fixed_sendSeq (m : Mach) (p : Nat) (f : BitVec 256) : fixed (sendSeq m p f) = fixed m := by simp [sendSeq]

@[simp] theorem fixed_pumpFlits (fs : List (BitVec 256)) (m : Mach) (p : Nat) : fixed (pumpFlits fs m p) = fixed m := by
  induction fs generalizing m with
  | nil => rfl
  | cons f fs ih => simp [pumpFlits, ih]

@[simp] theorem fixed_startWrite (m : Mach) (p : Nat) (w : OutWrite) : fixed (startWrite m p w) = fixed m := by simp [startWrite]
@[simp] theorem fixed_pump (m : Mach) (p : Nat) : fixed (pump m p) = fixed m := by simp [pump]
@[simp] theorem fixed_produce (m : Mach) (p : Nat) (f : BitVec 256) : fixed (produce m p f) = fixed m := by simp [produce]

@[simp] theorem fixed_queueWrite (m : Mach) (p window gen offset : Nat) (data : List Byte) (q seq : Nat) (tick : Option (BitVec 48)) :
    fixed (queueWrite m p window gen offset data q seq tick) = fixed m := by
  simp [queueWrite]

@[simp] theorem fixed_sendWrites (m : Mach) (c : Cmd) : fixed (sendWrites m c) = fixed m := by simp [sendWrites]
@[simp] theorem fixed_endWrite (m : Mach) (p : Nat) (w : OutWrite) (status : Nat) : fixed (endWrite m p w status) = fixed m := by simp [endWrite]
@[simp] theorem fixed_clearLink (m : Mach) (p : Nat) : fixed (clearLink m p) = fixed m := by simp [clearLink]
@[simp] theorem fixed_resendAll (m : Mach) (p : Nat) : fixed (resendAll m p) = fixed m := by simp [resendAll]
@[simp] theorem fixed_requestRetrain (m : Mach) (p : Nat) : fixed (requestRetrain m p) = fixed m := by simp [requestRetrain]
@[simp] theorem fixed_replayDue (m : Mach) (p : Nat) : fixed (replayDue m p) = fixed m := by simp [replayDue]

@[simp] theorem fixed_answerPeer (m : Mach) (p : Nat) : fixed (answerPeer m p) = fixed m := by
  unfold answerPeer
  dsimp only
  split <;> simp

@[simp] theorem fixed_takeAck (m : Mach) (p : Nat) (ack : BitVec 12) : fixed (takeAck m p ack) = fixed m := by simp [takeAck]
@[simp] theorem fixed_endHeld (m : Mach) : fixed (endHeld m) = fixed m := by simp [endHeld]
@[simp] theorem fixed_badCrc (m : Mach) (p : Nat) : fixed (badCrc m p) = fixed m := by simp [badCrc]

@[simp] theorem fixed_takePm (m : Mach) (p pm : Nat) : fixed (takePm m p pm) = fixed m := by
  unfold takePm
  split <;> simp

@[simp] theorem fixed_takeLctl (m : Mach) (p : Nat) (f : BitVec 256) : fixed (takeLctl m p f) = fixed m := by simp [takeLctl]
@[simp] theorem fixed_takeHdr (m : Mach) (p : Nat) (b : List Byte) : fixed (takeHdr m p b) = fixed m := by simp [takeHdr]

@[simp] theorem fixed_takeData (m : Mach) (p : Nat) (b : List Byte) : fixed (takeData m p b) = fixed m := by
  unfold takeData
  split <;> simp

@[simp] theorem fixed_takeSeq (m : Mach) (p : Nat) (f : BitVec 256) : fixed (takeSeq m p f) = fixed m := by
  unfold takeSeq
  dsimp only
  (repeat' split) <;> simp

@[simp] theorem fixed_flitReceived (p : Nat) (f : BitVec 256) (m : Mach) : fixed (flitReceived p f m) = fixed m := by
  unfold flitReceived
  dsimp only
  (repeat' split) <;> simp

@[simp] theorem fixed_lctlReceived (p : Nat) (f : BitVec 256) (m : Mach) : fixed (lctlReceived p f m) = fixed m := by simp [lctlReceived]
@[simp] theorem fixed_replayTimeout (p : Nat) (m : Mach) : fixed (replayTimeout p m) = fixed m := by simp [replayTimeout]
@[simp] theorem fixed_linkDown (p : Nat) (m : Mach) : fixed (linkDown p m) = fixed m := by simp [linkDown]

@[simp] theorem fixed_bindGrant (m : Mach) (c p window owner idx gen delta : Nat) : fixed (bindGrant m c p window owner idx gen delta) = fixed m := by
  unfold bindGrant
  (repeat' split) <;> simp

@[simp] theorem fixed_takeGrant (m : Mach) (p : Nat) (b : List Byte) : fixed (takeGrant m p b) = fixed m := by simp [takeGrant]
@[simp] theorem fixed_landWrite (m : Mach) (w : InWrite) : fixed (landWrite m w) = fixed m := by simp [landWrite]

@[simp] theorem fixed_remoteWrite (p : Nat) (m : Mach) : fixed (remoteWrite p m) = fixed m := by
  unfold remoteWrite
  split <;> simp

@[simp] theorem fixed_wrRsp (p : Nat) (m : Mach) : fixed (wrRsp p m) = fixed m := by
  unfold wrRsp
  dsimp only
  (repeat' split) <;> simp

@[simp] theorem fixed_wrTimeout (p tag : Nat) (m : Mach) : fixed (wrTimeout p tag m) = fixed m := by
  unfold wrTimeout
  split <;> simp

@[simp] theorem fixed_openWindow (m : Mach) (i owner p : Nat) (granary : Bool) (t baseKib sizeKib : Nat) :
    fixed (openWindow m i owner p granary t baseKib sizeKib) = fixed m := by
  simp [openWindow]

@[simp] theorem fixed_closeWindow (m : Mach) (i : Nat) : fixed (closeWindow m i) = fixed m := by simp [closeWindow]
@[simp] theorem fixed_bootWindows (m : Mach) : fixed (bootWindows m) = fixed m := by simp [bootWindows]

@[simp] theorem fixed_openPeer (m : Mach) (c : Nat) (d : PeerDecl) : fixed (openPeer m c d) = fixed m := by
  unfold openPeer
  dsimp only
  split <;> simp

@[simp] theorem fixed_sendGrant (m : Mach) (c : Nat) (q : Program) (d : PeerDecl) : fixed (sendGrant m c q d) = fixed m := by
  unfold sendGrant
  split <;> simp

@[simp] theorem fixed_grantAll (m : Mach) (c : Nat) (reopen : Bool) : fixed (grantAll m c reopen) = fixed m := by
  unfold grantAll
  split <;> simp

@[simp] theorem fixed_closeCtxWindows (m : Mach) (c : Nat) : fixed (closeCtxWindows m c) = fixed m := by simp [closeCtxWindows]
@[simp] theorem fixed_scrubPort (m : Mach) (p : Nat) : fixed (scrubPort m p) = fixed m := by simp [scrubPort]

@[simp] theorem fixed_scrubPortEnd (m : Mach) (p : Nat) : fixed (scrubPortEnd m p) = fixed m := by
  unfold scrubPortEnd
  dsimp only
  (repeat' split) <;> simp

@[simp] theorem fixed_startProg (m : Mach) : fixed (startProg m) = fixed m := by simp [startProg]
@[simp] theorem fixed_noteSystem (m : Mach) : fixed (noteSystem m) = fixed m := by simp [noteSystem]
@[simp] theorem fixed_audit (m : Mach) (type ctx : Nat) (payload : List Byte) : fixed (audit m type ctx payload) = fixed m := by simp [audit]
@[simp] theorem fixed_healthCheck (m : Mach) : fixed (healthCheck m) = fixed m := by simp [healthCheck]
@[simp] theorem fixed_markBlock (m : Mach) (p : Nat) : fixed (markBlock m p) = fixed m := by simp [markBlock]
@[simp] theorem fixed_retireBlock (m : Mach) (l : Nat) : fixed (retireBlock m l) = fixed m := by simp [retireBlock]
@[simp] theorem fixed_eraseFails (f0 : Flash) (m : Mach) : fixed (eraseFails f0 m) = fixed m := by simp [eraseFails]

@[simp] theorem fixed_wearLevel (m : Mach) : fixed (wearLevel m) = fixed m := by
  unfold wearLevel
  split <;> simp

@[simp] theorem fixed_readOnlyDrop (m : Mach) : fixed (readOnlyDrop m) = fixed m := by simp [readOnlyDrop]

@[simp] theorem fixed_finishProg (m : Mach) : fixed (finishProg m) = fixed m := by
  unfold finishProg
  split <;> simp

@[simp] theorem fixed_flashClose (m : Mach) : fixed (flashClose m) = fixed m := by simp [flashClose]
@[simp] theorem fixed_flashOpen (m : Mach) : fixed (flashOpen m) = fixed m := by simp [flashOpen]

@[simp] theorem fixed_putReject (m : Mach) (objDec : List Byte) (ctx : Nat) (conf : Bool) (crop tail : List Byte) :
    fixed (putReject m objDec ctx conf crop tail) = fixed m := by
  simp [putReject]

@[simp] theorem fixed_backupImage (m : Mach) (i : Image) : fixed (backupImage m i) = fixed m := by simp [backupImage]

@[simp] theorem fixed_programDone (m : Mach) : fixed ((programDone m).1) = fixed m := by
  unfold programDone
  (repeat' split) <;> simp

@[simp] theorem fixed_nandProgram (res : NandResult) (m : Mach) : fixed (nandProgram res m) = fixed m := by
  unfold nandProgram
  dsimp only
  (repeat' split) <;> simp

@[simp] theorem fixed_loseRecords (bad : List (Bool × Nat)) (m : Mach) : fixed (loseRecords bad m) = fixed m := by simp [loseRecords]
@[simp] theorem fixed_recordRead (v : Word) (m : Mach) : fixed (recordRead v m) = fixed m := by simp [recordRead]

@[simp] theorem fixed_blockRefresh (l : Nat) (weak eraseFail : Bool) (bad : List (Bool × Nat)) (m : Mach) :
    fixed (blockRefresh l weak eraseFail bad m) = fixed m := by
  simp [blockRefresh]

@[simp] theorem fixed_retentionScan (flags : List Nat) (bad : List (Bool × Nat)) (m : Mach) : fixed (retentionScan flags bad m) = fixed m := by
  simp [retentionScan]

@[simp] theorem fixed_readDone (ok : Bool) (bad : List Nat) (m : Mach) : fixed (readDone ok bad m) = fixed m := by
  unfold readDone
  split <;> simp

@[simp] theorem fixed_noteReached (m : Mach) : fixed (noteReached m) = fixed m := by simp [noteReached]
@[simp] theorem fixed_advanceHigh (m : Mach) : fixed (advanceHigh m) = fixed m := by simp [advanceHigh]
@[simp] theorem fixed_finalize (m : Mach) (d : Decision) : fixed (finalize m d) = fixed m := by simp [finalize]
@[simp] theorem fixed_modDec (m : Mach) (ids : List Nat) (f : Decision → Decision) : fixed (modDec m ids f) = fixed m := by simp [modDec]
@[simp] theorem fixed_finalizeDone (m : Mach) (ids : List Nat) : fixed (finalizeDone m ids) = fixed m := by simp [finalizeDone]
@[simp] theorem fixed_removeFire (m : Mach) (id : Nat) : fixed (removeFire m id) = fixed m := by simp [removeFire]
@[simp] theorem fixed_missFire (m : Mach) (f : Fire) (flagBit : Nat) : fixed (missFire m f flagBit) = fixed m := by simp [missFire]
@[simp] theorem fixed_dropFire (m : Mach) (f : Fire) : fixed (dropFire m f) = fixed m := by simp [dropFire]
@[simp] theorem fixed_inhibitFire (m : Mach) (f : Fire) : fixed (inhibitFire m f) = fixed m := by simp [inhibitFire]
@[simp] theorem fixed_addFire (m : Mach) (d : Decision) (a v : Nat) : fixed (addFire m d a v) = fixed m := by simp [addFire]
@[simp] theorem fixed_ejectObj (m : Mach) (o : ObjRec) : fixed (ejectObj m o) = fixed m := by simp [ejectObj]
@[simp] theorem fixed_abandonObj (m : Mach) (o : ObjRec) : fixed (abandonObj m o) = fixed m := by simp [abandonObj]
@[simp] theorem fixed_dropAllFires (m : Mach) : fixed (dropAllFires m) = fixed m := by simp [dropAllFires]
@[simp] theorem fixed_takeRoom (m : Mach) (p n : Nat) : fixed (takeRoom m p n) = fixed m := by simp [takeRoom]

@[simp] theorem fixed_joinUnsent (m : Mach) (n : Nat) (f : Fire) (t : Int × Int) : fixed (joinUnsent m n f t).1 = fixed m := by
  induction n generalizing m f t with
  | zero => rfl
  | succ n ih =>
    unfold joinUnsent
    split
    · rfl
    · split
      · rfl
      · simp [ih]

@[simp] theorem fixed_afterSent (m : Mach) (f : Fire) (t : Int × Int) : fixed (afterSent m f t).1 = fixed m := by
  unfold afterSent
  exact fixed_foldl_fst _ _ _ fun r x => by split <;> simp

@[simp] theorem fixed_joined (m : Mach) (f : Fire) (t : Int × Int) : fixed ((joined m f t).1) = fixed m := by simp [joined]

@[simp] theorem fixed_runFrom (m : Mach) (t : Int × Int) (n v : Nat) : fixed (runFrom m t n v).1 = fixed m := by
  induction n generalizing m v with
  | zero => rfl
  | succ n ih =>
    unfold runFrom
    split
    · rfl
    · split
      · next r hr =>
        obtain ⟨g, -, hg⟩ := List.exists_of_findSome?_eq_some hr
        obtain ⟨u, -, hu⟩ := Option.bind_eq_some_iff.mp hg
        have e : r = joined m g u := by
          dsimp only at hu
          split at hu <;> simp_all
        simp [ih, e]
      · rfl

@[simp] theorem fixed_markSent (m : Mach) (f : Fire) (t : Int × Int) (run : Nat) : fixed (markSent m f t run) = fixed m := by simp [markSent]
@[simp] theorem fixed_sendFire (m : Mach) (v run : Nat) (on : Int) (units : Nat) : fixed (sendFire m v run on units) = fixed m := by simp [sendFire]

@[simp] theorem fixed_fireNow (m : Mach) (f : Fire) (t : Int × Int) : fixed (fireNow m f t) = fixed m := by
  unfold fireNow
  dsimp only
  (repeat' split) <;> simp

@[simp] theorem fixed_fireChain (m : Mach) (f : Fire) : fixed (fireChain m f) = fixed m := by simp [fireChain]
@[simp] theorem fixed_chainInhibited (m : Mach) (f : Fire) : fixed (chainInhibited m f) = fixed m := by simp [chainInhibited]

@[simp] theorem fixed_fireLate (m : Mach) (f : Fire) (t : Int × Int) : fixed ((fireLate m f t).1) = fixed m := by
  unfold fireLate
  split <;> simp

@[simp] theorem fixed_fireSend (id : Nat) (m : Mach) : fixed (fireSend id m) = fixed m := by
  unfold fireSend
  split
  · rfl
  · next f _ =>
    split
    · rfl
    · split
      · simp
      · split
        · rfl
        · next t _ =>
          have hl := fixed_fireLate m f t
          generalize fireLate m f t = r at hl ⊢
          obtain ⟨m1, _ | ⟨g, u⟩⟩ := r <;> simp_all

@[simp] theorem fixed_fireDeadline (id : Nat) (m : Mach) : fixed (fireDeadline id m) = fixed m := by
  unfold fireDeadline
  (repeat' split) <;> simp

@[simp] theorem fixed_fireIntervalEnd (id : Nat) (m : Mach) : fixed (fireIntervalEnd id m) = fixed m := by
  unfold fireIntervalEnd
  split <;> simp

@[simp] theorem fixed_directOutputSwitch (n : Nat) (on : Bool) (m : Mach) : fixed (directOutputSwitch n on m) = fixed m := by
  simp [directOutputSwitch]

@[simp] theorem fixed_sendConfig (m : Mach) (p : Nat) : fixed (sendConfig m p) = fixed m := by
  unfold sendConfig
  split <;> simp

@[simp] theorem fixed_beaconPort (m : Mach) (p : Nat) : fixed (beaconPort m p) = fixed m := by simp [beaconPort]
@[simp] theorem fixed_beacon (m : Mach) : fixed (beacon m) = fixed m := by simp [beacon]
@[simp] theorem fixed_configBoard (m : Mach) (p b delay : Nat) : fixed (configBoard m p b delay) = fixed m := by simp [configBoard]
@[simp] theorem fixed_learn (m : Mach) (v open_ : Nat) : fixed (learn m v open_) = fixed m := by simp [learn]
@[simp] theorem fixed_resend (m : Mach) (p b : Nat) : fixed (resend m p b) = fixed m := by simp [resend]

@[simp] theorem fixed_awnStatus (p : Nat) (frame : List Byte) (roundTripNs : Nat) (m : Mach) : fixed (awnStatus p frame roundTripNs m) = fixed m := by
  simp [awnStatus]

@[simp] theorem fixed_boardLost (p b : Nat) (m : Mach) : fixed (boardLost p b m) = fixed m := by simp [boardLost]

@[simp] theorem fixed_sampleInputs (samples : List DiSample) (overload : Bool) (m : Mach) : fixed (sampleInputs samples overload m) = fixed m := by
  simp [sampleInputs]

@[simp] theorem fixed_fieldFault (m : Mach) : fixed (fieldFault m) = fixed m := by simp [fieldFault]
@[simp] theorem fixed_fieldSupplyFault (m : Mach) : fixed (fieldSupplyFault m) = fixed m := by simp [fieldSupplyFault]
@[simp] theorem fixed_fieldSupplyRecovered (m : Mach) : fixed (fieldSupplyRecovered m) = fixed m := by simp [fieldSupplyRecovered]
@[simp] theorem fixed_outputCurrentLimit (n : Nat) (m : Mach) : fixed (outputCurrentLimit n m) = fixed m := by simp [outputCurrentLimit]

@[simp] theorem fixed_doHostSet (v : Word) (m : Mach) : fixed (doHostSet v m) = fixed m := by
  unfold doHostSet
  refine fixed_bar0 _ _ fun _ => ?_
  dsimp only
  (repeat' split) <;> simp

@[simp] theorem fixed_markReady (m : Mach) : fixed (markReady m) = fixed m := by simp [markReady]

@[simp] theorem fixed_unloadDone (m : Mach) : fixed (unloadDone m) = fixed m := by
  unfold unloadDone
  split <;> simp

@[simp] theorem fixed_unpark (m : Mach) : fixed (unpark m) = fixed m := by
  refine fixed_forEach _ _ _ fun _ _ => ?_
  dsimp only
  (repeat' split) <;> simp

@[simp] theorem fixed_resched (m : Mach) : fixed (resched m) = fixed m := by simp [resched]

@[simp] theorem fixed_missWork (m : Mach) (t c : Nat) (batch : Option Nat) : fixed (missWork m t c batch) = fixed m := by
  unfold missWork
  split <;> simp

@[simp] theorem fixed_missBatch (m : Mach) (c : Cmd) : fixed (missBatch m c) = fixed m := by simp [missBatch]
@[simp] theorem fixed_detect (m : Mach) (t c source run : Nat) : fixed (detect m t c source run) = fixed m := by simp [detect]
@[simp] theorem fixed_readRepeated (m : Mach) (t c source : Nat) : fixed (readRepeated m t c source) = fixed m := by simp [readRepeated]

@[simp] theorem fixed_takeDesc (m : Mach) (c : Cmd) (dupTag : Bool) : fixed (takeDesc m c dupTag) = fixed m := by
  unfold takeDesc
  dsimp only
  (repeat' split) <;> simp

@[simp] theorem fixed_restartBatch (m : Mach) (c lt : Nat) (no : Nat) : fixed (restartBatch m c lt no) = fixed m := by simp [restartBatch]

@[simp] theorem fixed_rerunStep (m : Mach) (c : Cmd) (p : Program) (lt s no : Nat) (st : SchedStep) (seq runs : Nat) :
    fixed (rerunStep m c p lt s no st seq runs) = fixed m := by
  simp [rerunStep]

@[simp] theorem fixed_applyInject (m : Mach) (c : Cmd) : fixed ((applyInject m c).1) = fixed m := by
  unfold applyInject
  dsimp only
  (repeat' split) <;> simp

@[simp] theorem fixed_noteTrace (m : Mach) (c : Cmd) : fixed (noteTrace m c) = fixed m := by simp [noteTrace]

@[simp] theorem fixed_startRun (m : Mach) (c : Cmd) : fixed (startRun m c) = fixed m := by
  unfold startRun
  extract_lets d denied e binA binD reason dim r hs hbm cyc dst c'
  have h1 : fixed denied = fixed m := by simp [denied]
  have h2 : fixed dim = fixed m := by simp [dim]
  split
  · simp
  · split
    · exact h1
    · split
      · simp
      · split
        · exact h2
        · split
          · exact h1
          · split
            · exact h2
            · split
              · exact h1
              · split
                · simp
                · split
                  · simp
                  · next ls _ =>
                    extract_lets m1 m2
                    have h3 : fixed m1 = fixed m := (fixed_fillLines _ _ _).trans rfl
                    have h4 : fixed m2 = fixed m1 := by
                      simp only [m2]
                      split <;> simp
                    simp [h4, h3]

@[simp] theorem fixed_retirePage (m : Mach) (c p : Nat) : fixed ((retirePage m c p).1) = fixed m := by
  unfold retirePage
  split <;> simp

@[simp] theorem fixed_resumeRun (m : Mach) (c : Cmd) : fixed (resumeRun m c) = fixed m := by simp [resumeRun]
@[simp] theorem fixed_doorbell (m : Mach) (off size : Nat) (v : BitVec 64) : fixed (doorbell m off size v) = fixed m := by simp [doorbell]
@[simp] theorem fixed_readSlot (m : Mach) (q : Nat) : fixed (readSlot m q) = fixed m := by simp [readSlot]

@[simp] theorem fixed_fetchDesc (m : Mach) (q : Nat) (d : BitVec 512) : fixed (fetchDesc m q d) = fixed m := by
  unfold fetchDesc
  dsimp only
  (repeat' split) <;> simp

@[simp] theorem fixed_ringFail (m : Mach) (q : Nat) : fixed (ringFail m q) = fixed m := by simp [ringFail]

@[simp] theorem fixed_inject (m : Mach) (t kind : Nat) (f : Inject → Inject) : fixed (inject m t kind f) = fixed m := by
  unfold inject
  refine fixed_bar0 _ _ fun m => ?_
  split <;> simp [deny]

@[simp] theorem fixed_recordWord (m : Mach) : fixed ((recordWord m).1) = fixed m := by simp [recordWord]

@[simp] theorem fixed_copyBatch (m : Mach) (c : Nat) (p : Program) (lt t r : Nat) (b : Batch) : fixed (copyBatch m c p lt t r b) = fixed m := by
  simp [copyBatch]

@[simp] theorem fixed_balance (m : Mach) (c lt : Nat) : fixed (balance m c lt) = fixed m := by
  unfold balance
  dsimp only
  (repeat' split) <;> simp

@[simp] theorem fixed_voidSlots (m : Mach) (c no : Nat) (bad : BitVec 64) : fixed (voidSlots m c no bad) = fixed m := by simp [voidSlots]

@[simp] theorem fixed_issueStep (m : Mach) (c lt sn r : Nat) (bad : BitVec 64) : fixed (issueStep m c lt sn r bad) = fixed m := by
  unfold issueStep
  dsimp only
  (repeat' split) <;> simp

@[simp] theorem fixed_stepDone (m : Mach) (k : Cmd) : fixed (stepDone m k) = fixed m := by
  unfold stepDone
  dsimp only
  (repeat' split) <;> simp

@[simp] theorem fixed_commit (q seq : Nat) (m : Mach) : fixed (commit q seq m) = fixed m := by
  unfold commit
  split
  · rfl
  · next k _ =>
    split
    · simp [fixed_commitGroup m k sendWrites fun m c => fixed_sendWrites m c]
    · rfl

@[simp] theorem fixed_setMeas (m : Mach) (f : List (Nat × Nat × List Byte) → List (Nat × Nat × List Byte)) : fixed (setMeas m f) = fixed m := by
  simp [setMeas]

@[simp] theorem fixed_putMeas (m : Mach) (ix type : Nat) (v : List Byte) : fixed (putMeas m ix type v) = fixed m := by simp [putMeas]
@[simp] theorem fixed_auditCtxAs (m : Mach) (c : Nat) (st : CtxState) : fixed (auditCtxAs m c st) = fixed m := by simp [auditCtxAs]
@[simp] theorem fixed_auditCtx (m : Mach) (c : Nat) : fixed (auditCtx m c) = fixed m := by simp [auditCtx]
@[simp] theorem fixed_confArrives (m : Mach) : fixed (confArrives m) = fixed m := by simp [confArrives]
@[simp] theorem fixed_confGone (m : Mach) : fixed (confGone m) = fixed m := by simp [confGone]
@[simp] theorem fixed_bindQueues (m : Mach) (c : Nat) (p : Program) : fixed (bindQueues m c p) = fixed m := by simp [bindQueues]
@[simp] theorem fixed_stopProgramQueues (m : Mach) (c : Nat) : fixed (stopProgramQueues m c) = fixed m := by simp [stopProgramQueues]
@[simp] theorem fixed_ctxEnd (m : Mach) (c r : Nat) : fixed (ctxEnd m c r) = fixed m := by simp [ctxEnd]
@[simp] theorem fixed_ctxDenied (m : Mach) (c : Nat) : fixed (ctxDenied m c) = fixed m := by simp [ctxDenied]

@[simp] theorem fixed_ctxCommand (f : Nat → Mach → Mach) (m : Mach) (h : ∀ c m, fixed (f c m) = fixed m) : fixed (ctxCommand f m) = fixed m := by
  unfold ctxCommand
  refine fixed_bar0P _ _ fun m => ?_
  dsimp only
  split <;> simp [h]

@[simp] theorem fixed_placed (m : Mach) (c : Nat) (mp : List Nat) : fixed (placed m c mp) = fixed m := by simp [placed]
@[simp] theorem fixed_newKey (m : Mach) (c : Nat) : fixed (newKey m c) = fixed m := by simp [newKey]

@[simp] theorem fixed_admitCtx (v : Word) (c : Nat) (m : Mach) : fixed (admitCtx v c m) = fixed m := by
  unfold admitCtx
  dsimp only
  (repeat' split) <;> simp

@[simp] theorem fixed_programPlaced (m : Mach) (c : Nat) (p : Program) : fixed (programPlaced m c p) = fixed m := by simp [programPlaced]

@[simp] theorem fixed_load (data : Option LoadData) (c : Nat) (m : Mach) : fixed (load data c m) = fixed m := by
  unfold load
  dsimp only
  (repeat' split) <;> simp

@[simp] theorem fixed_startScrub (m : Mach) (c : Nat) : fixed (startScrub m c) = fixed m := by simp [startScrub]

@[simp] theorem fixed_release (m : Mach) : fixed (release m) = fixed m := by
  unfold release
  refine fixed_bar0 _ _ fun _ => ?_
  dsimp only
  (repeat' split) <;> simp

@[simp] theorem fixed_endScrub (m : Mach) (c : Nat) (bad : List Nat) : fixed (endScrub m c bad) = fixed m := by simp [endScrub]

@[simp] theorem fixed_pushLine (m : Mach) (p : Nat) (t : LTime) (sent : Bool) (mk : Mark) : fixed (pushLine m p t sent mk) = fixed m := by
  simp [pushLine]

@[simp] theorem fixed_pushOutside (fuel : Nat) (m : Mach) (p : Nat) : fixed (pushOutside fuel m p) = fixed m := by
  induction fuel generalizing m with
  | zero => rfl
  | succ n ih =>
    unfold pushOutside
    dsimp only
    split <;> simp [ih]

@[simp] theorem fixed_settleLine (m : Mach) (p : Nat) (ln : Line) (reset : Bool) : fixed ((settleLine m p ln reset).1) = fixed m := by
  simp [settleLine]

@[simp] theorem fixed_settleAll (p : Nat) (reset : Bool) (ls : List Line) (m : Mach) : fixed (settleAll p reset ls m).1 = fixed m := by
  induction ls generalizing m with
  | nil => rfl
  | cons l ls ih =>
    unfold settleAll
    dsimp only
    rw [ih]
    split <;> simp

@[simp] theorem fixed_triggerIssue (p : Nat) (boundary : LTime) (m : Mach) : fixed (triggerIssue p boundary m) = fixed m := by
  unfold triggerIssue
  split
  · rfl
  · extract_lets m1 l
    have h1 : fixed m1 = fixed m := fixed_pushOutside _ _ _
    split
    · exact h1
    · next t _ =>
      extract_lets due issue free m2 want q f start sym m3 m4
      have h2 : fixed m2 = fixed m1 := by
        simp only [m2]
        split <;> simp
      split
      · exact h1
      · split
        · exact h2.trans h1
        · split
          · simp [m3, h2, h1]
          · simp [m4, h2, h1]

@[simp] theorem fixed_takePacket (m : Mach) (p : Nat) (b : List Byte) : fixed (takePacket m p b) = fixed m := by
  unfold takePacket
  dsimp only
  (repeat' split) <;> simp

@[simp] theorem fixed_dropHeaders (m : Mach) (p : Nat) (fs : List (List Byte)) : fixed (dropHeaders m p fs).1 = fixed m := by
  induction fs generalizing m with
  | nil => rfl
  | cons f fs ih =>
    unfold dropHeaders
    split
    · simp
    · simp [ih]

@[simp] theorem fixed_settleFirst (m : Mach) (p k : Nat) : fixed (settleFirst m p k) = fixed m := by simp [settleFirst]
@[simp] theorem fixed_passDeadlines (m : Mach) (p : Nat) : fixed (passDeadlines m p) = fixed m := by simp [passDeadlines]
@[simp] theorem fixed_linePacket (p : Nat) (m : Mach) : fixed (linePacket p m) = fixed m := by simp [linePacket]

@[simp] theorem fixed_lineDeadline (p : Nat) (no : BitVec 32) (m : Mach) : fixed (lineDeadline p no m) = fixed m := by
  unfold lineDeadline
  dsimp only
  split <;> simp

@[simp] theorem fixed_completeLines (fuel : Nat) (m : Mach) (p stop : Nat) : fixed (completeLines fuel m p stop) = fixed m := by
  induction fuel generalizing m with
  | zero => rfl
  | succ n ih =>
    unfold completeLines
    dsimp only
    split
    · rfl
    · rw [ih]
      (repeat' split) <;> simp

@[simp] theorem fixed_closePort (m : Mach) (p : Nat) : fixed (closePort m p) = fixed m := by simp [closePort]
@[simp] theorem fixed_startPort (m : Mach) (p : Nat) : fixed (startPort m p) = fixed m := by simp [startPort]

@[simp] theorem fixed_takeLatency (m : Mach) : fixed (takeLatency m) = fixed m := by
  unfold takeLatency
  rfl

@[simp] theorem fixed_setOrigin (m : Mach) : fixed (setOrigin m) = fixed m := by simp [setOrigin]
@[simp] theorem fixed_alignState (m : Mach) (st fail : Nat) : fixed (alignState m st fail) = fixed m := by simp [alignState]
@[simp] theorem fixed_alignReady (m : Mach) : fixed (alignReady m) = fixed m := by simp [alignReady]
@[simp] theorem fixed_auditOffsets (m : Mach) (ps : List Nat) : fixed (auditOffsets m ps) = fixed m := by simp [auditOffsets]
@[simp] theorem fixed_applyOffsets (m : Mach) (res : Tab PassRes) (g : Nat) : fixed (applyOffsets m res g) = fixed m := by simp [applyOffsets]

@[simp] theorem fixed_tickTaken (t : LTime) (m : Mach) : fixed (tickTaken t m) = fixed m := by
  unfold tickTaken
  dsimp only
  split <;> simp

@[simp] theorem fixed_alignTick (t : LTime) (m : Mach) : fixed (alignTick t m) = fixed m := by simp [alignTick]
@[simp] theorem fixed_setInactive (m : Mach) (s : Tab Word) : fixed (setInactive m s) = fixed m := by simp [setInactive]

@[simp] theorem fixed_probeLine (m : Mach) (p : Nat) (s3 s6 : List (List Int)) : fixed (probeLine m p s3 s6) = fixed m := by
  unfold probeLine
  split <;> simp

@[simp] theorem fixed_ispNext (m : Mach) : fixed (ispNext m) = fixed m := by simp [ispNext]

@[simp] theorem fixed_ispDataWrite (v : Word) (m : Mach) : fixed (ispDataWrite v m) = fixed m := by
  unfold ispDataWrite
  refine fixed_bar0 _ _ fun _ => ?_
  dsimp only
  (repeat' split) <;> simp

@[simp] theorem fixed_ispDataRead (m : Mach) : fixed (ispDataRead m) = fixed m :=
  fixed_barRead _ _ _ fun m => by simp

@[simp] theorem fixed_ispSwap (m : Mach) : fixed (ispSwap m) = fixed m := by
  unfold ispSwap
  refine fixed_bar0 _ _ fun _ => ?_
  dsimp only
  (repeat' split) <;> simp

@[simp] theorem fixed_ispExchange (m : Mach) : fixed (ispExchange m) = fixed m := by simp [ispExchange]

@[simp] theorem fixed_ispChecked (m : Mach) : fixed (ispChecked m) = fixed m := by
  unfold ispChecked
  dsimp only
  (repeat' split) <;> simp

@[simp] theorem fixed_ispBoundary (m : Mach) : fixed (ispBoundary m) = fixed m := by simp [ispBoundary]

@[simp] theorem fixed_probeArm (v : Word) (m : Mach) : fixed (probeArm v m) = fixed m := by
  unfold probeArm
  refine fixed_bar0 _ _ fun _ => ?_
  dsimp only
  (repeat' split) <;> simp

@[simp] theorem fixed_setPair (m : Mach) (k : Nat) (t : Tab Byte) : fixed (setPair m k t) = fixed m := by simp [setPair]
@[simp] theorem fixed_setChaffState (m : Mach) (n : Nat) : fixed (setChaffState m n) = fixed m := by simp [setChaffState]
@[simp] theorem fixed_startFailRefill (m : Mach) : fixed (startFailRefill m) = fixed m := by simp [startFailRefill]
@[simp] theorem fixed_parityFails (m : Mach) (p : Nat) (fails : List (Nat × Nat)) : fixed (parityFails m p fails) = fixed m := by simp [parityFails]

@[simp] theorem fixed_lookupLine (m : Mach) (p : Nat) (chans : List (List Nat)) (parity : List (Nat × Nat)) :
    fixed ((lookupLine m p chans parity).1) = fixed m := by
  unfold lookupLine
  dsimp only
  split <;> simp

@[simp] theorem fixed_processLine (m : Mach) (p : Nat) (ln : Line) (parity : List (Nat × Nat)) : fixed (processLine m p ln parity) = fixed m := by
  simp [processLine]

@[simp] theorem fixed_chaffExchange (m : Mach) : fixed (chaffExchange m) = fixed m := by simp [chaffExchange]
@[simp] theorem fixed_chaffBoundary (m : Mach) : fixed (chaffBoundary m) = fixed m := by simp [chaffBoundary]
@[simp] theorem fixed_swapBoundary (m : Mach) : fixed (swapBoundary m) = fixed m := by simp [swapBoundary]
@[simp] theorem fixed_ispParity (m : Mach) (p n : Nat) : fixed (ispParity m p n) = fixed m := by simp [ispParity]

@[simp] theorem fixed_prepareLine (parity : List (Nat × Nat)) (buf par : Nat) (m : Mach) : fixed (prepareLine parity buf par m) = fixed m := by
  unfold prepareLine
  dsimp only
  (repeat' split) <;> simp

@[simp] theorem fixed_probeCapture (m : Mach) : fixed (probeCapture m) = fixed m := by
  unfold probeCapture
  (repeat' split) <;> simp

@[simp] theorem fixed_shadowLoad (v : Word) (m : Mach) : fixed (shadowLoad v m) = fixed m := by
  unfold shadowLoad
  refine fixed_bar0 _ _ fun _ => ?_
  dsimp only
  (repeat' split) <;> simp

@[simp] theorem fixed_loadDone (data : Option (List Byte)) (m : Mach) : fixed (loadDone data m) = fixed m := by
  unfold loadDone
  split
  · rfl
  · extract_lets m1 a n put
    have h1 : fixed m1 = fixed m := fixed_wr _ _ _ _
    have h2 : ∀ m bs, fixed (put m bs) = fixed m := fun m bs => fixed_setChaff _ _
    split
    · rw [fixed_raise, h2, h1]
    · rw [fixed_raise, h2]
      exact h1

@[simp] theorem fixed_chaffSwap (m : Mach) : fixed (chaffSwap m) = fixed m :=
  fixed_bar0 _ _ fun m => by split <;> simp [deny]

@[simp] theorem fixed_chaffCopied (bad : Option (Fin 4096)) (m : Mach) : fixed (chaffCopied bad m) = fixed m := by
  unfold chaffCopied
  (repeat' split) <;> simp

@[simp] theorem fixed_chaffRefilled (m : Mach) : fixed (chaffRefilled m) = fixed m := by simp [chaffRefilled]

@[simp] theorem fixed_chaffPeek (v : Word) (m : Mach) : fixed (chaffPeek v m) = fixed m := by
  unfold chaffPeek
  refine fixed_bar0 _ _ fun _ => ?_
  dsimp only
  (repeat' split) <;> simp

@[simp] theorem fixed_portObjects (m : Mach) (k used p : Nat) : fixed ((portObjects m k used p).1) = fixed m := by simp [portObjects]

@[simp] theorem fixed_closeObjects (m : Mach) (k : Nat) : fixed (closeObjects m k).1 = fixed m := by
  unfold closeObjects
  simp [fixed_foldl_fst]

@[simp] theorem fixed_endPrepare (m : Mach) (k : Nat) (overrun : Bool) : fixed (endPrepare m k overrun) = fixed m := by simp [endPrepare]
@[simp] theorem fixed_prepareRest (m : Mach) : fixed ((prepareRest m).1) = fixed m := by simp [prepareRest]

@[simp] theorem fixed_ptpIn (m : Mach) (h : PtpHead) (f : Mach → Nat → Mach) (hf : ∀ m x, fixed (f m x) = fixed m) :
    fixed (ptpIn m h f) = fixed m := by
  unfold ptpIn
  split
  · rfl
  · split
    · simp
    · exact fixed_forEach _ _ _ hf

@[simp] theorem fixed_ptpOut (m : Mach) (eth kind : Nat) (d : Nat) : fixed (ptpOut m eth kind d) = fixed m := by simp [ptpOut]
@[simp] theorem fixed_ptpPdelayReq (h : PtpHead) (m : Mach) : fixed (ptpPdelayReq h m) = fixed m := by simp [ptpPdelayReq]
@[simp] theorem fixed_ptpUnsupported (h : PtpHead) (m : Mach) : fixed (ptpUnsupported h m) = fixed m := by simp [ptpUnsupported]
@[simp] theorem fixed_killLc (m : Mach) : fixed (killLc m) = fixed m := by simp [killLc]
@[simp] theorem fixed_endJudge (m : Mach) : fixed (endJudge m) = fixed m := by simp [endJudge]
@[simp] theorem fixed_ejectSwath (m : Mach) : fixed (ejectSwath m) = fixed m := by simp [ejectSwath]
@[simp] theorem fixed_clearPipeline (m : Mach) : fixed (clearPipeline m) = fixed m := by simp [clearPipeline]
@[simp] theorem fixed_stages (m : Mach) : fixed (stages m) = fixed m := by simp [stages]
@[simp] theorem fixed_measureFuses (m : Mach) : fixed (measureFuses m) = fixed m := by simp [measureFuses]
@[simp] theorem fixed_wrs (m : Mach) (i : Nat) (fs : List (Fld × Nat)) : fixed (wrs m i fs) = fixed m := by simp [wrs]
@[simp] theorem fixed_setReason (m : Mach) (r : Nat) (on : Bool) : fixed (setReason m r on) = fixed m := by simp [setReason]
@[simp] theorem fixed_accrue (m : Mach) (r ns : Nat) : fixed (accrue m r ns) = fixed m := by simp [accrue]

@[simp] theorem fixed_accrueDroop (m : Mach) : fixed (accrueDroop m) = fixed m := by
  unfold accrueDroop
  split <;> simp

@[simp] theorem fixed_setClock (m : Mach) (t f : Nat) : fixed (setClock m t f) = fixed m := by simp [setClock]
@[simp] theorem fixed_nominalClocks (m : Mach) : fixed (nominalClocks m) = fixed m := by simp [nominalClocks]
@[simp] theorem fixed_sealProgram (m : Mach) (c : Nat) (p : Program) : fixed (sealProgram m c p) = fixed m := by simp [sealProgram]

theorem fixed_placeImage {m t : Mach} (h : placeImage m = some t) : fixed t = fixed m := by
  unfold placeImage at h
  refine fixed_foldl_some _ (fun t ht => ?_) (fun _ => rfl) (fun m c t hc => ?_) h
  · cases ht
    exact fixed_forEach _ _ _ fun _ _ => by simp
  · dsimp only at hc
    (repeat' split at hc) <;> cases hc <;> simp

@[simp] theorem fixed_firstMeas (m : Mach) : fixed (firstMeas m) = fixed m := by simp [firstMeas]
@[simp] theorem fixed_fusedTillers (m : Mach) : fixed (fusedTillers m) = fixed m := by simp [fusedTillers]
@[simp] theorem fixed_bootStatus (m0 m : Mach) (c : Chosen) : fixed (bootStatus m0 m c) = fixed m := by simp [bootStatus]
@[simp] theorem fixed_loadRegisters (m : Mach) : fixed (loadRegisters m) = fixed m := by simp [loadRegisters]
@[simp] theorem fixed_loadChaff (m : Mach) : fixed (loadChaff m) = fixed m := by simp [loadChaff]
@[simp] theorem fixed_startPorts (m : Mach) : fixed (startPorts m) = fixed m := by simp [startPorts]

@[simp] theorem fixed_programsPlaced (m : Mach) : fixed (programsPlaced m) = fixed m := by
  unfold programsPlaced
  rw [fixed_holdRelease, fixed_placementDone]
  exact fixed_forEach _ _ _ fun _ _ => by (repeat' split) <;> simp

@[simp] theorem fixed_testQuarantined (m : Mach) (quar : List Nat) : fixed (testQuarantined m quar).1 = fixed m :=
  fixed_foldl_fst _ _ _ fun _ _ => by simp

@[simp] theorem fixed_testEvents (m : Mach) (quar bad : List Nat) : fixed (testEvents m quar bad) = fixed m := by simp [testEvents]
@[simp] theorem fixed_configurationRequest (m : Mach) : fixed (configurationRequest m) = fixed m := by simp [configurationRequest]

@[simp] theorem fixed_clearHostCtx (m : Mach) (c : Nat) : fixed (clearHostCtx m c) = fixed m := by simp [clearHostCtx]
@[simp] theorem fixed_clearQueues (m : Mach) : fixed (clearQueues m) = fixed m := by simp [clearQueues]
@[simp] theorem fixed_replaceImage (m : Mach) : fixed (replaceImage m) = fixed m := by simp [replaceImage]
@[simp] theorem fixed_resetTillers (m : Mach) : fixed (resetTillers m) = fixed m := by simp [resetTillers]
@[simp] theorem fixed_warmChaff (m : Mach) : fixed (warmChaff m) = fixed m := by simp [warmChaff]
@[simp] theorem fixed_warmIsp (m : Mach) : fixed (warmIsp m) = fixed m := by simp [warmIsp]
@[simp] theorem fixed_warmLinks (low : Bool) (m : Mach) : fixed (warmLinks low m) = fixed m := by simp [warmLinks]
@[simp] theorem fixed_lightSheaf (m : Mach) (p : Nat) : fixed (lightSheaf m p) = fixed m := by simp [lightSheaf]
@[simp] theorem fixed_resetAwn (m : Mach) (p : Nat) : fixed (resetAwn m p) = fixed m := by simp [resetAwn]
@[simp] theorem fixed_resetTiller (m : Mach) (t : Nat) : fixed (resetTiller m t) = fixed m := by simp [resetTiller]

@[simp] theorem fixed_pushFallen (fuel : Nat) (m : Mach) (p : Nat) : fixed (pushFallen fuel m p) = fixed m := by
  induction fuel generalizing m with
  | zero => rfl
  | succ n ih =>
    unfold pushFallen
    dsimp only
    (repeat' split) <;> simp [ih]

@[simp] theorem fixed_refusePower (code : Nat) (m : Mach) : fixed (refusePower code m) = fixed m := by simp [refusePower]

@[simp] theorem fixed_askDeep (m : Mach) (p : Nat) : fixed (askDeep m p) = fixed m := by
  unfold askDeep
  dsimp only
  (repeat' split) <;> simp

@[simp] theorem fixed_portDeep (m : Mach) (p : Nat) : fixed (portDeep m p) = fixed m := by simp [portDeep]
@[simp] theorem fixed_holdBe (m : Mach) : fixed (holdBe m) = fixed m := by simp [holdBe]
@[simp] theorem fixed_setTrim (m : Mach) (die : Nat) (v : Int) : fixed (setTrim m die v) = fixed m := by simp [setTrim]
@[simp] theorem fixed_freeTrim (m : Mach) (die : Nat) : fixed (freeTrim m die) = fixed m := by simp [freeTrim]
@[simp] theorem fixed_clockSettled (m : Mach) : fixed (clockSettled m) = fixed m := by simp [clockSettled]
@[simp] theorem fixed_tillersOff (m : Mach) : fixed (tillersOff m) = fixed m := by simp [tillersOff]
@[simp] theorem fixed_endSessions (m : Mach) : fixed (endSessions m) = fixed m := by simp [endSessions]
@[simp] theorem fixed_portUp (m : Mach) (p : Nat) : fixed (portUp m p) = fixed m := by simp [portUp]
@[simp] theorem fixed_tillersOn (m : Mach) : fixed (tillersOn m) = fixed m := by simp [tillersOn]
@[simp] theorem fixed_tillerGate (t : Nat) (m : Mach) : fixed (tillerGate t m) = fixed m := by simp [tillerGate]
@[simp] theorem fixed_droop (t : Nat) (m : Mach) : fixed (droop t m) = fixed m := by simp [droop]

@[simp] theorem fixed_switchClock (m : Mach) (t : Nat) : fixed (switchClock m t) = fixed m := by
  unfold switchClock
  split <;> simp

@[simp] theorem fixed_droopRelease (t : Nat) (m : Mach) : fixed (droopRelease t m) = fixed m := by simp [droopRelease]
@[simp] theorem fixed_relockDone (t : Nat) (m : Mach) : fixed (relockDone t m) = fixed m := by simp [relockDone]
@[simp] theorem fixed_setTarget (m : Mach) (t f : Nat) : fixed (setTarget m t f) = fixed m := by simp [setTarget]
@[simp] theorem fixed_trimStep (m : Mach) (die : Nat) (d : Int) : fixed (trimStep m die d) = fixed m := by simp [trimStep]
@[simp] theorem fixed_trimRaise (die : Nat) (m : Mach) : fixed (trimRaise die m) = fixed m := by simp [trimRaise]
@[simp] theorem fixed_trimLower (die : Nat) (m : Mach) : fixed (trimLower die m) = fixed m := by simp [trimLower]
@[simp] theorem fixed_trimSave (m : Mach) : fixed (trimSave m) = fixed m := by simp [trimSave]
@[simp] theorem fixed_thermalWarn (die temp : Nat) (m : Mach) : fixed (thermalWarn die temp m) = fixed m := by simp [thermalWarn]
@[simp] theorem fixed_thermalLimit (temp : Nat) (m : Mach) : fixed (thermalLimit temp m) = fixed m := by simp [thermalLimit]
@[simp] theorem fixed_hbmThermal (stack temp : Nat) (m : Mach) : fixed (hbmThermal stack temp m) = fixed m := by simp [hbmThermal]
@[simp] theorem fixed_coolantHigh (temp : Nat) (m : Mach) : fixed (coolantHigh temp m) = fixed m := by simp [coolantHigh]
@[simp] theorem fixed_noteTemps (v : PowerMeas) (m : Mach) : fixed (noteTemps v m) = fixed m := by simp [noteTemps]
@[simp] theorem fixed_mismatchStep (m : Mach) (e8 m8 : Int) : fixed (mismatchStep m e8 m8) = fixed m := by simp [mismatchStep]
@[simp] theorem fixed_controlPeriod (v : PowerMeas) (m : Mach) : fixed (controlPeriod v m) = fixed m := by simp [controlPeriod]

@[simp] theorem fixed_spdmWith (m : Mach) (f : Mach → Mach) (h : ∀ m, fixed (f m) = fixed m) : fixed (spdmWith m f) = fixed m := by
  unfold spdmWith
  (repeat' split) <;> simp [h]

@[simp] theorem fixed_signed (m : Mach) (code : Nat) (body text : List Byte) : fixed (signed m code body text) = fixed m := by simp [signed]
@[simp] theorem fixed_getCertificate (offset len : Nat) (m : Mach) : fixed (getCertificate offset len m) = fixed m := by simp [getCertificate]
@[simp] theorem fixed_challenge (nonce : List Byte) (m : Mach) : fixed (challenge nonce m) = fixed m := by simp [challenge]

@[simp] theorem fixed_getMeasurements (idx : Nat) (nonce : List Byte) (m : Mach) : fixed (getMeasurements idx nonce m) = fixed m := by
  simp [getMeasurements]

@[simp] theorem fixed_keyExchange (m : Mach) : fixed (keyExchange m) = fixed m := by simp [keyExchange]
@[simp] theorem fixed_finishSession (id : Word) (m : Mach) : fixed (finishSession id m) = fixed m := by simp [finishSession]
@[simp] theorem fixed_endSession (id : Word) (m : Mach) : fixed (endSession id m) = fixed m := by simp [endSession]
@[simp] theorem fixed_dmaErr (m : Mach) : fixed (dmaErr m) = fixed m := by simp [dmaErr]
@[simp] theorem fixed_checkStaged (m : Mach) : fixed (checkStaged m) = fixed m := by simp [checkStaged]

@[simp] theorem fixed_activate (m : Mach) : fixed (activate m) = fixed m := by
  unfold activate
  refine fixed_bar0 _ _ fun _ => ?_
  dsimp only
  (repeat' split) <;> simp

@[simp] theorem fixed_drawNonce (m : Mach) : fixed (drawNonce m) = fixed m := by simp [drawNonce]
@[simp] theorem fixed_nonceRead (m : Mach) : fixed (nonceRead m) = fixed m := fixed_barRead _ _ _ fun _ => by simp
@[simp] theorem fixed_grantLevel (m : Mach) (n : Nat) : fixed (grantLevel m n) = fixed m := by simp [grantLevel]
@[simp] theorem fixed_debugGrant (m : Mach) (b : Auth) : fixed (debugGrant m b) = fixed m := by simp [debugGrant]
@[simp] theorem fixed_grantExpiry (m : Mach) : fixed (grantExpiry m) = fixed m := by simp [grantExpiry]
@[simp] theorem fixed_gleanStart (m : Mach) : fixed (gleanStart m) = fixed m := by simp [gleanStart]

@[simp] theorem fixed_glean (v : Word) (m : Mach) : fixed (glean v m) = fixed m := by
  unfold glean
  refine fixed_bar0 _ _ fun _ => ?_
  dsimp only
  (repeat' split) <;> simp

@[simp] theorem fixed_gleanNext (m : Mach) : fixed (gleanNext m) = fixed m := by simp [gleanNext]
@[simp] theorem fixed_gleanDone (ok : Bool) (m : Mach) : fixed (gleanDone ok m) = fixed m := by simp [gleanDone]
@[simp] theorem fixed_clearRc (m : Mach) (r : RegRow) (a : Nat) : fixed (clearRc m r a) = fixed m := by simp [clearRc]

@[simp] theorem fixed_busRead (a : Nat) (be : BitVec 4) (m : Mach) : fixed (busRead a be m) = fixed m := by
  unfold busRead
  refine fixed_barRead _ _ _ fun m => ?_
  dsimp only
  split
  · rfl
  · split
    · simp
    · split
      · simp
      · split
        · simp
        · split
          · simp
          · split
            · simp
            · split <;> simp

@[simp] theorem fixed_bar2Read (off : Nat) (be : BitVec 4) (m : Mach) : fixed (bar2Read off be m) = fixed m := fixed_barRead _ _ _ fun _ => by simp
@[simp] theorem fixed_hostRead (addr : Nat) (be : BitVec 4) (m : Mach) : fixed (hostRead addr be m) = fixed m := by simp [hostRead]
@[simp] theorem fixed_writeQueueCfg (m : Mach) (v : Nat) : fixed (writeQueueCfg m v) = fixed m := by simp [writeQueueCfg]

@[simp] theorem fixed_storeReg (m : Mach) (r : RegRow) (a : Nat) (v : Word) : fixed (storeReg m r a v) = fixed m := by
  unfold storeReg
  (repeat' split) <;> simp

@[simp] theorem fixed_clearFlags (m : Mach) (r : RegRow) (a : Nat) (v : Word) : fixed (clearFlags m r a v) = fixed m := by simp [clearFlags]
@[simp] theorem fixed_sendPending (m : Mach) (v : Nat) : fixed (sendPending m v) = fixed m := by simp [sendPending]
@[simp] theorem fixed_writeMsix (m : Mach) (a : Nat) (v : Word) : fixed (writeMsix m a v) = fixed m := by simp [writeMsix]

@[simp] theorem fixed_busWrite (a : Nat) (be : BitVec 4) (v : Word) (m : Mach) : fixed (busWrite a be v m) = fixed m := by
  unfold busWrite
  refine fixed_bar0 _ _ fun _ => ?_
  dsimp only
  (repeat' split) <;> simp

@[simp] theorem fixed_backInD0 (m : Mach) : fixed (backInD0 m) = fixed m := by simp [backInD0]
@[simp] theorem fixed_uartLine (m : Mach) : fixed (uartLine m) = fixed m := by simp [uartLine]

end Sys2Proof.Machine

/-!
PROOFS. How the module state changes (R22 to R28, R50, R79, R433, R442), and the statement O18. Most functions that touch what `fixed` holds
keep the state itself; some may stop the module in FAULT; a tick boundary, a reset, the boot and the power entries change it as R23 gives.
-/

namespace Sys2Proof.Machine

@[simp] theorem fixed_setCtl (m : Mach) (f : Ctl → Ctl) : fixed (setCtl m f) = { fixed m with ctl := f (fixed m).ctl } := by cases m; rfl

@[simp] theorem fixed_setTime (m : Mach) (f : TimeBase → TimeBase) :
    fixed (setTime m f) = { fixed m with time := f (fixed m).time } := by cases m; rfl
@[simp] theorem fixed_setFuses (m : Mach) (f : Fuses → Fuses) : fixed (setFuses m f) = { fixed m with fuses := f (fixed m).fuses } := by cases m; rfl
@[simp] theorem fixed_setNor (m : Mach) (f : Nor → Nor) : fixed (setNor m f) = { fixed m with nor := f (fixed m).nor } := by cases m; rfl

@[simp] theorem fixed_setEnc (m : Mach) (ch : Nat) (f : EncCh → EncCh) :
    fixed (setEnc m ch f) = { fixed m with enc := tmod {} (fixed m).enc ch f } := by
  cases m
  rfl

@[simp] theorem ctl_ite (c : Prop) [Decidable c] (a b : Fixed) : (if c then a else b).ctl = if c then a.ctl else b.ctl := apply_ite _ c a b
@[simp] theorem st_ite (c : Prop) [Decidable c] (a b : Ctl) : (if c then a else b).st = if c then a.st else b.st := apply_ite _ c a b

@[simp] theorem st_forEach {α : Type} (xs : List α) (m : Mach) (f : Mach → α → Mach) (h : ∀ m x, (fixed (f m x)).ctl.st = (fixed m).ctl.st) :
    (fixed (forEach xs m f)).ctl.st = (fixed m).ctl.st := by
  unfold forEach
  induction xs generalizing m with
  | nil => rfl
  | cons x xs ih => rw [List.foldl_cons, ih, h]

theorem st_bar0 (m : Mach) (f : Mach → Mach) (h : ∀ m, (fixed (f m)).ctl.st = (fixed m).ctl.st) : (fixed (bar0 m f)).ctl.st = (fixed m).ctl.st := by
  unfold bar0
  split <;> simp [h]

theorem st_bar0P (m : Mach) (f : Mach → Mach) (h : ∀ m, (fixed (f m)).ctl.st = (fixed m).ctl.st) : (fixed (bar0P m f)).ctl.st = (fixed m).ctl.st := by
  unfold bar0P
  exact st_bar0 _ _ fun m => by simp [h]

@[simp] theorem st_masterCheck (m : Mach) (ch : Nat) : (fixed (masterCheck m ch)).ctl.st = (fixed m).ctl.st := by
  unfold masterCheck
  dsimp only
  (repeat' split) <;> simp

@[simp] theorem st_refresh (m : Mach) : (fixed (refresh m)).ctl.st = (fixed m).ctl.st := by simp [refresh]

@[simp] theorem st_countTo (m : Mach) (ch : Nat) (c : BitVec 48) (t : LTime) : (fixed (countTo m ch c t)).ctl.st = (fixed m).ctl.st := by
  simp [countTo]

@[simp] theorem st_afterCount (m : Mach) (ch : Nat) : (fixed (afterCount m ch)).ctl.st = (fixed m).ctl.st := by simp [afterCount]

@[simp] theorem st_encoderEdge (ch : Nat) (a b : Bool) (run : Nat) (m : Mach) : (fixed (encoderEdge ch a b run m)).ctl.st = (fixed m).ctl.st := by
  unfold encoderEdge
  split <;> simp

@[simp] theorem st_latchRef (m : Mach) (ch : Nat) : (fixed (latchRef m ch)).ctl.st = (fixed m).ctl.st := by simp [latchRef]
@[simp] theorem st_index (ch run : Nat) (m : Mach) : (fixed (index ch run m)).ctl.st = (fixed m).ctl.st := by simp [index]

@[simp] theorem st_countOver (m : Mach) (ch : Nat) (c : BitVec 48) (now : LTime) : (fixed (countOver m ch c now)).ctl.st = (fixed m).ctl.st := by
  simp [countOver]

@[simp] theorem st_tooth (ch run : Nat) (m : Mach) : (fixed (tooth ch run m)).ctl.st = (fixed m).ctl.st := by
  unfold tooth
  split <;> simp

@[simp] theorem st_badWord (m : Mach) (ch : Nat) (timeout crc errBit : Bool) :
    (fixed (badWord m ch timeout crc errBit)).ctl.st = (fixed m).ctl.st := by
  simp [badWord]

@[simp] theorem st_ssiReadStart (ch : Nat) (dataHigh : Bool) (m : Mach) : (fixed (ssiReadStart ch dataHigh m)).ctl.st = (fixed m).ctl.st := by
  simp [ssiReadStart]

@[simp] theorem st_ssiWord (ch : Nat) (pos : BitVec 40) (err : Bool) (crc : BitVec 6) (m : Mach) :
    (fixed (ssiWord ch pos err crc m)).ctl.st = (fixed m).ctl.st := by
  unfold ssiWord
  dsimp only
  split <;> simp

@[simp] theorem st_ssiTimeout (ch : Nat) (m : Mach) : (fixed (ssiTimeout ch m)).ctl.st = (fixed m).ctl.st := by
  unfold ssiTimeout
  split <;> simp

@[simp] theorem st_lossOfSignal (ch : Nat) (m : Mach) : (fixed (lossOfSignal ch m)).ctl.st = (fixed m).ctl.st := by simp [lossOfSignal]
@[simp] theorem st_losClear (ch : Nat) (m : Mach) : (fixed (losClear ch m)).ctl.st = (fixed m).ctl.st := by simp [losClear]
@[simp] theorem st_standstill (ch : Nat) (m : Mach) : (fixed (standstill ch m)).ctl.st = (fixed m).ctl.st := by simp [standstill]

@[simp] theorem st_startAlign (m : Mach) (group : Nat) (apply startup : Bool) :
    (fixed (startAlign m group apply startup)).ctl.st = (fixed m).ctl.st := by
  simp [startAlign]

@[simp] theorem st_alignFail (m : Mach) (reason : Nat) : (fixed (alignFail m reason)).ctl.st = (fixed m).ctl.st := by simp [alignFail]
@[simp] theorem st_alignPortLost (m : Mach) (p : Nat) : (fixed (alignPortLost m p)).ctl.st = (fixed m).ctl.st := by simp [alignPortLost]

@[simp] theorem st_alignEnd (m : Mach) : (fixed (alignEnd m)).ctl.st = (fixed m).ctl.st := by
  unfold alignEnd
  split <;> simp

@[simp] theorem st_alignPass (m : Mach) : (fixed (alignPass m)).ctl.st = (fixed m).ctl.st := by simp [alignPass]

theorem st_portOut (p : Nat) (f : Mach → Mach) (m : Mach) (h : (fixed (f m)).ctl.st = (fixed m).ctl.st) :
    (fixed (portOut p f m)).ctl.st = (fixed m).ctl.st := by
  unfold portOut
  dsimp only
  split <;> simp [h]

@[simp] theorem st_setDom (m : Mach) (d : Nat) (f : Domain → Domain) : (fixed (setDom m d f)).ctl.st = (fixed m).ctl.st := by simp [setDom]

@[simp] theorem st_clockTick (m : Mach) : (fixed (clockTick m)).ctl.st = (fixed m).ctl.st := by
  unfold clockTick
  split
  · rfl
  · rw [st_setDom, st_setDom]
    rfl

@[simp] theorem st_stepTime (m : Mach) (d : Int) : (fixed (stepTime m d)).ctl.st = (fixed m).ctl.st := by
  unfold stepTime
  rw [fixed_raise]
  rfl

@[simp] theorem st_switchTo (m : Mach) (d : Nat) : (fixed (switchTo m d)).ctl.st = (fixed m).ctl.st := by simp [switchTo]
@[simp] theorem st_requestCheck (m : Mach) : (fixed (requestCheck m)).ctl.st = (fixed m).ctl.st := by simp [requestCheck]
@[simp] theorem st_leftLocked (m : Mach) (d : Nat) : (fixed (leftLocked m d)).ctl.st = (fixed m).ctl.st := by simp [leftLocked]

@[simp] theorem st_lockCheck (m : Mach) (d : Nat) (e : Int) : (fixed (lockCheck m d e)).ctl.st = (fixed m).ctl.st := by
  unfold lockCheck
  dsimp only
  split <;> simp

@[simp] theorem st_acceptOffset (m : Mach) (d : Nat) (theta : Int) (always : Bool) :
    (fixed ((acceptOffset m d theta always).1)).ctl.st = (fixed m).ctl.st := by
  unfold acceptOffset
  (repeat' split) <;> simp

@[simp] theorem st_servoUpdate (m : Mach) (d : Nat) (theta r : Int) : (fixed (servoUpdate m d theta r)).ctl.st = (fixed m).ctl.st := by
  simp [servoUpdate]

@[simp] theorem st_measure (m : Mach) (d : Nat) (theta : Int) : (fixed (measure m d theta)).ctl.st = (fixed m).ctl.st := by
  simp [measure]
  (repeat' split) <;> simp

@[simp] theorem st_syncDone (m : Mach) (d : Nat) (origin : Int) (rx : LTime) : (fixed (syncDone m d origin rx)).ctl.st = (fixed m).ctl.st := by
  simp [syncDone]

theorem st_ptpIn (m : Mach) (h : PtpHead) (f : Mach → Nat → Mach) (hf : ∀ m x, (fixed (f m x)).ctl.st = (fixed m).ctl.st) :
    (fixed (ptpIn m h f)).ctl.st = (fixed m).ctl.st := by
  unfold ptpIn
  split
  · rfl
  · split
    · simp
    · exact st_forEach _ _ _ hf

@[simp] theorem st_ptpSync (h : PtpHead) (vlan : Option Nat) (corr : Int) (origin : Option LTime) (m : Mach) :
    (fixed (ptpSync h vlan corr origin m)).ctl.st = (fixed m).ctl.st :=
  st_ptpIn _ _ _ fun m d => by
    dsimp only
    (repeat' split) <;> simp

@[simp] theorem st_ptpFollowUp (h : PtpHead) (corr : Int) (origin : LTime) (m : Mach) :
    (fixed (ptpFollowUp h corr origin m)).ctl.st = (fixed m).ctl.st :=
  st_ptpIn _ _ _ fun m d => by split <;> simp

@[simp] theorem st_ptpAnnounce (h : PtpHead) (msg : Announce) (m : Mach) : (fixed (ptpAnnounce h msg m)).ctl.st = (fixed m).ctl.st :=
  st_ptpIn _ _ _ fun m d => by
    dsimp only
    split <;> simp

@[simp] theorem st_sendReq (d : Nat) (p2p : Bool) (m : Mach) : (fixed (sendReq d p2p m)).ctl.st = (fixed m).ctl.st := by simp [sendReq]

@[simp] theorem st_ptpDelayResp (h : PtpHead) (corr : Int) (rx : LTime) (m : Mach) : (fixed (ptpDelayResp h corr rx m)).ctl.st = (fixed m).ctl.st :=
  st_ptpIn _ _ _ fun m d => by split <;> simp

@[simp] theorem st_ptpPdelayResp (h : PtpHead) (corr : Int) (t2 t3 : LTime) (m : Mach) :
    (fixed (ptpPdelayResp h corr t2 t3 m)).ctl.st = (fixed m).ctl.st :=
  st_ptpIn _ _ _ fun m d => by split <;> simp

@[simp] theorem st_loseMaster (m : Mach) (d : Nat) : (fixed (loseMaster m d)).ctl.st = (fixed m).ctl.st := by simp [loseMaster]
@[simp] theorem st_coast (m : Mach) : (fixed (coast m)).ctl.st = (fixed m).ctl.st := by simp [coast]
@[simp] theorem st_masterLost (d : Nat) (m : Mach) : (fixed (masterLost d m)).ctl.st = (fixed m).ctl.st := by simp [masterLost]

@[simp] theorem st_reqDomainWrite (v : Word) (m : Mach) : (fixed (reqDomainWrite v m)).ctl.st = (fixed m).ctl.st := by
  unfold reqDomainWrite
  exact st_bar0 _ _ fun _ => by simp

@[simp] theorem st_revertTimer (m : Mach) : (fixed (revertTimer m)).ctl.st = (fixed m).ctl.st := by simp [revertTimer]
@[simp] theorem st_slewEnd (m : Mach) : (fixed (slewEnd m)).ctl.st = (fixed m).ctl.st := by simp [slewEnd]
@[simp] theorem st_applyTime (m : Mach) : (fixed (applyTime m)).ctl.st = (fixed m).ctl.st := by simp [applyTime]

@[simp] theorem st_noteTick (now : LTime) (m : Mach) : (fixed (noteTick now m)).ctl.st = (fixed m).ctl.st := by
  unfold noteTick
  split <;> simp

@[simp] theorem st_writeBc (m : Mach) (active trial confirmed : Nat) : (fixed (writeBc m active trial confirmed)).ctl.st = (fixed m).ctl.st := by
  simp [writeBc]

@[simp] theorem st_fuseLedger (m : Mach) (kind : Nat) (v : Word) (recovered : Bool) (f : Fuses → Fuses) :
    (fixed (fuseLedger m kind v recovered f)).ctl.st = (fixed m).ctl.st := by
  simp [fuseLedger]

@[simp] theorem st_confirmSlot (m : Mach) : (fixed (confirmSlot m)).ctl.st = (fixed m).ctl.st := by
  unfold confirmSlot
  split <;> simp

@[simp] theorem st_setSlot (m : Mach) (s : Slot) (i : Option Image) : (fixed (setSlot m s i)).ctl.st = (fixed m).ctl.st := by
  unfold setSlot
  split <;> simp

/-- An image in force changes the configuration alone, of what else stays (R73). -/
@[simp] theorem fixed_configure (m : Mach) (i : Image) (bad : List Nat) : fixed (configure m i bad) = { fixed m with cfg := i } := by
  unfold configure
  dsimp only
  rw [fixed_nominalClocks, fixed_forEach _ _ _ fun _ _ => by simp, fixed_setIsp]
  rfl

@[simp] theorem st_wipeReturn (m : Mach) : (fixed (wipeReturn m)).ctl.st = (fixed m).ctl.st := by simp [wipeReturn]
@[simp] theorem st_moveLife (m : Mach) (l : Lifecycle) : (fixed (moveLife m l)).ctl.st = (fixed m).ctl.st := by simp [moveLife]
@[simp] theorem st_retireMove (m : Mach) : (fixed (retireMove m)).ctl.st = (fixed m).ctl.st := by simp [retireMove]

@[simp] theorem st_recoverLedger (m : Mach) : (fixed (recoverLedger m)).ctl.st = (fixed m).ctl.st := by
  unfold recoverLedger
  split <;> simp

@[simp] theorem st_startEncoders (m : Mach) : (fixed (startEncoders m)).ctl.st = (fixed m).ctl.st := by simp [startEncoders]
@[simp] theorem st_startupAlign (m : Mach) : (fixed (startupAlign m)).ctl.st = (fixed m).ctl.st := by simp [startupAlign]
@[simp] theorem st_hotTests (m : Mach) : (fixed (hotTests m)).ctl.st = (fixed m).ctl.st := by simp [hotTests]
@[simp] theorem st_functionReady (m : Mach) : (fixed (functionReady m)).ctl.st = (fixed m).ctl.st := by simp [functionReady]
@[simp] theorem st_perstDeassertion (m : Mach) : (fixed (perstDeassertion m)).ctl.st = (fixed m).ctl.st := by simp [perstDeassertion]
@[simp] theorem st_restartStem (m : Mach) : (fixed (restartStem m)).ctl.st = (fixed m).ctl.st := by simp [restartStem]
@[simp] theorem st_stopStaging (m : Mach) : (fixed (stopStaging m)).ctl.st = (fixed m).ctl.st := by simp [stopStaging]
@[simp] theorem st_reloadDormant (m : Mach) : (fixed (reloadDormant m)).ctl.st = (fixed m).ctl.st := by simp [reloadDormant]

@[simp] theorem st_resumeHold (m : Mach) : (fixed (resumeHold m)).ctl.st = (fixed m).ctl.st := by
  unfold resumeHold
  split <;> simp

@[simp] theorem st_setPhase (m : Mach) (k : ItemKind) (n : Nat) (p : ResetPhase) : (fixed (setPhase m k n p)).ctl.st = (fixed m).ctl.st := by
  simp [setPhase]

@[simp] theorem st_dropItem (m : Mach) (k : ItemKind) (n : Nat) : (fixed (dropItem m k n)).ctl.st = (fixed m).ctl.st := by simp [dropItem]

@[simp] theorem st_resetIntake (m : Mach) (p : Nat) : (fixed (resetIntake m p)).ctl.st = (fixed m).ctl.st := by
  unfold resetIntake
  dsimp only
  split <;> simp

@[simp] theorem st_resetSheaf (m : Mach) (p : Nat) : (fixed (resetSheaf m p)).ctl.st = (fixed m).ctl.st := by simp [resetSheaf]

@[simp] theorem st_itemReturns (m : Mach) (k : ItemKind) (n : Nat) : (fixed (itemReturns m k n)).ctl.st = (fixed m).ctl.st := by
  unfold itemReturns
  split <;> simp

@[simp] theorem st_startTest (m : Mach) (t : Nat) : (fixed (startTest m t)).ctl.st = (fixed m).ctl.st := by simp [startTest]

@[simp] theorem st_partialComplete (k : ItemKind) (n : Nat) (m : Mach) : (fixed (partialComplete k n m)).ctl.st = (fixed m).ctl.st := by
  unfold partialComplete
  (repeat' split) <;> simp

@[simp] theorem st_itemReturnsCmd (k : ItemKind) (n : Nat) (m : Mach) : (fixed (itemReturnsCmd k n m)).ctl.st = (fixed m).ctl.st := by
  simp [itemReturnsCmd]

@[simp] theorem st_finishReturn (m : Mach) : (fixed (finishReturn m)).ctl.st = (fixed m).ctl.st := by simp [finishReturn]

@[simp] theorem st_scrubComplete (c : Nat) (bad : List Nat) (m : Mach) : (fixed (scrubComplete c bad m)).ctl.st = (fixed m).ctl.st := by
  simp [scrubComplete]

@[simp] theorem st_excursionStart (m : Mach) : (fixed (excursionStart m)).ctl.st = (fixed m).ctl.st := by simp [excursionStart]
@[simp] theorem st_supplyDip (m : Mach) : (fixed (supplyDip m)).ctl.st = (fixed m).ctl.st := by simp [supplyDip]
@[simp] theorem st_powerGoodLost (m : Mach) : (fixed (powerGoodLost m)).ctl.st = (fixed m).ctl.st := by simp [powerGoodLost]
@[simp] theorem st_beginDormant (scrub : Bool) (m : Mach) : (fixed (beginDormant scrub m)).ctl.st = (fixed m).ctl.st := by simp [beginDormant]

@[simp] theorem st_tryPower (r : PowerReq) (m : Mach) : (fixed (tryPower r m)).ctl.st = (fixed m).ctl.st := by
  unfold tryPower
  split <;> simp

@[simp] theorem st_powerRequest (r : PowerReq) (m : Mach) : (fixed (powerRequest r m)).ctl.st = (fixed m).ctl.st := by simp [powerRequest]
@[simp] theorem st_takeHeld (m : Mach) : (fixed (takeHeld m)).ctl.st = (fixed m).ctl.st := by simp [takeHeld]

@[simp] theorem st_diSample (samples : List DiSample) (overload : Bool) (m : Mach) :
    (fixed (diSample samples overload m)).ctl.st = (fixed m).ctl.st := by
  simp [diSample]

@[simp] theorem st_ethernetOff (m : Mach) : (fixed (ethernetOff m)).ctl.st = (fixed m).ctl.st := by simp [ethernetOff]
@[simp] theorem st_unconfirm (m : Mach) (s : Slot) : (fixed (unconfirm m s)).ctl.st = (fixed m).ctl.st := by simp [unconfirm]

@[simp] theorem st_stage (v : Word) (image : Option Image) (m : Mach) : (fixed (stage v image m)).ctl.st = (fixed m).ctl.st := by
  unfold stage
  refine st_bar0 _ _ fun _ => ?_
  dsimp only
  (repeat' split) <;> simp

@[simp] theorem st_stageComplete (m : Mach) : (fixed (stageComplete m)).ctl.st = (fixed m).ctl.st := by simp [stageComplete]

@[simp] theorem st_restore (v : Word) (m : Mach) : (fixed (restore v m)).ctl.st = (fixed m).ctl.st := by
  unfold restore
  refine st_bar0 _ _ fun _ => ?_
  dsimp only
  (repeat' split) <;> simp

@[simp] theorem st_restoreComplete (m : Mach) : (fixed (restoreComplete m)).ctl.st = (fixed m).ctl.st := by
  unfold restoreComplete
  split <;> simp

@[simp] theorem st_addOwner (m : Mach) (d : Digest) : (fixed (addOwner m d)).ctl.st = (fixed m).ctl.st := by simp [addOwner]
@[simp] theorem st_takeOwnership (m : Mach) (b : Auth) : (fixed (takeOwnership m b)).ctl.st = (fixed m).ctl.st := by simp [takeOwnership]
@[simp] theorem st_transfer (m : Mach) (b : Auth) : (fixed (transfer m b)).ctl.st = (fixed m).ctl.st := by simp [transfer]

@[simp] theorem st_fuse (m : Mach) (b : Auth) : (fixed (fuse m b)).ctl.st = (fixed m).ctl.st := by
  unfold fuse
  split <;> simp

@[simp] theorem st_pcieClear (m : Mach) : (fixed (pcieClear m)).ctl.st = (fixed m).ctl.st := by
  unfold pcieClear
  split
  · rfl
  · extract_lets m1 m2 m3 m4 m5 m6
    have h1 : fixed m1 = fixed m := fixed_loadDone _ _
    have h2 : fixed m2 = fixed m1 := by
      simp only [m2]
      split <;> simp
    have h5 : fixed m5 = fixed m2 := by simp [m5, m4, m3]
    have h6 : fixed m6 = fixed m5 := rfl
    simp [h6, h5, h2, h1]

@[simp] theorem st_pmChange (d3 : Bool) (m : Mach) : (fixed (pmChange d3 m)).ctl.st = (fixed m).ctl.st := by simp [pmChange]

/-! ### Going to FAULT -/

/-- The module state is as it was, or FAULT. -/
def Steady (m t : Mach) : Prop := t.ctl.st = m.ctl.st ∨ t.ctl.st = .fault

theorem steady_of_st {m t : Mach} (h : (fixed t).ctl.st = (fixed m).ctl.st) : Steady m t := .inl h

theorem steady_of_fixed {m t : Mach} (h : fixed t = fixed m) : Steady m t := steady_of_st (congrArg (fun x => x.ctl.st) h)

theorem Steady.trans {a b c : Mach} (h : Steady a b) (k : Steady b c) : Steady a c := by
  rcases k with k | k
  · rcases h with h | h
    · exact .inl (k.trans h)
    · exact .inr (k.trans h)
  · exact .inr k

theorem Steady.fixed {m t u : Mach} (h : Steady m t) (k : fixed u = fixed t) : Steady m u := h.trans (steady_of_fixed k)

@[simp] theorem st_enter (m : Mach) (n : ModState) : (Machine.fixed (enter m n)).ctl.st = n := enter_ctl_st m n

theorem st_enterFault (m : Mach) (cause : Nat) (h : m.ctl.st ≠ .powering) : (Machine.fixed (enterFault m cause)).ctl.st = .fault := by
  unfold enterFault
  split
  · next hf =>
    simp only [h, decide_false, Bool.or_false, decide_eq_true_eq] at hf
    exact hf
  · simp

theorem steady_enterFault (m : Mach) (cause : Nat) : Steady m (enterFault m cause) := by
  by_cases h : m.ctl.st = .powering
  · exact .inl (by simp [enterFault, h])
  · exact .inr (st_enterFault m cause h)

theorem steady_stopModule (m : Mach) (cause : Nat) : Steady m (stopModule m cause) := by
  unfold stopModule
  extract_lets m1
  have h1 : Machine.fixed m1 = Machine.fixed m := by
    simp only [m1]
    split <;> simp
  exact ((steady_of_fixed h1).trans (steady_enterFault m1 cause)).trans (steady_of_st (by simp))

theorem steady_quarantine (m : Mach) (t cause : Nat) : Steady m (quarantine m t cause) := by
  unfold quarantine
  split
  · exact .inl rfl
  · extract_lets m1 m2 m3 m4 m5
    have h4 : Machine.fixed m4 = Machine.fixed m := by simp [m4, m3, m2, m1]
    have h5 : Steady m4 m5 := steady_of_st (by simp only [m5]; split <;> simp)
    have h := (steady_of_fixed h4).trans h5
    split
    · exact h.trans (steady_stopModule _ _)
    · exact h

theorem steady_rateQuarantine (m : Mach) (t : Nat) : Steady m (rateQuarantine m t) := by
  unfold rateQuarantine
  split
  · exact steady_quarantine _ _ _
  · exact .inl rfl

theorem steady_checkFires (m : Mach) (c : Cmd) (source : Nat) : Steady m (checkFires m c source) := by
  unfold checkFires
  extract_lets run m1 m2 m3 m4 m5 m6
  have h3 : Machine.fixed m3 = Machine.fixed m := by simp [m3, m2, m1]
  have h6 : Steady m3 m6 := by
    simp only [m6]
    split
    · exact steady_quarantine _ _ _
    · split
      · exact steady_of_fixed (by split <;> simp)
      · split
        · exact (steady_of_fixed (fixed_setCmd _ _ _ _)).trans (steady_quarantine _ _ _)
        · refine steady_of_fixed ?_
          rw [fixed_finish]
          simp only [m5, m4]
          split <;> simp
  exact ((steady_of_fixed h3).trans h6).trans (steady_rateQuarantine _ _)

theorem steady_rerunFor (m : Mach) (c : Cmd) (h ofs : Nat) : Steady m (rerunFor m c h ofs) := by
  unfold rerunFor
  extract_lets lt no x again
  have ha : Steady m again := steady_of_fixed (fixed_restartBatch _ _ _ _)
  split
  · exact steady_quarantine _ _ _
  · split
    · exact ha
    · split
      · exact ha
      · split
        · exact ha
        · extract_lets there
          split
          · exact ha
          · exact steady_of_fixed (by simp)

theorem steady_dataBad (m : Mach) (c : Cmd) (source : Nat) (good : Bool) (kind : DataKind) (h ofs : Nat) :
    Steady m (dataBad m c source good kind h ofs) := by
  unfold dataBad
  extract_lets good weights m1 m2 m3 m4 m5 m6 m7
  have h2 : Machine.fixed m2 = Machine.fixed m := by
    simp only [m2, m1]
    split <;> simp
  have h7 : Steady m2 m7 := by
    simp only [m7]
    split
    · exact steady_of_fixed (by simp)
    · split
      · have h3 : Steady m2 m3 := steady_of_fixed (fixed_setCmd _ _ _ _)
        split
        · exact h3
        · split
          · exact h3.trans (steady_rerunFor _ _ _ _)
          · exact steady_of_fixed (by simp)
      · refine steady_of_fixed ?_
        simp only [fixed_finish, fixed_stopRun, m6, m5]
        (repeat' split) <;> simp
  exact ((steady_of_fixed h2).trans h7).trans (steady_rateQuarantine _ _)

theorem steady_meetCheck (m : Mach) (q seq : Nat) (chk : CheckIn) : Steady m (meetCheck m q seq chk) := by
  unfold meetCheck
  split
  · exact .inl rfl
  · split
    · exact .inl rfl
    · split
      · exact .inl rfl
      · exact steady_checkFires _ _ _
      · exact steady_of_fixed (by split <;> simp)
      · split
        · exact steady_dataBad _ _ _ _ _ _ _
        · exact .inl rfl

theorem steady_runOp (op : Nat) (m : Mach) (q seq : Nat) (chk : CheckIn) : Steady m (runOp op m q seq chk) := by
  unfold runOp
  split
  · exact .inl rfl
  · split
    · exact .inl rfl
    · split
      · split
        · extract_lets m1 j
          have h1 : Machine.fixed m1 = Machine.fixed m := fixed_startRun _ _
          have hj : Machine.fixed j.1 = Machine.fixed m1 := by
            simp only [j]
            split
            · split <;> simp
            · rfl
          exact ((steady_of_fixed (hj.trans h1)).trans (steady_meetCheck _ _ _ _)).fixed (fixed_resched _)
        · exact .inl rfl
      · exact (steady_meetCheck _ _ _ _).fixed (fixed_resched _)
      · exact .inl rfl
      · exact .inl rfl

theorem steady_selftestComplete (t : Nat) (pass : Bool) (m : Mach) : Steady m (selftestComplete t pass m) := by
  unfold selftestComplete
  split
  · exact .inl rfl
  · extract_lets x auto m1 m2 m3 m4
    split
    · split
      · exact .inl rfl
      · exact steady_of_st (by simp [m2, m1])
    · have h4 : Steady m m4 := steady_of_st (by simp [m4, m3])
      split
      · exact h4.trans (steady_stopModule _ _)
      · exact h4

theorem steady_thermalQuar (t : Nat) (m : Mach) : Steady m (thermalQuar t m) := by
  unfold thermalQuar
  split
  · exact .inl rfl
  · exact (((steady_of_fixed (by simp)).trans (steady_quarantine _ t 4)).fixed (fixed_resched _)).fixed (fixed_notePower _ _)

theorem steady_supplyFault (m : Mach) : Steady m (supplyFault m) := by
  unfold supplyFault
  split
  · exact (steady_of_st (by simp)).trans (steady_stopModule (setCtl m _) 2)
  · exact .inl rfl

theorem steady_returnStart (m : Mach) : Steady m (returnStart m) := by
  unfold returnStart
  extract_lets m1 cs m2 m3
  have h1 : Steady m m1 := (steady_of_st (st_moveLife m .returned)).trans (steady_stopModule _ _)
  exact h1.trans (steady_of_st (by simp [m3, m2]))

theorem steady_retire (m : Mach) : Steady m (retire m) := by
  unfold retire
  extract_lets m1 cs
  have h1 : Steady m m1 := (steady_of_fixed (fixed_setGlume m _)).trans (steady_stopModule _ _)
  exact h1.trans (steady_of_st (by simp))

theorem steady_authEffect (m : Mach) (b : Auth) : Steady m (authEffect m b) := by
  unfold authEffect
  split
  · exact steady_of_st (by simp)
  · exact steady_of_st (by simp)
  · exact steady_of_fixed (by simp)
  · exact steady_returnStart m
  · exact steady_retire m
  · exact steady_of_st (by simp)

theorem steady_bar0 (m : Mach) (f : Mach → Mach) (h : ∀ m, Steady m (f m)) : Steady m (bar0 m f) := by
  unfold bar0
  split
  · exact h m
  · exact .inl rfl

theorem steady_authorise (block : Option Auth) (m : Mach) : Steady m (authorise block m) := by
  unfold authorise
  refine steady_bar0 _ _ fun m => ?_
  extract_lets r addr m1 m2 m3
  have h3 : Machine.fixed m3 = Machine.fixed m := by
    simp only [m3, m2, m1, fixed_wr]
    split <;> simp
  split
  · split
    · exact ((steady_of_fixed h3).trans (steady_authEffect _ _)).fixed (fixed_raise _ _ _)
    · exact steady_of_fixed (by simp [h3])
  · exact steady_of_fixed (by simp [h3])

/-! ### What a tick boundary brings -/

/-- The changes of state that a tick boundary brings: a loss takes a ticking module to CONFIGURED, and RUNNING and DEGRADED change into each other. -/
def boundaryMay (a b : ModState) : Bool :=
  a == b || match a, b with
    | .machineReady, .configured => true
    | .running, .configured => true
    | .degraded, .configured => true
    | .running, .degraded => true
    | .degraded, .running => true
    | _, _ => false

/-- A change of state that a tick boundary brings. -/
def Boundary (m t : Mach) : Prop := boundaryMay m.ctl.st t.ctl.st = true

theorem boundary_of_st {m t : Mach} (h : (fixed t).ctl.st = (fixed m).ctl.st) : Boundary m t := by
  have h : t.ctl.st = m.ctl.st := h
  simp [Boundary, boundaryMay, h]

theorem boundary_of_fixed {m t : Mach} (h : fixed t = fixed m) : Boundary m t := boundary_of_st (congrArg (fun x => x.ctl.st) h)

theorem boundaryMay_trans {a b c : ModState} (h : boundaryMay a b = true) (k : boundaryMay b c = true) : boundaryMay a c = true := by
  cases b
  case running => cases c <;> simp_all [boundaryMay] <;> cases a <;> simp_all
  case degraded => cases c <;> simp_all [boundaryMay] <;> cases a <;> simp_all
  case machineReady => cases a <;> simp_all [boundaryMay]
  all_goals cases c <;> simp_all [boundaryMay]

theorem boundaryMay_machineReady {a : ModState} (h : boundaryMay a .machineReady = true) : a = .machineReady := by cases a <;> simp_all [boundaryMay]

theorem Boundary.trans {a b c : Mach} (h : Boundary a b) (k : Boundary b c) : Boundary a c := boundaryMay_trans h k

theorem ticking_iff (m : Mach) : ticking m = true ↔ m.ctl.st = .machineReady ∨ m.ctl.st = .running ∨ m.ctl.st = .degraded := by
  simp [ticking, pipelineOn]

theorem pipelineOn_iff (m : Mach) : pipelineOn m = true ↔ m.ctl.st = .running ∨ m.ctl.st = .degraded := by simp [pipelineOn]

theorem st_leavePipeline (m : Mach) : (fixed (leavePipeline m)).ctl.st = .configured := by
  unfold leavePipeline
  simp

/-- A loss takes a ticking module to CONFIGURED (R23, R27). -/
theorem boundary_leavePipeline {m : Mach} (h : ticking m = true) : Boundary m (leavePipeline m) := by
  have h1 : (leavePipeline m).ctl.st = .configured := st_leavePipeline m
  unfold Boundary
  rw [h1]
  rcases (ticking_iff m).mp h with h | h | h <;> rw [h] <;> rfl

theorem boundary_decideState {m : Mach} (h : pipelineOn m = true) : Boundary m (decideState m) := by
  rcases (pipelineOn_iff m).mp h with h | h
  · simp only [decideState, h]
    split
    · simp [Boundary, h, boundaryMay]
    · exact boundary_of_st rfl
  · simp only [decideState, h]
    split
    · simp [Boundary, h, boundaryMay]
    · exact boundary_of_st rfl

theorem boundary_holdExpired (m : Mach) : Boundary m (holdExpired m) := by
  unfold holdExpired
  extract_lets out m1
  split
  · exact boundary_of_st rfl
  · have h1 : (fixed m1).ctl.st = (fixed m).ctl.st := by simp [m1]
    split
    · next ht => exact (boundary_of_st h1).trans (boundary_leavePipeline ht)
    · exact boundary_of_st h1

theorem boundary_masterExpired (m : Mach) : Boundary m (masterExpired m) := by
  unfold masterExpired
  extract_lets m1 e
  have h1 : Boundary m m1 := boundary_of_st (st_refresh m)
  split
  · exact h1
  · next h =>
    simp only [Bool.or_eq_true, Bool.not_eq_true', not_or, Bool.not_eq_false] at h
    have hf : fixed (raise m1 F.ENC_EVENT_LOST (master m1)) = fixed m1 := fixed_raise _ _ _
    have ht : ticking (raise m1 F.ENC_EVENT_LOST (master m1)) = true := by
      rw [ticking_iff] at h ⊢
      simpa using h.1.1.1
    exact h1.trans ((boundary_of_fixed hf).trans (boundary_leavePipeline ht))

/-- A loss of time or of the master that is due leaves the module in CONFIGURED if it ticked (R27). -/
theorem boundary_applyLosses (m : Mach) : Boundary m (applyLosses m) := (boundary_holdExpired m).trans (boundary_masterExpired _)

@[simp] theorem ctl_setPhase_st (m : Mach) (k : ItemKind) (n : Nat) (p : ResetPhase) : (setPhase m k n p).ctl.st = m.ctl.st := rfl

theorem boundary_partialEffect (m : Mach) (k : ItemKind) (n : Nat) : Boundary m (partialEffect m k n) := by
  unfold partialEffect
  extract_lets m0 m1 m2
  have h1 : Boundary m m1 := boundary_of_st (by simp only [m1, fixed_notePower, m0]; cases k <;> simp)
  have h2 : Boundary m m2 := h1.trans (boundary_of_st (by simp [m2]))
  split
  · next hr => exact h2.trans (boundary_decideState ((pipelineOn_iff m2).mpr (.inl hr)))
  · exact h2

theorem boundary_partialTakes (k : ItemKind) (n : Nat) (m : Mach) : Boundary m (partialTakes k n m) := by
  unfold partialTakes
  extract_lets m1
  have h1 : Boundary m m1 := boundary_applyLosses m
  split
  · exact h1.trans ((boundary_partialEffect _ _ _).trans (boundary_of_fixed (fixed_resched _)))
  · exact h1

theorem boundary_placementTakes (m : Mach) : Boundary m (placementTakes m) := by
  unfold placementTakes
  extract_lets m1
  have h1 : Boundary m m1 := boundary_applyLosses m
  split
  · exact h1
  · next p _ =>
    split
    · exact h1
    · extract_lets m2 m3 m4 m5
      have h2 : fixed m2 = fixed m1 := by
        simp only [m2]
        split <;> simp
      have h3 : fixed m3 = fixed m2 := fixed_forEach _ _ _ fun _ _ => by
        dsimp only
        (repeat' split) <;> simp
      have h5 : fixed m5 = fixed m3 := by simp [m5, m4]
      have h := h1.trans (boundary_of_fixed (h5.trans (h3.trans h2)))
      refine (h.trans ?_).trans (boundary_of_fixed (fixed_resched _))
      split
      · next hp => exact boundary_decideState hp
      · exact boundary_of_st rfl

theorem boundary_forEach {α : Type} (xs : List α) (f : Mach → α → Mach) (hf : ∀ m x, Boundary m (f m x)) (m : Mach) :
    Boundary m (forEach xs m f) := by
  unfold forEach
  induction xs generalizing m with
  | nil => exact boundary_of_st rfl
  | cons x xs ih => exact (hf m x).trans (ih _)

theorem boundary_boundaryFirst (m : Mach) : Boundary m (boundaryFirst m) := by
  unfold boundaryFirst
  extract_lets m1
  have h2 := boundary_forEach (m1.ctl.resets.filter (partialDue m1)) _ (fun m r => boundary_partialTakes r.kind r.item m) m1
  exact ((boundary_applyLosses m).trans h2).trans (boundary_placementTakes _)

theorem boundary_drainStart (m : Mach) : Boundary m (drainStart m) := by
  unfold drainStart
  extract_lets m1
  have h1 : Boundary m m1 := by
    simp only [m1]
    split
    · exact boundary_boundaryFirst m
    · exact boundary_of_st rfl
  split
  · exact h1.trans (boundary_of_st (by simp))
  · exact h1

theorem boundary_drainComplete (m : Mach) : Boundary m (drainComplete m) := by
  unfold drainComplete
  extract_lets m1
  have h1 : Boundary m m1 := by
    simp only [m1]
    split
    · exact boundary_boundaryFirst m
    · exact boundary_of_st rfl
  split
  · exact h1.trans (boundary_of_fixed (by simp))
  · exact h1

/-! ### The changes of R23 -/

/-- The module state is as it was, or changes as R23, R50 and R442 allow. -/
def Moves (m t : Mach) : Prop := t.ctl.st = m.ctl.st ∨ mayChange m.ctl.st t.ctl.st = true

theorem Steady.moves {m t : Mach} (h : Steady m t) : Moves m t := by
  rcases h with h | h
  · exact .inl h
  · refine .inr ?_
    rw [h]
    cases m.ctl.st <;> rfl

theorem moves_of_st {m t : Mach} (h : (fixed t).ctl.st = (fixed m).ctl.st) : Moves m t := .inl h

theorem moves_of_fixed {m t : Mach} (h : fixed t = fixed m) : Moves m t := (steady_of_fixed h).moves

theorem Boundary.moves {m t : Mach} (h : Boundary m t) : Moves m t := by
  unfold Boundary at h
  unfold Moves
  generalize m.ctl.st = a at h ⊢
  generalize t.ctl.st = b at h ⊢
  cases a <;> cases b <;> simp_all [boundaryMay, mayChange]

/-- What keeps the state may follow a change. -/
theorem Moves.st {m t u : Mach} (h : Moves m t) (k : (fixed u).ctl.st = (fixed t).ctl.st) : Moves m u := by
  have k : u.ctl.st = t.ctl.st := k
  unfold Moves
  rw [k]
  exact h

/-- What keeps the state may come before a change. -/
theorem moves_after {m t u : Mach} (k : (fixed t).ctl.st = (fixed m).ctl.st) (h : Moves t u) : Moves m u := by
  have k : t.ctl.st = m.ctl.st := k
  unfold Moves
  rw [← k]
  exact h

/-- Every state but POWERING may change to CONFIGURED, and POWERING at the boot (R23). -/
theorem moves_configured {m t : Mach} (h : (fixed t).ctl.st = .configured) : Moves m t := by
  have h : t.ctl.st = .configured := h
  unfold Moves
  rw [h]
  cases m.ctl.st <;> simp [mayChange]

theorem moves_fault {m t : Mach} (h : (fixed t).ctl.st = .fault) : Moves m t := Steady.moves (.inr h)

theorem moves_powering {m t : Mach} (h : (fixed t).ctl.st = .powering) : Moves m t := by
  have h : t.ctl.st = .powering := h
  unfold Moves
  rw [h]
  cases m.ctl.st <;> simp [mayChange]

theorem moves_bar0 (m : Mach) (f : Mach → Mach) (h : Moves m (f m)) : Moves m (bar0 m f) := by
  unfold bar0
  split
  · exact h
  · exact .inl rfl

/-! ### Ticks, MACHINE_READY and alignment -/

theorem st_stages (m : Mach) : (fixed (stages m)).ctl.st = (fixed m).ctl.st := by rw [fixed_stages]

theorem moves_decideState {m : Mach} (h : ticking m = true) : Moves m (decideState m) := by
  rcases (ticking_iff m).mp h with hs | hs
  · simp only [decideState, hs]
    split
    · simp [Moves, hs, mayChange]
    · simp [Moves, hs, mayChange]
  · exact (boundary_decideState ((pipelineOn_iff m).mpr hs)).moves

theorem boundary_refresh (m : Mach) : Boundary m (refresh m) := boundary_of_st (st_refresh m)

theorem moves_swathTick (m : Mach) : Moves m (swathTick m) := by
  unfold swathTick
  extract_lets m1
  have h1 : Boundary m m1 := (boundary_applyLosses m).trans (boundary_refresh _)
  split
  · split
    · exact (h1.trans (boundary_of_fixed (fixed_alignReady _))).moves
    · exact h1.moves
  · next due _ =>
    split
    · split
      · exact (h1.trans (boundary_of_fixed (fixed_alignReady _))).moves
      · split
        · exact (h1.trans (boundary_of_fixed (fixed_alignTick _ _))).moves
        · exact h1.moves
    · split
      · exact h1.moves
      · next hn =>
        extract_lets m2 m3
        have h3 : (fixed m3).ctl.st = (fixed m1).ctl.st := by simp [m3, m2]
        simp only [Bool.or_eq_true, Bool.not_eq_true', not_or, Bool.not_eq_false] at hn
        clear_value m3
        clear m2
        clear_value m1
        have hs : m3.ctl.st = m1.ctl.st := h3
        refine Moves.st (t := decideState m3) ?_ (by rw [fixed_resched])
        rcases (ticking_iff m1).mp hn.1 with hr | hp
        · -- no boundary change ends in MACHINE_READY
          have h0 : m.ctl.st = .machineReady := boundaryMay_machineReady (hr ▸ h1)
          exact moves_after (h3.trans (hr.trans h0.symm)) (moves_decideState ((ticking_iff m3).mpr (.inl (hs.trans hr))))
        · exact ((h1.trans (boundary_of_st h3)).trans (boundary_decideState ((pipelineOn_iff m3).mpr (by rwa [hs])))).moves

theorem readyConditions_configured {m : Mach} (h : readyConditions m = true) : m.ctl.st = .configured := by
  simp only [readyConditions, Bool.and_eq_true, beq_iff_eq] at h
  exact h.1.1.1.1.1.1.1

theorem st_machineReady {m : Mach} (h : readyConditions m = true) : (fixed (machineReady m)).ctl.st = .machineReady := by
  unfold machineReady
  rw [if_neg (by simp [h])]
  simp

theorem moves_machineReady (m : Mach) : Moves m (machineReady m) := by
  cases h : readyConditions m
  · exact .inl (by simp [machineReady, h])
  · have ht : (machineReady m).ctl.st = .machineReady := st_machineReady h
    refine .inr ?_
    rw [ht, readyConditions_configured h]
    rfl

theorem moves_alignmentStart (v : Word) (m : Mach) : Moves m (alignmentStart v m) := by
  unfold alignmentStart
  refine moves_bar0 _ _ ?_
  extract_lets start dorm group apply m1
  split
  · exact .inl rfl
  · have h1 : (fixed m1).ctl.st = (fixed m).ctl.st := by
      simp only [m1]
      split <;> simp
    split
    · exact moves_of_st h1
    · refine moves_after h1 ?_
      split
      · exact moves_of_st (st_startAlign _ _ _ _)
      · exact moves_configured ((st_startAlign _ _ _ _).trans (st_leavePipeline m1))
      all_goals exact moves_of_st (by simp)

theorem boundary_realign (m : Mach) : Boundary m (realign m) := by
  unfold realign
  extract_lets m1 a
  have h1 : Boundary m m1 := boundary_applyLosses m
  split
  · next h =>
    simp only [Bool.and_eq_true] at h
    have ht : ticking m1 = true := (ticking_iff m1).mpr (.inr ((pipelineOn_iff m1).mp h.1.1))
    exact (h1.trans (boundary_leavePipeline ht)).trans (boundary_of_st (st_startAlign _ _ _ _))
  · exact h1

theorem moves_partialRequest (k : ItemKind) (key : BitVec 8) (n : Nat) (m : Mach) : Moves m (partialRequest k key n m) := by
  unfold partialRequest
  refine moves_bar0 _ _ ?_
  extract_lets top off r m1
  split
  · exact .inl rfl
  · split
    · exact moves_of_fixed (fixed_inc _ _ _)
    · have h1 : Boundary m m1 := boundary_of_st (by simp [m1])
      split
      · exact (h1.trans (boundary_partialEffect _ _ _)).moves
      · exact h1.moves

/-! ### STANDBY, DORMANT and the wake -/

theorem boundaryMay_standby {a b : ModState} (h : boundaryMay a b = true) (hb : b = .configured ∨ b = .machineReady ∨ b = .running ∨ b = .degraded) :
    mayChange a .standby = true := by rcases hb with rfl | rfl | rfl | rfl <;> cases a <;> simp_all [boundaryMay, mayChange]

theorem moves_standbyEntry (m : Mach) : Moves m (standbyEntry m) := by
  unfold standbyEntry
  extract_lets m1 ready m0 m2 m3 m4 m5 m6
  have h1 : Boundary m m1 := by
    simp only [m1]
    split
    · exact boundary_boundaryFirst m
    · exact boundary_of_st rfl
  split
  · exact h1.moves
  · next hn =>
    have hs : (fixed m6).ctl.st = .standby := by simp [m6, m5, m4]
    have hw : m1.ctl.st = .configured ∨ m1.ctl.st = .machineReady ∨ m1.ctl.st = .running ∨ m1.ctl.st = .degraded := by
      have hr : ready = true := by
        cases hr : ready
        · simp [hr] at hn
        · rfl
      simp only [ready, Bool.or_eq_true, decide_eq_true_eq, Bool.and_eq_true] at hr
      exact hr.imp_right fun h => (ticking_iff m1).mp h.1.1
    clear_value m6
    have h6 : Moves m m6 := by
      have hs : m6.ctl.st = .standby := hs
      exact .inr (hs ▸ boundaryMay_standby h1 hw)
    split
    · extract_lets m7
      split
      · exact h6.st (by simp [m7])
      · exact h6.st (by simp [m7])
    · exact h6.st (by simp)

theorem moves_dormantEntry (m : Mach) : Moves m (dormantEntry m) := by
  unfold dormantEntry
  split
  · split
    · exact .inl rfl
    · next h =>
      split
      · exact moves_of_fixed (by simp)
      · extract_lets m0 host m1 m2 m3 empty m4 m5 m6 m7 m8 m9 m10
        have h10 : (fixed m10).ctl.st = .dormant := by simp [m10]
        have hs : m.ctl.st = .standby := by
          simp only [ne_eq, Bool.or_eq_true, decide_eq_true_eq, not_or, not_not] at h
          exact h.1.1
        clear_value m10
        have h10 : m10.ctl.st = .dormant := h10
        have hm : Moves m m10 := .inr (by rw [hs, h10]; rfl)
        exact hm.st (by simp)
  · exact .inl rfl

theorem moves_wakeComplete (m : Mach) : Moves m (wakeComplete m) := by
  unfold wakeComplete
  split
  · exact .inl rfl
  · extract_lets m0 dorm m1 m2 m3 m4
    have h3 : (fixed m3).ctl.st = .configured := by simp [m3]
    have h4 : (fixed m4).ctl.st = (fixed m3).ctl.st := by
      simp only [m4, fixed_raise, fixed_notePower]
      split <;> simp
    clear_value m4
    clear_value m3
    have h : (fixed (takeHeld (resched m4))).ctl.st = .configured := by simp [h4, h3]
    exact moves_configured h

/-! ### Resets and the boot -/

theorem st_warmStop (m : Mach) : (fixed (warmStop m)).ctl.st = .configured := by
  unfold warmStop
  extract_lets m1 m2 m3
  have h2 : (fixed m2).ctl.st = .configured := by
    simp only [m2]
    split
    · exact st_leavePipeline _
    · exact st_enter _ _
  simp [m3, h2]

/-- A warm reset ends in CONFIGURED (R23, R79). -/
theorem st_warmReset (cause : Nat) (m : Mach) : (fixed (warmReset cause m)).ctl.st = .configured := by
  unfold warmReset
  extract_lets m0 quar dorm low m1 m2 m3 m4 m5 m6 up m7 m8 host conf m9 m10
  have h2 : (fixed m2).ctl.st = .configured := by simp [m2, m1, st_warmStop]
  have h6 : (fixed m6).ctl.st = .configured := by simp [m6, m5, m4, m3, h2]
  clear_value m6
  split
  · simp [m7, h6]
  · have h10 : (fixed m10).ctl.st = .configured := by simp [m10, m9, m8, h6]
    clear_value m10
    simp only [fixed_notePower]
    split <;> simp [h10]

theorem moves_warmResetReq (key : BitVec 8) (m : Mach) : Moves m (warmResetReq key m) := by
  unfold warmResetReq
  refine moves_bar0 _ _ ?_
  split
  · exact .inl rfl
  · split
    · exact moves_of_fixed (fixed_emit _ _)
    · split
      · exact moves_of_fixed (fixed_inc _ _ _)
      · exact moves_configured (st_warmReset 5 m)

@[simp] theorem st_wiped (m : Mach) (on : Bool) (keep : List Nat) : (fixed (wiped m on keep)).ctl.st = (fixed m).ctl.st := by
  unfold wiped
  rw [fixed_wrs]
  rfl

theorem st_bootStart (m : Mach) : (fixed (bootStart m)).ctl.st = .booting := by
  unfold bootStart
  extract_lets m1 m2 m3 r m4 m5 m6 trim m7 m8
  have h1 : (fixed m1).ctl.st = .booting := st_enter _ _
  have h2 : (fixed m2).ctl.st = (fixed m1).ctl.st := by
    simp only [m2, st_retireMove]
    split <;> simp
  have h8 : (fixed m8).ctl.st = (fixed m2).ctl.st := by
    simp only [m8]
    split <;> simp [m7, m6, m5, m4, r, m3]
  clear_value m8
  simp [h8, h2, h1]

theorem st_trySlot (m : Mach) (s : Slot) (bad : List Nat) : (fixed (trySlot m s bad).2).ctl.st = (fixed m).ctl.st := by
  unfold trySlot
  split
  · rfl
  · extract_lets code cfg m1
    split
    · rfl
    · have h1 : (fixed m1).ctl.st = (fixed m).ctl.st := rfl
      unfold lateCheck
      split
      · exact h1
      · extract_lets m2
        split
        · exact h1
        · split
          · exact h1
          · next m3 h3 => simp [fixed_placeImage h3, m2, h1]

theorem st_choose (m : Mach) (bad : List Nat) : (fixed (choose m bad).mach).ctl.st = (fixed m).ctl.st := by
  unfold choose
  extract_lets b act spent m1 r o
  split
  · rfl
  · have h1 : (fixed m1).ctl.st = (fixed m).ctl.st := by
      simp only [m1]
      split <;> simp
    have hr : (fixed r.2).ctl.st = (fixed m).ctl.st := by
      simp only [r]
      split
      · exact h1
      · exact (st_trySlot _ _ _).trans h1
    have ho : (fixed o.2).ctl.st = (fixed m).ctl.st := (st_trySlot _ _ _).trans hr
    split
    · exact hr
    · split <;> exact ho

theorem st_applyImage (m : Mach) : (fixed (applyImage m)).ctl.st = .configured := by simp [applyImage]

/-- The machine once the boot has begun and tested the Tillers that were quarantined, with those that failed. -/
def bootTested (m : Mach) (quar : List Nat) : Mach × List Nat := testQuarantined (bootStart m) quar

/-- The slot that the boot chooses. -/
def bootChosen (m : Mach) (quar : List Nat) : Chosen := choose (bootTested m quar).1 (bootTested m quar).2

/-- The machine once its slot is chosen: GEN_BOOT_STATUS shows it, the encoders start. -/
def bootShown (m : Mach) (quar : List Nat) : Mach := startEncoders (bootStatus (bootStart m) (bootChosen m quar).mach (bootChosen m quar))

/-- The boot's audit entry. -/
def bootAudited (m : Mach) : Mach := audit m 0x0001 0 (leBytes 4 (word m 0 0x30).toNat ++ leBytes 4 (word m 0 0x34).toNat)

/-- The machine once the image of the chosen slot is applied. -/
def bootApplied (m : Mach) (quar : List Nat) (s : Slot) : Mach :=
  hotTests (testEvents (applyImage (bootAudited (firstMeas (setCtl (bootShown m quar) (fun x => { x with runSlot := some s }))))) quar (bootTested m quar).2)

theorem boot_none {m : Mach} {quar : List Nat} (h : (bootChosen m quar).slot = none) :
    boot m quar = enterFault (bootAudited (firstMeas (bootShown m quar))) 1 := by
  unfold bootChosen bootTested at h
  unfold boot
  simp only [h]
  rfl

theorem boot_some {m : Mach} {quar : List Nat} {s : Slot} (h : (bootChosen m quar).slot = some s) :
    boot m quar = if (List.range 8).all (tilLost (bootApplied m quar s)) then stopModule (bootApplied m quar s) 4
      else startupAlign (bootApplied m quar s) := by
  unfold bootChosen bootTested at h
  unfold boot
  simp only [h]
  rfl

theorem st_bootShown (m : Mach) (quar : List Nat) : (fixed (bootShown m quar)).ctl.st = .booting := by
  simp [bootShown, bootChosen, bootTested, st_choose, st_bootStart]

theorem st_bootApplied (m : Mach) (quar : List Nat) (s : Slot) : (fixed (bootApplied m quar s)).ctl.st = .configured := by
  simp [bootApplied, st_applyImage]

/-- The boot ends in CONFIGURED or in FAULT (R73; assumption 8). -/
theorem st_boot (m : Mach) (quar : List Nat) : (fixed (boot m quar)).ctl.st = .configured ∨ (fixed (boot m quar)).ctl.st = .fault := by
  cases h : (bootChosen m quar).slot with
  | none =>
    have hb : (fixed (bootAudited (firstMeas (bootShown m quar)))).ctl.st = .booting := by simp [bootAudited, st_bootShown]
    rw [boot_none h]
    exact .inr (st_enterFault _ _ (by rw [show Mach.ctl _ = (fixed _).ctl from rfl, hb]; decide))
  | some s =>
    have hc := st_bootApplied m quar s
    rw [boot_some h]
    split
    · exact (steady_stopModule _ _).imp (fun h => h.trans hc) id
    · exact .inl ((st_startupAlign _).trans hc)

theorem moves_boot {m t : Mach} (h : ∃ n quar, t = boot n quar) : Moves m t := by
  obtain ⟨n, quar, rfl⟩ := h
  exact (st_boot n quar).elim moves_configured moves_fault

theorem moves_powerGood (m : Mach) : Moves m (powerGood m) := by
  unfold powerGood
  split
  · exact .inl rfl
  · exact moves_boot ⟨_, _, rfl⟩

theorem moduleReset_cases (cause : Nat) (m : Mach) :
    moduleReset cause m = m ∨ (fixed (moduleReset cause m)).ctl.st = .configured ∨ (fixed (moduleReset cause m)).ctl.st = .fault := by
  unfold moduleReset
  split
  · exact .inl rfl
  · exact .inr (st_boot _ _)

theorem moves_moduleReset (cause : Nat) (m : Mach) : Moves m (moduleReset cause m) := by
  rcases moduleReset_cases cause m with h | h | h
  · exact .inl (by rw [h])
  · exact moves_configured h
  · exact moves_fault h

theorem moves_moduleResetReq (key : BitVec 8) (m : Mach) : Moves m (moduleResetReq key m) := by
  unfold moduleResetReq
  refine moves_bar0 _ _ ?_
  split
  · exact .inl rfl
  · split
    · exact moves_moduleReset _ _
    · exact moves_of_fixed (fixed_emit _ _)

theorem moves_watchdog (m : Mach) : Moves m (watchdog m) := by
  unfold watchdog
  extract_lets runs again
  split
  · exact .inl rfl
  · split
    · exact moves_moduleReset _ _
    · exact moves_configured (st_warmReset _ _)

theorem moves_glumeIntegrity (m : Mach) : Moves m (glumeIntegrity m) := by
  unfold glumeIntegrity
  split
  · rcases moduleReset_cases 2 (stopModule m 3) with h | h | h
    · rw [h]
      exact (steady_stopModule m 3).moves
    · exact moves_configured h
    · exact moves_fault h
  · exact .inl rfl

theorem moves_debugHeaderReset (m : Mach) : Moves m (debugHeaderReset m) := by
  unfold debugHeaderReset
  split
  · exact moves_moduleReset _ _
  · exact .inl rfl

theorem st_powerDown (m : Mach) : (fixed (powerDown m)).ctl.st = .powering := by
  unfold powerDown
  simp

theorem moves_holdupExpiry (m : Mach) : Moves m (holdupExpiry m) := by
  unfold holdupExpiry
  split
  · exact moves_powering (st_powerDown _)
  · exact .inl rfl

theorem moves_thermalTrip (m : Mach) : Moves m (thermalTrip m) := by
  unfold thermalTrip
  split
  · exact moves_powering (st_powerDown (flashClose m))
  · exact .inl rfl

theorem run_moves {s t : State} {f : Mach → Mach} (h : s.run f = .next t) (hf : Moves (fresh s.mach) (f (fresh s.mach))) : Moves s.mach t.mach := by
  rw [run_next] at h
  cases h
  exact moves_after (congrArg (fun x => x.ctl.st) (fixed_fresh _)) (hf.st (by rw [fixed_settle]))

theorem moves_jtag {ir : JtagIr} {s t : State} (h : exec (.jtagInstruction ir) s = .next t) : Moves s.mach t.mach := by
  have hs : ∀ (id : Bool) (u : State), (s.run fun m => if alive m then emit (setHost m (fun h => { h with jtagId := id }))
      (.jtag (if id then Config.jtagIdcode else 0)) else m) = .next u → Moves s.mach u.mach :=
    fun id u hu => run_moves hu (moves_of_fixed (by split <;> simp))
  unfold exec execJtagInstruction at h
  cases ir with
  | idcode => exact hs _ _ h
  | bypass => exact hs _ _ h
  | other n =>
    dsimp only at h
    split at h
    · cases h
    · exact hs _ _ h

theorem exec_moves {c : Instr} {s t : State} (h : exec c s = .next t) : Moves s.mach t.mach := by
  cases c with
  | powerGood => exact run_moves h (moves_powerGood _)
  | functionReady => exact run_moves h (moves_of_st (st_functionReady _))
  | configurationRequest => exact run_moves h (moves_of_fixed (fixed_configurationRequest _))
  | machineReadyEntry => exact run_moves h (moves_machineReady _)
  | swathTick => exact run_moves h (moves_swathTick _)
  | supplyExcursionStart => exact run_moves h (moves_of_st (st_excursionStart _))
  | supplyDip => exact run_moves h (moves_of_st (st_supplyDip _))
  | supplyFault => exact run_moves h ((steady_supplyFault _).moves)
  | powerGoodLost => exact run_moves h (moves_of_st (st_powerGoodLost _))
  | holdupExpiry => exact run_moves h (moves_holdupExpiry _)
  | moduleReset _ => exact run_moves h (moves_moduleResetReq _ _)
  | warmReset _ => exact run_moves h (moves_warmResetReq _ _)
  | tillerPartialReset _ _ => exact run_moves h (moves_partialRequest _ _ _ _)
  | intakePortPartialReset _ _ => exact run_moves h (moves_partialRequest _ _ _ _)
  | sheafPortPartialReset _ _ => exact run_moves h (moves_partialRequest _ _ _ _)
  | awnPortPartialReset _ _ => exact run_moves h (moves_partialRequest _ _ _ _)
  | partialResetTakesEffect _ _ => exact run_moves h ((boundary_partialTakes _ _ _).moves)
  | partialResetComplete _ _ => exact run_moves h (moves_of_st (st_partialComplete _ _ _))
  | itemReturnsToService _ _ => exact run_moves h (moves_of_st (st_itemReturnsCmd _ _ _))
  | stemWatchdogExpiry => exact run_moves h (moves_watchdog _)
  | glumeIntegrityFailure => exact run_moves h (moves_glumeIntegrity _)
  | debugHeaderReset => exact run_moves h (moves_debugHeaderReset _)
  | pcieReset => exact run_moves h (moves_of_st (st_pcieClear _))
  | functionLevelReset =>
    unfold exec execFunctionLevelReset at h
    exact run_moves h (moves_of_st (by split <;> simp))
  | powerManagementStateChange _ => exact run_moves h (moves_of_st (st_pmChange _ _))
  | ptpSync _ _ _ _ => exact run_moves h (moves_of_st (st_ptpSync _ _ _ _ _))
  | ptpFollowUp _ _ _ => exact run_moves h (moves_of_st (st_ptpFollowUp _ _ _ _))
  | ptpAnnounce _ _ => exact run_moves h (moves_of_st (st_ptpAnnounce _ _ _))
  | delayReqTransmit _ => exact run_moves h (moves_of_st (st_sendReq _ _ _))
  | ptpDelayResp _ _ _ => exact run_moves h (moves_of_st (st_ptpDelayResp _ _ _ _))
  | ptpPdelayReq _ => exact run_moves h (moves_of_fixed (fixed_ptpPdelayReq _ _))
  | ptpPdelayResp _ _ _ _ => exact run_moves h (moves_of_st (st_ptpPdelayResp _ _ _ _ _))
  | ptpUnsupportedMessage _ => exact run_moves h (moves_of_fixed (fixed_ptpUnsupported _ _))
  | masterLost _ => exact run_moves h (moves_of_st (st_masterLost _ _))
  | reqDomainWrite _ => exact run_moves h (moves_of_st (st_reqDomainWrite _ _))
  | revertTimer => exact run_moves h (moves_of_st (st_revertTimer _))
  | slewEnd => exact run_moves h (moves_of_st (st_slewEnd _))
  | holdExpired => exact run_moves h ((boundary_holdExpired _).moves)
  | timNowRead => exact run_moves h (moves_of_fixed (fixed_busRead _ _ _))
  | lowRegisterRead _ _ => exact run_moves h (moves_of_fixed (fixed_hostRead _ _ _))
  | rcRegisterRead _ _ => exact run_moves h (moves_of_fixed (fixed_hostRead _ _ _))
  | registerWrite _ _ _ => exact run_moves h (moves_of_fixed (fixed_busWrite _ _ _ _))
  | encoderEdge _ _ _ _ =>
    unfold exec execEncoderEdge at h
    exact run_moves h (moves_of_st (by rw [fixed_alignReady, st_encoderEdge]))
  | index _ _ =>
    unfold exec execIndex at h
    exact run_moves h (moves_of_st (by rw [fixed_alignReady, st_index]))
  | tooth _ _ =>
    unfold exec execTooth at h
    exact run_moves h (moves_of_st (by rw [fixed_alignReady, st_tooth]))
  | ssiReadStart _ _ => exact run_moves h (moves_of_st (st_ssiReadStart _ _ _))
  | ssiWord _ _ _ _ =>
    unfold exec execSsiWord at h
    exact run_moves h (moves_of_st (by rw [fixed_alignReady, st_ssiWord]))
  | ssiTimeout _ => exact run_moves h (moves_of_st (st_ssiTimeout _ _))
  | lossOfSignal _ => exact run_moves h (moves_of_st (st_lossOfSignal _ _))
  | losClear _ =>
    unfold exec execLosClear at h
    exact run_moves h (moves_of_st (by rw [fixed_alignReady, st_losClear]))
  | standstill _ => exact run_moves h (moves_of_st (st_standstill _ _))
  | masterHoldoverExpired => exact run_moves h ((boundary_masterExpired _).moves)
  | triggerIssue _ _ => exact run_moves h (moves_of_fixed (fixed_triggerIssue _ _ _))
  | partnerCkDetected _ => exact run_moves h (moves_of_fixed (fixed_partnerCk _ _))
  | trainingFrame _ _ _ _ => exact run_moves h (moves_of_fixed (fixed_trainingFrame _ _ _ _ _))
  | trainFail _ => exact run_moves h (moves_of_fixed (fixed_trainFail _ _))
  | trainBackoffEnd _ => exact run_moves h (moves_of_fixed (fixed_trainBackoffEnd _ _))
  | fastRetrainTimeout _ => exact run_moves h (moves_of_fixed (fixed_fastTimeout _ _))
  | clkLoss _ => exact run_moves h (moves_of_st (st_portOut _ _ _ (by simp)))
  | deskewErr _ => exact run_moves h (moves_of_st (st_portOut _ _ _ (by simp)))
  | retrain _ => exact run_moves h (moves_of_st (st_portOut _ _ _ (by simp)))
  | lpReqL0 _ => exact run_moves h (moves_of_fixed (fixed_lpWrite _ _ _))
  | lpReqQuiet _ => exact run_moves h (moves_of_fixed (fixed_lpWrite _ _ _))
  | lpReqDeep _ => exact run_moves h (moves_of_fixed (fixed_lpWrite _ _ _))
  | quietIdleTimeout _ => exact run_moves h (moves_of_fixed (fixed_quietIdle _ _))
  | quietExit _ => exact run_moves h (moves_of_fixed (fixed_quietExit _ _))
  | lowPowerEntry _ => exact run_moves h (moves_of_st (st_portOut _ _ _ (by simp)))
  | testWrite _ _ => exact run_moves h (moves_of_st (st_portOut _ _ _ (by simp)))
  | checkerEnable _ _ => exact run_moves h (moves_of_fixed (fixed_checkerEnable _ _ _))
  | injOne _ => exact run_moves h (moves_of_fixed (fixed_injOne _ _))
  | patternWindowEnd _ _ => exact run_moves h (moves_of_fixed (fixed_patternWindowEnd _ _ _))
  | flitReceived _ _ => exact run_moves h (moves_of_st (st_portOut _ _ _ (by simp)))
  | lctl _ _ => exact run_moves h (moves_of_st (st_portOut _ _ _ (by simp)))
  | replayTimeout _ => exact run_moves h (moves_of_st (st_portOut _ _ _ (by simp)))
  | linkDown _ => exact run_moves h (moves_of_fixed (fixed_linkDown _ _))
  | remoteWrite _ => exact run_moves h (moves_of_fixed (fixed_remoteWrite _ _))
  | wrRsp _ => exact run_moves h (moves_of_fixed (fixed_wrRsp _ _))
  | wrTimeout _ _ => exact run_moves h (moves_of_fixed (fixed_wrTimeout _ _ _))
  | windowOpen _ _ _ _ _ _ _ =>
    unfold exec execWindowOpen at h
    exact run_moves h (moves_of_fixed (by split <;> simp))
  | windowClose _ =>
    unfold exec execWindowClose at h
    exact run_moves h (moves_of_fixed (fixed_closeWindow _ _))
  | linePacket _ => exact run_moves h (moves_of_fixed (fixed_linePacket _ _))
  | lineDeadline _ _ => exact run_moves h (moves_of_fixed (fixed_lineDeadline _ _ _))
  | alignmentStart _ => exact run_moves h (moves_alignmentStart _ _)
  | realignTakesEffect => exact run_moves h ((boundary_realign _).moves)
  | alignmentPassComplete => exact run_moves h (moves_of_st (st_alignPass _))
  | alignmentTimeout =>
    unfold exec execAlignmentTimeout at h
    exact run_moves h (moves_of_st (st_alignFail _ _))
  | prepareLine _ _ _ => exact run_moves h (moves_of_fixed (fixed_prepareLine _ _ _ _))
  | ispDataWrite _ => exact run_moves h (moves_of_fixed (fixed_ispDataWrite _ _))
  | ispDataRead => exact run_moves h (moves_of_fixed (fixed_ispDataRead _))
  | ispSwap => exact run_moves h (moves_of_fixed (fixed_ispSwap _))
  | ispSwapCheckComplete => exact run_moves h (moves_of_fixed (fixed_ispChecked _))
  | ispSwapTakesEffect => exact run_moves h (moves_of_fixed (fixed_ispBoundary _))
  | ispCopyComplete =>
    unfold exec execIspCopyComplete at h
    exact run_moves h (moves_of_fixed (by split <;> simp))
  | probeArm _ => exact run_moves h (moves_of_fixed (fixed_probeArm _ _))
  | probeCapture =>
    unfold exec execProbeCapture at h
    exact run_moves h (moves_of_fixed (by split <;> simp))
  | shadowLoad _ => exact run_moves h (moves_of_fixed (fixed_shadowLoad _ _))
  | loadDone _ => exact run_moves h (moves_of_fixed (fixed_loadDone _ _))
  | chaffSwap => exact run_moves h (moves_of_fixed (fixed_chaffSwap _))
  | chaffCopyComplete _ => exact run_moves h (moves_of_fixed (fixed_chaffCopied _ _))
  | chaffSwapTakesEffect => exact run_moves h (moves_of_fixed (fixed_chaffBoundary _))
  | chaffRefillComplete => exact run_moves h (moves_of_fixed (fixed_chaffRefilled _))
  | chaffPeek _ => exact run_moves h (moves_of_fixed (fixed_chaffPeek _ _))
  | doorbell _ _ _ =>
    unfold exec execDoorbell at h
    exact run_moves h (moves_of_fixed (fixed_doorbell _ _ _ _))
  | descriptorFetch _ _ =>
    unfold exec execDescriptorFetch at h
    exact run_moves h (moves_of_fixed (by split <;> simp))
  | stepIssue _ _ _ _ _ =>
    unfold exec execStepIssue at h
    exact run_moves h (moves_of_fixed (fixed_issueStep _ _ _ _ _ _))
  | conv _ _ _ =>
    unfold exec execConv at h
    exact run_moves h ((steady_runOp _ _ _ _ _).moves)
  | gemm _ _ _ =>
    unfold exec execGemm at h
    exact run_moves h ((steady_runOp _ _ _ _ _).moves)
  | pool _ _ _ =>
    unfold exec execPool at h
    exact run_moves h ((steady_runOp _ _ _ _ _).moves)
  | eltw _ _ _ =>
    unfold exec execEltw at h
    exact run_moves h ((steady_runOp _ _ _ _ _).moves)
  | argmax _ _ _ =>
    unfold exec execArgmax at h
    exact run_moves h ((steady_runOp _ _ _ _ _).moves)
  | copy _ _ _ =>
    unfold exec execCopy at h
    exact run_moves h ((steady_runOp _ _ _ _ _).moves)
  | husk _ _ _ =>
    unfold exec execHusk at h
    exact run_moves h ((steady_runOp _ _ _ _ _).moves)
  | unhusk _ _ _ =>
    unfold exec execUnhusk at h
    exact run_moves h ((steady_runOp _ _ _ _ _).moves)
  | resize _ _ _ =>
    unfold exec execResize at h
    exact run_moves h ((steady_runOp _ _ _ _ _).moves)
  | barrier _ _ =>
    unfold exec execBarrier at h
    exact run_moves h (moves_of_fixed (by (repeat' split) <;> simp))
  | commit _ _ => exact run_moves h (moves_of_fixed (fixed_commit _ _ _))
  | commandComplete _ _ =>
    unfold exec execCommandComplete at h
    exact run_moves h (moves_of_fixed (by (repeat' split) <;> simp))
  | refetchComplete _ _ _ =>
    unfold exec execRefetchComplete at h
    exact run_moves h (moves_of_fixed (by dsimp only; (repeat' split) <;> simp))
  | rachisFlitCrcFail _ _ _ _ =>
    unfold exec execRachisFlitCrcFail at h
    refine run_moves h (Steady.moves ?_)
    dsimp only
    split
    · exact .inl rfl
    · split
      · exact steady_of_fixed (fixed_inc _ _ _)
      · split
        · exact (steady_meetCheck _ _ _ _).fixed (fixed_resched _)
        · exact steady_of_fixed (by (repeat' split) <;> simp)
  | replacementLoadsComplete _ =>
    unfold exec execReplacementLoadsComplete at h
    exact run_moves h (moves_of_fixed (by (repeat' split) <;> simp))
  | placementTakesEffect => exact run_moves h ((boundary_placementTakes _).moves)
  | selftestComplete _ _ => exact run_moves h ((steady_selftestComplete _ _ _).moves)
  | injectDisarm _ =>
    unfold exec execInjectDisarm at h
    exact run_moves h (moves_of_fixed (fixed_inject _ _ _ _))
  | injectResidueOnce _ =>
    unfold exec execInjectResidueOnce at h
    exact run_moves h (moves_of_fixed (fixed_inject _ _ _ _))
  | injectResiduePersistent _ =>
    unfold exec execInjectResiduePersistent at h
    exact run_moves h (moves_of_fixed (fixed_inject _ _ _ _))
  | injectGranaryParity _ =>
    unfold exec execInjectGranaryParity at h
    exact run_moves h (moves_of_fixed (fixed_inject _ _ _ _))
  | injectHbmCrc _ =>
    unfold exec execInjectHbmCrc at h
    exact run_moves h (moves_of_fixed (fixed_inject _ _ _ _))
  | queueEnable =>
    unfold exec execQueueEnable at h
    exact run_moves h (moves_of_fixed (fixed_bar0P _ _ fun m => by dsimp only; (repeat' split) <;> simp))
  | queueDisable =>
    unfold exec execQueueDisable at h
    exact run_moves h (moves_of_fixed (fixed_bar0P _ _ fun m => by dsimp only; (repeat' split) <;> simp))
  | crCfgWrite _ =>
    unfold exec execCrCfgWrite at h
    exact run_moves h (moves_of_fixed (fixed_bar0P _ _ fun m => by dsimp only; (repeat' split) <;> simp))
  | crHeadWrite _ =>
    unfold exec execCrHeadWrite at h
    exact run_moves h (moves_of_fixed (fixed_bar0P _ _ fun m => by dsimp only; (repeat' split) <;> simp))
  | coalescingTimer _ =>
    unfold exec execCoalescingTimer at h
    exact run_moves h (moves_of_fixed (by dsimp only; (repeat' split) <;> simp))
  | ringFetchFailure _ =>
    unfold exec execRingFetchFailure at h
    exact run_moves h (moves_of_fixed (fixed_ringFail _ _))
  | completionWriteFailure _ =>
    unfold exec execCompletionWriteFailure at h
    exact run_moves h (moves_of_fixed (by dsimp only; (repeat' split) <;> simp))
  | admitCtx _ =>
    unfold exec execAdmitCtx at h
    exact run_moves h (moves_of_fixed (fixed_ctxCommand _ _ fun c m => fixed_admitCtx _ _ _))
  | load _ =>
    unfold exec execLoad at h
    exact run_moves h (moves_of_fixed (fixed_ctxCommand _ _ fun c m => fixed_load _ _ _))
  | unload =>
    unfold exec execUnload at h
    exact run_moves h (moves_of_fixed (fixed_ctxCommand _ _ fun c m => by dsimp only; split <;> simp))
  | release => exact run_moves h (moves_of_fixed (fixed_release _))
  | setShare _ =>
    unfold exec execSetShare at h
    exact run_moves h (moves_of_fixed (fixed_ctxCommand _ _ fun c m => by dsimp only; (repeat' split) <;> simp))
  | scrubComplete _ _ => exact run_moves h (moves_of_st (st_scrubComplete _ _ _))
  | statisticsWindowEnd =>
    unfold exec execStatisticsWindowEnd at h
    exact run_moves h (moves_of_fixed (by dsimp only; (repeat' split) <;> simp))
  | placementRecordRead =>
    unfold exec execPlacementRecordRead at h
    exact run_moves h (moves_of_fixed (fixed_barRead _ _ _ fun m => by simp))
  | fireSend _ => exact run_moves h (moves_of_fixed (fixed_fireSend _ _))
  | fireDeadline _ => exact run_moves h (moves_of_fixed (fixed_fireDeadline _ _))
  | fireIntervalEnd _ => exact run_moves h (moves_of_fixed (fixed_fireIntervalEnd _ _))
  | directOutputSwitch _ _ => exact run_moves h (moves_of_fixed (fixed_directOutputSwitch _ _ _))
  | beacon => exact run_moves h (moves_of_fixed (fixed_beacon _))
  | awnStatus _ _ _ => exact run_moves h (moves_of_fixed (fixed_awnStatus _ _ _ _))
  | boardLost _ _ => exact run_moves h (moves_of_fixed (fixed_boardLost _ _ _))
  | diSample _ _ => exact run_moves h (moves_of_st (st_diSample _ _ _))
  | fieldSupplyFault => exact run_moves h (moves_of_fixed (fixed_fieldSupplyFault _))
  | fieldSupplyRecovered => exact run_moves h (moves_of_fixed (fixed_fieldSupplyRecovered _))
  | outputCurrentLimit _ => exact run_moves h (moves_of_fixed (fixed_outputCurrentLimit _ _))
  | doHostSet _ => exact run_moves h (moves_of_fixed (fixed_doHostSet _ _))
  | nandProgramComplete _ => exact run_moves h (moves_of_fixed (fixed_nandProgram _ _))
  | blockRefresh _ _ _ _ => exact run_moves h (moves_of_fixed (fixed_blockRefresh _ _ _ _ _))
  | retentionScan _ _ => exact run_moves h (moves_of_fixed (fixed_retentionScan _ _ _))
  | recordRead _ =>
    unfold exec execRecordRead at h
    exact run_moves h (moves_of_fixed (fixed_bar0 _ _ fun m => fixed_recordRead _ _))
  | readDone _ _ => exact run_moves h (moves_of_fixed (fixed_readDone _ _ _))
  | restore _ => exact run_moves h (moves_of_st (st_restore _ _))
  | restoreComplete => exact run_moves h (moves_of_st (st_restoreComplete _))
  | getVersion =>
    unfold exec execGetVersion at h
    exact run_moves h (moves_of_fixed (fixed_spdmWith _ _ fun m => fixed_emit _ _))
  | getCapabilities =>
    unfold exec execGetCapabilities at h
    exact run_moves h (moves_of_fixed (fixed_spdmWith _ _ fun m => fixed_emit _ _))
  | negotiateAlgorithms =>
    unfold exec execNegotiateAlgorithms at h
    exact run_moves h (moves_of_fixed (fixed_spdmWith _ _ fun m => fixed_emit _ _))
  | getDigests =>
    unfold exec execGetDigests at h
    exact run_moves h (moves_of_fixed (fixed_spdmWith _ _ fun m => fixed_emit _ _))
  | getCertificate _ _ =>
    unfold exec execGetCertificate at h
    exact run_moves h (moves_of_fixed (fixed_spdmWith _ _ fun m => fixed_getCertificate _ _ _))
  | challenge _ =>
    unfold exec execChallenge at h
    exact run_moves h (moves_of_fixed (fixed_spdmWith _ _ fun m => fixed_challenge _ _))
  | getMeasurements _ _ =>
    unfold exec execGetMeasurements at h
    exact run_moves h (moves_of_fixed (fixed_spdmWith _ _ fun m => fixed_getMeasurements _ _ _))
  | keyExchange =>
    unfold exec execKeyExchange at h
    exact run_moves h (moves_of_fixed (fixed_spdmWith _ _ fun m => fixed_keyExchange _))
  | finish _ =>
    unfold exec execFinish at h
    exact run_moves h (moves_of_fixed (fixed_spdmWith _ _ fun m => fixed_finishSession _ _))
  | endSession _ =>
    unfold exec execEndSession at h
    exact run_moves h (moves_of_fixed (fixed_spdmWith _ _ fun m => fixed_endSession _ _))
  | spdmUnsupportedRequest _ =>
    unfold exec execSpdmUnsupportedRequest at h
    exact run_moves h (moves_of_fixed (fixed_spdmWith _ _ fun m => fixed_emit _ _))
  | stage _ _ => exact run_moves h (moves_of_st (st_stage _ _ _))
  | stageComplete => exact run_moves h (moves_of_st (st_stageComplete _))
  | activate => exact run_moves h (moves_of_fixed (fixed_activate _))
  | abort =>
    unfold exec execAbort at h
    exact run_moves h (moves_of_st (st_bar0 _ _ fun m => st_stopStaging _))
  | nonceRead => exact run_moves h (moves_of_fixed (fixed_nonceRead _))
  | takeOwnership _ => exact run_moves h ((steady_authorise _ _).moves)
  | transferAuth _ => exact run_moves h ((steady_authorise _ _).moves)
  | debugAuth _ => exact run_moves h ((steady_authorise _ _).moves)
  | returnAuth _ => exact run_moves h ((steady_authorise _ _).moves)
  | retireAuth _ => exact run_moves h ((steady_authorise _ _).moves)
  | fuseAuth _ => exact run_moves h ((steady_authorise _ _).moves)
  | debugGrantExpiry => exact run_moves h (moves_of_fixed (fixed_grantExpiry _))
  | cryptoReset =>
    unfold exec execCryptoReset at h
    exact run_moves h (moves_of_fixed (by split <;> simp))
  | cryptoResetComplete =>
    unfold exec execCryptoResetComplete at h
    exact run_moves h (moves_of_fixed (by simp))
  | standbyRequest =>
    unfold exec execStandbyRequest at h
    exact run_moves h (moves_of_st (st_bar0 _ _ fun m => st_powerRequest _ _))
  | dormantRequest _ =>
    unfold exec execDormantRequest at h
    exact run_moves h (moves_of_st (st_bar0 _ _ fun m => st_powerRequest _ _))
  | wakeRequest =>
    unfold exec execWakeRequest at h
    exact run_moves h (moves_of_st (st_bar0 _ _ fun m => st_powerRequest _ _))
  | standbyDrainStart => exact run_moves h ((boundary_drainStart _).moves)
  | drainComplete => exact run_moves h ((boundary_drainComplete _).moves)
  | standbyEntryComplete => exact run_moves h (moves_standbyEntry _)
  | dormantEntryComplete => exact run_moves h (moves_dormantEntry _)
  | wakeComplete => exact run_moves h (moves_wakeComplete _)
  | powerControlPeriod _ => exact run_moves h (moves_of_fixed (fixed_controlPeriod _ _))
  | tillerGate _ => exact run_moves h (moves_of_fixed (fixed_tillerGate _ _))
  | droop _ => exact run_moves h (moves_of_fixed (fixed_droop _ _))
  | droopRelease _ => exact run_moves h (moves_of_fixed (fixed_droopRelease _ _))
  | pllRelockComplete _ => exact run_moves h (moves_of_fixed (fixed_relockDone _ _))
  | trimRaise _ => exact run_moves h (moves_of_fixed (fixed_trimRaise _ _))
  | trimLower _ => exact run_moves h (moves_of_fixed (fixed_trimLower _ _))
  | trimSave => exact run_moves h (moves_of_fixed (fixed_trimSave _))
  | thermalWarn _ _ => exact run_moves h (moves_of_fixed (fixed_thermalWarn _ _ _))
  | thermalLimit _ _ => exact run_moves h (moves_of_fixed (fixed_thermalLimit _ _))
  | thermalQuar _ => exact run_moves h ((steady_thermalQuar _ _).moves)
  | hbmThermal _ _ => exact run_moves h (moves_of_fixed (fixed_hbmThermal _ _ _))
  | thermalTrip => exact run_moves h (moves_thermalTrip _)
  | coolantHigh _ => exact run_moves h (moves_of_fixed (fixed_coolantHigh _ _))
  | glean _ => exact run_moves h (moves_of_fixed (fixed_glean _ _))
  | gleanDone _ => exact run_moves h (moves_of_fixed (fixed_gleanDone _ _))
  | pdelayReqTransmit _ => exact run_moves h (moves_of_st (st_sendReq _ _ _))
  | perstDeassertion => exact run_moves h (moves_of_st (st_perstDeassertion _))
  | jtagInstruction ir => exact moves_jtag h
  | uartStatusLine => exact run_moves h (moves_of_fixed (fixed_uartLine _))

/-! ### The idle step -/

@[simp] theorem rd_clockTick (m : Mach) (f : Fld) (i : Nat) : rd (clockTick m) f i = rd m f i := by
  refine rd_congr ?_ f i
  unfold clockTick setDom
  split
  · rfl
  · dsimp only
    (repeat' split) <;> rfl

/-- An activation that is due ends in CONFIGURED or FAULT; else the clock carries none out (R411; assumption 124). -/
theorem activateDue_cases (m : Mach) : activateDue m = m ∨ (rd m F.GLM_UPD_STATUS_STATE 0 = 4 ∧
    ((fixed (activateDue m)).ctl.st = .configured ∨ (fixed (activateDue m)).ctl.st = .fault)) := by
  by_cases h4 : rd m F.GLM_UPD_STATUS_STATE 0 = 4
  · unfold activateDue
    split
    · next h =>
      refine .inr ⟨h4, ?_⟩
      simp only [Bool.and_eq_true] at h
      unfold activateReset moduleReset
      dsimp only
      rw [if_neg (by simp [writeBc, h.1.1])]
      exact st_boot _ _
    · exact .inl rfl
  · exact .inl (activateDue_idle m h4)

theorem idle_step_state {s t : State} (hq : s.pending = []) (h : step s = .next t) : t.mach.ctl.st = s.mach.ctl.st ∨
    (rd s.mach F.GLM_UPD_STATUS_STATE 0 = 4 ∧ (t.mach.ctl.st = .configured ∨ t.mach.ctl.st = .fault)) := by
  unfold step at h
  rw [hq] at h
  cases h
  rcases activateDue_cases (clockTick (fresh s.mach)) with h | ⟨h4, hs⟩
  · refine .inl ?_
    rw [h]
    exact st_clockTick (fresh s.mach)
  · exact .inr ⟨by simpa using h4, hs⟩

/-- Settles O18: one lemma per function of the model says how it may change the module state, and each command is one of these functions. What no
lemma of its own changes keeps its state (`fixed`); what may stop the module ends in FAULT (`Steady`); what a tick boundary brings is `Boundary`. -/
theorem everyStateChangeIsInTheTable : Obligations.EveryStateChangeIsInTheTable :=
  ⟨fun _ _ _ _ h => exec_moves h, fun _ _ _ hq h => idle_step_state hq h⟩

end Sys2Proof.Machine

/-!
PROOFS. What the pipeline and the placement hold (`bench`), what of the contexts a run leaves alone (`progs`), and the operations that leave them.
-/

namespace Sys2Proof.Machine

/-! ### What the pipeline and the placement hold (`bench`) -/

/-- Of a Tiller's states in service (R431) IDLE stands for all. -/
def inWork (st : TilState) : TilState :=
  match st with
  | .idle => .idle
  | .busy => .idle
  | .gated => .idle
  | .fusedOff => .fusedOff
  | .quarantined => .quarantined
  | .reset => .reset

@[simp] theorem inWork_idle : inWork .idle = .idle := rfl
@[simp] theorem inWork_busy : inWork .busy = .idle := rfl
@[simp] theorem inWork_gated : inWork .gated = .idle := rfl
@[simp] theorem inWork_ite (c : Prop) [Decidable c] : inWork (if c then .busy else .idle) = .idle := by split <;> rfl

/-- What of a Tiller neither its work nor its clocks change. -/
structure Hand where
  quar : Bool
  st : TilState
  inject : Inject

def handOf (x : Tiller) : Hand := ⟨x.quar, inWork x.st, x.inject⟩

@[simp] theorem handOf_eq_iff (x y : Tiller) : handOf x = handOf y ↔ x.quar = y.quar ∧ inWork x.st = inWork y.st ∧ x.inject = y.inject := by
  simp [handOf]

/-- What the stages of the pipeline and the placement hold. -/
structure Bench where
  eject : Eject
  intake : Tab IntakePort
  batches : List Batch
  judgeObjs : List ObjRec
  openObjs : List Obj
  pend : Option PendPlace
  crew : Nat → Hand

def bench (m : Mach) : Bench :=
  ⟨m.eject, m.intake, m.fab.batches, m.fab.judgeObjs, m.fab.openObjs, m.fab.pend, fun t => handOf (tilOf m t)⟩

theorem eject_of_bench {m t : Mach} (h : bench t = bench m) : t.eject = m.eject := congrArg Bench.eject h
theorem intake_of_bench {m t : Mach} (h : bench t = bench m) : t.intake = m.intake := congrArg Bench.intake h
theorem batches_of_bench {m t : Mach} (h : bench t = bench m) : t.fab.batches = m.fab.batches := congrArg Bench.batches h
theorem judgeObjs_of_bench {m t : Mach} (h : bench t = bench m) : t.fab.judgeObjs = m.fab.judgeObjs := congrArg Bench.judgeObjs h
theorem openObjs_of_bench {m t : Mach} (h : bench t = bench m) : t.fab.openObjs = m.fab.openObjs := congrArg Bench.openObjs h
theorem pend_of_bench {m t : Mach} (h : bench t = bench m) : t.fab.pend = m.fab.pend := congrArg Bench.pend h
theorem hand_of_bench {m t : Mach} (h : bench t = bench m) (n : Nat) : handOf (tilOf t n) = handOf (tilOf m n) := congrFun (congrArg Bench.crew h) n

@[simp] theorem bench_ite (c : Prop) [Decidable c] (a b : Mach) : bench (if c then a else b) = if c then bench a else bench b := apply_ite bench c a b

@[simp] theorem bench_forEach {α : Type} (xs : List α) (m : Mach) (f : Mach → α → Mach) (h : ∀ m x, bench (f m x) = bench m) :
    bench (forEach xs m f) = bench m := by
  unfold forEach
  induction xs generalizing m with
  | nil => rfl
  | cons x xs ih => rw [List.foldl_cons, ih, h]

@[simp] theorem bench_setCtl (m : Mach) (f : Ctl → Ctl) : bench (setCtl m f) = bench m := by cases m; rfl
@[simp] theorem bench_setTime (m : Mach) (f : TimeBase → TimeBase) : bench (setTime m f) = bench m := by cases m; rfl
@[simp] theorem bench_setFuses (m : Mach) (f : Fuses → Fuses) : bench (setFuses m f) = bench m := by cases m; rfl
@[simp] theorem bench_setNor (m : Mach) (f : Nor → Nor) : bench (setNor m f) = bench m := by cases m; rfl
@[simp] theorem bench_setEnc (m : Mach) (c : Nat) (f : EncCh → EncCh) : bench (setEnc m c f) = bench m := by cases m; rfl
@[simp] theorem bench_setTrig (m : Mach) (f : Trig → Trig) : bench (setTrig m f) = bench m := by cases m; rfl
@[simp] theorem bench_setAlign (m : Mach) (f : Align → Align) : bench (setAlign m f) = bench m := by cases m; rfl
@[simp] theorem bench_setIsp (m : Mach) (f : Isp → Isp) : bench (setIsp m f) = bench m := by cases m; rfl
@[simp] theorem bench_setChaff (m : Mach) (f : Chaff → Chaff) : bench (setChaff m f) = bench m := by cases m; rfl
@[simp] theorem bench_setFlash (m : Mach) (f : Flash → Flash) : bench (setFlash m f) = bench m := by cases m; rfl
@[simp] theorem bench_setGlume (m : Mach) (f : Glume → Glume) : bench (setGlume m f) = bench m := by cases m; rfl
@[simp] theorem bench_setPower (m : Mach) (f : Power → Power) : bench (setPower m f) = bench m := by cases m; rfl
@[simp] theorem bench_setHost (m : Mach) (f : HostIf → HostIf) : bench (setHost m f) = bench m := by cases m; rfl
@[simp] theorem bench_setPort (m : Mach) (p : Nat) (f : SheafPort → SheafPort) : bench (setPort m p f) = bench m := by cases m; rfl
@[simp] theorem bench_setWin (m : Mach) (p : Nat) (f : Window → Window) : bench (setWin m p f) = bench m := by cases m; rfl
@[simp] theorem bench_setQue (m : Mach) (p : Nat) (f : Queue → Queue) : bench (setQue m p f) = bench m := by cases m; rfl
@[simp] theorem bench_setRing (m : Mach) (p : Nat) (f : Ring → Ring) : bench (setRing m p f) = bench m := by cases m; rfl
@[simp] theorem bench_setCtx (m : Mach) (p : Nat) (f : Ctx → Ctx) : bench (setCtx m p f) = bench m := by cases m; rfl
@[simp] theorem bench_setBin (m : Mach) (t c h : Nat) (f : Bin → Bin) : bench (setBin m t c h f) = bench m := by cases m; rfl
@[simp] theorem bench_setWord (m : Mach) (r : Word) (a : Nat) (w : Word) : bench (setWord m r a w) = bench m := by cases m; rfl
@[simp] theorem bench_wr (m : Mach) (f : Fld) (i v : Nat) : bench (wr m f i v) = bench m := by cases m; rfl
@[simp] theorem bench_incBy (m : Mach) (f : Fld) (i v : Nat) : bench (incBy m f i v) = bench m := by cases m; rfl
@[simp] theorem bench_inc (m : Mach) (f : Fld) (i : Nat) : bench (inc m f i) = bench m := by cases m; rfl
@[simp] theorem bench_emit (m : Mach) (o : Output) : bench (emit m o) = bench m := by cases m; rfl
@[simp] theorem bench_draw (m : Mach) : bench (draw m).1 = bench m := by cases m; rfl
@[simp] theorem bench_fresh (m : Mach) : bench (fresh m) = bench m := by cases m; rfl
@[simp] theorem bench_setEject (m : Mach) (f : Eject → Eject) : bench (setEject m f) = { bench m with eject := f (bench m).eject } := by cases m; rfl

@[simp] theorem bench_setIp (m : Mach) (p : Nat) (f : IntakePort → IntakePort) :
    bench (setIp m p f) = { bench m with intake := tmod {} (bench m).intake p f } := by cases m; rfl

/-- An update of the fabric that leaves the stages, the placement and the Tillers. -/
@[simp] theorem bench_setFab (m : Mach) (f : Fabric → Fabric) (hb : (f m.fab).batches = m.fab.batches) (hj : (f m.fab).judgeObjs = m.fab.judgeObjs)
    (ho : (f m.fab).openObjs = m.fab.openObjs) (hp : (f m.fab).pend = m.fab.pend) (ht : (f m.fab).tillers = m.fab.tillers) :
    bench (setFab m f) = bench m := by simp [bench, setFab, tilOf, hb, hj, ho, hp, ht]

@[simp] theorem bench_setTil (m : Mach) (t : Nat) (f : Tiller → Tiller) (h : handOf (f (tilOf m t)) = handOf (tilOf m t)) :
    bench (setTil m t f) = bench m := by
  have hc : ∀ n, handOf (tilOf (setTil m t f) n) = handOf (tilOf m n) := by
    intro n
    by_cases e : n = t
    · subst e
      rw [tilOf_setTil_same, h]
    · rw [tilOf_setTil_ne _ _ e]
  have hc := funext hc
  unfold bench
  rw [hc]
  rfl

@[simp] theorem bench_sendVector (m : Mach) (v : Nat) : bench (sendVector m v) = bench m := by simp [sendVector]

@[simp] theorem bench_logEvent (m : Mach) (v b i c : Nat) : bench (logEvent m v b i c) = bench m := by
  unfold logEvent
  rfl

@[simp] theorem bench_raiseAs (m : Mach) (f : Fld) (i inst c : Nat) : bench (raiseAs m f i inst c) = bench m := by simp [raiseAs]
@[simp] theorem bench_raise (m : Mach) (f : Fld) (i : Nat) : bench (raise m f i) = bench m := by simp [raise]
@[simp] theorem bench_raiseCtx (m : Mach) (f : Fld) (i c : Nat) : bench (raiseCtx m f i c) = bench m := by simp [raiseCtx]
@[simp] theorem bench_raiseCount (m : Mach) (f g : Fld) (i : Nat) : bench (raiseCount m f g i) = bench m := by simp [raiseCount]
@[simp] theorem bench_raiseIf (c : Bool) (m : Mach) (f : Fld) (i : Nat) : bench (raiseIf c m f i) = bench m := by simp [raiseIf]
@[simp] theorem bench_deny (m : Mach) : bench (deny m) = bench m := by simp [deny]

@[simp] theorem bench_enter (m : Mach) (n : ModState) : bench (enter m n) = bench m := by
  unfold enter
  split
  · rfl
  · exact (bench_raise _ _ _).trans rfl

@[simp] theorem bench_notePower (m0 m : Mach) : bench (notePower m0 m) = bench m := by simp [notePower]
@[simp] theorem bench_emitFlit (m : Mach) (p : Nat) (f : BitVec 256) : bench (emitFlit m p f) = bench m := by simp [emitFlit]
@[simp] theorem bench_sendLctl (m : Mach) (p flags pm : Nat) : bench (sendLctl m p flags pm) = bench m := by simp [sendLctl]
@[simp] theorem bench_sendFrames (m : Mach) (p : Nat) (more : Nat → Nat) : bench (sendFrames m p more) = bench m := by simp [sendFrames]

@[simp] theorem bench_startTraining (m : Mach) (p : Nat) (phy : PhyState) (fast : Bool) : bench (startTraining m p phy fast) = bench m := by
  simp [startTraining]

@[simp] theorem bench_retrainFrom (m : Mach) (p : Nat) (phy : PhyState) : bench (retrainFrom m p phy) = bench m := by simp [retrainFrom]

@[simp] theorem bench_lpRequest (m : Mach) (p : Nat) (r : LpReq) : bench (lpRequest m p r) = bench m := by
  unfold lpRequest
  (repeat' split) <;> simp

@[simp] theorem bench_enterL0 (m : Mach) (p : Nat) : bench (enterL0 m p) = bench m := by
  unfold enterL0
  dsimp only
  split <;> simp

@[simp] theorem bench_lpExit (m : Mach) (p : Nat) : bench (lpExit m p) = bench m := by
  unfold lpExit
  split <;> simp

@[simp] theorem bench_setCmd (m : Mach) (q seq : Nat) (f : Cmd → Cmd) : bench (setCmd m q seq f) = bench m := by simp [setCmd]

@[simp] theorem bench_setUnits (m : Mach) (c : Cmd) (h : Option (Nat × Nat)) : bench (setUnits m c h) = bench m := by
  unfold setUnits
  refine bench_setTil _ _ _ ?_
  dsimp only
  cases h : (tilOf m c.tiller).st <;> simp [h]

@[simp] theorem bench_addEngine (m : Mach) (c : Cmd) : bench (addEngine m c) = bench m := by simp [addEngine]
@[simp] theorem bench_leaveUnits (m : Mach) (c : Cmd) : bench (leaveUnits m c) = bench m := by simp [leaveUnits]
@[simp] theorem bench_stopRun (m : Mach) (c : Cmd) : bench (stopRun m c) = bench m := by simp [stopRun]
@[simp] theorem bench_noteKill (m : Mach) (c : Cmd) : bench (noteKill m c) = bench m := by simp [noteKill]
@[simp] theorem bench_noteLatency (m : Mach) (c : Cmd) : bench (noteLatency m c) = bench m := by simp [noteLatency]
@[simp] theorem bench_finish (m : Mach) (c : Cmd) (status : Nat) : bench (finish m c status) = bench m := by simp [finish]

@[simp] theorem bench_preemptOne (m : Mach) (c : Cmd) : bench (preemptOne m c) = bench m := by
  unfold preemptOne
  dsimp only
  (repeat' split) <;> simp

@[simp] theorem bench_preempt (m : Mach) (t : Nat) : bench (preempt m t) = bench m := by simp [preempt]
@[simp] theorem bench_ringPut (m : Mach) (r : Nat) (e : List Byte) : bench (ringPut m r e) = bench m := by simp [ringPut]
@[simp] theorem bench_putEntry (m : Mach) (q : Nat) (e : List Byte) : bench (putEntry m q e) = bench m := by simp [putEntry]
@[simp] theorem bench_noteStatus (m : Mach) (c : Cmd) (s : Nat) : bench (noteStatus m c s) = bench m := by simp [noteStatus]
@[simp] theorem bench_reportCmd (m : Mach) (c : Cmd) : bench (reportCmd m c) = bench m := by simp [reportCmd]
@[simp] theorem bench_flushReports (m : Mach) (q : Nat) : bench (flushReports m q) = bench m := by simp [flushReports]
@[simp] theorem bench_sizePool (m : Mach) (c t : Nat) : bench (sizePool m c t) = bench m := by simp [sizePool]

@[simp] theorem bench_wakeTiller (m : Mach) (t : Nat) : bench (wakeTiller m t) = bench m := by
  unfold wakeTiller
  split
  · next h => simp [h]
  · rfl

@[simp] theorem bench_sendSeq (m : Mach) (p : Nat) (f : BitVec 256) : bench (sendSeq m p f) = bench m := by simp [sendSeq]

@[simp] theorem bench_pumpFlits (fs : List (BitVec 256)) (m : Mach) (p : Nat) : bench (pumpFlits fs m p) = bench m := by
  induction fs generalizing m with
  | nil => rfl
  | cons f fs ih => simp [pumpFlits, ih]

@[simp] theorem bench_startWrite (m : Mach) (p : Nat) (w : OutWrite) : bench (startWrite m p w) = bench m := by simp [startWrite]
@[simp] theorem bench_pump (m : Mach) (p : Nat) : bench (pump m p) = bench m := by simp [pump]

@[simp] theorem bench_queueWrite (m : Mach) (p window gen offset : Nat) (data : List Byte) (q seq : Nat) (tick : Option (BitVec 48)) :
    bench (queueWrite m p window gen offset data q seq tick) = bench m := by
  simp [queueWrite]

@[simp] theorem bench_endWrite (m : Mach) (p : Nat) (w : OutWrite) (status : Nat) : bench (endWrite m p w status) = bench m := by simp [endWrite]
@[simp] theorem bench_clearLink (m : Mach) (p : Nat) : bench (clearLink m p) = bench m := by simp [clearLink]
@[simp] theorem bench_endHeld (m : Mach) : bench (endHeld m) = bench m := by simp [endHeld]

@[simp] theorem bench_openWindow (m : Mach) (i owner p : Nat) (granary : Bool) (t baseKib sizeKib : Nat) :
    bench (openWindow m i owner p granary t baseKib sizeKib) = bench m := by
  simp [openWindow]

@[simp] theorem bench_closeWindow (m : Mach) (i : Nat) : bench (closeWindow m i) = bench m := by simp [closeWindow]

@[simp] theorem bench_openPeer (m : Mach) (c : Nat) (d : PeerDecl) : bench (openPeer m c d) = bench m := by
  unfold openPeer
  dsimp only
  split <;> simp

@[simp] theorem bench_sendGrant (m : Mach) (c : Nat) (q : Program) (d : PeerDecl) : bench (sendGrant m c q d) = bench m := by
  unfold sendGrant
  split <;> simp

@[simp] theorem bench_grantAll (m : Mach) (c : Nat) (reopen : Bool) : bench (grantAll m c reopen) = bench m := by
  unfold grantAll
  split <;> simp

@[simp] theorem bench_startProg (m : Mach) : bench (startProg m) = bench m := by simp [startProg]
@[simp] theorem bench_audit (m : Mach) (type ctx : Nat) (payload : List Byte) : bench (audit m type ctx payload) = bench m := by simp [audit]
@[simp] theorem bench_backupImage (m : Mach) (i : Image) : bench (backupImage m i) = bench m := by simp [backupImage]

@[simp] theorem bench_masterCheck (m : Mach) (ch : Nat) : bench (masterCheck m ch) = bench m := by
  unfold masterCheck
  dsimp only
  (repeat' split) <;> simp

@[simp] theorem bench_noteReached (m : Mach) : bench (noteReached m) = bench m := by simp [noteReached]
@[simp] theorem bench_advanceHigh (m : Mach) : bench (advanceHigh m) = bench m := by simp [advanceHigh]
@[simp] theorem bench_refresh (m : Mach) : bench (refresh m) = bench m := by simp [refresh]
@[simp] theorem bench_markReady (m : Mach) : bench (markReady m) = bench m := by simp [markReady]

@[simp] theorem bench_unloadDone (m : Mach) : bench (unloadDone m) = bench m := by
  unfold unloadDone
  split <;> simp

@[simp] theorem bench_unpark (m : Mach) : bench (unpark m) = bench m := by
  refine bench_forEach _ _ _ fun _ _ => ?_
  dsimp only
  (repeat' split) <;> simp

@[simp] theorem bench_resched (m : Mach) : bench (resched m) = bench m := by simp [resched]

@[simp] theorem bench_setMeas (m : Mach) (f : List (Nat × Nat × List Byte) → List (Nat × Nat × List Byte)) : bench (setMeas m f) = bench m := by
  simp [setMeas]

@[simp] theorem bench_putMeas (m : Mach) (ix type : Nat) (v : List Byte) : bench (putMeas m ix type v) = bench m := by simp [putMeas]
@[simp] theorem bench_alignState (m : Mach) (st fail : Nat) : bench (alignState m st fail) = bench m := by simp [alignState]
@[simp] theorem bench_alignFail (m : Mach) (reason : Nat) : bench (alignFail m reason) = bench m := by simp [alignFail]
@[simp] theorem bench_alignPortLost (m : Mach) (p : Nat) : bench (alignPortLost m p) = bench m := by simp [alignPortLost]

@[simp] theorem bench_probeLine (m : Mach) (p : Nat) (s3 s6 : List (List Int)) : bench (probeLine m p s3 s6) = bench m := by
  unfold probeLine
  split <;> simp

@[simp] theorem bench_ispExchange (m : Mach) : bench (ispExchange m) = bench m := by simp [ispExchange]
@[simp] theorem bench_ispBoundary (m : Mach) : bench (ispBoundary m) = bench m := by simp [ispBoundary]
@[simp] theorem bench_setChaffState (m : Mach) (n : Nat) : bench (setChaffState m n) = bench m := by simp [setChaffState]
@[simp] theorem bench_startFailRefill (m : Mach) : bench (startFailRefill m) = bench m := by simp [startFailRefill]

@[simp] theorem bench_parityFails (m : Mach) (p : Nat) (fails : List (Nat × Nat)) : bench (parityFails m p fails) = bench m := by
  unfold parityFails
  extract_lets live fails' ws m1 lost m2 m3
  have h1 : bench m1 = bench m := by
    simp only [m1]
    split <;> simp
  split
  · exact h1
  · rw [bench_startFailRefill, bench_raise, bench_setFab m2 _ rfl rfl rfl rfl rfl, bench_setChaff, h1]

@[simp] theorem bench_lookupLine (m : Mach) (p : Nat) (chans : List (List Nat)) (parity : List (Nat × Nat)) :
    bench ((lookupLine m p chans parity).1) = bench m := by
  unfold lookupLine
  dsimp only
  split <;> simp

@[simp] theorem bench_chaffExchange (m : Mach) : bench (chaffExchange m) = bench m := by simp [chaffExchange]
@[simp] theorem bench_chaffBoundary (m : Mach) : bench (chaffBoundary m) = bench m := by simp [chaffBoundary]
@[simp] theorem bench_swapBoundary (m : Mach) : bench (swapBoundary m) = bench m := by simp [swapBoundary]
@[simp] theorem bench_portObjects (m : Mach) (k used p : Nat) : bench ((portObjects m k used p).1) = bench m := by simp [portObjects]
@[simp] theorem bench_killLc (m : Mach) : bench (killLc m) = bench m := by simp [killLc]
@[simp] theorem bench_writeBc (m : Mach) (active trial confirmed : Nat) : bench (writeBc m active trial confirmed) = bench m := by simp [writeBc]
@[simp] theorem bench_measureFuses (m : Mach) : bench (measureFuses m) = bench m := by simp [measureFuses]

@[simp] theorem bench_fuseLedger (m : Mach) (kind : Nat) (v : Word) (recovered : Bool) (f : Fuses → Fuses) :
    bench (fuseLedger m kind v recovered f) = bench m := by
  simp [fuseLedger]

@[simp] theorem bench_confirmSlot (m : Mach) : bench (confirmSlot m) = bench m := by
  unfold confirmSlot
  split <;> simp

@[simp] theorem bench_setReason (m : Mach) (r : Nat) (on : Bool) : bench (setReason m r on) = bench m := by simp [setReason]
@[simp] theorem bench_accrue (m : Mach) (r ns : Nat) : bench (accrue m r ns) = bench m := by simp [accrue]

@[simp] theorem bench_accrueDroop (m : Mach) : bench (accrueDroop m) = bench m := by
  unfold accrueDroop
  split <;> simp

@[simp] theorem bench_lightSheaf (m : Mach) (p : Nat) : bench (lightSheaf m p) = bench m := by simp [lightSheaf]
@[simp] theorem bench_refusePower (code : Nat) (m : Mach) : bench (refusePower code m) = bench m := by simp [refusePower]

@[simp] theorem bench_askDeep (m : Mach) (p : Nat) : bench (askDeep m p) = bench m := by
  unfold askDeep
  dsimp only
  (repeat' split) <;> simp

@[simp] theorem bench_portDeep (m : Mach) (p : Nat) : bench (portDeep m p) = bench m := by simp [portDeep]
@[simp] theorem bench_holdBe (m : Mach) : bench (holdBe m) = bench m := by simp [holdBe]
@[simp] theorem bench_setTrim (m : Mach) (die : Nat) (v : Int) : bench (setTrim m die v) = bench m := by simp [setTrim]
@[simp] theorem bench_freeTrim (m : Mach) (die : Nat) : bench (freeTrim m die) = bench m := by simp [freeTrim]
@[simp] theorem bench_clockSettled (m : Mach) : bench (clockSettled m) = bench m := by simp [clockSettled]

@[simp] theorem bench_tillersOff (m : Mach) : bench (tillersOff m) = bench m := by
  unfold tillersOff
  rw [bench_clockSettled]
  refine bench_forEach _ _ _ fun m t => bench_setTil _ _ _ ?_
  cases h : (tilOf m t).st <;> simp [h]

/-! ### What of the contexts a run leaves alone (`progs`) -/

/-- The contexts, but for the engine time that they have had (R345). -/
def progs (m : Mach) (c : Nat) : Ctx := { ctxOf m c with time := 0 }

@[simp] theorem progs_ite (c : Prop) [Decidable c] (a b : Mach) : progs (if c then a else b) = if c then progs a else progs b := apply_ite progs c a b

@[simp] theorem progs_forEach {α : Type} (xs : List α) (m : Mach) (f : Mach → α → Mach) (h : ∀ m x, progs (f m x) = progs m) :
    progs (forEach xs m f) = progs m := by
  unfold forEach
  induction xs generalizing m with
  | nil => rfl
  | cons x xs ih => rw [List.foldl_cons, ih, h]

/-- Contexts read alike when the fabric is the same. -/
theorem progs_of_fab {m t : Mach} (h : t.fab = m.fab) : progs t = progs m := by
  unfold progs ctxOf
  rw [h]

@[simp] theorem progs_setFab (m : Mach) (f : Fabric → Fabric) (h : (f m.fab).ctxs = m.fab.ctxs) : progs (setFab m f) = progs m := by
  unfold progs ctxOf setFab
  dsimp only
  rw [h]

@[simp] theorem progs_setTil (m : Mach) (t : Nat) (f : Tiller → Tiller) : progs (setTil m t f) = progs m := progs_setFab _ _ rfl

@[simp] theorem progs_setCtx (m : Mach) (c : Nat) (f : Ctx → Ctx) (h : { f (ctxOf m c) with time := 0 } = { ctxOf m c with time := 0 }) :
    progs (setCtx m c f) = progs m := by
  funext n
  unfold progs
  by_cases e : n = c
  · subst e
    simpa [ctxOf, setCtx, setFab] using h
  · simp [ctxOf, setCtx, setFab, tget_tmod_ne _ _ _ e]

@[simp] theorem progs_setCmd (m : Mach) (q seq : Nat) (f : Cmd → Cmd) : progs (setCmd m q seq f) = progs m := by simp [setCmd]
@[simp] theorem progs_setUnits (m : Mach) (c : Cmd) (h : Option (Nat × Nat)) : progs (setUnits m c h) = progs m := by simp [setUnits]
@[simp] theorem progs_addEngine (m : Mach) (c : Cmd) : progs (addEngine m c) = progs m := by simp [addEngine]
@[simp] theorem progs_leaveUnits (m : Mach) (c : Cmd) : progs (leaveUnits m c) = progs m := by simp [leaveUnits]
@[simp] theorem progs_stopRun (m : Mach) (c : Cmd) : progs (stopRun m c) = progs m := by simp [stopRun]
@[simp] theorem progs_killLc (m : Mach) : progs (killLc m) = progs m := by simp [killLc]

end Sys2Proof.Machine

/-!
PROOFS. The tick boundary (R9, R15 to R17, R22 to R28, R117, R171, R368 to R373) stage by stage, and the statement O25.
-/

namespace Sys2Proof.Machine

/-! ### The end of the Judge stage (R16, R17, R317) -/

/-- What the loss of a batch's results does to an object. -/
def objLost (c no status : Nat) (o : ObjRec) : ObjRec :=
  if o.context = c && o.batch = no && o.status = 0 then { o with status := status } else o

theorem bench_abandonBatch (m : Mach) (c no status : Nat) : bench (abandonBatch m c no status) = { bench m with
    batches := m.fab.batches.map (fun b => if b.context == c && b.no == no && b.abandoned == 0 then { b with abandoned := status } else b)
    judgeObjs := (bench m).judgeObjs.map (objLost c no status) } := by
  simp only [bench, abandonBatch, setFab, tilOf]
  rfl

/-- What the losses of several batches do to an object, each with its own status. -/
def objAfter (st : Batch → Nat) (bs : List Batch) (o : ObjRec) : ObjRec := bs.foldl (fun o b => objLost b.context b.no (st b) o) o

theorem objAfter_nil (st : Batch → Nat) : objAfter st [] = id := rfl

/-- An object changes in its status only, and only where it has none. -/
theorem objLost_eq (c no status : Nat) (o : ObjRec) : ∃ s, objLost c no status o = { o with status := s } ∧ (o.status ≠ 0 → s = o.status) := by
  unfold objLost
  split
  · next h => exact ⟨status, rfl, fun hs => by simp [hs] at h⟩
  · exact ⟨o.status, rfl, fun _ => rfl⟩

theorem objAfter_eq (st : Batch → Nat) (bs : List Batch) (o : ObjRec) :
    ∃ s, objAfter st bs o = { o with status := s } ∧ (o.status ≠ 0 → s = o.status) := by
  induction bs generalizing o with
  | nil => exact ⟨o.status, rfl, fun _ => rfl⟩
  | cons b bs ih =>
    obtain ⟨s, hs, hk⟩ := objLost_eq b.context b.no (st b) o
    obtain ⟨u, hu, hk'⟩ := ih { o with status := s }
    refine ⟨u, ?_, fun h => ?_⟩
    · rw [objAfter, List.foldl_cons, hs]
      exact hu
    · have hs : s = o.status := hk h
      exact (hk' (by rwa [hs])).trans hs

theorem objAfter_of_status {o : ObjRec} (h : o.status ≠ 0) (st : Batch → Nat) (bs : List Batch) : objAfter st bs o = o := by
  obtain ⟨s, hs, hk⟩ := objAfter_eq st bs o
  rw [hs, hk h]

/-- The objects of a batch that is lost have a status. -/
theorem objAfter_status {st : Batch → Nat} (h0 : ∀ b, st b ≠ 0) {bs : List Batch} {b : Batch} (hb : b ∈ bs) {o : ObjRec} (hc : o.context = b.context)
    (hn : o.batch = b.no) : (objAfter st bs o).status ≠ 0 := by
  induction bs generalizing o with
  | nil => cases hb
  | cons x bs ih =>
    obtain ⟨s, hs, -⟩ := objLost_eq x.context x.no (st x) o
    rw [objAfter, List.foldl_cons]
    rcases List.mem_cons.mp hb with rfl | hb
    · by_cases hz : o.status = 0
      · have e : objLost b.context b.no (st b) o = { o with status := st b } := if_pos (by simp [hc, hn, hz])
        rw [e]
        have k := objAfter_of_status (o := { o with status := st b }) (h0 b) st bs
        rw [objAfter] at k
        rw [k]
        exact h0 b
      · have e : objLost b.context b.no (st b) o = o := if_neg (by simp [hz])
        have k := objAfter_of_status hz st bs
        rw [objAfter] at k
        rw [e, k]
        exact hz
    · exact ih hb (o := objLost x.context x.no (st x) o) (by rw [hs]; exact hc) (by rw [hs]; exact hn)

theorem lateStatus_ne_zero (m : Mach) (b : Batch) : lateStatus m b ≠ 0 := by
  unfold lateStatus
  split
  · simp
  · split
    · simp
    · split <;> simp

/-- The batches that are not complete when the stage ends. -/
def lateBatches (m : Mach) : List Batch := m.fab.batches.filter (fun b => b.abandoned == 0 && !batchDone m b.context b)

/-- What of the stages the end of Judge leaves alone; the objects of batches that are not complete lose their results. -/
theorem bench_endJudge (m : Mach) : ∃ bs, bench (endJudge m) = { bench m with
    batches := bs, judgeObjs := m.fab.judgeObjs.map (objAfter (lateStatus m) (lateBatches m)) } := by
  unfold endJudge
  extract_lets late peers live beyond r1 r2 r3
  have h1 : ∀ (bs : List Batch) (t : Mach), ∃ ys, bench (forEach bs t (fun m' b =>
      if lateStatus m b == 0x30 && recovering m b.context b then
        raiseAs (inc (abandonBatch m' b.context b.no (lateStatus m b)) F.GEN_CHECK_CNT2_MISS 0) F.GEN_CHECK_EVENT_MISS 0 0xFF b.context
      else abandonBatch m' b.context b.no (lateStatus m b))) =
      { bench t with batches := ys, judgeObjs := (bench t).judgeObjs.map (objAfter (lateStatus m) bs) } := by
    intro bs
    induction bs with
    | nil => exact fun t => ⟨t.fab.batches, by simp [forEach, bench, objAfter_nil]⟩
    | cons b bs ih =>
      intro t
      obtain ⟨ys, hy⟩ := ih (if lateStatus m b == 0x30 && recovering m b.context b then
        raiseAs (inc (abandonBatch t b.context b.no (lateStatus m b)) F.GEN_CHECK_CNT2_MISS 0) F.GEN_CHECK_EVENT_MISS 0 0xFF b.context
        else abandonBatch t b.context b.no (lateStatus m b))
      refine ⟨ys, ?_⟩
      rw [forEach, List.foldl_cons]
      rw [forEach] at hy
      rw [hy]
      simp [bench_abandonBatch, objAfter, List.map_map, Function.comp_def]
  obtain ⟨ys, hy⟩ := h1 late m
  refine ⟨ys, ?_⟩
  have h3 : bench r3 = bench r1 := by simp [r3, r2]
  have hy : bench r1 = { bench m with batches := ys, judgeObjs := (bench m).judgeObjs.map (objAfter (lateStatus m) late) } := hy
  have he : ∀ t : Mach, bench (if beyond then raise (inc t F.GEN_STAGE_CNT_JUDGE 0) F.GEN_PLACE_EVENT_OVERRUN 0 else t) = bench t := by
    intro t
    split <;> simp
  rw [he, h3, hy]
  rfl

theorem progs_endJudge (m : Mach) : progs (endJudge m) = progs m := by
  have hr : ∀ (t : Mach) (f : Fld) (i n c : Nat), progs (raiseAs t f i n c) = progs t := fun _ _ _ _ _ => progs_of_fab (raiseAs_fab _ _ _ _ _)
  have hi : ∀ (t : Mach) (f : Fld) (i : Nat), progs (inc t f i) = progs t := fun _ _ _ => progs_of_fab (inc_fab _ _ _)
  have ha : ∀ (t : Mach) (c no st : Nat), progs (abandonBatch t c no st) = progs t := fun t c no st => progs_setFab _ _ rfl
  unfold endJudge
  simp [raise, raiseIf, hr, hi, ha]

/-! ### The Eject stage (R15, R368 to R373): decisions and fires -/

/-! The reject path writes to the flash only. -/

@[simp] theorem startProg_eject (m : Mach) : (startProg m).eject = m.eject := congrArg Bench.eject (bench_startProg m)
@[simp] theorem startProg_intake (m : Mach) : (startProg m).intake = m.intake := congrArg Bench.intake (bench_startProg m)

@[simp] theorem startProg_fab (m : Mach) : (startProg m).fab = m.fab := by
  unfold startProg
  split <;> simp

@[simp] theorem putReject_eject (m : Mach) (objDec : List Byte) (ctx : Nat) (conf : Bool) (crop tail : List Byte) :
    (putReject m objDec ctx conf crop tail).eject = m.eject := by
  unfold putReject
  dsimp only
  (repeat' split) <;> simp [raiseCount]

@[simp] theorem putReject_fab (m : Mach) (objDec : List Byte) (ctx : Nat) (conf : Bool) (crop tail : List Byte) :
    (putReject m objDec ctx conf crop tail).fab = m.fab := by
  unfold putReject
  dsimp only
  (repeat' split) <;> simp [raiseCount]

@[simp] theorem putReject_intake (m : Mach) (objDec : List Byte) (ctx : Nat) (conf : Bool) (crop tail : List Byte) :
    (putReject m objDec ctx conf crop tail).intake = m.intake := by
  unfold putReject
  dsimp only
  (repeat' split) <;> simp [raiseCount]

theorem finalize_eject (m : Mach) (d : Decision) :
    (finalize m d).eject = { m.eject with decisions := m.eject.decisions.filter (fun x => x.id != d.id) } := by
  unfold finalize
  dsimp only
  split <;> simp

@[simp] theorem finalize_fab (m : Mach) (d : Decision) : (finalize m d).fab = m.fab := by
  unfold finalize
  dsimp only
  split <;> simp

@[simp] theorem finalize_intake (m : Mach) (d : Decision) : (finalize m d).intake = m.intake := by
  unfold finalize
  dsimp only
  split <;> simp

/-- Decisions become final: fires and numbers stay, the decisions of other numbers stay, and those that a fire still holds. -/
structure Finalized (ids : List Nat) (m t : Mach) : Prop where
  fires : t.eject.fires = m.eject.fires
  nextId : t.eject.nextId = m.eject.nextId
  level : t.eject.tickLevel = m.eject.tickLevel
  ports : t.eject.ports = m.eject.ports
  fab : t.fab = m.fab
  intake : t.intake = m.intake
  old : ∀ d ∈ t.eject.decisions, d ∈ m.eject.decisions
  kept : ∀ d ∈ m.eject.decisions, d.id ∉ ids ∨ (∃ f ∈ m.eject.fires, d.id ∈ f.decs) → d ∈ t.eject.decisions

theorem Finalized.refl (ids : List Nat) (m : Mach) : Finalized ids m m := ⟨rfl, rfl, rfl, rfl, rfl, rfl, fun _ h => h, fun _ h _ => h⟩

theorem Finalized.trans {ids : List Nat} {a b c : Mach} (h : Finalized ids a b) (k : Finalized ids b c) : Finalized ids a c := by
  refine ⟨k.fires.trans h.fires, k.nextId.trans h.nextId, k.level.trans h.level, k.ports.trans h.ports, k.fab.trans h.fab, k.intake.trans h.intake,
    fun d hd => h.old d (k.old d hd), fun d hd hk => ?_⟩
  exact k.kept d (h.kept d hd hk) (by rwa [h.fires])

theorem finalized_finalize {ids : List Nat} {m : Mach} {d : Decision} (hd : d.id ∈ ids) (hf : ∀ f ∈ m.eject.fires, d.id ∉ f.decs) :
    Finalized ids m (finalize m d) := by
  refine ⟨by simp [finalize_eject], by simp [finalize_eject], by simp [finalize_eject], by simp [finalize_eject], finalize_fab m d,
      finalize_intake m d, fun x hx => ?_, fun x hx hk => ?_⟩
  · rw [finalize_eject] at hx
    exact (List.mem_filter.mp hx).1
  · rw [finalize_eject]
    refine List.mem_filter.mpr ⟨hx, ?_⟩
    rw [bne_iff_ne]
    intro e
    rcases hk with hk | ⟨f, hm, hk⟩
    · exact hk (e ▸ hd)
    · exact hf f hm (e ▸ hk)

theorem finalized_finalizeDone (m : Mach) (ids : List Nat) : Finalized ids m (finalizeDone m ids) := by
  have h : ∀ (ds : List Decision) (t : Mach), (∀ d ∈ ds, d.id ∈ ids) → Finalized ids t (forEach ds t (fun m d =>
      if m.eject.fires.any (fun f => f.decs.contains d.id) then m else finalize m d)) := by
    intro ds
    induction ds with
    | nil => exact fun t _ => Finalized.refl ids t
    | cons d ds ih =>
      intro t hd
      rw [forEach, List.foldl_cons]
      refine Finalized.trans ?_ (ih _ fun x hx => hd x (List.mem_cons_of_mem _ hx))
      split
      · exact Finalized.refl ids t
      · next hn => exact finalized_finalize (hd d List.mem_cons_self) (by simpa using hn)
  exact h _ m fun d hd => by simpa using (List.mem_filter.mp hd).2

/-- Where the memory of fires has room, a fire is added. -/
theorem addFire_room {m : Mach} (h : m.eject.fires.length < 65536) (d : Decision) (a v : Nat) :
    ∃ f : Fire, f.decs = [d.id] ∧ addFire m d a v = setEject m (fun e => { e with fires := e.fires ++ [f], nextId := e.nextId + 1 }) := by
  unfold addFire
  dsimp only
  rw [if_neg (by omega)]
  exact ⟨_, rfl, rfl⟩

/-- What an added fire does to the ejector, with room for it or not: the decision may be marked, other decisions stay. -/
structure Fired (d : Decision) (m t : Mach) : Prop where
  level : t.eject.tickLevel = m.eject.tickLevel
  ports : t.eject.ports = m.eject.ports
  fab : t.fab = m.fab
  intake : t.intake = m.intake
  nextId : m.eject.nextId ≤ t.eject.nextId
  fires : ∀ f ∈ m.eject.fires, f ∈ t.eject.fires
  old : ∀ x ∈ t.eject.decisions, ∃ y ∈ m.eject.decisions, x.id = y.id ∧ x.obj = y.obj ∧ x.action = y.action
  kept : ∀ x ∈ m.eject.decisions, x.id ≠ d.id → x ∈ t.eject.decisions

theorem Fired.refl (d : Decision) (m : Mach) : Fired d m m :=
  ⟨rfl, rfl, rfl, rfl, Nat.le_refl _, fun _ h => h, fun x h => ⟨x, h, rfl, rfl, rfl⟩, fun _ h _ => h⟩

theorem Fired.trans {d : Decision} {a b c : Mach} (h : Fired d a b) (k : Fired d b c) : Fired d a c := by
  refine ⟨k.level.trans h.level, k.ports.trans h.ports, k.fab.trans h.fab, k.intake.trans h.intake, Nat.le_trans h.nextId k.nextId,
      fun f hf => k.fires f (h.fires f hf), fun x hx => ?_,
    fun x hx hn => k.kept x (h.kept x hx hn) hn⟩
  obtain ⟨y, hy, e1, e2, e3⟩ := k.old x hx
  obtain ⟨z, hz, f1, f2, f3⟩ := h.old y hy
  exact ⟨z, hz, e1.trans f1, e2.trans f2, e3.trans f3⟩

theorem fired_addFire (m : Mach) (d : Decision) (a v : Nat) : Fired d m (addFire m d a v) := by
  by_cases h : m.eject.fires.length < 65536
  · obtain ⟨f, -, hf⟩ := addFire_room h d a v
    rw [hf]
    exact ⟨rfl, rfl, rfl, rfl, Nat.le_succ _, fun _ hf => List.mem_append_left _ hf, fun x hx => ⟨x, hx, rfl, rfl, rfl⟩, fun _ hx _ => hx⟩
  · unfold addFire
    dsimp only
    rw [if_pos (by omega)]
    refine ⟨by simp [modDec, raiseCount], by simp [modDec, raiseCount], by simp [modDec, raiseCount], by simp [modDec, raiseCount],
        by simp [modDec, raiseCount],
      by simp [modDec, raiseCount], fun x hx => ?_, fun x hx hn => ?_⟩
    · simp only [modDec, raiseCount, setEject_eject, raise_eject, inc_eject, List.mem_map] at hx
      obtain ⟨y, hy, rfl⟩ := hx
      refine ⟨y, hy, ?_⟩
      split <;> exact ⟨rfl, rfl, rfl⟩
    · simp only [modDec, raiseCount, setEject_eject, raise_eject, inc_eject, List.mem_map]
      exact ⟨x, hx, by simp [hn]⟩

theorem fired_forEach (vs : List Nat) (m : Mach) (d : Decision) (a : Nat) : Fired d m (forEach vs m (fun m v => addFire m d a v)) := by
  unfold forEach
  induction vs generalizing m with
  | nil => exact Fired.refl d m
  | cons v vs ih => exact (fired_addFire m d a v).trans (ih _)

/-- Where there is room for every valve, the decision stays as it is, and has a fire for each. -/
theorem addFires_room (vs : List Nat) (m : Mach) (d : Decision) (a : Nat) (h : m.eject.fires.length + vs.length ≤ 65536) :
    (forEach vs m (fun m v => addFire m d a v)).eject.decisions = m.eject.decisions ∧
    (forEach vs m (fun m v => addFire m d a v)).eject.fires.length = m.eject.fires.length + vs.length ∧
    (vs ≠ [] → ∃ f ∈ (forEach vs m (fun m v => addFire m d a v)).eject.fires, d.id ∈ f.decs) := by
  unfold forEach
  induction vs generalizing m with
  | nil => exact ⟨rfl, rfl, fun h => absurd rfl h⟩
  | cons v vs ih =>
    have hl : m.eject.fires.length + (vs.length + 1) ≤ 65536 := h
    obtain ⟨f, hd, hf⟩ := addFire_room (m := m) (by omega) d a v
    have hlen : (addFire m d a v).eject.fires.length = m.eject.fires.length + 1 := by rw [hf]; simp
    obtain ⟨i1, i2, -⟩ := ih (addFire m d a v) (by omega)
    rw [List.foldl_cons]
    refine ⟨i1.trans (by rw [hf]; rfl), by rw [i2, hlen, List.length_cons]; omega, fun _ => ⟨f, ?_, by simp [hd]⟩⟩
    exact (fired_forEach vs _ d a).fires f (by rw [hf]; simp)

theorem decideObj_congr {m t : Mach} (hc : t.cfg = m.cfg) (hp : ∀ c, (ctxOf t c).program = (ctxOf m c).program) (o : ObjRec) :
    decideObj t o = decideObj m o := by
  unfold decideObj
  rw [hc, hp]

theorem selectValves_congr {m t : Mach} (hc : t.cfg = m.cfg) (o : ObjRec) (a : Nat) : selectValves t o a = selectValves m o a := by
  simp [selectValves, valveUsable, valveCfg, doMode, hc]

/-- No object has more valves than the image names. -/
theorem selectValves_length (m : Mach) (o : ObjRec) (a : Nat) : (selectValves m o a).length ≤ m.cfg.valve.valves.length := by
  unfold selectValves
  rw [List.length_map]
  exact List.length_filter_le _ _

/-- The valves that an object's decision takes. -/
def objValves (m : Mach) (o : ObjRec) : List Nat := if (decideObj m o).1 = 0 then [] else selectValves m o (decideObj m o).1

/-- The decision that an object forms (R370, R371). -/
def objDecision (m : Mach) (o : ObjRec) : Decision :=
  { id := m.eject.nextId, obj := o, action := (decideObj m o).1, status := (decideObj m o).2.1
    flags := if (decideObj m o).1 ≠ 0 && (objValves m o).isEmpty then setBit (decideObj m o).2.2.1 4 else (decideObj m o).2.2.1
    result := (decideObj m o).2.2.2 }

/-- The machine with an object's decision in the ejector. -/
def decided (m : Mach) (o : ObjRec) : Mach :=
  setEject m (fun e => { e with decisions := e.decisions ++ [objDecision m o], nextId := e.nextId + 1 })

theorem ejectObj_eq (m : Mach) (o : ObjRec) : ejectObj m o =
    finalizeDone (forEach (objValves m o) (decided m o) (fun t v => addFire t (objDecision m o) (decideObj m o).1 v)) [(objDecision m o).id] := rfl

/-- What the ejection of objects leaves in the ejector: its decisions are old ones or theirs, and what fires hold stays. -/
structure Ejected (os : List ObjRec) (m t : Mach) : Prop where
  level : t.eject.tickLevel = m.eject.tickLevel
  ports : t.eject.ports = m.eject.ports
  fab : t.fab = m.fab
  intake : t.intake = m.intake
  cfg : t.cfg = m.cfg
  nextId : m.eject.nextId ≤ t.eject.nextId
  fires : ∀ f ∈ m.eject.fires, f ∈ t.eject.fires
  old : ∀ x ∈ t.eject.decisions, (∃ e ∈ m.eject.decisions, e.id = x.id ∧ e.obj = x.obj ∧ e.action = x.action) ∨ (x.obj ∈ os ∧
      x.action = (decideObj m x.obj).1)
  kept : ∀ x ∈ m.eject.decisions, x.id < m.eject.nextId → (∃ f ∈ m.eject.fires, x.id ∈ f.decs) → x ∈ t.eject.decisions

theorem Ejected.nil (m : Mach) : Ejected [] m m :=
  ⟨rfl, rfl, rfl, rfl, rfl, Nat.le_refl _, fun _ h => h, fun x h => .inl ⟨x, h, rfl, rfl, rfl⟩, fun _ h _ _ => h⟩

theorem Ejected.cons {o : ObjRec} {os : List ObjRec} {a b c : Mach} (h : Ejected [o] a b) (k : Ejected os b c) : Ejected (o :: os) a c := by
  refine ⟨k.level.trans h.level, k.ports.trans h.ports, k.fab.trans h.fab, k.intake.trans h.intake, k.cfg.trans h.cfg, Nat.le_trans h.nextId k.nextId,
    fun f hf => k.fires f (h.fires f hf), fun x hx => ?_, fun x hx hn ⟨f, hf, hd⟩ => ?_⟩
  · rcases k.old x hx with ⟨e, he, hi, hj, hk⟩ | ⟨ho, ha⟩
    · rcases h.old e he with ⟨e', he', hi', hj', hk'⟩ | ⟨ho, ha⟩
      · exact .inl ⟨e', he', hi'.trans hi, hj'.trans hj, hk'.trans hk⟩
      · rw [hj] at ho ha
        rw [List.mem_singleton] at ho
        exact .inr ⟨by simp [ho], hk ▸ ha⟩
    · rw [decideObj_congr h.cfg (fun c => by rw [ctxOf, h.fab]; rfl)] at ha
      exact .inr ⟨List.mem_cons_of_mem _ ho, ha⟩
  · exact k.kept x (h.kept x hx hn ⟨f, hf, hd⟩) (Nat.lt_of_lt_of_le hn h.nextId) ⟨f, h.fires f hf, hd⟩

theorem ejected_ejectObj (m : Mach) (o : ObjRec) : Ejected [o] m (ejectObj m o) := by
  have hcfg : (ejectObj m o).cfg = m.cfg := congrArg Fixed.cfg (fixed_ejectObj m o)
  rw [ejectObj_eq] at hcfg ⊢
  have hf := fired_forEach (objValves m o) (decided m o) (objDecision m o) (decideObj m o).1
  generalize forEach (objValves m o) (decided m o) _ = t at hf hcfg ⊢
  have hz := finalized_finalizeDone t [(objDecision m o).id]
  refine ⟨hz.level.trans hf.level, hz.ports.trans hf.ports, hz.fab.trans hf.fab, hz.intake.trans hf.intake, hcfg, ?_, fun f h => ?_,
      fun x hx => ?_, fun x hx hn ⟨f, hm, hd⟩ => ?_⟩
  · rw [hz.nextId]
    exact Nat.le_trans (Nat.le_succ _) hf.nextId
  · rw [hz.fires]
    exact hf.fires f h
  · obtain ⟨y, hy, e1, e2, e3⟩ := hf.old x (hz.old x hx)
    rcases List.mem_append.mp hy with hy | hy
    · exact .inl ⟨y, hy, e1.symm, e2.symm, e3.symm⟩
    · rw [List.mem_singleton] at hy
      subst hy
      exact .inr ⟨by simp [e2, objDecision], by rw [e3, e2]; rfl⟩
  · have hne : x.id ≠ (objDecision m o).id := Nat.ne_of_lt hn
    refine hz.kept x (hf.kept x (List.mem_append_left _ hx) hne) (.inr ⟨f, hf.fires f hm, hd⟩)

theorem ejected_forEach (os : List ObjRec) (m : Mach) : Ejected os m (forEach os m ejectObj) := by
  unfold forEach
  induction os generalizing m with
  | nil => exact Ejected.nil m
  | cons o os ih => exact (ejected_ejectObj m o).cons (ih _)

/-- Each object adds at most a fire for each valve. -/
theorem ejectObj_fires_length (m : Mach) (o : ObjRec) (h : m.eject.fires.length + m.cfg.valve.valves.length ≤ 65536) :
    (ejectObj m o).eject.fires.length ≤ m.eject.fires.length + m.cfg.valve.valves.length := by
  have hv : (objValves m o).length ≤ m.cfg.valve.valves.length := by
    unfold objValves
    split
    · exact Nat.zero_le _
    · exact selectValves_length m o _
  have hl : (decided m o).eject.fires.length = m.eject.fires.length := rfl
  obtain ⟨-, h2, -⟩ := addFires_room (objValves m o) (decided m o) (objDecision m o) (decideObj m o).1 (by omega)
  rw [ejectObj_eq, (finalized_finalizeDone _ _).fires, h2]
  omega

/-- With room for its fires, an object whose decision has valves leaves that decision in the ejector, held by a fire. -/
theorem objDecision_mem_ejectObj {m : Mach} {o : ObjRec} (h : m.eject.fires.length + m.cfg.valve.valves.length ≤ 65536) (hv : objValves m o ≠ []) :
    objDecision m o ∈ (ejectObj m o).eject.decisions ∧ (∃ f ∈ (ejectObj m o).eject.fires, (objDecision m o).id ∈ f.decs) ∧
      (objDecision m o).id < (ejectObj m o).eject.nextId := by
  have hn : (objValves m o).length ≤ m.cfg.valve.valves.length := by
    unfold objValves
    split
    · exact Nat.zero_le _
    · exact selectValves_length m o _
  have hl : (decided m o).eject.fires.length = m.eject.fires.length := rfl
  obtain ⟨h1, -, h3⟩ := addFires_room (objValves m o) (decided m o) (objDecision m o) (decideObj m o).1 (by omega)
  have hid := (fired_forEach (objValves m o) (decided m o) (objDecision m o) (decideObj m o).1).nextId
  rw [ejectObj_eq]
  generalize forEach (objValves m o) (decided m o) _ = t at h1 h3 hid ⊢
  have hz := finalized_finalizeDone t [(objDecision m o).id]
  obtain ⟨f, hf, hd⟩ := h3 hv
  refine ⟨hz.kept _ ?_ (.inr ⟨f, hf, hd⟩), ⟨f, hz.fires ▸ hf, hd⟩, ?_⟩
  · rw [h1]
    exact List.mem_append_right _ (List.mem_singleton.mpr rfl)
  · rw [hz.nextId]
    exact hid

/-- With room for all fires, every object whose decision has valves leaves that decision in the ejector, held by a fire. -/
theorem objDecision_mem_forEach (os : List ObjRec) {m : Mach} (h : m.eject.fires.length + os.length * m.cfg.valve.valves.length ≤ 65536)
    {o : ObjRec} (ho : o ∈ os) (hv : objValves m o ≠ []) :
    ∃ d ∈ (forEach os m ejectObj).eject.decisions, d.obj = o ∧ d.action = (decideObj m o).1 ∧ d.status = (decideObj m o).2.1 ∧
      ∃ f ∈ (forEach os m ejectObj).eject.fires, d.id ∈ f.decs := by
  induction os generalizing m with
  | nil => cases ho
  | cons x os ih =>
    rw [List.length_cons, Nat.succ_mul] at h
    have hx := ejected_ejectObj m x
    rw [forEach, List.foldl_cons]
    rcases List.mem_cons.mp ho with rfl | ho
    · obtain ⟨hd, ⟨f, hf, hi⟩, hn⟩ := objDecision_mem_ejectObj (by omega) hv
      have hr := ejected_forEach os (ejectObj m o)
      exact ⟨objDecision m o, hr.kept _ hd hn ⟨f, hf, hi⟩, rfl, rfl, rfl, f, hr.fires f hf, hi⟩
    · have hp : ∀ c, (ctxOf (ejectObj m x) c).program = (ctxOf m c).program := fun c => by rw [ctxOf, hx.fab]; rfl
      have hdec : decideObj (ejectObj m x) o = decideObj m o := decideObj_congr hx.cfg hp o
      have hval : objValves (ejectObj m x) o = objValves m o := by simp only [objValves, hdec, selectValves_congr hx.cfg]
      have hlen := ejectObj_fires_length m x (by omega)
      have hres := ih (m := ejectObj m x) (by rw [hx.cfg]; omega) ho (by rwa [hval])
      rwa [hdec] at hres

/-! ### Prepare and Acquire (R15, R16, R171): what the intake ports hold -/

/-- Only the intake changes of what the stages hold, and there every port's lines in Acquire and its count of lines stay. -/
structure Prepares (m t : Mach) : Prop where
  bench : bench t = { bench m with intake := t.intake }
  fill : ∀ p, (ipOf t p).fill = (ipOf m p).fill
  count : ∀ p, (ipOf t p).lineCount = (ipOf m p).lineCount

theorem Prepares.refl (m : Mach) : Prepares m m := ⟨rfl, fun _ => rfl, fun _ => rfl⟩

theorem Prepares.trans {a b c : Mach} (h : Prepares a b) (k : Prepares b c) : Prepares a c :=
  ⟨by rw [k.bench, h.bench], fun p => (k.fill p).trans (h.fill p), fun p => (k.count p).trans (h.count p)⟩

/-- Intake ports read alike when the stages hold the same. -/
theorem ipOf_of_bench {m t : Mach} (h : bench t = bench m) (p : Nat) : ipOf t p = ipOf m p := by
  have hi : t.intake = m.intake := congrArg Bench.intake h
  unfold ipOf
  rw [hi]

theorem prepares_of_bench {m t : Mach} (h : bench t = bench m) : Prepares m t :=
  ⟨by rw [h, show t.intake = m.intake from congrArg Bench.intake h]; rfl, fun p => by rw [ipOf_of_bench h], fun p => by rw [ipOf_of_bench h]⟩

@[simp] theorem ipOf_setIp_same (m : Mach) (p : Nat) (f : IntakePort → IntakePort) : ipOf (setIp m p f) p = f (ipOf m p) := by simp [ipOf, setIp]

theorem ipOf_setIp_ne (m : Mach) (f : IntakePort → IntakePort) {p q : Nat} (h : q ≠ p) : ipOf (setIp m p f) q = ipOf m q := by
  simp [ipOf, setIp, tget_tmod_ne _ _ _ h]

theorem prepares_setIp (m : Mach) (p : Nat) (f : IntakePort → IntakePort) (hf : (f (ipOf m p)).fill = (ipOf m p).fill)
    (hc : (f (ipOf m p)).lineCount = (ipOf m p).lineCount) : Prepares m (setIp m p f) := by
  refine ⟨by simp [bench, setIp, tilOf], fun q => ?_, fun q => ?_⟩
  · by_cases e : q = p
    · rw [e, ipOf_setIp_same, hf]
    · rw [ipOf_setIp_ne m f e]
  · by_cases e : q = p
    · rw [e, ipOf_setIp_same, hc]
    · rw [ipOf_setIp_ne m f e]

theorem prepares_forEach {α : Type} (xs : List α) (m : Mach) (f : Mach → α → Mach) (h : ∀ m x, Prepares m (f m x)) : Prepares m (forEach xs m f) := by
  unfold forEach
  induction xs generalizing m with
  | nil => exact Prepares.refl m
  | cons x xs ih => exact (h m x).trans (ih _)

theorem prepares_processLine (m : Mach) (p : Nat) (ln : Line) (parity : List (Nat × Nat)) : Prepares m (processLine m p ln parity) := by
  unfold processLine
  dsimp only
  exact (prepares_of_bench (by simp)).trans (prepares_setIp _ p _ rfl rfl)

theorem prepares_prepareRest (m : Mach) : Prepares m (prepareRest m).1 := by
  unfold prepareRest
  dsimp only
  exact prepares_forEach _ m _ fun m p =>
    (prepares_setIp m p (fun i => { i with drain := [] }) rfl rfl).trans (prepares_forEach _ _ _ fun m ln => prepares_processLine m p _ _)

/-! ### The records of a swath -/

/-- The records of a swath carry its number (R230). -/
theorem recordObj_tick (m : Mach) (k : Nat) (overrun : Bool) (r : RecState) (o : Obj) (h : ∀ x ∈ r.recs, x.1.tick = BitVec.ofNat 48 k) :
    ∀ x ∈ (recordObj m k overrun r o).recs, x.1.tick = BitVec.ofNat 48 k := by
  have hadd : ∀ y : ObjRec × Option (List (List (List Val))), y.1.tick = BitVec.ofNat 48 k → ∀ x ∈ r.recs ++ [y], x.1.tick = BitVec.ofNat 48 k := by
    intro y hy x hx
    rcases List.mem_append.mp hx with hx | hx
    · exact h x hx
    · rw [List.mem_singleton.mp hx, hy]
  have hbare : ∀ (y : ObjRec) (lost spills : Nat), y.tick = BitVec.ofNat 48 k → ∀ x ∈ (if r.noRoi ≥ 4096 then { r with lost := lost }
      else { r with recs := r.recs ++ [(y, none)], noRoi := r.noRoi + 1, spills := spills } : RecState).recs, x.1.tick = BitVec.ofNat 48 k := by
    intro y lost spills hy
    split
    · exact h
    · exact hadd _ hy
  unfold recordObj
  dsimp only
  split
  · exact hbare _ _ _ rfl
  · split
    · exact hbare _ _ _ rfl
    · split
      · split
        · exact hbare _ _ _ rfl
        · exact hadd _ rfl
      · next hn => simp_all

theorem recordObj_foldl_tick (m : Mach) (k : Nat) (overrun : Bool) (os : List Obj) (r : RecState) (h : ∀ x ∈ r.recs, x.1.tick = BitVec.ofNat 48 k) :
    ∀ x ∈ (os.foldl (recordObj m k overrun) r).recs, x.1.tick = BitVec.ofNat 48 k := by
  induction os generalizing r with
  | nil => exact h
  | cons o os ih => exact ih _ (recordObj_tick m k overrun r o h)

theorem bench_closeObjects (m : Mach) (k : Nat) : ∃ os, bench (closeObjects m k).1 = { bench m with openObjs := os } := by
  have hf : ∀ (ps : List Nat) (r : Mach × Nat × List (Obj × Bool)), bench (ps.foldl (fun a p =>
      let b := portObjects a.1 k a.2.1 p; (b.1, b.2.1, a.2.2 ++ b.2.2)) r).1 = bench r.1 := by
    intro ps
    induction ps with
    | nil => exact fun _ => rfl
    | cons p ps ih => exact fun r => (ih _).trans (bench_portObjects r.1 k r.2.1 p)
  unfold closeObjects
  extract_lets ps r m1 opens cut closed ghosts m2 m3 small m4
  have h1 : bench m1 = bench m := hf ps _
  refine ⟨cut.1 ++ ghosts, ?_⟩
  show bench m4 = _
  have h2 : bench m2 = { bench m1 with openObjs := cut.1 ++ ghosts } := rfl
  simp only [m4, m3, bench_incBy, bench_wr, h2, h1]
  rfl

/-- The objects of a swath go to Judge, with their batches, and its lines leave Prepare (R16, R220, R228, R230). -/
structure Recorded (k : Nat) (m t : Mach) : Prop where
  eject : t.eject = m.eject
  pend : t.fab.pend = m.fab.pend
  batches : ∀ b ∈ t.fab.batches, b.tick = BitVec.ofNat 48 k
  objs : ∀ o ∈ t.fab.judgeObjs, o.tick = BitVec.ofNat 48 k
  prep : ∀ p < 16, (ipOf t p).prep = []
  fill : ∀ p, (ipOf t p).fill = (ipOf m p).fill
  count : ∀ p, (ipOf t p).lineCount = (ipOf m p).lineCount

/-- Prepare's lines leave every port of a list. -/
theorem forEach_clearPrep (ps : List Nat) (m : Mach) :
    Prepares m (forEach ps m (fun m p => setIp m p (fun i => { i with prep := [] }))) ∧
      ∀ p, p ∈ ps ∨ (ipOf m p).prep = [] → (ipOf (forEach ps m (fun m p => setIp m p (fun i => { i with prep := [] }))) p).prep = [] := by
  refine ⟨prepares_forEach ps m _ fun m p => prepares_setIp m p _ rfl rfl, ?_⟩
  unfold forEach
  induction ps generalizing m with
  | nil => exact fun p hp => hp.resolve_left (by simp)
  | cons q ps ih =>
    intro p hp
    refine ih _ p ?_
    by_cases e : p = q
    · right
      rw [e, ipOf_setIp_same]
    · rw [ipOf_setIp_ne m _ e]
      exact hp.imp_left fun h => (List.mem_cons.mp h).resolve_left e

theorem bench_setRecords (m : Mach) (bs : List Batch) (os : List ObjRec) :
    bench (setFab m (fun f => { f with batches := bs, judgeObjs := os })) = { bench m with batches := bs, judgeObjs := os } := by cases m; rfl

theorem recorded_endPrepare (m : Mach) (k : Nat) (overrun : Bool) : Recorded k m (endPrepare m k overrun) := by
  unfold endPrepare
  extract_lets r m1 s batches m2 m3 m4
  obtain ⟨os, h1⟩ := bench_closeObjects m k
  have h1 : bench m1 = { bench m with openObjs := os } := h1
  have h3 : bench m3 = bench m1 := by
    simp only [m3, m2, bench_incBy]
    split <;> simp
  have hs : ∀ x ∈ s.recs, x.1.tick = BitVec.ofNat 48 k := recordObj_foldl_tick _ k overrun _ _ (by simp)
  have hb : ∀ b ∈ batches, b.tick = BitVec.ofNat 48 k := by
    intro b hb
    obtain ⟨x, -, hx⟩ := List.mem_flatMap.mp hb
    split at hx
    · cases hx
    · obtain ⟨no, -, rfl⟩ := List.mem_map.mp hx
      rfl
  have h4 : bench m4 = { bench m3 with batches := batches, judgeObjs := s.recs.map (fun x => x.1) } := bench_setRecords m3 _ _
  clear_value m4 m3 m1 batches
  obtain ⟨hp, hz⟩ := forEach_clearPrep (List.range 16) m4
  generalize forEach (List.range 16) m4 (fun m p => setIp m p (fun i => { i with prep := [] })) = t at hp hz ⊢
  rw [h3, h1] at h4
  have hk := hp.bench
  rw [h4] at hk
  have hi : ∀ p, ipOf m4 p = ipOf m p := fun p => by
    rw [ipOf, show m4.intake = m.intake from congrArg Bench.intake h4]
    rfl
  have hbt : t.fab.batches = batches := congrArg Bench.batches hk
  have hjt : t.fab.judgeObjs = s.recs.map (fun x => x.1) := congrArg Bench.judgeObjs hk
  refine ⟨congrArg Bench.eject hk, congrArg Bench.pend hk, fun b h => hb b (hbt ▸ h), fun o h => ?_, fun p h => hz p (.inl (List.mem_range.mpr h)),
    fun p => by rw [hp.fill, hi], fun p => by rw [hp.count, hi]⟩
  rw [hjt] at h
  obtain ⟨x, hx, rfl⟩ := List.mem_map.mp h
  exact hs x hx

/-! ### Lines settle (R171, R172) -/

/-- Only port `p`'s intake changes, and there neither what Prepare holds nor any other port. -/
structure OnPort (p : Nat) (m t : Mach) : Prop where
  bench : bench t = { bench m with intake := t.intake }
  prep : (ipOf t p).prep = (ipOf m p).prep
  others : ∀ q, q ≠ p → ipOf t q = ipOf m q

theorem OnPort.refl (p : Nat) (m : Mach) : OnPort p m m := ⟨rfl, rfl, fun _ _ => rfl⟩

theorem OnPort.trans {p : Nat} {a b c : Mach} (h : OnPort p a b) (k : OnPort p b c) : OnPort p a c :=
  ⟨by rw [k.bench, h.bench], k.prep.trans h.prep, fun q hq => (k.others q hq).trans (h.others q hq)⟩

theorem onPort_of_bench (p : Nat) {m t : Mach} (h : Machine.bench t = Machine.bench m) : OnPort p m t :=
  ⟨(prepares_of_bench h).bench, by rw [ipOf_of_bench h], fun q _ => ipOf_of_bench h q⟩

theorem onPort_setIp (m : Mach) (p : Nat) (f : IntakePort → IntakePort) (h : (f (ipOf m p)).prep = (ipOf m p).prep) : OnPort p m (setIp m p f) :=
  ⟨by simp [Machine.bench, setIp, tilOf], by rw [ipOf_setIp_same, h], fun q hq => ipOf_setIp_ne m f hq⟩

theorem onPort_pushLine (m : Mach) (p : Nat) (t : LTime) (sent : Bool) (mk : Mark) : OnPort p m (pushLine m p t sent mk) :=
  onPort_setIp m p _ rfl

/-- The lines that a swath still lacks are added with their numbers (R120, R171). -/
theorem completeLines_lines (fuel : Nat) (m : Mach) (p stop : Nat) (hs : stop < 2 ^ 32) (hf : stop ≤ (ipOf m p).lineCount.toNat + fuel) :
    OnPort p m (completeLines fuel m p stop) ∧ ∃ ls : List Line, (ipOf (completeLines fuel m p stop) p).fill = (ipOf m p).fill ++ ls ∧
      ls.map (fun l => l.lineNo) = (List.range (stop - (ipOf m p).lineCount.toNat)).map (fun i => BitVec.ofNat 32 ((ipOf m p).lineCount.toNat + i)) ∧
      (ipOf (completeLines fuel m p stop) p).lineCount.toNat = max (ipOf m p).lineCount.toNat stop := by
  induction fuel generalizing m with
  | zero =>
    have e : stop - (ipOf m p).lineCount.toNat = 0 := by omega
    exact ⟨OnPort.refl p m, [], by simp [completeLines], by simp [e], by simp only [completeLines]; omega⟩
  | succ fuel ih =>
    unfold completeLines
    extract_lets l t m1
    have hl : l = (ipOf m p).lineCount.toNat := rfl
    split
    · have e : stop - (ipOf m p).lineCount.toNat = 0 := by omega
      exact ⟨OnPort.refl p m, [], by simp, by simp [e], by omega⟩
    · have hpush : ∀ (u : Mach) (sent : Bool) (mk : Mark), bench u = bench m → OnPort p m (pushLine u p t sent mk) ∧
          ∃ x : Line, (ipOf (pushLine u p t sent mk) p).fill = (ipOf m p).fill ++ [x] ∧ x.lineNo = BitVec.ofNat 32 l ∧
            (ipOf (pushLine u p t sent mk) p).lineCount = (ipOf m p).lineCount + 1 := by
        intro u sent mk hu
        have hi : ipOf u p = ipOf m p := ipOf_of_bench hu p
        refine ⟨(onPort_of_bench p hu).trans (onPort_pushLine u p t sent mk), newLine u p (ipOf u p).lineCount.toNat t sent mk, ?_, ?_, ?_⟩
        · simp [pushLine, hi]
        · simp [newLine, hi, hl]
        · simp [pushLine, hi]
      have h1 : OnPort p m m1 ∧ ∃ x : Line, (ipOf m1 p).fill = (ipOf m p).fill ++ [x] ∧ x.lineNo = BitVec.ofNat 32 l ∧
          (ipOf m1 p).lineCount = (ipOf m p).lineCount + 1 := by
        simp only [m1]
        split
        · exact hpush m false .outside rfl
        · split
          · exact hpush m false .missing rfl
          · exact hpush _ false .good (bench_raiseCount _ _ _ _)
      clear_value m1
      obtain ⟨ho, x, hx, hn, hc⟩ := h1
      have hc' : (ipOf m1 p).lineCount.toNat = l + 1 := by
        rw [hc, BitVec.toNat_add, ← hl]
        exact Nat.mod_eq_of_lt (by simp; omega)
      obtain ⟨ho', ls, h2, h3, h4⟩ := ih m1 (by omega)
      refine ⟨ho.trans ho', x :: ls, by rw [h2, hx, List.append_assoc, List.singleton_append], ?_, by rw [h4]; omega⟩
      have e : stop - l = stop - (l + 1) + 1 := by omega
      rw [List.map_cons, h3, hc', hn, ← hl, e, List.range_succ_eq_map, List.map_cons, List.map_map]
      simp only [Nat.add_zero, List.cons.injEq, true_and]
      exact List.map_congr_left fun i _ => by simp [Nat.add_assoc, Nat.add_comm 1]

theorem onPort_settleLine (m : Mach) (p : Nat) (ln : Line) (reset : Bool) : OnPort p m (settleLine m p ln reset).1 ∧
    (ipOf (settleLine m p ln reset).1 p).fill = (ipOf m p).fill ∧ (ipOf (settleLine m p ln reset).1 p).lineCount = (ipOf m p).lineCount := by
  unfold settleLine
  extract_lets c missing late filled i bands m1
  have h1 : bench m1 = bench m := by
    simp only [m1]
    split <;> simp
  refine ⟨(onPort_of_bench p h1).trans (onPort_setIp m1 p _ rfl), ?_, ?_⟩
  · simp [ipOf_of_bench h1]
  · simp [ipOf_of_bench h1]

/-- Settled lines keep their numbers, and are closed (R171). -/
theorem settleAll_lines (p : Nat) (reset : Bool) (ls : List Line) (m : Mach) : OnPort p m (settleAll p reset ls m).1 ∧
    (ipOf (settleAll p reset ls m).1 p).fill = (ipOf m p).fill ∧ (ipOf (settleAll p reset ls m).1 p).lineCount = (ipOf m p).lineCount ∧
    (settleAll p reset ls m).2.map (fun l => l.lineNo) = ls.map (fun l => l.lineNo) ∧ ∀ l ∈ (settleAll p reset ls m).2, l.closed = true := by
  induction ls generalizing m with
  | nil => exact ⟨OnPort.refl p m, rfl, rfl, rfl, by simp [settleAll]⟩
  | cons ln ls ih =>
    unfold settleAll
    extract_lets a b
    have ha : OnPort p m a.1 ∧ (ipOf a.1 p).fill = (ipOf m p).fill ∧ (ipOf a.1 p).lineCount = (ipOf m p).lineCount ∧ a.2.lineNo = ln.lineNo ∧
        a.2.closed = true := by
      simp only [a]
      split
      · next h => exact ⟨OnPort.refl p m, rfl, rfl, rfl, h⟩
      · obtain ⟨h1, h2, h3⟩ := onPort_settleLine m p ln reset
        exact ⟨h1, h2, h3, rfl, rfl⟩
    obtain ⟨h1, h2, h3, h4, h5⟩ := ha
    obtain ⟨i1, i2, i3, i4, i5⟩ := ih a.1
    refine ⟨h1.trans i1, i2.trans h2, i3.trans h3, by simp [b, i4, h4], fun l hl => ?_⟩
    rcases List.mem_cons.mp hl with rfl | hl
    · exact h5
    · exact i5 l hl

/-! ### Acquire ends (R16, R171) -/

theorem onPort_completeLines (fuel : Nat) (m : Mach) (p stop : Nat) : OnPort p m (completeLines fuel m p stop) := by
  induction fuel generalizing m with
  | zero => exact OnPort.refl p m
  | succ fuel ih =>
    unfold completeLines
    extract_lets l t m1
    split
    · exact OnPort.refl p m
    · refine OnPort.trans ?_ (ih m1)
      simp only [m1]
      split
      · exact onPort_pushLine m p t false .outside
      · split
        · exact onPort_pushLine m p t false .missing
        · exact (onPort_of_bench p (bench_raiseCount m _ _ p)).trans (onPort_pushLine _ p t false .good)

/-- The settled lines that a port passes to Prepare. -/
theorem closePort_eq (m : Mach) (p : Nat) : ∃ u : Mach, ∃ r : Mach × List Line, ∃ n : Nat,
    u = completeLines (swathLen m p + 1) m p ((swathNow m + 1) * swathLen m p) ∧
    n = (ipOf u p).fill.length - ((ipOf u p).lineCount.toNat - (swathNow m + 1) * swathLen m p) ∧
    r = settleAll p (ipOf u p).inReset ((ipOf u p).fill.take n) u ∧ OnPort p r.1 (closePort m p) ∧
    (ipOf (closePort m p) p).fill = (ipOf r.1 p).fill.drop n ∧ (ipOf (closePort m p) p).drain = r.2 := by
  refine ⟨_, _, _, rfl, rfl, rfl, ?_⟩
  unfold closePort
  extract_lets n stop u i mine r u1 marked u2 u3 u4 u5
  have h1 : bench u5 = bench r.1 := by
    simp only [u5, u4, u3, u2, bench_wr]
    split <;> simp [u1]
  refine ⟨(onPort_of_bench p h1).trans (onPort_setIp u5 p _ rfl), ?_, ?_⟩
  · rw [ipOf_setIp_same, ipOf_of_bench h1]
  · rw [ipOf_setIp_same]

theorem onPort_closePort (m : Mach) (p : Nat) : OnPort p m (closePort m p) := by
  obtain ⟨u, r, n, rfl, -, rfl, h, -⟩ := closePort_eq m p
  exact ((onPort_completeLines _ m p _).trans (settleAll_lines p _ _ _).1).trans h

/-- The lines of the swath that ends go to Prepare, settled, in their numbers' order; the lines of the next one stay. -/
theorem closePort_lines {m : Mach} {p first n : Nat} (hn : swathLen m p = n) (hf : swathNow m * n = first)
    (hlt : first + n + (ipOf m p).fill.length < 2 ^ 32) (hc : (ipOf m p).lineCount.toNat = first + (ipOf m p).fill.length)
    (hl : (ipOf m p).fill.map (fun l => l.lineNo) = (List.range (ipOf m p).fill.length).map (fun i => BitVec.ofNat 32 (first + i))) :
    (ipOf (closePort m p) p).drain.map (fun l => l.lineNo) = (List.range n).map (fun i => BitVec.ofNat 32 (first + i)) ∧
      (∀ l ∈ (ipOf (closePort m p) p).drain, l.closed = true) ∧ (ipOf (closePort m p) p).fill = (ipOf m p).fill.drop n := by
  have hstop : (swathNow m + 1) * swathLen m p = first + n := by rw [hn, Nat.add_mul, hf, Nat.one_mul]
  obtain ⟨u, r, k, hu, hk, hr, -, hfill, hdrain⟩ := closePort_eq m p
  rw [hstop, hn] at hu
  rw [hstop] at hk
  obtain ⟨-, ls, h2, h3, h4⟩ := completeLines_lines (n + 1) m p (first + n) (by omega) (by omega)
  rw [← hu] at h2 h4
  rw [hc] at h3 h4
  have hlen : ls.length = n - (ipOf m p).fill.length := by
    have e := congrArg List.length h3
    simp only [List.length_map, List.length_range] at e
    omega
  have hkn : k = n := by
    rw [hk, h2, h4, List.length_append]
    omega
  have hall : ((ipOf u p).fill.take n).map (fun l => l.lineNo) = (List.range n).map (fun i => BitVec.ofNat 32 (first + i)) := by
    rw [h2, ← List.map_take.symm, List.map_append, hl, h3]
    by_cases h : n ≤ (ipOf m p).fill.length
    · rw [List.take_append_of_le_length (by simpa using h), ← List.map_take, List.take_range, Nat.min_eq_left h]
    · have e : first + n - (first + (ipOf m p).fill.length) = n - (ipOf m p).fill.length := by omega
      have e' : n = (ipOf m p).fill.length + (n - (ipOf m p).fill.length) := by omega
      rw [List.take_of_length_le (by simp; omega), e]
      conv_rhs => rw [e', List.range_add, List.map_append, List.map_map]
      simp [Function.comp_def, Nat.add_assoc]
  obtain ⟨-, s2, -, s4, s5⟩ := settleAll_lines p (ipOf u p).inReset ((ipOf u p).fill.take k) u
  rw [← hr] at s2 s4 s5
  refine ⟨by rw [hdrain, s4, hkn, hall], by rw [hdrain]; exact s5, ?_⟩
  rw [hfill, s2, h2, hkn]
  by_cases h : n ≤ (ipOf m p).fill.length
  · have e : ls = [] := List.length_eq_zero_iff.mp (by omega)
    rw [e, List.append_nil]
  · rw [List.drop_of_length_le (by rw [List.length_append]; omega), List.drop_of_length_le (by omega)]

/-- What is done port by port, at each port as if it stood alone. -/
theorem forEach_onPort (f : Mach → Nat → Mach) (h : ∀ m p, OnPort p m (f m p)) (hfix : ∀ m p, fixed (f m p) = fixed m) (ps : List Nat) (m : Mach) :
    bench (forEach ps m f) = { bench m with intake := (forEach ps m f).intake } ∧ (∀ q, (ipOf (forEach ps m f) q).prep = (ipOf m q).prep) ∧
    (∀ q, q ∉ ps → ipOf (forEach ps m f) q = ipOf m q) ∧
    (ps.Nodup → ∀ p ∈ ps, ∃ u, ipOf u p = ipOf m p ∧ fixed u = fixed m ∧ ipOf (forEach ps m f) p = ipOf (f u p) p) := by
  unfold forEach
  induction ps generalizing m with
  | nil => exact ⟨rfl, fun _ => rfl, fun _ _ => rfl, fun _ p hp => by cases hp⟩
  | cons p ps ih =>
    obtain ⟨i1, i2, i3, i4⟩ := ih (f m p)
    obtain ⟨h1, h2, h3⟩ := h m p
    rw [List.foldl_cons]
    refine ⟨by rw [i1, h1], fun q => ?_, fun q hq => ?_, fun hn q hq => ?_⟩
    · by_cases e : q = p
      · rw [i2, e, h2]
      · rw [i2, h3 q e]
    · rw [List.mem_cons, not_or] at hq
      rw [i3 q hq.2, h3 q hq.1]
    · obtain ⟨hp, hn⟩ := List.nodup_cons.mp hn
      rcases List.mem_cons.mp hq with rfl | hq
      · exact ⟨m, rfl, rfl, i3 q hp⟩
      · have e : q ≠ p := fun e => hp (e ▸ hq)
        obtain ⟨u, hu, hx, hr⟩ := i4 hn q hq
        exact ⟨u, hu.trans (h3 q e), hx.trans (hfix m p), hr⟩

/-! ### The stages of a tick (R15 to R17) -/

/-- The stages where the Judge stage has ended and its swath is ejected. -/
def ejectedAt (m : Mach) : Mach := ejectSwath (endJudge (swapBoundary m))

/-- The stages where the swath in Prepare has gone to Judge. -/
def preparedAt (m : Mach) : Mach :=
  if m.ctl.tickCount.toNat = 0 then ejectedAt m
  else
    let r := prepareRest (ejectedAt m)
    endPrepare (if r.2 then raise (inc r.1 F.GEN_STAGE_CNT_PREPARE 0) F.GEN_PLACE_EVENT_OVERRUN 0 else r.1) (m.ctl.tickCount.toNat - 1) r.2

theorem stages_eq (m : Mach) : stages m =
    if (preparedAt m).ctl.drain then
      forEach ((List.range 16).filter (cameraPort (preparedAt m))) (preparedAt m) (fun m p => setIp m p (fun i => { i with recent := [] }))
    else forEach ((List.range 16).filter (cameraPort (preparedAt m))) (preparedAt m) closePort := rfl

@[simp] theorem fixed_preparedAt (m : Mach) : fixed (preparedAt m) = fixed m := by
  unfold preparedAt ejectedAt
  split
  · simp
  · simp

/-- The stages that end at the boundary. -/
theorem stages_onPort (m : Mach) : ∃ f : Mach → Nat → Mach, (∀ m p, OnPort p m (f m p)) ∧ (∀ m p, fixed (f m p) = fixed m) ∧
    (f = if m.ctl.drain then fun m p => setIp m p (fun i => { i with recent := [] }) else closePort) ∧
    stages m = forEach ((List.range 16).filter (cameraPort (preparedAt m))) (preparedAt m) f := by
  have hd : (preparedAt m).ctl = m.ctl := congrArg Fixed.ctl (fixed_preparedAt m)
  refine ⟨_, fun m p => ?_, fun m p => ?_, rfl, ?_⟩
  · split
    · exact onPort_setIp m p _ rfl
    · exact onPort_closePort m p
  · split <;> simp
  · rw [stages_eq, hd]
    split <;> rfl

/-! ### Eject: what the swath judged leaves -/

theorem fab_swapBoundary (m : Mach) : (swapBoundary m).fab = m.fab := by
  have ha : ∀ (t : Mach) (type ctx : Nat) (pl : List Byte), (audit t type ctx pl).fab = t.fab := by
    intro t type ctx pl
    unfold audit
    split <;> simp
  have hi : ∀ t : Mach, (ispBoundary t).fab = t.fab := by
    intro t
    unfold ispBoundary
    split
    · simp [ispExchange, ha]
    · rfl
  unfold swapBoundary chaffBoundary
  split
  · simp [chaffExchange, setChaffState, ha, hi]
  · exact hi m

theorem batchDone_congr {m t : Mach} (h : t.fab = m.fab) (c : Nat) (b : Batch) : batchDone t c b = batchDone m c b := by simp [batchDone, ctxOf, h]

/-- The machine that the ejection of a swath starts from. -/
def emptied (m : Mach) : Mach := setFab m (fun f => { f with
  batches := [], judgeObjs := []
  ctxs := f.ctxs.map (fun c => (c.1, { c.2 with stepsIssued := [], stepsDone := [], stepSeqs := [], carry := parked c.2 })) })

theorem emptied_eject (m : Mach) : (emptied m).eject = m.eject := rfl
theorem emptied_intake (m : Mach) : (emptied m).intake = m.intake := rfl
@[simp] theorem fixed_emptied (m : Mach) : fixed (emptied m) = fixed m := fixed_setFab _ _
/-- The parts of what is fixed, from an equation of the whole. -/
theorem fixed_ctl {m : Mach} {x : Fixed} (h : fixed m = x) : m.ctl = x.ctl := congrArg Fixed.ctl h
theorem fixed_fuses {m : Mach} {x : Fixed} (h : fixed m = x) : m.fuses = x.fuses := congrArg Fixed.fuses h
theorem fixed_nor {m : Mach} {x : Fixed} (h : fixed m = x) : m.nor = x.nor := congrArg Fixed.nor h
theorem fixed_cfg {m : Mach} {x : Fixed} (h : fixed m = x) : m.cfg = x.cfg := congrArg Fixed.cfg h
theorem fixed_time {m : Mach} {x : Fixed} (h : fixed m = x) : m.time = x.time := congrArg Fixed.time h
theorem fixed_enc {m : Mach} {x : Fixed} (h : fixed m = x) : m.enc = x.enc := congrArg Fixed.enc h

theorem cfg_of_fixed {m t : Mach} (h : fixed t = fixed m) : t.cfg = m.cfg := congrArg Fixed.cfg h
theorem ctl_of_fixed {m t : Mach} (h : fixed t = fixed m) : t.ctl = m.ctl := congrArg Fixed.ctl h

/-- The objects ejected: of those in Judge whose decision this module forms, with what the stage has for them. -/
def ejectedObjs (m : Mach) : List ObjRec :=
  let j := endJudge (swapBoundary m)
  (j.fab.judgeObjs.filter (formsDecision j)).map (judged j)

theorem ejectedAt_eq (m : Mach) : ejectedAt m = forEach (ejectedObjs m) (emptied (endJudge (swapBoundary m))) ejectObj := rfl

theorem ejected_ejectedAt (m : Mach) : Ejected (ejectedObjs m) (emptied (endJudge (swapBoundary m))) (ejectedAt m) := ejected_forEach _ _

/-- Up to the end of the stage the ejector, and the contexts' programs and states, are as before. -/
theorem endJudge_facts (m : Mach) : (endJudge (swapBoundary m)).eject = m.eject ∧ (endJudge (swapBoundary m)).intake = m.intake ∧
    (endJudge (swapBoundary m)).fab.pend = m.fab.pend ∧
    progs (endJudge (swapBoundary m)) = progs m ∧ (endJudge (swapBoundary m)).fab.judgeObjs =
      m.fab.judgeObjs.map (objAfter (lateStatus (swapBoundary m)) (lateBatches m)) := by
  obtain ⟨bs, hb⟩ := bench_endJudge (swapBoundary m)
  have hl : lateBatches (swapBoundary m) = lateBatches m := by
    have hd : ∀ b : Batch, batchDone (swapBoundary m) b.context b = batchDone m b.context b := fun b => batchDone_congr (fab_swapBoundary m) _ b
    simp only [lateBatches, fab_swapBoundary, hd]
  rw [hl, fab_swapBoundary, bench_swapBoundary] at hb
  exact ⟨congrArg Bench.eject hb, congrArg Bench.intake hb, congrArg Bench.pend hb, (progs_endJudge _).trans (progs_of_fab (fab_swapBoundary m)),
    congrArg Bench.judgeObjs hb⟩

theorem formsDecision_congr {m t : Mach} (h : progs t = progs m) (o : ObjRec) : formsDecision t o = formsDecision m o := by
  have hp : (ctxOf t o.context).program = (ctxOf m o.context).program := (congrArg Ctx.program (congrFun h o.context) :)
  unfold formsDecision
  rw [hp]

/-- An object ejected stands for one in Judge, from which it differs in its status and its result. -/
theorem ejectedObjs_of_mem {m : Mach} {x : ObjRec} (h : x ∈ ejectedObjs m) : ∃ o ∈ m.fab.judgeObjs, formsDecision m o = true ∧
    (∃ s r, x = { o with status := s, result := r }) ∧
    (∀ b ∈ lateBatches m, o.context = b.context → o.batch = b.no → x.status ≠ 0) := by
  obtain ⟨-, -, -, hp, hj⟩ := endJudge_facts m
  obtain ⟨y, hy, rfl⟩ := List.mem_map.mp h
  obtain ⟨hy, hf⟩ := List.mem_filter.mp hy
  rw [hj] at hy
  obtain ⟨o, ho, rfl⟩ := List.mem_map.mp hy
  obtain ⟨s, hs, -⟩ := objAfter_eq (lateStatus (swapBoundary m)) (lateBatches m) o
  have hj : ∀ (t : Mach) (z : ObjRec), ∃ s r, judged t z = { z with status := s, result := r } ∧ (z.status ≠ 0 → s ≠ 0) := by
    intro t z
    unfold judged
    dsimp only
    split
    · exact ⟨0x40, z.result, rfl, by simp⟩
    · split
      · exact ⟨0x30, z.result, rfl, by simp⟩
      · split
        · exact ⟨z.status, z.result, rfl, id⟩
        · exact ⟨z.status, _, rfl, id⟩
  obtain ⟨s', r, hr, hk⟩ := hj (endJudge (swapBoundary m)) (objAfter (lateStatus (swapBoundary m)) (lateBatches m) o)
  refine ⟨o, ho, ?_, ⟨s', r, by rw [hr, hs]⟩, fun b hb hc hn => ?_⟩
  · rw [formsDecision_congr hp, hs] at hf
    exact hf
  · rw [hr]
    exact hk (objAfter_status (lateStatus_ne_zero _) hb hc hn)

/-- An object that is late already, in a context that is neither scrubbed nor waits for its peer, is ejected as it is. -/
theorem mem_ejectedObjs {m : Mach} {o : ObjRec} (ho : o ∈ m.fab.judgeObjs) (hf : formsDecision m o = true) (hs : o.status ≠ 0)
    (h1 : (ctxOf m o.context).st ≠ .scrubbing) (h2 : (ctxOf m o.context).scrubbed = false) (h3 : splitWaits (ctxOf m o.context) = false) :
    o ∈ ejectedObjs m := by
  obtain ⟨-, -, -, hp, hj⟩ := endJudge_facts m
  have hc : progs (endJudge (swapBoundary m)) o.context = progs m o.context := congrFun hp _
  refine List.mem_map.mpr ⟨o, List.mem_filter.mpr ⟨?_, by rwa [formsDecision_congr hp]⟩, ?_⟩
  · rw [hj]
    exact List.mem_map.mpr ⟨o, ho, objAfter_of_status hs _ _⟩
  · have e1 : (ctxOf (endJudge (swapBoundary m)) o.context).st = (ctxOf m o.context).st := (congrArg Ctx.st hc :)
    have e2 : (ctxOf (endJudge (swapBoundary m)) o.context).scrubbed = (ctxOf m o.context).scrubbed := (congrArg Ctx.scrubbed hc :)
    have e3 : splitWaits (ctxOf (endJudge (swapBoundary m)) o.context) = splitWaits (ctxOf m o.context) := (congrArg splitWaits hc :)
    simp [judged, e1, e2, e3, h1, h2, h3, hs]

/-! ### The boundary as a whole -/

/-- What the boundary leaves in Judge and in Prepare (R16). -/
structure Advanced (m t : Mach) : Prop where
  eject : t.eject = (ejectedAt m).eject
  first : m.ctl.tickCount = 0 → t.fab.batches = [] ∧ t.fab.judgeObjs = []
  later : m.ctl.tickCount ≠ 0 → (∀ b ∈ t.fab.batches, b.tick = m.ctl.tickCount - 1) ∧ (∀ o ∈ t.fab.judgeObjs, o.tick = m.ctl.tickCount - 1) ∧
    ∀ p < 16, (ipOf t p).prep = []

theorem ejectedAt_fab (m : Mach) : (ejectedAt m).fab.batches = [] ∧ (ejectedAt m).fab.judgeObjs = [] := by
  rw [(ejected_ejectedAt m).fab]
  exact ⟨rfl, rfl⟩

theorem ejectedAt_intake (m : Mach) : (ejectedAt m).intake = m.intake :=
  (ejected_ejectedAt m).intake.trans ((emptied_intake _).trans (endJudge_facts m).2.1)

theorem advanced_preparedAt (m : Mach) : Advanced m (preparedAt m) ∧ (∀ p, (ipOf (preparedAt m) p).fill = (ipOf m p).fill) ∧
    ∀ p, (ipOf (preparedAt m) p).lineCount = (ipOf m p).lineCount := by
  have hi : ∀ p, ipOf (ejectedAt m) p = ipOf m p := fun p => by rw [ipOf, ejectedAt_intake]; rfl
  unfold preparedAt
  split
  · next h0 =>
    have h0 : m.ctl.tickCount = 0 := BitVec.eq_of_toNat_eq (by simpa using h0)
    exact ⟨⟨rfl, fun _ => ejectedAt_fab m, fun h => absurd h0 h⟩, fun p => by rw [hi], fun p => by rw [hi]⟩
  · next h0 =>
    extract_lets r
    have hr := prepares_prepareRest (ejectedAt m)
    have hu : bench (if r.2 then raise (inc r.1 F.GEN_STAGE_CNT_PREPARE 0) F.GEN_PLACE_EVENT_OVERRUN 0 else r.1) = bench r.1 := by split <;> simp
    generalize (if r.2 then raise (inc r.1 F.GEN_STAGE_CNT_PREPARE 0) F.GEN_PLACE_EVENT_OVERRUN 0 else r.1) = u at hu ⊢
    have hk := recorded_endPrepare u (m.ctl.tickCount.toNat - 1) r.2
    have hn : BitVec.ofNat 48 (m.ctl.tickCount.toNat - 1) = m.ctl.tickCount - 1 := by bv_omega
    have hz : m.ctl.tickCount ≠ 0 := fun h => h0 (by rw [h]; rfl)
    have hip : ∀ p, ipOf u p = ipOf r.1 p := ipOf_of_bench hu
    refine ⟨⟨?_, fun h => absurd h hz, fun _ => ⟨fun b hb => (hk.batches b hb).trans hn, fun o ho => (hk.objs o ho).trans hn, hk.prep⟩⟩,
        fun p => ?_, fun p => ?_⟩
    · rw [hk.eject]
      exact (congrArg Bench.eject hu).trans (congrArg Bench.eject hr.bench)
    · rw [hk.fill, hip, hr.fill, hi]
    · rw [hk.count, hip, hr.count, hi]

theorem advanced_of_bench {m u t : Mach} (h : Advanced m u) (hb : bench t = { bench u with intake := t.intake })
    (hp : ∀ p, (ipOf t p).prep = (ipOf u p).prep) : Advanced m t := by
  have h1 : t.fab.batches = u.fab.batches := congrArg Bench.batches hb
  have h2 : t.fab.judgeObjs = u.fab.judgeObjs := congrArg Bench.judgeObjs hb
  refine ⟨(congrArg Bench.eject hb).trans h.eject, fun hz => ?_, fun hz => ?_⟩
  · rw [h1, h2]
    exact h.first hz
  · obtain ⟨a, b, c⟩ := h.later hz
    rw [h1, h2]
    exact ⟨a, b, fun p hlt => (hp p).trans (c p hlt)⟩

theorem advanced_stages (m : Mach) : Advanced m (stages m) := by
  obtain ⟨f, hf, hx, -, hs⟩ := stages_onPort m
  obtain ⟨h1, h2, -⟩ := forEach_onPort f hf hx ((List.range 16).filter (cameraPort (preparedAt m))) (preparedAt m)
  rw [hs]
  exact advanced_of_bench (advanced_preparedAt m).1 h1 h2

/-- A camera port of the image is among the ports that the boundary closes. -/
theorem stages_port {m : Mach} {p : Nat} (hp : p < 16) (hc : cameraPort m p = true) : ∃ u :
    Mach, fixed u = fixed m ∧ (ipOf u p).fill = (ipOf m p).fill ∧
    (ipOf u p).lineCount = (ipOf m p).lineCount ∧ ipOf (stages m) p =
      if m.ctl.drain then { ipOf u p with recent := [] } else ipOf (closePort u p) p := by
  obtain ⟨f, hf, hx, he, hs⟩ := stages_onPort m
  have hcp : cameraPort (preparedAt m) p = cameraPort m p := by
    have h := fixed_preparedAt m
    have h1 : (preparedAt m).cfg = m.cfg := fixed_cfg h
    have h2 : (preparedAt m).ctl = m.ctl := fixed_ctl h
    simp [cameraPort, assigned, portMode, camOf, h1, h2]
  obtain ⟨-, -, -, h4⟩ := forEach_onPort f hf hx ((List.range 16).filter (cameraPort (preparedAt m))) (preparedAt m)
  obtain ⟨u, hu, hxu, hr⟩ := h4 (List.nodup_range.filter _) p (List.mem_filter.mpr ⟨List.mem_range.mpr hp, hcp.trans hc⟩)
  refine ⟨u, hxu.trans (fixed_preparedAt m), by rw [hu, (advanced_preparedAt m).2.1], by rw [hu, (advanced_preparedAt m).2.2], ?_⟩
  rw [hs, hr, he]
  split
  · rw [ipOf_setIp_same]
  · rfl

/-- What the tick's figures do to the stages (R9, R390): TICK changes its level, and the latencies of the next swath are taken. -/
theorem noteTick_stages (t : LTime) (m : Mach) : (noteTick t m).eject = { m.eject with tickLevel := !m.eject.tickLevel } ∧
    (noteTick t m).fab.batches = m.fab.batches ∧ (noteTick t m).fab.judgeObjs = m.fab.judgeObjs ∧
    ∀ p, ipOf (noteTick t m) p = { ipOf m p with latencyPs := (ipOf m p).nextLatPs } := by
  unfold noteTick
  extract_lets m1 m2
  have h1 : bench m1 = bench m := by
    simp only [m1]
    split
    · rfl
    · split <;> simp
  clear_value m1
  have h2 : bench m2 = bench m := (bench_setFab _ _ rfl rfl rfl rfl rfl).trans ((bench_setCtl _ _).trans h1)
  clear_value m2
  have h3 : bench (tickTaken t m2) = { bench m2 with intake := m2.intake.map (fun p => (p.1, { p.2 with latencyPs := p.2.nextLatPs })) } := by
    unfold tickTaken
    extract_lets u
    have hu : bench u = { bench m2 with intake := m2.intake.map (fun p => (p.1, { p.2 with latencyPs := p.2.nextLatPs })) } := by
      simp only [u, bench_setTrig]
      rfl
    split
    · rw [bench_setTrig, hu]
    · exact hu
  have hi : (tickTaken t m2).intake = m.intake.map (fun p => (p.1, { p.2 with latencyPs := p.2.nextLatPs })) := by
    rw [show (tickTaken t m2).intake = _ from congrArg Bench.intake h3, show m2.intake = m.intake from congrArg Bench.intake h2]
  have he : (tickTaken t m2).eject = m.eject := (congrArg Bench.eject h3).trans (congrArg Bench.eject h2)
  refine ⟨by rw [setEject_eject, he], ?_, ?_, fun p => ?_⟩
  · exact (congrArg Bench.batches h3).trans (congrArg Bench.batches h2)
  · exact (congrArg Bench.judgeObjs h3).trans (congrArg Bench.judgeObjs h2)
  · rw [ipOf, setEject_intake, hi, ipOf]
    generalize m.intake = xs
    induction xs with
    | nil => rfl
    | cons x xs ih =>
      rw [List.map_cons, tget, tget]
      split
      · rfl
      · exact ih

/-! ### The module's state at the boundary (R23) -/

/-- A state entered changes nothing else that is fixed but PREV_STATE. -/
theorem fixed_enter (m : Mach) (n : ModState) : ∃ p, fixed (enter m n) = { fixed m with ctl := { m.ctl with st := n, prev := p } } := by
  unfold enter
  split
  · next h => exact ⟨m.ctl.prev, by rw [← h]; rfl⟩
  · exact ⟨m.ctl.st, fixed_raise _ _ _⟩

theorem fixed_enter_ne {m : Mach} {n : ModState} (h : m.ctl.st ≠ n) :
    fixed (enter m n) = { fixed m with ctl := { m.ctl with st := n, prev := m.ctl.st } } := by
  unfold enter
  rw [if_neg h]
  exact fixed_raise _ _ _

theorem fixed_decideState (m : Mach) : ∃ n p, fixed (decideState m) = { fixed m with ctl := { m.ctl with st := n, prev := p } } := by
  have he : ∀ n, ∃ n' p, fixed (enter m n) = { fixed m with ctl := { m.ctl with st := n', prev := p } } := fun n => ⟨n, fixed_enter m n⟩
  have hs : ∃ n' p, fixed m = { fixed m with ctl := { m.ctl with st := n', prev := p } } := ⟨m.ctl.st, m.ctl.prev, rfl⟩
  unfold decideState
  split
  case h_1 => split <;> [exact he _; exact hs]
  case h_2 => split <;> [exact he _; exact hs]
  case h_3 => split <;> exact he _
  all_goals exact hs

theorem bench_decideState (m : Mach) : bench (decideState m) = bench m := by
  unfold decideState
  split
  case h_1 => split <;> simp
  case h_2 => split <;> simp
  case h_3 => split <;> simp
  all_goals rfl

theorem st_decideState_ready {m : Mach} (h : m.ctl.st = .machineReady) :
    (decideState m).ctl.st = if tillersIn m && !outOfService m then .running else .degraded := by
  simp only [decideState, h]
  split <;> simp

theorem st_decideState_on {m : Mach} (h : pipelineOn m = true) : (decideState m).ctl.st = .running ∨ (decideState m).ctl.st = .degraded := by
  rcases (pipelineOn_iff m).mp h with h | h
  · simp only [decideState, h]
    split
    · exact .inr (by simp)
    · exact .inl h
  · simp only [decideState, h]
    split
    · exact .inl (by simp)
    · exact .inr h

theorem inWork_eq_fusedOff (st : TilState) : (st == .fusedOff) = (inWork st == .fusedOff) := by cases st <;> rfl
theorem inWork_eq_reset (st : TilState) : (st == .reset) = (inWork st == .reset) := by cases st <;> rfl

theorem tilUp_eq (m : Mach) (t : Nat) : tilUp m t = (inWork (tilOf m t).st == .idle) := by
  unfold tilUp
  cases (tilOf m t).st <;> rfl

/-- Tillers whose hands agree agree in what decides the module's state. -/
theorem tiller_congr {m t : Mach} (h : ∀ n, handOf (tilOf t n) = handOf (tilOf m n)) (n : Nat) : (tilOf t n).quar = (tilOf m n).quar ∧
    ((tilOf t n).st == .fusedOff) = ((tilOf m n).st == .fusedOff) ∧ ((tilOf t n).st == .reset) = ((tilOf m n).st == .reset) ∧
        tilUp t n = tilUp m n := by
  have hs : inWork (tilOf t n).st = inWork (tilOf m n).st := congrArg Hand.st (h n)
  exact ⟨congrArg Hand.quar (h n), by rw [inWork_eq_fusedOff, hs, ← inWork_eq_fusedOff], by rw [inWork_eq_reset, hs, ← inWork_eq_reset],
    by rw [tilUp_eq, hs, ← tilUp_eq]⟩

/-- Which Tillers work under a placement in effect is seen from the placement under way and the Tillers' states. -/
theorem tillersIn_congr {m t : Mach} (hp : t.fab.pend = m.fab.pend) (hc : ∀ n, handOf (tilOf t n) = handOf (tilOf m n)) :
    tillersIn t = tillersIn m := by
  have h := tiller_congr hc
  simp only [tillersIn, hp, fun n => (h n).1, fun n => (h n).2.1, fun n => (h n).2.2.2]

theorem outOfService_congr {m t : Mach} (hp : t.fab.pend = m.fab.pend) (hc : ∀ n, handOf (tilOf t n) = handOf (tilOf m n))
    (hr : t.ctl.resets = m.ctl.resets) (ha : t.ctl.cameraApplied = m.ctl.cameraApplied) (hg : t.cfg = m.cfg) (he : t.eject.ports = m.eject.ports) :
    outOfService t = outOfService m := by
  have h := tiller_congr hc
  have h1 : awnAllIn t = awnAllIn m := by simp [awnAllIn, boardMask, awnInService, awnOf, hg, he]
  have h2 : ∀ p, assigned t p = assigned m p := fun p => by simp [assigned, portMode, camOf, ha, hg]
  have h3 : ∀ p, cameraPort t p = cameraPort m p := fun p => by simp [cameraPort, h2, portMode, camOf, hg]
  have h4 : ∀ p, boardMask t p = boardMask m p := fun p => by simp [boardMask, hg]
  simp only [outOfService, tilLost, hp, fun n => (h n).1, fun n => (h n).2.1, fun n => (h n).2.2.1, hr, h1, h2, h3, h4]

/-! ### A tick that is due -/

/-- The tick's time and number (R9, R12). -/
theorem fixed_noteTick (t : LTime) (m : Mach) :
    fixed (noteTick t m) = { fixed m with ctl := { m.ctl with lastTick := some t, tickCount := m.ctl.tickCount + 1 } } := by
  unfold noteTick
  extract_lets m1 m2
  have h1 : fixed m1 = fixed m := by
    simp only [m1]
    split
    · rfl
    · split <;> simp
  clear_value m1
  simp only [m2, fixed_setEject, fixed_tickTaken, fixed_setFab, fixed_setCtl, h1]
  rfl

/-- The machine once the stages of a tick have moved on and the tick is noted, before the module's state is decided. -/
def tickDone (due : LTime) (m : Mach) : Mach :=
  setCtl (endHeld (noteTick due (stages m))) (fun c => { c with drainLeft := if c.drain then c.drainLeft - 1 else c.drainLeft })

theorem fixed_tickDone (due : LTime) (m : Mach) : fixed (tickDone due m) = { fixed m with ctl := { m.ctl with
    lastTick := some due, tickCount := m.ctl.tickCount + 1, drainLeft := if m.ctl.drain then m.ctl.drainLeft - 1 else m.ctl.drainLeft } } := by
  unfold tickDone
  rw [fixed_setCtl, fixed_endHeld, fixed_noteTick, fixed_stages, show (stages m).ctl = m.ctl from fixed_ctl (fixed_stages m)]

theorem bench_tickDone (due : LTime) (m : Mach) : bench (tickDone due m) = bench (noteTick due (stages m)) := by simp [tickDone]

/-- The machine after a tick that is due. -/
def ticked (due : LTime) (m : Mach) : Mach := resched (decideState (tickDone due m))

theorem swathTick_due {m0 m : Mach} {due : LTime} (e : refresh (applyLosses m0) = m) (ht : ticking m = true) (ha : m.ctl.align = false)
    (hd : ¬ (m.ctl.drain = true ∧ m.ctl.drainLeft = 0)) (h : tickDue m = some due) : swathTick m0 = ticked due m := by
  have hd' : (m.ctl.drain && m.ctl.drainLeft == 0) = false := by
    rw [Bool.eq_false_iff]
    simpa using hd
  unfold swathTick
  simp only [e, h, ha, ht, hd', Bool.not_true, Bool.or_self, if_false, Bool.false_eq_true]
  rfl

/-- What is fixed at a tick that is due. -/
theorem fixed_ticked (due : LTime) (m : Mach) : ∃ n p d, fixed (ticked due m) = { fixed m with ctl := { m.ctl with
    st := n, prev := p, lastTick := some due, tickCount := m.ctl.tickCount + 1, drainLeft := d } } := by
  obtain ⟨n, p, h⟩ := fixed_decideState (tickDone due m)
  refine ⟨n, p, if m.ctl.drain then m.ctl.drainLeft - 1 else m.ctl.drainLeft, ?_⟩
  rw [ticked, fixed_resched, h, fixed_tickDone, show (tickDone due m).ctl = _ from fixed_ctl (fixed_tickDone due m)]

theorem bench_ticked_tickDone (due : LTime) (m : Mach) : bench (ticked due m) = bench (tickDone due m) := by
  rw [ticked, bench_resched, bench_decideState]

theorem bench_ticked (due : LTime) (m : Mach) : bench (ticked due m) = bench (noteTick due (stages m)) := by
  rw [bench_ticked_tickDone, bench_tickDone]

/-! ### What a tick that is due leaves (R9, R15 to R17, R23, R370) -/

theorem settle_decisions (n m : Mach) : (settle n m).eject.decisions = m.eject.decisions := by rw [settle_eject]
theorem settle_fires (n m : Mach) : (settle n m).eject.fires = m.eject.fires := by rw [settle_eject]
theorem settle_tickLevel (n m : Mach) : (settle n m).eject.tickLevel = m.eject.tickLevel := by rw [settle_eject]
theorem settle_ports (n m : Mach) : (settle n m).eject.ports = m.eject.ports := by rw [settle_eject]
@[simp] theorem ipOf_settle (n m : Mach) (p : Nat) : ipOf (settle n m) p = ipOf m p := by rw [ipOf, settle_intake, ipOf]

theorem ticked_eject (due : LTime) (m : Mach) : (ticked due m).eject = { (ejectedAt m).eject with tickLevel := !m.eject.tickLevel } := by
  have h1 : (ticked due m).eject = (noteTick due (stages m)).eject := eject_of_bench (bench_ticked due m)
  have h2 : (stages m).eject = (ejectedAt m).eject := (advanced_stages m).eject
  have h3 : (ejectedAt m).eject.tickLevel = m.eject.tickLevel :=
    (ejected_ejectedAt m).level.trans (by rw [emptied_eject, (endJudge_facts m).1])
  rw [h1, (noteTick_stages due (stages m)).1, h2, h3]

theorem ipOf_ticked (due : LTime) (m : Mach) (p : Nat) :
    ipOf (ticked due m) p = { ipOf (stages m) p with latencyPs := (ipOf (stages m) p).nextLatPs } :=
  (ipOf_of_bench (bench_ticked due m) p).trans ((noteTick_stages due (stages m)).2.2.2 p)

theorem advanced_ticked (due : LTime) (m : Mach) : (m.ctl.tickCount = 0 → (ticked due m).fab.batches = [] ∧ (ticked due m).fab.judgeObjs = []) ∧
    (m.ctl.tickCount ≠ 0 → (∀ b ∈ (ticked due m).fab.batches, b.tick = m.ctl.tickCount - 1) ∧
      (∀ o ∈ (ticked due m).fab.judgeObjs, o.tick = m.ctl.tickCount - 1) ∧ ∀ p : Fin 16, (ipOf (ticked due m) p).prep = []) := by
  have h := advanced_stages m
  obtain ⟨-, n1, n2, -⟩ := noteTick_stages due (stages m)
  have h1 : (ticked due m).fab.batches = (stages m).fab.batches := (batches_of_bench (bench_ticked due m)).trans n1
  have h2 : (ticked due m).fab.judgeObjs = (stages m).fab.judgeObjs := (judgeObjs_of_bench (bench_ticked due m)).trans n2
  rw [h1, h2]
  refine ⟨h.first, fun hz => ?_⟩
  obtain ⟨a, b, c⟩ := h.later hz
  exact ⟨a, b, fun p => by rw [ipOf_ticked]; exact c p p.isLt⟩

/-- The lines of a camera port at the boundary. -/
theorem ticked_port (due : LTime) {m : Mach} (p : Fin 16) (hc : cameraPort m p = true) (ha : m.ctl.align = false) :
    let x := ipOf m p
    let n := swathLen m p
    let first := m.ctl.tickCount.toNat * n
    (m.ctl.drain = true → (ipOf (ticked due m) p).recent = [] ∧ (ipOf (ticked due m) p).fill = x.fill) ∧
    (m.ctl.drain = false → first + n + x.fill.length < 2 ^ 32 → x.lineCount.toNat = first + x.fill.length →
      x.fill.map (fun l => l.lineNo) = (List.range x.fill.length).map (fun i => BitVec.ofNat 32 (first + i)) →
      (ipOf (ticked due m) p).drain.map (fun l => l.lineNo) = (List.range n).map (fun i => BitVec.ofNat 32 (first + i)) ∧
      (∀ l ∈ (ipOf (ticked due m) p).drain, l.closed = true) ∧ (ipOf (ticked due m) p).fill = x.fill.drop n) := by
  obtain ⟨u, hu, h1, h2, h3⟩ := stages_port p.isLt hc
  have hg : u.cfg = m.cfg := fixed_cfg hu
  have hx : u.ctl = m.ctl := fixed_ctl hu
  have hn : swathLen u p = swathLen m p := by simp [swathLen, camOf, hg]
  have hw : swathNow u = m.ctl.tickCount.toNat := by simp [swathNow, hx, ha]
  intro x n first
  rw [ipOf_ticked, h3]
  refine ⟨fun hd => ?_, fun hd hlt hlc hl => ?_⟩
  · rw [if_pos hd]
    exact ⟨rfl, h1⟩
  · rw [if_neg (by simp [hd])]
    have hres := closePort_lines (m := u) (p := p) (first := first) (n := n) hn (by rw [hw]) (by rw [h1]; exact hlt) (by rw [h1, h2]; exact hlc)
      (by rw [h1]; exact hl)
    rw [h1] at hres
    exact hres

theorem progs_emptied {m : Mach} (c : Nat) : (ctxOf (emptied m) c).program = (ctxOf m c).program := by
  unfold ctxOf emptied setFab
  dsimp only
  generalize m.fab.ctxs = xs
  induction xs with
  | nil => rfl
  | cons x xs ih =>
    rw [List.map_cons, tget, tget]
    split
    · rfl
    · exact ih

/-- What an object in Judge gives its decision once its swath is ejected. -/
theorem decideObj_emptied (m : Mach) (o : ObjRec) : decideObj (emptied (endJudge (swapBoundary m))) o = decideObj m o := by
  have hp := (endJudge_facts m).2.2.2.1
  have hc : (emptied (endJudge (swapBoundary m))).cfg = m.cfg := cfg_of_fixed (by simp)
  exact decideObj_congr hc (fun c => (progs_emptied c).trans (congrArg Ctx.program (congrFun hp c) :)) o

theorem decideObj_scrubbed (m : Mach) (o : ObjRec) (h : o.status = 0x40) : (decideObj m o).1 = 0 := by simp [decideObj, h]

theorem decideObj_status {m : Mach} {o : ObjRec} (h0 : o.status ≠ 0) (h40 : o.status ≠ 0x40) (hf : o.flags.getLsbD 4 = false) :
    decideObj m o = (m.cfg.machine.defaultAct, o.status, 0, 0xFFFF) := by
  unfold decideObj
  dsimp only
  rw [if_neg h40, hf, if_neg (by decide), if_pos h0]

/-- A decision after the tick is an old one, or one of an object judged, with the action that its status gives. -/
theorem ticked_decision {due : LTime} {m : Mach} {d : Decision} (hd : d ∈ (ticked due m).eject.decisions) : (∃ e ∈ m.eject.decisions, e.id = d.id) ∨
    (d.obj ∈ ejectedObjs m ∧ d.action = (decideObj m d.obj).1) := by
  rw [ticked_eject] at hd
  rcases (ejected_ejectedAt m).old d hd with ⟨e, he, hi, -⟩ | ⟨ho, ha⟩
  · rw [emptied_eject, (endJudge_facts m).1] at he
    exact .inl ⟨e, he, hi⟩
  · rw [decideObj_emptied] at ha
    exact .inr ⟨ho, ha⟩

theorem ticked_decision_judged {due : LTime} {m : Mach} {d : Decision} (hd : d ∈ (ticked due m).eject.decisions) :
    (∃ e ∈ m.eject.decisions, e.id = d.id) ∨
    ((∃ o ∈ m.fab.judgeObjs, formsDecision m o = true ∧ d.obj.tick = o.tick ∧ d.obj.index = o.index) ∧
     (d.obj.status = 0x40 → d.action = 0) ∧
     (d.obj.status ≠ 0 → d.obj.status ≠ 0x40 → d.obj.flags.getLsbD 4 = false → d.action = m.cfg.machine.defaultAct)) := by
  refine (ticked_decision hd).imp id fun ⟨ho, ha⟩ => ?_
  obtain ⟨o, hm, hf, ⟨s, r, hx⟩, -⟩ := ejectedObjs_of_mem ho
  refine ⟨⟨o, hm, hf, by rw [hx], by rw [hx]⟩, fun h => by rw [ha, decideObj_scrubbed m _ h], fun h0 h40 h4 => by rw [ha, decideObj_status h0 h40 h4]⟩

/-- The objects of a batch that is not done have a status (R17). -/
theorem ticked_decision_late {due : LTime} {m : Mach} {b : Batch} (hb : b ∈ m.fab.batches) (ha : b.abandoned = 0)
    (hn : batchDone m b.context b = false) {d : Decision} (hd : d ∈ (ticked due m).eject.decisions) (hnew : ∀ e ∈ m.eject.decisions, e.id ≠ d.id)
    (hc : d.obj.context = b.context) (ho : d.obj.batch = b.no) : d.obj.status ≠ 0 := by
  rcases ticked_decision hd with ⟨e, he, hi⟩ | ⟨hm, -⟩
  · exact absurd hi (hnew e he)
  · obtain ⟨o, -, -, ⟨s, r, hx⟩, hl⟩ := ejectedObjs_of_mem hm
    refine hl b (List.mem_filter.mpr ⟨hb, by simp [ha, hn]⟩) ?_ ?_
    · rw [← hc, hx]
    · rw [← ho, hx]

theorem ejectedObjs_length (m : Mach) : (ejectedObjs m).length ≤ m.fab.judgeObjs.length := by
  unfold ejectedObjs
  dsimp only
  rw [List.length_map]
  refine (List.length_filter_le _ _).trans ?_
  rw [(endJudge_facts m).2.2.2.2, List.length_map]

/-- With room for its fires a late object takes the default action, and its valves have their fires (R17, R370, R372). -/
theorem ticked_decision_default {due : LTime} {m : Mach} (hroom : m.eject.fires.length + m.fab.judgeObjs.length * m.cfg.valve.valves.length < 65536)
    (hdef : m.cfg.machine.defaultAct ≠ 0) {o : ObjRec} (ho : o ∈ m.fab.judgeObjs) (hf : formsDecision m o = true) (hs : o.status = 0x31)
    (h4 : o.flags.getLsbD 4 = false) (h1 : (ctxOf m o.context).st ≠ .scrubbing) (h2 : (ctxOf m o.context).scrubbed = false)
    (h3 : splitWaits (ctxOf m o.context) = false) (hv : selectValves m o m.cfg.machine.defaultAct ≠ []) :
    ∃ d ∈ (ticked due m).eject.decisions, d.obj = o ∧ d.action = m.cfg.machine.defaultAct ∧ d.status = 0x31 ∧
      ∃ f ∈ (ticked due m).eject.fires, d.id ∈ f.decs := by
  have hmem := mem_ejectedObjs ho hf (by rw [hs]; decide) h1 h2 h3
  have hdec : decideObj (emptied (endJudge (swapBoundary m))) o = (m.cfg.machine.defaultAct, 0x31, 0, 0xFFFF) := by
    rw [decideObj_emptied, decideObj_status (by rw [hs]; decide) (by rw [hs]; decide) h4, hs]
  have hg : (emptied (endJudge (swapBoundary m))).cfg = m.cfg := cfg_of_fixed (by simp)
  have hej : (emptied (endJudge (swapBoundary m))).eject = m.eject := (emptied_eject _).trans (endJudge_facts m).1
  have hval : objValves (emptied (endJudge (swapBoundary m))) o ≠ [] := by
    simp only [objValves, hdec, selectValves_congr hg]
    rwa [if_neg hdef]
  have hlen := Nat.mul_le_mul_right m.cfg.valve.valves.length (ejectedObjs_length m)
  obtain ⟨d, hd, e1, e2, e3, f, hf, hi⟩ := objDecision_mem_forEach (ejectedObjs m) (by rw [hej, hg]; omega) hmem hval
  rw [hdec] at e2 e3
  rw [ticked_eject]
  exact ⟨d, hd, e1, e2, e3, f, hf, hi⟩

/-! ### Operations that touch no register -/

@[simp] theorem ite_regs (c : Prop) [Decidable c] (a b : Mach) : (if c then a else b).regs = if c then a.regs else b.regs := apply_ite Mach.regs c a b

@[simp] theorem forEach_regs {α : Type} (xs : List α) (m : Mach) (f : Mach → α → Mach) (h : ∀ m x, (f m x).regs = m.regs) :
    (forEach xs m f).regs = m.regs := by
  unfold forEach
  induction xs generalizing m with
  | nil => rfl
  | cons x xs ih => rw [List.foldl_cons, ih, h]

@[simp] theorem setCmd_regs (m : Mach) (q seq : Nat) (f : Cmd → Cmd) : (setCmd m q seq f).regs = m.regs := by simp [setCmd]
@[simp] theorem setUnits_regs (m : Mach) (c : Cmd) (h : Option (Nat × Nat)) : (setUnits m c h).regs = m.regs := by simp [setUnits]
@[simp] theorem addEngine_regs (m : Mach) (c : Cmd) : (addEngine m c).regs = m.regs := by simp [addEngine]
@[simp] theorem leaveUnits_regs (m : Mach) (c : Cmd) : (leaveUnits m c).regs = m.regs := by simp [leaveUnits]
@[simp] theorem stopRun_regs (m : Mach) (c : Cmd) : (stopRun m c).regs = m.regs := by simp [stopRun]
@[simp] theorem sendSeq_regs (m : Mach) (p : Nat) (f : BitVec 256) : (sendSeq m p f).regs = m.regs := by simp [sendSeq]

@[simp] theorem pumpFlits_regs (fs : List (BitVec 256)) (m : Mach) (p : Nat) : (pumpFlits fs m p).regs = m.regs := by
  induction fs generalizing m with
  | nil => rfl
  | cons f fs ih => simp [pumpFlits, ih]

@[simp] theorem startWrite_regs (m : Mach) (p : Nat) (w : OutWrite) : (startWrite m p w).regs = m.regs := by simp [startWrite]
@[simp] theorem pump_regs (m : Mach) (p : Nat) : (pump m p).regs = m.regs := by simp [pump]

@[simp] theorem queueWrite_regs (m : Mach) (p window gen offset : Nat) (data : List Byte) (q seq : Nat) (tick : Option (BitVec 48)) :
    (queueWrite m p window gen offset data q seq tick).regs = m.regs := by
  simp [queueWrite]

@[simp] theorem openWindow_regs (m : Mach) (i owner p : Nat) (granary : Bool) (t baseKib sizeKib : Nat) :
    (openWindow m i owner p granary t baseKib sizeKib).regs = m.regs := by
  simp [openWindow]

@[simp] theorem closeWindow_regs (m : Mach) (i : Nat) : (closeWindow m i).regs = m.regs := by simp [closeWindow]

@[simp] theorem openPeer_regs (m : Mach) (c : Nat) (d : PeerDecl) : (openPeer m c d).regs = m.regs := by
  unfold openPeer
  dsimp only
  split <;> simp

@[simp] theorem sendGrant_regs (m : Mach) (c : Nat) (q : Program) (d : PeerDecl) : (sendGrant m c q d).regs = m.regs := by
  unfold sendGrant
  split <;> simp

@[simp] theorem grantAll_regs (m : Mach) (c : Nat) (reopen : Bool) : (grantAll m c reopen).regs = m.regs := by
  unfold grantAll
  split <;> simp

@[simp] theorem startProg_regs (m : Mach) : (startProg m).regs = m.regs := by simp [startProg]
@[simp] theorem startPort_regs (m : Mach) (p : Nat) : (startPort m p).regs = m.regs := by simp [startPort]
@[simp] theorem setOrigin_regs (m : Mach) : (setOrigin m).regs = m.regs := by simp [setOrigin]
@[simp] theorem killLc_regs (m : Mach) : (killLc m).regs = m.regs := by simp [killLc]

@[simp] theorem clearPipeline_regs (m : Mach) : (clearPipeline m).regs = m.regs := by
  unfold clearPipeline
  rw [forEach_regs _ _ _ fun _ _ => setIp_regs _ _ _, setFab_regs, killLc_regs]

/-! ### Registers that the way out of the pipeline writes -/

/-- A field reads the same where its word is kept. -/
theorem rd_of_regsKeep {but : List Nat} {m t : Mach} (h : RegsKeep but m t) (g : Fld) (j : Nat) (hb : g.addr j ∉ but)
    (hr : g.addr j < 0x11000 ∨ 0x11080 ≤ g.addr j) : rd t g j = rd m g j := by
  unfold rd
  rw [h _ _ hb hr]

theorem regsKeep_forEach {but : List Nat} {α : Type} (xs : List α) (m : Mach) (f : Mach → α → Mach) (h : ∀ m x, RegsKeep but m (f m x)) :
    RegsKeep but m (forEach xs m f) := by
  unfold forEach
  induction xs generalizing m with
  | nil => exact regsKeep_refl but m
  | cons x xs ih => exact regsKeep_trans (h m x) (ih _)

/-- The registers of the flash that a record or an audit entry may write. -/
def flashRegs : List Nat := [F.FLS_CNT_AUDIT_LOST.addr 0, F.FLS_EVENT_LOST.addr 0, F.FLS_CNT_LOST.addr 0]

theorem regsKeep_audit (m : Mach) (type ctx : Nat) (pl : List Byte) : RegsKeep flashRegs m (audit m type ctx pl) := by
  unfold audit
  split
  · exact regsKeep_inc _ _ (by decide) (regsKeep_refl _ m)
  · exact regsKeep_of_regs ((startProg_regs _).trans (setFlash_regs _ _))

theorem regsKeep_putReject (m : Mach) (objDec : List Byte) (ctx : Nat) (conf : Bool) (crop tail : List Byte) :
    RegsKeep flashRegs m (putReject m objDec ctx conf crop tail) := by
  have hr : RegsKeep flashRegs m (raiseCount m F.FLS_EVENT_LOST F.FLS_CNT_LOST 0) :=
    regsKeep_inc _ _ (by decide) (regsKeep_raiseAs _ _ _ _ (by decide) (by decide) (regsKeep_refl _ m))
  unfold putReject
  extract_lets bucket wanted skip kept flags rec_
  split
  · exact regsKeep_refl _ m
  · split
    · exact regsKeep_trans hr (regsKeep_of_regs (setFlash_regs _ _))
    · exact regsKeep_of_regs ((startProg_regs _).trans (setFlash_regs _ _))

/-- The registers that the ejector's records and drops may write. -/
def ejectRegs : List Nat := F.EJC_EVENT_DROPPED.addr 0 :: F.EJC_CNT0_DROPPED.addr 0 :: flashRegs

theorem regsKeep_more {but more : List Nat} {m t : Mach} (h : RegsKeep but m t) (hs : ∀ a ∈ but, a ∈ more) : RegsKeep more m t :=
  fun rst a ha hr => h rst a (fun hb => ha (hs a hb)) hr

theorem regsKeep_finalize (m : Mach) (d : Decision) : RegsKeep ejectRegs m (finalize m d) := by
  unfold finalize
  dsimp only
  split
  · exact regsKeep_trans (regsKeep_of_regs (setEject_regs _ _)) (regsKeep_more (regsKeep_putReject _ _ _ _ _ _) (by decide))
  · exact regsKeep_of_regs (setEject_regs _ _)

theorem regsKeep_finalizeDone (m : Mach) (ids : List Nat) : RegsKeep ejectRegs m (finalizeDone m ids) :=
  regsKeep_forEach _ _ _ fun m d => by
    split
    · exact regsKeep_refl _ m
    · exact regsKeep_finalize m d

theorem regsKeep_missFire (m : Mach) (f : Fire) (k : Nat) : RegsKeep ejectRegs m (missFire m f k) :=
  regsKeep_trans (regsKeep_of_regs ((setEject_regs _ _).trans (setEject_regs _ _))) (regsKeep_finalizeDone _ _)

theorem regsKeep_dropFire (m : Mach) (f : Fire) : RegsKeep ejectRegs m (dropFire m f) :=
  regsKeep_trans (regsKeep_inc _ _ (by decide) (regsKeep_raiseAs _ _ _ _ (by decide) (by decide) (regsKeep_refl _ m))) (regsKeep_missFire _ _ _)

theorem regsKeep_dropAllFires (m : Mach) : RegsKeep ejectRegs m (dropAllFires m) :=
  regsKeep_trans (regsKeep_forEach _ _ _ fun m f => regsKeep_dropFire m f) (regsKeep_of_regs (setEject_regs _ _))

theorem regsKeep_abandonObj (m : Mach) (o : ObjRec) : RegsKeep ejectRegs m (abandonObj m o) :=
  regsKeep_trans (regsKeep_of_regs (setEject_regs _ _)) (regsKeep_finalize _ _)

theorem regsKeep_enter {but : List Nat} (m : Mach) (n : ModState) (h : F.GEN_EVENT_STATE_CHANGE.addr 0 ∈ but) : RegsKeep but m (enter m n) := by
  unfold enter
  split
  · exact regsKeep_refl _ m
  · exact regsKeep_raiseAs _ _ _ _ h (by decide) (regsKeep_of_regs rfl)

theorem regsKeep_leavePipeline (m : Mach) : RegsKeep (F.GEN_EVENT_STATE_CHANGE.addr 0 :: ejectRegs) m (leavePipeline m) := by
  unfold leavePipeline
  extract_lets os m1 m2 m3
  have h1 : RegsKeep ejectRegs m m1 := by
    simp only [m1]
    split
    · exact regsKeep_dropAllFires m
    · exact regsKeep_refl _ m
  have h2 : RegsKeep ejectRegs m1 m2 := regsKeep_forEach _ _ _ fun m o => regsKeep_abandonObj m o
  have h3 : RegsKeep ejectRegs m2 m3 := regsKeep_of_regs ((setEnc_regs _ _ _).trans (clearPipeline_regs _))
  have h := regsKeep_more (more := F.GEN_EVENT_STATE_CHANGE.addr 0 :: ejectRegs) (regsKeep_trans h1 (regsKeep_trans h2 h3)) (by simp +contextual)
  exact regsKeep_trans h (regsKeep_trans (regsKeep_enter _ _ (by simp)) (regsKeep_of_regs (setCtl_regs _ _)))

/-! ### Out of the pipeline (R23, R28) -/

theorem forEach_fab {α : Type} (xs : List α) (m : Mach) (f : Mach → α → Mach) (h : ∀ m x, (f m x).fab = m.fab) : (forEach xs m f).fab = m.fab := by
  unfold forEach
  induction xs generalizing m with
  | nil => rfl
  | cons x xs ih => rw [List.foldl_cons, ih, h]

/-- The pipeline's contents are gone. -/
theorem clearPipeline_stages (m : Mach) : (clearPipeline m).fab.batches = [] ∧ (clearPipeline m).fab.judgeObjs = [] ∧
    (clearPipeline m).fab.openObjs = [] := by
  unfold clearPipeline
  rw [forEach_fab _ _ _ fun _ _ => setIp_fab _ _ _]
  exact ⟨rfl, rfl, rfl⟩

/-- A module that leaves the pipeline is in CONFIGURED with the pipeline empty; time and configuration stay. -/
theorem leavePipeline_facts {m : Mach} (h : m.ctl.st ≠ .configured) : (leavePipeline m).ctl.st = .configured ∧ (leavePipeline m).ctl.prev = m.ctl.st ∧
    (leavePipeline m).fab.batches = [] ∧ (leavePipeline m).fab.openObjs = [] ∧ (leavePipeline m).time = m.time ∧ (leavePipeline m).cfg = m.cfg ∧
    (leavePipeline m).fuses = m.fuses ∧ (leavePipeline m).nor = m.nor := by
  unfold leavePipeline
  extract_lets os m1 m2 m3
  have h1 : fixed m1 = fixed m := by
    simp only [m1]
    split <;> simp
  have h2 : fixed m2 = fixed m := (fixed_forEach _ _ _ fun m o => fixed_abandonObj m o).trans h1
  have h3 : fixed (clearPipeline m2) = fixed m := (fixed_clearPipeline m2).trans h2
  have hf : m3.fab = (clearPipeline m2).fab := setEnc_fab _ _ _
  have hc : m3.ctl = m.ctl := (setEnc_ctl _ _ _).trans (ctl_of_fixed h3)
  have hx : fixed m3 = { fixed m with enc := tmod {} (fixed m).enc (master m2) (fun e => { e with held := none }) } :=
    (fixed_setEnc _ _ _).trans (by rw [h3])
  have hcl := clearPipeline_stages m2
  clear_value m3
  have hn : m3.ctl.st ≠ .configured := by rwa [hc]
  have he := fixed_enter_ne hn
  rw [hx, hc] at he
  have het : (enter m3 .configured).fab = m3.fab := enter_fab _ _
  generalize enter m3 .configured = u at he het ⊢
  have hu : u.ctl = { m.ctl with st := .configured, prev := m.ctl.st } := fixed_ctl he
  refine ⟨by rw [setCtl_ctl, hu], by rw [setCtl_ctl, hu], ?_, ?_, fixed_time he, fixed_cfg he, fixed_fuses he, fixed_nor he⟩
  · rw [setCtl_fab, het, hf, hcl.1]
  · rw [setCtl_fab, het, hf, hcl.2.2]

/-! ### MACHINE_READY (R22, R72) -/

theorem regsKeep_confirmSlot (m : Mach) :
    RegsKeep (F.GEN_BOOT_STATUS_CONFIRMED.addr 0 :: F.GLM_MEAS_GEN_GEN.addr 0 :: flashRegs) m (confirmSlot m) := by
  have ha : ∀ (t : Mach) (type ctx : Nat) (pl : List Byte),
      RegsKeep (F.GEN_BOOT_STATUS_CONFIRMED.addr 0 :: F.GLM_MEAS_GEN_GEN.addr 0 :: flashRegs) t (audit t type ctx pl) :=
    fun t type ctx pl => regsKeep_more (regsKeep_audit t type ctx pl) (by simp +contextual)
  have hm : ∀ t : Mach, RegsKeep (F.GEN_BOOT_STATUS_CONFIRMED.addr 0 :: F.GLM_MEAS_GEN_GEN.addr 0 :: flashRegs) t (measureFuses t) := by
    intro t
    unfold measureFuses
    dsimp only
    split
    · exact regsKeep_refl _ t
    · exact regsKeep_wr _ _ _ (by decide) (regsKeep_of_regs (setGlume_regs _ _))
  have hf : ∀ (t : Mach) (k : Nat) (v : Word) (r : Bool) (g : Fuses → Fuses),
      RegsKeep (F.GEN_BOOT_STATUS_CONFIRMED.addr 0 :: F.GLM_MEAS_GEN_GEN.addr 0 :: flashRegs) t (fuseLedger t k v r g) :=
    fun t k v r g => regsKeep_trans (regsKeep_trans (regsKeep_of_regs (setFuses_regs _ _)) (ha _ _ _ _)) (hm _)
  have hb : ∀ (t : Mach) (i : Image), (backupImage t i).regs = t.regs := by
    intro t i
    unfold backupImage
    split
    · rfl
    · exact setFlash_regs _ _
  unfold confirmSlot
  split
  · exact regsKeep_refl _ m
  · extract_lets n b fell conf m1 m2 m3
    split
    · exact regsKeep_refl _ m
    · have h2 : RegsKeep (F.GEN_BOOT_STATUS_CONFIRMED.addr 0 :: F.GLM_MEAS_GEN_GEN.addr 0 :: flashRegs) m m2 :=
        regsKeep_wr _ _ _ (by decide) (regsKeep_of_regs (setNor_regs _ _))
      have h3 : RegsKeep (F.GEN_BOOT_STATUS_CONFIRMED.addr 0 :: F.GLM_MEAS_GEN_GEN.addr 0 :: flashRegs) m2 m3 := by
        simp only [m3]
        split
        · exact hf _ _ _ _ _
        · exact regsKeep_refl _ _
      exact regsKeep_trans (regsKeep_trans h2 h3) (regsKeep_trans (ha _ _ _ _) (regsKeep_of_regs (hb _ _)))

theorem fixed_fuseLedger (m : Mach) (kind : Nat) (v : Word) (recovered : Bool) (f : Fuses → Fuses) :
    ∃ g, fixed (fuseLedger m kind v recovered f) = { fixed m with fuses := g } := by
  unfold fuseLedger
  exact ⟨_, by rw [fixed_measureFuses, fixed_audit, fixed_setFuses]⟩

/-- The confirmation of a slot writes fuses and the boot control block (R66, R72, R427), and nothing else that is fixed. -/
theorem fixed_confirmSlot (m : Mach) : ∃ f n, fixed (confirmSlot m) = { fixed m with fuses := f, nor := n } := by
  have hs : ∃ f n, fixed m = { fixed m with fuses := f, nor := n } := ⟨m.fuses, m.nor, rfl⟩
  unfold confirmSlot
  split
  · exact hs
  · extract_lets n b fell conf m1 m2 m3
    split
    · exact hs
    · have h2 : ∃ f n, fixed m2 = { fixed m with fuses := f, nor := n } := ⟨m.fuses, _, (fixed_wr _ _ _ _).trans (fixed_setNor _ _)⟩
      have h3 : ∃ f n, fixed m3 = { fixed m with fuses := f, nor := n } := by
        obtain ⟨f, n, h2⟩ := h2
        simp only [m3]
        split
        · obtain ⟨g, hg⟩ := fixed_fuseLedger m2 3 (BitVec.ofNat 32 m2.cfg.rollback) false (fun f => { f with rollback := m2.cfg.rollback })
          exact ⟨g, n, hg.trans (by rw [h2])⟩
        · exact ⟨f, n, h2⟩
      obtain ⟨f, n, h3⟩ := h3
      exact ⟨f, n, by rw [fixed_backupImage, fixed_audit, h3]⟩

theorem fab_setOrigin (m : Mach) : (setOrigin m).fab = m.fab := by
  unfold setOrigin
  exact (forEach_fab _ _ _ fun _ _ => setIp_fab _ _ _).trans (setTrig_fab _ _)

/-- MACHINE_READY is entered from CONFIGURED with a pipeline that is empty and a count of 0 (R22, R28). -/
theorem machineReady_facts {m : Mach} (h : readyConditions m = true) :
    (machineReady m).ctl.st = .machineReady ∧ (machineReady m).ctl.prev = .configured ∧
    (machineReady m).ctl.tickCount = 0 ∧ (machineReady m).ctl.lastTick = none ∧ (machineReady m).fab.batches = [] ∧
    (machineReady m).fab.judgeObjs = [] ∧ (machineReady m).fab.openObjs = [] ∧ rd (machineReady m) F.GEN_EVENT_STATE_CHANGE 0 = 1 ∧
    rd (machineReady m) F.GEN_TICK_PERIOD_PERIOD_NS 0 = 0 ∧ (machineReady m).time = m.time ∧ (machineReady m).cfg = m.cfg := by
  have hst : m.ctl.st = .configured := by
    simp only [readyConditions, Bool.and_eq_true, beq_iff_eq] at h
    obtain ⟨⟨⟨⟨⟨⟨⟨h, -⟩, -⟩, -⟩, -⟩, -⟩, -⟩, -⟩ := h
    exact h
  unfold machineReady
  rw [h]
  rw [if_neg (by decide)]
  extract_lets before m1 m2 m3 m4 m5 m6
  have he := fixed_enter_ne (m := m) (n := .machineReady) (by rw [hst]; decide)
  have hev : rd (enter m .machineReady) F.GEN_EVENT_STATE_CHANGE 0 = 1 := by
    unfold enter
    rw [if_neg (by rw [hst]; decide)]
    exact rd_raiseAs_same _ _ _ _ _ (by decide) rfl (by decide)
  obtain ⟨c1, c2, c3⟩ := clearPipeline_stages (enter m .machineReady)
  have f1 : fixed m1 = { fixed m with ctl := { m.ctl with st := .machineReady, prev := m.ctl.st } } := (fixed_clearPipeline _).trans he
  have r1 : m1.regs = (enter m .machineReady).regs := clearPipeline_regs _
  have b1 : m1.fab.batches = [] ∧ m1.fab.judgeObjs = [] ∧ m1.fab.openObjs = [] := ⟨c1, c2, c3⟩
  clear_value m1
  have f2 : fixed m2 = { fixed m1 with ctl := { (fixed m1).ctl with
      tickCount := 0, lastTick := none, drain := false, drainLeft := 0, realignDue := false, reqTick := 0
      resets := (fixed m1).ctl.resets.map (fun r => { r with tick := 0 }) } } := fixed_setCtl _ _
  have x2 : m2.regs = m1.regs ∧ m2.fab = m1.fab := ⟨setCtl_regs _ _, setCtl_fab _ _⟩
  clear_value m2
  have f3 : fixed m3 = fixed m2 := (fixed_setIsp _ _).trans (fixed_setChaff _ _)
  have x3 : m3.regs = m2.regs ∧ m3.fab = m2.fab := ⟨(setIsp_regs _ _).trans (setChaff_regs _ _), (setIsp_fab _ _).trans (setChaff_fab _ _)⟩
  clear_value m3
  have f4 : fixed m4 = fixed m3 := (fixed_setOrigin _).trans (fixed_wr _ _ _ _)
  have x4 : m4.regs = (wr m3 F.GEN_TICK_PERIOD_PERIOD_NS 0 0).regs ∧ m4.fab = m3.fab := ⟨setOrigin_regs _, (fab_setOrigin _).trans (wr_fab _ _ _ _)⟩
  clear_value m4
  have f5 : fixed m5 = fixed m4 := fixed_setFab _ _
  have x5 : m5.regs = m4.regs ∧ bench m5 = bench m4 := ⟨setFab_regs _ _, bench_setFab _ _ rfl rfl rfl rfl rfl⟩
  clear_value m5
  have f6 : fixed m6 = fixed m5 := fixed_forEach _ _ _ fun m c => fixed_grantAll m c false
  have x6 : m6.regs = m5.regs ∧ bench m6 = bench m5 := ⟨forEach_regs _ _ _ fun m c => grantAll_regs m c false,
      bench_forEach _ _ _ fun m c => bench_grantAll m c false⟩
  clear_value m6
  obtain ⟨fu, no, f7⟩ := fixed_confirmSlot m6
  have r7 := regsKeep_confirmSlot m6
  have b7 : bench (confirmSlot m6) = bench m4 := (bench_confirmSlot m6).trans (x6.2.trans x5.2)
  generalize confirmSlot m6 = t at f7 r7 b7 ⊢
  rw [f6, f5, f4, f3, f2, f1] at f7
  have hfab : m4.fab = m1.fab := x4.2.trans (x3.2.trans x2.2)
  have hregs : m6.regs = (wr m3 F.GEN_TICK_PERIOD_PERIOD_NS 0 0).regs := x6.1.trans (x5.1.trans x4.1)
  have hctl : t.ctl = _ := fixed_ctl f7
  refine ⟨by rw [hctl], by rw [hctl]; exact hst, by rw [hctl], by rw [hctl], ?_, ?_, ?_, ?_, ?_, fixed_time f7, fixed_cfg f7⟩
  · rw [batches_of_bench b7, hfab, b1.1]
  · rw [judgeObjs_of_bench b7, hfab, b1.2.1]
  · rw [openObjs_of_bench b7, hfab, b1.2.2]
  · rw [rd_of_regsKeep r7 _ _ (by decide) (by decide), rd_congr hregs, rd_wr_ne _ _ _ _ _ _ (by decide), rd_congr (x3.1.trans (x2.1.trans r1)), hev]
  · rw [rd_of_regsKeep r7 _ _ (by decide) (by decide), rd_congr hregs, rd_wr_same _ _ _ _ (by decide)]
    rfl

/-! ### The master's loss (R117) -/

/-- Following the master and the position touches encoders, of what is fixed. -/
theorem fixed_refresh (m : Mach) : ∃ e, fixed (refresh m) = { fixed m with enc := e } := by
  have hs : ∃ e, fixed m = { fixed m with enc := e } := ⟨m.enc, rfl⟩
  unfold refresh masterCheck
  rw [fixed_advanceHigh]
  split
  · exact hs
  · extract_lets e
    split
    · split
      · exact ⟨_, (fixed_raise _ _ _).trans (fixed_setEnc _ _ _)⟩
      · exact hs
    · split
      · exact ⟨_, fixed_setEnc _ _ _⟩
      · exact hs

theorem refresh_facts (m : Mach) : (refresh m).ctl = m.ctl ∧ (refresh m).time = m.time ∧ (refresh m).cfg = m.cfg := by
  obtain ⟨e, h⟩ := fixed_refresh m
  exact ⟨fixed_ctl h, fixed_time h, fixed_cfg h⟩

theorem ticking_congr {m t : Mach} (h : t.ctl.st = m.ctl.st) : ticking t = ticking m := by simp [ticking, pipelineOn, h]

/-- A master in holdover for HOLD_MS is lost. -/
theorem masterExpired_lost {m : Mach} (ht : ticking m = true) (hf : freeRun m = false) (hh : (encOf (refresh m) (master m)).held.isSome = true)
    (hl : lessSince m.time.now (encOf (refresh m) (master m)).heldFrom (m.cfg.machine.holdMs * 1000000) = false) :
    masterExpired m = leavePipeline (raise (refresh m) F.ENC_EVENT_LOST (master m)) := by
  obtain ⟨hc, htm, hg⟩ := refresh_facts m
  have h1 : ticking (refresh m) = true := (ticking_congr (congrArg Ctl.st hc)).trans ht
  have h2 : freeRun (refresh m) = false := by rw [freeRun, hg]; exact hf
  have h3 : master (refresh m) = master m := by rw [master, hg, master]
  have h4 : (encOf (refresh m) (master m)).held.isNone = false := by
    rw [← Option.not_isSome, hh]
    rfl
  unfold masterExpired
  dsimp only
  rw [h3, h1, h2, h4, htm, hg, hl]
  rfl

/-- Nothing is lost with the time base in no holdover and the master's position followed (R27). -/
theorem applyLosses_none {m : Mach} (ht : timeHoldover m = false) (h : freeRun m = true ∨ (encOf (refresh m) (master m)).held = none) :
    applyLosses m = refresh m := by
  have h1 : holdExpired m = m := by simp [holdExpired, ht]
  have hg := (refresh_facts m).2.2
  have h2 : freeRun (refresh m) = freeRun m := by rw [freeRun, hg, freeRun]
  have h3 : master (refresh m) = master m := by rw [master, hg, master]
  unfold applyLosses masterExpired
  rw [h1]
  dsimp only
  rw [h2, h3]
  rcases h with h | h <;> simp [h]

/-- The event of the lost master stands after the pipeline is left. -/
theorem rd_lost_leavePipeline (m : Mach) (k : Nat) : rd (leavePipeline (raise m F.ENC_EVENT_LOST k)) F.ENC_EVENT_LOST k = 1 := by
  have ha : F.ENC_EVENT_LOST.addr k = 0xc8024 + 64 * k := rfl
  have hv : vectorOf F.ENC_EVENT_LOST k = 19 := rfl
  rw [rd_of_regsKeep (regsKeep_leavePipeline _)]
  · exact rd_raiseAs_same _ _ _ _ _ (by decide) rfl (by rw [ha, hv, pbaAddr]; omega)
  · rw [ha]
    simp only [ejectRegs, flashRegs, Fld.addr, F.GEN_EVENT_STATE_CHANGE, F.EJC_EVENT_DROPPED, F.EJC_CNT0_DROPPED, F.FLS_CNT_AUDIT_LOST,
      F.FLS_EVENT_LOST, F.FLS_CNT_LOST, List.mem_cons, List.not_mem_nil, not_or, Nat.mul_zero, Nat.add_zero, or_false]
    omega
  · rw [ha]
    omega

/-! ### The statement O25 -/

/-- A tick that is not due moves nothing on. -/
theorem swathTick_idle {m0 m : Mach} (e : refresh (applyLosses m0) = m) (ha : m.ctl.align = false) (h : tickDue m = none ∨ ticking m = false) :
    swathTick m0 = m := by
  unfold swathTick
  simp only [e, ha]
  cases hd : tickDue m with
  | none => simp
  | some t =>
    have ht : ticking m = false := h.resolve_left (by simp [hd])
    simp [ht]

/-- What is fixed after a tick that is due, and the state that it decides. -/
theorem ticked_state {due : LTime} {n m t : Mach} (e : t = settle n (ticked due m)) :
    t.ctl.tickCount = m.ctl.tickCount + 1 ∧ t.ctl.lastTick = some due ∧ t.time = m.time ∧ t.fuses = m.fuses ∧ t.cfg = m.cfg ∧
      (m.ctl.st = .machineReady → t.ctl.st = if tillersIn t && !outOfService t then .running else .degraded) ∧
      (pipelineOn m = true → t.ctl.st = .running ∨ t.ctl.st = .degraded) := by
  obtain ⟨st, p, d, h⟩ := fixed_ticked due m
  have hc : (ticked due m).ctl = _ := fixed_ctl h
  have hb := bench_ticked_tickDone due m
  have hd := fixed_tickDone due m
  have hdc : (tickDone due m).ctl = _ := fixed_ctl hd
  have hst : (ticked due m).ctl = (decideState (tickDone due m)).ctl := ctl_of_fixed (by rw [ticked, fixed_resched])
  have hds : (tickDone due m).ctl.st = m.ctl.st := by rw [hdc]
  have hg : (ticked due m).cfg = (tickDone due m).cfg := (fixed_cfg h).trans (fixed_cfg hd).symm
  have hfab : t.fab = (ticked due m).fab := by rw [e, settle_fab]
  have htil : ∀ k, handOf (tilOf t k) = handOf (tilOf (tickDone due m) k) := fun k => by rw [tilOf, hfab]; exact hand_of_bench hb k
  have hpend : t.fab.pend = (tickDone due m).fab.pend := by rw [hfab]; exact pend_of_bench hb
  have hports : t.eject.ports = (tickDone due m).eject.ports := by rw [e, settle_ports, eject_of_bench hb]
  have hctl : t.ctl = (ticked due m).ctl := by rw [e, settle_ctl]
  have hcfg : t.cfg = (tickDone due m).cfg := by rw [e, settle_cfg, hg]
  have hin := tillersIn_congr hpend htil
  have hout := outOfService_congr hpend htil (by rw [hctl, hc, hdc]) (by rw [hctl, hc, hdc]) hcfg hports
  refine ⟨by rw [hctl, hc], by rw [hctl, hc], by rw [e, settle_time]; exact fixed_time h,
    by rw [e, settle_fuses]; exact fixed_fuses h, by rw [e, settle_cfg]; exact fixed_cfg h, fun hr => ?_, fun hp => ?_⟩
  · rw [hin, hout, hctl, hst, st_decideState_ready (hds.trans hr)]
  · rw [hctl, hst]
    exact st_decideState_on (by rw [pipelineOn_iff, hds]; exact (pipelineOn_iff m).mp hp)

/-- Settles O25: the boundary is followed stage by stage; what the stages hold (`bench`) shows what the end of the tick leaves alone. -/
theorem machineReadyAndTheTick : Obligations.MachineReadyAndTheTick := by
  unfold Obligations.MachineReadyAndTheTick
  refine ⟨fun s h => ?ready, fun s h => ?wait, fun s due => ?tick, fun s => ?idle, fun s ht h => ?none, fun s ht hf hh hl => ?lost⟩
  case ready =>
    obtain ⟨h1, h2, h3, h4, h5, h6, h7, h8, h9, h10, h11⟩ := machineReady_facts (m := fresh s.mach) h
    refine completes_run machineReady rfl ?_
    simp only [settle_ctl, settle_fab, settle_time, settle_cfg, rd_settle]
    exact ⟨h1, h2, h3, h4, h5, h6, h7, h8, h9, h10, h11⟩
  case wait =>
    have hm : machineReady (fresh s.mach) = fresh s.mach := by
      unfold machineReady
      rw [show readyConditions (fresh s.mach) = false from h]
      rfl
    exact completes_mono (completes_nothing machineReady rfl hm) fun t ht => ⟨ht.1, ht.2.1⟩
  case tick =>
    intro m
    have e : refresh (applyLosses (fresh s.mach)) = m := rfl
    clear_value m
    intro ht ha hd hdue
    refine completes_run swathTick rfl ?_
    rw [swathTick_due e ht ha hd hdue]
    obtain ⟨c1, c2, c3, c4, c5, c6, c7⟩ := ticked_state (due := due) (n := s.mach) (m := m) rfl
    have hej := ticked_eject due m
    obtain ⟨a1, a2⟩ := advanced_ticked due m
    refine ⟨c1, c2, c3, c4, c5, ?_, c6, c7, ?_, ?_, fun p hp => ?_, fun d hm => ?_, fun hroom hdef o ho hf hs h4 h1 h2 h3 hv => ?_,
      fun b hb hab hn d hm hnew hc hno => ?_⟩
    · rw [settle_tickLevel]
      exact congrArg Eject.tickLevel hej
    · rw [settle_fab]
      exact a1
    · simp only [settle_fab, ipOf_settle]
      exact a2
    · simp only [ipOf_settle]
      exact ticked_port due p hp ha
    · rw [settle_decisions] at hm
      exact ticked_decision_judged hm
    · rw [settle_decisions, settle_fires]
      exact ticked_decision_default hroom hdef ho hf hs h4 h1 h2 h3 hv
    · rw [settle_decisions] at hm
      exact ticked_decision_late hb hab hn hm hnew hc hno
  case idle =>
    intro m
    have e : refresh (applyLosses (fresh s.mach)) = m := rfl
    clear_value m
    intro ha h
    refine completes_run swathTick rfl ?_
    rw [swathTick_idle e ha h]
    exact ⟨keeps_settle (keeps_refl _ _), settle_regs _ _⟩
  case none => exact applyLosses_none ht h
  case lost =>
    refine completes_run masterExpired rfl ?_
    rw [masterExpired_lost (m := fresh s.mach) ht hf hh hl, show master (fresh s.mach) = master s.mach from rfl]
    obtain ⟨hc, htm, hg⟩ := refresh_facts (fresh s.mach)
    have hst : (raise (refresh (fresh s.mach)) F.ENC_EVENT_LOST (master s.mach)).ctl = s.mach.ctl := (raise_ctl _ _ _).trans hc
    obtain ⟨l1, l2, l3, l4, l5, l6, -⟩ := leavePipeline_facts (m := raise (refresh (fresh s.mach)) F.ENC_EVENT_LOST (master s.mach)) (by
      rw [hst]
      rcases (ticking_iff s.mach).mp ht with h | h | h <;> rw [h] <;> decide)
    simp only [settle_ctl, settle_fab, settle_time, settle_cfg, rd_settle]
    exact ⟨l1, by rw [l2, hst], rd_lost_leavePipeline _ _, l3, l4, l5.trans ((raise_time _ _ _).trans htm), l6.trans ((raise_cfg _ _ _).trans hg)⟩

end Sys2Proof.Machine

/-!
PROOFS. A partial reset as it takes effect (R81), and the statement O24: a state in which it fails.
-/

namespace Sys2Proof.Machine

/-- A Tiller in quarantine whose reset is due, and a host context whose unload has nothing left to wait for (R341). -/
def unloadAtReset : Mach := {
  ctl := { st := .configured, resets := [{ kind := .tiller, item := 0, phase := .requested, at_ := {}, tick := 0 }] }
  time := { now := { sec := 1 } }
  fab := { tillers := [(0, { st := .quarantined, quar := true })], ctxRun := some (1, 3), ctxs := [(1, { st := .loaded, workMap := [0] })] } }

/-- The reset of the Tiller is due. -/
theorem unloadAtReset_due : ∃ r ∈ (applyLosses (fresh unloadAtReset)).ctl.resets, r.kind = .tiller ∧ r.item = 0 ∧
    partialDue (applyLosses (fresh unloadAtReset)) r = true :=
  ⟨{ kind := .tiller, item := 0, phase := .requested, at_ := {}, tick := 0 }, by decide +kernel, rfl, rfl, by decide +kernel⟩

/-- Once the reset has taken effect the unload ends in the same step: the context's staging pool of 256 lines is bound in the Tiller. -/
theorem unloadAtReset_owned : (tilOf (partialTakes .tiller 0 (fresh unloadAtReset)) 0).granary.owner.length = 256 := by decide +kernel

/-- Refutes O24: the Tiller just reset has owner tags again where a context's unload ends in the same step. After the effect the fabric is looked
through for what may now go on (`resched`); an unload that waited for nothing else ends there, and leaves the context as an admitted one,
whose staging pool has 256 lines on each Tiller of its placement (R275, R341), the one in reset included. -/
theorem not_partialResetsTakeEffectAndComplete : ¬ Obligations.PartialResetsTakeEffectAndComplete := by
  unfold Obligations.PartialResetsTakeEffectAndComplete
  intro ⟨h, _⟩
  obtain ⟨t, ht, -, -, -, hw, -⟩ := h { mach := unloadAtReset } .tiller 0 unloadAtReset_due
  have hst : (tilOf (applyLosses (fresh unloadAtReset)) 0).st ≠ .fusedOff := by decide +kernel
  obtain ⟨-, howner, -⟩ := hw rfl (by decide) hst
  have hm : t.mach = settle unloadAtReset (partialTakes .tiller 0 (fresh unloadAtReset)) := by cases ht; rfl
  rw [hm, tilOf, settle_fab] at howner
  have hlen := unloadAtReset_owned
  rw [tilOf] at hlen
  rw [show ((0 : Fin 16) : Nat) = 0 from rfl] at howner
  rw [howner] at hlen
  cases hlen

end Sys2Proof.Machine

/-!
PROOFS. A dormant request that starts a scrub (R418, R433), and the statement O59: a state in which it fails.
-/

namespace Sys2Proof.Machine

/-- A dormant request leaves what the request makes of the machine. -/
theorem mach_of_dormantRequest (b : Bool) (s t : State) (h : exec (.dormantRequest b) s = .next t) :
    t.mach = settle s.mach (bar0 (fresh s.mach) (powerRequest (.dormant b))) := by
  cases h
  rfl

/-- A module in STANDBY with one confidential context, a command of which waits, and a completion ring whose vector is not one of the
2,048 of R449: the word of its pending bit is PWR_CTRL, the bit is the lowest of RESULT. -/
def dormantWithStrayVector : Mach := {
  ctl := { st := .standby, fnReady := true, powerGood := true }
  fuses := { life := .owned }
  fab := {
    inflight := [{ queue := 0, seq := 0, ctx := 1, tiller := 0, lc := false, desc := 0 }]
    rings := [(0, { enable := true, vector := 0x39c01 * 32 + 8 })]
    ctxs := [(1, { st := .loaded, conf := true })] } }

/-- The request scrubs the context; the completion of its command sends the ring's vector, which is masked, after RESULT was written 0. -/
theorem dormantWithStrayVector_result :
    rd (powerRequest (.dormant true) (fresh dormantWithStrayVector)) F.PWR_CTRL_RESULT 0 = 1 := by decide +kernel

/-- Refutes O59: a dormant request taken in STANDBY need not leave RESULT 0. The statement bounds no ring's vector. Where a vector lies
beyond the 2,048 that R449 has (a state that no host can set up), its pending bit is stored over another register; a completion of the scrub
that the request starts so sets RESULT after the request has written 0 there. -/
theorem not_powerRequestsAndStates : ¬ Obligations.PowerRequestsAndStates := by
  unfold Obligations.PowerRequestsAndStates
  intro ⟨_, h, _⟩
  obtain ⟨-, hfree⟩ := h { mach := dormantWithStrayVector } ⟨rfl, rfl⟩ (by decide +kernel)
  obtain ⟨-, hstandby, -⟩ := hfree (by decide +kernel)
  obtain ⟨t, ht, -, -, -, hresult⟩ := hstandby rfl rfl true (Or.inl rfl)
  rw [mach_of_dormantRequest true _ _ ht, rd_settle, bar0_may ⟨rfl, rfl⟩, dormantWithStrayVector_result] at hresult
  cases hresult

end Sys2Proof.Machine

/-!
PROOFS. What the checks of a slot do at boot, whatever was sent before (`withOut`, `Deaf`): the boot begins with no outputs, the statement O21
speaks of the machine as it stood.
-/

namespace Sys2Proof.Machine

/-- The machine with other outputs sent. -/
def withOut (m : Mach) (o : List Output) : Mach := { m with out := o }

theorem fresh_eq_withOut (m : Mach) : fresh m = withOut m [] := rfl

/-! ### What does not look at the outputs sent -/

section
variable (m : Mach) (o : List Output)
@[simp] theorem withOut_fuses : (withOut m o).fuses = m.fuses := rfl
@[simp] theorem withOut_cfg : (withOut m o).cfg = m.cfg := rfl
@[simp] theorem withOut_time : (withOut m o).time = m.time := rfl
@[simp] theorem withOut_flash : (withOut m o).flash = m.flash := rfl
@[simp] theorem withOut_glume : (withOut m o).glume = m.glume := rfl
@[simp] theorem setCtl_withOut (f : Ctl → Ctl) : setCtl (withOut m o) f = withOut (setCtl m f) o := rfl
@[simp] theorem setFuses_withOut (f : Fuses → Fuses) : setFuses (withOut m o) f = withOut (setFuses m f) o := rfl
@[simp] theorem setFab_withOut (f : Fabric → Fabric) : setFab (withOut m o) f = withOut (setFab m f) o := rfl
@[simp] theorem setFlash_withOut (f : Flash → Flash) : setFlash (withOut m o) f = withOut (setFlash m f) o := rfl
@[simp] theorem setGlume_withOut (f : Glume → Glume) : setGlume (withOut m o) f = withOut (setGlume m f) o := rfl
@[simp] theorem setTil_withOut (t : Nat) (f : Tiller → Tiller) : setTil (withOut m o) t f = withOut (setTil m t f) o := rfl
@[simp] theorem setCtx_withOut (c : Nat) (f : Ctx → Ctx) : setCtx (withOut m o) c f = withOut (setCtx m c f) o := rfl
@[simp] theorem setBin_withOut (t c h : Nat) (f : Bin → Bin) : setBin (withOut m o) t c h f = withOut (setBin m t c h f) o := rfl
@[simp] theorem wr_withOut (f : Fld) (i v : Nat) : wr (withOut m o) f i v = withOut (wr m f i v) o := rfl

theorem ite_withOut (c : Prop) [Decidable c] (a b : Mach) : (if c then withOut a o else withOut b o) = withOut (if c then a else b) o :=
  (apply_ite (withOut · o) c a b).symm

@[simp] theorem forEach_withOut {α : Type} (xs : List α) {f : Mach → α → Mach} (h : ∀ m x, f (withOut m o) x = withOut (f m x) o) :
    forEach xs (withOut m o) f = withOut (forEach xs m f) o := by
  unfold forEach
  induction xs generalizing m with
  | nil => rfl
  | cons x xs ih => rw [List.foldl_cons, h, ih, List.foldl_cons]

@[simp] theorem wrs_withOut (i : Nat) (fs : List (Fld × Nat)) : wrs (withOut m o) i fs = withOut (wrs m i fs) o :=
  forEach_withOut m o fs fun m x => wr_withOut m o x.1 i x.2

@[simp] theorem startProg_withOut : startProg (withOut m o) = withOut (startProg m) o := by
  unfold startProg
  rw [← ite_withOut]
  rfl

@[simp] theorem audit_withOut (type ctx : Nat) (pl : List Byte) : audit (withOut m o) type ctx pl = withOut (audit m type ctx pl) o := by
  unfold audit
  rw [← ite_withOut, ← startProg_withOut]
  rfl

@[simp] theorem measureFuses_withOut : measureFuses (withOut m o) = withOut (measureFuses m) o := by
  unfold measureFuses
  rw [← ite_withOut]
  rfl

@[simp] theorem fuseLedger_withOut (kind : Nat) (v : Word) (r : Bool) (f : Fuses → Fuses) :
    fuseLedger (withOut m o) kind v r f = withOut (fuseLedger m kind v r f) o := by
  simp only [fuseLedger, setFuses_withOut, audit_withOut, measureFuses_withOut, withOut_time]

@[simp] theorem retireMove_withOut : retireMove (withOut m o) = withOut (retireMove m) o := by
  simp only [retireMove, moveLife, withOut_glume, setGlume_withOut, fuseLedger_withOut, ite_withOut]

@[simp] theorem wipeReturn_withOut : wipeReturn (withOut m o) = withOut (wipeReturn m) o := rfl

@[simp] theorem fusedTillers_withOut : fusedTillers (withOut m o) = withOut (fusedTillers m) o :=
  forEach_withOut m o _ fun _ _ => rfl

@[simp] theorem flashOpen_withOut : flashOpen (withOut m o) = withOut (flashOpen m) o := by
  simp only [flashOpen, withOut_flash, audit_withOut, setFlash_withOut, ite_withOut]

end

/-- An update to which it is all the same what has been sent before. -/
def Deaf (f : Mach → Mach) : Prop := ∀ m o, ∃ o', f (withOut m o) = withOut (f m) o'

theorem deaf_of_eq {f : Mach → Mach} (h : ∀ m o, f (withOut m o) = withOut (f m) o) : Deaf f := fun m o => ⟨o, h m o⟩

theorem Deaf.comp {f g : Mach → Mach} (hg : Deaf g) (hf : Deaf f) : Deaf (fun m => g (f m)) := by
  intro m o
  obtain ⟨o₁, h₁⟩ := hf m o
  obtain ⟨o₂, h₂⟩ := hg (f m) o₁
  exact ⟨o₂, (congrArg g h₁).trans h₂⟩

theorem Deaf.ite {c : Mach → Prop} [∀ m, Decidable (c m)] {f g : Mach → Mach} (hc : ∀ m o, c (withOut m o) = c m) (hf : Deaf f) (hg : Deaf g) :
    Deaf (fun m => if c m then f m else g m) := by
  intro m o
  simp only [hc]
  split
  · exact hf m o
  · exact hg m o

theorem deaf_sendVector (v : Nat) : Deaf (fun m => sendVector m v) :=
  Deaf.ite (c := fun m => (msixMasked m v || m.ctl.d3hot) = true) (fun _ _ => rfl) (deaf_of_eq fun _ _ => rfl) (fun _ o => ⟨o ++ [.msix v], rfl⟩)

theorem deaf_raiseAs (f : Fld) (i n c : Nat) : Deaf (fun m => raiseAs m f i n c) :=
  Deaf.ite (c := fun m => flag m f i = true) (fun _ _ => rfl) (deaf_of_eq fun _ _ => rfl)
    ((deaf_sendVector (vectorOf f i)).comp (deaf_of_eq (f := fun m => logEvent (wr m f i 1) (vectorOf f i) f.lo n c) fun _ _ => rfl))

theorem deaf_enter (n : ModState) : Deaf (fun m => enter m n) :=
  Deaf.ite (c := fun m => m.ctl.st = n) (fun _ _ => rfl) (deaf_of_eq fun _ _ => rfl)
    ((deaf_raiseAs F.GEN_EVENT_STATE_CHANGE 0 0 0).comp (deaf_of_eq (f := fun m => { m with ctl := { m.ctl with prev := m.ctl.st, st := n } }) fun _ _ => rfl))

theorem deaf_recoverLedger : Deaf recoverLedger := by
  intro m o
  simp only [recoverLedger, withOut_fuses]
  split
  · exact ⟨o, rfl⟩
  · simp only [fuseLedger_withOut]
    exact deaf_raiseAs _ _ _ _ _ o

theorem deaf_fieldFault : Deaf fieldFault := (deaf_raiseAs F.FIO_EVENT_SUPPLY 0 0 0).comp (deaf_raiseAs F.FIO_EVENT_FAULT 0 0 0)

theorem powerState_withOut (m : Mach) (o : List Output) : powerState (withOut m o) = powerState m := rfl
theorem placeCtx_withOut (m : Mach) (o : List Output) (up : List Nat) (c : Nat) (tick : Bool) (ns : List Need) (mine : List Nat) (loads : List (Nat × Load)) :
    placeCtx (withOut m o) up c tick ns mine loads = placeCtx m up c tick ns mine loads := by
  induction ns generalizing mine loads with
  | nil => rfl
  | cons n ns ih =>
    unfold placeCtx
    rw [show placeOne (withOut m o) up loads c tick mine n = placeOne m up loads c tick mine n from rfl]
    split
    · rfl
    · exact ih _ _

theorem ctxOf_withOut (m : Mach) (o : List Output) (c : Nat) : ctxOf (withOut m o) c = ctxOf m c := rfl

theorem placeNew_withOut (m : Mach) (o : List Output) (c : Nat) : placeNew (withOut m o) c = placeNew m c := by
  unfold placeNew
  exact congrArg (Option.map (fun x : List Nat × List (Nat × Load) => x.1)) (placeCtx_withOut m o _ c _ _ _ _)
theorem inputOk_withOut (m : Mach) (o : List Output) (c : Nat) (p : Program) : inputOk (withOut m o) c p = inputOk m c p := rfl
theorem fitOk_withOut (m : Mach) (o : List Output) (c : Nat) (p : Program) : fitOk (withOut m o) c p = fitOk m c p := rfl
theorem splitOk_withOut (m : Mach) (o : List Output) (p : Program) : splitOk (withOut m o) false p = splitOk m false p := rfl

theorem loadReason_withOut (m : Mach) (o : List Output) (c : Nat) (p : Program) : loadReason (withOut m o) c false p = loadReason m c false p := by
  unfold loadReason
  rw [setCtx_withOut, placeNew_withOut, inputOk_withOut, fitOk_withOut, splitOk_withOut]
  rfl

theorem placeOrder_withOut (m : Mach) (o : List Output) : placeOrder (withOut m o) = placeOrder m := rfl
theorem machineOk_withOut (m : Mach) (o : List Output) : machineOk (withOut m o) = machineOk m := rfl
theorem sizePool_withOut (m : Mach) (o : List Output) (c t : Nat) : sizePool (withOut m o) c t = withOut (sizePool m c t) o := rfl
theorem takenLines_withOut (m : Mach) (o : List Output) (t : Option Nat) : takenLines (withOut m o) t = takenLines m t := rfl
theorem freeHandle_withOut (m : Mach) (o : List Output) (t c h : Nat) : freeHandle (withOut m o) t c h = freeHandle m t c h := rfl
theorem heldGrant_withOut (m : Mach) (o : List Output) (c h : Nat) (p : Program) : heldGrant (withOut m o) c h p = heldGrant m c h p := rfl
theorem bindBin_withOut (m : Mach) (o : List Output) (c lt t : Nat) (p : Program) (d : BinDecl) :
    bindBin (withOut m o) c lt t p d = withOut (bindBin m c lt t p d) o := by
  simp only [bindBin, takenLines_withOut, freeHandle_withOut, heldGrant_withOut, setTil_withOut, setFab_withOut, ite_withOut, setBin_withOut, setCtx_withOut]
  split <;> rfl

@[simp] theorem nominalClocks_withOut (m : Mach) (o : List Output) : nominalClocks (withOut m o) = withOut (nominalClocks m) o :=
  forEach_withOut m o _ fun _ _ => rfl

@[simp] theorem configure_withOut (m : Mach) (o : List Output) (i : Image) (bad : List Nat) :
    configure (withOut m o) i bad = withOut (configure m i bad) o := by
  unfold configure
  rw [← nominalClocks_withOut, ← forEach_withOut _ _ _ fun _ _ => rfl]
  rfl

theorem Deaf.forEach {α : Type} {f : Mach → α → Mach} (hf : ∀ x, Deaf (fun m => f m x)) (xs : List α) : Deaf (fun m => forEach xs m f) := by
  induction xs with
  | nil => exact deaf_of_eq fun _ _ => rfl
  | cons x xs ih => exact ih.comp (hf x)

theorem notePower_withOut (m0 m : Mach) (o₀ o : List Output) : ∃ o', notePower (withOut m0 o₀) (withOut m o) = withOut (notePower m0 m) o' := by
  unfold notePower
  rw [powerState_withOut, powerState_withOut]
  by_cases h : powerState m0 = powerState m
  · exact ⟨o, by rw [if_pos h, if_pos h]⟩
  · rw [if_neg h, if_neg h]
    exact deaf_raiseAs F.PWR_EVENT_STATE_CHANGE 0 0 0 m o

theorem deaf_wakeTiller (t : Nat) : Deaf (fun m => wakeTiller m t) := by
  refine Deaf.ite (c := fun m => (tilOf m t).st = .gated) (fun _ _ => rfl) (fun m o => ?_) (deaf_of_eq fun _ _ => rfl)
  rw [setTil_withOut]
  exact notePower_withOut m _ o o

theorem deaf_bindLts (c : Nat) (lts : List Nat) : Deaf (fun m => bindLts m c lts) := by
  intro m o
  obtain ⟨o', h⟩ := Deaf.forEach (f := fun t l => wakeTiller t ((ctxOf m c).workMap.getD l 0)) (fun l => deaf_wakeTiller _) lts m o
  refine ⟨o', ?_⟩
  simp only [bindLts, ctxOf_withOut, h]
  split
  · rw [forEach_withOut _ _ _ fun _ _ => bindBin_withOut _ _ _ _ _ _ _, forEach_withOut _ _ _ fun _ _ => sizePool_withOut _ _ _ _]
    rfl
  · rw [forEach_withOut _ _ _ fun _ _ => sizePool_withOut _ _ _ _]

theorem deaf_bindCtx (c : Nat) (mp : List Nat) : Deaf (fun m => bindCtx m c mp) :=
  (deaf_bindLts c (List.range mp.length)).comp (deaf_of_eq fun _ _ => rfl)

/-- One context placed at boot. -/
def placeNext (r : Option Mach) (c : Nat) : Option Mach :=
  match r with
  | none => none
  | some m => match (ctxOf m c).program with
    | none => some m
    | some p => if loadReason m c false p ≠ 0 then none
      else match placeNew m c with
        | none => none
        | some mp => some (bindCtx m c mp)

theorem placeImage_eq (m : Mach) : placeImage m =
    ((placeOrder (forEach (imagePrograms m.cfg) m (fun m x => sealProgram m x.1 x.2))).map (fun x => x.1)).foldl placeNext
      (some (forEach (imagePrograms m.cfg) m (fun m x => sealProgram m x.1 x.2))) := rfl

theorem placeNext_withOut (m : Mach) (o : List Output) (c : Nat) :
    ∃ o', placeNext (some (withOut m o)) c = (placeNext (some m) c).map (withOut · o') := by
  simp only [placeNext, ctxOf_withOut, loadReason_withOut, placeNew_withOut]
  split
  · exact ⟨o, rfl⟩
  · split
    · exact ⟨o, rfl⟩
    · split
      · exact ⟨o, rfl⟩
      · obtain ⟨o', h⟩ := deaf_bindCtx c _ m o
        exact ⟨o', congrArg some h⟩

theorem placeNext_none (cs : List Nat) : cs.foldl placeNext none = none := by
  induction cs with
  | nil => rfl
  | cons c cs ih => exact ih

theorem placeAll_withOut (cs : List Nat) (m : Mach) (o : List Output) :
    ∃ o', cs.foldl placeNext (some (withOut m o)) = (cs.foldl placeNext (some m)).map (withOut · o') := by
  induction cs generalizing m o with
  | nil => exact ⟨o, rfl⟩
  | cons c cs ih =>
    obtain ⟨o₁, h₁⟩ := placeNext_withOut m o c
    rw [List.foldl_cons, h₁, List.foldl_cons]
    cases placeNext (some m) c with
    | none => exact ⟨o, by rw [Option.map_none, placeNext_none, Option.map_none]⟩
    | some m' => exact ih m' o₁

theorem placeImage_withOut (m : Mach) (o : List Output) : ∃ o', placeImage (withOut m o) = (placeImage m).map (withOut · o') := by
  rw [placeImage_eq, placeImage_eq, withOut_cfg, forEach_withOut m o _ fun _ _ => rfl, placeOrder_withOut]
  exact placeAll_withOut _ _ _

theorem lateCheck_withOut (m : Mach) (o : List Output) (i : Image) (bad : List Nat) :
    ∃ o', lateCheck (withOut m o) i bad = ((lateCheck m i bad).1, withOut (lateCheck m i bad).2 o') := by
  obtain ⟨o', h⟩ := placeImage_withOut (configure m i bad) o
  simp only [lateCheck, configure_withOut, machineOk_withOut, h]
  split
  · exact ⟨o, rfl⟩
  · split
    · exact ⟨o, rfl⟩
    · cases placeImage (configure m i bad) with
      | none => exact ⟨o, rfl⟩
      | some m2 => exact ⟨o', rfl⟩

/-- The machine with EARLY_IO of an image applied (R73 step 3). -/
def earlyOn (m : Mach) (i : Image) : Mach := setCtl { m with cfg := { m.cfg with early := i.early } } (fun c => { c with earlyApplied := true })

theorem trySlot_none {m : Mach} {sl : Slot} (bad : List Nat) (h : slotImage m sl = none) : trySlot m sl bad = (1, m) := by
  rw [trySlot, h]

theorem trySlot_rejected {m : Mach} {sl : Slot} {i : Image} (bad : List Nat) (h : slotImage m sl = some i) (hc : earlyCode m.fuses (some i) ≠ 0) :
    trySlot m sl bad = (earlyCode m.fuses (some i), m) := by
  rw [trySlot, h]
  exact if_pos hc

theorem trySlot_late {m : Mach} {sl : Slot} {i : Image} (bad : List Nat) (h : slotImage m sl = some i) (hc : earlyCode m.fuses (some i) = 0) :
    trySlot m sl bad = lateCheck (earlyOn m i) i bad := by
  rw [trySlot, h]
  exact if_neg (not_not.mpr hc)

theorem slotImage_withOut (m : Mach) (o : List Output) (sl : Slot) : slotImage (withOut m o) sl = slotImage m sl := by cases sl <;> rfl

theorem trySlot_withOut (m : Mach) (o : List Output) (sl : Slot) (bad : List Nat) :
    ∃ o', trySlot (withOut m o) sl bad = ((trySlot m sl bad).1, withOut (trySlot m sl bad).2 o') := by
  have hs := slotImage_withOut m o sl
  cases h : slotImage m sl with
  | none =>
    rw [trySlot_none bad h]
    exact ⟨o, trySlot_none bad (hs.trans h)⟩
  | some i =>
    by_cases hc : earlyCode m.fuses (some i) = 0
    · obtain ⟨o', h'⟩ := lateCheck_withOut (earlyOn m i) o i bad
      rw [trySlot_late bad h hc]
      exact ⟨o', (trySlot_late bad (hs.trans h) hc).trans h'⟩
    · rw [trySlot_rejected bad h hc]
      exact ⟨o, trySlot_rejected bad (hs.trans h) hc⟩

/-- The self-test of one Tiller at boot. -/
def testOne (r : Mach × List Nat) (t : Nat) : Mach × List Nat :=
  ((draw r.1).1, if (draw r.1).2 % 2 = 1 then r.2 ++ [t] else r.2)

theorem testAll_withOut (quar : List Nat) (m : Mach) (o : List Output) (bad : List Nat) :
    quar.foldl testOne (withOut m o, bad) = (withOut (quar.foldl testOne (m, bad)).1 o, (quar.foldl testOne (m, bad)).2) := by
  induction quar generalizing m bad with
  | nil => rfl
  | cons t quar ih => exact ih (draw m).1 _

theorem testQuarantined_withOut (m : Mach) (o : List Output) (quar : List Nat) :
    testQuarantined (withOut m o) quar = (withOut (testQuarantined m quar).1 o, (testQuarantined m quar).2) := testAll_withOut quar m o []

theorem wiped_withOut (m : Mach) (o : List Output) : wiped (withOut m o) true [] = withOut (wiped m true []) o := by
  unfold wiped
  rw [← wrs_withOut]
  rfl

/-- A wipe of RETURN resumed, and the move of a RETIRE made, as the boot begins (R423, R425). -/
def bootCleared (m : Mach) : Mach := retireMove (if m.glume.wiping then wipeReturn m else m)

/-- BOOT_ID, the debug level, spare pages and trims as the boot finds them (R429, R441, R456). -/
def bootStored (m : Mach) : Mach :=
  let r := draw m
  let m := setHost r.1 (fun h => { h with bootId := BitVec.ofNat 64 r.2 })
  let m := setGlume m (fun g => { g with granted := if m.fuses.life = .blank then .full else .none })
  let m := setFab m (fun b => { b with hbm := (m.flash.retired.zipIdx).foldl (fun s x => movePage s x.1 (sparePage x.2)) {} })
  let trim := fun (k : Nat) => twos 8 (m.flash.trims.getD k 0)
  wrs m 0 [(F.PWR_VTRIM_COMPUTE0, trim 0), (F.PWR_VTRIM_COMPUTE1, trim 1), (F.PWR_VTRIM_INTAKE, trim 2), (F.PWR_VTRIM_IO, trim 3)]

/-- The machine as the boot has found it, before what it then raises and records. -/
def bootFound (m : Mach) : Mach := bootStored (fusedTillers (bootCleared (enter (setCtl m (fun c => { c with powerGood := true })) .booting)))

theorem bootStart_eq (m : Mach) : bootStart m =
    setCtl (flashOpen (recoverLedger (if (bootFound m).eject.fieldBad then fieldFault (bootFound m) else bootFound m)))
      (fun c => { c with linkTraining := c.perstHigh }) := rfl

theorem bootCleared_withOut (m : Mach) (o : List Output) : bootCleared (withOut m o) = withOut (bootCleared m) o := by
  unfold bootCleared
  rw [← retireMove_withOut, ← ite_withOut, withOut_glume, wipeReturn_withOut]

theorem bootStored_withOut (m : Mach) (o : List Output) : bootStored (withOut m o) = withOut (bootStored m) o := by
  unfold bootStored
  rw [← wrs_withOut]
  rfl

theorem deaf_bootFound : Deaf bootFound :=
  (deaf_of_eq bootStored_withOut).comp ((deaf_of_eq fusedTillers_withOut).comp ((deaf_of_eq bootCleared_withOut).comp
    ((deaf_enter .booting).comp (deaf_of_eq fun m o => setCtl_withOut m o _))))

theorem deaf_bootStart : Deaf bootStart := by
  have hfield : Deaf (fun m => if m.eject.fieldBad then fieldFault m else m) := Deaf.ite (fun _ _ => rfl) deaf_fieldFault (deaf_of_eq fun _ _ => rfl)
  have hopen : Deaf (fun m => setCtl (flashOpen m) (fun c => { c with linkTraining := c.perstHigh })) :=
    deaf_of_eq fun m o => by rw [flashOpen_withOut, setCtl_withOut]
  exact hopen.comp (deaf_recoverLedger.comp (hfield.comp deaf_bootFound))

end Sys2Proof.Machine

/-!
PROOFS. What the boot gives (`booted`), and what a slot tried leaves of it (R70, R73).
-/

namespace Sys2Proof.Machine

/-- What the boot gives, but for the module state. -/
structure Booted where
  powerGood : Bool
  runSlot : Option Slot
  earlyApplied : Bool
  timeApplied : Bool
  cameraApplied : Bool
  txDisable : Bool
  now : LTime
  fuses : Fuses
  nor : Nor
  cfg : Image

def booted (m : Mach) : Booted :=
  ⟨m.ctl.powerGood, m.ctl.runSlot, m.ctl.earlyApplied, m.ctl.timeApplied, m.ctl.cameraApplied, m.ctl.txDisable, m.time.now, m.fuses, m.nor, m.cfg⟩

/-- The same, of the parts that `fixed` gives. -/
def bootedOf (x : Fixed) : Booted :=
  ⟨x.ctl.powerGood, x.ctl.runSlot, x.ctl.earlyApplied, x.ctl.timeApplied, x.ctl.cameraApplied, x.ctl.txDisable, x.time.now, x.fuses, x.nor, x.cfg⟩

theorem booted_of_fixed {m t : Mach} (h : fixed t = fixed m) : booted t = booted m := congrArg bootedOf h

@[simp] theorem booted_forEach {α : Type} (xs : List α) (m : Mach) (f : Mach → α → Mach) (h : ∀ m x, booted (f m x) = booted m) :
    booted (forEach xs m f) = booted m := by
  unfold forEach
  induction xs generalizing m with
  | nil => rfl
  | cons x xs ih => rw [List.foldl_cons, ih, h]

@[simp] theorem booted_enter (m : Mach) (n : ModState) : booted (enter m n) = booted m := by
  obtain ⟨p, h⟩ := fixed_enter m n
  exact congrArg bootedOf h

theorem booted_startEncoders (m : Mach) : booted (startEncoders m) = booted m := booted_forEach _ _ _ fun _ _ => rfl

theorem booted_enterFault (m : Mach) (cause : Nat) : booted (enterFault m cause) = booted m := by
  unfold enterFault
  split
  · rfl
  · exact (booted_of_fixed (fixed_audit _ _ _ _)).trans (booted_enter m .fault)

theorem booted_stopModule (m : Mach) (cause : Nat) : booted (stopModule m cause) = booted m := by
  have h : booted (if pipelineOn m then dropAllFires m else m) = booted m := booted_of_fixed (by split <;> simp)
  exact (booted_enterFault _ cause).trans h

theorem booted_startAlign (m : Mach) (group : Nat) (apply startup : Bool) : booted (startAlign m group apply startup) = booted m := by
  unfold startAlign
  extract_lets m1 m2 m3
  have h3 : booted m3 = booted m := rfl
  clear_value m3
  split
  · exact (booted_of_fixed (fixed_setOrigin _)).trans h3
  · exact h3

theorem booted_startupAlign (m : Mach) : booted (startupAlign m) = booted m := by
  unfold startupAlign
  split
  · exact booted_startAlign _ _ _ _
  · rfl

theorem booted_applyTime (m : Mach) : booted (applyTime m) = { booted m with timeApplied := true, txDisable := false } := rfl

/-- What the image of the slot that runs changes of what the boot gives. -/
theorem booted_applyImage (m : Mach) : booted (applyImage m) = { booted m with timeApplied := true, cameraApplied := true, txDisable := false } := by
  unfold applyImage
  extract_lets m1 m2
  have h1 : booted m1 = { booted m with timeApplied := true, txDisable := false } := by
    have h : booted (loadChaff (loadRegisters m)) = booted m := booted_of_fixed (by rw [fixed_loadChaff, fixed_loadRegisters])
    rw [← h]
    exact booted_applyTime _
  have h2 : booted m2 = { booted m1 with cameraApplied := true } := (booted_of_fixed (fixed_startPorts _)).trans rfl
  rw [booted_enter, booted_of_fixed (fixed_programsPlaced _), booted_of_fixed (fixed_bootWindows _), h2, h1]

theorem booted_hotTests (m : Mach) : booted (hotTests m) = booted m := rfl

theorem booted_setRunSlot (m : Mach) (s : Slot) : booted (setCtl m (fun x => { x with runSlot := some s })) = { booted m with runSlot := some s } := rfl

theorem booted_bootShown (m : Mach) (quar : List Nat) : booted (bootShown m quar) = booted (bootChosen m quar).mach :=
  (booted_startEncoders _).trans (booted_of_fixed (fixed_bootStatus _ _ _))

theorem booted_bootAudited (m : Mach) : booted (bootAudited m) = booted m := booted_of_fixed (fixed_audit _ _ _ _)

theorem booted_bootApplied (m : Mach) (quar : List Nat) (s : Slot) : booted (bootApplied m quar s) =
    { booted (bootChosen m quar).mach with runSlot := some s, timeApplied := true, cameraApplied := true, txDisable := false } := by
  unfold bootApplied
  rw [booted_hotTests, booted_of_fixed (fixed_testEvents _ _ _), booted_applyImage, booted_bootAudited, booted_of_fixed (fixed_firstMeas _),
    booted_setRunSlot, booted_bootShown]

/-- A boot that finds no slot leaves what the choice left. -/
theorem booted_boot_none {m : Mach} {quar : List Nat} (h : (bootChosen m quar).slot = none) :
    booted (boot m quar) = booted (bootChosen m quar).mach := by
  rw [boot_none h, booted_enterFault, booted_bootAudited, booted_of_fixed (fixed_firstMeas _), booted_bootShown]

/-- A boot that finds a slot runs it, with TIME and CAMERA applied. -/
theorem booted_boot_some {m : Mach} {quar : List Nat} {s : Slot} (h : (bootChosen m quar).slot = some s) :
    booted (boot m quar) =
      { booted (bootChosen m quar).mach with runSlot := some s, timeApplied := true, cameraApplied := true, txDisable := false } := by
  rw [boot_some h, ← booted_bootApplied]
  split
  · exact booted_stopModule _ _
  · exact booted_startupAlign _

/-! ### A slot tried -/

/-- Checks 6 and 7 reject, and leave the machine as it was, or place the image. -/
theorem lateCheck_cases (m : Mach) (i : Image) (bad : List Nat) : (∃ c, c ≠ 0 ∧ c < 256 ∧ lateCheck m i bad = (c, m)) ∨
    (digestsOk i false = true ∧ ∃ t, placeImage (configure m i bad) = some t ∧ lateCheck m i bad = (0, t)) := by
  unfold lateCheck
  split
  · exact .inl ⟨7, by decide, by decide, rfl⟩
  · next hd =>
    have hd : digestsOk i false = true := by simpa using hd
    dsimp only
    split
    · exact .inl ⟨9, by decide, by decide, rfl⟩
    · split
      · exact .inl ⟨9, by decide, by decide, rfl⟩
      · next t ht => exact .inr ⟨hd, t, ht, rfl⟩

theorem earlyCode_lt (f : Fuses) (i : Option Image) : earlyCode f i < 256 := by
  unfold earlyCode
  split
  · decide
  · repeat' split
    all_goals decide

/-- A slot is rejected, or its image is placed (R70). -/
theorem trySlot_cases (m : Mach) (sl : Slot) (bad : List Nat) :
    (∃ c t, c ≠ 0 ∧ c < 256 ∧ trySlot m sl bad = (c, t) ∧ (t = m ∨ ∃ i, t = earlyOn m i)) ∨
    (∃ i t, slotImage m sl = some i ∧ earlyCode m.fuses (some i) = 0 ∧ digestsOk i false = true ∧
      placeImage (configure (earlyOn m i) i bad) = some t ∧ trySlot m sl bad = (0, t)) := by
  cases h : slotImage m sl with
  | none => exact .inl ⟨1, m, by decide, by decide, trySlot_none bad h, .inl rfl⟩
  | some i =>
    by_cases hc : earlyCode m.fuses (some i) = 0
    · rw [trySlot_late bad h hc]
      rcases lateCheck_cases (earlyOn m i) i bad with ⟨c, h0, hl, he⟩ | ⟨hd, t, ht, he⟩
      · exact .inl ⟨c, _, h0, hl, he, .inr ⟨i, rfl⟩⟩
      · exact .inr ⟨i, t, rfl, hc, hd, ht, he⟩
    · exact .inl ⟨_, m, hc, earlyCode_lt _ _, trySlot_rejected bad h hc, .inl rfl⟩

theorem booted_earlyOn (m : Mach) (i : Image) :
    booted (earlyOn m i) = { booted m with earlyApplied := true, cfg := { m.cfg with early := i.early } } := rfl

/-- Trying a slot changes EARLY_IO and the configuration, and no more of what the boot gives. -/
theorem booted_trySlot (m : Mach) (sl : Slot) (bad : List Nat) :
    ∃ e g, booted (trySlot m sl bad).2 = { booted m with earlyApplied := e, cfg := g } := by
  rcases trySlot_cases m sl bad with ⟨c, t, -, -, he, ht⟩ | ⟨i, t, -, -, -, ht, he⟩
  · rw [he]
    rcases ht with rfl | ⟨i, rfl⟩
    · exact ⟨_, _, rfl⟩
    · exact ⟨_, _, booted_earlyOn m i⟩
  · rw [he]
    exact ⟨true, i, (booted_of_fixed (fixed_placeImage ht)).trans (congrArg bootedOf (fixed_configure _ i bad))⟩

/-- A slot that passes has an image that its checks let pass, and its EARLY_IO and configuration are in force. -/
theorem booted_trySlot_ok {m : Mach} {sl : Slot} {bad : List Nat} (h : (trySlot m sl bad).1 = 0) : ∃ i, slotImage m sl = some i ∧
    earlyCode m.fuses (some i) = 0 ∧ digestsOk i false = true ∧ booted (trySlot m sl bad).2 = { booted m with earlyApplied := true, cfg := i } := by
  rcases trySlot_cases m sl bad with ⟨c, t, h0, -, he, -⟩ | ⟨i, t, hi, hc, hd, ht, he⟩
  · rw [he] at h
    exact absurd h h0
  · rw [he]
    exact ⟨i, hi, hc, hd, (booted_of_fixed (fixed_placeImage ht)).trans (congrArg bootedOf (fixed_configure _ i bad))⟩

theorem trySlot_code_lt (m : Mach) (sl : Slot) (bad : List Nat) : (trySlot m sl bad).1 < 256 := by
  rcases trySlot_cases m sl bad with ⟨c, t, -, hl, he, -⟩ | ⟨i, t, -, -, -, -, he⟩
  · rwa [he]
  · rw [he]
    exact Nat.zero_lt_succ 255

end Sys2Proof.Machine

/-!
PROOFS. The boot control block that Glume writes is the one in use (R66).
-/

namespace Sys2Proof.Machine

/-! ### The boot control block -/

@[simp] theorem length_leBytes (n v : Nat) : (leBytes n v).length = n := by
  induction n generalizing v with
  | zero => rfl
  | succ n ih => simp [leBytes, ih]

theorem leNat_leBytes (n v : Nat) : leNat (leBytes n v) = v % 256 ^ n := by
  induction n generalizing v with
  | zero => simp [leBytes, leNat, Nat.mod_one]
  | succ n ih =>
    simp only [leBytes, leNat, ih, BitVec.toNat_ofNat, Nat.reducePow]
    rw [Nat.pow_succ, Nat.mul_comm (256 ^ n) 256, Nat.mod_mul]

/-- A slice that takes a middle piece of a list takes that piece. -/
theorem slice_append (a b c : List Byte) : slice (a ++ b ++ c) a.length b.length = b := by
  simp [slice]

theorem crcSteps_lt (n c : Nat) (h : c < 2 ^ 32) : crcSteps 0xEDB88320 n c < 2 ^ 32 := by
  induction n generalizing c with
  | zero => exact h
  | succ n ih =>
    unfold crcSteps
    have hc : c / 2 < 2 ^ 32 := Nat.lt_of_le_of_lt (Nat.div_le_self c 2) h
    apply ih
    split
    · exact Nat.xor_lt_two_pow hc (by decide)
    · exact hc

theorem crc32_lt (bs : List Byte) : crc32 bs < 2 ^ 32 := by
  unfold crc32
  refine Nat.xor_lt_two_pow ?_ (by decide)
  suffices h : ∀ c, c < 2 ^ 32 → bs.foldl (fun c b => crcSteps 0xEDB88320 8 (c ^^^ b.toNat)) c < 2 ^ 32 from h _ (by decide)
  induction bs with
  | nil => exact fun _ h => h
  | cons b bs ih => exact fun c h => ih _ (crcSteps_lt 8 _ (Nat.xor_lt_two_pow h (by have := b.isLt; omega)))

theorem leAt_append (a c : List Byte) (n v : Nat) : leAt (a ++ leBytes n v ++ c) a.length n = v % 256 ^ n := by
  have h := slice_append a (leBytes n v) c
  rw [length_leBytes] at h
  rw [leAt, h, leNat_leBytes]

/-- What stands in a boot control block before its CRC (R66). -/
def bcbHead (seq active trial confirmed : Nat) : List Byte :=
  leBytes 4 0x43425654 ++ leBytes 4 seq ++ leBytes 1 active ++ leBytes 1 trial ++ leBytes 1 confirmed ++ leBytes 1 0

section
variable (seq active trial confirmed : Nat)

theorem length_bcbHead : (bcbHead seq active trial confirmed).length = 12 := rfl

/-- A boot control block that Glume writes is valid. -/
theorem bcbOk_bcbBytes : bcbOk (bcbBytes seq active trial confirmed) = true := by
  have hl : (bcbBytes seq active trial confirmed).length = 16 := rfl
  have hh : slice (bcbBytes seq active trial confirmed) 0 12 = bcbHead seq active trial confirmed := rfl
  have hc : leAt (bcbBytes seq active trial confirmed) 12 4 = crc32 (bcbHead seq active trial confirmed) := by
    have h := leAt_append (bcbHead seq active trial confirmed) [] 4 (crc32 (bcbHead seq active trial confirmed))
    rw [List.append_nil, length_bcbHead] at h
    exact h.trans (Nat.mod_eq_of_lt (crc32_lt _))
  rw [bcbOk, hl, hh, hc]
  simp

theorem active_bcbBytes : leAt (bcbBytes seq active trial confirmed) 8 1 = active % 256 := by
  have h := leAt_append (leBytes 4 0x43425654 ++ leBytes 4 seq) (leBytes 1 trial ++ leBytes 1 confirmed ++ leBytes 1 0 ++
    leBytes 4 (crc32 (bcbHead seq active trial confirmed))) 1 active
  exact h

theorem seq_bcbBytes : leAt (bcbBytes seq active trial confirmed) 4 4 = seq % 2 ^ 32 := by
  have h := leAt_append (leBytes 4 0x43425654) (leBytes 1 active ++ leBytes 1 trial ++ leBytes 1 confirmed ++ leBytes 1 0 ++
    leBytes 4 (crc32 (bcbHead seq active trial confirmed))) 4 seq
  exact h

end

/-- By signed difference the SEQ written next is the higher one (R66). -/
theorem seq_next_higher (s : Nat) : decide (0 < (BitVec.ofNat 32 ((s + 1) % 2 ^ 32 % 2 ^ 32) - BitVec.ofNat 32 s).toInt) = true ∧
    decide (0 < (BitVec.ofNat 32 s - BitVec.ofNat 32 ((s + 1) % 2 ^ 32 % 2 ^ 32)).toInt) = false := by
  have h : BitVec.ofNat 32 ((s + 1) % 2 ^ 32 % 2 ^ 32) = BitVec.ofNat 32 s + 1#32 := by
    apply BitVec.eq_of_toNat_eq
    simp
  rw [h, show ∀ x : BitVec 32, x + 1#32 - x = 1#32 by intro x; bv_omega, show ∀ x : BitVec 32, x - (x + 1#32) = -1#32 by intro x; bv_omega]
  decide

theorem bcOf_of_pick {n : Nor} {c : Bool} (h : bcbPick n = some c) : (bcOf n).active = leAt (if c then n.bcb1 else n.bcb0) 8 1 ∧
    (bcOf n).seq = leAt (if c then n.bcb1 else n.bcb0) 4 4 := by
  unfold bcOf
  rw [h]
  exact ⟨rfl, rfl⟩

/-- A valid copy with the SEQ after the one in use, written over the copy not in use, is the one in use. -/
theorem bcbPick_written (n : Nor) (b : Bcb) (hb : bcbOk b = true) (hs : leAt b 4 4 = ((bcOf n).seq + 1) % 2 ^ 32 % 2 ^ 32) :
    (bcbPick n = some false → bcbPick { n with bcb1 := b } = some true) ∧ (bcbPick n ≠ some false → bcbPick { n with bcb0 := b } = some false) := by
  obtain ⟨h1, h2⟩ := seq_next_higher (bcOf n).seq
  cases h0 : bcbOk n.bcb0 <;> cases h1' : bcbOk n.bcb1
  · exact ⟨fun h => by simp [bcbPick, h0, h1'] at h, fun _ => by simp [bcbPick, hb, h1']⟩
  · have hp : bcbPick n = some true := by simp [bcbPick, h0, h1']
    refine ⟨fun h => absurd (hp.symm.trans h) (by decide), fun _ => ?_⟩
    have hq := (bcOf_of_pick hp).2
    simp only [bcbPick, hb, h1', hs]
    rw [hq] at h2 ⊢
    exact congrArg some h2
  · have hp : bcbPick n = some false := by simp [bcbPick, h0, h1']
    refine ⟨fun _ => ?_, fun h => absurd hp h⟩
    have hq := (bcOf_of_pick hp).2
    simp only [bcbPick, hb, h0, hs]
    rw [hq] at h1 ⊢
    exact congrArg some h1
  · refine ⟨fun hp => ?_, fun hp => ?_⟩
    · have hq := (bcOf_of_pick hp).2
      simp only [bcbPick, hb, h0, hs]
      rw [hq] at h1 ⊢
      exact congrArg some h1
    · have hp : bcbPick n = some true := by
        cases hd : decide (0 < (BitVec.ofNat 32 (leAt n.bcb1 4 4) - BitVec.ofNat 32 (leAt n.bcb0 4 4)).toInt)
        · exact absurd (by simp only [bcbPick, h0, h1', hd]) hp
        · simp only [bcbPick, h0, h1', hd]
      have hq := (bcOf_of_pick hp).2
      simp only [bcbPick, hb, h1', hs]
      rw [hq] at h2 ⊢
      exact congrArg some h2

/-- The boot control block that Glume has written is the one in use (R66). -/
theorem active_writeBc (m : Mach) (active trial confirmed : Nat) : (bcOf (writeBc m active trial confirmed).nor).active = active % 256 := by
  have ha := active_bcbBytes (((bcOf m.nor).seq + 1) % 2 ^ 32) active trial confirmed
  obtain ⟨h1, h0⟩ := bcbPick_written m.nor _ (bcbOk_bcbBytes _ active trial confirmed)
    (seq_bcbBytes (((bcOf m.nor).seq + 1) % 2 ^ 32) active trial confirmed)
  unfold writeBc
  by_cases hp : bcbPick m.nor = some false
  · exact (congrArg (fun n => (bcOf n).active) (if_pos hp)).trans ((bcOf_of_pick (h1 hp)).1.trans ha)
  · exact (congrArg (fun n => (bcOf n).active) (if_neg hp)).trans ((bcOf_of_pick (h0 hp)).1.trans ha)

theorem leAt_one_lt (b : List Byte) (k : Nat) : leAt b k 1 < 256 := by
  unfold leAt
  have hl : (slice b k 1).length = 1 := by simp [slice]
  match slice b k 1, hl with
  | [x], _ => exact x.isLt

theorem active_bcOf_lt (n : Nor) : (bcOf n).active < 256 := by
  cases hp : bcbPick n with
  | none => simp [bcOf, hp]
  | some c =>
    rw [(bcOf_of_pick hp).1]
    exact leAt_one_lt _ _

end Sys2Proof.Machine

/-!
PROOFS. The slot that the boot chooses, and its image in force (R71).
-/

namespace Sys2Proof.Machine

/-! ### The slot chosen (R71) -/

/-- The ACTIVE slot, and whether its CONFIRMED bit is 1. -/
def activeSlot (m : Mach) : Slot := slotOf ((bcOf m.nor).active % 2)
def activeGood (m : Mach) : Bool := bitOf (bcOf m.nor).confirmed (slotNo (activeSlot m))

/-- The machine with TRIAL counted down, where the ACTIVE slot is on trial. -/
def trialTaken (m : Mach) : Mach :=
  if activeGood m = false ∧ (bcOf m.nor).trial ≠ 0 then writeBc m (bcOf m.nor).active ((bcOf m.nor).trial - 1) (bcOf m.nor).confirmed else m

/-- The ACTIVE slot tried, and the other slot tried after it. -/
def activeTry (m : Mach) (bad : List Nat) : Nat × Mach :=
  if activeGood m = false ∧ (bcOf m.nor).trial = 0 then (8, trialTaken m) else trySlot (trialTaken m) (activeSlot m) bad
def otherTry (m : Mach) (bad : List Nat) : Nat × Mach := trySlot (activeTry m bad).2 (otherSlot (activeSlot m)) bad

theorem choose_retired {m : Mach} (bad : List Nat) (h : m.fuses.life = .retired) : choose m bad = ⟨none, m, 0, 0⟩ := if_pos h

theorem choose_eq {m : Mach} (bad : List Nat) (h : m.fuses.life ≠ .retired) : choose m bad =
    if (activeTry m bad).1 = 0 then ⟨some (activeSlot m), (activeTry m bad).2, 0, 0⟩
    else if (otherTry m bad).1 = 0 then ⟨some (otherSlot (activeSlot m)), (otherTry m bad).2, (activeTry m bad).1, 0⟩
    else ⟨none, (otherTry m bad).2, (activeTry m bad).1, (otherTry m bad).1⟩ := by
  have ht : trialTaken m = if !activeGood m && (bcOf m.nor).trial != 0 then
      writeBc m (bcOf m.nor).active ((bcOf m.nor).trial - 1) (bcOf m.nor).confirmed else m := by simp [trialTaken]
  have ha : activeTry m bad = if !activeGood m && (bcOf m.nor).trial == 0 then (8, trialTaken m) else trySlot (trialTaken m) (activeSlot m) bad := by
    simp [activeTry]
  unfold otherTry
  rw [ha, ht]
  exact if_neg h

theorem slots_writeBc (m : Mach) (active trial confirmed : Nat) : (writeBc m active trial confirmed).nor.slotA = m.nor.slotA ∧
    (writeBc m active trial confirmed).nor.slotB = m.nor.slotB := by
  unfold writeBc
  rw [setNor_nor]
  dsimp only
  split <;> exact ⟨rfl, rfl⟩

theorem booted_trialTaken (m : Mach) : ∃ n, booted (trialTaken m) = { booted m with nor := n } ∧ n.slotA = m.nor.slotA ∧ n.slotB = m.nor.slotB := by
  unfold trialTaken
  split
  · exact ⟨_, rfl, slots_writeBc _ _ _ _⟩
  · exact ⟨m.nor, rfl, rfl, rfl⟩

theorem activeSlot_trialTaken (m : Mach) : activeSlot (trialTaken m) = activeSlot m := by
  unfold trialTaken
  split
  · unfold activeSlot
    rw [active_writeBc, Nat.mod_eq_of_lt (active_bcOf_lt _)]
  · rfl

theorem rd_bootStatus (m0 m : Mach) (c : Chosen) : rd (bootStatus m0 m c) F.GEN_BOOT_STATUS_REJECT 0 =
    (if c.slot.getD (activeSlot m) = activeSlot m then c.codeO else c.codeA) % 256 := by
  unfold bootStatus wrs
  extract_lets b act run
  simp only [forEach, List.foldl]
  rw [rd_wr_apart _ _ (by decide), rd_wr_apart _ _ (by decide), rd_wr_apart _ _ (by decide), rd_wr_apart _ _ (by decide),
    rd_wr_apart _ _ (by decide), rd_wr_apart _ _ (by decide), rd_wr_same _ _ _ _ rfl]
  rfl

theorem booted_activeTry (m : Mach) (bad : List Nat) : ∃ e g, booted (activeTry m bad).2 = { booted (trialTaken m) with earlyApplied := e, cfg := g } := by
  unfold activeTry
  split
  · exact ⟨_, _, rfl⟩
  · exact booted_trySlot _ _ _

theorem booted_otherTry (m : Mach) (bad : List Nat) : ∃ e g, booted (otherTry m bad).2 = { booted (trialTaken m) with earlyApplied := e, cfg := g } := by
  obtain ⟨e, g, h⟩ := booted_activeTry m bad
  obtain ⟨e', g', h'⟩ := booted_trySlot (activeTry m bad).2 (otherSlot (activeSlot m)) bad
  exact ⟨e', g', by rw [otherTry, h', h]⟩

theorem booted_choose (m : Mach) (bad : List Nat) :
    booted (choose m bad).mach = booted m ∨ ∃ e g, booted (choose m bad).mach = { booted (trialTaken m) with earlyApplied := e, cfg := g } := by
  by_cases h : m.fuses.life = .retired
  · exact .inl (by rw [choose_retired bad h])
  · rw [choose_eq bad h]
    right
    split
    · exact booted_activeTry m bad
    · split <;> exact booted_otherTry m bad

/-- The slots of the NOR as `booted` gives it. -/
def bootedImage (x : Booted) (sl : Slot) : Option Image :=
  match sl with
  | .a => x.nor.slotA
  | .b => x.nor.slotB

theorem slotImage_booted (m : Mach) (sl : Slot) : slotImage m sl = bootedImage (booted m) sl := by cases sl <;> rfl

/-- What stands behind a slot that is chosen: an image that its checks let pass, in force. -/
def ImageInForce (t : Mach) (sl : Slot) : Prop :=
  slotImage t sl = some t.cfg ∧ earlyCode t.fuses (some t.cfg) = 0 ∧ digestsOk t.cfg false = true ∧ t.ctl.earlyApplied = true

theorem imageInForce_trySlot {m : Mach} {sl : Slot} {bad : List Nat} (h : (trySlot m sl bad).1 = 0) : ImageInForce (trySlot m sl bad).2 sl := by
  obtain ⟨i, hi, hc, hd, hb⟩ := booted_trySlot_ok h
  have hcfg : (trySlot m sl bad).2.cfg = i := congrArg Booted.cfg hb
  have hfus : (trySlot m sl bad).2.fuses = m.fuses := congrArg Booted.fuses hb
  have himg : slotImage (trySlot m sl bad).2 sl = slotImage m sl := by
    rw [slotImage_booted, slotImage_booted, hb]
    cases sl <;> rfl
  exact ⟨by rw [himg, hcfg, hi], by rw [hfus, hcfg, hc], by rw [hcfg, hd], congrArg Booted.earlyApplied hb⟩

theorem imageInForce_choose {m : Mach} {bad : List Nat} {sl : Slot} (h : (choose m bad).slot = some sl) : ImageInForce (choose m bad).mach sl := by
  by_cases hl : m.fuses.life = .retired
  · rw [choose_retired bad hl] at h
    cases h
  · rw [choose_eq bad hl] at h ⊢
    split at h
    · next ha =>
      cases h
      rw [if_pos ha]
      unfold activeTry at ha ⊢
      split at ha
      · cases ha
      · next hs =>
        rw [if_neg hs]
        exact imageInForce_trySlot ha
    · next ha =>
      rw [if_neg ha]
      split at h
      · next ho =>
        cases h
        rw [if_pos ho]
        exact imageInForce_trySlot ho
      · cases h

/-- The image in force is a matter of what the boot gives. -/
theorem ImageInForce.booted {m t : Mach} {sl : Slot} (h : ImageInForce m sl) (hf : t.fuses = m.fuses) (hn : t.nor = m.nor) (hc : t.cfg = m.cfg)
    (he : t.ctl.earlyApplied = m.ctl.earlyApplied) : ImageInForce t sl := by
  have hs : slotImage t sl = slotImage m sl := by cases sl <;> simp [slotImage, hn]
  obtain ⟨h1, h2, h3, h4⟩ := h
  exact ⟨by rw [hs, hc, h1], by rw [hf, hc, h2], by rw [hc, h3], he.trans h4⟩

end Sys2Proof.Machine

/-!
PROOFS. What the first steps of the boot find (R423, R425, R427).
-/

namespace Sys2Proof.Machine

/-! ### What the boot finds -/

theorem booted_fuseLedger (m : Mach) (kind : Nat) (v : Word) (recovered : Bool) (f : Fuses → Fuses) :
    ∃ l, booted (fuseLedger m kind v recovered f) = { booted m with fuses := { f m.fuses with ledger := l } } := by
  unfold fuseLedger
  exact ⟨_, (booted_of_fixed ((fixed_measureFuses _).trans (fixed_audit _ _ _ _))).trans rfl⟩

theorem booted_retireMove (m : Mach) : ∃ f, booted (retireMove m) = { booted m with fuses := f } ∧
    (m.glume.retireDue = false → f = m.fuses) ∧ (m.glume.retireDue = true → f.life = .retired) := by
  unfold retireMove
  split
  · next h =>
    obtain ⟨l, hl⟩ := booted_fuseLedger (setGlume m (fun g => { g with retireDue := false })) 1 (BitVec.ofNat 32 (lifeCode .retired)) false
      (fun f => { f with life := .retired })
    exact ⟨_, hl, fun h' => absurd (h.symm.trans h') (by decide), fun _ => rfl⟩
  · next h => exact ⟨m.fuses, rfl, fun _ => rfl, fun h' => absurd h' h⟩

theorem booted_recoverLedger (m : Mach) : ∃ f, booted (recoverLedger m) = { booted m with fuses := f } ∧
    (m.fuses.unlogged = none → f = m.fuses) ∧ f.life = m.fuses.life := by
  unfold recoverLedger
  split
  · exact ⟨m.fuses, rfl, fun _ => rfl, rfl⟩
  · next e he =>
    obtain ⟨l, hl⟩ := booted_fuseLedger m e.kind e.value true (fun f => { f with unlogged := none })
    exact ⟨_, (booted_of_fixed (fixed_raise _ _ _)).trans hl, fun h => absurd (he.symm.trans h) (by simp), rfl⟩

theorem booted_wipe (m : Mach) : ∃ n, booted (if m.glume.wiping then wipeReturn m else m) = { booted m with nor := n } ∧
    (m.glume.wiping = false → n.slotA = m.nor.slotA ∧ n.slotB = m.nor.slotB) ∧ (m.glume.wiping = true → n.slotA = none ∧ n.slotB = none) := by
  split
  · next h => exact ⟨_, rfl, fun h' => absurd (h.symm.trans h') (by decide), fun _ => ⟨rfl, rfl⟩⟩
  · next h => exact ⟨m.nor, rfl, fun _ => ⟨rfl, rfl⟩, fun h' => absurd h' h⟩

theorem booted_bootCleared (m : Mach) : ∃ f n, booted (bootCleared m) = { booted m with fuses := f, nor := n } ∧
    (m.glume.retireDue = false → f = m.fuses) ∧ (m.glume.retireDue = true → f.life = .retired) ∧
    (m.glume.wiping = false → n.slotA = m.nor.slotA ∧ n.slotB = m.nor.slotB) ∧ (m.glume.wiping = true → n.slotA = none ∧ n.slotB = none) := by
  obtain ⟨n, hn, hkeep, hgone⟩ := booted_wipe m
  obtain ⟨f, hf, hsame, hret⟩ := booted_retireMove (if m.glume.wiping then wipeReturn m else m)
  have hfuses : (if m.glume.wiping then wipeReturn m else m).fuses = m.fuses := congrArg Booted.fuses hn
  have hdue : (if m.glume.wiping then wipeReturn m else m).glume.retireDue = m.glume.retireDue := by split <;> rfl
  rw [hdue, hfuses] at hsame
  rw [hdue] at hret
  exact ⟨f, n, by rw [bootCleared, hf, hn], hsame, hret, hkeep, hgone⟩

theorem booted_bootStored (m : Mach) : booted (bootStored m) = booted m := by
  unfold bootStored
  extract_lets r m1 m2 m3 trim
  exact (booted_of_fixed (fixed_wrs _ _ _)).trans rfl

/-- What the first steps of the boot change of what it gives (R23, R423, R425, R427). -/
theorem booted_bootStart (m : Mach) : ∃ f n, booted (bootStart m) = { booted m with powerGood := true, fuses := f, nor := n } ∧
    (m.fuses.unlogged = none → m.glume.retireDue = false → f = m.fuses) ∧ (m.glume.retireDue = true → f.life = .retired) ∧
    (m.glume.wiping = false → n.slotA = m.nor.slotA ∧ n.slotB = m.nor.slotB) ∧ (m.glume.wiping = true → n.slotA = none ∧ n.slotB = none) := by
  have he : booted (enter (setCtl m (fun c => { c with powerGood := true })) .booting) = { booted m with powerGood := true } := booted_enter _ _
  have hg : (enter (setCtl m (fun c => { c with powerGood := true })) .booting).glume = m.glume := enter_glume _ _
  obtain ⟨f, n, hc, hsame, hret, hkeep, hgone⟩ := booted_bootCleared (enter (setCtl m (fun c => { c with powerGood := true })) .booting)
  have hefus : (enter (setCtl m (fun c => { c with powerGood := true })) .booting).fuses = m.fuses := congrArg Booted.fuses he
  have henor : (enter (setCtl m (fun c => { c with powerGood := true })) .booting).nor = m.nor := congrArg Booted.nor he
  rw [hg] at hsame hret hkeep hgone
  rw [hefus] at hsame
  rw [henor] at hkeep
  have hfound : booted (bootFound m) = { booted m with powerGood := true, fuses := f, nor := n } := by
    rw [bootFound, booted_bootStored, booted_of_fixed (fixed_fusedTillers _), hc, he]
  have hfield : booted (if (bootFound m).eject.fieldBad then fieldFault (bootFound m) else bootFound m) = booted (bootFound m) :=
    booted_of_fixed (by rw [fixed_ite, fixed_fieldFault, ite_self])
  obtain ⟨g, hr, hnone, hlife⟩ := booted_recoverLedger (if (bootFound m).eject.fieldBad then fieldFault (bootFound m) else bootFound m)
  have hfus : (if (bootFound m).eject.fieldBad then fieldFault (bootFound m) else bootFound m).fuses = f :=
    congrArg Booted.fuses (hfield.trans hfound)
  rw [hfus] at hnone hlife
  refine ⟨g, n, ?_, fun hu hd => ?_, fun hd => hlife.trans (hret hd), hkeep, hgone⟩
  · rw [bootStart_eq]
    exact (booted_of_fixed (fixed_flashOpen _)).trans (by rw [hr, hfield, hfound])
  · rw [hsame hd] at hnone
    exact (hnone hu).trans rfl

theorem booted_wiped (m : Mach) : ∃ c, booted (wiped m true []) =
    { powerGood := false, runSlot := none, earlyApplied := false, timeApplied := false, cameraApplied := false, txDisable := c,
      now := {}, fuses := m.fuses, nor := m.nor, cfg := {} } := by
  unfold wiped
  extract_lets spares health pe m0
  exact ⟨_, (booted_of_fixed (fixed_wrs _ _ _)).trans rfl⟩

theorem wiped_glume (m : Mach) : (wiped m true []).glume = { wiping := m.glume.wiping, retireDue := m.glume.retireDue } := by
  unfold wiped
  extract_lets spares health pe m0
  rfl

end Sys2Proof.Machine

/-!
PROOFS. GEN_BOOT_STATUS after the choice of the slot.
-/

namespace Sys2Proof.Machine

/-! ### What GEN_BOOT_STATUS shows after the choice -/

/-- Why the slot that does not run was rejected, as GEN_BOOT_STATUS shows it. -/
def shownReject (m : Mach) : Nat := rd m F.GEN_BOOT_STATUS_REJECT 0

theorem shownReject_of_regs {m t : Mach} (h : t.regs = m.regs) : shownReject t = shownReject m := rd_congr h _ _

@[simp] theorem shownReject_wr (m : Mach) (f : Fld) (i v : Nat) (h : fieldApart f i F.GEN_BOOT_STATUS_REJECT 0 = true) :
    shownReject (wr m f i v) = shownReject m := rd_wr_apart m v h

theorem shownReject_raiseAs (m : Mach) (f : Fld) (i n c : Nat) (h : fieldApart f i F.GEN_BOOT_STATUS_REJECT 0 = true) :
    shownReject (raiseAs m f i n c) = shownReject m :=
  rd_raiseAs_apart m n c (by
    have : F.GEN_BOOT_STATUS_REJECT.addr 0 = 0x30 := rfl
    unfold pbaAddr
    omega) h

theorem shownReject_forEach {α : Type} (xs : List α) (m : Mach) (f : Mach → α → Mach) (h : ∀ x ∈ xs, ∀ m, shownReject (f m x) = shownReject m) :
    shownReject (forEach xs m f) = shownReject m := by
  unfold forEach
  induction xs generalizing m with
  | nil => rfl
  | cons x xs ih =>
    rw [List.foldl_cons, ih _ fun y hy => h y (List.mem_cons_of_mem x hy), h x List.mem_cons_self]

theorem shownReject_wrs (m : Mach) (i : Nat) (fs : List (Fld × Nat)) (h : ∀ x ∈ fs, fieldApart x.1 i F.GEN_BOOT_STATUS_REJECT 0 = true) :
    shownReject (wrs m i fs) = shownReject m := shownReject_forEach _ _ _ fun x hx _ => shownReject_wr _ _ _ _ (h x hx)

theorem shownReject_of_regsKeep {but : List Nat} {m t : Mach} (h : RegsKeep but m t) (hb : F.GEN_BOOT_STATUS_REJECT.addr 0 ∉ but) :
    shownReject t = shownReject m := rd_of_regsKeep h _ _ hb (.inl (by decide))

theorem shownReject_audit (m : Mach) (type ctx : Nat) (pl : List Byte) : shownReject (audit m type ctx pl) = shownReject m :=
  shownReject_of_regsKeep (regsKeep_audit m type ctx pl) (by decide)

theorem shownReject_enter (m : Mach) (n : ModState) : shownReject (enter m n) = shownReject m := by
  unfold enter
  split
  · rfl
  · exact shownReject_raiseAs _ _ _ _ _ (by decide)

theorem shownReject_enterFault (m : Mach) (cause : Nat) : shownReject (enterFault m cause) = shownReject m := by
  unfold enterFault
  split
  · rfl
  · rw [shownReject_audit, shownReject_enter]

theorem shownReject_stopModule (m : Mach) (cause : Nat) : shownReject (stopModule m cause) = shownReject m := by
  have h : shownReject (if pipelineOn m then dropAllFires m else m) = shownReject m := by
    split
    · exact shownReject_of_regsKeep (regsKeep_dropAllFires m) (by decide)
    · rfl
  exact (shownReject_enterFault _ cause).trans h

theorem shownReject_startupAlign (m : Mach) : shownReject (startupAlign m) = shownReject m := by
  have h : ∀ m : Mach, shownReject (alignState (wr m F.INT_ALIGN_STATUS_PASS 0 0) 1 0) = shownReject m := fun m => by
    unfold alignState
    rw [shownReject_wr _ _ _ _ (by decide), shownReject_wr _ _ _ _ (by decide), shownReject_wr _ _ _ _ (by decide)]
  unfold startupAlign startAlign
  split
  · dsimp only
    split
    · rw [shownReject_of_regs (setOrigin_regs _), shownReject_of_regs (setAlign_regs _ _), h, shownReject_of_regs (setCtl_regs _ _),
        shownReject_of_regs (setAlign_regs _ _)]
    · rw [h, shownReject_of_regs (setCtl_regs _ _), shownReject_of_regs (setAlign_regs _ _)]
  · rfl

theorem shownReject_measureFuses (m : Mach) : shownReject (measureFuses m) = shownReject m := by
  unfold measureFuses putMeas setMeas
  dsimp only
  split
  · rfl
  · exact (shownReject_wr _ _ _ _ (by decide)).trans (shownReject_of_regs (setGlume_regs _ _))

theorem shownReject_firstMeas (m : Mach) : shownReject (firstMeas m) = shownReject m :=
  (shownReject_wr _ _ _ _ (by decide)).trans ((shownReject_measureFuses _).trans (shownReject_of_regs (setGlume_regs _ _)))

theorem shownReject_testEvents (m : Mach) (quar bad : List Nat) : shownReject (testEvents m quar bad) = shownReject m :=
  shownReject_forEach _ _ _ fun t _ m => by
    split
    · exact shownReject_raiseAs _ _ _ _ _ (by decide)
    · rw [shownReject_audit, shownReject_raiseAs _ _ _ _ _ (by decide)]

theorem shownReject_startTraining (m : Mach) (p : Nat) (phy : PhyState) (fast : Bool) (hp : p < 16) :
    shownReject (startTraining m p phy fast) = shownReject m := by
  have h1 : ∀ p < 16, fieldApart F.SHF_PHY_STATUS_LANE_OK p F.GEN_BOOT_STATUS_REJECT 0 = true := by decide
  have h2 : ∀ p < 16, fieldApart F.SHF_PHY_STATUS_CK_LOCK p F.GEN_BOOT_STATUS_REJECT 0 = true := by decide
  unfold startTraining
  extract_lets m1 m2 m3
  have h3 : shownReject m3 = shownReject m := by
    rw [show shownReject m3 = shownReject m2 from shownReject_of_regs (setPort_regs _ _ _), shownReject_wr _ _ _ _ (h2 p hp), shownReject_wr _ _ _ _ (h1 p hp)]
  clear_value m3
  split
  · rw [shownReject_of_regs (sendFrames_regs _ _ _), h3]
  · exact h3

theorem shownReject_startPorts (m : Mach) : shownReject (startPorts m) = shownReject m :=
  shownReject_forEach _ _ _ fun p hp m => by
    split
    · exact shownReject_startTraining _ _ _ _ (by simpa using (List.mem_filter.mp hp).1)
    · rfl

theorem shownReject_loadRegisters (m : Mach) : shownReject (loadRegisters m) = shownReject m := by
  have h1 : ∀ p < 16, fieldApart F.INT_PORT_LOFS_LINE_OFS p F.GEN_BOOT_STATUS_REJECT 0 = true := by decide
  have h2 : ∀ p < 16, fieldApart F.INT_PORT_POFS_PIX_OFS p F.GEN_BOOT_STATUS_REJECT 0 = true := by decide
  unfold loadRegisters
  dsimp only
  rw [shownReject_forEach _ _ _ fun p hp m => shownReject_wrs _ _ _ fun x hx => ?_, shownReject_wrs _ _ _ fun x hx => ?_]
  · simp only [List.mem_cons, List.not_mem_nil, or_false] at hx
    rcases hx with rfl | rfl | rfl | rfl <;> rfl
  · have hp : p < 16 := by simpa using (List.mem_filter.mp hp).1
    simp only [List.mem_cons, List.not_mem_nil, or_false] at hx
    rcases hx with rfl | rfl
    · exact h1 p hp
    · exact h2 p hp

theorem shownReject_applyTime (m : Mach) : shownReject (applyTime m) = shownReject m := by
  unfold applyTime
  dsimp only
  rw [shownReject_of_regs (setCtl_regs _ _), shownReject_of_regs (setTime_regs _ _), shownReject_wr _ _ _ _ (by decide),
    shownReject_wr _ _ _ _ (by decide), shownReject_wr _ _ _ _ (by decide)]

theorem shownReject_lpRequest (m : Mach) (p : Nat) (r : LpReq) (hp : p < 16) : shownReject (lpRequest m p r) = shownReject m := by
  have h1 : ∀ p < 16, fieldApart F.SHF_PHY_EVENT_LP_REFUSED p F.GEN_BOOT_STATUS_REJECT 0 = true := by decide
  unfold lpRequest
  split
  · exact shownReject_of_regs (setPort_regs _ _ _)
  · split
    · exact shownReject_of_regs (setPort_regs _ _ _)
    · split
      · exact shownReject_raiseAs _ _ _ _ _ (h1 p hp)
      · rw [shownReject_of_regs (sendLctl_regs _ _ _ _), shownReject_of_regs (setPort_regs _ _ _)]

theorem shownReject_enterL0 (m : Mach) (p : Nat) (hp : p < 16) : shownReject (enterL0 m p) = shownReject m := by
  have h1 : ∀ p < 16, fieldApart F.SHF_PHY_STATUS_LANE_OK p F.GEN_BOOT_STATUS_REJECT 0 = true := by decide
  have h2 : ∀ p < 16, fieldApart F.SHF_PHY_STATUS_CK_LOCK p F.GEN_BOOT_STATUS_REJECT 0 = true := by decide
  have h3 : ∀ p < 16, fieldApart F.SHF_PHY_EVENT_UP p F.GEN_BOOT_STATUS_REJECT 0 = true := by decide
  unfold enterL0
  extract_lets s m1 m2 m3 m4
  have h4 : shownReject m4 = shownReject m := by
    have hm3 : shownReject m3 = shownReject m := by
      rw [show shownReject m3 = shownReject m2 from shownReject_of_regs (sendLctl_regs _ _ _ _),
        show shownReject m2 = shownReject m1 from shownReject_of_regs (setPort_regs _ _ _)]
      exact (shownReject_raiseAs _ _ _ _ _ (h3 p hp)).trans ((shownReject_wr _ _ _ _ (h2 p hp)).trans (shownReject_wr _ _ _ _ (h1 p hp)))
    simp only [m4]
    split
    · exact hm3
    · rw [shownReject_of_regs (setPort_regs _ _ _), hm3]
  clear_value m4
  split
  · rw [shownReject_lpRequest _ _ _ hp, h4]
  · rw [shownReject_lpRequest _ _ _ hp, h4]
  · exact h4

theorem shownReject_holdRelease (m : Mach) : shownReject (holdRelease m) = shownReject m :=
  shownReject_forEach _ _ _ fun p hp m => by
    split
    · exact shownReject_enterL0 m p (by simpa using hp)
    · rfl

theorem shownReject_placementDone (m : Mach) : shownReject (placementDone m) = shownReject m := by
  unfold placementDone
  dsimp only
  rw [shownReject_forEach _ _ _ fun _ _ _ => shownReject_of_regs (setFab_regs _ _), shownReject_of_regs (setFab_regs _ _)]
  exact shownReject_wr _ _ _ _ (by decide)

theorem bindQueues_regs (m : Mach) (c : Nat) (p : Program) : (bindQueues m c p).regs = m.regs :=
  forEach_regs _ _ _ fun _ _ => setQue_regs _ _ _

theorem shownReject_programsPlaced (m : Mach) : shownReject (programsPlaced m) = shownReject m := by
  unfold programsPlaced
  dsimp only
  rw [shownReject_holdRelease, shownReject_placementDone]
  refine shownReject_forEach _ _ _ fun c _ m => ?_
  split
  · rfl
  · split
    · rfl
    · exact shownReject_of_regs ((grantAll_regs _ _ _).trans ((setCtx_regs _ _ _).trans (bindQueues_regs _ _ _)))

theorem shownReject_applyImage (m : Mach) : shownReject (applyImage m) = shownReject m := by
  unfold applyImage
  extract_lets m1 m2
  have h1 : shownReject m1 = shownReject m :=
    (shownReject_applyTime _).trans ((shownReject_of_regs (setChaff_regs _ _)).trans (shownReject_loadRegisters m))
  have h2 : shownReject m2 = shownReject m1 := (shownReject_startPorts _).trans (shownReject_of_regs (setCtl_regs _ _))
  have hw : ∀ m, shownReject (bootWindows m) = shownReject m := fun m =>
    shownReject_forEach _ _ _ fun _ _ _ => shownReject_of_regs (openWindow_regs _ _ _ _ _ _ _ _)
  rw [shownReject_enter, shownReject_programsPlaced, hw, h2, h1]

theorem shownReject_bootShown (m : Mach) (quar : List Nat) :
    shownReject (bootShown m quar) = shownReject (bootStatus (bootStart m) (bootChosen m quar).mach (bootChosen m quar)) :=
  shownReject_of_regs (forEach_regs _ _ _ fun _ _ => setEnc_regs _ _ _)

theorem shownReject_hotTests (m : Mach) : shownReject (hotTests m) = shownReject m := shownReject_of_regs (setCtl_regs _ _)

theorem shownReject_bootAudited (m : Mach) : shownReject (bootAudited m) = shownReject m := shownReject_audit _ _ _ _

/-- The boot leaves GEN_BOOT_STATUS.REJECT as the choice of the slot has set it. -/
theorem shownReject_boot (m : Mach) (quar : List Nat) :
    shownReject (boot m quar) = shownReject (bootStatus (bootStart m) (bootChosen m quar).mach (bootChosen m quar)) := by
  rw [← shownReject_bootShown]
  cases h : (bootChosen m quar).slot with
  | none => rw [boot_none h, shownReject_enterFault, shownReject_bootAudited, shownReject_firstMeas]
  | some sl =>
    have ha : shownReject (bootApplied m quar sl) = shownReject (bootShown m quar) := by
      unfold bootApplied
      rw [shownReject_hotTests, shownReject_testEvents, shownReject_applyImage, shownReject_bootAudited,
        shownReject_firstMeas, shownReject_of_regs (setCtl_regs _ _)]
    rw [boot_some h, ← ha]
    split
    · exact shownReject_stopModule _ _
    · exact shownReject_startupAlign _

end Sys2Proof.Machine

/-!
PROOFS. The Tillers after the boot: what the boot leaves of `bench`.
-/

namespace Sys2Proof.Machine

/-! ### The Tillers after the boot -/

theorem tilLost_of_bench {m t : Mach} (h : bench t = bench m) (k : Nat) : tilLost t k = tilLost m k := by
  have hl : ∀ x : Tiller, (x.quar || x.st == .fusedOff) = ((handOf x).quar || (handOf x).st == .fusedOff) := fun x => by
    unfold handOf
    cases x.st <;> rfl
  exact (hl _).trans ((congrArg (fun x : Hand => x.quar || x.st == .fusedOff) (hand_of_bench h k)).trans (hl _).symm)

@[simp] theorem bench_bindBin (m : Mach) (c lt t : Nat) (p : Program) (d : BinDecl) : bench (bindBin m c lt t p d) = bench m := by
  unfold bindBin
  dsimp only
  split
  · rfl
  · rw [bench_setCtx, bench_setBin]
    split
    · exact bench_setTil _ _ _ rfl
    · split
      · exact bench_setFab _ _ rfl rfl rfl rfl rfl
      · rfl

@[simp] theorem bench_bindLts (m : Mach) (c : Nat) (lts : List Nat) : bench (bindLts m c lts) = bench m := by
  unfold bindLts
  extract_lets mp m1 m2
  have h1 : bench m1 = bench m := bench_forEach _ _ _ fun _ _ => bench_wakeTiller _ _
  have h2 : bench m2 = bench m := by
    simp only [m2]
    split
    · rw [bench_forEach _ _ _ fun _ _ => bench_bindBin _ _ _ _ _ _, h1]
    · exact h1
  rw [bench_forEach _ _ _ fun _ _ => bench_sizePool _ _ _, h2]

@[simp] theorem bench_bindCtx (m : Mach) (c : Nat) (mp : List Nat) : bench (bindCtx m c mp) = bench m :=
  (bench_bindLts _ _ _).trans (bench_setCtx _ _ _)

@[simp] theorem bench_sealProgram (m : Mach) (c : Nat) (p : Program) : bench (sealProgram m c p) = bench m :=
  (bench_setCtx _ _ _).trans (bench_draw m)

theorem bench_placeNext {m t : Mach} {c : Nat} (h : placeNext (some m) c = some t) : bench t = bench m := by
  unfold placeNext at h
  dsimp only at h
  split at h
  · cases h
    rfl
  · split at h
    · cases h
    · split at h
      · cases h
      · cases h
        exact bench_bindCtx _ _ _

theorem bench_placeAll {cs : List Nat} {m t : Mach} (h : cs.foldl placeNext (some m) = some t) : bench t = bench m := by
  induction cs generalizing m with
  | nil =>
    cases h
    rfl
  | cons c cs ih =>
    rw [List.foldl_cons] at h
    cases hn : placeNext (some m) c with
    | none =>
      rw [hn, placeNext_none] at h
      cases h
    | some m' =>
      rw [hn] at h
      exact (ih h).trans (bench_placeNext hn)

theorem bench_placeImage {m t : Mach} (h : placeImage m = some t) : bench t = bench m := by
  rw [placeImage_eq] at h
  exact (bench_placeAll h).trans (bench_forEach _ _ _ fun _ _ => bench_sealProgram _ _ _)

@[simp] theorem bench_wrs (m : Mach) (i : Nat) (fs : List (Fld × Nat)) : bench (wrs m i fs) = bench m := bench_forEach _ _ _ fun _ _ => bench_wr _ _ _ _

@[simp] theorem bench_nominalClocks (m : Mach) : bench (nominalClocks m) = bench m :=
  bench_forEach _ _ _ fun m t => by
    unfold setClock
    rw [bench_wr]
    exact bench_setTil _ _ _ rfl

theorem bench_bootShown (m : Mach) (quar : List Nat) : bench (bootShown m quar) = bench (bootChosen m quar).mach := by
  unfold bootShown startEncoders bootStatus
  rw [bench_forEach _ _ _ fun _ _ => bench_setEnc _ _ _]
  exact bench_wrs _ _ _

theorem bench_firstMeas (m : Mach) : bench (firstMeas m) = bench m := by
  unfold firstMeas
  dsimp only
  rw [bench_wr, bench_measureFuses, bench_setGlume]

theorem bench_placementDone (m : Mach) : bench (placementDone m) = bench m := by
  unfold placementDone
  dsimp only
  rw [bench_forEach _ _ _ fun _ _ => bench_setFab _ _ rfl rfl rfl rfl rfl, bench_setFab _ _ rfl rfl rfl rfl rfl, bench_wr]

theorem bench_programsPlaced (m : Mach) : bench (programsPlaced m) = bench m := by
  have hold : ∀ m, bench (holdRelease m) = bench m := fun m => bench_forEach _ _ _ fun m p => by
    split
    · exact bench_enterL0 _ _
    · rfl
  unfold programsPlaced
  dsimp only
  rw [hold, bench_placementDone]
  refine bench_forEach _ _ _ fun m c => ?_
  split
  · rfl
  · split
    · rfl
    · rw [bench_grantAll, bench_setCtx]
      exact bench_forEach _ _ _ fun _ _ => bench_setQue _ _ _

theorem bench_applyImage (m : Mach) : bench (applyImage m) = bench m := by
  unfold applyImage
  extract_lets m1 m2
  have h1 : bench m1 = bench m := by
    have hr : bench (loadRegisters m) = bench m := by
      unfold loadRegisters
      dsimp only
      rw [bench_forEach _ _ _ fun _ _ => bench_wrs _ _ _, bench_wrs]
    simp only [m1, applyTime, loadChaff, bench_setCtl, bench_setTime, bench_wr, bench_setChaff, hr]
  have h2 : bench m2 = bench m1 := (bench_forEach _ _ _ fun m p => by
    split
    · exact bench_startTraining _ _ _ _
    · rfl).trans (bench_setCtl _ _)
  have hw : ∀ m, bench (bootWindows m) = bench m := fun m => bench_forEach _ _ _ fun _ _ => bench_openWindow _ _ _ _ _ _ _ _
  rw [bench_enter, bench_programsPlaced, hw, h2, h1]

theorem bench_testEvents (m : Mach) (quar bad : List Nat) : bench (testEvents m quar bad) = bench m :=
  bench_forEach _ _ _ fun m t => by
    split
    · exact bench_raiseAs _ _ _ _ _
    · rw [bench_audit, bench_raiseAs]

theorem bench_bootApplied (m : Mach) (quar : List Nat) (s : Slot) : bench (bootApplied m quar s) = bench (bootChosen m quar).mach := by
  have hh : ∀ m, bench (hotTests m) = bench m := fun m => bench_setCtl _ _
  have ha : ∀ m, bench (bootAudited m) = bench m := fun m => bench_audit _ _ _ _
  unfold bootApplied
  rw [hh, bench_testEvents, bench_applyImage, ha, bench_firstMeas, bench_setCtl, bench_bootShown]

end Sys2Proof.Machine

/-!
PROOFS. The Tillers in service after the boot (R355, R356).
-/

namespace Sys2Proof.Machine

/-- No Tiller is held in quarantine by its sensor (R442). -/
def Cool (m : Mach) : Prop := ∀ t, (tilOf m t).thermQuar = false

theorem Cool.of_fab {m t : Mach} (h : Cool m) (hf : t.fab = m.fab) : Cool t := fun k => by rw [tilOf_congr hf]; exact h k

theorem Cool.setTil {m : Mach} (h : Cool m) (t : Nat) (f : Tiller → Tiller) (hf : ∀ x, (f x).thermQuar = x.thermQuar) : Cool (setTil m t f) := by
  intro k
  by_cases hk : k = t
  · subst hk
    rw [tilOf_setTil_same, hf]
    exact h k
  · rw [tilOf_setTil_ne _ _ hk]
    exact h k

theorem Cool.forEach {α : Type} {f : Mach → α → Mach} (hf : ∀ m x, Cool m → Cool (f m x)) (xs : List α) {m : Mach} (h : Cool m) :
    Cool (forEach xs m f) := by
  unfold Machine.forEach
  induction xs generalizing m with
  | nil => exact h
  | cons x xs ih => exact ih (hf m x h)

theorem audit_fab (m : Mach) (type ctx : Nat) (pl : List Byte) : (audit m type ctx pl).fab = m.fab := by
  unfold audit
  split
  · exact inc_fab _ _ _
  · exact (startProg_fab _).trans (setFlash_fab _ _)

theorem measureFuses_fab (m : Mach) : (measureFuses m).fab = m.fab := by
  unfold measureFuses putMeas setMeas
  dsimp only
  split
  · rfl
  · exact (wr_fab _ _ _ _).trans (setGlume_fab _ _)

theorem fuseLedger_fab (m : Mach) (kind : Nat) (v : Word) (r : Bool) (f : Fuses → Fuses) : (fuseLedger m kind v r f).fab = m.fab :=
  (measureFuses_fab _).trans ((audit_fab _ _ _ _).trans (setFuses_fab _ _))

theorem bootCleared_fab (m : Mach) : (bootCleared m).fab = m.fab := by
  have hw : (if m.glume.wiping then wipeReturn m else m).fab = m.fab := by split <;> rfl
  have hr : ∀ m, (retireMove m).fab = m.fab := fun m => by
    unfold retireMove
    split
    · exact (fuseLedger_fab _ _ _ _ _).trans (setGlume_fab _ _)
    · rfl
  exact (hr _).trans hw

theorem cool_bootStart {m : Mach} (h : Cool m) : Cool (bootStart m) := by
  have hf : Cool (bootFound m) := by
    have h1 : Cool (bootCleared (enter (setCtl m (fun c => { c with powerGood := true })) .booting)) :=
      h.of_fab ((bootCleared_fab _).trans ((enter_fab _ _).trans (setCtl_fab _ _)))
    have h2 := Cool.forEach (f := fun m t => setTil m t (fun x => { x with st := .fusedOff })) (fun m t hm => hm.setTil t _ fun _ => rfl)
      ((List.range 8).filter (fun t => (bootCleared (enter (setCtl m (fun c => { c with powerGood := true })) .booting)).fuses.tillerOff.getLsbD t)) h1
    exact h2
  have hfield : (if (bootFound m).eject.fieldBad then fieldFault (bootFound m) else bootFound m).fab = (bootFound m).fab := by
    split
    · exact (raise_fab _ _ _).trans (raise_fab _ _ _)
    · rfl
  have hrec : ∀ m, (recoverLedger m).fab = m.fab := fun m => by
    unfold recoverLedger
    split
    · rfl
    · exact (raise_fab _ _ _).trans (fuseLedger_fab _ _ _ _ _)
  have hopen : ∀ m, (flashOpen m).fab = m.fab := fun m => by
    unfold flashOpen
    dsimp only
    split
    · rfl
    · exact (setFlash_fab _ _).trans (audit_fab _ _ _ _)
  rw [bootStart_eq]
  exact hf.of_fab ((setCtl_fab _ _).trans ((hopen _).trans ((hrec _).trans hfield)))

theorem wrs_fab (m : Mach) (i : Nat) (fs : List (Fld × Nat)) : (wrs m i fs).fab = m.fab := forEach_fab _ _ _ fun _ _ => wr_fab _ _ _ _

theorem wiped_fab (m : Mach) : (wiped m true []).fab = {} := wrs_fab _ _ _

theorem cool_wiped (m : Mach) : Cool (wiped m true []) := fun t => by
  rw [tilOf, wiped_fab]
  rfl

/-- A Tiller as a boot configures it. -/
def crewStep (bad : List Nat) (m : Mach) (t : Nat) : Mach :=
  setTil m t (fun x => { x with
    st := if m.fuses.tillerOff.getLsbD t then .fusedOff else if bad.contains t then .quarantined else if tooHot m t then .reset else .idle
    quar := !m.fuses.tillerOff.getLsbD t && (bad.contains t || tooHot m t) })

theorem configure_eq (m : Mach) (i : Image) (bad : List Nat) : configure m i bad =
    nominalClocks (forEach (List.range 8) (setIsp { m with cfg := i } (fun x => { x with set0 := i.isp.words, set1 := i.isp.words })) (crewStep bad)) := rfl

theorem tilLost_crewStep {m : Mach} {k : Nat} (h : Cool m) (hk : m.fuses.tillerOff.getLsbD k = false) : tilLost (crewStep [] m k) k = false := by
  have hot : tooHot m k = false := by simp [tooHot, h k]
  simp [tilLost, crewStep, hk, hot]

theorem tilLost_crew (ts : List Nat) {m : Mach} {k : Nat} (h : Cool m) (hk : m.fuses.tillerOff.getLsbD k = false) (ht : k ∈ ts ∨ tilLost m k = false) :
    tilLost (forEach ts m (crewStep [])) k = false := by
  unfold forEach
  induction ts generalizing m with
  | nil => simpa using ht
  | cons t ts ih =>
    refine ih (h.setTil t _ fun _ => rfl) hk ?_
    by_cases hkt : k = t
    · subst hkt
      exact .inr (tilLost_crewStep h hk)
    · refine ht.imp (fun hm => (List.mem_cons.mp hm).resolve_left hkt) fun hl => ?_
      unfold crewStep tilLost
      rw [tilOf_setTil_ne _ _ hkt]
      exact hl

/-- A slot that passes puts a Tiller that is not fused off, and none of which had failed, in service. -/
theorem tilLost_trySlot {m : Mach} {sl : Slot} {k : Nat} (h : (trySlot m sl []).1 = 0) (hc : Cool m) (hk8 : k < 8)
    (hk : m.fuses.tillerOff.getLsbD k = false) : tilLost (trySlot m sl []).2 k = false := by
  rcases trySlot_cases m sl [] with ⟨c, t, h0, -, he, -⟩ | ⟨i, t, -, -, -, ht, he⟩
  · rw [he] at h
    exact absurd h h0
  · rw [he]
    refine (tilLost_of_bench (bench_placeImage ht) k).trans ?_
    rw [configure_eq, tilLost_of_bench (bench_nominalClocks _)]
    exact tilLost_crew _ (hc.of_fab rfl) hk (.inl (List.mem_range.mpr hk8))

theorem cool_trySlot_rejected {m : Mach} {sl : Slot} {bad : List Nat} (h : (trySlot m sl bad).1 ≠ 0) (hc : Cool m) : Cool (trySlot m sl bad).2 := by
  rcases trySlot_cases m sl bad with ⟨c, t, -, -, he, ht⟩ | ⟨i, t, -, -, -, -, he⟩
  · rw [he]
    rcases ht with rfl | ⟨i, rfl⟩
    · exact hc
    · exact hc.of_fab rfl
  · rw [he] at h
    exact absurd rfl h

theorem fuses_trialTaken (m : Mach) : (trialTaken m).fuses = m.fuses := by
  obtain ⟨n, h, -⟩ := booted_trialTaken m
  exact congrArg Booted.fuses h

theorem fuses_activeTry (m : Mach) (bad : List Nat) : (activeTry m bad).2.fuses = m.fuses := by
  obtain ⟨e, g, h⟩ := booted_activeTry m bad
  exact (congrArg Booted.fuses h).trans (fuses_trialTaken m)

theorem cool_trialTaken {m : Mach} (h : Cool m) : Cool (trialTaken m) := by
  unfold trialTaken
  split
  · exact h.of_fab (setNor_fab _ _)
  · exact h

theorem cool_activeTry_rejected {m : Mach} {bad : List Nat} (h : (activeTry m bad).1 ≠ 0) (hc : Cool m) : Cool (activeTry m bad).2 := by
  unfold activeTry at h ⊢
  split
  · exact cool_trialTaken hc
  · next hs =>
    rw [if_neg hs] at h
    exact cool_trySlot_rejected h (cool_trialTaken hc)

/-- The slot that runs puts a Tiller that is not fused off in service, where none was quarantined before. -/
theorem tilLost_choose {m : Mach} {sl : Slot} {k : Nat} (h : (choose m []).slot = some sl) (hc : Cool m) (hk8 : k < 8)
    (hk : m.fuses.tillerOff.getLsbD k = false) : tilLost (choose m []).mach k = false := by
  by_cases hl : m.fuses.life = .retired
  · rw [choose_retired [] hl] at h
    cases h
  · rw [choose_eq [] hl] at h ⊢
    split at h
    · next ha =>
      rw [if_pos ha]
      unfold activeTry at ha ⊢
      split at ha
      · cases ha
      · next hs =>
        rw [if_neg hs]
        exact tilLost_trySlot ha (cool_trialTaken hc) hk8 (by rw [fuses_trialTaken]; exact hk)
    · next ha =>
      rw [if_neg ha]
      split at h
      · next ho =>
        rw [if_pos ho]
        exact tilLost_trySlot ho (cool_activeTry_rejected ha hc) hk8 (by rw [fuses_activeTry]; exact hk)
      · cases h

end Sys2Proof.Machine

/-!
PROOFS. The boot by the slot chosen (R71, R73).
-/

namespace Sys2Proof.Machine

/-! ### The boot, and the statement O21 -/

theorem activeSlot_congr {m t : Mach} (h : t.nor = m.nor) : activeSlot t = activeSlot m := by
  unfold activeSlot
  rw [h]

theorem activeSlot_choose (m : Mach) (bad : List Nat) : activeSlot (choose m bad).mach = activeSlot m := by
  rcases booted_choose m bad with h | ⟨e, g, h⟩
  · exact activeSlot_congr (congrArg Booted.nor h)
  · exact (activeSlot_congr (m := trialTaken m) (congrArg Booted.nor h)).trans (activeSlot_trialTaken m)

theorem otherSlot_ne (sl : Slot) : otherSlot sl ≠ sl := by cases sl <;> decide

/-- The slot chosen, and the code of the one that does not run (R71). -/
theorem chosen_cases {m : Mach} {quar : List Nat} (hl : (bootTested m quar).1.fuses.life ≠ .retired) :
    let a := activeTry (bootTested m quar).1 (bootTested m quar).2
    let o := otherTry (bootTested m quar).1 (bootTested m quar).2
    let act := activeSlot (bootTested m quar).1
    (a.1 = 0 → (bootChosen m quar).slot = some act ∧ shownReject (boot m quar) = 0) ∧
    (a.1 ≠ 0 → o.1 = 0 → (bootChosen m quar).slot = some (otherSlot act) ∧ shownReject (boot m quar) = a.1) ∧
    (a.1 ≠ 0 → o.1 ≠ 0 → (bootChosen m quar).slot = none ∧ shownReject (boot m quar) = o.1) := by
  intro a o act
  have hc : bootChosen m quar = if a.1 = 0 then ⟨some act, a.2, 0, 0⟩ else if o.1 = 0 then ⟨some (otherSlot act), o.2, a.1, 0⟩
    else ⟨none, o.2, a.1, o.1⟩ := choose_eq _ hl
  have hs : shownReject (boot m quar) = (if (bootChosen m quar).slot.getD act = act then (bootChosen m quar).codeO else (bootChosen m quar).codeA) % 256 := by
    have h := rd_bootStatus (bootStart m) (bootChosen m quar).mach (bootChosen m quar)
    rw [bootChosen, activeSlot_choose] at h
    exact (shownReject_boot m quar).trans h
  have halt : a.1 < 256 := by
    simp only [a, activeTry]
    split
    · exact Nat.lt_of_sub_eq_succ rfl
    · exact trySlot_code_lt _ _ _
  have holt : o.1 < 256 := trySlot_code_lt _ _ _
  refine ⟨fun ha => ?_, fun ha ho => ?_, fun ha ho => ?_⟩
  · rw [if_pos ha] at hc
    rw [hs, hc]
    exact ⟨rfl, by simp⟩
  · rw [if_neg ha, if_pos ho] at hc
    rw [hs, hc]
    exact ⟨rfl, by simp [otherSlot_ne, Nat.mod_eq_of_lt halt]⟩
  · rw [if_neg ha, if_neg ho] at hc
    rw [hs, hc]
    exact ⟨rfl, by simp [Nat.mod_eq_of_lt holt]⟩

/-- With no slot to run the boot ends in FAULT, from BOOTING (R71). -/
theorem fault_boot_none {m : Mach} {quar : List Nat} (h : (bootChosen m quar).slot = none) :
    (boot m quar).ctl.st = .fault ∧ (boot m quar).ctl.prev = .booting := by
  have hb : (bootAudited (firstMeas (bootShown m quar))).ctl.st = .booting := by
    have h : (fixed (bootAudited (firstMeas (bootShown m quar)))).ctl.st = .booting := by simp [bootAudited, st_bootShown]
    exact h
  rw [boot_none h]
  generalize bootAudited (firstMeas (bootShown m quar)) = t at hb
  have he : fixed (enterFault t 1) = { fixed t with ctl := { t.ctl with st := .fault, prev := t.ctl.st } } := by
    unfold enterFault
    rw [if_neg (by simp [hb])]
    exact (fixed_audit _ _ _ _).trans (fixed_enter_ne (by rw [hb]; decide))
  rw [fixed_ctl he]
  exact ⟨rfl, hb⟩

/-- What the boot gives, by the slot chosen. -/
theorem booted_boot (m : Mach) (quar : List Nat) : ∃ e g n ta ca tx, booted (boot m quar) = { booted (bootTested m quar).1 with
      runSlot := if (bootChosen m quar).slot.isSome then (bootChosen m quar).slot else (bootTested m quar).1.ctl.runSlot
      earlyApplied := e, cfg := g, nor := n, timeApplied := ta, cameraApplied := ca, txDisable := tx } ∧
    n.slotA = (bootTested m quar).1.nor.slotA ∧ n.slotB = (bootTested m quar).1.nor.slotB := by
  have hc : ∃ e g n, booted (bootChosen m quar).mach = { booted (bootTested m quar).1 with earlyApplied := e, cfg := g, nor := n } ∧
      n.slotA = (bootTested m quar).1.nor.slotA ∧ n.slotB = (bootTested m quar).1.nor.slotB := by
    rcases booted_choose (bootTested m quar).1 (bootTested m quar).2 with h | ⟨e, g, h⟩
    · exact ⟨_, _, _, h, rfl, rfl⟩
    · obtain ⟨n, hn, hab⟩ := booted_trialTaken (bootTested m quar).1
      exact ⟨e, g, n, by rw [bootChosen, h, hn], hab⟩
  obtain ⟨e, g, n, h, hab⟩ := hc
  cases hs : (bootChosen m quar).slot with
  | none => exact ⟨e, g, n, _, _, _, (booted_boot_none hs).trans h, hab⟩
  | some sl => exact ⟨e, g, n, _, _, _, by rw [booted_boot_some hs, h]; rfl, hab⟩

theorem booted_bootTested (m : Mach) (quar : List Nat) : booted (bootTested m quar).1 = booted (bootStart m) := booted_of_fixed (fixed_testQuarantined _ _)

/-- Where a slot runs, its image is in force and TIME and CAMERA are applied. -/
theorem inForce_boot {m : Mach} {quar : List Nat} {sl : Slot} (h : (bootChosen m quar).slot = some sl) : ImageInForce (boot m quar) sl ∧
    (boot m quar).ctl.timeApplied = true ∧ (boot m quar).ctl.cameraApplied = true ∧ (boot m quar).ctl.txDisable = false := by
  have hb := booted_boot_some h
  have hi : ImageInForce (bootChosen m quar).mach sl := imageInForce_choose h
  exact ⟨hi.booted (congrArg Booted.fuses hb) (congrArg Booted.nor hb) (congrArg Booted.cfg hb) (congrArg Booted.earlyApplied hb),
    congrArg Booted.timeApplied hb, congrArg Booted.cameraApplied hb, congrArg Booted.txDisable hb⟩

/-- Where a slot runs, one Tiller that is not fused off and none that was quarantined before are enough for CONFIGURED. -/
theorem configured_boot {m : Mach} {sl : Slot} {k : Fin 8} (h : (bootChosen m []).slot = some sl) (hc : Cool m)
    (hk : (boot m []).fuses.tillerOff.getLsbD k = false) : (boot m []).ctl.st = .configured := by
  have hfus : (boot m []).fuses = (bootTested m []).1.fuses := by
    obtain ⟨e, g, n, ta, ca, tx, hb, -⟩ := booted_boot m []
    exact congrArg Booted.fuses hb
  have hup : tilLost (bootApplied m [] sl) k = false :=
    (tilLost_of_bench (bench_bootApplied m [] sl) k).trans (tilLost_choose (m := bootStart m) h (cool_bootStart hc) k.isLt (by rw [hfus] at hk; exact hk))
  have hall : (List.range 8).all (tilLost (bootApplied m [] sl)) = false := by
    rw [List.all_eq_false]
    exact ⟨k, List.mem_range.mpr k.isLt, by simp [hup]⟩
  have hst := (st_startupAlign (bootApplied m [] sl)).trans (st_bootApplied m [] sl)
  rw [boot_some h, if_neg (by rw [hall]; decide)]
  exact (congrArg Ctl.st (fixed_ctl (m := startupAlign (bootApplied m [] sl)) rfl)).trans hst

/-- What was sent before takes no part in which slots pass. -/
theorem tries_withOut (m : Mach) (o : List Output) (bad : List Nat) :
    (activeTry (withOut m o) bad).1 = (activeTry m bad).1 ∧ (otherTry (withOut m o) bad).1 = (otherTry m bad).1 := by
  have ht : trialTaken (withOut m o) = withOut (trialTaken m) o := by
    unfold trialTaken writeBc
    rw [← ite_withOut]
    rfl
  have ha : ∃ o', activeTry (withOut m o) bad = ((activeTry m bad).1, withOut (activeTry m bad).2 o') := by
    by_cases h : activeGood m = false ∧ (bcOf m.nor).trial = 0
    · have h1 : activeTry m bad = (8, trialTaken m) := if_pos h
      have h2 : activeTry (withOut m o) bad = (8, trialTaken (withOut m o)) := if_pos h
      exact ⟨o, by rw [h1, h2, ht]⟩
    · have h1 : activeTry m bad = trySlot (trialTaken m) (activeSlot m) bad := if_neg h
      have h2 : activeTry (withOut m o) bad = trySlot (trialTaken (withOut m o)) (activeSlot m) bad := if_neg h
      rw [h1, h2, ht]
      exact trySlot_withOut _ _ _ _
  obtain ⟨o₁, h₁⟩ := ha
  obtain ⟨o₂, h₂⟩ := trySlot_withOut (activeTry m bad).2 o₁ (otherSlot (activeSlot m)) bad
  refine ⟨by rw [h₁], ?_⟩
  have hother : otherTry (withOut m o) bad = trySlot (activeTry (withOut m o) bad).2 (otherSlot (activeSlot m)) bad := rfl
  rw [hother, h₁, h₂, otherTry]

/-- The boot of POWER_GOOD, with the outputs of the commands before cleared, tests and finds what it would without. -/
theorem bootTested_fresh (m : Mach) (quar : List Nat) : ∃ o, bootTested (wiped (fresh m) true []) quar =
    (withOut (bootTested (wiped m true []) quar).1 o, (bootTested (wiped m true []) quar).2) := by
  obtain ⟨o, h⟩ := deaf_bootStart (wiped m true []) []
  refine ⟨o, ?_⟩
  rw [bootTested, fresh_eq_withOut, wiped_withOut, h]
  exact testQuarantined_withOut _ _ _

theorem powerGood_boots {m : Mach} (hst : m.ctl.st = .powering) (htrip : m.ctl.tripped = false) (hgood : m.ctl.powerGood = false) :
    powerGood (fresh m) = boot (wiped (fresh m) true []) (quarantined m) := by
  have h : (decide ((fresh m).ctl.st ≠ .powering) || (fresh m).ctl.tripped || (fresh m).ctl.powerGood) = false := by
    simp [fresh, hst, htrip, hgood]
  exact if_neg (by rw [h]; decide)

theorem powerGood_ignored {m : Mach} (h : m.ctl.st ≠ .powering ∨ m.ctl.tripped = true) : powerGood m = m := by
  have h : (decide (m.ctl.st ≠ .powering) || m.ctl.tripped || m.ctl.powerGood) = true := by
    rcases h with h | h <;> simp [h]
  exact if_pos h

end Sys2Proof.Machine

/-!
PROOFS. POWER_GOOD, and the statement O21.
-/

namespace Sys2Proof.Machine

theorem slotImage_settle (n m : Mach) (sl : Slot) : slotImage (settle n m) sl = slotImage m sl := by cases sl <;> simp [slotImage]

/-- What a boot after power-on gives whichever slot runs: time from 0, and what it keeps of fuses and slots. -/
theorem kept_powerOn (m : Mach) (quar : List Nat) :
    let t := boot (wiped m true []) quar
    t.ctl.powerGood = true ∧ t.time.now = {} ∧ t.ctl.runSlot = (bootChosen (wiped m true []) quar).slot ∧
    t.fuses = (bootTested (wiped m true []) quar).1.fuses ∧
    (m.fuses.unlogged = none → m.glume.retireDue = false → t.fuses = m.fuses) ∧ (m.glume.retireDue = true → t.fuses.life = .retired) ∧
    (m.glume.wiping = false → t.nor.slotA = m.nor.slotA ∧ t.nor.slotB = m.nor.slotB) ∧
    (m.glume.wiping = true → t.nor.slotA = none ∧ t.nor.slotB = none) := by
  intro t
  obtain ⟨c, hw⟩ := booted_wiped m
  obtain ⟨f, n, hs, hsame, hret, hkeep, hgone⟩ := booted_bootStart (wiped m true [])
  have hwf : (wiped m true []).fuses = m.fuses := congrArg Booted.fuses hw
  have hwn : (wiped m true []).nor = m.nor := congrArg Booted.nor hw
  rw [wiped_glume] at hsame hret hkeep hgone
  rw [hwf] at hsame
  rw [hwn] at hkeep
  rw [hw] at hs
  obtain ⟨e, g, n', ta, ca, tx, hb, hA, hB⟩ := booted_boot (wiped m true []) quar
  have ht := booted_bootTested (wiped m true []) quar
  have htn : (bootTested (wiped m true []) quar).1.nor = n := congrArg Booted.nor (ht.trans hs)
  have htf : (bootTested (wiped m true []) quar).1.fuses = f := congrArg Booted.fuses (ht.trans hs)
  have htr : (bootTested (wiped m true []) quar).1.ctl.runSlot = none := congrArg Booted.runSlot (ht.trans hs)
  rw [htn] at hA hB
  have hfus : t.fuses = (bootTested (wiped m true []) quar).1.fuses := congrArg Booted.fuses hb
  have hnor : t.nor = n' := congrArg Booted.nor hb
  refine ⟨(congrArg Booted.powerGood hb).trans (congrArg Booted.powerGood (ht.trans hs)),
    (congrArg Booted.now hb).trans (congrArg Booted.now (ht.trans hs)), ?_, hfus, ?_, ?_, ?_, ?_⟩
  · rw [show t.ctl.runSlot = _ from congrArg Booted.runSlot hb]
    dsimp only
    rw [htr]
    cases (bootChosen (wiped m true []) quar).slot <;> rfl
  · exact fun hu hd => hfus.trans (htf.trans (hsame hu hd))
  · exact fun hd => by rw [hfus, htf, hret hd]
  · rw [hnor, hA, hB]
    exact hkeep
  · rw [hnor, hA, hB]
    exact hgone

/-- What a boot after power-on gives, by the codes of the slots: `a` and `o` are those of the ACTIVE slot and of the other. -/
theorem chosen_powerOn (s : Mach) (quar : List Nat) :
    let m := bootTested (wiped s true []) quar
    let t := boot (wiped (fresh s) true []) quar
    let a := activeTry m.1 m.2
    let o := otherTry m.1 m.2
    let act := activeSlot m.1
    (t.fuses.life ≠ .retired →
      (a.1 = 0 → t.ctl.runSlot = some act ∧ shownReject t = 0) ∧
      (a.1 ≠ 0 → o.1 = 0 → t.ctl.runSlot = some (otherSlot act) ∧ shownReject t = a.1) ∧
      (a.1 ≠ 0 → o.1 ≠ 0 → t.ctl.st = .fault ∧ t.ctl.prev = .booting ∧ t.ctl.runSlot = none ∧ shownReject t = o.1)) ∧
    (t.fuses.life = .retired → t.ctl.st = .fault ∧ t.ctl.prev = .booting ∧ t.ctl.runSlot = none) ∧
    (t.ctl.st = .configured → t.ctl.runSlot.isSome = true) := by
  intro m t a o act
  obtain ⟨-, -, hrun, hfus, -⟩ := kept_powerOn (fresh s) quar
  obtain ⟨x, hx⟩ := bootTested_fresh s quar
  obtain ⟨hca, hco⟩ := tries_withOut m.1 x m.2
  have hnone : (bootChosen (wiped (fresh s) true []) quar).slot = none → t.ctl.st = .fault ∧ t.ctl.prev = .booting ∧ t.ctl.runSlot = none :=
    fun h => ⟨(fault_boot_none h).1, (fault_boot_none h).2, hrun.trans h⟩
  refine ⟨fun hl => ?_, fun hl => hnone ?_, fun hc => ?_⟩
  · rw [hfus] at hl
    have h := chosen_cases hl
    rw [hx] at h
    obtain ⟨h1, h2, h3⟩ := h
    dsimp only at h1 h2 h3
    rw [hca] at h1 h2 h3
    rw [hco] at h2 h3
    refine ⟨fun ha => ?_, fun ha ho => ?_, fun ha ho => ?_⟩
    · exact ⟨hrun.trans (h1 ha).1, (h1 ha).2⟩
    · exact ⟨hrun.trans (h2 ha ho).1, (h2 ha ho).2⟩
    · obtain ⟨hslot, hcode⟩ := h3 ha ho
      obtain ⟨hf, hp, hr⟩ := hnone hslot
      exact ⟨hf, hp, hr, hcode⟩
  · rw [hfus] at hl
    rw [bootChosen, choose_retired _ hl]
  · cases h : (bootChosen (wiped (fresh s) true []) quar).slot with
    | none => exact absurd (hc.symm.trans (hnone h).1) (by decide)
    | some sl => exact congrArg Option.isSome (hrun.trans h)

/-- Settles O21: the boot of POWER_GOOD is taken apart at the choice of the slot (R71). What comes before it settles fuses, slots and time;
the choice itself, which what was sent before has no part in, gives the slot, its image and the reject code; what comes after it changes no
more than the module state and what is applied. -/
theorem powerGoodBootsAValidSlot : Obligations.PowerGoodBootsAValidSlot := by
  unfold Obligations.PowerGoodBootsAValidSlot
  refine ⟨fun s hst htrip hgood => ?_, fun s h => ?_⟩
  · intro m b act good m1 a o
    refine completes_run powerGood rfl ?_
    rw [powerGood_boots hst htrip hgood]
    obtain ⟨hon, hnow, hrun, -, hkept, hret, hslots, hgone⟩ := kept_powerOn (fresh s.mach) (quarantined s.mach)
    obtain ⟨hcases, hretired, hconf⟩ := chosen_powerOn s.mach (quarantined s.mach)
    have hstates := st_boot (wiped (fresh s.mach) true []) (quarantined s.mach)
    simp only [settle_ctl, settle_time, settle_fuses, settle_nor, settle_cfg, rd_settle, slotImage_settle]
    refine ⟨hon, hstates, hnow, hcases, hretired, hconf, fun sl hsl => ?_, hkept, hret, hslots, hgone⟩
    have hslot := hrun.symm.trans hsl
    obtain ⟨⟨himg, hearly, hdig, hea⟩, htime, hcam, htx⟩ := inForce_boot hslot
    refine ⟨himg, hearly, hdig, htime, hcam, htx, hea, fun hq hk => ?_⟩
    obtain ⟨k, hk⟩ := hk
    rw [hq] at hslot hk ⊢
    exact configured_boot hslot (cool_wiped _) hk
  · refine completes_run powerGood rfl ?_
    rw [powerGood_ignored (m := fresh s.mach) h]
    exact ⟨keeps_settle (keeps_fresh _ _), by simp [RegsSame]⟩

end Sys2Proof.Machine

/-!
PROOFS. Every command but an undefined JTAG instruction is run by `State.run`; the statements O2 and O16.
-/

namespace Sys2Proof.Machine

/-- Every command but a JTAG instruction answers a next state, in which the queue is as it was. -/
theorem exec_next {c : Instr} (h : ∀ ir, c ≠ .jtagInstruction ir) (s : State) : ∃ m, exec c s = .next { s with mach := m } := by
  cases c with
  | jtagInstruction ir => exact absurd rfl (h ir)
  | _ => exact ⟨_, rfl⟩

/-- What a JTAG instruction that acts as IDCODE or as BYPASS does (R42, R428). -/
def jtagShift (id : Bool) (m : Mach) : Mach :=
  if alive m then emit (setHost m (fun h => { h with jtagId := id })) (.jtag (if id then Config.jtagIdcode else 0)) else m

theorem jtagShift_alive {m : Mach} {id : Bool} (h : alive m = true) : jtagShift id m =
    emit (setHost m (fun h => { h with jtagId := id })) (.jtag (if id then Config.jtagIdcode else 0)) := if_pos h

theorem exec_jtag_idcode (s : State) : exec (.jtagInstruction .idcode) s = s.run (jtagShift true) := rfl

theorem exec_jtag_bypass (s : State) : exec (.jtagInstruction .bypass) s = s.run (jtagShift false) := rfl

theorem exec_jtag_other (code : Nat) (s : State) : exec (.jtagInstruction (.other code)) s =
    if alive s.mach && effLevel s.mach = .full then .refused .jtagInstructionUndefined else s.run (jtagShift false) := rfl

/-- What is run by `State.run` answers a next state and leaves the queue. -/
theorem answers_run {c : Instr} {s : State} {f : Mach → Mach} (h : exec c s = s.run f) : ∃ t, exec c s = .next t ∧ t.pending = s.pending :=
  ⟨_, h, rfl⟩

/-- Settles O2: every command is run by `State.run`, but for the one JTAG instruction whose effect the spec leaves out. -/
theorem everyCommandAnswersANextState : Obligations.EveryCommandAnswersANextState := by
  unfold Obligations.EveryCommandAnswersANextState
  refine fun c s => ⟨fun hc => ?_, fun code hc ha => ?_⟩
  · by_cases hj : ∃ ir, c = Instr.jtagInstruction ir
    · obtain ⟨ir, rfl⟩ := hj
      cases ir with
      | idcode => exact answers_run (exec_jtag_idcode s)
      | bypass => exact answers_run (exec_jtag_bypass s)
      | other code => exact absurd rfl (hc code)
    · obtain ⟨m, hm⟩ := exec_next (c := c) (fun ir h => hj ⟨ir, h⟩) s
      exact ⟨_, hm, rfl⟩
  · subst hc
    rw [exec_jtag_other]
    refine ⟨fun hl => if_pos (by simp [ha, hl]), fun hl => ?_⟩
    rw [if_neg (by simp [hl])]
    exact ⟨_, rfl, rfl⟩

/-- A JTAG instruction that shifts changes the host interface alone, while the module has power. -/
theorem completes_jtagShift {s : State} {ir : JtagIr} (id : Bool) (h : exec (.jtagInstruction ir) s = s.run (jtagShift id)) (ha : alive s.mach = true) :
    Completes (.jtagInstruction ir) s (fun t => t.out = [.jtag (if id then Config.jtagIdcode else 0)] ∧ t.host.jtagId = id ∧ Keeps [.host] s.mach t ∧
      RegsSame s.mach t) := by
  refine completes_run _ h ?_
  rw [jtagShift_alive (m := fresh s.mach) ha]
  refine ⟨by simp [emit], by simp [emit], keeps_settle (keeps_trans (keeps_fresh _ _) (keeps_trans (keeps_setHost _ _) (keeps_emit _ _ _))), ?_⟩
  simp [RegsSame, emit]

theorem levelCode_pos (l : DebugLevel) : 1 ≤ levelCode l ↔ l ≠ .none := by cases l <;> decide

theorem effLevel_fresh (m : Mach) : effLevel (fresh m) = effLevel m := rfl

/-- The status line is due: the module has power, a level of TELEMETRY or above stands, and the last line is a second old (R428). -/
def UartDue (m : Mach) : Prop :=
  alive m = true ∧ effLevel m ≠ .none ∧ ∀ u, m.host.uartAt = some u → lessSince m.time.now u 1000000000 = false

theorem uartLine_due {m : Mach} (h : UartDue m) : uartLine m =
    emit (setHost (draw m).1 (fun h => { h with uartAt := some m.time.now })) (.uart (Config.uartLine (draw m).2)) := by
  obtain ⟨ha, hl, ht⟩ := h
  have hs : m.host.uartAt.any (fun t => lessSince m.time.now t giga) = false := by
    rw [Option.any_eq_false]
    exact fun u hu => by simp [ht u hu, giga]
  refine if_pos ?_
  simp [ha, hs, levelCode_pos, hl]

theorem uartLine_silent {m : Mach} (h : effLevel m = .none ∨ ∃ u, m.host.uartAt = some u ∧ lessSince m.time.now u 1000000000 = true) :
    uartLine m = m := by
  refine if_neg ?_
  rcases h with h | ⟨u, hu, ht⟩
  · simp [h, levelCode]
  · simp [hu, show giga = 1000000000 from rfl, ht]

/-- Settles O16: IDCODE and BYPASS shift, and the status line goes out where it is due. -/
theorem boardInterfacesByDebugLevel : Obligations.BoardInterfacesByDebugLevel := by
  unfold Obligations.BoardInterfacesByDebugLevel
  refine fun s ha => ⟨completes_jtagShift true rfl ha, completes_jtagShift false rfl ha, fun hl ht => ?_, fun h => ?_⟩
  · refine completes_run uartLine rfl ?_
    rw [uartLine_due (m := fresh s.mach) ⟨ha, hl, ht⟩]
    refine ⟨by simp [emit, draw], by simp [emit, draw], ?_, by simp [RegsSame, emit]⟩
    have hd : Keeps [.draws, .host] (fresh s.mach) (draw (fresh s.mach)).1 := keeps_mono (keeps_draw _) (by simp)
    exact keeps_settle (keeps_trans (keeps_trans (keeps_fresh _ _) hd) (keeps_trans (keeps_mono (keeps_setHost _ _) (by simp)) (keeps_emit _ _ _)))
  · exact completes_mono (completes_nothing uartLine rfl (uartLine_silent (m := fresh s.mach) h)) fun t ⟨hk, hr, ho⟩ => ⟨ho, hk, hr⟩

end Sys2Proof.Machine

/-!
PROOFS. POWERING is dark: the PCI Express function is not ready there and power-good does not stand (R48, R74). What an operation does to the
three fields that say so (`rails`), one lemma for each function that `fixed` does not cover; how each command keeps the rule (`KeepsDark`); and
the statement O19.
-/

namespace Sys2Proof.Machine

/-- What the rule speaks of: the module state, whether the function is ready, whether power-good stands. -/
def rails (c : Ctl) : ModState × Bool × Bool := (c.st, c.fnReady, c.powerGood)

/-- A change of other fields keeps the rails. -/
@[simp] theorem rails_mk (c : Ctl) (prev : ModState) (out trip perst link d3 early time cam tx : Bool) (run : Option Slot) (tick : BitVec 48)
    (last : Option LTime) (left : Nat) (drain align due realign : Bool) (req rtick : BitVec 48) (dog : Option LTime) (rs : List ResetItem)
    (pr : Option PowerReq) (held : List PowerReq) (waking warm : Bool) :
    rails ⟨c.st, prev, c.powerGood, out, trip, c.fnReady, perst, link, d3, early, time, cam, tx, run, tick, last, left, drain, align, due, realign,
      req, rtick, dog, rs, pr, held, waking, warm⟩ = rails c := rfl

@[simp] theorem rails_ite (c : Prop) [Decidable c] (a b : Ctl) : rails (if c then a else b) = if c then rails a else rails b := apply_ite rails c a b

@[simp] theorem rails_forEach {α : Type} (xs : List α) (m : Mach) (f : Mach → α → Mach) (h : ∀ m x, rails (fixed (f m x)).ctl = rails (fixed m).ctl) :
    rails (fixed (forEach xs m f)).ctl = rails (fixed m).ctl := by
  unfold forEach
  induction xs generalizing m with
  | nil => rfl
  | cons x xs ih => rw [List.foldl_cons, ih, h]

/-! ### Encoders -/

@[simp] theorem rails_masterCheck (m : Mach) (ch : Nat) : rails (fixed (masterCheck m ch)).ctl = rails (fixed m).ctl := by
  unfold masterCheck
  dsimp only
  (repeat' split) <;> simp

@[simp] theorem rails_refresh (m : Mach) : rails (fixed (refresh m)).ctl = rails (fixed m).ctl := by simp [refresh]

@[simp] theorem rails_countTo (m : Mach) (ch : Nat) (c : BitVec 48) (t : LTime) : rails (fixed (countTo m ch c t)).ctl = rails (fixed m).ctl := by
  simp [countTo]

@[simp] theorem rails_afterCount (m : Mach) (ch : Nat) : rails (fixed (afterCount m ch)).ctl = rails (fixed m).ctl := by simp [afterCount]

@[simp] theorem rails_encoderEdge (ch : Nat) (a b : Bool) (run : Nat) (m : Mach) :
    rails (fixed (encoderEdge ch a b run m)).ctl = rails (fixed m).ctl := by
  unfold encoderEdge
  split <;> simp

@[simp] theorem rails_latchRef (m : Mach) (ch : Nat) : rails (fixed (latchRef m ch)).ctl = rails (fixed m).ctl := by simp [latchRef]
@[simp] theorem rails_index (ch run : Nat) (m : Mach) : rails (fixed (index ch run m)).ctl = rails (fixed m).ctl := by simp [index]

@[simp] theorem rails_countOver (m : Mach) (ch : Nat) (c : BitVec 48) (now : LTime) :
    rails (fixed (countOver m ch c now)).ctl = rails (fixed m).ctl := by
  simp [countOver]

@[simp] theorem rails_tooth (ch run : Nat) (m : Mach) : rails (fixed (tooth ch run m)).ctl = rails (fixed m).ctl := by
  unfold tooth
  split <;> simp

@[simp] theorem rails_badWord (m : Mach) (ch : Nat) (timeout crc errBit : Bool) :
    rails (fixed (badWord m ch timeout crc errBit)).ctl = rails (fixed m).ctl := by
  simp [badWord]

@[simp] theorem rails_ssiReadStart (ch : Nat) (dataHigh : Bool) (m : Mach) : rails (fixed (ssiReadStart ch dataHigh m)).ctl = rails (fixed m).ctl := by
  simp [ssiReadStart]

@[simp] theorem rails_ssiWord (ch : Nat) (pos : BitVec 40) (err : Bool) (crc : BitVec 6) (m : Mach) :
    rails (fixed (ssiWord ch pos err crc m)).ctl = rails (fixed m).ctl := by
  unfold ssiWord
  dsimp only
  split <;> simp

@[simp] theorem rails_ssiTimeout (ch : Nat) (m : Mach) : rails (fixed (ssiTimeout ch m)).ctl = rails (fixed m).ctl := by
  unfold ssiTimeout
  split <;> simp

@[simp] theorem rails_lossOfSignal (ch : Nat) (m : Mach) : rails (fixed (lossOfSignal ch m)).ctl = rails (fixed m).ctl := by simp [lossOfSignal]
@[simp] theorem rails_losClear (ch : Nat) (m : Mach) : rails (fixed (losClear ch m)).ctl = rails (fixed m).ctl := by simp [losClear]
@[simp] theorem rails_standstill (ch : Nat) (m : Mach) : rails (fixed (standstill ch m)).ctl = rails (fixed m).ctl := by simp [standstill]

/-! ### Alignment -/

@[simp] theorem rails_alignFail (m : Mach) (reason : Nat) : rails (fixed (alignFail m reason)).ctl = rails (fixed m).ctl := by simp [alignFail]
@[simp] theorem rails_alignPortLost (m : Mach) (p : Nat) : rails (fixed (alignPortLost m p)).ctl = rails (fixed m).ctl := by simp [alignPortLost]

@[simp] theorem rails_alignEnd (m : Mach) : rails (fixed (alignEnd m)).ctl = rails (fixed m).ctl := by
  unfold alignEnd
  split <;> simp

@[simp] theorem rails_alignPass (m : Mach) : rails (fixed (alignPass m)).ctl = rails (fixed m).ctl := by simp [alignPass]

theorem rails_portOut (p : Nat) (f : Mach → Mach) (m : Mach) (h : fixed (f m) = fixed m) : rails (fixed (portOut p f m)).ctl = rails (fixed m).ctl := by
  unfold portOut
  dsimp only
  split <;> simp [h]

/-! ### The time base -/

@[simp] theorem rails_setDom (m : Mach) (d : Nat) (f : Domain → Domain) : rails (fixed (setDom m d f)).ctl = rails (fixed m).ctl := by simp [setDom]

@[simp] theorem rails_stepTime (m : Mach) (d : Int) : rails (fixed (stepTime m d)).ctl = rails (fixed m).ctl := by
  unfold stepTime
  rw [fixed_raise]
  rfl

@[simp] theorem rails_switchTo (m : Mach) (d : Nat) : rails (fixed (switchTo m d)).ctl = rails (fixed m).ctl := by simp [switchTo]
@[simp] theorem rails_requestCheck (m : Mach) : rails (fixed (requestCheck m)).ctl = rails (fixed m).ctl := by simp [requestCheck]
@[simp] theorem rails_leftLocked (m : Mach) (d : Nat) : rails (fixed (leftLocked m d)).ctl = rails (fixed m).ctl := by simp [leftLocked]
@[simp] theorem rails_loseMaster (m : Mach) (d : Nat) : rails (fixed (loseMaster m d)).ctl = rails (fixed m).ctl := by simp [loseMaster]
@[simp] theorem rails_masterLost (d : Nat) (m : Mach) : rails (fixed (masterLost d m)).ctl = rails (fixed m).ctl := by simp [masterLost]
@[simp] theorem rails_sendReq (d : Nat) (p2p : Bool) (m : Mach) : rails (fixed (sendReq d p2p m)).ctl = rails (fixed m).ctl := by simp [sendReq]
@[simp] theorem rails_revertTimer (m : Mach) : rails (fixed (revertTimer m)).ctl = rails (fixed m).ctl := by simp [revertTimer]
@[simp] theorem rails_slewEnd (m : Mach) : rails (fixed (slewEnd m)).ctl = rails (fixed m).ctl := by simp [slewEnd]

@[simp] theorem rails_noteTick (now : LTime) (m : Mach) : rails (fixed (noteTick now m)).ctl = rails (fixed m).ctl := by
  unfold noteTick
  split <;> simp

/-! ### Slots, partial resets, scrubs, supply -/

@[simp] theorem rails_setSlot (m : Mach) (s : Slot) (i : Option Image) : rails (fixed (setSlot m s i)).ctl = rails (fixed m).ctl := by
  unfold setSlot
  split <;> simp

@[simp] theorem rails_writeBc (m : Mach) (active trial confirmed : Nat) : rails (fixed (writeBc m active trial confirmed)).ctl = rails (fixed m).ctl := by
  simp [writeBc]

@[simp] theorem rails_stageComplete (m : Mach) : rails (fixed (stageComplete m)).ctl = rails (fixed m).ctl := by simp [stageComplete]

@[simp] theorem rails_restoreComplete (m : Mach) : rails (fixed (restoreComplete m)).ctl = rails (fixed m).ctl := by
  unfold restoreComplete
  split <;> simp

@[simp] theorem rails_setPhase (m : Mach) (k : ItemKind) (n : Nat) (p : ResetPhase) : rails (fixed (setPhase m k n p)).ctl = rails (fixed m).ctl := by
  simp [setPhase]

@[simp] theorem rails_dropItem (m : Mach) (k : ItemKind) (n : Nat) : rails (fixed (dropItem m k n)).ctl = rails (fixed m).ctl := by simp [dropItem]

@[simp] theorem rails_resetIntake (m : Mach) (p : Nat) : rails (fixed (resetIntake m p)).ctl = rails (fixed m).ctl := by
  unfold resetIntake
  dsimp only
  split <;> simp

@[simp] theorem rails_resetSheaf (m : Mach) (p : Nat) : rails (fixed (resetSheaf m p)).ctl = rails (fixed m).ctl := by simp [resetSheaf]

@[simp] theorem rails_itemReturns (m : Mach) (k : ItemKind) (n : Nat) : rails (fixed (itemReturns m k n)).ctl = rails (fixed m).ctl := by
  unfold itemReturns
  split <;> simp

@[simp] theorem rails_startTest (m : Mach) (t : Nat) : rails (fixed (startTest m t)).ctl = rails (fixed m).ctl := by simp [startTest, setPhase]

@[simp] theorem rails_partialComplete (k : ItemKind) (n : Nat) (m : Mach) : rails (fixed (partialComplete k n m)).ctl = rails (fixed m).ctl := by
  unfold partialComplete
  (repeat' split) <;> simp

@[simp] theorem rails_itemReturnsCmd (k : ItemKind) (n : Nat) (m : Mach) : rails (fixed (itemReturnsCmd k n m)).ctl = rails (fixed m).ctl := by
  simp [itemReturnsCmd]

@[simp] theorem rails_wipeReturn (m : Mach) : rails (fixed (wipeReturn m)).ctl = rails (fixed m).ctl := by simp [wipeReturn]

@[simp] theorem rails_fuseLedger (m : Mach) (kind : Nat) (v : Word) (recovered : Bool) (f : Fuses → Fuses) :
    rails (fixed (fuseLedger m kind v recovered f)).ctl = rails (fixed m).ctl := by
  simp [fuseLedger]

@[simp] theorem rails_moveLife (m : Mach) (l : Lifecycle) : rails (fixed (moveLife m l)).ctl = rails (fixed m).ctl := by simp [moveLife]
@[simp] theorem rails_retireMove (m : Mach) : rails (fixed (retireMove m)).ctl = rails (fixed m).ctl := by simp [retireMove]
@[simp] theorem rails_startAlign (m : Mach) (group : Nat) (apply startup : Bool) :
    rails (fixed (startAlign m group apply startup)).ctl = rails (fixed m).ctl := by
  simp [startAlign]

@[simp] theorem rails_startupAlign (m : Mach) : rails (fixed (startupAlign m)).ctl = rails (fixed m).ctl := by simp [startupAlign]
@[simp] theorem rails_restartStem (m : Mach) : rails (fixed (restartStem m)).ctl = rails (fixed m).ctl := by simp [restartStem]
@[simp] theorem rails_finishReturn (m : Mach) : rails (fixed (finishReturn m)).ctl = rails (fixed m).ctl := by simp [finishReturn]

@[simp] theorem rails_scrubComplete (c : Nat) (bad : List Nat) (m : Mach) : rails (fixed (scrubComplete c bad m)).ctl = rails (fixed m).ctl := by
  simp [scrubComplete]

@[simp] theorem rails_excursionStart (m : Mach) : rails (fixed (excursionStart m)).ctl = rails (fixed m).ctl := by simp [excursionStart]
@[simp] theorem rails_supplyDip (m : Mach) : rails (fixed (supplyDip m)).ctl = rails (fixed m).ctl := by simp [supplyDip]
@[simp] theorem rails_perstDeassertion (m : Mach) : rails (fixed (perstDeassertion m)).ctl = rails (fixed m).ctl := by simp [perstDeassertion]

@[simp] theorem rails_pcieClear (m : Mach) : rails (fixed (pcieClear m)).ctl = rails (fixed m).ctl := by
  unfold pcieClear
  split
  · rfl
  · extract_lets m1 m2 m3 m4 m5 m6
    have h1 : fixed m1 = fixed m := fixed_loadDone _ _
    have h2 : fixed m2 = fixed m1 := by
      simp only [m2]
      split <;> simp
    have h5 : fixed m5 = fixed m2 := by simp [m5, m4, m3]
    have h6 : fixed m6 = fixed m5 := rfl
    simp [h6, h5, h2, h1]

@[simp] theorem rails_pmChange (d3 : Bool) (m : Mach) : rails (fixed (pmChange d3 m)).ctl = rails (fixed m).ctl := by simp [pmChange]

/-! ### The commands that `fixed` covers -/

/-- The commands that may change something of what `fixed` holds; the others are those of the pipeline, the links, the Tillers, the host and Glume. -/
def touchesFixed (c : Instr) : Bool :=
  match c with
  | .powerGood | .functionReady | .machineReadyEntry | .swathTick | .supplyExcursionStart | .supplyDip | .supplyFault | .powerGoodLost
  | .holdupExpiry | .moduleReset _ | .warmReset _ | .tillerPartialReset _ _ | .intakePortPartialReset _ _ | .sheafPortPartialReset _ _
  | .awnPortPartialReset _ _ | .partialResetTakesEffect _ _ | .partialResetComplete _ _ | .itemReturnsToService _ _ | .stemWatchdogExpiry
  | .glumeIntegrityFailure | .debugHeaderReset | .pcieReset | .functionLevelReset | .powerManagementStateChange _ | .ptpSync _ _ _ _
  | .ptpFollowUp _ _ _ | .ptpAnnounce _ _ | .delayReqTransmit _ | .ptpDelayResp _ _ _ | .ptpPdelayResp _ _ _ _ | .masterLost _
  | .reqDomainWrite _ | .revertTimer | .slewEnd | .holdExpired | .encoderEdge _ _ _ _ | .index _ _ | .tooth _ _ | .ssiReadStart _ _
  | .ssiWord _ _ _ _ | .ssiTimeout _ | .lossOfSignal _ | .losClear _ | .standstill _ | .masterHoldoverExpired | .clkLoss _ | .deskewErr _
  | .retrain _ | .lowPowerEntry _ | .testWrite _ _ | .flitReceived _ _ | .lctl _ _ | .replayTimeout _ | .alignmentStart _
  | .realignTakesEffect | .alignmentPassComplete | .alignmentTimeout | .conv _ _ _ | .gemm _ _ _ | .pool _ _ _ | .eltw _ _ _ | .argmax _ _ _
  | .copy _ _ _ | .husk _ _ _ | .unhusk _ _ _ | .resize _ _ _ | .rachisFlitCrcFail _ _ _ _ | .placementTakesEffect | .selftestComplete _ _
  | .scrubComplete _ _ | .diSample _ _ | .restore _ | .restoreComplete | .stage _ _ | .stageComplete | .abort | .takeOwnership _
  | .transferAuth _ | .debugAuth _ | .returnAuth _ | .retireAuth _ | .fuseAuth _ | .standbyRequest | .dormantRequest _ | .wakeRequest
  | .standbyDrainStart | .drainComplete | .standbyEntryComplete | .dormantEntryComplete | .wakeComplete | .thermalQuar _ | .thermalTrip
  | .pdelayReqTransmit _ | .perstDeassertion => true
  | _ => false

theorem run_fixed {s t : State} {f : Mach → Mach} (h : s.run f = .next t) (hf : fixed (f (fresh s.mach)) = fixed (fresh s.mach)) :
    fixed t.mach = fixed s.mach := by
  rw [run_next] at h
  cases h
  exact (fixed_settle _ _).trans hf

@[simp] theorem fixed_jtagShift (id : Bool) (m : Mach) : fixed (jtagShift id m) = fixed m := by simp [jtagShift]

theorem jtag_fixed {ir : JtagIr} {s t : State} (h : exec (.jtagInstruction ir) s = .next t) : fixed t.mach = fixed s.mach := by
  cases ir with
  | idcode => exact run_fixed (h.symm.trans (exec_jtag_idcode s)).symm (fixed_jtagShift _ _)
  | bypass => exact run_fixed (h.symm.trans (exec_jtag_bypass s)).symm (fixed_jtagShift _ _)
  | other code =>
    rw [exec_jtag_other] at h
    split at h
    · cases h
    · exact run_fixed h (fixed_jtagShift _ _)

/-- Every other command leaves alone what `fixed` holds. -/
theorem exec_fixed {c : Instr} {s t : State} (h : exec c s = .next t) (hc : touchesFixed c = false) : fixed t.mach = fixed s.mach := by
  cases c with
  | configurationRequest | ptpPdelayReq _ | ptpUnsupportedMessage _ | timNowRead | lowRegisterRead _ _ | rcRegisterRead _ _
  | registerWrite _ _ _ | triggerIssue _ _ | partnerCkDetected _ | trainingFrame _ _ _ _ | trainFail _ | trainBackoffEnd _
  | fastRetrainTimeout _ | lpReqL0 _ | lpReqQuiet _ | lpReqDeep _ | quietIdleTimeout _ | quietExit _ | checkerEnable _ _ | injOne _
  | patternWindowEnd _ _ | linkDown _ | remoteWrite _ | wrRsp _ | wrTimeout _ _ | linePacket _ | lineDeadline _ _ | prepareLine _ _ _
  | ispDataWrite _ | ispDataRead | ispSwap | ispSwapCheckComplete | ispSwapTakesEffect | probeArm _ | shadowLoad _ | loadDone _ | chaffSwap
  | chaffCopyComplete _ | chaffSwapTakesEffect | chaffRefillComplete | chaffPeek _ | commit _ _ | release | fireSend _ | fireDeadline _
  | fireIntervalEnd _ | directOutputSwitch _ _ | beacon | awnStatus _ _ _ | boardLost _ _ | fieldSupplyFault | fieldSupplyRecovered
  | outputCurrentLimit _ | doHostSet _ | nandProgramComplete _ | blockRefresh _ _ _ _ | retentionScan _ _ | readDone _ _ | activate
  | nonceRead | debugGrantExpiry | powerControlPeriod _ | tillerGate _ | droop _ | droopRelease _ | pllRelockComplete _ | trimRaise _
  | trimLower _ | trimSave | thermalWarn _ _ | thermalLimit _ _ | hbmThermal _ _ | coolantHigh _ | glean _ | gleanDone _ | uartStatusLine =>
    exact run_fixed h (by simp)
  | windowOpen _ _ _ _ _ _ _ =>
    unfold exec execWindowOpen at h
    exact run_fixed h (by split <;> simp)
  | windowClose _ =>
    unfold exec execWindowClose at h
    exact run_fixed h (fixed_closeWindow _ _)
  | ispCopyComplete =>
    unfold exec execIspCopyComplete at h
    exact run_fixed h (by split <;> simp)
  | probeCapture =>
    unfold exec execProbeCapture at h
    exact run_fixed h (by split <;> simp)
  | doorbell _ _ _ =>
    unfold exec execDoorbell at h
    exact run_fixed h (fixed_doorbell _ _ _ _)
  | descriptorFetch _ _ =>
    unfold exec execDescriptorFetch at h
    exact run_fixed h (by split <;> simp)
  | stepIssue _ _ _ _ _ =>
    unfold exec execStepIssue at h
    exact run_fixed h (fixed_issueStep _ _ _ _ _ _)
  | barrier _ _ =>
    unfold exec execBarrier at h
    exact run_fixed h (by (repeat' split) <;> simp)
  | commandComplete _ _ =>
    unfold exec execCommandComplete at h
    exact run_fixed h (by (repeat' split) <;> simp)
  | refetchComplete _ _ _ =>
    unfold exec execRefetchComplete at h
    exact run_fixed h (by dsimp only; (repeat' split) <;> simp)
  | replacementLoadsComplete _ =>
    unfold exec execReplacementLoadsComplete at h
    exact run_fixed h (by (repeat' split) <;> simp)
  | injectDisarm n | injectResidueOnce n | injectResiduePersistent n | injectGranaryParity n | injectHbmCrc n =>
    exact run_fixed (f := fun m => inject m n _ _) h (fixed_inject _ _ _ _)
  | queueEnable =>
    unfold exec execQueueEnable at h
    exact run_fixed h (fixed_bar0P _ _ fun m => by dsimp only; (repeat' split) <;> simp)
  | queueDisable =>
    unfold exec execQueueDisable at h
    exact run_fixed h (fixed_bar0P _ _ fun m => by dsimp only; (repeat' split) <;> simp)
  | crCfgWrite _ =>
    unfold exec execCrCfgWrite at h
    exact run_fixed h (fixed_bar0P _ _ fun m => by dsimp only; (repeat' split) <;> simp)
  | crHeadWrite _ =>
    unfold exec execCrHeadWrite at h
    exact run_fixed h (fixed_bar0P _ _ fun m => by dsimp only; (repeat' split) <;> simp)
  | coalescingTimer _ =>
    unfold exec execCoalescingTimer at h
    exact run_fixed h (by dsimp only; (repeat' split) <;> simp)
  | ringFetchFailure _ =>
    unfold exec execRingFetchFailure at h
    exact run_fixed h (fixed_ringFail _ _)
  | completionWriteFailure _ =>
    unfold exec execCompletionWriteFailure at h
    exact run_fixed h (by dsimp only; (repeat' split) <;> simp)
  | admitCtx _ =>
    unfold exec execAdmitCtx at h
    exact run_fixed h (fixed_ctxCommand _ _ fun c m => fixed_admitCtx _ _ _)
  | load _ =>
    unfold exec execLoad at h
    exact run_fixed h (fixed_ctxCommand _ _ fun c m => fixed_load _ _ _)
  | unload =>
    unfold exec execUnload at h
    exact run_fixed h (fixed_ctxCommand _ _ fun c m => by dsimp only; split <;> simp)
  | setShare _ =>
    unfold exec execSetShare at h
    exact run_fixed h (fixed_ctxCommand _ _ fun c m => by dsimp only; (repeat' split) <;> simp)
  | statisticsWindowEnd =>
    unfold exec execStatisticsWindowEnd at h
    exact run_fixed h (by dsimp only; (repeat' split) <;> simp)
  | placementRecordRead =>
    unfold exec execPlacementRecordRead at h
    exact run_fixed h (fixed_barRead _ _ _ fun m => by simp)
  | recordRead _ =>
    unfold exec execRecordRead at h
    exact run_fixed h (fixed_bar0 _ _ fun m => fixed_recordRead _ _)
  | getVersion | getCapabilities | negotiateAlgorithms | getDigests | getCertificate _ _ | challenge _ | getMeasurements _ _ | keyExchange
  | finish _ | endSession _ | spdmUnsupportedRequest _ =>
    exact run_fixed (f := fun m => spdmWith m _) h (fixed_spdmWith _ _ fun m => by simp)
  | cryptoReset =>
    unfold exec execCryptoReset at h
    exact run_fixed h (by split <;> simp)
  | cryptoResetComplete =>
    unfold exec execCryptoResetComplete at h
    exact run_fixed h (by simp)
  | jtagInstruction ir => exact jtag_fixed h
  | _ => cases hc

/-! ### How each command keeps the rule -/

/-- In POWERING the function is not ready and power-good does not stand. -/
def OffDark (m : Mach) : Prop := m.ctl.st = .powering → m.ctl.fnReady = false ∧ m.ctl.powerGood = false

def KeepsDark (m t : Mach) : Prop := OffDark m → OffDark t

theorem KeepsDark.trans {a b c : Mach} (h : KeepsDark a b) (k : KeepsDark b c) : KeepsDark a c := fun ha => k (h ha)

theorem keepsDark_refl (m : Mach) : KeepsDark m m := id

theorem keepsDark_of_rails {m t : Mach} (h : rails (fixed t).ctl = rails (fixed m).ctl) : KeepsDark m t := by
  obtain ⟨hs, hr, hg⟩ : t.ctl.st = m.ctl.st ∧ t.ctl.fnReady = m.ctl.fnReady ∧ t.ctl.powerGood = m.ctl.powerGood := by simpa [rails, fixed] using h
  unfold KeepsDark OffDark
  rw [hs, hr, hg]
  exact id

theorem keepsDark_of_fixed {m t : Mach} (h : fixed t = fixed m) : KeepsDark m t := keepsDark_of_rails (by rw [h])

/-- A state other than POWERING says nothing of the two. -/
theorem keepsDark_of_st {m t : Mach} {n : ModState} (h : (fixed t).ctl.st = n) (hn : n ≠ .powering) : KeepsDark m t :=
  fun _ hp => absurd (h.symm.trans hp) hn

/-- An operation that takes no notice in POWERING, and does not lead there. -/
theorem keepsDark_of_ignored {m t : Mach} (hs : m.ctl.st ≠ .powering → t.ctl.st ≠ .powering)
    (hi : m.ctl.st = .powering → m.ctl.fnReady = false → m.ctl.powerGood = false → rails (fixed t).ctl = rails (fixed m).ctl) : KeepsDark m t := by
  by_cases h : m.ctl.st = .powering
  · exact fun ho => keepsDark_of_rails (hi h (ho h).1 (ho h).2) ho
  · exact fun _ hp => absurd hp (hs h)

theorem Steady.awake {m t : Mach} (h : Steady m t) (hm : m.ctl.st ≠ .powering) : t.ctl.st ≠ .powering := by
  rcases h with h | h
  · rwa [h]
  · simp [h]

theorem keepsDark_bar0 {m : Mach} {f : Mach → Mach} (h : KeepsDark m (f m)) : KeepsDark m (bar0 m f) := by
  unfold bar0
  split
  · exact h
  · exact keepsDark_refl m

/-- The host reaches nothing in POWERING, since the function is not ready. -/
theorem keepsDark_bar0_st {m : Mach} {f : Mach → Mach} (h : (fixed (bar0 m f)).ctl.st = (fixed m).ctl.st) : KeepsDark m (bar0 m f) :=
  keepsDark_of_ignored (fun hm => hm ∘ h.symm.trans) fun _ hr _ => by simp [bar0, hr]

/-! Ticks and tick boundaries. -/

theorem keepsDark_leavePipeline (m n : Mach) : KeepsDark m (leavePipeline n) := keepsDark_of_st (st_leavePipeline n) (by decide)

theorem keepsDark_enter (m m' : Mach) {n : ModState} (h : n ≠ .powering) : KeepsDark m (enter m' n) := keepsDark_of_st (st_enter m' n) h

theorem keepsDark_decideState (m : Mach) : KeepsDark m (decideState m) := by
  cases h : m.ctl.st <;> simp only [decideState, h]
  case running | degraded | machineReady => split <;> first | exact keepsDark_enter _ _ (by decide) | exact keepsDark_refl m
  all_goals exact keepsDark_refl m

theorem keepsDark_forEach {α : Type} (xs : List α) (f : Mach → α → Mach) (hf : ∀ m x, KeepsDark m (f m x)) (m : Mach) :
    KeepsDark m (forEach xs m f) := by
  unfold forEach
  induction xs generalizing m with
  | nil => exact keepsDark_refl m
  | cons x xs ih => exact (hf m x).trans (ih _)

theorem keepsDark_holdExpired (m : Mach) : KeepsDark m (holdExpired m) := by
  unfold holdExpired
  extract_lets out m1
  split
  · exact keepsDark_refl m
  · split
    · exact keepsDark_leavePipeline m m1
    · exact keepsDark_of_rails (by simp [m1])

theorem keepsDark_masterExpired (m : Mach) : KeepsDark m (masterExpired m) := by
  unfold masterExpired
  extract_lets m1 e
  split
  · exact keepsDark_of_rails (rails_refresh m)
  · exact keepsDark_leavePipeline m _

theorem keepsDark_applyLosses (m : Mach) : KeepsDark m (applyLosses m) := (keepsDark_holdExpired m).trans (keepsDark_masterExpired _)

theorem keepsDark_partialEffect (m : Mach) (k : ItemKind) (n : Nat) : KeepsDark m (partialEffect m k n) := by
  unfold partialEffect
  extract_lets m0 m1 m2
  have h1 : rails (fixed m1).ctl = rails (fixed m).ctl := by
    simp only [m1, fixed_notePower, m0]
    cases k <;> simp
  have h2 : KeepsDark m m2 := keepsDark_of_rails ((rails_setPhase _ _ _ _).trans h1)
  split
  · exact h2.trans (keepsDark_decideState m2)
  · exact h2

theorem keepsDark_partialTakes (k : ItemKind) (n : Nat) (m : Mach) : KeepsDark m (partialTakes k n m) := by
  unfold partialTakes
  extract_lets m1
  have h1 : KeepsDark m m1 := keepsDark_applyLosses m
  split
  · exact (h1.trans (keepsDark_partialEffect m1 k n)).trans (keepsDark_of_fixed (fixed_resched _))
  · exact h1

theorem keepsDark_placementTakes (m : Mach) : KeepsDark m (placementTakes m) := by
  unfold placementTakes
  extract_lets m1
  have h1 : KeepsDark m m1 := keepsDark_applyLosses m
  split
  · exact h1
  · next p _ =>
    split
    · exact h1
    · extract_lets m2 m3 m4 m5
      have h2 : fixed m2 = fixed m1 := by
        simp only [m2]
        split <;> simp
      have h3 : fixed m3 = fixed m2 := fixed_forEach _ _ _ fun _ _ => by
        dsimp only
        (repeat' split) <;> simp
      have h5 : fixed m5 = fixed m3 := by simp [m5, m4]
      have h := h1.trans (keepsDark_of_fixed (h5.trans (h3.trans h2)))
      refine (h.trans ?_).trans (keepsDark_of_fixed (fixed_resched _))
      split
      · exact keepsDark_decideState m5
      · exact keepsDark_refl m5

theorem keepsDark_swathTick (m : Mach) : KeepsDark m (swathTick m) := by
  unfold swathTick
  extract_lets m1
  have h1 : KeepsDark m m1 := (keepsDark_applyLosses m).trans (keepsDark_of_rails (rails_refresh _))
  split
  · split
    · exact h1.trans (keepsDark_of_fixed (fixed_alignReady _))
    · exact h1
  · split
    · split
      · exact h1.trans (keepsDark_of_fixed (fixed_alignReady _))
      · split
        · exact h1.trans (keepsDark_of_fixed (fixed_alignTick _ _))
        · exact h1
    · split
      · exact h1
      · extract_lets m2 m3
        have h2 : rails (fixed m2).ctl = rails (fixed m1).ctl := by simp [m2]
        have h3 : rails (fixed m3).ctl = rails (fixed m2).ctl := by
          clear_value m2
          simp [m3]
        exact ((h1.trans (keepsDark_of_rails (h3.trans h2))).trans (keepsDark_decideState m3)).trans (keepsDark_of_fixed (fixed_resched _))

theorem keepsDark_machineReady (m : Mach) : KeepsDark m (machineReady m) := by
  cases h : readyConditions m
  · exact keepsDark_of_fixed (by simp [machineReady, h])
  · exact keepsDark_of_st (st_machineReady h) (by decide)

theorem keepsDark_realign (m : Mach) : KeepsDark m (realign m) := by
  unfold realign
  extract_lets m1 a
  split
  · exact keepsDark_of_st ((st_startAlign _ _ _ _).trans (st_leavePipeline m1)) (by decide)
  · exact keepsDark_applyLosses m

/-! Stops, and what the host asks for. -/

theorem keepsDark_stopModule (m : Mach) (cause : Nat) : KeepsDark m (stopModule m cause) := by
  unfold stopModule
  extract_lets m1
  have h1 : fixed m1 = fixed m := by
    simp only [m1]
    split <;> simp
  have h2 : KeepsDark m1 (enterFault m1 cause) := by
    by_cases h : m1.ctl.st = .powering
    · exact keepsDark_of_fixed (by simp [enterFault, h])
    · exact keepsDark_of_st (st_enterFault m1 cause h) (by decide)
  exact ((keepsDark_of_fixed h1).trans h2).trans (keepsDark_of_rails (by simp))

theorem keepsDark_supplyFault (m : Mach) : KeepsDark m (supplyFault m) := by
  unfold supplyFault
  split
  · exact (keepsDark_of_rails (by simp)).trans (keepsDark_stopModule (setCtl m fun c => { c with supplyOut := false }) 2)
  · exact keepsDark_refl m

theorem keepsDark_selftestComplete (t : Nat) (pass : Bool) (m : Mach) : KeepsDark m (selftestComplete t pass m) := by
  unfold selftestComplete
  split
  · exact keepsDark_refl m
  · extract_lets x auto m1 m2 m3 m4
    split
    · split
      · exact keepsDark_refl m
      · exact keepsDark_of_rails (by simp [m2, m1])
    · have h4 : KeepsDark m m4 := keepsDark_of_rails (by simp [m4, m3])
      split
      · exact h4.trans (keepsDark_stopModule m4 4)
      · exact h4

theorem keepsDark_partialRequest (k : ItemKind) (key : BitVec 8) (n : Nat) (m : Mach) : KeepsDark m (partialRequest k key n m) := by
  unfold partialRequest
  refine keepsDark_bar0 ?_
  extract_lets top off r m1
  split
  · exact keepsDark_refl m
  · split
    · exact keepsDark_of_fixed (fixed_inc _ _ _)
    · have h1 : KeepsDark m m1 := keepsDark_of_rails (by simp [m1])
      split
      · exact h1.trans (keepsDark_partialEffect m1 k n)
      · exact h1

theorem keepsDark_alignmentStart (v : Word) (m : Mach) : KeepsDark m (alignmentStart v m) := by
  unfold alignmentStart
  refine keepsDark_bar0 ?_
  extract_lets start dorm group apply m1
  split
  · exact keepsDark_refl m
  · have h1 : KeepsDark m m1 := keepsDark_of_fixed (by
      simp only [m1]
      split <;> simp)
    split
    · exact h1
    · refine h1.trans ?_
      split
      case h_2 => exact keepsDark_of_st ((st_startAlign _ _ _ _).trans (st_leavePipeline m1)) (by decide)
      all_goals exact keepsDark_of_rails (by simp)

/-! Resets, the boot and power. -/

theorem keepsDark_boot (m n : Mach) (quar : List Nat) : KeepsDark m (boot n quar) := by
  rcases st_boot n quar with h | h <;> exact keepsDark_of_st h (by decide)

theorem keepsDark_powerGood (m : Mach) : KeepsDark m (powerGood m) := by
  unfold powerGood
  split
  · exact keepsDark_refl m
  · exact keepsDark_boot m _ _

theorem keepsDark_moduleReset (cause : Nat) (m : Mach) : KeepsDark m (moduleReset cause m) := by
  rcases moduleReset_cases cause m with h | h | h
  · rw [h]
    exact keepsDark_refl m
  · exact keepsDark_of_st h (by decide)
  · exact keepsDark_of_st h (by decide)

theorem keepsDark_warmReset (cause : Nat) (m n : Mach) : KeepsDark m (warmReset cause n) := keepsDark_of_st (st_warmReset cause n) (by decide)

theorem keepsDark_moduleResetReq (key : BitVec 8) (m : Mach) : KeepsDark m (moduleResetReq key m) := by
  unfold moduleResetReq
  refine keepsDark_bar0 ?_
  (repeat' split)
  · exact keepsDark_refl m
  · exact keepsDark_moduleReset 1 m
  · exact keepsDark_of_fixed (fixed_deny m)

theorem keepsDark_warmResetReq (key : BitVec 8) (m : Mach) : KeepsDark m (warmResetReq key m) := by
  unfold warmResetReq
  refine keepsDark_bar0 ?_
  (repeat' split)
  · exact keepsDark_refl m
  · exact keepsDark_of_fixed (fixed_deny m)
  · exact keepsDark_of_fixed (fixed_inc _ _ _)
  · exact keepsDark_warmReset 5 m m

theorem keepsDark_watchdog (m : Mach) : KeepsDark m (watchdog m) := by
  unfold watchdog
  extract_lets runs again
  split
  · exact keepsDark_refl m
  · split
    · exact keepsDark_moduleReset 3 m
    · exact keepsDark_warmReset 6 m _

theorem keepsDark_glumeIntegrity (m : Mach) : KeepsDark m (glumeIntegrity m) := by
  unfold glumeIntegrity
  split
  · exact (keepsDark_stopModule m 3).trans (keepsDark_moduleReset 2 _)
  · exact keepsDark_refl m

theorem keepsDark_debugHeaderReset (m : Mach) : KeepsDark m (debugHeaderReset m) := by
  unfold debugHeaderReset
  split
  · exact keepsDark_moduleReset 4 m
  · exact keepsDark_refl m

/-- The function becomes ready in a module that has power (R73, R74). -/
theorem keepsDark_functionReady (m : Mach) : KeepsDark m (functionReady m) :=
  keepsDark_of_ignored (fun h => h ∘ (st_functionReady m).symm.trans) fun h _ _ => by simp [functionReady, alive, h]

theorem keepsDark_powerGoodLost (m : Mach) : KeepsDark m (powerGoodLost m) :=
  keepsDark_of_ignored (fun h => h ∘ (st_powerGoodLost m).symm.trans) fun h _ hg => by simp [powerGoodLost, h, hg]

/-- A module switched off is dark: its control is as after reset (R50, R79). -/
theorem offDark_powerDown (m : Mach) : OffDark (powerDown m) := by
  have h : (fixed (powerDown m)).ctl.fnReady = false ∧ (fixed (powerDown m)).ctl.powerGood = false := by
    unfold powerDown
    simp
  exact fun _ => h

theorem keepsDark_holdupExpiry (m : Mach) : KeepsDark m (holdupExpiry m) := by
  unfold holdupExpiry
  split
  · exact fun _ => offDark_powerDown _
  · exact keepsDark_refl m

theorem keepsDark_thermalTrip (m : Mach) : KeepsDark m (thermalTrip m) := by
  unfold thermalTrip
  split
  · have h : KeepsDark m (powerDown (flashClose m)) := fun _ => offDark_powerDown _
    exact h.trans (keepsDark_of_rails (by simp))
  · exact keepsDark_refl m

/-! STANDBY, DORMANT and the wake. -/

theorem keepsDark_boundaryFirst (m : Mach) : KeepsDark m (boundaryFirst m) := by
  unfold boundaryFirst
  extract_lets m1
  have h2 := keepsDark_forEach (m1.ctl.resets.filter (partialDue m1)) _ (fun m r => keepsDark_partialTakes r.kind r.item m) m1
  exact ((keepsDark_applyLosses m).trans h2).trans (keepsDark_placementTakes _)

theorem keepsDark_drainStart (m : Mach) : KeepsDark m (drainStart m) := by
  unfold drainStart
  extract_lets m1
  have h1 : KeepsDark m m1 := by
    simp only [m1]
    split
    · exact keepsDark_boundaryFirst m
    · exact keepsDark_refl m
  split
  · exact h1.trans (keepsDark_of_rails (by simp))
  · exact h1

theorem keepsDark_drainComplete (m : Mach) : KeepsDark m (drainComplete m) := by
  unfold drainComplete
  extract_lets m1
  have h1 : KeepsDark m m1 := by
    simp only [m1]
    split
    · exact keepsDark_boundaryFirst m
    · exact keepsDark_refl m
  split
  · exact h1.trans (keepsDark_of_fixed (by simp))
  · exact h1

theorem keepsDark_standbyEntry (m : Mach) : KeepsDark m (standbyEntry m) := by
  unfold standbyEntry
  extract_lets m1 ready m0 m2 m3 m4 m5 m6
  have h1 : KeepsDark m m1 := by
    simp only [m1]
    split
    · exact keepsDark_boundaryFirst m
    · exact keepsDark_refl m
  split
  · exact h1
  · have h6 : (fixed m6).ctl.st = .standby := by simp [m6, m5, m4]
    clear_value m6
    (repeat' split) <;> exact keepsDark_of_st (n := .standby) (by simp [h6]) (by decide)

theorem keepsDark_dormantEntry (m : Mach) : KeepsDark m (dormantEntry m) := by
  unfold dormantEntry
  split
  · split
    · exact keepsDark_refl m
    · split
      · exact keepsDark_of_fixed (by simp)
      · extract_lets m0 host m1 m2 m3 empty m4 m5 m6 m7 m8 m9 m10
        have h10 : (fixed m10).ctl.st = .dormant := by simp [m10]
        clear_value m10
        exact keepsDark_of_st (n := .dormant) (by simp [h10]) (by decide)
  · exact keepsDark_refl m

theorem keepsDark_wakeComplete (m : Mach) : KeepsDark m (wakeComplete m) := by
  unfold wakeComplete
  split
  · exact keepsDark_refl m
  · extract_lets m0 dorm m1 m2 m3 m4
    have h3 : (fixed m3).ctl.st = .configured := by simp [m3]
    have h4 : (fixed m4).ctl.st = (fixed m3).ctl.st := by
      simp only [m4, fixed_raise, fixed_notePower]
      split <;> simp
    clear_value m4
    clear_value m3
    exact keepsDark_of_st (n := .configured) (by simp [h4, h3]) (by decide)

/-- A wake input acts in STANDBY and DORMANT only (R433). -/
theorem keepsDark_diSample (samples : List DiSample) (overload : Bool) (m : Mach) : KeepsDark m (diSample samples overload m) :=
  keepsDark_of_ignored (fun h => h ∘ (st_diSample samples overload m).symm.trans) fun h _ _ => by
    unfold diSample
    dsimp only
    rw [h]
    split <;> simp

/-! The work of the Tillers and PTP stand still in POWERING (R23, R88). -/

theorem ptpIn_powering {m : Mach} (h : m.ctl.st = .powering) (x : PtpHead) (f : Mach → Nat → Mach) : ptpIn m x f = m := by simp [ptpIn, h]

theorem keepsDark_ptpIn {m : Mach} (x : PtpHead) (f : Mach → Nat → Mach) (h : (fixed (ptpIn m x f)).ctl.st = (fixed m).ctl.st) :
    KeepsDark m (ptpIn m x f) :=
  keepsDark_of_ignored (fun hm => hm ∘ h.symm.trans) fun hp _ _ => by rw [ptpIn_powering hp]

theorem runOp_powering {m : Mach} (h : m.ctl.st = .powering) (op q seq : Nat) (chk : CheckIn) : runOp op m q seq chk = m := by
  unfold runOp
  split
  · rfl
  · exact if_pos (by simp [fabricOn, h])

theorem keepsDark_runOp (op : Nat) (m : Mach) (q seq : Nat) (chk : CheckIn) : KeepsDark m (runOp op m q seq chk) :=
  keepsDark_of_ignored (steady_runOp op m q seq chk).awake fun h _ _ => by rw [runOp_powering h]

theorem keepsDark_thermalQuar (t : Nat) (m : Mach) : KeepsDark m (thermalQuar t m) :=
  keepsDark_of_ignored (steady_thermalQuar t m).awake fun h _ _ => by simp [thermalQuar, fabricOn, h]

theorem keepsDark_authorise (block : Option Auth) (m : Mach) : KeepsDark m (authorise block m) :=
  keepsDark_of_ignored (steady_authorise block m).awake fun _ hr _ => by simp [authorise, bar0, hr]

theorem run_keepsDark {s t : State} {f : Mach → Mach} (h : s.run f = .next t) (hf : KeepsDark (fresh s.mach) (f (fresh s.mach))) :
    KeepsDark s.mach t.mach := by
  rw [run_next] at h
  cases h
  exact hf.trans (keepsDark_of_fixed (fixed_settle _ _))

theorem run_rails {s t : State} {f : Mach → Mach} (h : s.run f = .next t)
    (hf : rails (fixed (f (fresh s.mach))).ctl = rails (fixed (fresh s.mach)).ctl) : KeepsDark s.mach t.mach :=
  run_keepsDark h (keepsDark_of_rails hf)

/-- Every command keeps the rule: what `fixed` covers leaves the rails alone, the encoders, the time base, the links and the resets of single
items too; the other commands have their lemma above. -/
theorem exec_keepsDark {c : Instr} {s t : State} (h : exec c s = .next t) : KeepsDark s.mach t.mach := by
  cases c with
  | powerGood => exact run_keepsDark h (keepsDark_powerGood _)
  | functionReady => exact run_keepsDark h (keepsDark_functionReady _)
  | machineReadyEntry => exact run_keepsDark h (keepsDark_machineReady _)
  | swathTick => exact run_keepsDark h (keepsDark_swathTick _)
  | supplyFault => exact run_keepsDark h (keepsDark_supplyFault _)
  | powerGoodLost => exact run_keepsDark h (keepsDark_powerGoodLost _)
  | holdupExpiry => exact run_keepsDark h (keepsDark_holdupExpiry _)
  | moduleReset _ => exact run_keepsDark h (keepsDark_moduleResetReq _ _)
  | warmReset _ => exact run_keepsDark h (keepsDark_warmResetReq _ _)
  | tillerPartialReset _ _ | intakePortPartialReset _ _ | sheafPortPartialReset _ _ | awnPortPartialReset _ _ =>
    exact run_keepsDark h (keepsDark_partialRequest _ _ _ _)
  | partialResetTakesEffect _ _ => exact run_keepsDark h (keepsDark_partialTakes _ _ _)
  | stemWatchdogExpiry => exact run_keepsDark h (keepsDark_watchdog _)
  | glumeIntegrityFailure => exact run_keepsDark h (keepsDark_glumeIntegrity _)
  | debugHeaderReset => exact run_keepsDark h (keepsDark_debugHeaderReset _)
  | functionLevelReset =>
    unfold exec execFunctionLevelReset at h
    exact run_rails h (by split <;> simp)
  | ptpSync _ _ _ _ => exact run_keepsDark h (keepsDark_ptpIn _ _ (st_ptpSync _ _ _ _ _))
  | ptpFollowUp _ _ _ => exact run_keepsDark h (keepsDark_ptpIn _ _ (st_ptpFollowUp _ _ _ _))
  | ptpAnnounce _ _ => exact run_keepsDark h (keepsDark_ptpIn _ _ (st_ptpAnnounce _ _ _))
  | ptpDelayResp _ _ _ => exact run_keepsDark h (keepsDark_ptpIn _ _ (st_ptpDelayResp _ _ _ _))
  | ptpPdelayResp _ _ _ _ => exact run_keepsDark h (keepsDark_ptpIn _ _ (st_ptpPdelayResp _ _ _ _ _))
  | reqDomainWrite v => exact run_keepsDark h (keepsDark_bar0_st (st_reqDomainWrite v _))
  | holdExpired => exact run_keepsDark h (keepsDark_holdExpired _)
  | encoderEdge _ _ _ _ =>
    unfold exec execEncoderEdge at h
    exact run_rails h (by rw [fixed_alignReady, rails_encoderEdge])
  | index _ _ =>
    unfold exec execIndex at h
    exact run_rails h (by rw [fixed_alignReady, rails_index])
  | tooth _ _ =>
    unfold exec execTooth at h
    exact run_rails h (by rw [fixed_alignReady, rails_tooth])
  | ssiWord _ _ _ _ =>
    unfold exec execSsiWord at h
    exact run_rails h (by rw [fixed_alignReady, rails_ssiWord])
  | losClear _ =>
    unfold exec execLosClear at h
    exact run_rails h (by rw [fixed_alignReady, rails_losClear])
  | masterHoldoverExpired => exact run_keepsDark h (keepsDark_masterExpired _)
  | clkLoss _ | deskewErr _ | retrain _ | lowPowerEntry _ | testWrite _ _ | flitReceived _ _ | lctl _ _ | replayTimeout _ =>
    exact run_rails h (rails_portOut _ _ _ (by simp))
  | alignmentStart _ => exact run_keepsDark h (keepsDark_alignmentStart _ _)
  | realignTakesEffect => exact run_keepsDark h (keepsDark_realign _)
  | alignmentTimeout =>
    unfold exec execAlignmentTimeout at h
    exact run_rails h (rails_alignFail _ _)
  | conv q n k | gemm q n k | pool q n k | eltw q n k | argmax q n k | copy q n k | husk q n k | unhusk q n k | resize q n k =>
    exact run_keepsDark (f := fun m => runOp _ m q n k) h (keepsDark_runOp _ _ q n k)
  | rachisFlitCrcFail resends cmd _ _ =>
    unfold exec execRachisFlitCrcFail at h
    refine run_keepsDark h (keepsDark_of_ignored (fun ha => ?_) fun (hp : s.mach.ctl.st = .powering) _ _ => by rw [if_pos (by simp [alive, hp])])
    dsimp only
    (repeat' split)
    · exact ha
    · exact ha
    · exact (Steady.fixed (steady_meetCheck _ _ _ _) (fixed_resched _)).awake ha
    · exact ha
    all_goals exact (steady_of_fixed (m := fresh s.mach) (by simp)).awake ha
  | placementTakesEffect => exact run_keepsDark h (keepsDark_placementTakes _)
  | selftestComplete _ _ => exact run_keepsDark h (keepsDark_selftestComplete _ _ _)
  | diSample _ _ => exact run_keepsDark h (keepsDark_diSample _ _ _)
  | restore v => exact run_keepsDark h (keepsDark_bar0_st (st_restore v _))
  | stage v image => exact run_keepsDark h (keepsDark_bar0_st (st_stage v image _))
  | abort =>
    unfold exec execAbort at h
    exact run_keepsDark h (keepsDark_bar0_st (st_bar0 _ _ fun _ => st_stopStaging _))
  | takeOwnership _ | transferAuth _ | debugAuth _ | returnAuth _ | retireAuth _ | fuseAuth _ => exact run_keepsDark h (keepsDark_authorise _ _)
  | standbyRequest | dormantRequest _ | wakeRequest =>
    exact run_keepsDark (f := fun m => bar0 m (powerRequest _)) h (keepsDark_bar0_st (st_bar0 _ _ fun _ => st_powerRequest _ _))
  | standbyDrainStart => exact run_keepsDark h (keepsDark_drainStart _)
  | drainComplete => exact run_keepsDark h (keepsDark_drainComplete _)
  | standbyEntryComplete => exact run_keepsDark h (keepsDark_standbyEntry _)
  | dormantEntryComplete => exact run_keepsDark h (keepsDark_dormantEntry _)
  | wakeComplete => exact run_keepsDark h (keepsDark_wakeComplete _)
  | thermalQuar _ => exact run_keepsDark h (keepsDark_thermalQuar _ _)
  | thermalTrip => exact run_keepsDark h (keepsDark_thermalTrip _)
  | supplyExcursionStart | supplyDip | partialResetComplete _ _ | itemReturnsToService _ _ | pcieReset | powerManagementStateChange _
  | delayReqTransmit _ | pdelayReqTransmit _ | masterLost _ | revertTimer | slewEnd | ssiReadStart _ _ | ssiTimeout _ | lossOfSignal _
  | standstill _ | alignmentPassComplete | scrubComplete _ _ | restoreComplete | stageComplete | perstDeassertion => exact run_rails h (by simp)
  | _ => exact keepsDark_of_fixed (exec_fixed h rfl)

/-! ### The idle step -/

theorem keepsDark_clockTick (m : Mach) : KeepsDark m (clockTick m) :=
  keepsDark_of_ignored (fun h => h ∘ (st_clockTick m).symm.trans) fun _ _ hg => by simp [clockTick, hg]

theorem keepsDark_activateDue (m : Mach) : KeepsDark m (activateDue m) := by
  rcases activateDue_cases m with h | ⟨-, h | h⟩
  · rw [h]
    exact keepsDark_refl m
  · exact keepsDark_of_st h (by decide)
  · exact keepsDark_of_st h (by decide)

/-- Settles O19: the state after reset is dark; an idle step and every command keep the rule, as `exec_keepsDark` says command by command. -/
theorem everyStepKeepsOffOff : Obligations.EveryStepKeepsOffOff := by
  unfold Obligations.EveryStepKeepsOffOff
  refine ⟨fun _ => ⟨rfl, rfl⟩, fun s t hs h => ?_⟩
  unfold step at h
  split at h
  · cases h
    exact ((keepsDark_clockTick (fresh s.mach)).trans (keepsDark_activateDue _)) hs
  · exact exec_keepsDark h hs

end Sys2Proof.Machine

/-!
PROOFS. The supply's supervision (O20): what the closing of the flash, the entry into FAULT and the loss of power leave unchanged.
-/

namespace Sys2Proof.Machine

/-! ### What stopping the module leaves unchanged -/

theorem keeps_setCtl (m : Mach) (f : Ctl → Ctl) : Keeps [.ctl] m (setCtl m f) := by
  intro p hp
  cases p
  case ctl => simp at hp
  all_goals rfl

theorem keeps_setEject (m : Mach) (f : Eject → Eject) : Keeps [.eject] m (setEject m f) := by
  intro p hp
  cases p
  case eject => simp at hp
  all_goals rfl

theorem keeps_raiseCount (m : Mach) (f g : Fld) (i : Nat) : Keeps [.host] m (raiseCount m f g i) :=
  keeps_wr _ _ _ (keeps_raise m f i)

theorem keeps_startProg (m : Mach) : Keeps [.flash] m (startProg m) := by
  obtain ⟨w, h⟩ := startProg_eq m
  rw [h]
  exact keeps_setFlash _ _

theorem keeps_audit (m : Mach) (type ctx : Nat) (pl : List Byte) : Keeps [.flash] m (audit m type ctx pl) := by
  unfold audit
  split
  · exact keeps_inc _ _ _ _
  · exact keeps_trans (keeps_setFlash _ _) (keeps_startProg _)

theorem keeps_putReject (m : Mach) (objDec : List Byte) (ctx : Nat) (conf : Bool) (crop tail : List Byte) :
    Keeps [.flash, .host] m (putReject m objDec ctx conf crop tail) := by
  have hf : ∀ t g, Keeps [.flash, .host] t (setFlash t g) := fun t g => keeps_mono (keeps_setFlash t g) (by simp)
  have hp : ∀ t, Keeps [.flash, .host] t (startProg t) := fun t => keeps_mono (keeps_startProg t) (by simp)
  unfold putReject
  extract_lets bucket wanted skip kept flags rec_
  split
  · exact keeps_refl _ m
  · split
    · exact keeps_trans (keeps_mono (keeps_raiseCount m _ _ _) (by simp)) (hf _ _)
    · exact keeps_trans (hf _ _) (hp _)

/-- The parts in which dropped intervals, final decisions and their records show. -/
def dropParts : List Part := [.eject, .flash, .host]

theorem keeps_finalize (m : Mach) (d : Decision) : Keeps dropParts m (finalize m d) := by
  have he : ∀ f, Keeps dropParts m (setEject m f) := fun f => keeps_mono (keeps_setEject m f) (by simp [dropParts])
  unfold finalize
  dsimp only
  split
  · exact keeps_trans (he _) (keeps_mono (keeps_putReject _ _ _ _ _ _) (by simp [dropParts]))
  · exact he _

theorem keeps_forEach {but : List Part} {α : Type} (xs : List α) (m : Mach) (f : Mach → α → Mach) (h : ∀ m x, Keeps but m (f m x)) :
    Keeps but m (forEach xs m f) := by
  unfold forEach
  induction xs generalizing m with
  | nil => exact keeps_refl but m
  | cons x xs ih => exact keeps_trans (h m x) (ih _)

theorem keeps_missFire (m : Mach) (f : Fire) (k : Nat) : Keeps dropParts m (missFire m f k) := by
  have he : ∀ t g, Keeps dropParts t (setEject t g) := fun t g => keeps_mono (keeps_setEject t g) (by simp [dropParts])
  refine keeps_trans (keeps_trans (he _ _) (he _ _)) (keeps_forEach _ _ _ fun n d => ?_)
  split
  · exact keeps_refl _ n
  · exact keeps_finalize n d

theorem keeps_dropFire (m : Mach) (f : Fire) : Keeps dropParts m (dropFire m f) :=
  keeps_trans (keeps_mono (keeps_raiseCount m _ _ _) (by simp [dropParts])) (keeps_missFire _ f 1)

theorem keeps_dropAllFires (m : Mach) : Keeps dropParts m (dropAllFires m) :=
  keeps_trans (keeps_forEach _ _ _ keeps_dropFire) (keeps_mono (keeps_setEject _ _) (by simp [dropParts]))

theorem keeps_enter (m : Mach) (n : ModState) : Keeps [.ctl, .host] m (enter m n) := by
  unfold enter
  split
  · exact keeps_refl _ m
  · exact keeps_trans (keeps_mono (keeps_setCtl m fun c => { c with prev := c.st, st := n }) (by simp)) (keeps_mono (keeps_raise (setCtl m _) _ _) (by simp))

/-- The parts in which a stop shows: the way into FAULT, and the ejector's intervals with their records. -/
def stopParts : List Part := [.ctl, .eject, .flash, .host]

theorem keeps_enterFault (m : Mach) (cause : Nat) : Keeps stopParts m (enterFault m cause) := by
  unfold enterFault
  split
  · exact keeps_refl _ m
  · exact keeps_trans (keeps_mono (keeps_enter m _) (by simp [stopParts])) (keeps_mono (keeps_audit _ _ _ _) (by simp [stopParts]))

/-- What is given up when the module stops, dropped intervals first (R379). -/
def stopDropped (m : Mach) : Mach := if pipelineOn m then dropAllFires m else m

theorem stopModule_eq (m : Mach) (cause : Nat) : stopModule m cause = setCtl (enterFault (stopDropped m) cause) (fun c => { c with
    drain := false, drainLeft := 0, align := false, realignDue := false, powerReq := none, heldReqs := [], waking := false }) := rfl

theorem keeps_stopDropped (m : Mach) : Keeps stopParts m (stopDropped m) := by
  unfold stopDropped
  split
  · exact keeps_mono (keeps_dropAllFires m) (by simp [dropParts, stopParts])
  · exact keeps_refl _ m

@[simp] theorem stopDropped_ctl (m : Mach) : (stopDropped m).ctl = m.ctl := by
  unfold stopDropped
  split
  · exact ctl_of_fixed (fixed_dropAllFires m)
  · rfl

theorem keeps_stopModule (m : Mach) (cause : Nat) : Keeps stopParts m (stopModule m cause) := by
  rw [stopModule_eq]
  exact keeps_trans (keeps_stopDropped m) (keeps_trans (keeps_enterFault _ _) (keeps_mono (keeps_setCtl _ _) (by simp [stopParts])))

/-! ### FAULT entered -/

theorem audit_ctl (m : Mach) (type ctx : Nat) (pl : List Byte) : (audit m type ctx pl).ctl = m.ctl := ctl_of_fixed (fixed_audit m type ctx pl)

theorem enterFault_ctl_st (m : Mach) (cause : Nat) (h : m.ctl.st ≠ .powering) : (enterFault m cause).ctl.st = .fault := st_enterFault m cause h

/-- FAULT entered from another state: PREV_STATE is that state, and the change is raised (R22). -/
theorem enterFault_from (m : Mach) (cause : Nat) (ha : m.ctl.st ≠ .powering) (hf : m.ctl.st ≠ .fault) :
    (enterFault m cause).ctl.prev = m.ctl.st ∧ (enterFault m cause).ctl.supplyOut = m.ctl.supplyOut ∧
      rd (enterFault m cause) F.GEN_EVENT_STATE_CHANGE 0 = 1 := by
  simp only [enterFault, ha, hf, decide_false, Bool.or_false, Bool.false_eq_true, if_false]
  refine ⟨?_, ?_, ?_⟩
  · rw [audit_ctl, enter_ctl_prev _ _ hf]
  · rw [audit_ctl]
    simp [enter, hf]
  · rw [rd_of_regsKeep (regsKeep_audit _ _ _ _) _ _ (by decide) (by decide), enter, if_neg hf]
    exact rd_raiseAs_same _ _ _ _ _ (by decide) (by decide) (by decide)

theorem enterFault_supplyOut (m : Mach) (cause : Nat) (ha : m.ctl.st ≠ .powering) :
    (enterFault m cause).ctl.supplyOut = m.ctl.supplyOut := by
  by_cases hf : m.ctl.st = .fault
  · simp [enterFault, hf]
  · exact (enterFault_from m cause ha hf).2.1

/-! ### Outputs off -/

/-- In FAULT no output is commanded on, whatever its mode (R77, R390). -/
theorem doCommand_fault {m : Mach} (h : m.ctl.st = .fault) (n : Nat) : doCommand m n = false := by
  have hp : pipelineOn m = false := by simp [pipelineOn, h]
  have ht : ticking m = false := by simp [ticking, hp, h]
  unfold doCommand
  split <;> simp [hp, ht, h]

theorem doCommands_fault {m : Mach} (h : m.ctl.st = .fault) : doCommands m = 0 := by
  have hc : doCommand m = fun _ => false := funext (doCommand_fault h)
  rw [doCommands, hc]
  decide

theorem doOn_fault {m : Mach} (h : m.ctl.st = .fault) : doOn m = 0 := by
  simp [doOn, doCommands_fault h]

theorem doOn_powering {m : Mach} (h : m.ctl.st = .powering) : doOn m = 0 := by
  simp [doOn, alive, h]

/-! ### The flash closed -/

theorem keeps_finishProg (m : Mach) : Keeps [.flash] m (finishProg m) := by
  unfold finishProg
  split
  · split
    · exact keeps_refl _ m
    · exact keeps_setFlash _ _
  · exact keeps_refl _ m

theorem finishProg_regs (m : Mach) : (finishProg m).regs = m.regs := by
  unfold finishProg
  split
  · split
    · rfl
    · exact setFlash_regs _ _
  · rfl

theorem keeps_readOnlyDrop (m : Mach) : Keeps [.flash] m (readOnlyDrop m) := by
  unfold readOnlyDrop
  split
  · exact keeps_trans (keeps_wr _ _ _ (keeps_refl _ m)) (keeps_setFlash _ _)
  · exact keeps_refl _ m

/-- The words that the close may write: AUDIT_LOST in READ_ONLY, none otherwise (R401). -/
def closeRegs (m : Mach) : List Nat := if rd m F.FLS_HEALTH_STATE 0 = 3 then [F.FLS_CNT_AUDIT_LOST.addr 0] else []

theorem regsKeep_readOnlyDrop (m : Mach) : RegsKeep (closeRegs m) m (readOnlyDrop m) := by
  unfold readOnlyDrop closeRegs
  split
  · exact regsKeep_trans (regsKeep_wr _ _ _ (by simp) (regsKeep_refl _ m)) (regsKeep_of_regs (setFlash_regs _ _))
  · exact regsKeep_refl _ m

theorem closeRegs_of_regs {m t : Mach} (h : t.regs = m.regs) : closeRegs t = closeRegs m := by
  unfold closeRegs rd word
  rw [h]

theorem keeps_flashClose (m : Mach) : Keeps [.flash] m (flashClose m) :=
  keeps_trans (keeps_finishProg m) (keeps_trans (keeps_readOnlyDrop _) (keeps_setFlash _ _))

theorem regsKeep_flashClose (m : Mach) : RegsKeep (closeRegs m) m (flashClose m) := by
  have h := regsKeep_readOnlyDrop (finishProg m)
  rw [closeRegs_of_regs (finishProg_regs m)] at h
  exact regsKeep_trans (regsKeep_of_regs (finishProg_regs m)) (regsKeep_trans h (regsKeep_of_regs (setFlash_regs _ _)))

theorem flashClose_buffers (m : Mach) : (flashClose m).flash.bufSys = 0 ∧ (flashClose m).flash.bufAudit = [] ∧ (flashClose m).flash.bufReject = [] :=
  ⟨rfl, rfl, rfl⟩

@[simp] theorem flashClose_ctl (m : Mach) : (flashClose m).ctl = m.ctl := ctl_of_fixed (fixed_flashClose m)

@[simp] theorem flashClose_out (m : Mach) : (flashClose m).out = m.out := by
  have hf : (finishProg m).out = m.out := by
    unfold finishProg
    split
    · split <;> simp
    · rfl
  have hr : ∀ t : Mach, (readOnlyDrop t).out = t.out := fun t => by
    unfold readOnlyDrop
    split <;> simp
  exact (hr _).trans hf

/-! ### The power lost -/

@[simp] theorem forEach_out {α : Type} (xs : List α) (m : Mach) (f : Mach → α → Mach) (h : ∀ m x, (f m x).out = m.out) :
    (forEach xs m f).out = m.out := by
  unfold forEach
  induction xs generalizing m with
  | nil => rfl
  | cons x xs ih => exact (ih _).trans (h m x)

theorem wiped_out (m : Mach) (on : Bool) (keep : List Nat) : (wiped m on keep).out = m.out := by
  unfold wiped
  exact forEach_out _ _ _ fun _ _ => wr_out _ _ _ _

/-- What a power-on wipe leaves of the fixed parts (R79). -/
theorem fixed_wiped (m : Mach) : fixed (wiped m true []) =
    { ctl := { perstHigh := m.ctl.perstHigh, tripped := m.ctl.tripped, prev := m.ctl.prev, st := m.ctl.st, supplyOut := m.ctl.supplyOut && !true },
      fuses := m.fuses, nor := m.nor, cfg := {}, time := {}, enc := [] } := by
  unfold wiped
  extract_lets spares health pe m0
  exact (fixed_wrs _ _ _).trans rfl

/-- The loss of power before the Tillers' quarantine is noted again. -/
def poweredOff (m : Mach) : Mach :=
  setCtl (emit (wiped m true []) .linkDown) (fun c => { ({} : Ctl) with perstHigh := c.perstHigh, tripped := c.tripped })

theorem powerDown_eq (m : Mach) :
    powerDown m = forEach (quarantined m) (poweredOff m) (fun m t => setTil m t (fun x => { x with quar := true })) := rfl

theorem powerDown_out (m : Mach) : (powerDown m).out = m.out ++ [.linkDown] := by
  rw [powerDown_eq, forEach_out _ _ _ fun _ _ => setTil_out _ _ _]
  exact congrArg (· ++ [.linkDown]) (wiped_out m true [])

/-- The module without power: POWERING, and everything volatile as after reset (R50, R79, R442). -/
theorem fixed_powerDown (m : Mach) : fixed (powerDown m) =
    { ctl := { perstHigh := m.ctl.perstHigh, tripped := m.ctl.tripped }, fuses := m.fuses, nor := m.nor, cfg := {}, time := {}, enc := [] } := by
  have hw := fixed_wiped m
  rw [powerDown_eq, fixed_forEach _ _ _ fun _ _ => fixed_setTil _ _ _]
  unfold poweredOff
  rw [fixed_setCtl, fixed_emit, hw]

/-! ### The commands -/

/-- The start of an excursion with power-good starts the filter (R49). -/
theorem completes_excursionStart (s : State) (h : s.mach.ctl.powerGood = true) : Completes .supplyExcursionStart s (fun t =>
    t.ctl = { s.mach.ctl with supplyOut := true } ∧ Keeps [.ctl] s.mach t ∧ RegsSame s.mach t) := by
  refine completes_run excursionStart rfl ?_
  have he : excursionStart (fresh s.mach) = setCtl (fresh s.mach) (fun c => { c with supplyOut := true }) := by simp [excursionStart, h]
  rw [he]
  refine ⟨by simp, keeps_settle (keeps_trans (keeps_fresh _ _) (keeps_setCtl _ _)), ?_⟩
  simp [RegsSame]

/-- Power-good lost: the flash closes (R50, R396). -/
theorem completes_powerGoodLost (s : State) (h : s.mach.ctl.powerGood = true) : Completes .powerGoodLost s (fun t =>
    t.ctl = { s.mach.ctl with powerGood := false, supplyOut := false } ∧ t.flash.bufSys = 0 ∧ t.flash.bufAudit = [] ∧ t.flash.bufReject = [] ∧
      Keeps [.ctl, .flash] s.mach t ∧ RegsKeep (closeRegs s.mach) s.mach t) := by
  refine completes_run powerGoodLost rfl ?_
  have he : powerGoodLost (fresh s.mach) = setCtl (flashClose (fresh s.mach)) (fun c => { c with powerGood := false, supplyOut := false }) := by
    simp [powerGoodLost, h]
  have hk : Keeps [.ctl, .flash] s.mach (flashClose (fresh s.mach)) :=
    keeps_trans (keeps_fresh _ _) (keeps_mono (keeps_flashClose _) (by simp))
  have hr : RegsKeep (closeRegs s.mach) s.mach (flashClose (fresh s.mach)) :=
    regsKeep_trans (regsKeep_fresh _ _) (closeRegs_of_regs (fresh_regs s.mach) ▸ regsKeep_flashClose _)
  rw [he]
  refine ⟨by simp, by simp [flashClose_buffers], by simp [flashClose_buffers], by simp [flashClose_buffers], ?_, ?_⟩
  · exact keeps_settle (keeps_trans hk (keeps_mono (keeps_setCtl _ _) (by simp)))
  · exact regsKeep_settle (regsKeep_trans hr (regsKeep_of_regs (setCtl_regs _ _)))

/-- Raising an event sends nothing but its vector (R449). -/
theorem raiseAs_out_vectors (m : Mach) (f : Fld) (i n c : Nat) (o : Output) (ho : o ∈ (raiseAs m f i n c).out) : o ∈ m.out ∨ ∃ v, o = .msix v := by
  unfold raiseAs at ho
  split at ho
  · exact .inl ho
  · unfold sendVector at ho
    split at ho
    · exact .inl ho
    · simp only [emit_out, List.mem_append, List.mem_singleton] at ho
      exact ho.imp id fun h => ⟨_, h⟩

/-- The excursion ends in time: SUPPLY_DIP, raised and counted (R49). -/
theorem completes_supplyDip (s : State) (h : s.mach.ctl.supplyOut = true) : Completes .supplyDip s (fun t =>
    t.ctl = { s.mach.ctl with supplyOut := false } ∧ Raised F.GEN_EVENT_SUPPLY_DIP 0 s.mach t ∧ Counted F.GEN_CNT_SUPPLY_DIP 0 1 s.mach t ∧
      OnlyVectors t ∧ Keeps [.ctl, .host] s.mach t ∧ RegsKeep [F.GEN_EVENT_SUPPLY_DIP.addr 0, F.GEN_CNT_SUPPLY_DIP.addr 0] s.mach t) := by
  refine completes_run supplyDip rfl ?_
  let m := setCtl (fresh s.mach) (fun c => { c with supplyOut := false })
  have he : supplyDip (fresh s.mach) = raiseCount m F.GEN_EVENT_SUPPLY_DIP F.GEN_CNT_SUPPLY_DIP 0 := by simp [supplyDip, h, m]
  have hraised := raised_raiseAs m F.GEN_EVENT_SUPPLY_DIP 0 0 0 (by decide) (by decide) (by decide)
  obtain ⟨hflag, hword⟩ := hraised
  have hcnt : rd (raise m F.GEN_EVENT_SUPPLY_DIP 0) F.GEN_CNT_SUPPLY_DIP 0 = rd s.mach F.GEN_CNT_SUPPLY_DIP 0 :=
    (rd_raiseAs_ne _ _ _ _ _ _ _ (by decide) (by decide)).trans rfl
  rw [he]
  refine ⟨?_, ⟨?_, ?_⟩, ?_, ?_, ?_, ?_⟩
  · simp [raiseCount, m]
  · rw [rd_settle, raiseCount, rd_inc_ne _ _ _ _ _ (by decide)]
    exact hflag
  · rw [word_settle]
    exact (word_setWord_ne _ _ _ _ _ _ (by decide)).trans hword
  · rw [Counted, rd_settle, raiseCount, rd_inc_same _ _ _ (by decide), hcnt]
  · intro o ho
    rw [settle_out, raiseCount, inc_out] at ho
    exact (raiseAs_out_vectors _ _ _ _ _ _ ho).resolve_left List.not_mem_nil
  · exact keeps_settle (keeps_trans (keeps_trans (keeps_fresh _ _) (keeps_mono (keeps_setCtl _ _) (by simp))) (keeps_mono (keeps_raiseCount m _ _ _) (by simp)))
  · exact regsKeep_settle (regsKeep_inc _ _ (by simp) (regsKeep_raiseAs _ _ _ _ (by simp) (by decide) (regsKeep_of_regs rfl)))

/-- An excursion that lasts stops the module (R22, R23, R49). -/
theorem completes_supplyFault (s : State) (h : s.mach.ctl.supplyOut = true) (ha : alive s.mach = true) : Completes .supplyFault s (fun t =>
    t.ctl.st = .fault ∧ (s.mach.ctl.st ≠ .fault → t.ctl.prev = s.mach.ctl.st ∧ rd t F.GEN_EVENT_STATE_CHANGE 0 = 1) ∧
      t.ctl.supplyOut = false ∧ t.ctl.drain = false ∧ t.ctl.align = false ∧ t.ctl.powerReq = none ∧ t.ctl.heldReqs = [] ∧
      t.ctl.waking = false ∧ doOn t = 0 ∧ Keeps [.ctl, .intake, .fab, .eject, .flash, .host, .draws] s.mach t) := by
  refine completes_run supplyFault rfl ?_
  let m := setCtl (fresh s.mach) (fun c => { c with supplyOut := false })
  have he : supplyFault (fresh s.mach) = stopModule m 2 := by simp [supplyFault, h, m]
  have hp : (stopDropped m).ctl.st ≠ .powering := by simpa [alive, m] using ha
  have hst : (enterFault (stopDropped m) 2).ctl.st = .fault := enterFault_ctl_st _ _ hp
  have hso : (enterFault (stopDropped m) 2).ctl.supplyOut = false := (enterFault_supplyOut _ _ hp).trans (by simp [m])
  have hk := keeps_trans (keeps_trans (keeps_fresh [.ctl, .eject, .flash, .host] s.mach) (keeps_mono (keeps_setCtl _ _) (by simp))) (keeps_stopModule m 2)
  rw [he]
  refine ⟨?_, fun hf => ?_, ?_, ?_, ?_, ?_, ?_, ?_, ?_, keeps_mono (keeps_settle hk) (by simp)⟩
  · simpa [stopModule_eq] using hst
  · obtain ⟨hprev, _, hev⟩ := enterFault_from (stopDropped m) 2 hp (by simpa [m] using hf)
    refine ⟨?_, ?_⟩
    · simpa [stopModule_eq, m] using hprev
    · rw [rd_settle, stopModule_eq]
      exact hev
  · simpa [stopModule_eq] using hso
  · simp [stopModule_eq]
  · simp [stopModule_eq]
  · simp [stopModule_eq]
  · simp [stopModule_eq]
  · simp [stopModule_eq]
  · exact doOn_fault (by simpa [stopModule_eq] using hst)

/-- With no excursion pending its ends do nothing. -/
theorem completes_supplyIgnored (s : State) (h : s.mach.ctl.supplyOut = false) :
    ∀ c ∈ [Instr.supplyDip, .supplyFault], Completes c s (fun t => Keeps [] s.mach t ∧ RegsSame s.mach t) := by
  have hd : supplyDip (fresh s.mach) = fresh s.mach := by simp [supplyDip, h]
  have hf : supplyFault (fresh s.mach) = fresh s.mach := by simp [supplyFault, h]
  simp only [List.forall_mem_cons, List.not_mem_nil, false_imp_iff, implies_true, and_true]
  exact ⟨completes_mono (completes_nothing supplyDip rfl hd) fun _ ⟨hk, hr, _⟩ => ⟨hk, hr⟩,
    completes_mono (completes_nothing supplyFault rfl hf) fun _ ⟨hk, hr, _⟩ => ⟨hk, hr⟩⟩

/-- The module switched off, its flash closed (R50, R442). -/
theorem powerDown_flashClose (m : Mach) :
    (powerDown (flashClose (fresh m))).ctl = { perstHigh := m.ctl.perstHigh, tripped := m.ctl.tripped } ∧
      (powerDown (flashClose (fresh m))).time = {} ∧ (powerDown (flashClose (fresh m))).fuses = m.fuses ∧
      (powerDown (flashClose (fresh m))).nor = m.nor ∧ (powerDown (flashClose (fresh m))).out = [.linkDown] := by
  have hc : fixed (flashClose (fresh m)) = fixed m := (fixed_flashClose _).trans rfl
  have hf := fixed_powerDown (flashClose (fresh m))
  rw [flashClose_ctl, show (flashClose (fresh m)).fuses = m.fuses from congrArg Fixed.fuses hc,
    show (flashClose (fresh m)).nor = m.nor from congrArg Fixed.nor hc] at hf
  refine ⟨congrArg Fixed.ctl hf, congrArg Fixed.time hf, congrArg Fixed.fuses hf, congrArg Fixed.nor hf, ?_⟩
  rw [powerDown_out, flashClose_out]
  rfl

theorem completes_holdupExpiry (s : State) (ha : alive s.mach = true) (h : s.mach.ctl.powerGood = false) : Completes .holdupExpiry s (fun t =>
    t.ctl.st = .powering ∧ t.ctl.tripped = s.mach.ctl.tripped ∧ t.time = {} ∧ t.fuses = s.mach.fuses ∧ t.nor = s.mach.nor ∧
      doOn t = 0 ∧ t.out = [.linkDown]) := by
  refine completes_run holdupExpiry rfl ?_
  have he : holdupExpiry (fresh s.mach) = powerDown (flashClose (fresh s.mach)) := by
    have ha' : alive (fresh s.mach) = true := ha
    simp [holdupExpiry, ha', h]
  obtain ⟨hc, ht, hf, hn, ho⟩ := powerDown_flashClose s.mach
  rw [he]
  have hst : (powerDown (flashClose (fresh s.mach))).ctl.st = .powering := by rw [hc]
  exact ⟨by simpa using hst, by simp [hc], by simpa using ht, by simpa using hf, by simpa using hn, doOn_powering (by simpa using hst), by simpa using ho⟩

/-- A thermal trip: off as at the end of the hold-up, and held off until the supply is removed (R442). -/
theorem completes_thermalTrip (s : State) (ha : alive s.mach = true) : Completes .thermalTrip s (fun t =>
    t.ctl.st = .powering ∧ t.ctl.tripped = true ∧ t.time = {} ∧ t.fuses = s.mach.fuses ∧ t.nor = s.mach.nor ∧ doOn t = 0 ∧
      t.out = [.linkDown] ∧ powerGood t = t ∧ (powerGoodLost t).ctl = { t.ctl with tripped := false }) := by
  refine completes_run thermalTrip rfl ?_
  let d := powerDown (flashClose (fresh s.mach))
  have he : thermalTrip (fresh s.mach) = setCtl d (fun c => { c with tripped := true }) := by
    have ha' : alive (fresh s.mach) = true := ha
    simp [thermalTrip, ha', d]
  obtain ⟨hc, ht, hf, hn, ho⟩ := powerDown_flashClose s.mach
  rw [he]
  let t := settle s.mach (setCtl d (fun c => { c with tripped := true }))
  have hct : t.ctl = { perstHigh := s.mach.ctl.perstHigh, tripped := true } := by simp [t, d, hc]
  have hst : t.ctl.st = .powering := by rw [hct]
  have htr : t.ctl.tripped = true := by rw [hct]
  have hpg : t.ctl.powerGood = false := by rw [hct]
  refine ⟨hst, htr, by simpa using ht, by simpa using hf, by simpa using hn, doOn_powering hst, by simpa using ho, ?_, ?_⟩
  · change powerGood t = t
    simp [powerGood, htr]
  · change (powerGoodLost t).ctl = { t.ctl with tripped := false }
    simp [powerGoodLost, hst, hpg]

/-- Settles O20: each clause is the effect of one command of the supply. -/
theorem supplySupervision : Obligations.SupplySupervision := by
  unfold Obligations.SupplySupervision
  refine ⟨fun s h => ⟨completes_excursionStart s h, completes_powerGoodLost s h⟩, fun s h => ⟨completes_supplyDip s h, completes_supplyFault s h⟩,
    completes_supplyIgnored, fun s ha => ⟨fun h => ?_, completes_holdupExpiry s ha, completes_thermalTrip s ha⟩⟩
  have hn : holdupExpiry (fresh s.mach) = fresh s.mach := by simp [holdupExpiry, h]
  exact completes_mono (completes_nothing holdupExpiry rfl hn) fun _ ⟨hk, hr, _⟩ => ⟨hk, hr⟩

end Sys2Proof.Machine

/-!
PROOFS. The Sheaf's pattern test (O34): TEST, the checkers, the injected symbol, the write of SHF_PAT_CTRL and the window of a pattern.
-/

namespace Sys2Proof.Machine

/-! ### Ports, and writes that act -/

theorem keeps_setPort (m : Mach) (p : Nat) (f : SheafPort → SheafPort) : Keeps [.sheaf] m (setPort m p f) := by
  intro q hq
  cases q
  case sheaf => simp at hq
  all_goals rfl

@[simp] theorem portOf_setPort_same (m : Mach) (p : Nat) (f : SheafPort → SheafPort) : portOf (setPort m p f) p = f (portOf m p) :=
  tget_tmod_same _ _ _ _

theorem portOf_setPort_ne (m : Mach) {p q : Nat} (f : SheafPort → SheafPort) (h : q ≠ p) : portOf (setPort m p f) q = portOf m q :=
  tget_tmod_ne _ _ _ h

/-- A port reads the same where the ports are the same. -/
theorem portOf_of_sheaf {m t : Mach} (h : t.sheaf = m.sheaf) (p : Nat) : portOf t p = portOf m p := by
  unfold portOf
  rw [h]

@[simp] theorem portOf_settle (n m : Mach) (p : Nat) : portOf (settle n m) p = portOf m p := portOf_of_sheaf (settle_sheaf n m) p
@[simp] theorem portOf_fresh (m : Mach) (p : Nat) : portOf (fresh m) p = portOf m p := rfl
@[simp] theorem portOf_wr (m : Mach) (f : Fld) (i v p : Nat) : portOf (wr m f i v) p = portOf m p := rfl

/-- A write to a block with power acts (R74, R445, R452). -/
theorem bar0P_may {m : Mach} (h : HostMay m) (hd : m.ctl.st ≠ .dormant) (f : Mach → Mach) : bar0P m f = f m := by
  rw [bar0P, bar0_may h, if_neg hd]

/-- A write that may not act changes nothing. -/
theorem bar0P_blocked {m : Mach} (h : ¬ HostMay m ∨ m.ctl.st = .dormant) (f : Mach → Mach) : bar0P m f = m := by
  unfold bar0P bar0
  split
  · next hc => exact if_pos (h.resolve_left fun hn => hn (by simpa [HostMay] using hc))
  · rfl

theorem portOut_eq_self {m : Mach} {p : Nat} {f : Mach → Mach} (h : f m = m) : portOut p f m = m := by
  unfold portOut
  simp [h]

theorem portOut_deny {m : Mach} {p : Nat} {f : Mach → Mach} (h : f m = deny m) : portOut p f m = deny m := by
  have hp : portOf (deny m) p = portOf m p := rfl
  unfold portOut
  simp [h, hp]

/-! ### TEST -/

/-- What a training from nothing sets of a port. -/
def trainingPort (phy : PhyState) (fast : Bool) (s : SheafPort) : SheafPort := { s with
  phy := phy, fast := fast, backoff := false, wake := false, frameOk := 0, eqHere := 0, eqThere := 0, tapReq := 0, injNext := 0,
  lpOut := none, lpPeer := none, lpAcked := none, awaitAck := false }

/-- A training that waits for the partner's clock sends no frame yet (R133). -/
theorem startTraining_silent (m : Mach) (p : Nat) {phy : PhyState} (fast : Bool) (hc : phy ≠ .clock) (hw : phy ≠ .wake) :
    startTraining m p phy fast = setPort (wr (wr m F.SHF_PHY_STATUS_LANE_OK p 0) F.SHF_PHY_STATUS_CK_LOCK p (b2n (phy != .detect && phy != .off)))
      p (trainingPort phy fast) := by
  unfold startTraining
  dsimp only
  rw [if_neg (by simp [hc, hw])]
  rfl

/-- The registers that a write of TEST may change. -/
def testRegs (p : Fin 16) : List Nat := [F.SHF_PHY_CTRL_TEST.addr p, F.SHF_PHY_STATUS_CK_LOCK.addr p, F.INT_ALIGN_STATUS_STATE.addr 0]

theorem testRegs_apart (p : Fin 16) : F.SHF_PHY_CTRL_TEST.addr p ≠ F.SHF_PHY_STATUS_CK_LOCK.addr p ∧
    F.SHF_PHY_CTRL_TEST.addr p ≠ F.SHF_PHY_STATUS_LANE_OK.addr p ∧ F.SHF_PHY_CTRL_TEST.addr p ≠ F.INT_ALIGN_STATUS_STATE.addr 0 ∧
    F.SHF_PHY_CTRL_TEST.addr p ≠ F.INT_ALIGN_STATUS_FAIL.addr 0 := by
  revert p
  decide

/-- TEST of a port is `on` and its state `phy`, and nothing else changed but a training's own and an alignment's end. -/
structure TestSets (p : Fin 16) (on : Bool) (phy : PhyState) (m t : Mach) : Prop where
  test : testSet t p = on
  phy : (portOf t p).phy = phy
  out : t.out = m.out
  others : ∀ q : Fin 16, q ≠ p → portOf t q = portOf m q
  keeps : Keeps [.sheaf, .ctl, .align] m t
  regs : RegsKeep (testRegs p) m t

theorem testSet_wr (m : Mach) (p : Nat) (on : Bool) : testSet (wr m F.SHF_PHY_CTRL_TEST p (b2n on)) p = on := by
  rw [testSet, flag, rd_wr_same _ _ _ _ (by decide)]
  cases on <;> rfl

/-- TEST is written; the port stays as it is (R64). -/
theorem testSets_wr (m : Mach) (p : Fin 16) (on : Bool) : TestSets p on (portOf m p).phy m (wr m F.SHF_PHY_CTRL_TEST p (b2n on)) where
  test := testSet_wr m p on
  phy := rfl
  out := wr_out _ _ _ _
  others := fun _ _ => rfl
  keeps := keeps_wr _ _ _ (keeps_refl _ m)
  regs := regsKeep_wr _ _ _ (by simp [testRegs]) (regsKeep_refl _ m)

/-- Only the port's own state changes. -/
theorem TestSets.setPort {p : Fin 16} {on : Bool} {phy : PhyState} {m t : Mach} (h : TestSets p on phy m t) (f : SheafPort → SheafPort) :
    TestSets p on (f (portOf t p)).phy m (setPort t p f) where
  test := h.test
  phy := by rw [portOf_setPort_same]
  out := (setPort_out _ _ _).trans h.out
  others := fun q hq => (portOf_setPort_ne _ _ (fun e => hq (Fin.ext e))).trans (h.others q hq)
  keeps := keeps_trans h.keeps (keeps_mono (keeps_setPort _ _ _) (by simp))
  regs := regsKeep_trans h.regs (regsKeep_of_regs (setPort_regs _ _ _))

/-- A register of the port's status or of the alignment's is written. -/
theorem TestSets.wr {p : Fin 16} {on : Bool} {phy : PhyState} {m t : Mach} (h : TestSets p on phy m t) (f : Fld) (i v : Nat)
    (hf : f.addr i ∈ testRegs p) (hne : F.SHF_PHY_CTRL_TEST.addr p ≠ f.addr i) : TestSets p on phy m (wr t f i v) where
  test := by
    rw [testSet, flag, rd_wr_ne _ _ _ _ _ _ hne]
    exact h.test
  phy := h.phy
  out := (wr_out _ _ _ _).trans h.out
  others := h.others
  keeps := keeps_wr _ _ _ h.keeps
  regs := regsKeep_wr _ _ _ hf h.regs

theorem TestSets.startTraining {p : Fin 16} {on : Bool} {x phy : PhyState} {m t : Mach} (h : TestSets p on x m t) (fast : Bool)
    (hc : phy ≠ .clock) (hw : phy ≠ .wake) : TestSets p on phy m (startTraining t p phy fast) := by
  obtain ⟨hck, hlane, -, -⟩ := testRegs_apart p
  rw [startTraining_silent _ _ _ hc hw]
  refine ((h.wr F.SHF_PHY_STATUS_LANE_OK p 0 ?_ hlane).wr F.SHF_PHY_STATUS_CK_LOCK p _ ?_ hck).setPort (trainingPort phy fast)
  · exact List.mem_cons_of_mem _ (List.mem_cons_self ..)
  · exact List.mem_cons_of_mem _ (List.mem_cons_self ..)

/-- An alignment given up, before its registers show it. -/
def alignGivenUp (m : Mach) : Mach := setAlign (setCtl m (fun c => { c with align := false })) (fun a => { a with lines := [], passes := [] })

theorem keeps_alignGivenUp (m : Mach) : Keeps [.ctl, .align] m (alignGivenUp m) := by
  intro q hq
  cases q
  case ctl => simp at hq
  case align => simp at hq
  all_goals rfl

theorem alignFail_eq (m : Mach) (reason : Nat) : alignFail m reason = if !m.ctl.align then m else
    wr (wr (alignGivenUp m) F.INT_ALIGN_STATUS_STATE 0 3) F.INT_ALIGN_STATUS_FAIL 0 reason := rfl

theorem TestSets.alignGivenUp {p : Fin 16} {on : Bool} {phy : PhyState} {m t : Mach} (h : TestSets p on phy m t) :
    TestSets p on phy m (alignGivenUp t) where
  test := h.test
  phy := h.phy
  out := h.out
  others := h.others
  keeps := keeps_trans h.keeps (keeps_mono (keeps_alignGivenUp t) (by simp))
  regs := regsKeep_trans h.regs (regsKeep_of_regs rfl)

/-- An alignment that the port's loss ends leaves the port (R185). -/
theorem TestSets.alignPortLost {p : Fin 16} {on : Bool} {phy : PhyState} {m t : Mach} (h : TestSets p on phy m t) :
    TestSets p on phy m (alignPortLost t p) := by
  obtain ⟨-, -, hst, hfail⟩ := testRegs_apart p
  have hin : F.INT_ALIGN_STATUS_STATE.addr 0 ∈ testRegs p := by simp [testRegs]
  unfold Machine.alignPortLost
  rw [alignFail_eq]
  split
  · split
    · exact h
    · exact (h.alignGivenUp.wr F.INT_ALIGN_STATUS_STATE 0 3 hin hst).wr F.INT_ALIGN_STATUS_FAIL 0 5 hin hfail
  · exact h

theorem TestSets.portOut {p : Fin 16} {on : Bool} {phy : PhyState} {m : Mach} {f : Mach → Mach} (h : TestSets p on phy m (f m)) :
    TestSets p on phy m (portOut p f m) := by
  unfold Machine.portOut
  dsimp only
  split
  · exact h.alignPortLost
  · exact h

/-- The command's outcome, as the statement has it. -/
theorem completes_testSets {s : State} {p : Fin 16} {w on : Bool} {phy : PhyState} (h : TestSets p on phy (fresh s.mach) (testWrite p w (fresh s.mach))) :
    Completes (.testWrite p w) s (fun t => testSet t p = on ∧ (portOf t p).phy = phy ∧ t.out = [] ∧
      (∀ q : Fin 16, q ≠ p → portOf t q = portOf s.mach q) ∧ Keeps [.sheaf, .ctl, .align] s.mach t ∧ RegsKeep (testRegs p) s.mach t) := by
  refine completes_run (portOut p (testWrite p w)) rfl ?_
  obtain ⟨ht, hp, ho, hq, hk, hr⟩ := h.portOut
  refine ⟨?_, by simpa using hp, by simpa using ho, fun q hne => by simpa using hq q hne, keeps_settle (keeps_trans (keeps_fresh _ _) hk),
    regsKeep_settle (regsKeep_trans (regsKeep_fresh _ _) hr)⟩
  rw [testSet, flag, rd_settle]
  exact ht

/-- A write of 1 that is not refused. -/
theorem testWrite_on {m : Mach} {p : Nat} (hm : HostMay m) (hd : m.ctl.st ≠ .dormant) (h : assigned m p = false ∨ m.ctl.st = .configured) :
    testWrite p true m = if (portOf m p).dark then wr m F.SHF_PHY_CTRL_TEST p 1
      else startTraining (wr m F.SHF_PHY_CTRL_TEST p 1) p .detect false := by
  have hn : ¬ (true && assigned m p && m.ctl.st != .configured) = true := by
    rcases h with h | h <;> simp [h]
  rw [testWrite, bar0P_may hm hd, if_neg hn]
  rfl

/-- A write of 0 to a TEST that is set. -/
theorem testWrite_off {m : Mach} {p : Nat} (hm : HostMay m) (hd : m.ctl.st ≠ .dormant) (h : testSet m p = true) :
    testWrite p false m = if (portOf m p).dark then wr m F.SHF_PHY_CTRL_TEST p 0
      else if assigned m p then startTraining (setPort (wr m F.SHF_PHY_CTRL_TEST p 0) p (fun s => { s with saved := false })) p .detect false
      else startTraining (wr m F.SHF_PHY_CTRL_TEST p 0) p .off false := by
  simp only [testWrite, bar0P_may hm hd, h]
  rfl

section Test
variable {s : State} {p : Fin 16} (hm : HostMay s.mach) (hd : s.mach.ctl.st ≠ .dormant)
include hm hd

/-- TEST is refused on a port that the image assigns, outside CONFIGURED (R144). -/
theorem completes_testDenied (ha : assigned s.mach p = true) (hc : s.mach.ctl.st ≠ .configured) : Completes (.testWrite p true) s (fun t =>
    t.out = [.accessDenied] ∧ Keeps [] s.mach t ∧ RegsSame s.mach t) := by
  have ha' : assigned (fresh s.mach) p = true := ha
  refine completes_mono (completes_emit (portOut p (testWrite p true)) .accessDenied rfl (portOut_deny ?_)) fun t ⟨h1, h2, h3⟩ => ⟨h1, h2, h3⟩
  rw [testWrite, bar0P_may (m := fresh s.mach) hm hd, if_pos (by simp [ha', hc])]

theorem completes_testOn (h : assigned s.mach p = false ∨ s.mach.ctl.st = .configured) : Completes (.testWrite p true) s (fun t =>
    testSet t p = true ∧ (portOf t p).phy = (if (portOf s.mach p).dark then (portOf s.mach p).phy else .detect) ∧ t.out = [] ∧
      (∀ q : Fin 16, q ≠ p → portOf t q = portOf s.mach q) ∧ Keeps [.sheaf, .ctl, .align] s.mach t ∧ RegsKeep (testRegs p) s.mach t) := by
  have h' : assigned (fresh s.mach) p = false ∨ (fresh s.mach).ctl.st = .configured := h
  refine completes_testSets ?_
  have hw := testSets_wr (fresh s.mach) p true
  rw [testWrite_on (m := fresh s.mach) hm hd h', portOf_fresh]
  split
  · exact hw
  · exact hw.startTraining false (by decide) (by decide)

/-- TEST cleared: an assigned port trains again, another is off. -/
theorem completes_testOff (h : testSet s.mach p = true) : Completes (.testWrite p false) s (fun t =>
    testSet t p = false ∧ (portOf t p).phy = (if (portOf s.mach p).dark then (portOf s.mach p).phy else if assigned s.mach p then .detect else .off) ∧
      t.out = [] ∧ (∀ q : Fin 16, q ≠ p → portOf t q = portOf s.mach q) ∧ Keeps [.sheaf, .ctl, .align] s.mach t ∧ RegsKeep (testRegs p) s.mach t) := by
  refine completes_testSets ?_
  have hw := testSets_wr (fresh s.mach) p false
  have hp : assigned (fresh s.mach) p = assigned s.mach p := rfl
  rw [testWrite_off (m := fresh s.mach) hm hd h, portOf_fresh, hp]
  split
  · exact hw
  · split
    · exact (hw.setPort fun s => { s with saved := false }).startTraining false (by decide) (by decide)
    · exact hw.startTraining false (by decide) (by decide)

theorem completes_testClear (h : testSet s.mach p = false) : Completes (.testWrite p false) s (fun t =>
    Keeps [] s.mach t ∧ RegsSame s.mach t ∧ t.out = []) := by
  have h' : testSet (fresh s.mach) p = false := h
  refine completes_nothing (portOut p (testWrite p false)) rfl (portOut_eq_self ?_)
  rw [testWrite, bar0P_may (m := fresh s.mach) hm hd, if_neg (by simp), if_neg (by simp), if_pos (by simp [h'])]

end Test

/-! ### The checkers and the injection -/

/-- The checkers' lock bits, as SHF_PAT_CTRL shows them (R142). -/
theorem chkLock_getLsbD (m : Mach) (p : Nat) (cs : List LaneChk) (lane : Fin 4) :
    (BitVec.ofNat 4 (rd (wr m F.SHF_PAT_CTRL_CHK_LOCK p (ofBits (cs.map (fun c => c.locked)))) F.SHF_PAT_CTRL_CHK_LOCK p)).getLsbD lane =
      (cs.getD lane {}).locked := by
  have hl : lane.val < 4 := lane.isLt
  have hd : (cs.map (fun c => c.locked)).getD lane false = (cs.getD lane {}).locked := by
    rw [List.getD_eq_getElem?_getD, List.getD_eq_getElem?_getD, List.getElem?_map]
    cases cs[lane.val]? <;> rfl
  rw [BitVec.getLsbD_ofNat, rd_wr_same _ _ _ _ (by decide), Nat.testBit_mod_two_pow, ofBits_testBit, hd]
  simp [hl, F.SHF_PAT_CTRL_CHK_LOCK]

/-- What the checkers hold once they are set up anew: in TEST each has seeded itself from what its lane received (R142). -/
def seeded (m : Mach) (p : Nat) (rx : List (List Bool)) : List LaneChk := (List.range 4).map (fun l =>
  if (portOf m p).phy = .test then (rx.getD l []).foldl (chkBit (rd m F.SHF_PAT_CTRL_PATTERN p)) {} else {})

theorem checkerEnable_eq {m : Mach} {p : Nat} (hm : HostMay m) (hd : m.ctl.st ≠ .dormant) (rx : List (List Bool)) :
    checkerEnable p rx m = wr (setPort (wr m F.SHF_PAT_CTRL_CHK_EN p 1) p (fun s => { s with checkers := seeded m p rx }))
      F.SHF_PAT_CTRL_CHK_LOCK p (ofBits ((seeded m p rx).map (fun c => c.locked))) := by
  have hpat : rd (wr m F.SHF_PAT_CTRL_CHK_EN p 1) F.SHF_PAT_CTRL_PATTERN p = rd m F.SHF_PAT_CTRL_PATTERN p :=
    rd_wr_other _ _ _ _ _ _ (by decide) rfl rfl (by decide)
  rw [checkerEnable, bar0P_may hm hd]
  simp only [hpat, portOf_wr, beq_iff_eq]
  rfl

theorem completes_checkerEnable {s : State} {p : Fin 16} (hm : HostMay s.mach) (hd : s.mach.ctl.st ≠ .dormant) (rx : List (List Bool)) :
    Completes (.checkerEnable p rx) s (fun t => rd t F.SHF_PAT_CTRL_CHK_EN p = 1 ∧
      portOf t p = { portOf s.mach p with checkers := seeded s.mach p rx } ∧ (∀ q : Fin 16, q ≠ p → portOf t q = portOf s.mach q) ∧ t.out = [] ∧
      (∀ lane : Fin 4, (BitVec.ofNat 4 (rd t F.SHF_PAT_CTRL_CHK_LOCK p)).getLsbD lane = ((seeded s.mach p rx).getD lane {}).locked) ∧
      RegsKeep [F.SHF_PAT_CTRL_CHK_EN.addr p] s.mach t ∧ Keeps [.sheaf] s.mach t) := by
  have hs : seeded (fresh s.mach) p rx = seeded s.mach p rx := rfl
  refine completes_run (checkerEnable p rx) rfl ?_
  rw [checkerEnable_eq (m := fresh s.mach) hm hd, hs]
  refine ⟨?_, ?_, fun q hq => ?_, by simp, fun lane => ?_, ?_, ?_⟩
  · rw [rd_settle, rd_wr_other _ F.SHF_PAT_CTRL_CHK_LOCK F.SHF_PAT_CTRL_CHK_EN _ _ _ (by decide) rfl rfl (by decide), rd_congr (setPort_regs _ _ _),
      rd_wr_same _ _ _ _ (by decide)]
    rfl
  · rw [portOf_settle, portOf_wr, portOf_setPort_same, portOf_wr, portOf_fresh]
  · rw [portOf_settle, portOf_wr, portOf_setPort_ne _ _ (fun e => hq (Fin.ext e)), portOf_wr, portOf_fresh]
  · rw [rd_settle]
    exact chkLock_getLsbD _ _ _ _
  · exact regsKeep_settle (regsKeep_wr _ _ _ (by simp [F.SHF_PAT_CTRL_CHK_EN, F.SHF_PAT_CTRL_CHK_LOCK, Fld.addr])
      (regsKeep_trans (regsKeep_wr _ _ _ (by simp) (regsKeep_fresh _ _)) (regsKeep_of_regs (setPort_regs _ _ _))))
  · exact keeps_settle (keeps_wr _ _ _ (keeps_trans (keeps_wr _ _ _ (keeps_fresh _ _)) (keeps_setPort _ _ _)))

section Inject
variable {s : State} {p : Fin 16} (hm : HostMay s.mach) (hd : s.mach.ctl.st ≠ .dormant)
include hm hd

/-- Live traffic takes no injected symbol below TRACE (R428). -/
theorem completes_injDenied (hx : (portOf s.mach p).phy = .l0) (ht : traceOn s.mach = false) : Completes (.injOne p) s (fun t =>
    t.out = [.accessDenied] ∧ Keeps [] s.mach t ∧ RegsSame s.mach t) := by
  have ht' : traceOn (fresh s.mach) = false := ht
  have hf : injOne p (fresh s.mach) = deny (fresh s.mach) := by simp [injOne, bar0P_may (m := fresh s.mach) hm hd, hx, ht']
  exact completes_mono (completes_emit (injOne p) .accessDenied rfl hf) fun t ⟨h1, h2, h3⟩ => ⟨h1, h2, h3⟩

theorem completes_injWaits (hx : (portOf s.mach p).phy = .l0) (ht : traceOn s.mach = true) : Completes (.injOne p) s (fun t =>
    portOf t p = { portOf s.mach p with injNext := BitVec.ofNat 4 (rd s.mach F.SHF_PAT_CTRL_INJ_LANES p) } ∧
      (∀ q : Fin 16, q ≠ p → portOf t q = portOf s.mach q) ∧ t.out = [] ∧ Keeps [.sheaf] s.mach t ∧ RegsSame s.mach t) := by
  have ht' : traceOn (fresh s.mach) = true := ht
  have hf : injOne p (fresh s.mach) =
      setPort (fresh s.mach) p (fun x => { x with injNext := BitVec.ofNat 4 (rd s.mach F.SHF_PAT_CTRL_INJ_LANES p) }) := by
    simp [injOne, bar0P_may (m := fresh s.mach) hm hd, hx, ht']
  refine completes_run (injOne p) rfl ?_
  rw [hf]
  exact ⟨by simp, fun q hq => by rw [portOf_settle, portOf_setPort_ne _ _ (fun e => hq (Fin.ext e)), portOf_fresh], by simp,
    keeps_settle (keeps_trans (keeps_fresh _ _) (keeps_setPort _ _ _)), by simp [RegsSame]⟩

theorem completes_injPattern (hx : (portOf s.mach p).phy = .test) (hg : flag s.mach F.SHF_PAT_CTRL_GEN_EN p = true) : Completes (.injOne p) s (fun t =>
    t.out = [.patternFlip p (BitVec.ofNat 4 (rd s.mach F.SHF_PAT_CTRL_INJ_LANES p))] ∧ Keeps [] s.mach t ∧ RegsSame s.mach t) := by
  have hf : injOne p (fresh s.mach) = emit (fresh s.mach) (.patternFlip p (BitVec.ofNat 4 (rd s.mach F.SHF_PAT_CTRL_INJ_LANES p))) := by
    simp [injOne, bar0P_may (m := fresh s.mach) hm hd, hx, hg]
  exact completes_mono (completes_emit (injOne p) _ rfl hf) fun t ⟨h1, h2, h3⟩ => ⟨h1, h2, h3⟩

theorem completes_injIgnored (h : ((portOf s.mach p).phy ≠ .l0 ∧ (portOf s.mach p).phy ≠ .test) ∨
    ((portOf s.mach p).phy = .test ∧ flag s.mach F.SHF_PAT_CTRL_GEN_EN p = false)) :
    Completes (.injOne p) s (fun t => Keeps [] s.mach t ∧ RegsSame s.mach t ∧ t.out = []) := by
  refine completes_nothing (injOne p) rfl ?_
  rw [injOne, bar0P_may (m := fresh s.mach) hm hd]
  dsimp only
  rw [portOf_fresh]
  rcases h with ⟨h0, ht⟩ | ⟨ht, hg⟩
  · split
    · next e => exact absurd e h0
    · next e => exact absurd e ht
    · rfl
  · simp [ht, hg]

end Inject

/-! ### A symbol flipped on its way -/

theorem injLanes_waits {m : Mach} {p : Nat} {f : BitVec 256} (h : cameraPort m p = false ∧ f.toNat / 2 ^ 252 < 3) : injLanes m p f = 0 := by
  rw [injLanes, if_pos (by simpa using h)]

theorem injLanes_now {m : Mach} {p : Nat} {f : BitVec 256} (h : ¬ (cameraPort m p = false ∧ f.toNat / 2 ^ 252 < 3)) :
    injLanes m p f = (portOf m p).injNext := by
  rw [injLanes, if_neg (by simpa using h)]

theorem lastSymbols_none : lastSymbols 0 = 0 := by decide

/-- The last symbols lie in the lowest eight bits of a flit, lane 0's uppermost (R146). -/
theorem lastSymbols_getLsbD (lanes : BitVec 4) (i : Fin 256) :
    (lastSymbols lanes).getLsbD i = (decide (i.val < 8) && lanes.getLsbD (3 - i.val / 2)) := by
  have hlow : ∀ lanes : BitVec 4, ∀ i : Fin 8, (lastSymbols lanes).getLsbD i = lanes.getLsbD (3 - i.val / 2) := by decide
  have hsmall : ∀ lanes : BitVec 4, (lastSymbols lanes).toNat < 2 ^ 8 := by decide
  by_cases h : i.val < 8
  · simpa [h] using hlow lanes ⟨i.val, h⟩
  · rw [BitVec.getLsbD, Nat.testBit_lt_two_pow (lt_of_lt_of_le (hsmall lanes) (Nat.pow_le_pow_right (by decide) (by omega)))]
    simp [h]

@[simp] theorem portOf_emit (m : Mach) (o : Output) (p : Nat) : portOf (emit m o) p = portOf m p := rfl

theorem emitFlit_noInjection {m : Mach} {p : Nat} {f : BitVec 256} (h : injLanes m p f = 0) :
    onLanes m p f = f ∧ portOf (emitFlit m p f) p = portOf m p := by
  refine ⟨?_, ?_⟩
  · rw [onLanes, h, lastSymbols_none]
    exact BitVec.xor_zero
  · unfold emitFlit
    rw [if_pos h]
    rfl

theorem emitFlit_injection {m : Mach} {p : Nat} {f : BitVec 256} (h : injLanes m p f = (portOf m p).injNext) :
    (portOf (emitFlit m p f) p).injNext = 0 ∧
      ∀ i : Fin 256, (onLanes m p f).getLsbD i = (f.getLsbD i != (decide (i.val < 8) && (portOf m p).injNext.getLsbD (3 - i.val / 2))) := by
  refine ⟨?_, fun i => ?_⟩
  · unfold emitFlit
    rw [h]
    split
    · assumption
    · dsimp only
      rw [portOf_emit, portOf_setPort_same]
  · rw [onLanes, h, BitVec.getLsbD_xor, lastSymbols_getLsbD, Bool.bne_eq_xor]

/-! ### The write of SHF_PAT_CTRL -/

/-- The register's row: the host's write stores GEN_EN and PATTERN, and the fields above bit 11 (R141 to R143). -/
theorem patCtrl_row (p : Fin 16) : ∃ r, rowOf (F.SHF_PAT_CTRL_PATTERN.addr p) = some r ∧ r.base = 0xB0030 ∧ r.rst = 0 ∧ rwMask r = 0xFFF007 ∧
    accMask r .w1c = 0 := by
  have h : ∀ p : Fin 16, (rowOf (F.SHF_PAT_CTRL_PATTERN.addr p)).any (fun r => r.base == 0xB0030 && r.rst == 0 && rwMask r == 0xFFF007 &&
      accMask r .w1c == 0) = true := by decide +kernel
  obtain ⟨r, hr, hb⟩ := Option.any_eq_true _ _ |>.mp (h p)
  simp only [Bool.and_eq_true, beq_iff_eq] at hb
  obtain ⟨⟨⟨h1, h2⟩, h3⟩, h4⟩ := hb
  exact ⟨r, hr, h1, h2, h3, h4⟩

theorem patCtrl_place (p : Fin 16) : F.SHF_PAT_CTRL_PATTERN.addr p % 4 = 0 ∧ 0x20000 ≤ F.SHF_PAT_CTRL_PATTERN.addr p ∧
    F.SHF_PAT_CTRL_PATTERN.addr p ∉ [0x20004, 0x20008, 0x2000C, 0x20028, 0x2002C] ∧ (F.SHF_PAT_CTRL_PATTERN.addr p - 0xB0000) / 1024 = p.val ∧
    ∀ q ∈ pairs, q.1 ≠ F.SHF_PAT_CTRL_PATTERN.addr p ∧ q.2 ≠ F.SHF_PAT_CTRL_PATTERN.addr p := by
  revert p
  decide

/-- The word that a write of SHF_PAT_CTRL leaves. -/
def patStored (old v : Word) : Word := (old &&& ~~~ 0xFFF007) ||| (v &&& 0xFFF007)

/-- A write of SHF_PAT_CTRL: the host's bits are stored, and with CHK_EN 0 the checkers stop (R141, R142). -/
theorem busWrite_patCtrl {m : Mach} (p : Fin 16) (hm : HostMay m) (hd : m.ctl.st ≠ .dormant) (v : Word) :
    busWrite (F.SHF_PAT_CTRL_PATTERN.addr p) 15 v m =
      let u := patCtrlWrite (word m 0 (F.SHF_PAT_CTRL_PATTERN.addr p)) v
      let t := setWord m 0 (F.SHF_PAT_CTRL_PATTERN.addr p) (patStored (word m 0 (F.SHF_PAT_CTRL_PATTERN.addr p)) u)
      if bits u.toNat 3 1 = 0 then checkersOff t p else t := by
  obtain ⟨r, hr, hb, hrst, hrw, hc⟩ := patCtrl_row p
  obtain ⟨-, hplace, hnot, hport, hpair⟩ := patCtrl_place p
  have hw : shfWrite m r (F.SHF_PAT_CTRL_PATTERN.addr p) v = patCtrlWrite (word m 0 (F.SHF_PAT_CTRL_PATTERN.addr p)) v := by
    unfold shfWrite
    rw [if_neg (by rw [hb]; decide), if_pos hb, hrst]
  simp only [List.mem_cons, List.not_mem_nil, or_false, not_or] at hnot
  obtain ⟨h0, h1, h2, h3, h4⟩ := hnot
  rw [busWrite_register hm (by simp [unpowered, hd]) hr (.inr hplace), if_neg (not_not.mpr hc), if_neg h0, if_neg (by rw [hrw]; decide)]
  unfold storeReg
  dsimp only
  rw [if_neg (by simp [h1, h2]), if_neg (by simp [h3, h4]), any_pair_false hpair, if_neg (by simp), find_pair_none hpair, hw, hrst, hrw, hport]
  simp only [hb, true_and]
  rfl

theorem patStored_pattern (old v : Word) : bits (patStored old v).toNat 0 2 = bits v.toNat 0 2 := by
  refine Nat.eq_of_testBit_eq fun i => ?_
  rw [bits_testBit, bits_testBit]
  by_cases hi : i < 2
  · have h : (0xFFF007#32).getLsbD i = true := by
      interval_cases i <;> rfl
    have hb : (patStored old v).getLsbD i = v.getLsbD i := by
      change (((old &&& ~~~ 0xFFF007#32) ||| (v &&& 0xFFF007#32))).getLsbD i = _
      rw [BitVec.getLsbD_or, BitVec.getLsbD_and, BitVec.getLsbD_and, BitVec.getLsbD_not, h]
      simp
    rw [Nat.zero_add]
    exact congrArg _ hb
  · simp [hi]

theorem patCtrlWrite_keeps {old v : Word} (h : v.toNat % 4 = 3) : bits (patCtrlWrite old v).toNat 0 2 = bits old.toNat 0 2 := by
  have h3 : bits v.toNat 0 2 = 3 := h
  rw [patCtrlWrite, if_pos h3, show bits (putFld v F.SHF_PAT_CTRL_PATTERN (bits old.toNat 0 2)).toNat 0 2 = bits old.toNat 0 2 % 2 ^ 2 from
    bits_putFld_same v F.SHF_PAT_CTRL_PATTERN _ (by decide)]
  exact Nat.mod_mod _ _

theorem patCtrlWrite_chkEn {old v : Word} (h : v.getLsbD 3 = false) : bits (patCtrlWrite old v).toNat 3 1 = 0 := by
  have hv : bits v.toNat 3 1 = 0 := by
    refine Nat.eq_of_testBit_eq fun i => ?_
    rw [bits_testBit, Nat.zero_testBit]
    by_cases hi : i = 0
    · subst hi
      exact (Bool.and_eq_false_iff).mpr (.inr h)
    · simp [show ¬ i < 1 by omega]
  unfold patCtrlWrite
  split
  · exact (bits_putFld_other v F.SHF_PAT_CTRL_PATTERN F.SHF_PAT_CTRL_CHK_EN _ (by decide) (by decide)).trans hv
  · exact hv

theorem rd_checkersOff_pattern (m : Mach) (p : Nat) : rd (checkersOff m p) F.SHF_PAT_CTRL_PATTERN p = rd m F.SHF_PAT_CTRL_PATTERN p := by
  rw [checkersOff, rd_congr (setPort_regs _ _ _), rd_wr_other _ F.SHF_PAT_CTRL_CHK_LOCK F.SHF_PAT_CTRL_PATTERN _ _ _ (by decide) rfl rfl (by decide),
    rd_wr_other _ F.SHF_PAT_CTRL_CHK_EN F.SHF_PAT_CTRL_PATTERN _ _ _ (by decide) rfl rfl (by decide)]

/-- Stopped checkers (R142). -/
theorem checkersOff_off (m : Mach) (p : Nat) : rd (checkersOff m p) F.SHF_PAT_CTRL_CHK_EN p = 0 ∧ rd (checkersOff m p) F.SHF_PAT_CTRL_CHK_LOCK p = 0 ∧
    (portOf (checkersOff m p) p).checkers = [{}, {}, {}, {}] := by
  refine ⟨?_, ?_, ?_⟩
  · rw [checkersOff, rd_congr (setPort_regs _ _ _),
      rd_wr_other _ F.SHF_PAT_CTRL_CHK_LOCK F.SHF_PAT_CTRL_CHK_EN _ _ _ (by decide) rfl rfl (by decide), rd_wr_same _ _ _ _ (by decide)]
    rfl
  · rw [checkersOff, rd_congr (setPort_regs _ _ _), rd_wr_same _ _ _ _ (by decide)]
    rfl
  · rw [checkersOff, portOf_setPort_same]

section Write
variable {s : State} {p : Fin 16} (hm : HostMay s.mach) (hd : s.mach.ctl.st ≠ .dormant)
include hm hd

theorem completes_patternStays {w : Word} (h : w.toNat % 4 = 3) : Completes (.registerWrite (F.SHF_PAT_CTRL_PATTERN.addr p) 15 w) s (fun t =>
    rd t F.SHF_PAT_CTRL_PATTERN p = rd s.mach F.SHF_PAT_CTRL_PATTERN p) := by
  obtain ⟨h4, -⟩ := patCtrl_place p
  refine completes_run _ (exec_registerWrite h4 15 w s) ?_
  rw [rd_settle, busWrite_patCtrl (m := fresh s.mach) p hm hd]
  have hstored (t : Mach) : rd (setWord t 0 (F.SHF_PAT_CTRL_PATTERN.addr p) (patStored (word s.mach 0 (F.SHF_PAT_CTRL_PATTERN.addr p))
      (patCtrlWrite (word s.mach 0 (F.SHF_PAT_CTRL_PATTERN.addr p)) w))) F.SHF_PAT_CTRL_PATTERN p = rd s.mach F.SHF_PAT_CTRL_PATTERN p := by
    unfold rd
    rw [show F.SHF_PAT_CTRL_PATTERN.rst = 0 from rfl, word_setWord_same]
    exact (patStored_pattern _ _).trans (patCtrlWrite_keeps h)
  dsimp only
  split
  · rw [rd_checkersOff_pattern]
    exact hstored _
  · exact hstored _

theorem completes_checkersStop {w : Word} (h : w.getLsbD 3 = false) : Completes (.registerWrite (F.SHF_PAT_CTRL_PATTERN.addr p) 15 w) s (fun t =>
    rd t F.SHF_PAT_CTRL_CHK_EN p = 0 ∧ rd t F.SHF_PAT_CTRL_CHK_LOCK p = 0 ∧ (portOf t p).checkers = [{}, {}, {}, {}]) := by
  obtain ⟨h4, -⟩ := patCtrl_place p
  refine completes_run _ (exec_registerWrite h4 15 w s) ?_
  rw [busWrite_patCtrl (m := fresh s.mach) p hm hd]
  dsimp only
  rw [if_pos (patCtrlWrite_chkEn h), rd_settle, rd_settle, portOf_settle]
  exact checkersOff_off _ _

end Write

/-! ### The window of a pattern -/

theorem rd_incBy_same (m : Mach) (f : Fld) (i n : Nat) (hf : f.fits = true) : rd (incBy m f i n) f i = min (rd m f i + n) (2 ^ f.w - 1) := by
  unfold incBy
  rw [rd_wr_same m f i _ hf]
  unfold sat
  apply Nat.mod_eq_of_lt
  have : 0 < 2 ^ f.w := Nat.two_pow_pos f.w
  omega

@[simp] theorem portOf_incBy (m : Mach) (f : Fld) (i n p : Nat) : portOf (incBy m f i n) p = portOf m p := rfl

/-- What a lane's checker comes to, and the errors it counts (R142). -/
def laneEnd (m : Mach) (p : Nat) (runs : List LaneRun) (l : Nat) : LaneChk × Nat :=
  chkRun (rd m F.SHF_PAT_CTRL_PATTERN p) (if rd m F.SHF_PAT_CTRL_WINDOW p = 0 then 0 else 2 ^ (rd m F.SHF_PAT_CTRL_WINDOW p + 30))
    ((runs.getD l {}).seen.foldl (chkBit (rd m F.SHF_PAT_CTRL_PATTERN p)) ((portOf m p).checkers.getD l {})) 0 (runs.getD l {}).wrong (runs.getD l {}).total

theorem checkLane_eq (p : Nat) (runs : List LaneRun) (m : Mach) (l : Nat) : checkLane p runs m l =
    incBy (setPort m p (fun s => { s with checkers := s.checkers.set l (laneEnd m p runs l).1 })) (patErr l) p (laneEnd m p runs l).2 := rfl

/-- The lanes' error counts. -/
def errRegs (p : Nat) : List Nat := [(patErr 0).addr p, (patErr 1).addr p, (patErr 2).addr p, (patErr 3).addr p]

theorem patErr_mem {l : Nat} (p : Nat) (hl : l < 4) : (patErr l).addr p ∈ errRegs p := by
  interval_cases l <;> simp [errRegs]

theorem patErr_addr (l p : Nat) : (patErr l).addr p = F.SHF_PAT_ERR_0_BIT_ERR.base + 4 * l + 1024 * p := rfl

theorem patCtrl_notErr (p : Nat) : F.SHF_PAT_CTRL_PATTERN.addr p ∉ errRegs p := by
  simp only [errRegs, patErr_addr, List.mem_cons, List.not_mem_nil, or_false, not_or]
  simp only [Fld.addr, F.SHF_PAT_CTRL_PATTERN, F.SHF_PAT_ERR_0_BIT_ERR]
  omega

/-- The lanes below `k` have gone on; the others are as they were. -/
structure LanesRun (p : Fin 16) (runs : List LaneRun) (k : Nat) (m t : Mach) : Prop where
  length : (portOf t p).checkers.length = 4
  checker : ∀ l < 4, (portOf t p).checkers.getD l {} = if l < k then (laneEnd m p runs l).1 else (portOf m p).checkers.getD l {}
  errors : ∀ l < 4, rd t (patErr l) p = if l < k then min (rd m (patErr l) p + (laneEnd m p runs l).2) (2 ^ (patErr l).w - 1) else rd m (patErr l) p
  others : ∀ q : Fin 16, q ≠ p → portOf t q = portOf m q
  out : t.out = m.out
  regs : RegsKeep (errRegs p) m t
  keeps : Keeps [.sheaf] m t

theorem LanesRun.laneEnd {p : Fin 16} {runs : List LaneRun} {k : Nat} {m t : Mach} (h : LanesRun p runs k m t) (hk : k < 4) :
    laneEnd t p runs k = laneEnd m p runs k := by
  have hplace : F.SHF_PAT_CTRL_PATTERN.addr p < 0x11000 ∨ 0x11080 ≤ F.SHF_PAT_CTRL_PATTERN.addr p := by
    obtain ⟨-, hp, -⟩ := patCtrl_place p
    omega
  have hpat := rd_of_regsKeep h.regs F.SHF_PAT_CTRL_PATTERN p (patCtrl_notErr p) hplace
  have hwin := rd_of_regsKeep h.regs F.SHF_PAT_CTRL_WINDOW p (patCtrl_notErr p) hplace
  have hchk := (h.checker k hk).trans (if_neg (Nat.lt_irrefl k))
  rw [Machine.laneEnd, Machine.laneEnd, hpat, hwin, hchk]

/-- One lane more. -/
theorem LanesRun.step {p : Fin 16} {runs : List LaneRun} {k : Nat} {m t : Mach} (h : LanesRun p runs k m t) (hk : k < 4) :
    LanesRun p runs (k + 1) m (checkLane p runs t k) := by
  have he := h.laneEnd hk
  rw [checkLane_eq, he]
  have hport : portOf (incBy (setPort t p (fun s => { s with checkers := s.checkers.set k (Machine.laneEnd m p runs k).1 })) (patErr k) p
      (Machine.laneEnd m p runs k).2) p = { portOf t p with checkers := (portOf t p).checkers.set k (Machine.laneEnd m p runs k).1 } := by
    rw [portOf_incBy, portOf_setPort_same]
  refine ⟨?_, fun l hl => ?_, fun l hl => ?_, fun q hq => ?_, ?_, ?_, ?_⟩
  · rw [hport]
    exact (List.length_set ..).trans h.length
  · rw [hport]
    by_cases hlk : l = k
    · subst hlk
      rw [if_pos (Nat.lt_succ_self l)]
      simp [List.getD_eq_getElem?_getD, h.length, hl]
    · have hset : ((portOf t p).checkers.set k (Machine.laneEnd m p runs k).1).getD l {} = (portOf t p).checkers.getD l {} := by
        rw [List.getD_eq_getElem?_getD, List.getD_eq_getElem?_getD, List.getElem?_set_ne (Ne.symm hlk)]
      rw [hset, h.checker l hl]
      exact if_congr (by omega) rfl rfl
  · by_cases hlk : l = k
    · subst hlk
      rw [rd_incBy_same _ _ _ _ (by rfl), rd_congr (setPort_regs _ _ _), h.errors l hl, if_neg (Nat.lt_irrefl l), if_pos (Nat.lt_succ_self l)]
    · have hne : (patErr l).addr p ≠ (patErr k).addr p := by
        rw [patErr_addr, patErr_addr]
        omega
      rw [incBy, rd_wr_ne _ _ _ _ _ _ hne, rd_congr (setPort_regs _ _ _), h.errors l hl]
      exact if_congr (by omega) rfl rfl
  · rw [portOf_incBy, portOf_setPort_ne _ _ (fun e => hq (Fin.ext e)), h.others q hq]
  · exact (incBy_out _ _ _ _).trans ((setPort_out _ _ _).trans h.out)
  · exact regsKeep_wr _ _ _ (patErr_mem p hk) (regsKeep_trans h.regs (regsKeep_of_regs (setPort_regs _ _ _)))
  · exact keeps_wr _ _ _ (keeps_trans h.keeps (keeps_setPort _ _ _))

/-- The lanes one after the other. -/
theorem lanesRun_forEach (p : Fin 16) (runs : List LaneRun) (m : Mach) (hl : (portOf m p).checkers.length = 4) :
    ∀ k ≤ 4, LanesRun p runs k m (forEach (List.range k) m (checkLane p runs)) := by
  intro k
  induction k with
  | zero => exact fun _ => ⟨hl, fun _ _ => rfl, fun _ _ => rfl, fun _ _ => rfl, rfl, regsKeep_refl _ m, keeps_refl _ m⟩
  | succ k ih =>
    intro hk
    have hs : forEach (List.range (k + 1)) m (checkLane p runs) = checkLane p runs (forEach (List.range k) m (checkLane p runs)) k := by
      rw [List.range_succ, forEach, List.foldl_append]
      rfl
    rw [hs]
    exact (ih (by omega)).step hk

theorem completes_windowIgnored {s : State} {p : Fin 16} {runs : List LaneRun}
    (h : ¬ ((portOf s.mach p).phy = .test ∧ rd s.mach F.SHF_PAT_CTRL_CHK_EN p = 1)) :
    Completes (.patternWindowEnd p runs) s (fun t => Keeps [] s.mach t ∧ RegsSame s.mach t ∧ t.out = []) := by
  refine completes_nothing (patternWindowEnd p runs) rfl ?_
  rw [patternWindowEnd, if_neg (by simpa [flag] using h)]

/-- The window goes on for each lane (R142). -/
theorem completes_windowEnd {s : State} {p : Fin 16} {runs : List LaneRun} (h : (portOf s.mach p).phy = .test ∧ rd s.mach F.SHF_PAT_CTRL_CHK_EN p = 1)
    (hl : (portOf s.mach p).checkers.length = 4) : Completes (.patternWindowEnd p runs) s (fun t =>
      (∀ l : Fin 4, (portOf t p).checkers.getD l {} = (laneEnd s.mach p runs l).1 ∧ Counted (patErr l) p (laneEnd s.mach p runs l).2 s.mach t ∧
        (BitVec.ofNat 4 (rd t F.SHF_PAT_CTRL_CHK_LOCK p)).getLsbD l = (laneEnd s.mach p runs l).1.locked) ∧
      (∀ k : Fin 16, k ≠ p → portOf t k = portOf s.mach k) ∧ t.out = [] ∧
      RegsKeep [(patErr 0).addr p, (patErr 1).addr p, (patErr 2).addr p, (patErr 3).addr p, F.SHF_PAT_CTRL_CHK_EN.addr p] s.mach t ∧
      Keeps [.sheaf] s.mach t) := by
  obtain ⟨t, hf, hr⟩ : ∃ t, patternWindowEnd p runs (fresh s.mach) =
      wr t F.SHF_PAT_CTRL_CHK_LOCK p (ofBits ((portOf t p).checkers.map (fun c => c.locked))) ∧ LanesRun p runs 4 (fresh s.mach) t :=
    ⟨_, by rw [patternWindowEnd, if_pos (by simpa [flag] using h)], lanesRun_forEach p runs (fresh s.mach) hl 4 (le_refl 4)⟩
  have hle (l : Nat) : laneEnd (fresh s.mach) p runs l = laneEnd s.mach p runs l := rfl
  have hc (l : Fin 4) : (portOf t p).checkers.getD l {} = (laneEnd s.mach p runs l).1 := by
    rw [hr.checker l l.isLt, if_pos l.isLt, hle]
  refine completes_run (patternWindowEnd p runs) rfl ?_
  rw [hf]
  refine ⟨fun l => ⟨?_, ?_, ?_⟩, fun k hk => ?_, ?_, ?_, ?_⟩
  · rw [portOf_settle]
    exact hc l
  · have hne : (patErr l).addr p ≠ F.SHF_PAT_CTRL_CHK_LOCK.addr p := by
      rw [patErr_addr]
      simp only [Fld.addr, F.SHF_PAT_CTRL_CHK_LOCK, F.SHF_PAT_ERR_0_BIT_ERR]
      omega
    rw [Counted, rd_settle, rd_wr_ne _ _ _ _ _ _ hne]
    rw [hr.errors l l.isLt, if_pos l.isLt, hle, rd_fresh]
  · rw [rd_settle, chkLock_getLsbD, hc l]
  · rw [portOf_settle]
    exact hr.others k hk
  · rw [settle_out, wr_out]
    exact hr.out
  · refine regsKeep_settle (regsKeep_wr _ _ _ ?_ (regsKeep_trans (regsKeep_fresh _ _) (regsKeep_more hr.regs ?_)))
    · simp [F.SHF_PAT_CTRL_CHK_LOCK, F.SHF_PAT_CTRL_CHK_EN, Fld.addr]
    · simp [errRegs]
  · exact keeps_settle (keeps_wr _ _ _ (keeps_trans (keeps_fresh _ _) hr.keeps))

/-! ### The statement -/

/-- Without the function or the block's power no command of the test acts (R74, R445, R452). -/
theorem completes_testBlocked {s : State} {p : Fin 16} {rx : List (List Bool)} (h : ¬ HostMay s.mach ∨ s.mach.ctl.st = .dormant) :
    ∀ c ∈ [Instr.testWrite p true, Instr.testWrite p false, Instr.checkerEnable p rx, Instr.injOne p],
      Completes c s (fun t => Keeps [] s.mach t ∧ RegsSame s.mach t ∧ t.out = []) := by
  have hb (f : Mach → Mach) : bar0P (fresh s.mach) f = fresh s.mach := bar0P_blocked (m := fresh s.mach) h f
  have ht (on : Bool) := completes_nothing (c := .testWrite p on) (portOut p (testWrite p on)) rfl (portOut_eq_self (hb _))
  simp only [List.forall_mem_cons, List.not_mem_nil, false_imp_iff, implies_true, and_true]
  exact ⟨ht true, ht false, completes_nothing (checkerEnable p rx) rfl (hb _), completes_nothing (injOne p) rfl (hb _)⟩

/-- Settles O34: a lemma above for each command and each case of it. -/
theorem sheafPatternTest : Obligations.SheafPatternTest := by
  unfold Obligations.SheafPatternTest
  refine ⟨fun s p rx => completes_testBlocked, fun s p hm hd => ?_, fun m p f => ?_, fun s p runs => ⟨completes_windowIgnored, completes_windowEnd⟩⟩
  · exact ⟨completes_testDenied hm hd, completes_testOn hm hd, completes_testOff hm hd, completes_testClear hm hd,
      fun rx => completes_checkerEnable hm hd rx, completes_injDenied hm hd, completes_injWaits hm hd, completes_injPattern hm hd,
      completes_injIgnored hm hd, fun w => completes_patternStays hm hd, fun w => completes_checkersStop hm hd⟩
  · refine ⟨fun h => emitFlit_noInjection ?_, fun h => emitFlit_injection (injLanes_now h)⟩
    by_cases hw : cameraPort m p = false ∧ f.toNat / 2 ^ 252 < 3
    · exact injLanes_waits hw
    · exact (injLanes_now hw).trans (h.resolve_left hw)

end Sys2Proof.Machine

/-!
PROOFS. Boards, field inputs and field outputs (O54): the Awn ports' beacons and statuses, boards lost, the outputs' supply and current
limit, the sampled inputs and FIO_DO_SET.
-/

namespace Sys2Proof.Machine

/-! ### Awn ports and their boards -/

@[simp] theorem awnOf_setAwn_same (m : Mach) (p : Nat) (f : AwnPort → AwnPort) : awnOf (setAwn m p f) p = f (awnOf m p) :=
  tget_tmod_same _ _ _ _

theorem awnOf_setAwn_ne (m : Mach) {p q : Nat} (f : AwnPort → AwnPort) (h : q ≠ p) : awnOf (setAwn m p f) q = awnOf m q :=
  tget_tmod_ne _ _ _ h

theorem awnOf_of_ports {m t : Mach} (h : t.eject.ports = m.eject.ports) (p : Nat) : awnOf t p = awnOf m p := by
  unfold awnOf
  rw [h]

@[simp] theorem awnOf_emit (m : Mach) (o : Output) (p : Nat) : awnOf (emit m o) p = awnOf m p := rfl
@[simp] theorem awnOf_inc (m : Mach) (f : Fld) (i p : Nat) : awnOf (inc m f i) p = awnOf m p := rfl
@[simp] theorem awnOf_fresh (m : Mach) (p : Nat) : awnOf (fresh m) p = awnOf m p := rfl
@[simp] theorem awnOf_settle (n m : Mach) (p : Nat) : awnOf (settle n m) p = awnOf m p := awnOf_of_ports (by rw [settle_eject]) p
@[simp] theorem awnOf_raiseAs (m : Mach) (f : Fld) (i n c p : Nat) : awnOf (raiseAs m f i n c) p = awnOf m p :=
  awnOf_of_ports (by rw [raiseAs_eject]) p

theorem keeps_setAwn (m : Mach) (p : Nat) (f : AwnPort → AwnPort) : Keeps [.eject] m (setAwn m p f) := keeps_setEject _ _

/-- A board of a port. -/
def boardOf (m : Mach) (p b : Nat) : Board := tget {} (awnOf m p).boards b

/-- What a CONFIG leaves of a board. -/
def BoardKept (x y : Board) : Prop :=
  y.seen = x.seen ∧ y.missed = x.missed ∧ y.lost = x.lost ∧ y.flags = x.flags ∧ y.nextSeq = x.nextSeq

/-- What sending on a port leaves of it. -/
def PortSent (a x : AwnPort) : Prop :=
  x.inReset = a.inReset ∧ x.polled = a.polled ∧ x.lastPoll = a.lastPoll ∧ ∀ b, BoardKept (tget {} a.boards b) (tget {} x.boards b)

theorem BoardKept.refl (x : Board) : BoardKept x x := ⟨rfl, rfl, rfl, rfl, rfl⟩

theorem BoardKept.trans {x y z : Board} (h : BoardKept x y) (k : BoardKept y z) : BoardKept x z := by
  obtain ⟨h1, h2, h3, h4, h5⟩ := h
  obtain ⟨k1, k2, k3, k4, k5⟩ := k
  exact ⟨k1.trans h1, k2.trans h2, k3.trans h3, k4.trans h4, k5.trans h5⟩

theorem PortSent.refl (a : AwnPort) : PortSent a a := ⟨rfl, rfl, rfl, fun _ => BoardKept.refl _⟩

theorem PortSent.trans {a b c : AwnPort} (h : PortSent a b) (k : PortSent b c) : PortSent a c := by
  obtain ⟨h1, h2, h3, h4⟩ := h
  obtain ⟨k1, k2, k3, k4⟩ := k
  exact ⟨k1.trans h1, k2.trans h2, k3.trans h3, fun b => (h4 b).trans (k4 b)⟩

/-- Frames are sent on one port: the others stay as they are, and of its boards only what CONFIG carries may change. -/
structure AwnSends (p : Nat) (m t : Mach) : Prop where
  others : ∀ q, q ≠ p → awnOf t q = awnOf m q
  port : PortSent (awnOf m p) (awnOf t p)
  fires : t.eject.fires = m.eject.fires
  keeps : Keeps [.eject] m t
  out : ∃ fs : List (List Byte), t.out = m.out ++ fs.map (Output.awn p)

theorem AwnSends.refl (p : Nat) (m : Mach) : AwnSends p m m := ⟨fun _ _ => rfl, PortSent.refl _, rfl, keeps_refl _ m, [], by simp⟩

theorem AwnSends.trans {p : Nat} {a b c : Mach} (h : AwnSends p a b) (k : AwnSends p b c) : AwnSends p a c := by
  obtain ⟨fs, hf⟩ := h.out
  obtain ⟨gs, hg⟩ := k.out
  exact ⟨fun q hq => (k.others q hq).trans (h.others q hq), h.port.trans k.port, k.fires.trans h.fires, keeps_trans h.keeps k.keeps,
    fs ++ gs, by rw [hg, hf, List.map_append, List.append_assoc]⟩

theorem awnSends_setAwn (m : Mach) (p : Nat) (f : AwnPort → AwnPort) (h : PortSent (awnOf m p) (f (awnOf m p))) : AwnSends p m (setAwn m p f) :=
  ⟨fun _ hq => awnOf_setAwn_ne _ _ hq, by rw [awnOf_setAwn_same]; exact h, rfl, keeps_setAwn _ _ _, [], by simp⟩

theorem awnSends_emit (m : Mach) (p : Nat) (fr : List Byte) : AwnSends p m (emit m (.awn p fr)) :=
  ⟨fun _ _ => rfl, PortSent.refl _, rfl, keeps_emit _ _ _, [fr], rfl⟩

theorem awnSends_inc (m : Mach) (p : Nat) (f : Fld) (i : Nat) : AwnSends p m (inc m f i) :=
  ⟨fun _ _ => rfl, PortSent.refl _, rfl, keeps_inc _ _ _ _, [], by simp⟩

theorem AwnSends.mem_out {p : Nat} {m t : Mach} (h : AwnSends p m t) {o : Output} (ho : o ∈ m.out) : o ∈ t.out := by
  obtain ⟨fs, hf⟩ := h.out
  rw [hf]
  exact List.mem_append_left _ ho

theorem awnSends_takeRoom (m : Mach) (p n : Nat) : AwnSends p m (takeRoom m p n) :=
  awnSends_setAwn m p _ ⟨rfl, rfl, rfl, fun _ => BoardKept.refl _⟩

@[simp] theorem takeRoom_regs (m : Mach) (p n : Nat) : (takeRoom m p n).regs = m.regs := setAwn_regs _ _ _

@[simp] theorem boardOf_takeRoom (m : Mach) (p n b : Nat) : boardOf (takeRoom m p n) p b = boardOf m p b := by
  rw [boardOf, takeRoom, awnOf_setAwn_same]
  rfl

/-! ### CONFIG -/

/-- The CONFIG frame of a board's delay (R385). -/
def configFrame (m : Mach) (b delay : Nat) : List Byte :=
  awnFrame ([0x03] ++ leBytes 1 b ++ leBytes 2 delay ++ leBytes 2 m.cfg.valve.maxOnMs)

/-- A board's CONFIG leaves. -/
def configSent (m : Mach) (p b delay : Nat) : Mach :=
  emit (setAwn (takeRoom m p 5) p (fun a => { a with boards := tmod {} a.boards b (fun y => { y with sentNs := some delay, configDue := none }) }))
    (.awn p (configFrame m b delay))

/-- The first board whose CONFIG waits, with its delay. -/
def firstDue (m : Mach) (p : Nat) : Option (Nat × Nat) :=
  (List.range 8).findSome? (fun b => (boardOf m p b).configDue.map (fun d => (b, d)))

theorem sendConfig_eq (m : Mach) (p : Nat) :
    sendConfig m p = match firstDue m p with | none => m | some x => if !configRoom m p then m else configSent m p x.1 x.2 := rfl

/-- A CONFIG leaves or none does. -/
theorem sendConfig_cases (m : Mach) (p : Nat) : sendConfig m p = m ∨ ∃ b d, sendConfig m p = configSent m p b d := by
  rw [sendConfig_eq]
  split
  · exact .inl rfl
  · next x _ =>
    split
    · exact .inl rfl
    · exact .inr ⟨x.1, x.2, rfl⟩

theorem sendConfig_full {m : Mach} {p : Nat} (h : configRoom m p = false) : sendConfig m p = m := by
  rw [sendConfig_eq]
  split
  · rfl
  · simp [h]

theorem firstDue_of {m : Mach} {p b d : Nat} (hb : b < 8) (hd : (boardOf m p b).configDue = some d) (hn : ∀ k < b, (boardOf m p k).configDue = none) :
    firstDue m p = some (b, d) := by
  have hsplit : List.range 8 = List.range b ++ (List.range (8 - b)).map (b + ·) := by
    rw [← List.range_add, show b + (8 - b) = 8 by omega]
  have h0 : (List.range b).findSome? (fun b => (boardOf m p b).configDue.map (fun d => (b, d))) = none := by
    rw [List.findSome?_eq_none_iff]
    intro k hk
    simp [hn k (List.mem_range.mp hk)]
  obtain ⟨n, hn8⟩ : ∃ n, 8 - b = n + 1 := ⟨7 - b, by omega⟩
  rw [firstDue, hsplit, List.findSome?_append, h0, hn8, List.range_succ_eq_map]
  simp [hd]

theorem sendConfig_first {m : Mach} {p b d : Nat} (hb : b < 8) (hd : (boardOf m p b).configDue = some d) (hn : ∀ k < b, (boardOf m p k).configDue = none)
    (hr : configRoom m p = true) : sendConfig m p = configSent m p b d := by
  rw [sendConfig_eq, firstDue_of hb hd hn]
  simp [hr]

/-- A change of one board that keeps what the others' STATUS said keeps it of all. -/
theorem boardKept_tmod (bs : Tab Board) (b : Nat) (f : Board → Board) (h : ∀ x, BoardKept x (f x)) (k : Nat) :
    BoardKept (tget {} bs k) (tget {} (tmod {} bs b f) k) := by
  by_cases hk : k = b
  · subst hk
    rw [tget_tmod_same]
    exact h _
  · rw [tget_tmod_ne _ _ _ hk]
    exact BoardKept.refl _

theorem awnSends_configSent (m : Mach) (p b d : Nat) : AwnSends p m (configSent m p b d) := by
  refine ((awnSends_takeRoom m p 5).trans (awnSends_setAwn _ p _ ⟨rfl, rfl, rfl, ?_⟩)).trans (awnSends_emit _ p _)
  exact boardKept_tmod _ b (fun y => { y with sentNs := some d, configDue := none }) fun _ => ⟨rfl, rfl, rfl, rfl, rfl⟩

theorem awnSends_sendConfig (m : Mach) (p : Nat) : AwnSends p m (sendConfig m p) := by
  obtain h | ⟨b, d, h⟩ := sendConfig_cases m p <;> rw [h]
  · exact AwnSends.refl p m
  · exact awnSends_configSent m p b d

@[simp] theorem sendConfig_regs (m : Mach) (p : Nat) : (sendConfig m p).regs = m.regs := by
  obtain h | ⟨b, d, h⟩ := sendConfig_cases m p <;> rw [h]
  rfl

theorem boardOf_configSent (m : Mach) (p b d : Nat) : boardOf (configSent m p b d) p b = { boardOf m p b with sentNs := some d, configDue := none } := by
  have h : awnOf (configSent m p b d) p = { awnOf (takeRoom m p 5) p with
      boards := tmod {} (awnOf (takeRoom m p 5) p).boards b (fun y => { y with sentNs := some d, configDue := none }) } := by
    rw [configSent, awnOf_emit, awnOf_setAwn_same]
  rw [boardOf, h]
  dsimp only
  rw [tget_tmod_same]
  change { boardOf (takeRoom m p 5) p b with sentNs := some d, configDue := none } = _
  rw [boardOf_takeRoom]

/-! ### Beacons -/

/-- A poll that was not answered counts (R385). -/
def pollMissed (m : Mach) (p : Nat) : Mach :=
  if (awnOf m p).polled then
    inc (setAwn m p (fun a => { a with boards := tmod {} a.boards a.lastPoll (fun b => { b with missed := b.missed + 1 }) }))
      F.EJC_AWN_CNT_MISSED_POLLS p
  else m

/-- The beacon's frame: the time, and the board polled (R384). -/
def beaconFrame (t : LTime) (next : Option Nat) : List Byte :=
  awnFrame ([0x01] ++ leBytes 4 (awnTime (fine (beaconTime t))) ++ leBytes 1 ((next.map (· + 8)).getD 0))

/-- A poll's code in the beacon. -/
def pollCode (next : Option Nat) : Nat := match next with | some b => b + 8 | none => 0

theorem pollCode_eq (next : Option Nat) : pollCode next = (next.map (· + 8)).getD 0 := by cases next <;> rfl

/-- The board that a port polls next. -/
def nextPoll (m : Mach) (p : Nat) : Option Nat := nextBoard (boardMask m p) (awnOf m p).lastPoll

/-- The port with its beacon out, before a CONFIG that waits. -/
def polling (m : Mach) (p : Nat) : Mach :=
  emit (setAwn (pollMissed m p) p (fun a => { a with polled := (nextPoll m p).isSome, lastPoll := (nextPoll m p).getD a.lastPoll }))
    (.awn p (beaconFrame m.time.now (nextPoll m p)))

@[simp] theorem pollMissed_cfg (m : Mach) (p : Nat) : (pollMissed m p).cfg = m.cfg := by
  unfold pollMissed
  split <;> rfl

@[simp] theorem pollMissed_time (m : Mach) (p : Nat) : (pollMissed m p).time = m.time := by
  unfold pollMissed
  split <;> rfl

theorem beaconPort_frames {m : Mach} {p : Nat} (h : dnDrive m p = .frames) : beaconPort m p = sendConfig (polling m p) p := by
  have hnext : nextBoard (boardMask (pollMissed m p) p) (awnOf m p).lastPoll = nextPoll m p := by simp [nextPoll, boardMask]
  have h1 : beaconPort m p = sendConfig (emit (setAwn (pollMissed m p) p (fun a => { a with
        polled := (nextBoard (boardMask (pollMissed m p) p) (awnOf m p).lastPoll).isSome,
        lastPoll := (nextBoard (boardMask (pollMissed m p) p) (awnOf m p).lastPoll).getD a.lastPoll }))
      (.awn p (awnFrame ([0x01] ++ leBytes 4 (awnTime (fine (beaconTime (pollMissed m p).time.now))) ++
        leBytes 1 (pollCode (nextBoard (boardMask (pollMissed m p) p) (awnOf m p).lastPoll)))))) p := by
    unfold beaconPort
    dsimp only
    rw [if_neg (not_not.mpr h)]
    rfl
  rw [h1, hnext, pollMissed_time, pollCode_eq]
  rfl

theorem beaconPort_silent {m : Mach} {p : Nat} (h : dnDrive m p ≠ .frames) : beaconPort m p = m := by
  unfold beaconPort
  exact if_pos h

/-- A beacon leaves the other ports and their counters as they are, and sends on its own port only. -/
structure PortApart (p : Nat) (m t : Mach) : Prop where
  awn : awnOf t p = awnOf m p
  missed : rd t F.EJC_AWN_CNT_MISSED_POLLS p = rd m F.EJC_AWN_CNT_MISSED_POLLS p
  sent : ∀ fr, .awn p fr ∈ t.out ↔ .awn p fr ∈ m.out
  ctl : t.ctl = m.ctl
  cfg : t.cfg = m.cfg
  time : t.time = m.time

theorem PortApart.refl (p : Nat) (m : Mach) : PortApart p m m := ⟨rfl, rfl, fun _ => Iff.rfl, rfl, rfl, rfl⟩

theorem PortApart.trans {p : Nat} {a b c : Mach} (h : PortApart p a b) (k : PortApart p b c) : PortApart p a c :=
  ⟨k.awn.trans h.awn, k.missed.trans h.missed, fun fr => (k.sent fr).trans (h.sent fr), k.ctl.trans h.ctl, k.cfg.trans h.cfg, k.time.trans h.time⟩

/-- The port's drivers are at the same. -/
theorem PortApart.dnDrive {p : Nat} {m t : Mach} (h : PortApart p m t) : dnDrive t p = dnDrive m p := by
  unfold Machine.dnDrive pipelineOn
  rw [h.awn, h.ctl]

theorem PortApart.nextPoll {p : Nat} {m t : Mach} (h : PortApart p m t) : nextPoll t p = nextPoll m p := by
  unfold Machine.nextPoll boardMask
  rw [h.awn, h.cfg]

/-- A relation that each step keeps holds between the ends. -/
theorem forEach_rel {α : Type} {R : Mach → Mach → Prop} (hr : ∀ m, R m m) (ht : ∀ a b c, R a b → R b c → R a c) (f : Mach → α → Mach) :
    ∀ (xs : List α) (m : Mach), (∀ x ∈ xs, ∀ m, R m (f m x)) → R m (forEach xs m f)
  | [], m, _ => hr m
  | x :: xs, m, h => ht _ _ _ (h x (List.mem_cons_self ..) m) (forEach_rel hr ht f xs (f m x) fun y hy => h y (List.mem_cons_of_mem _ hy))

theorem keeps_pollMissed (m : Mach) (p : Nat) : Keeps [.eject] m (pollMissed m p) := by
  unfold pollMissed
  split
  · exact keeps_trans (keeps_setAwn _ _ _) (keeps_inc _ _ _ _)
  · exact keeps_refl _ m

theorem pollMissed_lastPoll (m : Mach) (p : Nat) : (awnOf (pollMissed m p) p).lastPoll = (awnOf m p).lastPoll := by
  unfold pollMissed
  split
  · rw [awnOf_inc, awnOf_setAwn_same]
  · rfl

theorem pollMissed_out (m : Mach) (p : Nat) : (pollMissed m p).out = m.out := by
  unfold pollMissed
  split <;> simp

theorem awnOf_pollMissed_ne (m : Mach) {p q : Nat} (h : q ≠ p) : awnOf (pollMissed m p) q = awnOf m q := by
  unfold pollMissed
  split
  · rw [awnOf_inc, awnOf_setAwn_ne _ _ h]
  · rfl

/-- The counters of different ports stand apart. -/
theorem missedPolls_apart {p q : Nat} (h : q ≠ p) : F.EJC_AWN_CNT_MISSED_POLLS.addr q ≠ F.EJC_AWN_CNT_MISSED_POLLS.addr p := by
  simp only [Fld.addr, F.EJC_AWN_CNT_MISSED_POLLS]
  omega

theorem rd_pollMissed_ne (m : Mach) {p q : Nat} (h : q ≠ p) :
    rd (pollMissed m p) F.EJC_AWN_CNT_MISSED_POLLS q = rd m F.EJC_AWN_CNT_MISSED_POLLS q := by
  unfold pollMissed
  split
  · rw [rd_inc_ne _ _ _ _ _ (missedPolls_apart h), rd_congr (setAwn_regs _ _ _)]
  · rfl

theorem polling_out (m : Mach) (p : Nat) : (polling m p).out = m.out ++ [.awn p (beaconFrame m.time.now (nextPoll m p))] := by
  rw [polling, emit_out, setAwn_out, pollMissed_out]

theorem keeps_polling (m : Mach) (p : Nat) : Keeps [.eject] m (polling m p) :=
  keeps_trans (keeps_trans (keeps_pollMissed m p) (keeps_setAwn _ _ _)) (keeps_emit _ _ _)

theorem keeps_beaconPort (m : Mach) (p : Nat) : Keeps [.eject] m (beaconPort m p) := by
  by_cases h : dnDrive m p = .frames
  · rw [beaconPort_frames h]
    exact keeps_trans (keeps_polling m p) (awnSends_sendConfig _ p).keeps
  · rw [beaconPort_silent h]
    exact keeps_refl _ m

theorem portApart_beaconPort (m : Mach) {p q : Nat} (hne : p ≠ q) : PortApart p m (beaconPort m q) := by
  by_cases h : dnDrive m q = .frames
  · rw [beaconPort_frames h]
    have hs := awnSends_sendConfig (polling m q) q
    have hk := keeps_trans (keeps_polling m q) hs.keeps
    obtain ⟨fs, hf⟩ := hs.out
    refine ⟨?_, ?_, fun fr => ?_, hk .ctl (by simp), hk .cfg (by simp), hk .time (by simp)⟩
    · rw [hs.others p hne, polling, awnOf_emit, awnOf_setAwn_ne _ _ hne, awnOf_pollMissed_ne _ hne]
    · rw [rd_congr (sendConfig_regs _ _), polling, rd_congr (emit_regs _ _), rd_congr (setAwn_regs _ _ _), rd_pollMissed_ne _ hne]
    · rw [hf, polling_out]
      have hq : ∀ x, Output.awn q x ≠ Output.awn p fr := fun x e => hne (by injection e with e1 e2; exact e1.symm)
      simp [Ne.symm (hq _), hq]
  · rw [beaconPort_silent h]
    exact PortApart.refl p m

/-- What the beacon of a port that sends frames leaves of it (R384, R385). -/
theorem beaconPort_own {m : Mach} {p : Nat} (h : dnDrive m p = .frames) :
    (awnOf (beaconPort m p) p).polled = (nextPoll m p).isSome ∧ (awnOf (beaconPort m p) p).lastPoll = (nextPoll m p).getD (awnOf m p).lastPoll ∧
      .awn p (beaconFrame m.time.now (nextPoll m p)) ∈ (beaconPort m p).out ∧
      ((awnOf m p).polled = true → Counted F.EJC_AWN_CNT_MISSED_POLLS p 1 m (beaconPort m p) ∧
        (boardOf (beaconPort m p) p (awnOf m p).lastPoll).missed = (boardOf m p (awnOf m p).lastPoll).missed + 1) := by
  have hs := awnSends_sendConfig (polling m p) p
  have ha : awnOf (polling m p) p = { awnOf (pollMissed m p) p with
      polled := (nextPoll m p).isSome, lastPoll := (nextPoll m p).getD (awnOf m p).lastPoll } := by
    rw [polling, awnOf_emit, awnOf_setAwn_same, pollMissed_lastPoll]
  obtain ⟨-, hpolled, hlast, hboards⟩ := hs.port
  rw [beaconPort_frames h]
  refine ⟨by rw [hpolled, ha], by rw [hlast, ha], hs.mem_out (by rw [polling_out]; simp), fun hp => ⟨?_, ?_⟩⟩
  · rw [Counted, rd_congr (sendConfig_regs _ _), polling, rd_congr (emit_regs _ _), rd_congr (setAwn_regs _ _ _), pollMissed, if_pos hp,
      rd_inc_same _ _ _ (by decide), rd_congr (setAwn_regs _ _ _)]
  · obtain ⟨-, hmissed, -⟩ := hboards (awnOf m p).lastPoll
    rw [boardOf, hmissed, ha, pollMissed, if_pos hp, awnOf_inc, awnOf_setAwn_same]
    dsimp only
    rw [tget_tmod_same]
    rfl

/-- The beacons of the eight ports, seen from one of them: its own, with the others' before and after. -/
theorem beacons_split (m : Mach) (p : Fin 8) : ∃ m', PortApart p m m' ∧ PortApart p (beaconPort m' p) (forEach (List.range 8) m beaconPort) := by
  have hsplit : List.range 8 = List.range p ++ p.val :: (List.range (7 - p)).map (p.val + 1 + ·) := by
    revert p
    decide
  have hr := PortApart.refl p.val
  have ht : ∀ a b c, PortApart p.val a b → PortApart p.val b c → PortApart p.val a c := fun _ _ _ => PortApart.trans
  refine ⟨forEach (List.range p) m beaconPort, forEach_rel hr ht _ _ _ fun q hq n => portApart_beaconPort n ?_, ?_⟩
  · have := List.mem_range.mp hq
    omega
  · have hf : forEach (List.range 8) m beaconPort =
        forEach ((List.range (7 - p)).map (p.val + 1 + ·)) (beaconPort (forEach (List.range p) m beaconPort) p) beaconPort := by
      unfold forEach
      rw [hsplit, List.foldl_append]
      rfl
    rw [hf]
    refine forEach_rel hr ht beaconPort _ _ fun q hq n => portApart_beaconPort n ?_
    obtain ⟨k, -, hk⟩ := List.mem_map.mp hq
    omega

/-- The machine with the beacons of this time noted. -/
def beaconNoted (m : Mach) : Mach := setEject m (fun e => { e with beaconAt := some (beaconTime m.time.now) })

theorem beacon_due {m : Mach} (h : m.eject.beaconAt ≠ some (beaconTime m.time.now)) : beacon m = forEach (List.range 8) (beaconNoted m) beaconPort := by
  unfold beacon
  dsimp only
  rw [if_neg h]
  rfl

theorem beaconPort_beaconAt (m : Mach) (p : Nat) : (beaconPort m p).eject.beaconAt = m.eject.beaconAt := by
  have hp : (pollMissed m p).eject.beaconAt = m.eject.beaconAt := by
    unfold pollMissed
    split <;> rfl
  by_cases h : dnDrive m p = .frames
  · rw [beaconPort_frames h]
    obtain hc | ⟨b, d, hc⟩ := sendConfig_cases (polling m p) p <;> rw [hc] <;> exact hp
  · rw [beaconPort_silent h]

theorem beacons_beaconAt (m : Mach) : (forEach (List.range 8) m beaconPort).eject.beaconAt = m.eject.beaconAt :=
  forEach_rel (R := fun m t => t.eject.beaconAt = m.eject.beaconAt) (fun _ => rfl) (fun _ _ _ h k => k.trans h) _ _ _ fun p _ n => beaconPort_beaconAt n p

/-- With no port sending frames no beacon leaves. -/
theorem beacons_silent (m : Mach) (h : m.ctl.powerGood = false ∨ pipelineOn m = false) : forEach (List.range 8) m beaconPort = m := by
  have hd (p : Nat) : dnDrive m p ≠ .frames := by
    unfold dnDrive
    rcases h with h | h <;> simp [h]
    split <;> simp
  have hs (xs : List Nat) : forEach xs m beaconPort = m := by
    unfold forEach
    induction xs with
    | nil => rfl
    | cons x xs ih => rw [List.foldl_cons, beaconPort_silent (hd x), ih]
  exact hs _

theorem completes_beaconAgain (s : State) (h : s.mach.eject.beaconAt = some (beaconTime s.mach.time.now)) :
    Completes .beacon s (fun t => Keeps [] s.mach t ∧ RegsSame s.mach t ∧ t.out = []) := by
  have h' : (fresh s.mach).eject.beaconAt = some (beaconTime (fresh s.mach).time.now) := h
  exact completes_nothing beacon rfl (if_pos h')

/-- The beacons of a new multiple of 10 µs (R384, R385). -/
theorem completes_beacon (s : State) (h : s.mach.eject.beaconAt ≠ some (beaconTime s.mach.time.now)) : Completes .beacon s (fun t =>
    t.eject.beaconAt = some (beaconTime s.mach.time.now) ∧ Keeps [.eject] s.mach t ∧
      (s.mach.ctl.powerGood = false ∨ pipelineOn s.mach = false → t.out = [] ∧ RegsSame s.mach t) ∧ ∀ p : Fin 8,
      (dnDrive s.mach p ≠ .frames → awnOf t p = awnOf s.mach p ∧ ∀ fr, .awn p fr ∉ t.out) ∧
      (dnDrive s.mach p = .frames → (awnOf t p).polled = (nextPoll s.mach p).isSome ∧
        (awnOf t p).lastPoll = (nextPoll s.mach p).getD (awnOf s.mach p).lastPoll ∧
        .awn p (beaconFrame s.mach.time.now (nextPoll s.mach p)) ∈ t.out ∧
        ((awnOf s.mach p).polled = true → Counted F.EJC_AWN_CNT_MISSED_POLLS p 1 s.mach t ∧
          (boardOf t p (awnOf s.mach p).lastPoll).missed = (boardOf s.mach p (awnOf s.mach p).lastPoll).missed + 1))) := by
  have h' : (fresh s.mach).eject.beaconAt ≠ some (beaconTime (fresh s.mach).time.now) := h
  refine completes_run beacon rfl ?_
  rw [beacon_due h']
  have hoff := beacons_silent (beaconNoted (fresh s.mach))
  have hat := beacons_beaconAt (beaconNoted (fresh s.mach))
  have hk : Keeps [.eject] s.mach (forEach (List.range 8) (beaconNoted (fresh s.mach)) beaconPort) :=
    keeps_trans (keeps_trans (keeps_fresh _ _) (keeps_setEject _ _)) (keeps_forEach _ _ _ keeps_beaconPort)
  have hports (p : Fin 8) : ∃ m', PortApart p (fresh s.mach) m' ∧
      PortApart p (beaconPort m' p) (forEach (List.range 8) (beaconNoted (fresh s.mach)) beaconPort) := by
    have hn : PortApart p (fresh s.mach) (beaconNoted (fresh s.mach)) := ⟨rfl, rfl, fun _ => Iff.rfl, rfl, rfl, rfl⟩
    obtain ⟨m', hb, ha⟩ := beacons_split (beaconNoted (fresh s.mach)) p
    exact ⟨m', hn.trans hb, ha⟩
  generalize forEach (List.range 8) (beaconNoted (fresh s.mach)) beaconPort = t at hoff hat hk hports ⊢
  refine ⟨?_, keeps_settle hk, fun h => ?_, fun p => ?_⟩
  · rw [settle_eject]
    exact hat
  · rw [hoff h]
    exact ⟨by simp [beaconNoted], by simp [RegsSame, beaconNoted]⟩
  · obtain ⟨m', hb, ha⟩ := hports p
    have hd : dnDrive m' p = dnDrive s.mach p := hb.dnDrive
    have hawn : awnOf m' p = awnOf s.mach p := hb.awn
    have hnext : nextPoll m' p = nextPoll s.mach p := hb.nextPoll
    have htime : m'.time.now = s.mach.time.now := congrArg TimeBase.now hb.time
    have hmiss : rd m' F.EJC_AWN_CNT_MISSED_POLLS p = rd s.mach F.EJC_AWN_CNT_MISSED_POLLS p := hb.missed
    refine ⟨fun hn => ?_, fun hf => ?_⟩
    · rw [beaconPort_silent (hd ▸ hn)] at ha
      refine ⟨by rw [awnOf_settle, ha.awn, hawn], fun fr hin => ?_⟩
      rw [settle_out, ha.sent, hb.sent] at hin
      exact List.not_mem_nil hin
    · have hown := beaconPort_own (hd.trans hf)
      rw [hawn, hnext, htime] at hown
      obtain ⟨h1, h2, h3, h4⟩ := hown
      refine ⟨by rw [awnOf_settle, ha.awn, h1], by rw [awnOf_settle, ha.awn, h2], ?_, fun hp => ?_⟩
      · rw [settle_out, ha.sent]
        exact h3
      · obtain ⟨hc, hmissed⟩ := h4 hp
        refine ⟨?_, ?_⟩
        · rw [Counted, rd_settle, ha.missed, hc, hmiss]
        · rw [boardOf, awnOf_settle, ha.awn]
          exact hmissed.trans (by rw [boardOf, hawn]; rfl)

/-! ### STATUS frames -/

/-- A STATUS frame that counts: its length, TYPE, CRC and board are right (R385). -/
def StatusOk (m : Mach) (p : Nat) (frame : List Byte) : Prop :=
  frame.length = 10 ∧ leAt frame 0 1 = 0x81 ∧ leAt frame 8 2 = crc16 0x1021 0xFFFF (frame.take 8) ∧ fitted m p (leAt frame 1 1) = true

/-- A board that has answered (R385). -/
def answeredBoard (flags seq : Nat) (x : Board) : Board :=
  { x with seen := true, missed := 0, lost := false, flags := flags, nextSeq := BitVec.ofNat 8 seq }

/-- The answer noted at its port (R385). -/
def answered (m : Mach) (p b flags seq : Nat) : Mach := setAwn m p (fun a => { a with
  polled := if a.lastPoll = b then false else a.polled,
  boards := tmod {} a.boards b (answeredBoard flags seq) })

/-- The board's number in a STATUS frame, its FLAGS, its NEXT_SEQ. -/
def statusBoard (frame : List Byte) : Nat := leAt frame 1 1
def statusFlags (frame : List Byte) : Nat := leAt frame 2 1
def statusSeq (frame : List Byte) : Nat := leAt frame 3 1

/-- The machine with the board's answer and its CONFIG, before the events. -/
def answeredConfig (m : Mach) (p : Nat) (frame : List Byte) (rt : Nat) : Mach :=
  configBoard (answered m p (statusBoard frame) (statusFlags frame) (statusSeq frame)) p (statusBoard frame) ((rt - 1000) / 2)

/-- BOARD_FAULT where the STATUS shows a fault. -/
def faultRaised (m : Mach) (frame : List Byte) : Mach := raiseIf (decide (statusFlags frame % 32 ≠ 0)) m F.EJC_EVENT_BOARD_FAULT 0

theorem awnStatus_ok {m : Mach} {p : Nat} {frame : List Byte} (rt : Nat) (hd : dnDrive m p = .frames) (h : StatusOk m p frame) :
    awnStatus p frame rt m = resend (learn (faultRaised (answeredConfig m p frame rt) frame) (p * 256 + leAt frame 4 1) (leAt frame 5 3))
      p (statusBoard frame) := by
  obtain ⟨hlen, htype, hcrc, hfit⟩ := h
  unfold awnStatus
  dsimp only
  rw [if_neg (not_not.mpr hd), if_neg (by simp [hlen, htype, hcrc, hfit])]
  rfl

theorem awnStatus_bad {m : Mach} {p : Nat} {frame : List Byte} (rt : Nat) (hd : dnDrive m p = .frames) (h : ¬ StatusOk m p frame) :
    awnStatus p frame rt m = inc m F.EJC_AWN_CNT_CRC_ERR p := by
  unfold awnStatus
  dsimp only
  rw [if_neg (not_not.mpr hd), if_pos]
  simp only [StatusOk] at h
  simp only [Bool.or_eq_true, decide_eq_true_eq, Bool.not_eq_true', ne_eq]
  by_contra hn
  simp only [not_or, not_not, Bool.not_eq_false] at hn
  obtain ⟨⟨⟨h1, h2⟩, h3⟩, h4⟩ := hn
  exact h ⟨h1, h2, h3, h4⟩

/-! What the parts of a STATUS leave. -/

/-- A CONFIG that becomes due. -/
def configDue (m : Mach) (p b delay : Nat) : Mach :=
  setAwn m p (fun a => { a with boards := tmod {} a.boards b (fun x => { x with configDue := some delay }) })

theorem awnSends_configDue (m : Mach) (p b d : Nat) : AwnSends p m (configDue m p b d) := by
  refine awnSends_setAwn m p _ ⟨rfl, rfl, rfl, ?_⟩
  exact boardKept_tmod _ b (fun x => { x with configDue := some d }) fun _ => ⟨rfl, rfl, rfl, rfl, rfl⟩

theorem configBoard_eq (m : Mach) (p b d : Nat) : configBoard m p b d = m ∨ configBoard m p b d = sendConfig (configDue m p b d) p := by
  have hi (c : Bool) : (if c then sendConfig (configDue m p b d) p else m) = m ∨ (if c then sendConfig (configDue m p b d) p else m) =
      sendConfig (configDue m p b d) p := by cases c <;> simp
  exact hi _

/-- A board that was sent no CONFIG yet is due one (R385). -/
theorem configBoard_first {m : Mach} {p b : Nat} (d : Nat) (h : (boardOf m p b).sentNs = none) :
    configBoard m p b d = sendConfig (configDue m p b d) p := by
  unfold boardOf at h
  unfold configBoard
  dsimp only
  rw [h, if_pos rfl]
  rfl

theorem awnSends_configBoard (m : Mach) (p b d : Nat) : AwnSends p m (configBoard m p b d) := by
  obtain h | h := configBoard_eq m p b d <;> rw [h]
  · exact AwnSends.refl p m
  · exact (awnSends_configDue m p b d).trans (awnSends_sendConfig _ p)

theorem boardOf_configDue (m : Mach) (p b d : Nat) : boardOf (configDue m p b d) p b = { boardOf m p b with configDue := some d } := by
  rw [boardOf, configDue, awnOf_setAwn_same]
  dsimp only
  rw [tget_tmod_same]
  rfl

theorem boardOf_configDue_ne (m : Mach) (p : Nat) {b k : Nat} (d : Nat) (h : k ≠ b) : boardOf (configDue m p b d) p k = boardOf m p k := by
  rw [boardOf, configDue, awnOf_setAwn_same]
  dsimp only
  rw [tget_tmod_ne _ _ _ h]
  rfl

theorem boardOf_answered (m : Mach) (p b fl q : Nat) : boardOf (answered m p b fl q) p b =
    answeredBoard fl q (boardOf m p b) := by
  rw [boardOf, answered, awnOf_setAwn_same]
  dsimp only
  rw [tget_tmod_same]
  rfl

theorem boardOf_answered_ne (m : Mach) (p : Nat) {b k : Nat} (fl q : Nat) (h : k ≠ b) : boardOf (answered m p b fl q) p k = boardOf m p k := by
  rw [boardOf, answered, awnOf_setAwn_same]
  dsimp only
  rw [tget_tmod_ne _ _ _ h]
  rfl

/-- Room for a CONFIG is the port's slot and entries, and the time. -/
theorem configRoom_congr {m t : Mach} {p : Nat} (hs : (awnOf t p).slot = (awnOf m p).slot) (he : (awnOf t p).entries = (awnOf m p).entries)
    (ht : t.time = m.time) : configRoom t p = configRoom m p := by
  unfold configRoom
  rw [hs, he, ht]

theorem configRoom_due (m : Mach) (p b d fl q : Nat) : configRoom (configDue (answered m p b fl q) p b d) p = configRoom m p :=
  configRoom_congr (by simp [configDue, answered]) (by simp [configDue, answered]) rfl

/-- What an OPEN report may change (R389): L_ON, and the outlier's event and count. -/
structure Learned (m t : Mach) : Prop where
  ports : t.eject.ports = m.eject.ports
  fires : t.eject.fires = m.eject.fires
  fault : rd t F.EJC_EVENT_BOARD_FAULT 0 = rd m F.EJC_EVENT_BOARD_FAULT 0
  keeps : Keeps [.eject, .host] m t
  out : ∀ o ∈ m.out, o ∈ t.out

theorem mem_raiseAs_out {m : Mach} {o : Output} (f : Fld) (i n c : Nat) (h : o ∈ m.out) : o ∈ (raiseAs m f i n c).out := by
  unfold raiseAs
  split
  · exact h
  · unfold sendVector
    split
    · exact h
    · exact List.mem_append_left _ h

theorem learned_learn (m : Mach) (v o : Nat) : Learned m (learn m v o) := by
  unfold learn
  extract_lets c x l n
  split
  · exact ⟨rfl, rfl, rfl, keeps_refl _ m, fun _ => id⟩
  · split
    · exact ⟨rfl, rfl, rfl, keeps_mono (keeps_setEject _ _) (by simp), fun _ => id⟩
    · refine ⟨?_, ?_, ?_, keeps_mono (keeps_raiseCount _ _ _ _) (by simp), fun o ho => ?_⟩
      · rw [raiseCount, inc_eject, raise, raiseAs_eject]
      · rw [raiseCount, inc_eject, raise, raiseAs_eject]
      · rw [raiseCount, rd_inc_ne _ _ _ _ _ (by decide), raise,
          rd_raiseAs_other _ F.EJC_EVENT_LAT_OUTLIER F.EJC_EVENT_BOARD_FAULT _ _ _ _ (by decide) (by decide) rfl rfl (by decide)]
      · rw [raiseCount, inc_out]
        exact mem_raiseAs_out _ _ _ _ ho

theorem learned_faultRaised (m : Mach) (frame : List Byte) : (faultRaised m frame).eject = m.eject ∧ Keeps [.eject, .host] m (faultRaised m frame) ∧
    (statusFlags frame % 32 ≠ 0 → rd (faultRaised m frame) F.EJC_EVENT_BOARD_FAULT 0 = 1) ∧ ∀ o ∈ m.out, o ∈ (faultRaised m frame).out := by
  unfold faultRaised raiseIf
  split
  · exact ⟨raiseAs_eject _ _ _ _ _, keeps_mono (keeps_raise _ _ _) (by simp),
      fun _ => rd_raiseAs_same _ _ _ _ _ (by decide) rfl (by decide), fun o ho => mem_raiseAs_out _ _ _ _ ho⟩
  · next h => exact ⟨rfl, keeps_refl _ m, fun hf => absurd (decide_eq_true hf) h, fun _ => id⟩

/-- Frames resent: the boards stay as they are (R387). -/
def Resent (p : Nat) (m t : Mach) : Prop :=
  AwnSends p m t ∧ (awnOf t p).boards = (awnOf m p).boards ∧ rd t F.EJC_EVENT_BOARD_FAULT 0 = rd m F.EJC_EVENT_BOARD_FAULT 0

theorem Resent.refl (p : Nat) (m : Mach) : Resent p m m := ⟨AwnSends.refl p m, rfl, rfl⟩

theorem Resent.trans {p : Nat} {a b c : Mach} (h : Resent p a b) (k : Resent p b c) : Resent p a c :=
  ⟨h.1.trans k.1, k.2.1.trans h.2.1, k.2.2.trans h.2.2⟩

theorem resent_frame (p : Nat) (m : Mach) (data : List Byte) :
    Resent p m (inc (emit (takeRoom m p 1) (.awn p data)) F.EJC_AWN_CNT_RESENT p) := by
  refine ⟨((awnSends_takeRoom m p 1).trans (awnSends_emit _ p data)).trans (awnSends_inc _ p _ _), ?_, ?_⟩
  · rw [awnOf_inc, awnOf_emit, takeRoom, awnOf_setAwn_same]
  · rw [rd_inc_ne, rd_congr (emit_regs _ _), rd_congr (takeRoom_regs _ _ _)]
    simp only [Fld.addr, F.EJC_EVENT_BOARD_FAULT, F.EJC_AWN_CNT_RESENT]
    omega

theorem resent_resend (m : Mach) (p b : Nat) : Resent p m (resend m p b) := by
  have hfilter : Resent p m (setAwn m p (fun a => { a with frames := a.frames.filter (frameKept m p) })) :=
    ⟨awnSends_setAwn m p _ ⟨rfl, rfl, rfl, fun _ => BoardKept.refl _⟩, by rw [awnOf_setAwn_same], rfl⟩
  unfold resend
  refine hfilter.trans (forEach_rel (Resent.refl p) (fun _ _ _ => Resent.trans) _ _ _ fun k _ n => ?_)
  split
  · exact resent_frame p n k.data
  · exact Resent.refl p n

theorem completes_statusIgnored {s : State} {p : Fin 8} {frame : List Byte} {rt : Nat} (h : dnDrive s.mach p ≠ .frames) :
    Completes (.awnStatus p frame rt) s (fun t => Keeps [] s.mach t ∧ RegsSame s.mach t ∧ t.out = []) := by
  have h' : dnDrive (fresh s.mach) p ≠ .frames := h
  exact completes_nothing (awnStatus p frame rt) rfl (if_pos h')

theorem completes_statusBad {s : State} {p : Fin 8} {frame : List Byte} {rt : Nat} (hd : dnDrive s.mach p = .frames) (h : ¬ StatusOk s.mach p frame) :
    Completes (.awnStatus p frame rt) s (fun t => Counted F.EJC_AWN_CNT_CRC_ERR p 1 s.mach t ∧ t.out = [] ∧ Keeps [] s.mach t ∧
      RegsKeep [F.EJC_AWN_CNT_CRC_ERR.addr p] s.mach t) := by
  refine completes_run (awnStatus p frame rt) rfl ?_
  rw [awnStatus_bad (m := fresh s.mach) rt hd h]
  refine ⟨?_, by simp, keeps_settle (keeps_trans (keeps_fresh _ _) (keeps_inc _ _ _ _)), regsKeep_settle (regsKeep_inc _ _ (by simp) (regsKeep_fresh _ _))⟩
  rw [Counted, rd_settle, rd_inc_same _ _ _ (by decide), rd_fresh]

section Answer
variable {m : Mach} {p : Nat} {frame : List Byte} {rt : Nat}

/-- What the answer leaves of the board, whether or not a CONFIG leaves. -/
theorem boardKept_answeredConfig : BoardKept (answeredBoard (statusFlags frame) (statusSeq frame) (boardOf m p (statusBoard frame)))
    (boardOf (answeredConfig m p frame rt) p (statusBoard frame)) := by
  obtain ⟨-, -, -, h⟩ := (awnSends_configBoard (answered m p (statusBoard frame) (statusFlags frame) (statusSeq frame)) p (statusBoard frame) ((rt - 1000) / 2)).port
  rw [← boardOf_answered]
  exact h (statusBoard frame)

theorem answeredConfig_first (h : (boardOf m p (statusBoard frame)).sentNs = none) : answeredConfig m p frame rt =
    sendConfig (configDue (answered m p (statusBoard frame) (statusFlags frame) (statusSeq frame)) p (statusBoard frame) ((rt - 1000) / 2)) p :=
  configBoard_first _ (by rw [boardOf_answered]; exact h)

/-- The first CONFIG waits for room (R381, R385). -/
theorem answeredConfig_waits (h : (boardOf m p (statusBoard frame)).sentNs = none) (hr : configRoom m p = false) :
    (boardOf (answeredConfig m p frame rt) p (statusBoard frame)).configDue = some ((rt - 1000) / 2) ∧
      (boardOf (answeredConfig m p frame rt) p (statusBoard frame)).sentNs = none := by
  rw [answeredConfig_first h, sendConfig_full (by rw [configRoom_due]; exact hr), boardOf_configDue, boardOf_answered]
  exact ⟨rfl, h⟩

/-- The first CONFIG leaves (R385). -/
theorem answeredConfig_sends (hb : statusBoard frame < 8) (h : (boardOf m p (statusBoard frame)).sentNs = none) (hr : configRoom m p = true)
    (hn : ∀ k < statusBoard frame, (boardOf m p k).configDue = none) :
    (boardOf (answeredConfig m p frame rt) p (statusBoard frame)).sentNs = some ((rt - 1000) / 2) ∧
      (boardOf (answeredConfig m p frame rt) p (statusBoard frame)).configDue = none ∧
      .awn p (configFrame m (statusBoard frame) ((rt - 1000) / 2)) ∈ (answeredConfig m p frame rt).out := by
  have hs := sendConfig_first (m := configDue (answered m p (statusBoard frame) (statusFlags frame) (statusSeq frame)) p (statusBoard frame) ((rt - 1000) / 2))
    hb (by rw [boardOf_configDue]) (fun k hk => by
      rw [boardOf_configDue_ne _ _ _ (Nat.ne_of_lt hk), boardOf_answered_ne _ _ _ _ (Nat.ne_of_lt hk)]
      exact hn k hk) (by rw [configRoom_due]; exact hr)
  rw [answeredConfig_first h, hs, boardOf_configSent]
  exact ⟨rfl, rfl, List.mem_append_right _ (List.mem_singleton.mpr rfl)⟩

end Answer

/-- What the events, an OPEN report and the resending leave of a STATUS, once the board's answer and its CONFIG are in. -/
structure StatusRest (p : Nat) (frame : List Byte) (a t : Mach) : Prop where
  board : boardOf t p (statusBoard frame) = boardOf a p (statusBoard frame)
  fault : statusFlags frame % 32 ≠ 0 → rd t F.EJC_EVENT_BOARD_FAULT 0 = 1
  out : ∀ o ∈ a.out, o ∈ t.out
  others : ∀ q, q ≠ p → awnOf t q = awnOf a q
  fires : t.eject.fires = a.eject.fires
  keeps : Keeps [.eject, .host] a t

theorem statusRest (p : Nat) (frame : List Byte) (a : Mach) (v o : Nat) :
    StatusRest p frame a (resend (learn (faultRaised a frame) v o) p (statusBoard frame)) := by
  obtain ⟨hfe, hfk, hff, hfo⟩ := learned_faultRaised a frame
  have hl := learned_learn (faultRaised a frame) v o
  obtain ⟨hrs, hrb, hrf⟩ := resent_resend (learn (faultRaised a frame) v o) p (statusBoard frame)
  have hnp := hl.ports.trans (congrArg Eject.ports hfe)
  refine ⟨?_, fun hf => (hrf.trans hl.fault).trans (hff hf), fun x hx => hrs.mem_out (hl.out x (hfo x hx)), fun q hq => ?_,
    (hrs.fires.trans hl.fires).trans (congrArg Eject.fires hfe), keeps_trans (keeps_trans hfk hl.keeps) (keeps_mono hrs.keeps (by simp))⟩
  · rw [boardOf, hrb, awnOf_of_ports hnp, boardOf]
  · rw [hrs.others q hq, awnOf_of_ports hnp]

theorem keeps_answeredConfig (m : Mach) (p : Nat) (frame : List Byte) (rt : Nat) : Keeps [.eject] m (answeredConfig m p frame rt) :=
  keeps_trans (keeps_setAwn _ _ _) (awnSends_configBoard _ p _ _).keeps

theorem answeredConfig_others (m : Mach) (p : Nat) (frame : List Byte) (rt : Nat) : (∀ q, q ≠ p → awnOf (answeredConfig m p frame rt) q = awnOf m q) ∧
    (answeredConfig m p frame rt).eject.fires = m.eject.fires := by
  have h := awnSends_configBoard (answered m p (statusBoard frame) (statusFlags frame) (statusSeq frame)) p (statusBoard frame) ((rt - 1000) / 2)
  exact ⟨fun q hq => (h.others q hq).trans (awnOf_setAwn_ne _ _ hq), h.fires⟩

/-- A STATUS of a fitted board (R385). -/
theorem completes_status {s : State} {p : Fin 8} {frame : List Byte} {rt : Nat} (hd : dnDrive s.mach p = .frames) (h : StatusOk s.mach p frame) :
    Completes (.awnStatus p frame rt) s (fun t =>
      let x := boardOf t p (statusBoard frame)
      x.seen = true ∧ x.missed = 0 ∧ x.lost = false ∧ x.flags = statusFlags frame ∧ x.nextSeq = BitVec.ofNat 8 (statusSeq frame) ∧
      (statusFlags frame % 32 ≠ 0 → rd t F.EJC_EVENT_BOARD_FAULT 0 = 1) ∧
      ((boardOf s.mach p (statusBoard frame)).sentNs = none → configRoom s.mach p = false → x.configDue = some ((rt - 1000) / 2) ∧ x.sentNs = none) ∧
      ((boardOf s.mach p (statusBoard frame)).sentNs = none → configRoom s.mach p = true →
        (∀ k < statusBoard frame, (boardOf s.mach p k).configDue = none) → x.sentNs = some ((rt - 1000) / 2) ∧ x.configDue = none ∧
        .awn p (configFrame s.mach (statusBoard frame) ((rt - 1000) / 2)) ∈ t.out) ∧
      (∀ q : Nat, q ≠ p.val → awnOf t q = awnOf s.mach q) ∧ t.eject.fires = s.mach.eject.fires ∧ Keeps [.eject, .host] s.mach t) := by
  have hb : statusBoard frame < 8 := by
    obtain ⟨-, -, -, hfit⟩ := h
    simp only [fitted, Bool.and_eq_true, decide_eq_true_eq] at hfit
    exact hfit.1
  refine completes_run (awnStatus p frame rt) rfl ?_
  rw [awnStatus_ok (m := fresh s.mach) rt hd h]
  have hrest := statusRest p frame (answeredConfig (fresh s.mach) p frame rt) (p * 256 + leAt frame 4 1) (leAt frame 5 3)
  generalize resend _ p (statusBoard frame) = t at hrest ⊢
  obtain ⟨hboard, hfault, hout, hothers, hfires, hkeeps⟩ := hrest
  obtain ⟨hq, hfi⟩ := answeredConfig_others (fresh s.mach) p frame rt
  have hx : boardOf (settle s.mach t) p (statusBoard frame) = boardOf (answeredConfig (fresh s.mach) p frame rt) p (statusBoard frame) := by
    rw [← hboard, boardOf, awnOf_settle, boardOf]
  obtain ⟨k1, k2, k3, k4, k5⟩ := boardKept_answeredConfig (m := fresh s.mach) (p := p) (frame := frame) (rt := rt)
  dsimp only
  rw [hx]
  refine ⟨k1, k2, k3, k4, k5, fun hf => ?_, fun hs hr => answeredConfig_waits hs hr, fun hs hr hn => ?_, fun q hne => ?_, ?_, ?_⟩
  · rw [rd_settle, hfault hf]
  · obtain ⟨h1, h2, h3⟩ := answeredConfig_sends (m := fresh s.mach) (rt := rt) hb hs hr hn
    exact ⟨h1, h2, by rw [settle_out]; exact hout _ h3⟩
  · rw [awnOf_settle, hothers q hne, hq q hne, awnOf_fresh]
  · rw [settle_eject]
    exact hfires.trans hfi
  · exact keeps_settle (keeps_trans (keeps_trans (keeps_fresh _ _) (keeps_mono (keeps_answeredConfig _ p frame rt) (by simp))) hkeeps)

/-! ### Boards lost -/

/-- An entry that is not the default is listed. -/
theorem mem_of_tget_ne {α : Type} (d : α) : ∀ (t : Tab α) (i : Nat), tget d t i ≠ d → (i, tget d t i) ∈ t
  | [], _, h => absurd rfl h
  | (k, v) :: t, i, h => by
    unfold tget at h ⊢
    split
    · next e => exact e ▸ List.mem_cons_self ..
    · next e =>
      rw [if_neg e] at h
      exact List.mem_cons_of_mem _ (mem_of_tget_ne d t i h)

/-- A port with a lost board is out of service (R385). -/
theorem awnInService_lost {m : Mach} {p b : Nat} (h : (boardOf m p b).lost = true) : awnInService m p = false := by
  have hne : tget {} (awnOf m p).boards b ≠ ({} : Board) := fun e => by
    rw [boardOf, e] at h
    exact absurd h (by decide)
  have hall : ((awnOf m p).boards.all (fun b => !b.2.lost)) = false := by
    rw [List.all_eq_false]
    exact ⟨_, mem_of_tget_ne _ _ _ hne, by rw [show (tget {} (awnOf m p).boards b).lost = true from h]; decide⟩
  rw [awnInService, hall, Bool.and_false]

/-- A fitted board has missed 100 polls, and is not lost yet. -/
def LossDue (m : Mach) (p b : Nat) : Prop := fitted m p b = true ∧ 100 ≤ (boardOf m p b).missed ∧ (boardOf m p b).lost = false

theorem boardLost_due {m : Mach} {p b : Nat} (h : LossDue m p b) : boardLost p b m =
    raise (setAwn m p (fun a => { a with boards := tmod {} a.boards b (fun x => { x with lost := true, seen := false }) })) F.EJC_EVENT_BOARD_LOST 0 := by
  obtain ⟨h1, h2, h3⟩ := h
  unfold boardOf at h2 h3
  unfold boardLost
  dsimp only
  rw [h1, h3, decide_eq_true h2]
  rfl

theorem boardLost_not {m : Mach} {p b : Nat} (h : ¬ LossDue m p b) : boardLost p b m = m := by
  unfold LossDue boardOf at h
  unfold boardLost
  dsimp only
  rw [if_neg]
  simp only [Bool.and_eq_true, decide_eq_true_eq, Bool.not_eq_true']
  exact fun ⟨⟨h1, h2⟩, h3⟩ => h ⟨h1, h2, h3⟩

theorem completes_boardLost {s : State} {p b : Fin 8} (h : LossDue s.mach p b) : Completes (.boardLost p b) s (fun t =>
    (boardOf t p b).lost = true ∧ awnInService t p = false ∧ rd t F.EJC_EVENT_BOARD_LOST 0 = 1 ∧
      (∀ q : Nat, q ≠ p.val → awnOf t q = awnOf s.mach q) ∧ Keeps [.eject, .host] s.mach t ∧ RegsKeep [F.EJC_EVENT_BOARD_LOST.addr 0] s.mach t) := by
  refine completes_run (boardLost p b) rfl ?_
  rw [boardLost_due (m := fresh s.mach) h]
  let m := setAwn (fresh s.mach) p (fun a => { a with boards := tmod {} a.boards b (fun x => { x with lost := true, seen := false }) })
  have hlost : (boardOf (settle s.mach (raise m F.EJC_EVENT_BOARD_LOST 0)) p b).lost = true := by
    rw [boardOf, awnOf_settle, raise, awnOf_raiseAs, awnOf_setAwn_same]
    dsimp only
    rw [tget_tmod_same]
  refine ⟨hlost, awnInService_lost hlost, ?_, fun q hq => ?_, ?_, ?_⟩
  · rw [rd_settle]
    exact rd_raiseAs_same _ _ _ _ _ (by decide) rfl (by decide)
  · rw [awnOf_settle, raise, awnOf_raiseAs, awnOf_setAwn_ne _ _ hq, awnOf_fresh]
  · exact keeps_settle (keeps_trans (keeps_trans (keeps_fresh _ _) (keeps_mono (keeps_setAwn _ _ _) (by simp))) (keeps_mono (keeps_raise _ _ _) (by simp)))
  · exact regsKeep_settle (regsKeep_raiseAs _ _ _ _ (by simp) (by decide) (regsKeep_of_regs rfl))

theorem completes_boardStays {s : State} {p b : Fin 8} (h : ¬ LossDue s.mach p b) :
    Completes (.boardLost p b) s (fun t => Keeps [] s.mach t ∧ RegsSame s.mach t ∧ t.out = []) :=
  completes_nothing (boardLost p b) rfl (boardLost_not (m := fresh s.mach) h)

/-! ### Field outputs -/

/-- An output is on as commanded, unless its current limit holds it off (R51, R52, R58). -/
theorem doOn_supplied {m : Mach} (hf : m.eject.fieldBad = false) (ha : alive m = true) (hp : m.ctl.powerGood = true) :
    doOn m = doCommands m &&& ~~~ m.eject.limited := by
  rw [doOn, if_neg (by simp [hf, ha, hp])]

theorem doOn_fieldBad {m : Mach} (h : m.eject.fieldBad = true) : doOn m = 0 := by
  rw [doOn, if_pos (by simp [h])]

/-- What an output that is on says. -/
theorem doOn_lit {m : Mach} {n : Nat} (h : (doOn m).getLsbD n = true) : m.eject.fieldBad = false ∧ alive m = true ∧ m.ctl.powerGood = true := by
  unfold doOn at h
  split at h
  · exact absurd h (by simp)
  · next hc => simpa [and_assoc] using hc

/-- The field supply's two flags (R51). -/
theorem fieldFault_flags (m : Mach) : rd (fieldFault m) F.FIO_EVENT_FAULT 0 = 1 ∧ rd (fieldFault m) F.FIO_EVENT_SUPPLY 0 = 1 := by
  refine ⟨?_, rd_raiseAs_same _ _ _ _ _ (by decide) rfl (by decide)⟩
  rw [fieldFault, raise, rd_raiseAs_other _ F.FIO_EVENT_SUPPLY F.FIO_EVENT_FAULT _ _ _ _ (by decide) (by decide) rfl rfl (by decide)]
  exact rd_raiseAs_same _ _ _ _ _ (by decide) rfl (by decide)

theorem keeps_fieldFault (m : Mach) : Keeps [.host] m (fieldFault m) := keeps_trans (keeps_raise _ _ _) (keeps_raise _ _ _)

theorem regsKeep_fieldFault {m t : Mach} (h : RegsKeep [F.FIO_EVENT_FAULT.addr 0] m t) : RegsKeep [F.FIO_EVENT_FAULT.addr 0] m (fieldFault t) :=
  regsKeep_raiseAs F.FIO_EVENT_SUPPLY _ _ _ (by decide) (by decide) (regsKeep_raiseAs F.FIO_EVENT_FAULT _ _ _ (by simp) (by decide) h)

theorem fieldFault_eject (m : Mach) : (fieldFault m).eject = m.eject := by
  rw [fieldFault, raise, raiseAs_eject, raise, raiseAs_eject]

theorem fieldFault_ctl (m : Mach) : (fieldFault m).ctl = m.ctl := by
  rw [fieldFault, raise_ctl, raise_ctl]

/-- The field supply out of range (R51, R52). -/
theorem completes_fieldSupplyFault (s : State) : Completes .fieldSupplyFault s (fun t => doOn t = 0 ∧ t.eject.fieldBad = true ∧ t.ctl = s.mach.ctl ∧
    (alive s.mach = true → rd t F.FIO_EVENT_FAULT 0 = 1 ∧ rd t F.FIO_EVENT_SUPPLY 0 = 1 ∧ Keeps [.eject, .host] s.mach t ∧
      RegsKeep [F.FIO_EVENT_FAULT.addr 0] s.mach t) ∧
    (alive s.mach = false → Keeps [.eject] s.mach t ∧ RegsSame s.mach t)) := by
  let m := setEject (fresh s.mach) (fun e => { e with fieldBad := true })
  have hk : Keeps [.eject] s.mach m := keeps_trans (keeps_fresh _ _) (keeps_setEject _ _)
  have halive : alive m = alive s.mach := rfl
  refine completes_run fieldSupplyFault rfl ?_
  by_cases ha : alive s.mach = true
  · have he : fieldSupplyFault (fresh s.mach) = fieldFault m := if_pos (halive.trans ha)
    have hbad : (settle s.mach (fieldFault m)).eject.fieldBad = true := by
      rw [settle_eject, fieldFault_eject]
      rfl
    obtain ⟨h1, h2⟩ := fieldFault_flags m
    rw [he]
    refine ⟨doOn_fieldBad hbad, hbad, ?_, fun _ => ⟨(rd_settle _ _ _ _).trans h1, (rd_settle _ _ _ _).trans h2, ?_, ?_⟩, fun hn => absurd ha (by simp [hn])⟩
    · rw [settle_ctl, fieldFault_ctl]
      rfl
    · exact keeps_settle (keeps_trans (keeps_mono hk (by simp)) (keeps_mono (keeps_fieldFault m) (by simp)))
    · exact regsKeep_settle (regsKeep_fieldFault (regsKeep_of_regs rfl))
  · have he : fieldSupplyFault (fresh s.mach) = m := if_neg (halive ▸ ha)
    have hbad : (settle s.mach m).eject.fieldBad = true := by
      rw [settle_eject]
      rfl
    rw [he]
    exact ⟨doOn_fieldBad hbad, hbad, by rw [settle_ctl]; rfl, fun h => absurd h ha, fun _ => ⟨keeps_settle hk, by rw [RegsSame, settle_regs]; rfl⟩⟩

/-- The field supply back in range (R51). -/
theorem completes_fieldSupplyRecovered (s : State) : Completes .fieldSupplyRecovered s (fun t => Keeps [.eject] s.mach t ∧ RegsSame s.mach t ∧
    t.eject.fieldBad = false ∧ (alive s.mach = true → s.mach.ctl.powerGood = true → doOn t = doCommands t &&& ~~~ t.eject.limited)) := by
  let m := fieldSupplyRecovered (fresh s.mach)
  have hbad : (settle s.mach m).eject.fieldBad = false := by
    rw [settle_eject]
    rfl
  have hctl : (settle s.mach m).ctl = s.mach.ctl := by
    rw [settle_ctl]
    rfl
  refine completes_run fieldSupplyRecovered rfl ⟨keeps_settle (keeps_trans (keeps_fresh _ _) (keeps_setEject _ _)), ?_, hbad, fun ha hp => ?_⟩
  · rw [RegsSame, settle_regs]
    rfl
  · exact doOn_supplied hbad (by rw [alive, hctl]; exact ha) (by rw [hctl]; exact hp)

/-- An output in current limit, before the others' commands are looked at again. -/
def limitHit (m : Mach) (n : Nat) : Mach :=
  raise (setEject m (fun e => { e with limited := e.limited ||| (1#16 <<< n), limitNew := true })) F.FIO_EVENT_FAULT 0

/-- What FAULT raised leaves of the commands' inputs. -/
theorem limitHit_eject (m : Mach) (n : Nat) : (limitHit m n).eject = { m.eject with limited := m.eject.limited ||| (1#16 <<< n), limitNew := true } := by
  rw [limitHit, raise, raiseAs_eject]
  rfl

theorem limitHit_ctl (m : Mach) (n : Nat) : (limitHit m n).ctl = m.ctl := by
  rw [limitHit, raise_ctl]
  rfl

theorem limitHit_cfg (m : Mach) (n : Nat) : (limitHit m n).cfg = m.cfg := by
  rw [limitHit, raise, raiseAs_cfg]
  rfl

theorem limitHit_time (m : Mach) (n : Nat) : (limitHit m n).time = m.time := by
  rw [limitHit, raise, raiseAs_time]
  rfl

theorem limitHit_fault (m : Mach) (n : Nat) : rd (limitHit m n) F.FIO_EVENT_FAULT 0 = 1 :=
  rd_raiseAs_same _ _ _ _ _ (by decide) rfl (by decide)

theorem rd_limitHit_ne (m : Mach) (n : Nat) (g : Fld) (hp : g.addr 0 ≠ pbaAddr (vectorOf F.FIO_EVENT_FAULT 0)) (h : g.addr 0 ≠ F.FIO_EVENT_FAULT.addr 0) :
    rd (limitHit m n) g 0 = rd m g 0 :=
  (rd_raiseAs_ne _ _ _ _ _ _ _ hp h).trans rfl

theorem awnAllIn_congr {m t : Mach} (hp : t.eject.ports = m.eject.ports) (hc : t.cfg = m.cfg) : awnAllIn t = awnAllIn m := by
  have ha (p : Nat) : awnOf t p = awnOf m p := awnOf_of_ports hp p
  have hb (p : Nat) : boardMask t p = boardMask m p := by rw [boardMask, boardMask, hc]
  simp only [awnAllIn, awnInService, ha, hb]

/-- A status source other than the fault itself does not change with it (R390). -/
theorem statusSource_limitHit (m : Mach) (n : Nat) {src : Nat} (h : src ≠ 3) : statusSource (limitHit m n) src = statusSource m src := by
  have hctl := limitHit_ctl m n
  have hinh : inhibited (limitHit m n) = inhibited m := by
    simp only [inhibited, limitHit_cfg, rd_limitHit_ne m n F.FIO_DI_STATE (by decide) (by decide)]
  have hawn : awnAllIn (limitHit m n) = awnAllIn m := awnAllIn_congr (by rw [limitHit_eject]) (limitHit_cfg m n)
  have htick : (limitHit m n).eject.tickLevel = m.eject.tickLevel := by rw [limitHit_eject]
  unfold statusSource
  split
  case h_4 => exact absurd rfl h
  all_goals simp only [ticking, pipelineOn, timeValid, hctl, hinh, hawn, htick, limitHit_cfg, limitHit_time]

theorem statusSource_fault (m : Mach) (n : Nat) : statusSource (limitHit m n) 3 = false := by
  simp [statusSource, flag, limitHit_fault]

/-- FAULT raised leaves the command of an output that does not show it. -/
theorem doCommand_limitHit (m : Mach) (n k : Nat) (h : doMode m k = 2 → doSrc m k ≠ 3) : doCommand (limitHit m n) k = doCommand m k := by
  have hmode : doMode (limitHit m n) k = doMode m k := by rw [doMode, doMode, limitHit_cfg]
  have hsrc : doSrc (limitHit m n) k = doSrc m k := by rw [doSrc, doSrc, limitHit_cfg]
  have hctl := limitHit_ctl m n
  have hset := rd_limitHit_ne m n F.FIO_DO_SET_SET (by decide) (by decide)
  have hval : (limitHit m n).eject.valveOut = m.eject.valveOut := by rw [limitHit_eject]
  unfold doCommand
  rw [hmode]
  split
  · simp only [pipelineOn, hctl, hval]
  · next h2 =>
    rw [hsrc, statusSource_limitHit m n (h h2)]
    simp only [ticking, pipelineOn, hctl]
  · simp only [pipelineOn, hctl, hset]
  · rfl

/-- No output is commanded on by it that was not. -/
theorem doCommand_of_limitHit {m : Mach} {n k : Nat} (h : doCommand (limitHit m n) k = true) : doCommand m k = true := by
  by_cases hs : doMode m k = 2 ∧ doSrc m k = 3
  · have hmode : doMode (limitHit m n) k = 2 := by rw [doMode, limitHit_cfg]; exact hs.1
    have hsrc : doSrc (limitHit m n) k = 3 := by rw [doSrc, limitHit_cfg]; exact hs.2
    rw [doCommand, hmode] at h
    simp [hsrc, statusSource_fault] at h
  · rw [← doCommand_limitHit m n k fun h2 h3 => hs ⟨h2, h3⟩]
    exact h

theorem doCommands_getLsbD (m : Mach) {k : Nat} (hk : k < 16) : (doCommands m).getLsbD k = doCommand m k := by
  rw [doCommands, BitVec.getLsbD_ofNat, ofBits_testBit, List.getD_eq_getElem?_getD, List.getElem?_map, List.getElem?_range hk]
  simp [hk]

/-- Nothing but the output itself is held off in the end (R58). -/
theorem limitHit_settle (m : Mach) (n : Nat) : (settle m (limitHit m n)).eject.limited = m.eject.limited ||| (1#16 <<< n) := by
  rw [settle_eject]
  dsimp only
  rw [limitHit_eject]
  dsimp only
  refine BitVec.eq_of_getLsbD_eq fun k hk => ?_
  have hedge : ((doCommands (limitHit m n)).getLsbD k && !(doCommands m).getLsbD k) = false := by
    rw [doCommands_getLsbD _ hk, doCommands_getLsbD _ hk]
    cases h : doCommand (limitHit m n) k
    · rfl
    · rw [doCommand_of_limitHit h]
      rfl
  simp only [BitVec.getLsbD_and, BitVec.getLsbD_not, hk, decide_true, Bool.true_and, hedge, Bool.not_false, Bool.and_true]

theorem doOn_getLsbD {m : Mach} (hf : m.eject.fieldBad = false) (ha : alive m = true) (hp : m.ctl.powerGood = true) {k : Nat} (hk : k < 16) :
    (doOn m).getLsbD k = (doCommand m k && !m.eject.limited.getLsbD k) := by
  rw [doOn_supplied hf ha hp, BitVec.getLsbD_and, BitVec.getLsbD_not, doCommands_getLsbD m hk]
  simp [hk]

theorem doCommand_congr {m t : Mach} (k : Nat) (hc : t.ctl = m.ctl) (hr : t.regs = m.regs) (hg : t.cfg = m.cfg) (ht : t.time = m.time)
    (he : { t.eject with limited := 0 } = { m.eject with limited := 0 }) : doCommand t k = doCommand m k := by
  have hrd (f : Fld) (i : Nat) : rd t f i = rd m f i := rd_congr hr f i
  have hval : t.eject.valveOut = m.eject.valveOut := congrArg (·.valveOut) he
  have htick : t.eject.tickLevel = m.eject.tickLevel := congrArg (·.tickLevel) he
  have hawn : awnAllIn t = awnAllIn m := awnAllIn_congr (congrArg (·.ports) he) hg
  have hsrc (src : Nat) : statusSource t src = statusSource m src := by
    unfold statusSource
    split <;> simp only [ticking, pipelineOn, flag, inhibited, timeValid, hc, hg, ht, hrd, htick, hawn]
  have hmode : doMode t k = doMode m k := by rw [doMode, doMode, hg]
  have hsel : doSrc t k = doSrc m k := by rw [doSrc, doSrc, hg]
  unfold doCommand
  rw [hmode, hsrc, hsel]
  simp only [ticking, pipelineOn, hc, hval, hrd]

theorem completes_limitIgnored {s : State} {n : Fin 16} (h : (doOn s.mach).getLsbD n = false) :
    Completes (.outputCurrentLimit n) s (fun t => Keeps [] s.mach t ∧ RegsSame s.mach t ∧ t.out = []) := by
  have h' : ¬ (doOn (fresh s.mach)).getLsbD n = true := by
    rw [show doOn (fresh s.mach) = doOn s.mach from rfl, h]
    decide
  exact completes_nothing (outputCurrentLimit n) rfl (if_neg h')

/-- An output that is on meets its current limit (R58). -/
theorem completes_limit {s : State} {n : Fin 16} (h : (doOn s.mach).getLsbD n = true) : Completes (.outputCurrentLimit n) s (fun t =>
    (doOn t).getLsbD n = false ∧ rd t F.FIO_EVENT_FAULT 0 = 1 ∧ (∀ k : Fin 16, k ≠ n → (doMode s.mach k = 2 → doSrc s.mach k ≠ 3) →
      (doOn t).getLsbD k = (doOn s.mach).getLsbD k) ∧ Keeps [.eject, .host] s.mach t ∧ RegsKeep [F.FIO_EVENT_FAULT.addr 0] s.mach t) := by
  obtain ⟨hf, ha, hp⟩ := doOn_lit h
  have he : outputCurrentLimit n (fresh s.mach) = limitHit (fresh s.mach) n := if_pos (show (doOn (fresh s.mach)).getLsbD n = true from h)
  have hlim : (settle s.mach (limitHit (fresh s.mach) n)).eject.limited = s.mach.eject.limited ||| (1#16 <<< n.val) := limitHit_settle (fresh s.mach) n
  have hctl : (settle s.mach (limitHit (fresh s.mach) n)).ctl = s.mach.ctl := (settle_ctl _ _).trans (limitHit_ctl _ _)
  have hcmd (k : Nat) : doCommand (settle s.mach (limitHit (fresh s.mach) n)) k = doCommand (limitHit (fresh s.mach) n) k :=
    doCommand_congr k (settle_ctl _ _) (settle_regs _ _) (settle_cfg _ _) (settle_time _ _) (by rw [settle_eject])
  have hon {k : Nat} (hk : k < 16) : (doOn (settle s.mach (limitHit (fresh s.mach) n))).getLsbD k =
      (doCommand (limitHit (fresh s.mach) n) k && !(s.mach.eject.limited ||| (1#16 <<< n.val)).getLsbD k) := by
    rw [doOn_getLsbD ?_ (by rw [alive, hctl]; exact ha) (by rw [hctl]; exact hp) hk, hcmd, hlim]
    rw [settle_eject]
    dsimp only
    rw [limitHit_eject]
    exact hf
  refine completes_run (outputCurrentLimit n) rfl ?_
  rw [he]
  refine ⟨?_, (rd_settle _ _ _ _).trans (limitHit_fault _ _), fun k hk hsrc => ?_, ?_, ?_⟩
  · rw [hon n.isLt]
    simp
  · rw [hon k.isLt, doOn_getLsbD hf ha hp k.isLt, doCommand_limitHit (fresh s.mach) _ _ hsrc, show doCommand (fresh s.mach) k = doCommand s.mach k from rfl]
    have hne : (1#16 <<< n.val).getLsbD k = false := by
      have : k.val ≠ n.val := fun e => hk (Fin.ext e)
      simp only [BitVec.getLsbD_shiftLeft, BitVec.getLsbD_one]
      simp only [Bool.and_eq_false_iff, decide_eq_false_iff_not, Bool.not_eq_false', decide_eq_true_eq]
      omega
    rw [BitVec.getLsbD_or, hne, Bool.or_false]
  · exact keeps_settle (keeps_trans (keeps_trans (keeps_fresh _ _) (keeps_mono (keeps_setEject _ _) (by simp))) (keeps_mono (keeps_raise _ _ _) (by simp)))
  · exact regsKeep_settle (regsKeep_raiseAs _ _ _ _ (by simp) (by decide) (regsKeep_of_regs rfl))

/-! ### Field inputs -/

/-- An input that reads ON, and one that reads OFF (R55). -/
def ReadsOn (d : DiSample) : Prop := 11000 ≤ d.mv
def ReadsOff (d : DiSample) : Prop := d.mv ≤ 5000 ∧ (500 ≤ d.ua ∨ d.ua < 300)

theorem classify_on (wb old oldWb : Bool) {d : DiSample} (h : ReadsOn d) : classify wb old oldWb d = (true, false, false) := if_pos h

theorem classify_off (wb old oldWb : Bool) {d : DiSample} (h : ReadsOff d) : classify wb old oldWb d = (false, decide (d.ua < 300) && wb, false) := by
  obtain ⟨hmv, hua⟩ := h
  unfold classify
  rw [if_neg (by omega)]
  by_cases h5 : 500 ≤ d.ua
  · rw [if_pos (by simp [hmv, h5]), decide_eq_false (by omega), Bool.false_and]
  · have h3 : d.ua < 300 := hua.resolve_left h5
    rw [if_neg (by simp [h5]), if_pos (by simp [hmv, h3]), decide_eq_true h3, Bool.true_and]

theorem classify_held (wb old oldWb : Bool) {d : DiSample} (h1 : ¬ ReadsOn d) (h2 : ¬ ReadsOff d) : classify wb old oldWb d = (old, oldWb, true) := by
  unfold ReadsOn at h1
  unfold ReadsOff at h2
  unfold classify
  rw [if_neg h1, if_neg, if_neg]
  all_goals
    simp only [Bool.and_eq_true, decide_eq_true_eq]
    omega

/-- An input's result is undetermined just where it reads neither (R55). -/
theorem classify_undetermined (wb old oldWb : Bool) (d : DiSample) : (classify wb old oldWb d).2.2 =
    (!decide (11000 ≤ d.mv) && !(decide (d.mv ≤ 5000) && (decide (500 ≤ d.ua) || decide (d.ua < 300)))) := by
  by_cases h1 : ReadsOn d
  · rw [classify_on _ _ _ h1, decide_eq_true (show 11000 ≤ d.mv from h1)]
    rfl
  · by_cases h2 : ReadsOff d
    · rw [classify_off _ _ _ h2]
      obtain ⟨hmv, hua⟩ := h2
      rcases hua with h | h <;> simp [hmv, h]
    · rw [classify_held _ _ _ h1 h2]
      unfold ReadsOn at h1
      unfold ReadsOff at h2
      rcases Nat.lt_or_ge 5000 d.mv with hmv | hmv
      · simp [Nat.not_le.mpr hmv, h1]
      · have h5 : ¬ 500 ≤ d.ua := fun h => h2 ⟨hmv, .inl h⟩
        have h3 : ¬ d.ua < 300 := fun h => h2 ⟨hmv, .inr h⟩
        simp [h1, h5, h3]

/-- The result of an input: its state, its wire break, undetermined. -/
def diResult (m : Mach) (samples : List DiSample) (n : Nat) : Bool × Bool × Bool :=
  classify (m.cfg.early.wbEn.getLsbD n) (bitOf (rd m F.FIO_DI_STATE 0) n) (m.eject.wireBreak.getLsbD n) (samples.getD n {})

def diResults (m : Mach) (samples : List DiSample) : List (Bool × Bool × Bool) := (List.range 24).map (diResult m samples)

/-- The common fault (R391). -/
def diBad (m : Mach) (samples : List DiSample) (overload : Bool) : Bool :=
  (diResults m samples).any (fun r => r.2.1) || m.eject.limitNew || m.eject.fieldBad || overload

/-- The inputs sampled, before the fault's event. -/
def diSampled (m : Mach) (samples : List DiSample) : Mach :=
  setEject (incBy (wr m F.FIO_DI_STATE 0 (ofBits ((diResults m samples).map (fun r => r.1)))) F.FIO_CNT_UNDETERMINED 0
    ((diResults m samples).filter (fun r => r.2.2)).length) (fun e => { e with
      limitNew := false, diAt := some m.time.now, wireBreak := BitVec.ofNat 24 (ofBits ((diResults m samples).map (fun r => r.2.1))) })

theorem sampleInputs_eq (samples : List DiSample) (overload : Bool) (m : Mach) : sampleInputs samples overload m =
    if diBad m samples overload then raiseCount (diSampled m samples) F.FIO_EVENT_FAULT F.FIO_CNT_FAULTS 0 else diSampled m samples := rfl

/-- A bit of one column of the results. -/
theorem diResults_getD (m : Mach) (samples : List DiSample) (f : Bool × Bool × Bool → Bool) {n : Nat} (hn : n < 24) :
    ((diResults m samples).map f).getD n false = f (diResult m samples n) := by
  rw [diResults, List.map_map, List.getD_eq_getElem?_getD, List.getElem?_map, List.getElem?_range hn]
  rfl

theorem diSampled_state (m : Mach) (samples : List DiSample) {n : Nat} (hn : n < 24) :
    (rd (diSampled m samples) F.FIO_DI_STATE 0).testBit n = (diResult m samples n).1 := by
  have h : rd (diSampled m samples) F.FIO_DI_STATE 0 = ofBits ((diResults m samples).map (fun r => r.1)) % 2 ^ 24 := by
    rw [diSampled, rd_congr (setEject_regs _ _), incBy, rd_wr_ne _ _ _ _ _ _ (by decide), rd_wr_same _ _ _ _ (by decide)]
    rfl
  rw [h, Nat.testBit_mod_two_pow, ofBits_testBit, diResults_getD _ _ _ hn]
  simp [hn]

theorem diSampled_wireBreak (m : Mach) (samples : List DiSample) {n : Nat} (hn : n < 24) :
    (diSampled m samples).eject.wireBreak.getLsbD n = (diResult m samples n).2.1 := by
  have h : (diSampled m samples).eject.wireBreak = BitVec.ofNat 24 (ofBits ((diResults m samples).map (fun r => r.2.1))) := rfl
  rw [h, BitVec.getLsbD_ofNat, ofBits_testBit, diResults_getD _ _ _ hn]
  simp [hn]

/-- Some wire breaks (R391). -/
theorem diSampled_anyBreak (m : Mach) (samples : List DiSample) :
    (diResults m samples).any (fun r => r.2.1) = true ↔ (diSampled m samples).eject.wireBreak ≠ 0 := by
  have hz : (diSampled m samples).eject.wireBreak = 0 ↔ ∀ n < 24, (diResult m samples n).2.1 = false := by
    refine ⟨fun h n hn => ?_, fun h => BitVec.eq_of_getLsbD_eq fun n hn => ?_⟩
    · rw [← diSampled_wireBreak m samples hn, h]
      exact BitVec.getLsbD_zero
    · rw [diSampled_wireBreak m samples hn, h n hn]
      exact BitVec.getLsbD_zero.symm
  rw [ne_eq, hz, diResults, List.any_map, List.any_eq_true]
  simp only [List.mem_range, Function.comp, not_forall, Bool.not_eq_false, exists_prop]

theorem diResults_undetermined (m : Mach) (samples : List DiSample) : ((diResults m samples).filter (fun r => r.2.2)).length =
    (List.range 24).countP (fun n => !decide (11000 ≤ (samples.getD n {}).mv) && !(decide ((samples.getD n {}).mv ≤ 5000) &&
      (decide (500 ≤ (samples.getD n {}).ua) || decide ((samples.getD n {}).ua < 300)))) := by
  rw [← List.countP_eq_length_filter, diResults, List.countP_map]
  exact List.countP_congr fun n _ => by rw [Function.comp, diResult, classify_undetermined]

theorem keeps_diSampled (m : Mach) (samples : List DiSample) : Keeps [.eject] m (diSampled m samples) :=
  keeps_trans (keeps_wr _ _ _ (keeps_wr _ _ _ (keeps_refl _ m))) (keeps_setEject _ _)

theorem rd_diSampled_ne (m : Mach) (samples : List DiSample) (g : Fld) (h1 : g.addr 0 ≠ F.FIO_CNT_UNDETERMINED.addr 0)
    (h2 : g.addr 0 ≠ F.FIO_DI_STATE.addr 0) : rd (diSampled m samples) g 0 = rd m g 0 := by
  rw [diSampled, rd_congr (setEject_regs _ _), incBy, rd_wr_ne _ _ _ _ _ _ h1, rd_wr_ne _ _ _ _ _ _ h2]

theorem diSampled_undetermined (m : Mach) (samples : List DiSample) : rd (diSampled m samples) F.FIO_CNT_UNDETERMINED 0 =
    min (rd m F.FIO_CNT_UNDETERMINED 0 + ((diResults m samples).filter (fun r => r.2.2)).length) (2 ^ F.FIO_CNT_UNDETERMINED.w - 1) := by
  rw [diSampled, rd_congr (setEject_regs _ _), rd_incBy_same _ _ _ _ (by decide), rd_wr_ne _ _ _ _ _ _ (by decide)]

theorem diSampled_faults (m : Mach) (samples : List DiSample) : rd (diSampled m samples) F.FIO_CNT_FAULTS 0 = rd m F.FIO_CNT_FAULTS 0 := by
  rw [diSampled, rd_congr (setEject_regs _ _), incBy, rd_wr_other _ F.FIO_CNT_UNDETERMINED F.FIO_CNT_FAULTS _ _ _ (by decide) rfl rfl (by decide),
    rd_wr_ne _ _ _ _ _ _ (by decide)]

/-- The sample's result beside the fault's event: inputs, wire breaks, the count of undetermined ones and the time. -/
structure DiTaken (m : Mach) (samples : List DiSample) (t : Mach) : Prop where
  state : ∀ n < 24, (rd t F.FIO_DI_STATE 0).testBit n = (diResult m samples n).1
  wireBreak : t.eject.wireBreak = (diSampled m samples).eject.wireBreak
  count : Counted F.FIO_CNT_UNDETERMINED 0 ((diResults m samples).filter (fun r => r.2.2)).length m t
  diAt : t.eject.diAt = some m.time.now
  keeps : Keeps [.eject, .host] m t

theorem diTaken_sampleInputs (samples : List DiSample) (overload : Bool) (m : Mach) : DiTaken m samples (sampleInputs samples overload m) := by
  rw [sampleInputs_eq]
  split
  · refine ⟨fun n hn => ?_, ?_, ?_, ?_, keeps_trans (keeps_mono (keeps_diSampled m samples) (by simp)) (keeps_mono (keeps_raiseCount _ _ _ _) (by simp))⟩
    · rw [raiseCount, rd_inc_ne _ _ _ _ _ (by decide), raise, rd_raiseAs_ne _ _ _ _ _ _ _ (by decide) (by decide)]
      exact diSampled_state m samples hn
    · rw [raiseCount, inc_eject, raise, raiseAs_eject]
    · rw [Counted, raiseCount, inc, incBy, rd_wr_other _ F.FIO_CNT_FAULTS F.FIO_CNT_UNDETERMINED _ _ _ (by decide) rfl rfl (by decide), raise,
        rd_raiseAs_ne _ _ _ _ _ _ _ (by decide) (by decide)]
      exact diSampled_undetermined m samples
    · rw [raiseCount, inc_eject, raise, raiseAs_eject]
      rfl
  · exact ⟨fun n hn => diSampled_state m samples hn, rfl, diSampled_undetermined m samples, rfl, keeps_mono (keeps_diSampled m samples) (by simp)⟩

theorem sampleInputs_bad {samples : List DiSample} {overload : Bool} {m : Mach} (h : diBad m samples overload = true) :
    rd (sampleInputs samples overload m) F.FIO_EVENT_FAULT 0 = 1 ∧ Counted F.FIO_CNT_FAULTS 0 1 m (sampleInputs samples overload m) := by
  rw [sampleInputs_eq, if_pos h]
  refine ⟨?_, ?_⟩
  · rw [raiseCount, rd_inc_ne _ _ _ _ _ (by decide)]
    exact rd_raiseAs_same _ _ _ _ _ (by decide) rfl (by decide)
  · rw [Counted, raiseCount, rd_inc_same _ _ _ (by decide), raise, rd_raiseAs_ne _ _ _ _ _ _ _ (by decide) (by decide), diSampled_faults]

theorem sampleInputs_good {samples : List DiSample} {overload : Bool} {m : Mach} (h : ¬ diBad m samples overload = true) :
    rd (sampleInputs samples overload m) F.FIO_EVENT_FAULT 0 = rd m F.FIO_EVENT_FAULT 0 := by
  rw [sampleInputs_eq, if_neg h]
  exact rd_diSampled_ne m samples F.FIO_EVENT_FAULT (by decide) (by decide)

/-- A sampling window ends (R90). -/
def DiDue (m : Mach) : Prop :=
  m.ctl.earlyApplied = true ∧ ∀ at_ : LTime, m.eject.diAt = some at_ → lessSince m.time.now at_ 1000000 = false

theorem diDue_iff (m : Mach) : DiDue m ↔ ¬ (!m.ctl.earlyApplied || m.eject.diAt.any (fun t => lessSince m.time.now t 1000000)) = true := by
  unfold DiDue
  cases m.eject.diAt <;> simp

theorem diSample_not {samples : List DiSample} {overload : Bool} {m : Mach} (h : ¬ DiDue m) : diSample samples overload m = m :=
  if_pos (not_not.mp (mt (diDue_iff m).mpr h))

/-- The sample, and a wake request where WAKE_DI asks for it (R433). -/
theorem diSample_due {samples : List DiSample} {overload : Bool} {m : Mach} (h : DiDue m) :
    diSample samples overload m = sampleInputs samples overload m ∨ (m.ctl.st ∈ [.standby, .dormant] ∧
      diSample samples overload m = powerRequest .wake (sampleInputs samples overload m)) := by
  unfold diSample
  rw [if_neg ((diDue_iff m).mp h)]
  dsimp only
  split
  · next hw =>
    simp only [Bool.and_eq_true, Bool.or_eq_true, beq_iff_eq] at hw
    exact .inr ⟨by simpa using hw.2, rfl⟩
  · exact .inl rfl

/-- A wake request leaves the inputs as they are (R433). -/
theorem powerRequest_wake_eject (m : Mach) : (powerRequest .wake m).eject = m.eject := by
  unfold powerRequest
  split
  · rfl
  · split
    · rfl
    · unfold tryPower
      dsimp only
      split
      · rfl
      · exact raiseAs_eject _ _ _ _ _

theorem completes_diIgnored {s : State} {samples : List DiSample} {overload : Bool} (h : ¬ DiDue s.mach) :
    Completes (.diSample samples overload) s (fun t => Keeps [] s.mach t ∧ RegsSame s.mach t ∧ t.out = []) :=
  completes_nothing (diSample samples overload) rfl (diSample_not (m := fresh s.mach) h)

theorem completes_diStamped {s : State} {samples : List DiSample} {overload : Bool} (h : DiDue s.mach) :
    Completes (.diSample samples overload) s (fun t => t.eject.diAt = some s.mach.time.now) := by
  have ht := (diTaken_sampleInputs samples overload (fresh s.mach)).diAt
  refine completes_run (diSample samples overload) rfl ?_
  rw [settle_eject]
  obtain hd | ⟨-, hd⟩ := diSample_due (samples := samples) (overload := overload) (m := fresh s.mach) h
  · rw [hd]
    exact ht
  · rw [hd, powerRequest_wake_eject]
    exact ht

/-- A sample outside STANDBY and DORMANT (R55, R56, R391). -/
theorem completes_diSample {s : State} {samples : List DiSample} {overload : Bool} (h : DiDue s.mach) (hst : s.mach.ctl.st ∉ [.standby, .dormant]) :
    Completes (.diSample samples overload) s (fun t => (∀ n < 24, let d := samples.getD n {}
        (ReadsOn d → (rd t F.FIO_DI_STATE 0).testBit n = true ∧ t.eject.wireBreak.getLsbD n = false) ∧
        (ReadsOff d → (rd t F.FIO_DI_STATE 0).testBit n = false ∧
          t.eject.wireBreak.getLsbD n = (decide (d.ua < 300) && s.mach.cfg.early.wbEn.getLsbD n)) ∧
        (¬ ReadsOn d → ¬ ReadsOff d → (rd t F.FIO_DI_STATE 0).testBit n = (rd s.mach F.FIO_DI_STATE 0).testBit n ∧
          t.eject.wireBreak.getLsbD n = s.mach.eject.wireBreak.getLsbD n)) ∧
      (let bad := t.eject.wireBreak ≠ 0 ∨ s.mach.eject.limitNew = true ∨ s.mach.eject.fieldBad = true ∨ overload = true
       (bad → rd t F.FIO_EVENT_FAULT 0 = 1 ∧ Counted F.FIO_CNT_FAULTS 0 1 s.mach t) ∧
       (¬ bad → rd t F.FIO_EVENT_FAULT 0 = rd s.mach F.FIO_EVENT_FAULT 0)) ∧
      Counted F.FIO_CNT_UNDETERMINED 0 ((List.range 24).countP (fun n => let d := samples.getD n {}
        !decide (11000 ≤ d.mv) && !(decide (d.mv ≤ 5000) && (decide (500 ≤ d.ua) || decide (d.ua < 300))))) s.mach t ∧
      t.eject.diAt = some s.mach.time.now ∧ Keeps [.eject, .host] s.mach t) := by
  have hsame : diSample samples overload (fresh s.mach) = sampleInputs samples overload (fresh s.mach) :=
    (diSample_due (m := fresh s.mach) h).resolve_right fun hd => hst hd.1
  obtain ⟨hstate, hwb, hcount, hat, hkeep⟩ := diTaken_sampleInputs samples overload (fresh s.mach)
  have hbad : diBad (fresh s.mach) samples overload = true ↔ (diSampled (fresh s.mach) samples).eject.wireBreak ≠ 0 ∨ s.mach.eject.limitNew = true ∨
      s.mach.eject.fieldBad = true ∨ overload = true := by
    rw [← diSampled_anyBreak]
    simp [diBad, or_assoc]
  have hset : (settle s.mach (sampleInputs samples overload (fresh s.mach))).eject.wireBreak = (diSampled (fresh s.mach) samples).eject.wireBreak := by
    rw [settle_eject]
    exact hwb
  refine completes_run (diSample samples overload) rfl ?_
  rw [hsame]
  refine ⟨fun n hn => ?_, ⟨fun hb => ?_, fun hb => ?_⟩, ?_, ?_, keeps_settle (keeps_trans (keeps_fresh _ _) hkeep)⟩
  · dsimp only
    rw [rd_settle, hset, hstate n hn, diSampled_wireBreak _ _ hn]
    refine ⟨fun ho => ?_, fun ho => ?_, fun h1 h2 => ?_⟩
    · rw [diResult, classify_on _ _ _ ho]
      exact ⟨rfl, rfl⟩
    · rw [diResult, classify_off _ _ _ ho]
      exact ⟨rfl, rfl⟩
    · rw [diResult, classify_held _ _ _ h1 h2]
      exact ⟨rfl, rfl⟩
  · rw [hset] at hb
    obtain ⟨h1, h2⟩ := sampleInputs_bad (hbad.mpr hb)
    exact ⟨(rd_settle _ _ _ _).trans h1, (rd_settle _ _ _ _).trans h2⟩
  · rw [hset] at hb
    exact (rd_settle _ _ _ _).trans (sampleInputs_good (mt hbad.mp hb))
  · rw [diResults_undetermined] at hcount
    exact (rd_settle _ _ _ _).trans hcount
  · rw [settle_eject]
    exact hat

/-! ### FIO_DO_SET -/

theorem completes_doHostBlocked {s : State} {v : Word} (h : ¬ HostMay s.mach ∨ s.mach.ctl.st = .dormant) :
    Completes (.doHostSet v) s (fun t => Keeps [] s.mach t ∧ RegsSame s.mach t ∧ t.out = []) :=
  completes_nothing (doHostSet v) rfl (bar0P_blocked (m := fresh s.mach) h _)

theorem completes_doHostSet {s : State} {v : Word} (hm : HostMay s.mach) (hd : s.mach.ctl.st ≠ .dormant) : Completes (.doHostSet v) s (fun t =>
    rd t F.FIO_DO_SET_SET 0 = v.toNat % 65536 ∧ Keeps [] s.mach t ∧ RegsKeep [F.FIO_DO_SET_SET.addr 0] s.mach t) := by
  have hb : bits v.toNat 0 16 % 2 ^ 16 = v.toNat % 65536 := by simp [bits]
  refine completes_run (doHostSet v) rfl ?_
  rw [doHostSet, bar0P_may (m := fresh s.mach) hm hd]
  refine ⟨?_, keeps_settle (keeps_wr _ _ _ (keeps_fresh _ _)), regsKeep_settle (regsKeep_wr _ _ _ (by simp) (regsKeep_fresh _ _))⟩
  rw [rd_settle, rd_wr_same _ _ _ _ (by decide)]
  exact hb

/-- Settles O54: the lemmas above, command by command. -/
theorem boardsInputsAndOutputs : Obligations.BoardsInputsAndOutputs := by
  unfold Obligations.BoardsInputsAndOutputs
  refine ⟨fun s => ⟨completes_beaconAgain s, completes_beacon s⟩, fun s p frame rt => ⟨completes_statusIgnored, completes_statusBad, completes_status⟩,
    fun s p b => ⟨completes_boardLost, completes_boardStays⟩,
    fun s => ⟨completes_fieldSupplyFault s, completes_fieldSupplyRecovered s, fun n => ⟨completes_limitIgnored, completes_limit⟩⟩,
    fun s samples overload => ⟨completes_diIgnored, completes_diSample, fun h _ => completes_diStamped h⟩,
    fun s v => ⟨completes_doHostBlocked, completes_doHostSet⟩⟩

end Sys2Proof.Machine

/-!
PROOFS. A PCI Express reset with completions that wait for their ring (R79, R338, R445, R449), and the statement O15: a state in which it fails.
-/

namespace Sys2Proof.Machine

/-- A PCI Express reset leaves what `pcieClear` makes of the machine. -/
theorem mach_of_pcieReset {s t : State} (h : exec .pcieReset s = .next t) : t.mach = settle s.mach (pcieClear (fresh s.mach)) := by
  cases h
  rfl

/-- A module in D3hot, a completion of whose queue 256 of context 1 waits for its ring, as no DMA starts there (R338, R445). The ring's vector
is 32. -/
def waitingInD3hot : Mach := {
  ctl := { st := .configured, fnReady := true, powerGood := true, linkTraining := true, d3hot := true }
  fab := {
    queues := [(4352, { st := .enabled, log2Size := 4, pi := 1, ci := 1, waiting := [entryBytes 4352 0 0 0 0 0 0 0] })]
    rings := [(256, { enable := true, log2Size := 4, vector := 32 })] } }

/-- Back in D0 the entry is written; the vector that it is due is masked by the reset, and its pending bit is set. -/
theorem waitingInD3hot_pending : word (pcieClear (fresh waitingInD3hot)) 0 (pbaAddr 32) = 1 := by decide +kernel

/-- Refutes O15: not every word of the HST block is at its reset value after a PCI Express reset. The reset clears them, the pending bits
included, and only then brings the function back to D0; entries that waited go to their rings there, and an entry that is due its vector sets
the vector's pending bit anew, as the cleared table masks every vector (R449). -/
theorem not_pcieFunctionResetsAndPowerStates : ¬ Obligations.PcieFunctionResetsAndPowerStates := by
  unfold Obligations.PcieFunctionResetsAndPowerStates
  intro ⟨_, h, _⟩
  obtain ⟨t, ht, -, -, -, -, hwords, -⟩ := h { mach := waitingInD3hot } .pcieReset rfl (Or.inl rfl)
  have hpending := hwords 0 (pbaAddr 32) (by decide)
  rw [mach_of_pcieReset ht, word_settle, waitingInD3hot_pending] at hpending
  cases hpending

end Sys2Proof.Machine

/-!
PROOFS. Requests for partial resets (R81 to R83), and the statement O23.
-/

namespace Sys2Proof.Machine

/-- The items that a kind has (R81). -/
def itemCount : ItemKind → Nat
  | .tiller => 8
  | .awn => 8
  | .intake => 16
  | .sheaf => 16

/-- The command that asks for the partial reset of an item. -/
def partialResetCmd (k : ItemKind) (key : BitVec 8) (n : BitVec 4) : Instr :=
  match k with
  | .tiller => .tillerPartialReset key n
  | .intake => .intakePortPartialReset key n
  | .sheaf => .sheafPortPartialReset key n
  | .awn => .awnPortPartialReset key n

theorem exec_partialResetCmd (k : ItemKind) (key : BitVec 8) (n : BitVec 4) (s : State) :
    exec (partialResetCmd k key n) s = s.run (partialRequest k key n.toNat) := by cases k <;> rfl

/-- A request that is ignored and counted: its item is in reset or off, or a warm reset is in progress (R82). -/
def ResetIgnored (m : Mach) (k : ItemKind) (n : Nat) : Prop :=
  resetting m k n = true ∨ m.ctl.warmDue = true ∨ m.ctl.st = .dormant ∨ (m.ctl.st = .standby ∧ (k = .tiller ∨ k = .intake))

/-- The item has joined the resets, as requested now (R81). -/
def resetJoined (m : Mach) (k : ItemKind) (n : Nat) : Mach := setCtl m (fun c => { c with resets := c.resets ++
  [{ kind := k, item := n, phase := .requested, at_ := m.time.now, tick := m.ctl.tickCount }] })

/-! ### What a request does -/

theorem partialRequest_nothing {m : Mach} (hm : HostMay m) {k : ItemKind} {key : BitVec 8} {n : Nat}
    (h : key ≠ 0x5A ∨ itemCount k ≤ n ∨ m.ctl.st = .fault) : partialRequest k key n m = m := by
  unfold partialRequest
  rw [bar0_may hm]
  refine if_pos ?_
  rcases h with h | h | h
  · simp [show ¬ key = 90#8 from h]
  · cases k <;> simp_all [itemCount]
  · simp [h]

section
variable {m : Mach} {k : ItemKind} {n : Nat} (hm : HostMay m) (hn : n < itemCount k) (hf : m.ctl.st ≠ .fault)
include hm hn hf

theorem partialRequest_counts (h : ResetIgnored m k n) : partialRequest k 0x5A n m = inc m F.GEN_RESET_CAUSE_IGNORED 0 := by
  unfold partialRequest
  rw [bar0_may hm]
  refine (if_neg ?_).trans (if_pos ?_)
  · cases k <;> simpa [hf, itemCount] using hn
  · rcases h with h | h | h | ⟨h, rfl | rfl⟩ <;> simp [h]

theorem partialRequest_joins (h : ¬ ResetIgnored m k n) : partialRequest k 0x5A n m =
    if m.ctl.st = .standby then partialEffect (resetJoined m k n) k n else resetJoined m k n := by
  unfold partialRequest
  rw [bar0_may hm]
  refine (if_neg ?_).trans (if_neg ?_)
  · cases k <;> simpa [hf, itemCount] using hn
  · simp only [ResetIgnored, not_or, not_and, Bool.not_eq_true] at h
    obtain ⟨hr, hw, hd, hs⟩ := h
    simpa [hr, hw, hd] using hs

end

/-! ### A reset that takes effect at once (R81) -/

theorem ctl_notePower (m0 m : Mach) : (notePower m0 m).ctl = m.ctl := ctl_of_fixed (fixed_notePower m0 m)

/-- Alignment that a lost port ends leaves the state and the resets of the module (R185). -/
theorem alignPortLost_resets (m : Mach) (p : Nat) : (alignPortLost m p).ctl.st = m.ctl.st ∧ (alignPortLost m p).ctl.resets = m.ctl.resets := by
  unfold alignPortLost alignFail alignState
  split
  · split <;> simp
  · exact ⟨rfl, rfl⟩

theorem resetSheaf_resets (m : Mach) (p : Nat) : (resetSheaf m p).ctl.st = m.ctl.st ∧ (resetSheaf m p).ctl.resets = m.ctl.resets := by
  have h : ∀ m, (clearLink (startTraining m p .off false) p).ctl = m.ctl := fun m => ctl_of_fixed (by simp)
  obtain ⟨hst, hr⟩ := alignPortLost_resets (setPort (clearLink (startTraining m p .off false) p) p _) p
  exact ⟨hst.trans (congrArg Ctl.st (h m)), hr.trans (congrArg Ctl.resets (h m))⟩

/-- A port's reset taken outside RUNNING is in reset, and the module stays in its state. -/
theorem partialEffect_port {m : Mach} {k : ItemKind} {n : Nat} (hr : m.ctl.st ≠ .running) (hk : k = .sheaf ∨ k = .awn)
    (hj : resetting m k n = true) : phaseIs (partialEffect m k n) k n .inReset = true ∧ (partialEffect m k n).ctl.st = m.ctl.st := by
  have hreset : ∃ u : Mach, u.ctl.st = m.ctl.st ∧ u.ctl.resets = m.ctl.resets ∧
      partialEffect m k n = if u.ctl.st = .running then decideState (setPhase u k n .inReset) else setPhase u k n .inReset := by
    rcases hk with rfl | rfl
    · obtain ⟨hst, hres⟩ := resetSheaf_resets m n
      exact ⟨notePower m (resetSheaf m n), by rw [ctl_notePower, hst], by rw [ctl_notePower, hres], rfl⟩
    · have hc : (notePower m (resetAwn m n)).ctl = m.ctl := (ctl_notePower _ _).trans (ctl_of_fixed (fixed_resetAwn m n))
      exact ⟨notePower m (resetAwn m n), congrArg Ctl.st hc, congrArg Ctl.resets hc, rfl⟩
  obtain ⟨u, hst, hres, he⟩ := hreset
  rw [he, if_neg (by rwa [hst])]
  refine ⟨?_, hst⟩
  simp only [resetting, List.any_eq_true, Bool.and_eq_true, beq_iff_eq] at hj
  obtain ⟨r, hmem, rfl, rfl⟩ := hj
  simp only [phaseIs, setPhase, setCtl_ctl, hres, List.any_map, List.any_eq_true]
  exact ⟨r, hmem, by simp⟩

/-! ### The statement -/

theorem resetting_resetJoined (m : Mach) (k : ItemKind) (n : Nat) : resetting (resetJoined m k n) k n = true := by
  simp [resetting, resetJoined]

theorem completes_resetNothing {s : State} {k : ItemKind} {key : BitVec 8} {n : BitVec 4} (hm : HostMay s.mach)
    (h : key ≠ 0x5A ∨ itemCount k ≤ n.toNat ∨ s.mach.ctl.st = .fault) :
    Completes (partialResetCmd k key n) s (fun t => Keeps [] s.mach t ∧ RegsSame s.mach t) :=
  completes_mono (completes_nothing _ (exec_partialResetCmd k key n s) (partialRequest_nothing (m := fresh s.mach) hm h)) fun _ ⟨hk, hr, _⟩ => ⟨hk, hr⟩

section
variable {s : State} {k : ItemKind} {n : BitVec 4} (hm : HostMay s.mach) (hn : n.toNat < itemCount k) (hf : s.mach.ctl.st ≠ .fault)
include hm hn hf

theorem completes_resetIgnored (h : ResetIgnored s.mach k n.toNat) : Completes (partialResetCmd k 0x5A n) s (fun t =>
    Counted F.GEN_RESET_CAUSE_IGNORED 0 1 s.mach t ∧ RegsKeep [F.GEN_RESET_CAUSE_IGNORED.addr 0] s.mach t ∧ Keeps [] s.mach t) := by
  refine completes_run _ (exec_partialResetCmd k 0x5A n s) ?_
  rw [partialRequest_counts (m := fresh s.mach) hm hn hf h]
  refine ⟨?_, regsKeep_settle (regsKeep_inc _ _ (by simp) (regsKeep_fresh _ _)), keeps_settle (keeps_trans (keeps_fresh _ _) (keeps_inc _ _ _ _))⟩
  rw [Counted, rd_settle, rd_inc_same _ _ _ (by decide), rd_fresh]

theorem completes_resetJoins (h : ¬ ResetIgnored s.mach k n.toNat) (hs : s.mach.ctl.st ≠ .standby) :
    Completes (partialResetCmd k 0x5A n) s (fun t => t.ctl = { s.mach.ctl with resets := s.mach.ctl.resets ++
      [{ kind := k, item := n.toNat, phase := .requested, at_ := s.mach.time.now, tick := s.mach.ctl.tickCount }] } ∧
        Keeps [.ctl] s.mach t ∧ RegsSame s.mach t) := by
  refine completes_run _ (exec_partialResetCmd k 0x5A n s) ?_
  rw [(partialRequest_joins (m := fresh s.mach) hm hn hf h).trans (if_neg hs)]
  exact ⟨by simp [resetJoined], keeps_settle (keeps_trans (keeps_fresh _ _) (keeps_setCtl _ _)), by simp [RegsSame, resetJoined]⟩

theorem completes_resetAtOnce (h : ¬ ResetIgnored s.mach k n.toNat) (hs : s.mach.ctl.st = .standby) (hk : k = .sheaf ∨ k = .awn) :
    Completes (partialResetCmd k 0x5A n) s (fun t => phaseIs t k n.toNat .inReset = true ∧ t.ctl.st = .standby) := by
  refine completes_run _ (exec_partialResetCmd k 0x5A n s) ?_
  rw [(partialRequest_joins (m := fresh s.mach) hm hn hf h).trans (if_pos hs)]
  obtain ⟨hphase, hst⟩ := partialEffect_port (m := resetJoined (fresh s.mach) k n.toNat)
    (by simp [resetJoined, hs]) hk (resetting_resetJoined (fresh s.mach) k n.toNat)
  exact ⟨by simpa [phaseIs] using hphase, by simpa [resetJoined, hs] using hst⟩

end

/-- Settles O23: a lemma above for each outcome of a request. -/
theorem partialResetsAreRequested : Obligations.PartialResetsAreRequested := by
  unfold Obligations.PartialResetsAreRequested
  intro req top s k n hm
  have hreq : req = partialResetCmd := by funext k; cases k <;> rfl
  have htop : top = itemCount := by funext k; cases k <;> rfl
  rw [hreq, htop]
  refine ⟨fun hn hf => ⟨completes_resetIgnored hm hn hf, fun hr hw hd hs => ?_, fun hr hw hs hk => ?_⟩, fun _ => completes_resetNothing hm⟩
  · exact completes_resetJoins hm hn hf (by simp [ResetIgnored, hr, hw, hd, hs]) hs
  · exact completes_resetAtOnce hm hn hf (by rcases hk with rfl | rfl <;> simp [ResetIgnored, hr, hw, hs]) hs hk

end Sys2Proof.Machine

/-!
PROOFS. Line packets (R78, R171, R464), and the statement O39.
-/

namespace Sys2Proof.Machine

/-! ### What a packet may touch -/

/-- The register words in which a port's packets show: INT_PORT_EVENT and INT_PORT_CNT0 to CNT2. -/
def packetRegs (p : Nat) : List Nat := [F.INT_PORT_EVENT_CRC_ERR.addr p, F.INT_PORT_CNT0_CRC_ERR.addr p, F.INT_PORT_CNT1_HDR_ERR.addr p,
  F.INT_PORT_CNT2_CAM_ERR.addr p]

/-- An event of a port and its counter. -/
structure PortEvent where
  flag : Fld
  count : Fld

def hdrErr : PortEvent := ⟨F.INT_PORT_EVENT_HDR_ERR, F.INT_PORT_CNT1_HDR_ERR⟩
def lateLine : PortEvent := ⟨F.INT_PORT_EVENT_LATE, F.INT_PORT_CNT0_LATE⟩
def lateArrived : PortEvent := ⟨F.INT_PORT_EVENT_LATE_ARRIVED, F.INT_PORT_CNT2_LATE_ARRIVED⟩
def unexpected : PortEvent := ⟨F.INT_PORT_EVENT_UNEXPECTED, F.INT_PORT_CNT1_UNEXPECTED⟩
def crcErr : PortEvent := ⟨F.INT_PORT_EVENT_CRC_ERR, F.INT_PORT_CNT0_CRC_ERR⟩
def camErr : PortEvent := ⟨F.INT_PORT_EVENT_CAM_ERR, F.INT_PORT_CNT2_CAM_ERR⟩
def earlyDrop : PortEvent := ⟨F.INT_PORT_EVENT_EARLY_DROP, F.INT_PORT_CNT1_EARLY_DROP⟩

/-- The events that packets and deadlines raise. -/
def packetEvents : List PortEvent := [hdrErr, lateLine, lateArrived, unexpected, crcErr, camErr, earlyDrop]

/-- The event is raised and counted. -/
def noteEvent (e : PortEvent) (m : Mach) (p : Nat) : Mach := raiseCount m e.flag e.count p

/-- Neither flag nor counter of an event shares a bit with a field. -/
def eventApart (p : Nat) (g : Fld) (e : PortEvent) : Bool := fieldApart e.flag p g p && fieldApart e.count p g p

theorem packetEvents_fields : ∀ p : Fin 16, ∀ e ∈ packetEvents, e.flag.fits = true ∧ e.count.fits = true ∧ e.flag.w = 1 ∧
    e.flag.addr p ∈ packetRegs p ∧ e.count.addr p ∈ packetRegs p ∧ vectorOf e.flag p = 13 ∧ e.count.addr p ≠ e.flag.addr p := by decide

theorem packetRegs_high : ∀ p : Fin 16, ∀ a ∈ packetRegs p, pbaAddr 13 < a := by decide

/-- What a packet keeps of other ports and of the machine. -/
structure PacketFrame (p : Fin 16) (m t : Mach) : Prop where
  others : ∀ q : Fin 16, q ≠ p → ipOf t q = ipOf m q ∧ portOf t q = portOf m q
  lineCount : (ipOf t p).lineCount = (ipOf m p).lineCount
  drain : (ipOf t p).drain = (ipOf m p).drain
  vectors : ∀ o ∈ t.out, o ∈ m.out ∨ ∃ v, o = .msix v
  parts : Keeps [.sheaf, .intake, .host] m t

/-- Of a port's events, `es` may have been raised; its lines and its received flits may have changed, and nothing else. -/
structure PacketKept (es : List PortEvent) (p : Fin 16) (m t : Mach) : Prop extends PacketFrame p m t where
  regs : RegsKeep (packetRegs p) m t
  fields : ∀ g : Fld, g.addr p ∈ packetRegs p → es.all (eventApart p g) = true → rd t g p = rd m g p

theorem PacketFrame.trans {p : Fin 16} {m t u : Mach} (h : PacketFrame p m t) (k : PacketFrame p t u) : PacketFrame p m u where
  others q hq := ⟨(k.others q hq).1.trans (h.others q hq).1, (k.others q hq).2.trans (h.others q hq).2⟩
  lineCount := k.lineCount.trans h.lineCount
  drain := k.drain.trans h.drain
  vectors o ho := (k.vectors o ho).elim (h.vectors o) .inr
  parts := keeps_trans h.parts k.parts

theorem packetFrame_inc (p : Fin 16) (m : Mach) (f : Fld) (i : Nat) : PacketFrame p m (inc m f i) where
  others _ _ := ⟨rfl, rfl⟩
  lineCount := rfl
  drain := rfl
  vectors _ ho := .inl ho
  parts := keeps_inc _ m f i

section
variable {es : List PortEvent} {p : Fin 16} {m t : Mach}

theorem PacketKept.refl (es : List PortEvent) (p : Fin 16) (m : Mach) : PacketKept es p m m :=
  ⟨⟨fun _ _ => ⟨rfl, rfl⟩, rfl, rfl, fun _ h => .inl h, keeps_refl _ _⟩, regsKeep_refl _ _, fun _ _ _ => rfl⟩

theorem PacketKept.trans {u : Mach} (h : PacketKept es p m t) (k : PacketKept es p t u) : PacketKept es p m u where
  toPacketFrame := h.toPacketFrame.trans k.toPacketFrame
  regs := regsKeep_trans h.regs k.regs
  fields g ha hg := (k.fields g ha hg).trans (h.fields g ha hg)

theorem PacketKept.mono {fs : List PortEvent} (h : PacketKept es p m t) (hs : ∀ e ∈ es, e ∈ fs) : PacketKept fs p m t :=
  { h with fields := fun g ha hg => h.fields g ha (List.all_eq_true.mpr fun e he => List.all_eq_true.mp hg e (hs e he)) }

theorem PacketKept.cfg (h : PacketKept es p m t) : t.cfg = m.cfg := h.parts .cfg (by decide)
theorem PacketKept.time (h : PacketKept es p m t) : t.time = m.time := h.parts .time (by decide)

theorem packetKept_setIp (es : List PortEvent) (p : Fin 16) (m : Mach) (f : IntakePort → IntakePort)
    (hl : (f (ipOf m p)).lineCount = (ipOf m p).lineCount) (hd : (f (ipOf m p)).drain = (ipOf m p).drain) : PacketKept es p m (setIp m p f) where
  others q hq := ⟨ipOf_setIp_ne m f (fun h => hq (Fin.ext h)), rfl⟩
  lineCount := by rw [ipOf_setIp_same, hl]
  drain := by rw [ipOf_setIp_same, hd]
  vectors _ ho := .inl ho
  parts q hq := by
    cases q
    case intake => simp at hq
    all_goals rfl
  regs := regsKeep_of_regs rfl
  fields _ _ _ := rd_congr rfl _ _

theorem packetKept_setPort (es : List PortEvent) (p : Fin 16) (m : Mach) (f : SheafPort → SheafPort) : PacketKept es p m (setPort m p f) where
  others q hq := ⟨rfl, portOf_setPort_ne m f (fun h => hq (Fin.ext h))⟩
  lineCount := rfl
  drain := rfl
  vectors _ ho := .inl ho
  parts := keeps_mono (keeps_setPort m p f) (by simp)
  regs := regsKeep_of_regs rfl
  fields _ _ _ := rd_congr rfl _ _

end

/-! ### Events raised and counted -/

@[simp] theorem ipOf_noteEvent (e : PortEvent) (m : Mach) (p q : Nat) : ipOf (noteEvent e m p) q = ipOf m q := by simp [ipOf, noteEvent]
@[simp] theorem portOf_noteEvent (e : PortEvent) (m : Mach) (p q : Nat) : portOf (noteEvent e m p) q = portOf m q := portOf_of_sheaf (raiseCount_sheaf _ _ _ _) q
@[simp] theorem camOf_noteEvent (e : PortEvent) (m : Mach) (p q : Nat) : camOf (noteEvent e m p) q = camOf m q := by simp [camOf, noteEvent]

theorem rd_noteEvent_apart {e : PortEvent} {g : Fld} {p : Fin 16} (m : Mach) (he : e ∈ packetEvents) (ha : g.addr p ∈ packetRegs p)
    (h : eventApart p g e = true) : rd (noteEvent e m p) g p = rd m g p := by
  obtain ⟨hf, hc⟩ := Bool.and_eq_true_iff.mp h
  obtain ⟨-, -, -, -, -, hv, -⟩ := packetEvents_fields p e he
  exact (rd_wr_apart _ _ hc).trans (rd_raiseAs_apart m p 0 (by rw [hv]; exact (packetRegs_high p _ ha).ne') hf)

theorem packetKept_noteEvent {e : PortEvent} (he : e ∈ packetEvents) (p : Fin 16) (m : Mach) : PacketKept [e] p m (noteEvent e m p) where
  others q _ := ⟨ipOf_noteEvent e m p q, portOf_noteEvent e m p q⟩
  lineCount := by rw [ipOf_noteEvent]
  drain := by rw [ipOf_noteEvent]
  vectors o ho := by
    rw [noteEvent, raiseCount, inc_out] at ho
    exact raiseAs_out_vectors _ _ _ _ _ _ ho
  parts := keeps_mono (keeps_raiseCount m _ _ _) (by simp)
  regs := by
    obtain ⟨-, -, -, hf, hc, hv, -⟩ := packetEvents_fields p e he
    exact regsKeep_inc _ _ hc (regsKeep_raiseAs _ _ _ _ hf (by rw [hv]; decide) (regsKeep_refl _ m))
  fields g ha hg := rd_noteEvent_apart m he ha (by simpa using hg)

/-- An event noted reads 1, and its counter has counted up. -/
theorem noteEvent_counts {e : PortEvent} (he : e ∈ packetEvents) (p : Fin 16) (m : Mach) :
    rd (noteEvent e m p) e.flag p = 1 ∧ Counted e.count p 1 m (noteEvent e m p) := by
  obtain ⟨hf, hc, hw, hfa, hca, hv, hne⟩ := packetEvents_fields p e he
  have hp : ∀ a ∈ packetRegs p, a ≠ pbaAddr (vectorOf e.flag p) := fun a ha => by rw [hv]; exact (packetRegs_high p a ha).ne'
  refine ⟨?_, ?_⟩
  · rw [noteEvent, raiseCount, rd_inc_ne _ _ _ _ _ hne.symm]
    exact rd_raiseAs_same _ _ _ _ _ hf hw (hp _ hfa)
  · rw [Counted, noteEvent, raiseCount, rd_inc_same _ _ _ hc, raise, rd_raiseAs_ne _ _ _ _ _ _ _ (hp _ hca) hne]

/-! ### Check 1: headers (R171, R464) -/

/-- The flits from the first one on whose header is good. -/
def goodFlits (c : CamPort) (p : Nat) (fs : List (List Byte)) : List (List Byte) := fs.dropWhile (fun f => !headerOk c p f)

/-- What the drop of bad flits leaves: HDR_ERR is noted once a run. -/
structure HeadersDropped (p : Fin 16) (fs : List (List Byte)) (m t : Mach) : Prop where
  kept : PacketKept [hdrErr] p m t
  port : portOf t p = portOf m p
  ip : ipOf t p = { ipOf m p with hdrRun := decide (goodFlits (camOf m p) p fs = []) }
  noted : (goodFlits (camOf m p) p fs).length < fs.length → (ipOf m p).hdrRun = false → rd t F.INT_PORT_EVENT_HDR_ERR p = 1 ∧
    Counted F.INT_PORT_CNT1_HDR_ERR p 1 m t
  regs : goodFlits (camOf m p) p fs = fs ∨ (ipOf m p).hdrRun = true → t.regs = m.regs

theorem goodFlits_length (c : CamPort) (p : Nat) (fs : List (List Byte)) : (goodFlits c p fs).length ≤ fs.length :=
  (List.dropWhile_sublist _).length_le

theorem dropHeaders_snd (p : Nat) (fs : List (List Byte)) (m : Mach) : (dropHeaders m p fs).2 = goodFlits (camOf m p) p fs := by
  induction fs generalizing m with
  | nil => rfl
  | cons f fs ih =>
    have hc : ∀ e g, camOf (raiseCount (setIp m p g) e F.INT_PORT_CNT1_HDR_ERR p) p = camOf m p := fun e g => by simp [camOf, setIp]
    unfold dropHeaders
    by_cases hf : headerOk (camOf m p) p f = true
    · simp [goodFlits, hf]
    · rw [if_neg hf]
      dsimp only
      rw [ih]
      simp only [goodFlits, List.dropWhile_cons, hf, Bool.not_false, if_true]
      split
      · rfl
      · rw [hc]

/-- Within a run of bad flits no event is noted. -/
theorem dropHeaders_run (p : Fin 16) (fs : List (List Byte)) (m : Mach) (h : (ipOf m p).hdrRun = true) : HeadersDropped p fs m (dropHeaders m p fs).1 := by
  induction fs with
  | nil => exact ⟨.refl _ p m, rfl, by simp [dropHeaders, goodFlits, ← h], fun hl => absurd hl (by simp [goodFlits]), fun _ => rfl⟩
  | cons f fs ih =>
    unfold dropHeaders
    by_cases hf : headerOk (camOf m p) p f = true
    · rw [if_pos hf]
      exact ⟨packetKept_setIp _ p m _ rfl rfl, rfl, by simp [goodFlits, hf], fun hl => absurd hl (by simp [goodFlits, hf]), fun _ => rfl⟩
    · have hg : goodFlits (camOf m p) p (f :: fs) = goodFlits (camOf m p) p fs := by simp [goodFlits, hf]
      rw [if_neg hf, if_pos h]
      exact ⟨ih.kept, ih.port, hg ▸ ih.ip, fun _ hr => absurd hr (by simp [h]), fun _ => ih.regs (.inr h)⟩

theorem dropHeaders_facts (p : Fin 16) {fs : List (List Byte)} (hfs : fs ≠ []) (m : Mach) : HeadersDropped p fs m (dropHeaders m p fs).1 := by
  by_cases h : (ipOf m p).hdrRun = true
  · exact dropHeaders_run p fs m h
  obtain ⟨f, fs, rfl⟩ := List.exists_cons_of_ne_nil hfs
  unfold dropHeaders
  by_cases hf : headerOk (camOf m p) p f = true
  · rw [if_pos hf]
    exact ⟨packetKept_setIp _ p m _ rfl rfl, rfl, by simp [goodFlits, hf], fun hl => absurd hl (by simp [goodFlits, hf]), fun _ => rfl⟩
  · rw [if_neg hf, if_neg h]
    have hrun : (ipOf (noteEvent hdrErr (setIp m p (fun i => { i with hdrRun := true })) p) p) = { ipOf m p with hdrRun := true } := by simp
    have hd := dropHeaders_run p fs (noteEvent hdrErr (setIp m p (fun i => { i with hdrRun := true })) p) (by rw [hrun])
    have hcam : camOf (noteEvent hdrErr (setIp m p (fun i => { i with hdrRun := true })) p) p = camOf m p := camOf_noteEvent _ _ _ _
    have hg : goodFlits (camOf m p) p (f :: fs) = goodFlits (camOf m p) p fs := by simp [goodFlits, hf]
    have hk : PacketKept [hdrErr] p m (noteEvent hdrErr (setIp m p (fun i => { i with hdrRun := true })) p) :=
      (packetKept_setIp _ p m (fun i => { i with hdrRun := true }) rfl rfl).trans (packetKept_noteEvent (by simp [packetEvents]) p _)
    obtain ⟨hflag, hcount⟩ := noteEvent_counts (e := hdrErr) (by simp [packetEvents]) p (setIp m p (fun i => { i with hdrRun := true }))
    refine ⟨hk.trans hd.kept, hd.port.trans (portOf_noteEvent _ _ _ _), ?_, fun _ _ => ?_, fun hr => ?_⟩
    · rw [hg, ← hcam]
      exact hd.ip.trans (by rw [hrun])
    · have hregs := hd.regs (.inr (by rw [hrun]))
      refine ⟨(rd_congr hregs _ _).trans hflag, ?_⟩
      rw [Counted]
      exact (rd_congr hregs _ _).trans hcount
    · rw [hg] at hr
      have hlen := goodFlits_length (camOf m p) p fs
      rcases hr with hr | hr
      · rw [hr] at hlen
        simp at hlen
      · exact absurd hr h

/-! ### Deadlines that have passed (R171 check 2, R172) -/

theorem settleLine_fst (m : Mach) (p : Nat) (ln : Line) : ∃ bands, (settleLine m p ln false).1 = setIp m p (fun i => { i with prevBands := bands }) ∨
    (settleLine m p ln false).1 = setIp (noteEvent lateLine m p) p (fun i => { i with prevBands := bands }) := by
  unfold settleLine
  extract_lets c missing late filled i bands m1
  refine ⟨bands, ?_⟩
  simp only [m1]
  split
  · exact .inr rfl
  · exact .inl rfl

theorem packetKept_settleLine (p : Fin 16) (m : Mach) (ln : Line) : PacketKept [lateLine] p m (settleLine m p ln false).1 := by
  obtain ⟨bands, h | h⟩ := settleLine_fst m p ln <;> rw [h]
  · exact packetKept_setIp _ p m _ rfl rfl
  · exact (packetKept_noteEvent (by simp [packetEvents]) p m).trans (packetKept_setIp _ p _ _ rfl rfl)

theorem settleLine_port (p : Nat) (m : Mach) (ln : Line) : ∃ bands, ipOf (settleLine m p ln false).1 p = { ipOf m p with prevBands := bands } ∧
    portOf (settleLine m p ln false).1 p = portOf m p := by
  obtain ⟨bands, h | h⟩ := settleLine_fst m p ln <;> rw [h]
  · exact ⟨bands, by simp, rfl⟩
  · exact ⟨bands, by simp, portOf_noteEvent _ _ _ _⟩

theorem settleAll_port (p : Fin 16) (ls : List Line) (m : Mach) : PacketKept [lateLine] p m (settleAll p false ls m).1 ∧
    (∃ bands, ipOf (settleAll p false ls m).1 p = { ipOf m p with prevBands := bands }) ∧ portOf (settleAll p false ls m).1 p = portOf m p := by
  induction ls generalizing m with
  | nil => exact ⟨.refl _ p m, ⟨_, rfl⟩, rfl⟩
  | cons ln ls ih =>
    unfold settleAll
    extract_lets a b
    have ha : PacketKept [lateLine] p m a.1 ∧ (∃ bands, ipOf a.1 p = { ipOf m p with prevBands := bands }) ∧ portOf a.1 p = portOf m p := by
      simp only [a]
      split
      · exact ⟨.refl _ p m, ⟨_, rfl⟩, rfl⟩
      · obtain ⟨bands, hi, hp⟩ := settleLine_port p m ln
        exact ⟨packetKept_settleLine p m ln, ⟨bands, hi⟩, hp⟩
    obtain ⟨hk, ⟨_, hi⟩, hp⟩ := ha
    obtain ⟨hk', ⟨bands, hi'⟩, hp'⟩ := ih a.1
    exact ⟨hk.trans hk', ⟨bands, by rw [hi', hi]⟩, hp'.trans hp⟩

theorem settleLine_congr {m t : Mach} {p : Nat} (hc : camOf t p = camOf m p) (hb : (ipOf t p).prevBands = (ipOf m p).prevBands) (ln : Line) :
    (settleLine t p ln false).2 = (settleLine m p ln false).2 ∧
      (ipOf (settleLine t p ln false).1 p).prevBands = (ipOf (settleLine m p ln false).1 p).prevBands := by
  unfold settleLine
  simp only [hc, hb, ipOf_setIp_same, true_and]

/-- Lines are settled by the port's configuration and its previous line alone (R173). -/
theorem settleAll_congr (p : Fin 16) (ls : List Line) {m t : Mach} (hc : camOf t p = camOf m p) (hb : (ipOf t p).prevBands = (ipOf m p).prevBands) :
    (settleAll p false ls t).2 = (settleAll p false ls m).2 := by
  induction ls generalizing m t with
  | nil => rfl
  | cons ln ls ih =>
    have hcam : ∀ u : Mach, camOf (settleLine u p ln false).1 p = camOf u p := fun u => congrArg (fun c => c.camera.ports.getD p {}) (packetKept_settleLine p u ln).cfg
    obtain ⟨h2, hb'⟩ := settleLine_congr hc hb ln
    unfold settleAll
    dsimp only
    split
    · rw [ih hc hb]
    · rw [h2, ih (by rw [hcam, hcam, hc]) hb']

theorem overdue_congr {m t : Mach} {p : Nat} (hc : camOf t p = camOf m p) (ht : t.time = m.time) : overdue t p = overdue m p := by
  funext l
  unfold overdue deadline
  rw [hc, ht]

/-- The lines of a port once those whose deadlines have passed are settled. -/
def settledFill (m : Mach) (p : Nat) : List Line :=
  if (ipOf m p).inReset then (ipOf m p).fill
  else
    let k := ((ipOf m p).fill.takeWhile (fun l => l.closed || overdue m p l)).length
    (settleAll p false ((ipOf m p).fill.take k) m).2 ++ (ipOf m p).fill.drop k

theorem settledFill_congr {m t : Mach} {p : Fin 16} (hc : t.cfg = m.cfg) (ht : t.time = m.time) (hf : (ipOf t p).fill = (ipOf m p).fill)
    (hr : (ipOf t p).inReset = (ipOf m p).inReset) (hb : (ipOf t p).prevBands = (ipOf m p).prevBands) : settledFill t p = settledFill m p := by
  have hcam : camOf t p = camOf m p := by rw [camOf, hc, camOf]
  unfold settledFill
  rw [hr, hf, overdue_congr hcam ht]
  dsimp only
  rw [settleAll_congr p _ hcam hb]

theorem passDeadlines_facts (p : Fin 16) (m : Mach) : PacketKept [lateLine] p m (passDeadlines m p) ∧
    (∃ bands, ipOf (passDeadlines m p) p = { ipOf m p with prevBands := bands, fill := settledFill m p }) ∧
      portOf (passDeadlines m p) p = portOf m p := by
  unfold passDeadlines settledFill
  dsimp only
  split
  · exact ⟨.refl _ p m, ⟨_, rfl⟩, rfl⟩
  · unfold settleFirst
    dsimp only
    generalize ((ipOf m p).fill.takeWhile (fun l => l.closed || overdue m p l)).length = k
    obtain ⟨hk, ⟨bands, hi⟩, hp⟩ := settleAll_port p ((ipOf m p).fill.take k) m
    exact ⟨hk.trans (packetKept_setIp _ p _ _ rfl rfl), ⟨bands, by rw [ipOf_setIp_same, hi]⟩, hp⟩


/-! ### A framed packet (R171 checks 2 to 5) -/

theorem find?_onLine (no : BitVec 32) {f : Line → Line} (hf : ∀ l, (f l).lineNo = l.lineNo) (ls : List Line) :
    (onLine no f ls).find? (fun l => l.lineNo == no) = (ls.find? (fun l => l.lineNo == no)).map f := by
  induction ls with
  | nil => rfl
  | cons l ls ih =>
    by_cases h : l.lineNo = no
    · simp [onLine, h, hf]
    · simpa [onLine, h] using ih

/-- A line of a port is changed. -/
def changeLine (m : Mach) (p : Nat) (no : BitVec 32) (f : Line → Line) : Mach := setIp m p (fun i => { i with fill := onLine no f i.fill })

/-- One line of a port has been changed by `f`, and no other. -/
structure LineChanged (p : Nat) (no : BitVec 32) (f : Line → Line) (m t : Mach) : Prop where
  length : (ipOf t p).fill.length = (ipOf m p).fill.length
  others : ∀ (k : Nat) (x : Line), (ipOf m p).fill[k]? = some x → x.lineNo ≠ no → (ipOf t p).fill[k]? = some x
  line : ∀ l, (ipOf m p).fill.find? (fun l => l.lineNo == no) = some l → (ipOf t p).fill.find? (fun l => l.lineNo == no) = some (f l)

theorem lineChanged_onLine {m t : Mach} {p : Nat} {no : BitVec 32} {f : Line → Line} (hf : ∀ l, (f l).lineNo = l.lineNo)
    (h : (ipOf t p).fill = onLine no f (ipOf m p).fill) : LineChanged p no f m t where
  length := by simp [h, onLine]
  others k x hx hn := by
    rw [h, onLine, List.getElem?_map, hx]
    exact congrArg some (if_neg hn)
  line l hl := by rw [h, find?_onLine no hf, hl, Option.map_some]

/-- The number of the line that a packet is of, and its band (R167). -/
def packetLine (b : List Byte) : BitVec 32 := BitVec.ofNat 32 (leAt b 4 4)
def packetBand (b : List Byte) : Nat := bits (leAt b 3 1) 0 3

/-- A band that was received bad counts as filled, its line as BAD (R171 checks 4 and 5). -/
def bandBad (band : Nat) (l : Line) : Line :=
  { l with got := l.got ||| (1#6 <<< band), filled := l.filled ||| (1#6 <<< band), mark := if l.mark = .good then .bad else l.mark }

/-- A band is stored (R171). -/
def bandStored (c : CamPort) (b : List Byte) (l : Line) : Line :=
  { l with
    got := l.got ||| (1#6 <<< packetBand b)
    bands := (List.range c.bands).map (fun k => if k = packetBand b then unpackLine c (slice b 16 (payloadBytes c)) else l.bands.getD k []) }

theorem bandStored_bands (c : CamPort) (b : List Byte) (l : Line) (k : Nat) (hk : k < c.bands) : (bandStored c b l).bands.getD k [] =
    if k = packetBand b then unpackLine c (slice b 16 (payloadBytes c)) else l.bands.getD k [] := by
  simp [bandStored, hk]

/-- CRC-32 over header and payload is the packet's (R167). -/
abbrev packetCrcOk (c : CamPort) (b : List Byte) : Prop := crc32 (slice b 0 (16 + payloadBytes c)) = leAt b (16 + payloadBytes c) 4

section
variable {m : Mach} {p : Nat} {b : List Byte}

theorem takePacket_inReset (h : (ipOf m p).inReset = true) : takePacket m p b = noteEvent unexpected m p := if_pos h

variable (h : (ipOf m p).inReset = false)
include h

theorem takePacket_unknown (hl : (ipOf m p).fill.find? (fun l => l.lineNo == packetLine b) = none) :
    takePacket m p b = if packetLine b ∈ (ipOf m p).recent then noteEvent lateArrived m p else noteEvent unexpected m p := by
  unfold packetLine at hl
  unfold takePacket
  simp only [h, hl, Bool.false_eq_true, if_false, List.contains_iff_mem]
  rfl

variable {l : Line} (hl : (ipOf m p).fill.find? (fun l => l.lineNo == packetLine b) = some l)
include hl

theorem takePacket_late (hs : l.sent = true) (hc : l.closed = true) : takePacket m p b = noteEvent lateArrived m p := by
  unfold packetLine at hl
  unfold takePacket
  simp only [h, hl, hs, hc, Bool.false_eq_true, Bool.not_true, if_false, if_true]
  rfl

theorem takePacket_unexpected (hu : l.sent = false ∨ (l.closed = false ∧ (l.count.toNat ≠ leAt b 8 6 ∨ l.got.getLsbD (packetBand b) = true))) :
    takePacket m p b = noteEvent unexpected m p := by
  unfold packetLine at hl
  unfold packetBand at hu
  unfold takePacket
  simp only [h, hl, Bool.false_eq_true, if_false]
  by_cases hs : l.sent = true
  · obtain ⟨hc, hx⟩ := hu.resolve_left (by simp [hs])
    simp only [hs, hc, Bool.not_true, Bool.false_eq_true, if_false]
    exact if_pos (by simpa using hx)
  · simp only [hs, Bool.not_false, if_true]
    rfl

variable (hs : l.sent = true) (hc : l.closed = false) (hn : l.count.toNat = leAt b 8 6) (hg : l.got.getLsbD (packetBand b) = false)
include hs hc hn hg

theorem takePacket_open : takePacket m p b =
    if crc32 (slice b 0 (16 + payloadBytes (camOf m p))) ≠ leAt b (16 + payloadBytes (camOf m p)) 4 then
      noteEvent crcErr (changeLine m p (packetLine b) (bandBad (packetBand b))) p
    else if bitOf (leAt b 3 1) 6 then noteEvent camErr (changeLine m p (packetLine b) (bandBad (packetBand b))) p
    else changeLine m p (packetLine b) (bandStored (camOf m p) b) := by
  unfold packetLine at hl
  unfold packetBand at hg
  unfold takePacket
  simp only [h, hl, hs, hc, hn, hg, Bool.false_eq_true, Bool.not_true, if_false, ne_eq, not_true_eq_false, decide_false, Bool.or_self]
  rfl

end

/-! ### The command -/

/-- The flits of a port's next packet on, once those with a bad header are dropped. -/
def nextFlits (m : Mach) (p : Nat) : List (List Byte) := goodFlits (camOf m p) p (portOf m p).rxLine

/-- The machine once flits with a bad header are dropped. -/
def headersDone (m : Mach) (p : Nat) : Mach := setPort (dropHeaders m p (portOf m p).rxLine).1 p (fun s => { s with rxLine := nextFlits m p })

/-- The machine once the next packet is taken off its port. -/
def framed (m : Mach) (p : Nat) : Mach :=
  setPort (headersDone m p) p (fun s => { s with rxLine := (nextFlits m p).drop (packetFlits (camOf m p)) })

/-- The next packet of a port. -/
def nextPacket (m : Mach) (p : Nat) : List Byte := ((nextFlits m p).take (packetFlits (camOf m p))).flatten

theorem packetFlits_pos (c : CamPort) : 0 < packetFlits c := by
  unfold packetFlits cdiv
  omega

section
variable {m : Mach} {p : Nat}

theorem linePacket_empty (h : (portOf m p).rxLine = []) : linePacket p m = m := by simp [linePacket, h]

theorem linePacket_early (h : (portOf m p).rxLine ≠ []) (hh : m.ctl.cameraApplied = false ∨ (portOf m p).phy = .hold) : ∃ k > 0, linePacket p m =
    noteEvent earlyDrop (inc (setPort m p (fun s => { s with rxLine := s.rxLine.drop k })) F.GEN_EARLY_DROP_CAMERA 0) p := by
  unfold linePacket
  extract_lets fs b c m1
  rw [if_neg (by simpa using h), if_pos (by simpa using hh)]
  exact ⟨packetFlits c, packetFlits_pos c, rfl⟩

variable (h : (portOf m p).rxLine ≠ []) (ha : m.ctl.cameraApplied = true) (hh : (portOf m p).phy ≠ .hold)
include h ha hh

theorem linePacket_noCamera (hc : cameraPort m p = false) : linePacket p m = setPort m p (fun s => { s with rxLine := [] }) := by
  simp [linePacket, h, ha, hh, hc]

theorem linePacket_camera (hc : cameraPort m p = true) : linePacket p m =
    if (nextFlits m p).length < packetFlits (camOf m p) ∨ (nextFlits m p).isEmpty then headersDone m p
    else takePacket (passDeadlines (framed m p) p) p (nextPacket m p) := by
  have hcam : ∀ u : Mach, fixed u = fixed m → camOf u p = camOf m p := fun u hu => congrArg (fun c => c.camera.ports.getD p {}) (cfg_of_fixed hu)
  unfold linePacket
  extract_lets fs b c m1 r m2 n
  have hn : n = packetFlits (camOf m p) := congrArg packetFlits (hcam m2 (by simp [m2, r]))
  have hr : r.2 = nextFlits m p := dropHeaders_snd p fs m
  have hm2 : m2 = headersDone m p := congrArg (fun xs => setPort r.1 p (fun s => { s with rxLine := xs })) hr
  rw [if_neg (by simpa using h), if_neg (by simp [ha, hh]), if_neg (by simp [hc]), hn, hr, hm2]
  rfl

theorem linePacket_waits (hc : cameraPort m p = true) (hw : nextFlits m p = [] ∨ (nextFlits m p).length < packetFlits (camOf m p)) :
    linePacket p m = headersDone m p := by
  rw [linePacket_camera h ha hh hc, if_pos (hw.symm.imp id List.isEmpty_iff.mpr)]

theorem linePacket_takes (hc : cameraPort m p = true) (hr : nextFlits m p ≠ []) (hn : packetFlits (camOf m p) ≤ (nextFlits m p).length) :
    linePacket p m = takePacket (passDeadlines (framed m p) p) p (nextPacket m p) := by
  rw [linePacket_camera h ha hh hc, if_neg (not_or.mpr ⟨Nat.not_lt.mpr hn, fun he => hr (List.isEmpty_iff.mp he)⟩)]

end

/-- What a packet keeps, as the statement says it. -/
theorem PacketFrame.settled {p : Fin 16} {m t : Mach} (h : PacketFrame p (fresh m) t) :
    (∀ q : Fin 16, q ≠ p → ipOf (settle m t) q = ipOf m q ∧ portOf (settle m t) q = portOf m q) ∧
      (ipOf (settle m t) p).lineCount = (ipOf m p).lineCount ∧ (ipOf (settle m t) p).drain = (ipOf m p).drain ∧ OnlyVectors (settle m t) ∧
      Keeps [.sheaf, .intake, .host] m (settle m t) := by
  refine ⟨fun q hq => ?_, ?_, ?_, fun o ho => ?_, keeps_settle (keeps_trans (keeps_fresh _ _) h.parts)⟩
  · rw [ipOf_settle, portOf_settle]
    exact h.others q hq
  · rw [ipOf_settle]
    exact h.lineCount
  · rw [ipOf_settle]
    exact h.drain
  · rw [settle_out] at ho
    exact (h.vectors o ho).resolve_left List.not_mem_nil

/-- The way of a port's flits up to the next packet: what is left, and HDR_ERR once a run. -/
theorem headersDone_facts (p : Fin 16) {m : Mach} (h : (portOf m p).rxLine ≠ []) : PacketKept [hdrErr] p m (headersDone m p) ∧
    (portOf (headersDone m p) p).rxLine = nextFlits m p ∧ ipOf (headersDone m p) p = { ipOf m p with hdrRun := decide (nextFlits m p = []) } ∧
    ((nextFlits m p).length < (portOf m p).rxLine.length → (ipOf m p).hdrRun = false → rd (headersDone m p) F.INT_PORT_EVENT_HDR_ERR p = 1 ∧
      Counted F.INT_PORT_CNT1_HDR_ERR p 1 m (headersDone m p)) ∧
    (nextFlits m p = (portOf m p).rxLine ∨ (ipOf m p).hdrRun = true → (headersDone m p).regs = m.regs) := by
  have hd := dropHeaders_facts p h m
  exact ⟨hd.kept.trans (packetKept_setPort _ p _ _), by simp [headersDone], hd.ip, hd.noted, hd.regs⟩

/-- The events that a framed packet may raise. -/
def framedEvents : List PortEvent := [lateArrived, unexpected, crcErr, camErr]

theorem framedEvents_sub : ∀ e ∈ framedEvents, e ∈ packetEvents := by simp [framedEvents, packetEvents]

theorem framedEvents_apart : ∀ p : Fin 16,
    (∀ g ∈ [F.INT_PORT_EVENT_HDR_ERR, F.INT_PORT_CNT1_HDR_ERR], g.addr p ∈ packetRegs p ∧ (lateLine :: framedEvents).all (eventApart p g) = true) ∧
      ∀ e ∈ framedEvents, e.count.addr p ∈ packetRegs p ∧ [hdrErr, lateLine].all (eventApart p e.count) = true := by decide

/-- The machine as a framed packet meets it: deadlines that have passed have acted. -/
def packetMet (m : Mach) (p : Nat) : Mach := passDeadlines (framed m p) p

section
variable {p : Fin 16} {m : Mach} (h : (portOf m p).rxLine ≠ []) (hr : nextFlits m p ≠ [])
include h hr

theorem framed_facts : PacketKept [hdrErr] p m (framed m p) ∧ (portOf (framed m p) p).rxLine = (nextFlits m p).drop (packetFlits (camOf m p)) ∧
    ipOf (framed m p) p = { ipOf m p with hdrRun := false } ∧
    ((nextFlits m p).length < (portOf m p).rxLine.length → (ipOf m p).hdrRun = false → rd (framed m p) F.INT_PORT_EVENT_HDR_ERR p = 1 ∧
      Counted F.INT_PORT_CNT1_HDR_ERR p 1 m (framed m p)) := by
  obtain ⟨hk, -, hi, hn, -⟩ := headersDone_facts p h
  exact ⟨hk.trans (packetKept_setPort _ p _ _), by simp [framed], hi.trans (by simp [hr]), hn⟩

theorem packetMet_facts : PacketKept [hdrErr, lateLine] p m (packetMet m p) ∧
    (portOf (packetMet m p) p).rxLine = (nextFlits m p).drop (packetFlits (camOf m p)) ∧
    (∃ bands, ipOf (packetMet m p) p = { ipOf m p with hdrRun := false, prevBands := bands, fill := settledFill m p }) ∧
    ((nextFlits m p).length < (portOf m p).rxLine.length → (ipOf m p).hdrRun = false → rd (packetMet m p) F.INT_PORT_EVENT_HDR_ERR p = 1 ∧
      Counted F.INT_PORT_CNT1_HDR_ERR p 1 m (packetMet m p)) := by
  obtain ⟨hk, hx, hi, hn⟩ := framed_facts h hr
  obtain ⟨hk', ⟨bands, hi'⟩, hp'⟩ := passDeadlines_facts p (framed m p)
  have hfill : settledFill (framed m p) p = settledFill m p := settledFill_congr hk.cfg hk.time (by rw [hi]) (by rw [hi]) (by rw [hi])
  have hsame : ∀ g ∈ [F.INT_PORT_EVENT_HDR_ERR, F.INT_PORT_CNT1_HDR_ERR], rd (packetMet m p) g p = rd (framed m p) g p := fun g hg => by
    obtain ⟨ha, hb⟩ := (framedEvents_apart p).1 g hg
    exact hk'.fields g ha (by simp only [List.all_cons, Bool.and_eq_true] at hb ⊢; exact ⟨hb.1, rfl⟩)
  refine ⟨(hk.mono (by simp)).trans (hk'.mono (by simp)), by rw [packetMet, hp', hx], ⟨bands, by rw [packetMet, hi', hi, hfill]⟩, fun hl hrun => ?_⟩
  obtain ⟨h1, h2⟩ := hn hl hrun
  rw [Counted, hsame _ (by simp), hsame _ (by simp)]
  exact ⟨h1, h2⟩

/-- A framed packet's outcome on the machine that it meets, told of the machine before the command. -/
theorem packetTaken_facts {u : Mach} (hk : PacketKept framedEvents p (packetMet m p) u) (hx : portOf u p = portOf (packetMet m p) p)
    (hi : (ipOf u p).hdrRun = (ipOf (packetMet m p) p).hdrRun) : (∃ es, PacketKept es p m u) ∧
    (portOf u p).rxLine = (nextFlits m p).drop (packetFlits (camOf m p)) ∧ (ipOf u p).hdrRun = false ∧
    ((nextFlits m p).length < (portOf m p).rxLine.length → (ipOf m p).hdrRun = false → rd u F.INT_PORT_EVENT_HDR_ERR p = 1 ∧
      Counted F.INT_PORT_CNT1_HDR_ERR p 1 m u) := by
  obtain ⟨hk0, hx0, ⟨_, hi0⟩, hn0⟩ := packetMet_facts h hr
  have hsame : ∀ g ∈ [F.INT_PORT_EVENT_HDR_ERR, F.INT_PORT_CNT1_HDR_ERR], rd u g p = rd (packetMet m p) g p := fun g hg => by
    obtain ⟨ha, hb⟩ := (framedEvents_apart p).1 g hg
    exact hk.fields g ha (by rw [List.all_cons, Bool.and_eq_true] at hb; exact hb.2)
  refine ⟨⟨[hdrErr, lateLine] ++ framedEvents, (hk0.mono (by simp)).trans (hk.mono fun e he => List.mem_append_right _ he)⟩,
    by rw [hx, hx0], by rw [hi, hi0], fun hl hrun => ?_⟩
  obtain ⟨h1, h2⟩ := hn0 hl hrun
  rw [Counted, hsame _ (by simp), hsame _ (by simp)]
  exact ⟨h1, h2⟩

/-- An event's counter stands as after the passing of deadlines alone. -/
theorem count_packetMet {e : PortEvent} (he : e ∈ framedEvents) {n : Mach} (hregs : n.regs = m.regs) :
    rd (packetMet m p) e.count p = rd (passDeadlines n p) e.count p := by
  obtain ⟨ha, hb⟩ := (framedEvents_apart p).2 e he
  have hlate : [lateLine].all (eventApart p e.count) = true := by
    rw [List.all_cons, Bool.and_eq_true] at hb
    exact hb.2
  rw [(packetMet_facts h hr).1.fields _ ha hb, (passDeadlines_facts p n).1.fields _ ha hlate]
  exact (rd_congr hregs _ _).symm

end

/-- A packet meets its port as the passing of deadlines alone leaves it, but for the run of bad headers. -/
theorem packetMet_port {p : Fin 16} {m : Mach} (h : (portOf m p).rxLine ≠ []) (hr : nextFlits m p ≠ []) :
    (ipOf (packetMet (fresh m) p) p).fill = (ipOf (passDeadlines m p) p).fill ∧
      (ipOf (packetMet (fresh m) p) p).inReset = (ipOf (passDeadlines m p) p).inReset ∧
      (ipOf (packetMet (fresh m) p) p).recent = (ipOf (passDeadlines m p) p).recent ∧ camOf (packetMet (fresh m) p) p = camOf m p := by
  obtain ⟨hk, -, ⟨_, hi⟩, -⟩ := packetMet_facts (m := fresh m) h hr
  obtain ⟨-, ⟨_, hi'⟩, -⟩ := passDeadlines_facts p m
  rw [hi, hi', camOf, hk.cfg]
  exact ⟨settledFill_congr rfl rfl rfl rfl rfl, rfl, rfl, rfl⟩

theorem packetMet_fill {p : Fin 16} {m : Mach} (h : (portOf m p).rxLine ≠ []) (hr : nextFlits m p ≠ []) :
    (ipOf (packetMet (fresh m) p) p).fill = (ipOf (passDeadlines m p) p).fill := (packetMet_port h hr).1

/-! ### What the command does -/

theorem exec_linePacket (s : State) (p : Fin 16) : exec (.linePacket p) s = s.run (linePacket p) := rfl

/-- What the statement says of every packet: other ports, the count of lines and the port's processed lines stay, and vectors alone are sent. -/
def PacketSettled (s : State) (p : Fin 16) (t : Mach) : Prop :=
  (∀ q : Fin 16, q ≠ p → ipOf t q = ipOf s.mach q ∧ portOf t q = portOf s.mach q) ∧
    (ipOf t p).lineCount = (ipOf s.mach p).lineCount ∧ (ipOf t p).drain = (ipOf s.mach p).drain ∧ OnlyVectors t ∧
    Keeps [.sheaf, .intake, .host] s.mach t

/-- HDR_ERR is noted once in a run of flits with a bad header (R171 check 1). -/
def HdrErrNoted (s : State) (p : Fin 16) (t : Mach) : Prop :=
  (nextFlits s.mach p).length < (portOf s.mach p).rxLine.length → (ipOf s.mach p).hdrRun = false →
    rd t F.INT_PORT_EVENT_HDR_ERR p = 1 ∧ Counted F.INT_PORT_CNT1_HDR_ERR p 1 s.mach t

theorem hdrErrNoted_settle {s : State} {p : Fin 16} {u : Mach} (h : (nextFlits s.mach p).length < (portOf s.mach p).rxLine.length →
    (ipOf s.mach p).hdrRun = false → rd u F.INT_PORT_EVENT_HDR_ERR p = 1 ∧ Counted F.INT_PORT_CNT1_HDR_ERR p 1 (fresh s.mach) u) :
    HdrErrNoted s p (settle s.mach u) := by
  intro hl hr
  rw [Counted, rd_settle, rd_settle]
  exact h hl hr

theorem completes_noPacket {s : State} {p : Fin 16} (h : (portOf s.mach p).rxLine = []) :
    Completes (.linePacket p) s (fun t => Keeps [] s.mach t ∧ RegsSame s.mach t ∧ t.out = []) :=
  completes_nothing _ (exec_linePacket s p) (linePacket_empty h)

/-- The words of a port's events and of the camera drops of GEN are apart (R78). -/
theorem earlyDropCamera_apart : ∀ p : Fin 16, ∀ a ∈ packetRegs p, a ≠ F.GEN_EARLY_DROP_CAMERA.addr 0 := by decide

section
variable {s : State} {p : Fin 16} (h : (portOf s.mach p).rxLine ≠ [])
include h

theorem completes_earlyDrop (hh : s.mach.ctl.cameraApplied = false ∨ (portOf s.mach p).phy = .hold) : Completes (.linePacket p) s (fun t =>
    rd t F.INT_PORT_EVENT_EARLY_DROP p = 1 ∧ Counted F.INT_PORT_CNT1_EARLY_DROP p 1 s.mach t ∧ Counted F.GEN_EARLY_DROP_CAMERA 0 1 s.mach t ∧
      ipOf t p = ipOf s.mach p ∧ (∃ k > 0, (portOf t p).rxLine = (portOf s.mach p).rxLine.drop k) ∧ PacketSettled s p t ∧
      RegsKeep (F.GEN_EARLY_DROP_CAMERA.addr 0 :: packetRegs p) s.mach t) := by
  obtain ⟨k, hk, he⟩ := linePacket_early (m := fresh s.mach) h hh
  have hev : earlyDrop ∈ packetEvents := by simp [packetEvents]
  refine completes_run _ (exec_linePacket s p) ?_
  rw [he]
  generalize hd : setPort (fresh s.mach) p (fun s => { s with rxLine := s.rxLine.drop k }) = d
  have hreg : d.regs = s.mach.regs := by rw [← hd]; rfl
  have hdrop : (portOf d p).rxLine = (portOf s.mach p).rxLine.drop k := by rw [← hd]; simp
  have hframe : PacketFrame p (fresh s.mach) d := hd ▸ (packetKept_setPort [] p (fresh s.mach) _).toPacketFrame
  have hkept := packetKept_noteEvent hev p (inc d F.GEN_EARLY_DROP_CAMERA 0)
  obtain ⟨hflag, hcount⟩ := noteEvent_counts hev p (inc d F.GEN_EARLY_DROP_CAMERA 0)
  obtain ⟨-, -, -, -, hca, -, -⟩ := packetEvents_fields p earlyDrop hev
  have hgen : rd (noteEvent earlyDrop (inc d F.GEN_EARLY_DROP_CAMERA 0) p) F.GEN_EARLY_DROP_CAMERA 0 = rd (inc d F.GEN_EARLY_DROP_CAMERA 0) F.GEN_EARLY_DROP_CAMERA 0 :=
    rd_of_regsKeep hkept.regs _ _ (fun ha => earlyDropCamera_apart p _ ha rfl) (by decide)
  refine ⟨(rd_settle _ _ _ _).trans hflag, ?_, ?_, ?_, ⟨k, hk, ?_⟩, ((hframe.trans (packetFrame_inc p d _ _)).trans hkept.toPacketFrame).settled, ?_⟩
  · rw [Counted, rd_settle, ← rd_congr hreg, ← rd_inc_ne d F.GEN_EARLY_DROP_CAMERA F.INT_PORT_CNT1_EARLY_DROP 0 p (earlyDropCamera_apart p _ hca)]
    exact hcount
  · rw [Counted, rd_settle, hgen, rd_inc_same _ _ _ (by decide), rd_congr hreg]
  · rw [ipOf_settle, ipOf_noteEvent, ← hd]
    rfl
  · rw [portOf_settle, portOf_noteEvent]
    exact hdrop
  · refine regsKeep_settle (regsKeep_trans (regsKeep_inc _ _ (by simp) (regsKeep_of_regs hreg)) (regsKeep_more hkept.regs ?_))
    exact fun a ha => List.mem_cons_of_mem _ ha

variable (ha : s.mach.ctl.cameraApplied = true) (hh : (portOf s.mach p).phy ≠ .hold)
include ha hh

theorem completes_noCameraPort (hc : cameraPort s.mach p = false) : Completes (.linePacket p) s (fun t => (portOf t p).rxLine = [] ∧
    PacketSettled s p t ∧ ipOf t p = ipOf s.mach p ∧ RegsSame s.mach t ∧ t.out = []) := by
  refine completes_run _ (exec_linePacket s p) ?_
  rw [linePacket_noCamera (m := fresh s.mach) h ha hh hc]
  refine ⟨by simp, (packetKept_setPort [] p _ _).settled, by rw [ipOf_settle]; rfl, by rw [RegsSame, settle_regs]; rfl, by rw [settle_out]; rfl⟩

variable (hc : cameraPort s.mach p = true)
include hc

/-- A packet of which not all flits have come waits; those with a bad header are gone. -/
theorem completes_packetWaits (hw : nextFlits s.mach p = [] ∨ (nextFlits s.mach p).length < packetFlits (camOf s.mach p)) :
    Completes (.linePacket p) s (fun t => (portOf t p).rxLine = nextFlits s.mach p ∧ (ipOf t p).hdrRun = decide (nextFlits s.mach p = []) ∧
      (ipOf t p).fill = (ipOf s.mach p).fill ∧ PacketSettled s p t ∧ HdrErrNoted s p t ∧
      (nextFlits s.mach p = (portOf s.mach p).rxLine ∨ (ipOf s.mach p).hdrRun = true → RegsSame s.mach t) ∧ RegsKeep (packetRegs p) s.mach t) := by
  refine completes_run _ (exec_linePacket s p) ?_
  rw [linePacket_waits (m := fresh s.mach) h ha hh hc hw]
  obtain ⟨hk, hx, hi, hn, hs⟩ := headersDone_facts (m := fresh s.mach) p h
  have hi' : ipOf (settle s.mach (headersDone (fresh s.mach) p)) p = _ := (ipOf_settle _ _ _).trans hi
  refine ⟨by rw [portOf_settle, hx]; rfl, by rw [hi']; rfl, by rw [hi']; rfl, hk.settled, hdrErrNoted_settle hn, fun hr => ?_, regsKeep_settle hk.regs⟩
  rw [RegsSame, settle_regs]
  exact hs hr

/-- A packet has been taken off its port, with the outcome `P`. -/
def PacketDone (s : State) (p : Fin 16) (P : Mach → Prop) : Prop :=
  Completes (.linePacket p) s (fun t => (portOf t p).rxLine = (nextFlits s.mach p).drop (packetFlits (camOf s.mach p)) ∧ (ipOf t p).hdrRun = false ∧
    PacketSettled s p t ∧ RegsKeep (packetRegs p) s.mach t ∧ HdrErrNoted s p t ∧ P t)

variable (hr : nextFlits s.mach p ≠ []) (hn : packetFlits (camOf s.mach p) ≤ (nextFlits s.mach p).length)
include hr hn

theorem packetDone {u : Mach} (hu : takePacket (packetMet (fresh s.mach) p) p (nextPacket s.mach p) = u)
    (hk : PacketKept framedEvents p (packetMet (fresh s.mach) p) u) (hx : portOf u p = portOf (packetMet (fresh s.mach) p) p)
    (hi : (ipOf u p).hdrRun = (ipOf (packetMet (fresh s.mach) p) p).hdrRun) {P : Mach → Prop} (hP : P (settle s.mach u)) : PacketDone s p P := by
  obtain ⟨⟨es, hk'⟩, hx', hi', hn'⟩ := packetTaken_facts (m := fresh s.mach) h hr hk hx hi
  refine completes_run _ (exec_linePacket s p) ?_
  rw [(linePacket_takes (m := fresh s.mach) h ha hh hc hr hn).trans hu]
  exact ⟨by rw [portOf_settle, hx']; rfl, by rw [ipOf_settle, hi'], hk'.settled, regsKeep_settle hk'.regs, hdrErrNoted_settle hn', hP⟩

/-- One event is noted, and the lines stay as the deadlines left them. -/
theorem packetDone_noted {e : PortEvent} (he : e ∈ framedEvents)
    (hu : takePacket (packetMet (fresh s.mach) p) p (nextPacket s.mach p) = noteEvent e (packetMet (fresh s.mach) p) p) :
    PacketDone s p (fun t => (ipOf t p).fill = (ipOf (passDeadlines s.mach p) p).fill ∧ rd t e.flag p = 1 ∧
      Counted e.count p 1 (passDeadlines s.mach p) t) := by
  have hev := framedEvents_sub e he
  obtain ⟨hflag, hcount⟩ := noteEvent_counts hev p (packetMet (fresh s.mach) p)
  refine packetDone h ha hh hc hr hn hu ((packetKept_noteEvent hev p _).mono (by simpa using he)) (portOf_noteEvent _ _ _ _) (by rw [ipOf_noteEvent]) ?_
  refine ⟨?_, (rd_settle _ _ _ _).trans hflag, ?_⟩
  · rw [ipOf_settle, ipOf_noteEvent, packetMet_fill h hr]
  · rw [Counted, rd_settle, ← count_packetMet (m := fresh s.mach) (n := s.mach) h hr he rfl]
    exact hcount

/-- The packet's line is changed. -/
theorem packetDone_changed {f : Line → Line} (hf : ∀ l, (f l).lineNo = l.lineNo)
    (hu : takePacket (packetMet (fresh s.mach) p) p (nextPacket s.mach p) =
      changeLine (packetMet (fresh s.mach) p) p (packetLine (nextPacket s.mach p)) f) :
    PacketDone s p (LineChanged p (packetLine (nextPacket s.mach p)) f (passDeadlines s.mach p)) := by
  refine packetDone h ha hh hc hr hn hu (packetKept_setIp _ p _ _ rfl rfl) rfl (by rw [changeLine, ipOf_setIp_same]) (lineChanged_onLine hf ?_)
  rw [ipOf_settle, changeLine, ipOf_setIp_same, ← packetMet_fill h hr]

/-- The packet's line is changed, and one event is noted. -/
theorem packetDone_changedNoted {f : Line → Line} (hf : ∀ l, (f l).lineNo = l.lineNo) {e : PortEvent} (he : e ∈ framedEvents)
    (hu : takePacket (packetMet (fresh s.mach) p) p (nextPacket s.mach p) =
      noteEvent e (changeLine (packetMet (fresh s.mach) p) p (packetLine (nextPacket s.mach p)) f) p) :
    PacketDone s p (fun t => LineChanged p (packetLine (nextPacket s.mach p)) f (passDeadlines s.mach p) t ∧ rd t e.flag p = 1 ∧
      Counted e.count p 1 (passDeadlines s.mach p) t) := by
  have hev := framedEvents_sub e he
  obtain ⟨hflag, hcount⟩ := noteEvent_counts hev p (changeLine (packetMet (fresh s.mach) p) p (packetLine (nextPacket s.mach p)) f)
  have hk : PacketKept framedEvents p (packetMet (fresh s.mach) p) (changeLine (packetMet (fresh s.mach) p) p (packetLine (nextPacket s.mach p)) f) :=
    packetKept_setIp _ p _ _ rfl rfl
  refine packetDone h ha hh hc hr hn hu (hk.trans ((packetKept_noteEvent hev p _).mono (by simpa using he))) (portOf_noteEvent _ _ _ _)
    (by rw [ipOf_noteEvent, changeLine, ipOf_setIp_same]) ⟨lineChanged_onLine hf ?_, (rd_settle _ _ _ _).trans hflag, ?_⟩
  · rw [ipOf_settle, ipOf_noteEvent, changeLine, ipOf_setIp_same, ← packetMet_fill h hr]
  · rw [Counted, rd_settle, ← count_packetMet (m := fresh s.mach) (n := s.mach) h hr he rfl]
    exact hcount

end

theorem PacketDone.mono {s : State} {p : Fin 16} {P Q : Mach → Prop} (h : PacketDone s p P) (hpq : ∀ t, P t → Q t) : PacketDone s p Q :=
  completes_mono h fun _ ⟨hx, hi, hf, hk, hn, hp⟩ => ⟨hx, hi, hf, hk, hn, hpq _ hp⟩
/-! ### The packet's outcome by R171's checks, and the statement -/

section
variable {s : State} {p : Fin 16} (h : (portOf s.mach p).rxLine ≠ []) (ha : s.mach.ctl.cameraApplied = true)
  (hh : (portOf s.mach p).phy ≠ .hold) (hc : cameraPort s.mach p = true) (hr : nextFlits s.mach p ≠ [])
  (hn : packetFlits (camOf s.mach p) ≤ (nextFlits s.mach p).length)
include h ha hh hc hr hn

theorem packetDone_inReset (hi : (ipOf (passDeadlines s.mach p) p).inReset = true) : PacketDone s p (fun t =>
    (ipOf t p).fill = (ipOf (passDeadlines s.mach p) p).fill ∧ rd t F.INT_PORT_EVENT_UNEXPECTED p = 1 ∧
      Counted F.INT_PORT_CNT1_UNEXPECTED p 1 (passDeadlines s.mach p) t) := by
  obtain ⟨-, hj, -⟩ := packetMet_port h hr
  exact packetDone_noted (e := unexpected) h ha hh hc hr hn (by simp [framedEvents]) (takePacket_inReset (hj.trans hi))

variable (hi : (ipOf (passDeadlines s.mach p) p).inReset = false)
include hi

theorem packetDone_unknown (hl : (ipOf (passDeadlines s.mach p) p).fill.find? (fun l => l.lineNo == packetLine (nextPacket s.mach p)) = none) :
    (packetLine (nextPacket s.mach p) ∈ (ipOf (passDeadlines s.mach p) p).recent → PacketDone s p (fun t =>
      (ipOf t p).fill = (ipOf (passDeadlines s.mach p) p).fill ∧ rd t F.INT_PORT_EVENT_LATE_ARRIVED p = 1 ∧
        Counted F.INT_PORT_CNT2_LATE_ARRIVED p 1 (passDeadlines s.mach p) t)) ∧
    (packetLine (nextPacket s.mach p) ∉ (ipOf (passDeadlines s.mach p) p).recent → PacketDone s p (fun t =>
      (ipOf t p).fill = (ipOf (passDeadlines s.mach p) p).fill ∧ rd t F.INT_PORT_EVENT_UNEXPECTED p = 1 ∧
        Counted F.INT_PORT_CNT1_UNEXPECTED p 1 (passDeadlines s.mach p) t)) := by
  obtain ⟨hf, hj, hrec, -⟩ := packetMet_port h hr
  have hu := takePacket_unknown (hj.trans hi) (hf ▸ hl)
  rw [hrec] at hu
  exact ⟨fun hm => packetDone_noted (e := lateArrived) h ha hh hc hr hn (by simp [framedEvents]) (hu.trans (if_pos hm)),
    fun hm => packetDone_noted (e := unexpected) h ha hh hc hr hn (by simp [framedEvents]) (hu.trans (if_neg hm))⟩

variable {l : Line} (hl : (ipOf (passDeadlines s.mach p) p).fill.find? (fun l => l.lineNo == packetLine (nextPacket s.mach p)) = some l)
include hl

theorem packetDone_late (hs : l.sent = true) (hcl : l.closed = true) : PacketDone s p (fun t =>
    (ipOf t p).fill = (ipOf (passDeadlines s.mach p) p).fill ∧ rd t F.INT_PORT_EVENT_LATE_ARRIVED p = 1 ∧
      Counted F.INT_PORT_CNT2_LATE_ARRIVED p 1 (passDeadlines s.mach p) t) := by
  obtain ⟨hf, hj, -⟩ := packetMet_port h hr
  exact packetDone_noted (e := lateArrived) h ha hh hc hr hn (by simp [framedEvents]) (takePacket_late (hj.trans hi) (hf ▸ hl) hs hcl)

theorem packetDone_unexpected (hx : l.sent = false ∨ (l.closed = false ∧
      (l.count.toNat ≠ leAt (nextPacket s.mach p) 8 6 ∨ l.got.getLsbD (packetBand (nextPacket s.mach p)) = true))) : PacketDone s p (fun t =>
    (ipOf t p).fill = (ipOf (passDeadlines s.mach p) p).fill ∧ rd t F.INT_PORT_EVENT_UNEXPECTED p = 1 ∧
      Counted F.INT_PORT_CNT1_UNEXPECTED p 1 (passDeadlines s.mach p) t) := by
  obtain ⟨hf, hj, -⟩ := packetMet_port h hr
  exact packetDone_noted (e := unexpected) h ha hh hc hr hn (by simp [framedEvents]) (takePacket_unexpected (hj.trans hi) (hf ▸ hl) hx)

variable (hs : l.sent = true) (hcl : l.closed = false) (hcount : l.count.toNat = leAt (nextPacket s.mach p) 8 6)
  (hg : l.got.getLsbD (packetBand (nextPacket s.mach p)) = false)
include hs hcl hcount hg

omit ha hh hc hn in
theorem packetMet_open : takePacket (packetMet (fresh s.mach) p) p (nextPacket s.mach p) =
    if ¬ packetCrcOk (camOf s.mach p) (nextPacket s.mach p) then
      noteEvent crcErr (changeLine (packetMet (fresh s.mach) p) p (packetLine (nextPacket s.mach p)) (bandBad (packetBand (nextPacket s.mach p)))) p
    else if (leAt (nextPacket s.mach p) 3 1).testBit 6 = true then
      noteEvent camErr (changeLine (packetMet (fresh s.mach) p) p (packetLine (nextPacket s.mach p)) (bandBad (packetBand (nextPacket s.mach p)))) p
    else changeLine (packetMet (fresh s.mach) p) p (packetLine (nextPacket s.mach p)) (bandStored (camOf s.mach p) (nextPacket s.mach p)) := by
  obtain ⟨hf, hj, -, hcam⟩ := packetMet_port h hr
  have hu := takePacket_open (hj.trans hi) (hf ▸ hl) hs hcl hcount hg
  rw [hcam] at hu
  exact hu

theorem packetDone_stored (hcrc : packetCrcOk (camOf s.mach p) (nextPacket s.mach p)) (hcam : (leAt (nextPacket s.mach p) 3 1).testBit 6 = false) :
    PacketDone s p (LineChanged p (packetLine (nextPacket s.mach p)) (bandStored (camOf s.mach p) (nextPacket s.mach p)) (passDeadlines s.mach p)) := by
  have hu := packetMet_open h hr hi hl hs hcl hcount hg
  rw [if_neg (not_not.mpr hcrc), if_neg (by simp [hcam])] at hu
  exact packetDone_changed h ha hh hc hr hn (fun _ => rfl) hu

/-- A band that was received bad: with a wrong CRC that alone is counted, with a good one the camera's error. -/
theorem packetDone_bad (hbad : ¬ packetCrcOk (camOf s.mach p) (nextPacket s.mach p) ∨ (leAt (nextPacket s.mach p) 3 1).testBit 6 = true) :
    PacketDone s p (fun t =>
      LineChanged p (packetLine (nextPacket s.mach p)) (bandBad (packetBand (nextPacket s.mach p))) (passDeadlines s.mach p) t ∧
        (¬ packetCrcOk (camOf s.mach p) (nextPacket s.mach p) →
          rd t F.INT_PORT_EVENT_CRC_ERR p = 1 ∧ Counted F.INT_PORT_CNT0_CRC_ERR p 1 (passDeadlines s.mach p) t) ∧
        (packetCrcOk (camOf s.mach p) (nextPacket s.mach p) →
          rd t F.INT_PORT_EVENT_CAM_ERR p = 1 ∧ Counted F.INT_PORT_CNT2_CAM_ERR p 1 (passDeadlines s.mach p) t)) := by
  have hu := packetMet_open h hr hi hl hs hcl hcount hg
  by_cases hcrc : packetCrcOk (camOf s.mach p) (nextPacket s.mach p)
  · rw [if_neg (not_not.mpr hcrc), if_pos (hbad.resolve_left (not_not.mpr hcrc))] at hu
    exact (packetDone_changedNoted (f := bandBad (packetBand (nextPacket s.mach p))) (e := camErr) h ha hh hc hr hn (fun _ => rfl) (by simp [framedEvents]) hu).mono
      fun _ ⟨hch, hev⟩ => ⟨hch, fun hx => absurd hcrc hx, fun _ => hev⟩
  · rw [if_pos hcrc] at hu
    exact (packetDone_changedNoted (f := bandBad (packetBand (nextPacket s.mach p))) (e := crcErr) h ha hh hc hr hn (fun _ => rfl) (by simp [framedEvents]) hu).mono
      fun _ ⟨hch, hev⟩ => ⟨hch, fun _ => hev, fun hx => absurd hx hcrc⟩

end

theorem packetBand_eq (b : List Byte) : packetBand b = leAt b 3 1 % 8 := by simp [packetBand, bits]

/-- Settles O39, by the checks of R171 in their order. -/
theorem linePacketsFillTheSwath : Obligations.LinePacketsFillTheSwath := by
  unfold Obligations.LinePacketsFillTheSwath
  intro nothing ev s p fs c n r m i counted frame others
  refine ⟨completes_noPacket, completes_earlyDrop, fun h ha hh => ⟨completes_noCameraPort h ha hh, fun hc => ⟨completes_packetWaits h ha hh hc, ?_⟩⟩⟩
  intro hr hn b no band done late unexpected
  have hband : packetBand (nextPacket s.mach p) = band := packetBand_eq b
  refine ⟨packetDone_inReset h ha hh hc hr hn, fun hi => ⟨packetDone_unknown h ha hh hc hr hn hi, fun l hl => ⟨packetDone_late h ha hh hc hr hn hi hl,
    fun hx => packetDone_unexpected h ha hh hc hr hn hi hl (hband ▸ hx), ?_⟩⟩⟩
  intro hs hcl hcount hg crcOk camErr
  refine ⟨fun hcrc hcam => ?_, fun hbad => ?_⟩
  · refine (packetDone_stored h ha hh hc hr hn hi hl hs hcl hcount (hband ▸ hg) hcrc hcam).mono fun t ht => ⟨⟨ht.length, ht.others⟩, _, ht.line l hl, ?_⟩
    rw [← hband]
    exact ⟨rfl, rfl, rfl, hcl, bandStored_bands c b l⟩
  · refine (packetDone_bad h ha hh hc hr hn hi hl hs hcl hcount (hband ▸ hg) hbad).mono fun t ⟨ht, hcrc, hcam⟩ =>
      ⟨⟨ht.length, ht.others⟩, ⟨_, ht.line l hl, ?_⟩, hcrc, hcam⟩
    rw [← hband]
    exact ⟨rfl, rfl, rfl, rfl⟩

end Sys2Proof.Machine

/-!
PROOFS. What resets show of themselves (R79, R83): GEN_RESET_CAUSE, the link going down, and the commands in flight.
-/

namespace Sys2Proof.Machine

/-! ### What a reset shows, and what leaves it as it is -/

/-- What tells of a reset: the word of GEN_RESET_CAUSE, the link going down, the commands in flight, the function's readiness, and when
the watchdog last expired. -/
structure Tally where
  cause : Word
  down : Bool
  flying : List Cmd
  ready : Bool
  dog : Option LTime

def tally (m : Mach) : Tally := ⟨word m 0 0x34, decide (.linkDown ∈ m.out), m.fab.inflight, m.ctl.fnReady, m.ctl.lastWatchdog⟩

/-- A register of another word than GEN_RESET_CAUSE; below and above it by its address alone. -/
@[simp] def besideCause (f : Fld) (i : Nat) : Bool := decide (0x34 < f.base) || f.base + f.stride * i != 0x34

theorem addr_ne_of_besideCause {f : Fld} {i : Nat} (h : besideCause f i = true) : f.addr i ≠ 0x34 := by
  simp only [besideCause, Bool.or_eq_true, decide_eq_true_eq, bne_iff_ne] at h
  unfold Fld.addr
  omega

theorem tally_of {m t : Mach} (hr : t.regs = m.regs) (ho : t.out = m.out) (hf : t.fab.inflight = m.fab.inflight)
    (hc : t.ctl = m.ctl) : tally t = tally m := by simp [tally, word, hr, ho, hf, hc]

@[simp] theorem tally_ite (c : Prop) [Decidable c] (a b : Mach) : tally (if c then a else b) = if c then tally a else tally b := apply_ite tally c a b

theorem tally_forEach {α : Type} {xs : List α} {m : Mach} {f : Mach → α → Mach} (h : ∀ x ∈ xs, ∀ m, tally (f m x) = tally m) :
    tally (forEach xs m f) = tally m := by
  unfold forEach
  induction xs generalizing m with
  | nil => rfl
  | cons x xs ih => rw [List.foldl_cons, ih fun y hy => h y (List.mem_cons_of_mem x hy), h x List.mem_cons_self]

/-- A walk of which each step keeps the tally once no command is in flight. -/
theorem tally_forEach_idle {α : Type} {xs : List α} {m : Mach} {f : Mach → α → Mach} (hi : (tally m).flying = [])
    (h : ∀ x ∈ xs, ∀ m, (tally m).flying = [] → tally (f m x) = tally m) : tally (forEach xs m f) = tally m := by
  unfold forEach
  induction xs generalizing m with
  | nil => rfl
  | cons x xs ih =>
    have hx : tally (f m x) = tally m := h x List.mem_cons_self m hi
    rw [List.foldl_cons, ih (hx ▸ hi) fun y hy => h y (List.mem_cons_of_mem x hy), hx]

@[simp] theorem tally_setCtl (m : Mach) (f : Ctl → Ctl) (hr : ∀ c, (f c).fnReady = c.fnReady)
    (hd : ∀ c, (f c).lastWatchdog = c.lastWatchdog) : tally (setCtl m f) = tally m := by
  simp only [tally, setCtl, hr, hd]
  rfl

@[simp] theorem tally_setFab (m : Mach) (f : Fabric → Fabric) (h : ∀ b, (f b).inflight = b.inflight) : tally (setFab m f) = tally m := by
  simp only [tally, setFab, h]
  rfl

@[simp] theorem tally_setTime (m : Mach) (f : TimeBase → TimeBase) : tally (setTime m f) = tally m := rfl
@[simp] theorem tally_setFuses (m : Mach) (f : Fuses → Fuses) : tally (setFuses m f) = tally m := rfl
@[simp] theorem tally_setNor (m : Mach) (f : Nor → Nor) : tally (setNor m f) = tally m := rfl
@[simp] theorem tally_setEnc (m : Mach) (ch : Nat) (f : EncCh → EncCh) : tally (setEnc m ch f) = tally m := rfl
@[simp] theorem tally_setTrig (m : Mach) (f : Trig → Trig) : tally (setTrig m f) = tally m := rfl
@[simp] theorem tally_setAlign (m : Mach) (f : Align → Align) : tally (setAlign m f) = tally m := rfl
@[simp] theorem tally_setIsp (m : Mach) (f : Isp → Isp) : tally (setIsp m f) = tally m := rfl
@[simp] theorem tally_setChaff (m : Mach) (f : Chaff → Chaff) : tally (setChaff m f) = tally m := rfl
@[simp] theorem tally_setEject (m : Mach) (f : Eject → Eject) : tally (setEject m f) = tally m := rfl
@[simp] theorem tally_setFlash (m : Mach) (f : Flash → Flash) : tally (setFlash m f) = tally m := rfl
@[simp] theorem tally_setGlume (m : Mach) (f : Glume → Glume) : tally (setGlume m f) = tally m := rfl
@[simp] theorem tally_setHost (m : Mach) (f : HostIf → HostIf) : tally (setHost m f) = tally m := rfl
@[simp] theorem tally_setPort (m : Mach) (p : Nat) (f : SheafPort → SheafPort) : tally (setPort m p f) = tally m := rfl
@[simp] theorem tally_setWin (m : Mach) (i : Nat) (f : Window → Window) : tally (setWin m i f) = tally m := rfl
@[simp] theorem tally_setIp (m : Mach) (p : Nat) (f : IntakePort → IntakePort) : tally (setIp m p f) = tally m := rfl
@[simp] theorem tally_setTil (m : Mach) (t : Nat) (f : Tiller → Tiller) : tally (setTil m t f) = tally m := rfl
@[simp] theorem tally_setQue (m : Mach) (q : Nat) (f : Queue → Queue) : tally (setQue m q f) = tally m := rfl
@[simp] theorem tally_setRing (m : Mach) (r : Nat) (f : Ring → Ring) : tally (setRing m r f) = tally m := rfl
@[simp] theorem tally_setCtx (m : Mach) (c : Nat) (f : Ctx → Ctx) : tally (setCtx m c f) = tally m := rfl
@[simp] theorem tally_setBin (m : Mach) (t c h : Nat) (f : Bin → Bin) : tally (setBin m t c h f) = tally m := rfl
@[simp] theorem tally_draw (m : Mach) : tally (draw m).1 = tally m := rfl

@[simp] theorem tally_setWord (m : Mach) (r : Word) {a : Nat} (w : Word) (h : a ≠ 0x34) : tally (setWord m r a w) = tally m := by
  have hw : word (setWord m r a w) 0 0x34 = word m 0 0x34 := tget_tset_ne_default _ _ _ _ h.symm
  simp only [tally, hw]
  rfl

@[simp] theorem tally_wr (m : Mach) (f : Fld) (i v : Nat) (h : besideCause f i = true) : tally (wr m f i v) = tally m :=
  tally_setWord _ _ _ (addr_ne_of_besideCause h)

@[simp] theorem tally_inc (m : Mach) (f : Fld) (i : Nat) (h : besideCause f i = true) : tally (inc m f i) = tally m := tally_wr _ _ _ _ h

theorem tally_emit (m : Mach) {o : Output} (h : o ≠ .linkDown) : tally (emit m o) = tally m := by
  simp [tally, emit, word, h.symm]

@[simp] theorem tally_logEvent (m : Mach) (v b i c : Nat) : tally (logEvent m v b i c) = tally m := tally_of rfl rfl rfl rfl

@[simp] theorem tally_sendVector (m : Mach) (v : Nat) : tally (sendVector m v) = tally m := by
  unfold sendVector
  split
  · exact tally_setWord _ _ _ (by unfold pbaAddr; omega)
  · exact tally_emit _ (by simp)

@[simp] theorem tally_raiseAs (m : Mach) (f : Fld) (i n c : Nat) (h : besideCause f i = true) : tally (raiseAs m f i n c) = tally m := by
  unfold raiseAs
  split
  · rfl
  · rw [tally_sendVector, tally_logEvent, tally_wr _ _ _ _ h]

@[simp] theorem tally_raise (m : Mach) (f : Fld) (i : Nat) (h : besideCause f i = true) : tally (raise m f i) = tally m := tally_raiseAs _ _ _ _ _ h
@[simp] theorem tally_raiseCtx (m : Mach) (f : Fld) (i c : Nat) (h : besideCause f i = true) : tally (raiseCtx m f i c) = tally m :=
  tally_raiseAs _ _ _ _ _ h

@[simp] theorem tally_notePower (m0 m : Mach) : tally (notePower m0 m) = tally m := by simp [notePower, F.PWR_EVENT_STATE_CHANGE]

@[simp] theorem tally_wrs (m : Mach) (i : Nat) (fs : List (Fld × Nat)) (h : (fs.all fun x => besideCause x.1 i) = true) : tally (wrs m i fs) = tally m :=
  tally_forEach fun x hx _ => tally_wr _ _ _ _ (List.all_eq_true.mp h x hx)

@[simp] theorem tally_startProg (m : Mach) : tally (startProg m) = tally m := by simp [startProg]
@[simp] theorem tally_audit (m : Mach) (type ctx : Nat) (pl : List Byte) : tally (audit m type ctx pl) = tally m := by simp [audit, F.FLS_CNT_AUDIT_LOST]

@[simp] theorem tally_enter (m : Mach) (n : ModState) : tally (enter m n) = tally m := by
  unfold enter
  split
  · rfl
  · exact tally_raise _ _ _ rfl

@[simp] theorem tally_enterFault (m : Mach) (cause : Nat) : tally (enterFault m cause) = tally m := by simp [enterFault]

/-! ### Ports, training and flits -/

@[simp] theorem tally_emitFlit (m : Mach) (p : Nat) (f : BitVec 256) : tally (emitFlit m p f) = tally m := by
  unfold emitFlit
  exact (tally_emit _ (by simp)).trans (by simp)

@[simp] theorem tally_sendLctl (m : Mach) (p flags pm : Nat) : tally (sendLctl m p flags pm) = tally m := tally_emitFlit _ _ _

@[simp] theorem tally_sendFrames (m : Mach) (p : Nat) (more : Nat → Nat) : tally (sendFrames m p more) = tally m :=
  tally_forEach fun _ _ _ => tally_emit _ (by simp)

@[simp] theorem tally_startTraining (m : Mach) (p : Nat) (phy : PhyState) (fast : Bool) : tally (startTraining m p phy fast) = tally m := by
  simp [startTraining, F.SHF_PHY_STATUS_LANE_OK, F.SHF_PHY_STATUS_CK_LOCK]

@[simp] theorem tally_lpRequest (m : Mach) (p : Nat) (r : LpReq) : tally (lpRequest m p r) = tally m := by
  unfold lpRequest
  (repeat' split) <;> simp [F.SHF_PHY_EVENT_LP_REFUSED]

@[simp] theorem tally_enterL0 (m : Mach) (p : Nat) : tally (enterL0 m p) = tally m := by
  unfold enterL0
  dsimp only
  split <;> simp [F.SHF_PHY_STATUS_LANE_OK, F.SHF_PHY_STATUS_CK_LOCK, F.SHF_PHY_EVENT_UP]

@[simp] theorem tally_lpExit (m : Mach) (p : Nat) : tally (lpExit m p) = tally m := by
  unfold lpExit
  split <;> simp

@[simp] theorem tally_holdRelease (m : Mach) : tally (holdRelease m) = tally m := tally_forEach fun _ _ _ => by simp

@[simp] theorem tally_pumpFlits (fs : List (BitVec 256)) (m : Mach) (p : Nat) : tally (pumpFlits fs m p) = tally m := by
  induction fs generalizing m with
  | nil => rfl
  | cons f fs ih => simp [pumpFlits, sendSeq, ih]

@[simp] theorem tally_startWrite (m : Mach) (p : Nat) (w : OutWrite) : tally (startWrite m p w) = tally m := by simp [startWrite]

@[simp] theorem tally_pump (m : Mach) (p : Nat) : tally (pump m p) = tally m := by
  unfold pump
  exact (tally_forEach fun _ _ _ => tally_startWrite _ _ _).trans (by simp)

/-! ### Windows, grants and placements -/

@[simp] theorem tally_openWindow (m : Mach) (i owner p : Nat) (granary : Bool) (t baseKib sizeKib : Nat) :
    tally (openWindow m i owner p granary t baseKib sizeKib) = tally m := by simp [openWindow]

@[simp] theorem tally_closeWindow (m : Mach) (i : Nat) : tally (closeWindow m i) = tally m := by simp [closeWindow]
@[simp] theorem tally_bootWindows (m : Mach) : tally (bootWindows m) = tally m := tally_forEach fun _ _ _ => tally_openWindow _ _ _ _ _ _ _ _

@[simp] theorem tally_openPeer (m : Mach) (c : Nat) (d : PeerDecl) : tally (openPeer m c d) = tally m := by
  unfold openPeer
  dsimp only
  split <;> simp

@[simp] theorem tally_sendGrant (m : Mach) (c : Nat) (q : Program) (d : PeerDecl) : tally (sendGrant m c q d) = tally m := by
  unfold sendGrant
  split <;> simp [queueWrite]

@[simp] theorem tally_grantAll (m : Mach) (c : Nat) (reopen : Bool) : tally (grantAll m c reopen) = tally m := by
  unfold grantAll
  split
  · rfl
  · split
    · rfl
    · refine (tally_forEach fun _ _ _ => tally_sendGrant _ _ _ _).trans ?_
      split
      · exact (tally_forEach fun _ _ _ => tally_openPeer _ _ _).trans ((tally_setCtx _ _ _).trans (tally_forEach fun _ _ _ => tally_closeWindow _ _))
      · rfl

@[simp] theorem tally_bindQueues (m : Mach) (c : Nat) (p : Program) : tally (bindQueues m c p) = tally m := tally_forEach fun _ _ _ => rfl

@[simp] theorem tally_placementDone (m : Mach) : tally (placementDone m) = tally m := by
  unfold placementDone
  exact (tally_forEach fun _ _ _ => by simp).trans (by simp [F.GEN_PLACE_SEQ_SEQ])

@[simp] theorem tally_programsPlaced (m : Mach) : tally (programsPlaced m) = tally m := by
  unfold programsPlaced
  rw [tally_holdRelease, tally_placementDone]
  refine tally_forEach fun _ _ _ => ?_
  (repeat' split) <;> simp

@[simp] theorem tally_wakeTiller (m : Mach) (t : Nat) : tally (wakeTiller m t) = tally m := by simp [wakeTiller]

@[simp] theorem tally_bindBin (m : Mach) (c lt t : Nat) (p : Program) (d : BinDecl) : tally (bindBin m c lt t p d) = tally m := by
  unfold bindBin
  dsimp only
  split <;> simp

@[simp] theorem tally_sizePool (m : Mach) (c t : Nat) : tally (sizePool m c t) = tally m := by simp [sizePool]

@[simp] theorem tally_bindLts (m : Mach) (c : Nat) (lts : List Nat) : tally (bindLts m c lts) = tally m := by
  unfold bindLts
  refine (tally_forEach fun _ _ _ => tally_sizePool _ _ _).trans ?_
  split
  · exact (tally_forEach fun _ _ _ => tally_bindBin _ _ _ _ _ _).trans (tally_forEach fun _ _ _ => tally_wakeTiller _ _)
  · exact tally_forEach fun _ _ _ => tally_wakeTiller _ _

@[simp] theorem tally_bindCtx (m : Mach) (c : Nat) (mp : List Nat) : tally (bindCtx m c mp) = tally m := by simp [bindCtx, setMap]

@[simp] theorem tally_releaseCtx (m : Mach) (c : Nat) : tally (releaseCtx m c) = tally m := by
  have h : ∀ m lt, tally (releaseLt m c lt) = tally m := fun m lt => (tally_setCtx _ _ _).trans (tally_forEach fun _ _ _ => rfl)
  unfold releaseCtx
  refine (tally_setCtx _ _ _).trans ((tally_setFab _ _ (by simp)).trans ?_)
  exact (tally_forEach fun _ _ _ => by simp [releasePool]).trans (tally_forEach fun _ _ m => h m _)

@[simp] theorem tally_sealProgram (m : Mach) (c : Nat) (p : Program) : tally (sealProgram m c p) = tally m := by simp [sealProgram]

@[simp] theorem tally_closeCtxWindows (m : Mach) (c : Nat) : tally (closeCtxWindows m c) = tally m :=
  (tally_setCtx _ _ _).trans (tally_forEach fun _ _ _ => tally_closeWindow _ _)

@[simp] theorem tally_auditCtxAs (m : Mach) (c : Nat) (st : CtxState) : tally (auditCtxAs m c st) = tally m := tally_audit _ _ _ _

/-! ### Alignment, measurements, the ledger and the flash -/

@[simp] theorem tally_alignState (m : Mach) (st fail : Nat) : tally (alignState m st fail) = tally m := by
  simp [alignState, F.INT_ALIGN_STATUS_STATE, F.INT_ALIGN_STATUS_FAIL]

@[simp] theorem tally_setOrigin (m : Mach) : tally (setOrigin m) = tally m := by
  unfold setOrigin
  exact (tally_forEach fun _ _ _ => tally_setIp _ _ _).trans (tally_setTrig _ _)

@[simp] theorem tally_startupAlign (m : Mach) : tally (startupAlign m) = tally m := by simp [startupAlign, startAlign, F.INT_ALIGN_STATUS_PASS]

@[simp] theorem tally_measureFuses (m : Mach) : tally (measureFuses m) = tally m := by simp [measureFuses, putMeas, setMeas, F.GLM_MEAS_GEN_GEN]

@[simp] theorem tally_firstMeas (m : Mach) : tally (firstMeas m) = tally m := by simp [firstMeas, F.GLM_MEAS_GEN_GEN]

@[simp] theorem tally_fuseLedger (m : Mach) (kind : Nat) (v : Word) (recovered : Bool) (f : Fuses → Fuses) :
    tally (fuseLedger m kind v recovered f) = tally m := by simp [fuseLedger]

@[simp] theorem tally_flashOpen (m : Mach) : tally (flashOpen m) = tally m := by simp [flashOpen]
@[simp] theorem tally_fieldFault (m : Mach) : tally (fieldFault m) = tally m := by simp [fieldFault, F.FIO_EVENT_FAULT, F.FIO_EVENT_SUPPLY]

/-! ### The module stopped -/

@[simp] theorem tally_putReject (m : Mach) (objDec : List Byte) (ctx : Nat) (conf : Bool) (crop tail : List Byte) :
    tally (putReject m objDec ctx conf crop tail) = tally m := by simp [putReject, raiseCount, F.FLS_EVENT_LOST, F.FLS_CNT_LOST]

@[simp] theorem tally_finalize (m : Mach) (d : Decision) : tally (finalize m d) = tally m := by simp [finalize]

@[simp] theorem tally_dropFire (m : Mach) (f : Fire) : tally (dropFire m f) = tally m := by
  unfold dropFire missFire finalizeDone
  refine (tally_forEach fun _ _ _ => by simp).trans ?_
  simp [modDec, removeFire, raiseCount, F.EJC_EVENT_DROPPED, F.EJC_CNT0_DROPPED]

theorem tally_dropAllFires (m : Mach) : tally (dropAllFires m) = tally m :=
  (tally_setEject _ _).trans (tally_forEach fun _ _ _ => tally_dropFire _ _)

@[simp] theorem tally_stopModule (m : Mach) (cause : Nat) : tally (stopModule m cause) = tally m := by simp [stopModule, tally_dropAllFires]

/-! ### The boot -/

@[simp] theorem tally_writeBc (m : Mach) (active trial confirmed : Nat) : tally (writeBc m active trial confirmed) = tally m := tally_setNor _ _

@[simp] theorem tally_wipeReturn (m : Mach) : tally (wipeReturn m) = tally m := by simp [wipeReturn]
@[simp] theorem tally_retireMove (m : Mach) : tally (retireMove m) = tally m := by simp [retireMove, moveLife]

@[simp] theorem tally_recoverLedger (m : Mach) : tally (recoverLedger m) = tally m := by
  unfold recoverLedger
  split <;> simp [F.GLM_EVENT_FUSE_RECOVERED]

theorem tally_bootFound (m : Mach) : tally (bootFound m) = tally m := by
  have hf : ∀ m, tally (fusedTillers m) = tally m := fun m => tally_forEach fun _ _ _ => tally_setTil _ _ _
  have hs : ∀ m, tally (bootStored m) = tally m := fun m => by
    simp [bootStored, F.PWR_VTRIM_COMPUTE0, F.PWR_VTRIM_COMPUTE1, F.PWR_VTRIM_INTAKE, F.PWR_VTRIM_IO]
  have hc : ∀ m, tally (bootCleared m) = tally m := fun m => by simp [bootCleared]
  rw [bootFound, hs, hf, hc]
  simp

theorem tally_bootStart (m : Mach) : tally (bootStart m) = tally m := by
  rw [bootStart_eq]
  simp [tally_bootFound]

theorem tally_testQuarantined (m : Mach) (quar : List Nat) : tally (testQuarantined m quar).1 = tally m := by
  have h : ∀ r : Mach × List Nat, tally (quar.foldl (fun r t => let d := draw r.1; (d.1, if d.2 % 2 = 1 then r.2 ++ [t] else r.2)) r).1 = tally r.1 := by
    induction quar with
    | nil => exact fun _ => rfl
    | cons t ts ih => exact fun r => (ih _).trans rfl
  exact h _

theorem tally_configure (m : Mach) (i : Image) (bad : List Nat) : tally (configure m i bad) = tally m := by
  have hn : ∀ m, tally (nominalClocks m) = tally m := fun m => tally_forEach fun _ _ _ => by simp [setClock, F.TIL_CLK_FREQ_MHZ]
  unfold configure
  exact (hn _).trans ((tally_forEach fun _ _ _ => tally_setTil _ _ _).trans (tally_of rfl rfl rfl rfl))

theorem tally_placeNext {m t : Mach} {c : Nat} (h : placeNext (some m) c = some t) : tally t = tally m := by
  unfold placeNext at h
  dsimp only at h
  (repeat' split at h) <;> cases h <;> simp

theorem tally_placeImage {m t : Mach} (h : placeImage m = some t) : tally t = tally m := by
  have hall : ∀ (cs : List Nat) (m t : Mach), cs.foldl placeNext (some m) = some t → tally t = tally m := by
    intro cs
    induction cs with
    | nil =>
      rintro m t ⟨⟩
      rfl
    | cons c cs ih =>
      intro m t h
      rw [List.foldl_cons] at h
      cases hn : placeNext (some m) c with
      | none =>
        rw [hn, placeNext_none] at h
        cases h
      | some u =>
        rw [hn] at h
        exact (ih u t h).trans (tally_placeNext hn)
  rw [placeImage_eq] at h
  exact (hall _ _ _ h).trans (tally_forEach fun _ _ _ => tally_sealProgram _ _ _)

theorem tally_trySlot (m : Mach) (sl : Slot) (bad : List Nat) : tally (trySlot m sl bad).2 = tally m := by
  have he : ∀ i, tally (earlyOn m i) = tally m := fun i =>
    (tally_setCtl _ _ (fun _ => rfl) fun _ => rfl).trans (tally_of rfl rfl rfl rfl)
  rcases trySlot_cases m sl bad with ⟨c, t, -, -, h, rfl | ⟨i, rfl⟩⟩ | ⟨i, t, -, -, -, ht, h⟩
  · rw [h]
  · rw [h, he]
  · rw [h, tally_placeImage ht, tally_configure, he]

theorem tally_choose (m : Mach) (bad : List Nat) : tally (choose m bad).mach = tally m := by
  unfold choose
  dsimp only
  (repeat' split) <;> simp [tally_trySlot]

theorem tally_bootShown (m : Mach) (quar : List Nat) : tally (bootShown m quar) = tally m := by
  have h : tally (bootShown m quar) = tally (bootStatus (bootStart m) (bootChosen m quar).mach (bootChosen m quar)) :=
    tally_forEach fun _ _ _ => tally_setEnc _ _ _
  rw [h, bootStatus, tally_wrs _ _ _ rfl, bootChosen, tally_choose, bootTested, tally_testQuarantined, tally_bootStart]

theorem tally_applyImage (m : Mach) : tally (applyImage m) = tally m := by
  have hl : ∀ m, tally (loadRegisters m) = tally m := fun m => by
    unfold loadRegisters
    exact (tally_forEach fun _ _ _ => tally_wrs _ _ _ rfl).trans (tally_wrs _ _ _ rfl)
  have hs : ∀ m, tally (startPorts m) = tally m := fun m => tally_forEach fun _ _ _ => by simp
  simp [applyImage, hs, hl, applyTime, loadChaff, F.TIM_CTRL_REVERT, F.TIM_CTRL_AUTO_SWITCH, F.TIM_CTRL_REQ_DOMAIN]

theorem tally_testEvents (m : Mach) (quar bad : List Nat) : tally (testEvents m quar bad) = tally m :=
  tally_forEach fun _ _ _ => by simp [F.GEN_CHECK_EVENT_SELFTEST_FAIL, F.GEN_CHECK_EVENT_RETURNED]

/-- The boot leaves what the reset before it has shown. -/
theorem tally_boot (m : Mach) (quar : List Nat) : tally (boot m quar) = tally m := by
  cases h : (bootChosen m quar).slot with
  | none => simp [boot_none h, bootAudited, tally_bootShown]
  | some sl =>
    have ha : tally (bootApplied m quar sl) = tally m := by
      simp [bootApplied, hotTests, tally_testEvents, tally_applyImage, bootAudited, tally_bootShown]
    rw [boot_some h]
    split <;> simp [ha]

/-! ### Commands that are dropped -/

/-- The tally but for the commands in flight. -/
def grounded (m : Mach) : Tally := { tally m with flying := [] }

theorem grounded_of_tally {m t : Mach} (h : tally t = tally m) : grounded t = grounded m := by rw [grounded, h, grounded]

theorem grounded_setFab (m : Mach) (f : Fabric → Fabric) : grounded (setFab m f) = grounded m := rfl

theorem grounded_forEach {α : Type} {xs : List α} {m : Mach} {f : Mach → α → Mach} (h : ∀ x ∈ xs, ∀ m, grounded (f m x) = grounded m) :
    grounded (forEach xs m f) = grounded m := by
  unfold forEach
  induction xs generalizing m with
  | nil => rfl
  | cons x xs ih => rw [List.foldl_cons, ih fun y hy => h y (List.mem_cons_of_mem x hy), h x List.mem_cons_self]

theorem tally_clearQueues (m : Mach) : tally (clearQueues m) = grounded m := rfl

theorem tally_setCmd {m : Mach} (hi : (tally m).flying = []) (q seq : Nat) (f : Cmd → Cmd) : tally (setCmd m q seq f) = tally m := by
  have hf : m.fab.inflight = [] := hi
  simp only [tally, setCmd, setFab, hf, List.map_nil]
  rfl

theorem grounded_setCmd (m : Mach) (q seq : Nat) (f : Cmd → Cmd) : grounded (setCmd m q seq f) = grounded m := grounded_setFab _ _

theorem leaveUnits_cases (m : Mach) (c : Cmd) : leaveUnits m c = m ∨ ∃ f, tally (leaveUnits m c) = tally (setCmd m c.queue c.seq f) := by
  unfold leaveUnits
  split
  · right
    exact ⟨_, (tally_setTil _ _ _).trans ((tally_setCtx _ _ _).trans (tally_setTil _ _ _))⟩
  · exact .inl rfl

theorem tally_leaveUnits {m : Mach} (hi : (tally m).flying = []) (c : Cmd) : tally (leaveUnits m c) = tally m := by
  rcases leaveUnits_cases m c with h | ⟨f, h⟩
  · rw [h]
  · rw [h, tally_setCmd hi]

theorem grounded_leaveUnits (m : Mach) (c : Cmd) : grounded (leaveUnits m c) = grounded m := by
  rcases leaveUnits_cases m c with h | ⟨f, h⟩
  · rw [h]
  · exact (grounded_of_tally h).trans (grounded_setCmd _ _ _ _)

theorem tally_stopRun {m : Mach} (hi : (tally m).flying = []) (c : Cmd) : tally (stopRun m c) = tally m := by
  have hl := tally_leaveUnits hi c
  exact (tally_setCmd (hl ▸ hi) _ _ _).trans hl

theorem grounded_killLc (m : Mach) : grounded (killLc m) = grounded m := by
  unfold killLc
  refine (grounded_setFab _ _).trans (grounded_forEach fun c _ m => ?_)
  exact (grounded_setCmd _ _ _ _).trans (grounded_leaveUnits m c)

theorem grounded_clearPipeline (m : Mach) : grounded (clearPipeline m) = grounded m := by
  unfold clearPipeline
  refine (grounded_forEach fun _ _ _ => grounded_of_tally (tally_setIp _ _ _)).trans ?_
  exact (grounded_setFab _ _).trans (grounded_killLc m)

theorem grounded_leavePipeline (m : Mach) : grounded (leavePipeline m) = grounded m := by
  unfold leavePipeline
  extract_lets os m1 m2 m3
  have h1 : tally m1 = tally m := by simp [m1, tally_dropAllFires]
  have h2 : tally m2 = tally m1 := tally_forEach fun _ _ _ => (tally_finalize _ _).trans (tally_setEject _ _)
  have h3 : grounded m3 = grounded m2 := (grounded_of_tally (tally_setEnc _ _ _)).trans (grounded_clearPipeline m2)
  rw [grounded_of_tally (t := setCtl (enter m3 .configured) _) (m := m3) (by simp), h3, grounded_of_tally (h2.trans h1)]

theorem grounded_warmStop (m : Mach) : grounded (warmStop m) = grounded m := by
  unfold warmStop
  extract_lets m1 m2 m3
  have h1 : tally m1 = tally m := by simp [m1]
  have h2 : grounded m2 = grounded m1 := by
    simp only [m2]
    split
    · exact grounded_leavePipeline m1
    · exact (grounded_of_tally (tally_enter _ _)).trans (grounded_clearPipeline m1)
  rw [grounded_of_tally (t := setCtl m3 _) (m := m2) (by simp [m3]), h2, grounded_of_tally h1]

/-! ### Reports and writes of commands, with none in flight -/

@[simp] theorem tally_ringPut (m : Mach) (r : Nat) (e : List Byte) : tally (ringPut m r e) = tally m := by
  simp [ringPut, tally_emit]

@[simp] theorem tally_putEntry (m : Mach) (q : Nat) (e : List Byte) : tally (putEntry m q e) = tally m := by
  simp [putEntry, F.QUE_CNT_CR_LOST, F.QUE_EVENT_CR_LOST]

@[simp] theorem tally_noteStatus (m : Mach) (c : Cmd) (s : Nat) : tally (noteStatus m c s) = tally m := by
  simp [noteStatus, F.TIL_CMD_CNT_COMPLETED, F.TIL_ERR_CNT_BAD_DESC, F.TIL_EVENT_BAD_DESC, F.TIL_GRN_CNT_HANDLE_INVALID, F.TIL_HUSK_LAST_COUNT,
    F.GEN_CHECK_CNT2_FAILED]

theorem tally_reportCmd {m : Mach} (hi : (tally m).flying = []) (c : Cmd) : tally (reportCmd m c) = tally m := by
  unfold reportCmd
  extract_lets s tick m1
  have h1 : tally m1 = tally m := by simp [m1]
  have hf : m1.fab.inflight = [] := (congrArg Tally.flying h1).trans hi
  rw [tally_setTil, ← h1]
  simp only [tally, setFab, hf, List.filter_nil]
  rfl

theorem tally_flushReports {m : Mach} (hi : (tally m).flying = []) (q : Nat) : tally (flushReports m q) = tally m :=
  tally_forEach_idle hi fun _ _ _ h => tally_reportCmd h _

theorem tally_endWrite {m : Mach} (hi : (tally m).flying = []) (p : Nat) (w : OutWrite) (status : Nat) : tally (endWrite m p w status) = tally m := by
  unfold endWrite
  split
  · rfl
  · have hc := tally_setCmd hi w.queue w.seq (fun c => { c with
      writesOut := c.writesOut - 1, status := if status ≠ 0 ∧ c.status < 0x10 then status else c.status })
    exact (tally_flushReports (hc ▸ hi) _).trans hc

theorem tally_clearLink {m : Mach} (hi : (tally m).flying = []) (p : Nat) : tally (clearLink m p) = tally m := by
  have h : ∀ f, tally (raise (setPort m p f) F.SHF_LNK_EVENT_LINK_DOWN p) = tally m := fun _ => by simp [F.SHF_LNK_EVENT_LINK_DOWN]
  unfold clearLink
  exact (tally_forEach_idle (h _ ▸ hi) fun _ _ _ hi => tally_endWrite hi _ _ _).trans (h _)

theorem tally_warmLinks {m : Mach} (hi : (tally m).flying = []) (low : Bool) : tally (warmLinks low m) = tally m :=
  tally_forEach_idle hi fun p _ m h => by simp [tally_clearLink h]

theorem tally_startScrub {m : Mach} (hi : (tally m).flying = []) (c : Nat) : tally (startScrub m c) = tally m := by
  unfold startScrub
  extract_lets m1 mine m2 order m3 m4 m5 m6
  have h2 : tally m2 = tally m := tally_forEach_idle hi fun _ _ _ h => tally_stopRun h _
  have h3 : tally m3 = tally m := (tally_forEach_idle (h2 ▸ hi) fun _ _ _ h => tally_reportCmd h _).trans h2
  have h5 : tally m5 = tally m := (tally_forEach fun _ _ _ => by simp [scrubPort]).trans (by simp [m4, h3])
  simp [m6, h5]

/-! ### The warm reset -/

@[simp] theorem tally_resetTillers (m : Mach) : tally (resetTillers m) = tally m := tally_forEach fun _ _ _ => tally_setTil _ _ _

@[simp] theorem tally_stopStaging (m : Mach) : tally (stopStaging m) = tally m := by
  have h : ∀ (m : Mach) (s : Slot) (i : Option Image), tally (setSlot m s i) = tally m := fun m s i => by cases s <;> rfl
  unfold stopStaging
  split
  · simp [h, F.GLM_UPD_STATUS_STATE]
  · rfl

@[simp] theorem tally_warmIsp (m : Mach) : tally (warmIsp m) = tally m := by
  simp [warmIsp, setInactive, F.INT_ISP_STATUS_SWAP_PENDING, F.INT_ISP_STATUS_COPYING]

@[simp] theorem tally_chaffRefilled (m : Mach) : tally (chaffRefilled m) = tally m := by
  simp [chaffRefilled, setPair, setChaffState, startFailRefill, F.CHF_STATUS_STATE, F.CHF_STATUS_SWAPS]

@[simp] theorem tally_warmChaff (m : Mach) : tally (warmChaff m) = tally m := by
  simp [warmChaff, setPair, setChaffState, F.CHF_STATUS_STATE, F.CHF_STATUS_LOAD_BUSY]

@[simp] theorem tally_clearHostCtx (m : Mach) (c : Nat) : tally (clearHostCtx m c) = tally m := by
  unfold clearHostCtx
  refine (tally_setCtx _ _ _).trans ((tally_setFab _ _ ?_).trans ?_)
  · exact fun _ => rfl
  · rw [tally_releaseCtx, tally_closeCtxWindows, tally_auditCtxAs]

@[simp] theorem tally_replaceImage (m : Mach) : tally (replaceImage m) = tally m := by
  unfold replaceImage
  rw [tally_programsPlaced]
  exact (tally_forEach fun _ _ _ => tally_bindCtx _ _ _).trans ((tally_forEach fun _ _ _ => tally_releaseCtx _ _).trans (by simp))

@[simp] theorem tally_restartStem (m : Mach) : tally (restartStem m) = tally m := by
  unfold restartStem
  rw [tally_startupAlign, tally_replaceImage]
  exact (tally_setCtl _ _ (fun _ => rfl) fun _ => rfl).trans (tally_forEach fun _ _ _ => tally_setTil _ _ _)

@[simp] theorem tally_resumeHold (m : Mach) : tally (resumeHold m) = tally m := by
  unfold resumeHold
  split <;> rfl

@[simp] theorem tally_reloadDormant (m : Mach) : tally (reloadDormant m) = tally m := by
  unfold reloadDormant
  refine (tally_forEach fun _ _ _ => tally_bindCtx _ _ _).trans ((tally_forEach fun _ _ _ => tally_sealProgram _ _ _).trans ?_)
  have he : ∀ m, tally (startEncoders m) = tally m := fun m => tally_forEach fun _ _ _ => tally_setEnc _ _ _
  simp [setChaffState, he, loadChaff, F.CHF_STATUS_STATE, F.INT_ISP_SET_ID_SET_ID, F.CHF_TABLE_ID_TABLE_ID, F.INT_ISP_STATUS_SWAP_PENDING, F.INT_ISP_STATUS_COPYING,
    F.INT_ISP_STATUS_ACTIVE_SET]

/-- GEN_RESET_CAUSE counts a reset and names its cause (R83). -/
def causeShown (cause : Nat) (m : Mach) : Mach := wr (inc m F.GEN_RESET_CAUSE_RESETS 0) F.GEN_RESET_CAUSE_CAUSE 0 cause

/-- A warm reset shows its cause, and no command is in flight after it. -/
theorem tally_warmReset (cause : Nat) (m : Mach) : tally (warmReset cause m) = grounded (causeShown cause m) := by
  unfold warmReset
  extract_lets m0 quar dorm low m1 m2 m3 m4 m5 m6 up m7 m8 host conf m9 m10
  have h2 : tally m2 = grounded (causeShown cause m) := (tally_clearQueues _).trans (grounded_warmStop m1)
  have hi : (tally m2).flying = [] := by rw [h2]; rfl
  have h3 : tally m3 = tally m2 := tally_forEach fun _ _ _ => tally_setIp _ _ _
  have h4 : tally (resetTillers m4) = tally m2 := by rw [tally_resetTillers, ← h3]; exact tally_setEject _ _
  have h5 : tally m5 = tally m2 := (tally_stopStaging _).trans ((tally_warmLinks (by rw [h4, hi]) _).trans h4)
  have h6 : tally m6 = tally m5 := tally_setCtl _ _ (fun _ => rfl) fun _ => rfl
  rw [← h2, ← h5, ← h6]
  have hi6 : (tally m6).flying = [] := by rw [h6, h5, hi]
  clear_value m6
  split
  · have h7 : tally m7 = tally m6 := tally_forEach fun _ _ _ => tally_setTil _ _ _
    simp [h7]
  · have h8 : tally m8 = tally m6 := by rw [tally_warmIsp, tally_warmChaff]
    have h9 : tally m9 = tally m8 := tally_forEach fun c _ m => tally_clearHostCtx m c
    have h10 : tally m10 = tally m9 := tally_forEach_idle (by rw [h9, h8, hi6]) fun c _ _ h => tally_startScrub h c
    rw [tally_notePower, ← h8, ← h9, ← h10]
    split
    · exact tally_restartStem m10
    · exact tally_setCtl _ _ (fun _ => rfl) fun _ => rfl

/-! ### What GEN_RESET_CAUSE reads -/

/-- The fields that tell of the last reset read from the word of the tally. -/
theorem reads_of_tally {m t : Mach} (h : (tally t).cause = (tally m).cause) :
    rd t F.GEN_RESET_CAUSE_CAUSE 0 = rd m F.GEN_RESET_CAUSE_CAUSE 0 ∧ rd t F.GEN_RESET_CAUSE_RESETS 0 = rd m F.GEN_RESET_CAUSE_RESETS 0 :=
  ⟨congrArg (fun w : Word => bits w.toNat 0 4) h, congrArg (fun w : Word => bits w.toNat 16 16) h⟩

/-- A reset with a cause has been counted since `m`. -/
def CauseCounted (cause : Nat) (m t : Mach) : Prop := rd t F.GEN_RESET_CAUSE_CAUSE 0 = cause ∧ Counted F.GEN_RESET_CAUSE_RESETS 0 1 m t

theorem causeCounted_causeShown {cause : Nat} (hc : cause < 16) (m : Mach) : CauseCounted cause m (causeShown cause m) := by
  refine ⟨(rd_wr_same _ _ _ _ rfl).trans (Nat.mod_eq_of_lt hc), ?_⟩
  rw [Counted, causeShown, rd_wr_apart _ _ rfl, rd_inc_same _ _ _ rfl]

theorem CauseCounted.congr {cause : Nat} {m n t u : Mach} (h : CauseCounted cause m t) (hm : (tally n).cause = (tally m).cause)
    (ht : (tally u).cause = (tally t).cause) : CauseCounted cause n u := by
  obtain ⟨hc, hr⟩ := h
  rw [Counted] at hr
  rw [CauseCounted, Counted, (reads_of_tally ht).1, (reads_of_tally ht).2, (reads_of_tally hm).2]
  exact ⟨hc, hr⟩

/-! ### The module reset -/

theorem tget_filter {α : Type} (d : α) (t : Tab α) (keep : Nat → Bool) {a : Nat} (h : keep a = true) :
    tget d (t.filter fun e => keep e.1) a = tget d t a := by
  induction t with
  | nil => rfl
  | cons e t ih =>
    by_cases ha : e.1 = a
    · simp [ha, h, tget]
    · by_cases hk : keep e.1 = true <;> simp [hk, ha, tget, ih]

/-- What a module reset keeps of register words is GEN_RESET_CAUSE (R79). -/
theorem tally_wiped (m : Mach) : tally (wiped m false [0x34]) = ⟨word m 0 0x34, decide (.linkDown ∈ m.out), [], false, none⟩ := by
  have hw : tget 0 (m.regs.filter fun e => [0x34].contains e.1) 0x34 = word m 0 0x34 := tget_filter 0 _ (fun a => [0x34].contains a) rfl
  unfold wiped
  dsimp only
  rw [tally_wrs _ _ _ rfl, ← hw]
  rfl

theorem now_wiped (m : Mach) (on : Bool) (keep : List Nat) : (wiped m on keep).time.now = {} := by
  have h : ∀ (u : Mach) (fs : List (Fld × Nat)), (wrs u 0 fs).time = u.time := fun u fs => congrArg Fixed.time (fixed_wrs u 0 fs)
  unfold wiped
  dsimp only
  rw [h]

theorem now_boot (m : Mach) (quar : List Nat) : (boot m quar).time.now = m.time.now := by
  obtain ⟨e, g, n, ta, ca, tx, hb, -⟩ := booted_boot m quar
  obtain ⟨f, n, hs, -⟩ := booted_bootStart m
  calc (booted (boot m quar)).now = (booted (bootTested m quar).1).now := by rw [hb]
    _ = (booted (bootStart m)).now := by rw [booted_bootTested]
    _ = (booted m).now := by rw [hs]

/-- What the statement says of a module reset (R79). -/
def ModuleResetDone (cause : Nat) (m t : Mach) : Prop :=
  (t.ctl.st = .configured ∨ t.ctl.st = .fault) ∧ t.time.now = {} ∧ rd t F.GEN_RESET_CAUSE_CAUSE 0 = cause ∧
    Counted F.GEN_RESET_CAUSE_RESETS 0 1 m t ∧ .linkDown ∈ t.out ∧ t.ctl.fnReady = false

theorem moduleReset_eq (cause : Nat) {m : Mach} (hp : m.ctl.powerGood = true) : moduleReset cause m =
    boot (emit (causeShown cause (wiped (flashClose m) false [0x34])) .linkDown) (testable m) := if_neg (by simp [hp])

/-- A module reset boots what `wiped` leaves; its cause is counted before. -/
theorem boot_done {cause : Nat} (hc : cause < 16) {m u : Mach} (hcause : (tally u).cause = (tally m).cause) (hr : u.ctl.fnReady = false)
    (hn : u.time.now = {}) (quar : List Nat) : ModuleResetDone cause m (boot (emit (causeShown cause u) .linkDown) quar) := by
  have ht := tally_boot (emit (causeShown cause u) .linkDown) quar
  have htc : (tally (boot (emit (causeShown cause u) .linkDown) quar)).cause = (tally (causeShown cause u)).cause := by
    rw [ht]
    rfl
  have hcounted := (causeCounted_causeShown hc u).congr hcause.symm htc
  refine ⟨st_boot _ _, (now_boot _ _).trans hn, hcounted.1, hcounted.2, ?_, (congrArg Tally.ready ht).trans hr⟩
  exact of_decide_eq_true ((congrArg Tally.down ht).trans (by simp [tally, emit]))

theorem moduleReset_done {cause : Nat} (hc : cause < 16) {m : Mach} (hp : m.ctl.powerGood = true) : ModuleResetDone cause m (moduleReset cause m) := by
  have hw := tally_wiped (flashClose m)
  have hword : word (flashClose m) 0 0x34 = word m 0 0x34 :=
    regsKeep_flashClose m 0 0x34 (by unfold closeRegs; split <;> decide) (.inl (by decide))
  rw [moduleReset_eq cause hp]
  exact boot_done hc ((congrArg Tally.cause hw).trans hword) (congrArg Tally.ready hw) (now_wiped _ _ _) _

/-! ### The warm reset -/

theorem booted_setCtl (m : Mach) (f : Ctl → Ctl) (h : ∀ c : Ctl,
    ((f c).powerGood, (f c).runSlot, (f c).earlyApplied, (f c).timeApplied, (f c).cameraApplied, (f c).txDisable) =
      (c.powerGood, c.runSlot, c.earlyApplied, c.timeApplied, c.cameraApplied, c.txDisable)) : booted (setCtl m f) = booted m := by
  obtain ⟨hp, hs, he, ht, hc, hx⟩ : _ ∧ _ ∧ _ ∧ _ ∧ _ ∧ _ := by simpa using h m.ctl
  simp [booted, hp, hs, he, ht, hc, hx]

theorem booted_setEnc (m : Mach) (ch : Nat) (f : EncCh → EncCh) : booted (setEnc m ch f) = booted m := rfl

theorem booted_clearPipeline (m : Mach) : booted (clearPipeline m) = booted m := booted_of_fixed (fixed_clearPipeline m)

theorem booted_leavePipeline (m : Mach) : booted (leavePipeline m) = booted m := by
  unfold leavePipeline
  extract_lets os m1 m2 m3
  have h2 : booted m2 = booted m := booted_of_fixed (by simp [m2, m1])
  have h3 : booted m3 = booted m := (booted_setEnc _ _ _).trans ((booted_clearPipeline m2).trans h2)
  clear_value m3
  simp [booted_setCtl, h3]

theorem booted_warmStop (m : Mach) : booted (warmStop m) = booted m := by
  unfold warmStop
  extract_lets m1 m2 m3
  have h1 : booted m1 = booted m := by
    simp only [m1]
    split
    · exact (booted_of_fixed (fixed_alignState _ _ _)).trans (by simp [booted_setCtl])
    · rfl
  have h2 : booted m2 = booted m1 := by
    simp only [m2]
    split
    · exact booted_leavePipeline m1
    · exact (booted_enter _ _).trans (booted_clearPipeline m1)
  have h3 : booted m3 = booted m := (booted_of_fixed (fixed_setGlume _ _)).trans (h2.trans h1)
  clear_value m3
  simp [booted_setCtl, h3]

theorem booted_stopStaging (m : Mach) : ∃ n, booted (stopStaging m) = { booted m with nor := n } := by
  unfold stopStaging
  split
  · cases inactiveSlot m <;> exact ⟨_, rfl⟩
  · exact ⟨_, rfl⟩

theorem booted_restartStem (m : Mach) : booted (restartStem m) = booted m := by
  unfold restartStem
  rw [booted_startupAlign, booted_of_fixed (fixed_replaceImage _)]
  refine (booted_setCtl _ _ ?_).trans (booted_of_fixed ?_)
  · exact fun _ => rfl
  · exact fixed_forEach _ _ _ fun _ _ => fixed_setTil _ _ _

theorem booted_resumeHold (m : Mach) : booted (resumeHold m) = booted m := by
  unfold resumeHold
  split <;> rfl

theorem booted_reloadDormant (m : Mach) : booted (reloadDormant m) = booted m := by
  unfold reloadDormant
  extract_lets m1 m2 m3 m4 m5
  have h2 : booted m2 = booted m := (booted_startEncoders _).trans (booted_of_fixed (fixed_loadChaff _))
  have h5 : fixed m5 = fixed m2 := by simp [m5, m4, m3, setChaffState]
  exact (booted_of_fixed (fixed_forEach _ _ _ fun _ _ => fixed_bindCtx _ _ _)).trans ((booted_of_fixed h5).trans h2)

/-- A warm reset keeps all that the boot has set up; staging that it stops leaves a slot erased (R79, R410). -/
theorem booted_warmReset (cause : Nat) (m : Mach) : ∃ n, booted (warmReset cause m) = { booted m with nor := n } := by
  unfold warmReset
  extract_lets m0 quar dorm low m1 m2 m3 m4 m5 m6 up m7 m8 host conf m9 m10
  have h2 : booted m2 = booted m := (booted_of_fixed (fixed_clearQueues _)).trans ((booted_warmStop m1).trans (booted_of_fixed (fixed_wr _ _ _ _)))
  have h4 : booted (warmLinks low (resetTillers m4)) = booted m2 := booted_of_fixed (by simp [m4, m3])
  obtain ⟨n, h5⟩ := booted_stopStaging (warmLinks low (resetTillers m4))
  have h6 : booted m6 = { booted m with nor := n } := by
    rw [← h2, ← h4, ← h5]
    exact booted_setCtl m5 _ fun _ => rfl
  refine ⟨n, ?_⟩
  rw [← h6]
  clear_value m6
  split
  · have h7 : booted m7 = booted m6 := booted_of_fixed (fixed_forEach _ _ _ fun _ _ => fixed_setTil _ _ _)
    rw [booted_of_fixed (fixed_notePower _ _), booted_startupAlign, booted_of_fixed (fixed_programsPlaced _), booted_reloadDormant,
      booted_of_fixed (fixed_flashOpen _), booted_resumeHold, h7]
  · have h10 : booted m10 = booted m6 := booted_of_fixed (by simp [m10, m9, m8])
    rw [booted_of_fixed (fixed_notePower _ _), ← h10]
    split
    · exact booted_restartStem m10
    · exact booted_setCtl m10 _ fun _ => rfl

/-- What the statement says of a warm reset (R79). -/
def WarmResetDone (cause : Nat) (m t : Mach) : Prop :=
  t.ctl.st = .configured ∧ t.time.now = m.time.now ∧ t.fuses = m.fuses ∧ t.cfg = m.cfg ∧ t.ctl.runSlot = m.ctl.runSlot ∧
    t.ctl.fnReady = m.ctl.fnReady ∧ t.fab.inflight = [] ∧ rd t F.GEN_RESET_CAUSE_CAUSE 0 = cause ∧ Counted F.GEN_RESET_CAUSE_RESETS 0 1 m t

theorem warmReset_done {cause : Nat} (hc : cause < 16) (m : Mach) : WarmResetDone cause m (warmReset cause m) := by
  have ht := tally_warmReset cause m
  have htc : (tally (warmReset cause m)).cause = (tally (causeShown cause m)).cause := by
    rw [ht]
    rfl
  obtain ⟨hcause, hcount⟩ := (causeCounted_causeShown hc m).congr rfl htc
  obtain ⟨n, hb⟩ := booted_warmReset cause m
  exact ⟨st_warmReset cause m, congrArg Booted.now hb, congrArg Booted.fuses hb, congrArg Booted.cfg hb, congrArg Booted.runSlot hb,
    congrArg Tally.ready ht, congrArg Tally.flying ht, hcause, hcount⟩

/-! ### The commands that reset, and the statement -/

theorem ModuleResetDone.settled {cause : Nat} {m n t : Mach} (h : ModuleResetDone cause m t) : ModuleResetDone cause m (settle n t) := by
  simpa [ModuleResetDone, Counted] using h

theorem WarmResetDone.settled {cause : Nat} {m n t : Mach} (h : WarmResetDone cause m t) : WarmResetDone cause m (settle n t) := by
  simpa [WarmResetDone, Counted] using h

/-- A command that is a module reset, of the machine or of what it has become with its cause word as it was. -/
theorem completes_moduleReset {c : Instr} {s : State} (f : Mach → Mach) (h : exec c s = s.run f) {cause : Nat} (hc : cause < 16) {u : Mach}
    (hf : f (fresh s.mach) = moduleReset cause u) (hp : u.ctl.powerGood = true) (hu : (tally u).cause = (tally s.mach).cause) :
    Completes c s (ModuleResetDone cause s.mach) := by
  refine completes_run f h ?_
  obtain ⟨hst, hn, hcause, hcount, hl, hr⟩ := moduleReset_done hc hp
  rw [hf]
  obtain ⟨-, hcount⟩ := CauseCounted.congr ⟨hcause, hcount⟩ hu.symm rfl
  exact ModuleResetDone.settled ⟨hst, hn, hcause, hcount, hl, hr⟩

/-- What a request that does nothing leaves. -/
def ResetIgnoredBy (s : State) (t : Mach) : Prop := t.out = [] ∧ Keeps [] s.mach t ∧ RegsSame s.mach t

theorem completes_resetIgnoredBy {c : Instr} {s : State} (f : Mach → Mach) (h : exec c s = s.run f) (hf : f (fresh s.mach) = fresh s.mach) :
    Completes c s (ResetIgnoredBy s) :=
  completes_mono (completes_nothing f h hf) fun _ ⟨hk, hr, ho⟩ => ⟨ho, hk, hr⟩

theorem exec_moduleReset (key : BitVec 8) (s : State) : exec (.moduleReset key) s = s.run (moduleResetReq key) := rfl
theorem exec_warmReset (key : BitVec 8) (s : State) : exec (.warmReset key) s = s.run (warmResetReq key) := rfl
theorem exec_stemWatchdogExpiry (s : State) : exec .stemWatchdogExpiry s = s.run watchdog := rfl
theorem exec_glumeIntegrityFailure (s : State) : exec .glumeIntegrityFailure s = s.run glumeIntegrity := rfl
theorem exec_debugHeaderReset (s : State) : exec .debugHeaderReset s = s.run debugHeaderReset := rfl

section
variable {m : Mach} (hm : HostMay m)
include hm

theorem moduleResetReq_acts (h : m.ctl.st = .fault ∨ hostResets m = true) : moduleResetReq 0x5A m = moduleReset 1 m := by
  rw [moduleResetReq, bar0_may hm]
  exact (if_neg (by simp)).trans (if_pos (by simpa using h))

theorem moduleResetReq_denied (hf : m.ctl.st ≠ .fault) (h : hostResets m = false) : moduleResetReq 0x5A m = deny m := by
  rw [moduleResetReq, bar0_may hm]
  exact (if_neg (by simp)).trans (if_neg (by simp [hf, h]))

theorem moduleResetReq_key {key : BitVec 8} (h : key ≠ 0x5A) : moduleResetReq key m = m := by
  rw [moduleResetReq, bar0_may hm]
  exact if_pos h

theorem warmResetReq_ignored {key : BitVec 8} (h : key ≠ 0x5A ∨ m.ctl.st = .fault) : warmResetReq key m = m := by
  rw [warmResetReq, bar0_may hm]
  exact if_pos (by simpa using h)

variable (hf : m.ctl.st ≠ .fault)
include hf

theorem warmResetReq_denied (h : hostResets m = false) : warmResetReq 0x5A m = deny m := by
  rw [warmResetReq, bar0_may hm]
  simp [hf, h]

theorem warmResetReq_counts (h : hostResets m = true) (hw : m.ctl.warmDue = true) : warmResetReq 0x5A m = inc m F.GEN_RESET_CAUSE_IGNORED 0 := by
  rw [warmResetReq, bar0_may hm]
  simp [hf, h, hw]

theorem warmResetReq_acts (h : hostResets m = true) (hw : m.ctl.warmDue = false) : warmResetReq 0x5A m = warmReset 5 m := by
  rw [warmResetReq, bar0_may hm]
  simp [hf, h, hw]

end

section
variable {s : State}

theorem completes_moduleResetAct (hm : HostMay s.mach) (h : s.mach.ctl.st = .fault ∨ hostResets s.mach = true) :
    (s.mach.ctl.powerGood = true → Completes (.moduleReset 0x5A) s (ModuleResetDone 1 s.mach)) ∧
    (s.mach.ctl.powerGood = false → Completes (.moduleReset 0x5A) s (ResetIgnoredBy s)) := by
  have hf : moduleResetReq 0x5A (fresh s.mach) = moduleReset 1 (fresh s.mach) := moduleResetReq_acts (m := fresh s.mach) hm h
  exact ⟨fun hp => completes_moduleReset _ (exec_moduleReset _ s) (by decide) hf hp rfl,
    fun hp => completes_resetIgnoredBy _ (exec_moduleReset _ s) (hf.trans (moduleReset_off 1 (fresh s.mach) hp))⟩

theorem completes_warmResetAct (hm : HostMay s.mach) (hf : s.mach.ctl.st ≠ .fault) (h : hostResets s.mach = true) (hw : s.mach.ctl.warmDue = false) :
    Completes (.warmReset 0x5A) s (WarmResetDone 5 s.mach) := by
  refine completes_run _ (exec_warmReset _ s) ?_
  rw [warmResetReq_acts (m := fresh s.mach) hm hf h hw]
  have hd : WarmResetDone 5 s.mach (warmReset 5 (fresh s.mach)) := warmReset_done (by decide) (fresh s.mach)
  exact hd.settled

theorem completes_warmResetCounted (hm : HostMay s.mach) (hf : s.mach.ctl.st ≠ .fault) (h : hostResets s.mach = true) (hw : s.mach.ctl.warmDue = true) :
    Completes (.warmReset 0x5A) s (fun t => Counted F.GEN_RESET_CAUSE_IGNORED 0 1 s.mach t ∧
      RegsKeep [F.GEN_RESET_CAUSE_IGNORED.addr 0] s.mach t ∧ Keeps [] s.mach t) := by
  refine completes_run _ (exec_warmReset _ s) ?_
  rw [warmResetReq_counts (m := fresh s.mach) hm hf h hw]
  refine ⟨?_, regsKeep_settle (regsKeep_inc _ _ (by simp) (regsKeep_fresh _ _)), keeps_settle (keeps_trans (keeps_fresh _ _) (keeps_inc _ _ _ _))⟩
  rw [Counted, rd_settle, rd_inc_same _ _ _ (by decide), rd_congr (fresh_regs _)]

end

/-! ### The watchdog, Glume and the debug header -/

/-- The watchdog expires within 10 s of its last expiry (R79). -/
def DogAgain (m : Mach) : Prop := ∃ e : LTime, m.ctl.lastWatchdog = some e ∧ lessSince m.time.now e 10000000000 = true

/-- The same, as the model decides it. -/
def dogAgain (m : Mach) : Bool :=
  match m.ctl.lastWatchdog with
  | some t => lessSince m.time.now t (10 * giga)
  | none => false

theorem dogAgain_iff (m : Mach) : dogAgain m = true ↔ DogAgain m := by
  have hg : 10 * giga = 10000000000 := rfl
  unfold dogAgain DogAgain
  rw [hg]
  cases m.ctl.lastWatchdog <;> simp

section
variable {m : Mach} (hr : m.ctl.st = .configured ∨ ticking m = true) (hw : m.ctl.warmDue = false)
include hr hw

/-- A Stem core that runs: the watchdog resets the module, or the Stem cores alone. -/
theorem watchdog_runs : watchdog m = if dogAgain m then moduleReset 3 m
    else warmReset 6 (setCtl m (fun c => { c with lastWatchdog := some m.time.now })) := by
  unfold watchdog
  exact if_neg (by simpa [hw, or_iff_not_imp_left] using hr)

theorem watchdog_again (h : DogAgain m) : watchdog m = moduleReset 3 m :=
  (watchdog_runs hr hw).trans (if_pos ((dogAgain_iff m).mpr h))

theorem watchdog_first (h : ¬ DogAgain m) : watchdog m = warmReset 6 (setCtl m (fun c => { c with lastWatchdog := some m.time.now })) :=
  (watchdog_runs hr hw).trans (if_neg fun ha => h ((dogAgain_iff m).mp ha))

end

section
variable {s : State}

theorem completes_watchdogFirst (hr : s.mach.ctl.st = .configured ∨ ticking s.mach = true) (hw : s.mach.ctl.warmDue = false) (h : ¬ DogAgain s.mach) :
    Completes .stemWatchdogExpiry s (fun t => WarmResetDone 6 s.mach t ∧ t.ctl.lastWatchdog = some s.mach.time.now) := by
  refine completes_run _ (exec_stemWatchdogExpiry s) ?_
  rw [watchdog_first (m := fresh s.mach) hr hw h]
  generalize hu : setCtl (fresh s.mach) (fun c => { c with lastWatchdog := some (fresh s.mach).time.now }) = u
  have hd : WarmResetDone 6 s.mach (warmReset 6 u) := by
    have hd := warmReset_done (cause := 6) (by decide) u
    rw [← hu] at hd ⊢
    exact hd
  refine ⟨hd.settled, ?_⟩
  rw [settle_ctl]
  refine (congrArg Tally.dog (tally_warmReset 6 u)).trans ?_
  rw [← hu]
  rfl

theorem completes_watchdogAgain (hr : s.mach.ctl.st = .configured ∨ ticking s.mach = true) (hw : s.mach.ctl.warmDue = false) (h : DogAgain s.mach)
    (hp : s.mach.ctl.powerGood = true) : Completes .stemWatchdogExpiry s (ModuleResetDone 3 s.mach) :=
  completes_moduleReset _ (exec_stemWatchdogExpiry s) (by decide) (watchdog_again (m := fresh s.mach) hr hw h) hp rfl

theorem completes_glumeIntegrity (ha : alive s.mach = true) (hp : s.mach.ctl.powerGood = true) :
    Completes .glumeIntegrityFailure s (ModuleResetDone 2 s.mach) :=
  completes_moduleReset _ (exec_glumeIntegrityFailure s) (by decide) (if_pos ha) ((congrArg Booted.powerGood (booted_stopModule _ 3)).trans hp)
    ((congrArg Tally.cause (tally_stopModule (fresh s.mach) 3)).trans rfl)

theorem completes_debugReset (ha : alive s.mach = true) (hl : effLevel s.mach = .full) (hp : s.mach.ctl.powerGood = true) :
    Completes .debugHeaderReset s (ModuleResetDone 4 s.mach) :=
  completes_moduleReset _ (exec_debugHeaderReset s) (by decide)
    (if_pos (by simp [show alive (fresh s.mach) = true from ha, show effLevel (fresh s.mach) = .full from hl])) hp rfl

theorem completes_debugIgnored (hl : effLevel s.mach ≠ .full) : Completes .debugHeaderReset s (ResetIgnoredBy s) :=
  completes_resetIgnoredBy _ (exec_debugHeaderReset s) (if_neg (by simp [show effLevel (fresh s.mach) ≠ .full from hl]))

end

/-- Settles O22: a module reset boots what is not volatile with its cause counted before; a warm reset ends in CONFIGURED, with none in flight. -/
theorem moduleAndWarmResets : Obligations.ModuleAndWarmResets := by
  unfold Obligations.ModuleAndWarmResets
  intro module warm ignored denied
  refine ⟨fun s hm => ⟨completes_moduleResetAct hm, fun hf h => ?_, completes_warmResetAct hm, completes_warmResetCounted hm, fun hf h => ?_,
      fun hf => ?_, fun key hk => ⟨?_, ?_⟩⟩,
    fun s hr hw => ⟨completes_watchdogFirst hr hw, completes_watchdogAgain hr hw⟩,
    fun s ha => ⟨completes_glumeIntegrity ha, completes_debugReset ha, completes_debugIgnored⟩⟩
  · exact completes_emit _ _ (exec_moduleReset _ s) (moduleResetReq_denied (m := fresh s.mach) hm hf h)
  · exact completes_emit _ _ (exec_warmReset _ s) (warmResetReq_denied (m := fresh s.mach) hm hf h)
  · exact completes_resetIgnoredBy _ (exec_warmReset _ s) (warmResetReq_ignored (m := fresh s.mach) hm (.inr hf))
  · exact completes_resetIgnoredBy _ (exec_moduleReset _ s) (moduleResetReq_key (m := fresh s.mach) hm hk)
  · exact completes_resetIgnoredBy _ (exec_warmReset _ s) (warmResetReq_ignored (m := fresh s.mach) hm (.inl hk))

end Sys2Proof.Machine
